-- ==== Sys2Proof/Word.lean ====
section
/-!
DEFINITION. The word types of the ZD3296: 32-bit parameter words (R395) and bytes (R5).
-/
namespace Sys2Proof

/-- A 32-bit parameter word. -/
abbrev Word := BitVec 32

/-- A byte of a frame, a folio or a record. -/
abbrev Byte := BitVec 8

end Sys2Proof
end

