-- ==== Sys2Proof/Syntax.lean ====
section
/-!
DEFINITION. The commands of the block: one constructor of `Instr` for each row of spec/opcode_table.json,
with the operands that the command brings from outside. Host command rows carry the context `Req` of the
admitted frame (R213 to R216); event rows carry what the device senses (samples, detector outcomes, supply).
-/
namespace Sys2Proof

/-- The three host ports (R201, R206). -/
inductive Port where
  | a | b | c
  deriving DecidableEq, Repr

/-- Session roles, codes 0 to 3 (R208). -/
inductive Role where
  | legal | operator | reader | service
  deriving DecidableEq, Repr

/-- The context of an admitted command: where its reply goes and who sent it (R197, R216). The role is kept,
because a command in flight runs to completion after its session has ended (R212). -/
structure Req where
  port    : Port
  session : Fin 1024
  role    : Role
  queue   : Fin 32
  tag     : Fin 128
  seq     : BitVec 32
  secured : Bool
  deriving DecidableEq, Repr

/-- A folio selector (R226): latest sealed, folio number, lease identifier, or a KIND the rule rejects. -/
inductive Selector where
  | latest
  | number (n : Nat)
  | lease (id : Nat)
  | badKind (k : Byte)
  deriving DecidableEq, Repr

/-- Causes of a modulator hard fault, CAUSE 1 to 6 (R35). -/
inductive HardCause where
  | stuck | notoggle | overflow | limit | clock | parity
  deriving DecidableEq, Repr

/-- A calendar time in decimal fields (R333, R336): year 2000 to 2199, sub-second count 0 to 32767. -/
structure CalTime where
  year  : Nat
  month : Nat
  date  : Nat
  hour  : Nat
  min   : Nat
  sec   : Nat
  sub   : Nat
  deriving DecidableEq, Repr

/-- The BCD payload of CLD_SET (R243). -/
structure CldFields where
  sec   : Byte
  min   : Byte
  hour  : Byte
  dow   : Byte
  date  : Byte
  month : Byte
  year  : Byte
  cent  : Byte
  sub   : BitVec 16
  deriving DecidableEq, Repr

/-- What the integrator section of one slot brings in one comb frame (R35, R46, R51): the code of each of its 12 MOD
clocks, none where the parity of the hop failed; whether the latched value agrees with its parity bit at the comb
engine; and the 3-bit frame count beside it. -/
structure Latch where
  codes  : List (Option Int)
  parity : Bool
  count  : Fin 8
  deriving DecidableEq, Repr

/-- What a word of accumulator SRAM holds (R255): a part of an accumulator of a point, of a quantity (in the order of R238) of one of the
groups of its pending sums or of its unreconciled registers, six measured and six bridged, of a balance accumulator of a bus (R122), of A,
N or G of a pulse output (R173), or the bookkeeping of the accumulation path. -/
inductive AccCell where
  | total (point : Fin 128) (acc : Fin 22)
  | pendingSum (point : Fin 128) (group : Fin 12) (quantity : Fin 7)
  | unreconciled (point : Fin 128) (group : Fin 12) (quantity : Fin 7)
  | balance (bus : Fin 2) (acc : Fin 6)
  | pulse (out : Fin 8) (value : Fin 3)
  | bookkeeping
  deriving DecidableEq, Repr

/-- One SECDED error found in accumulator SRAM (R255): the number of the word, what it holds, the bank it lies in (true: mirror), and
whether it is correctable. -/
structure AccErr where
  word        : Nat
  cell        : AccCell
  mirror      : Bool
  correctable : Bool
  deriving DecidableEq, Repr

/-- The regions of R257 that hold an uncorrectable SRAM word. -/
inductive SramRegion where
  | folioSlot (number offset : Nat)
  | profileRing (record : Nat)
  | wbRing (set offset : Nat)
  | capture (buffer : Fin 2) (offset : Nat)
  | eventRing (number : Nat)
  | sessionContext (session : Fin 1024)
  | completionSlot (session : Fin 1024) (tag : Fin 128) (hello : Bool)
  | anvil
  deriving DecidableEq, Repr

/-- The region lies in the Scribe SRAM (R257). -/
def SramRegion.scribe : SramRegion → Bool
  | .sessionContext _ | .completionSlot .. => true
  | .folioSlot .. | .profileRing _ | .wbRing .. | .capture .. | .eventRing _ | .anvil => false

/-- The commands of the block, in the order of the opcode table. -/
inductive Instr where
  | nop (r : Req) (payload : List Byte)
  | sessionOpen (r : Req) (payload : List Byte)
  | sessionClose (r : Req)
  | setPriority (r : Req) (prio : Byte)
  | folioRead (r : Req) (sel : Selector) (offset length : Nat) (errs : List (Nat × Word))
  | folioLease (r : Req) (sel : Selector) (duration : Nat)
  | folioRenew (r : Req) (lease duration : Nat)
  | folioRelease (r : Req) (lease : Nat)
  | folioCut (r : Req)
  | folioSealGet (r : Req) (sel : Selector)
  | paramRead (r : Req) (addr count : Nat)
  | paramWrite (r : Req) (addr : Nat) (words : List Word)
  | scRead (r : Req) (sel : Selector) (first count : Nat)
  | eventRead (r : Req) (number : Nat)
  | eventAck (r : Req) (number : Nat)
  | profileRead (r : Req) (number count : Nat)
  | profileAck (r : Req) (number : Nat)
  | wbRead (r : Req) (number offset length : Nat)
  | capRead (r : Req) (number offset length : Nat)
  | capTrigger (r : Req)
  | capRelease (r : Req) (number : Nat)
  | logRead (r : Req) (number count : Nat)
  | demandReset (r : Req) (mask : BitVec 128)
  | calCommit (r : Req) (digest : List Byte)
  | calPendingRead (r : Req) (point select : Nat)
  | calPendingResolve (r : Req) (mask : BitVec 128) (action : Nat)
  | pulseTest (r : Req) (mask : BitVec 8) (ten : Bool) (tconst : Word)
  | blotRead (r : Req)
  | blotClear (r : Req) (mask : BitVec 128)
  | bankEnter (r : Req)
  | bankExit (r : Req)
  | softReset (r : Req) (scope : Nat)
  | auxRead (r : Req) (input : Nat) (code : BitVec 12)
  | cfgSave (r : Req)
  | inkLock (r : Req) (duration : Nat)
  | inkUnlock (r : Req)
  | fwBegin (r : Req) (length : Nat)
  | fwWrite (r : Req) (offset : Nat) (data : List Byte)
  | fwVerify (r : Req)
  | fwActivate (r : Req)
  | cldSet (r : Req) (fields : CldFields)
  | cldAdjustStep (r : Req) (mode : Byte) (amount : Int)
  | cldAdjustSlew (r : Req) (mode : Byte) (amount : Int)
  | cldAlarmAck (r : Req) (mask : BitVec 2)
  | grdClearArm (r : Req) (mask : BitVec 16)
  | grdClearConfirm (r : Req) (mask : BitVec 16) (challenge : BitVec 32)
  | grdTest (r : Req) (source : Nat) (declares : Bool)
  | idCertRead (r : Req) (offset length : Nat)
  | pnlTableLoad (r : Req) (transition band : Nat) (final : Bool) (offset : Nat) (data : List Byte)
  | pnlImageWrite (r : Req) (region offset : Nat) (data : List Byte)
  | pnlUpdate (r : Req) (region transition : Nat) (urgent : Bool)
  | forceSpare (r : Req) (ch : Fin 136)
  | restore (r : Req) (ch : Fin 136)
  | check (r : Req) (ch : Fin 136)
  | trimModWrite (r : Req) (slot : Fin 170) (value : Word)
  | trimVrefWrite (r : Req) (value : Word)
  | trimOscWrite (r : Req) (value : Word)
  | reload (r : Req)
  | rejoin (r : Req) (comb met : Bool)
  | xreturn (r : Req)
  | eoi (r : Req) (target : Fin 6) (source dtag : Byte)
  | intTargetDisable (r : Req) (target : Fin 6)
  | arm (r : Req)
  | fdis (r : Req) (key : Byte) (source : BitVec 4)
  | recover (r : Req) (clockOk : Bool)
  | frameReceive (port : Port) (bytes : List Byte) (errs : List (SramRegion × Word))
  | read (port : Port) (bytes : Nat)
  | status (port : Port)
  | uartReplySent
  | portTimeout (port : Port)
  | spiPortReset (port : Port)
  | uartFrameStall
  | brk (long : Bool)
  | replyDropped (port : Port) (tag : Nat)
  | sessionIdleTimeout (session : Fin 1024)
  | leaseExpiry (session : Fin 1024) (lease : Nat)
  | inkLockExpiry
  | grdChallengeExpiry
  | combFrame (latches : List Latch) (disagree : List Nat) (again : Bool) (suspect : Fin 2)
  | engFenced (failed : Option (Fin 2))
  | sampleBatch (index : Fin 512) (parity : List Nat)
  | metrologyReplay (batch : Fin 512) (again : Bool) (failed : Fin 2)
  | autoFreezeEnd (bus : Fin 2)
  | cycleClose (errs : List AccErr)
  | freerunEntry
  | lsyncEdge (rising : Bool) (tick : Nat)
  | lsyncTimeout
  | blockClose
  | aggregateClose
  | tenMinuteTick
  | frequencyIntervalClose
  | demandClose (point : Fin 128)
  | profileClose
  | balanceClose (bus : Fin 2)
  | modulatorHardFault (slot : Fin 170) (cause : HardCause)
  | chSubstituted (ch : Fin 136)
  | spareMove (group : Fin 34) (err : BitVec 16)
  | driftCheckPhase (group : Fin 34) (err : BitVec 16)
  | chDriftChecked (group : Fin 34)
  | chRestored (ch : Fin 136) (err : BitVec 16) (detected : Option HardCause)
  | suppressionEnd (ch : Fin 136)
  | chClip (ch : Fin 136)
  | pulseLeadingEdge (out : Fin 8)
  | pulseTrailingEdge (out : Fin 8)
  | wbSetEnd
  | captureFilled (buffer : Fin 2)
  | captureKeepExpiry (buffer : Fin 2)
  | eventLogWrite (ecc : Option Nat)
  | intTimeout (target : Fin 6)
  | auxScan (input : Fin 16) (codes : List (BitVec 12))
  | accScrub (errs : List AccErr)
  | sramScrub (errs : List (SramRegion × Word))
  | xtalFail
  | xtalRate (ppm : Int)
  | xtalReturn
  | powerFail (vin pfw : Bool)
  | journalEntry
  | tailUpdate
  | journalErase (ok : Bool)
  | pfSustained
  | pfRecovered
  | brownout
  | por (bad : List (Fin 2 × Word)) (selfCheck : Bool)
  | resetnCold
  | resetnWarm (bad : List (Fin 2 × Word)) (selfCheck : Bool)
  | vaonChangeover (toVbat : Bool)
  | supplyLossBoth
  | crystalAccepted
  | startupReady
  | configRestore (bad0 bad1 : Option Word)
  | cfgRestoreFail
  | firstMeteredCycle
  | startupFreerunFallback
  | anvWdog (core : Fin 2) (bad : List (Fin 2 × Word))
  | fwTrialEnd
  | calSecondBoundary
  | calStopped
  | grdClock
  | grdSource (group : BitVec 16) (covers : List (Fin 4 × Bool))
  | panelPairBoundary
  | railStep
  | railRead (code : BitVec 12)
  | panelFault (clock : Bool)
  | folioSealed (ecc : Bool)
  | resetnRelease (bad : List (Fin 2 × Word)) (selfCheck : Bool)
  | journalRestored (bad : List Word)
  | startUpTest (failed : List Nat) (comb met : Option (Fin 2))
  | portsReady
  | xtalStartTimeout
  | slewEnd
  | cellScanPeriod (group : BitVec 16) (covers : List (Fin 4 × Bool))
  | panelFrameBoundary
  | isolatedParityError (slot : Fin 170)
  deriving DecidableEq, Repr

end Sys2Proof
end

