-- ==== Sys2Proof/Config.lean ====
section
/-!
DEFINITION. What the spec leaves open or fixes per device: fuse values, secrets, filter coefficients, the precision
of square roots and angles, and identifiers the device chooses. Each is an opaque constant: no proof can see its value.
-/
namespace Sys2Proof.Config

/-- A fresh free value: the n-th value the device chooses for itself (identifiers, TRNG output). -/
opaque freeNat : Nat → Nat

/-- The 64-bit serial number from the fuses (R3). -/
opaque serial : BitVec 64

/-- The fused words of the device trims by address (R135): the spec states no value. -/
opaque trimFuse : Nat → BitVec 32

/-- The words of the fused SERVICE key, SES.KEY entry 0 (R211). -/
opaque serviceKey : Nat → BitVec 32

/-- CTGT of an interrupt source, set by Denhamon (R293). -/
opaque coreTargets : Nat → BitVec 2

/-- CMIN of an interrupt source, set by Denhamon, before it is bounded by 8 (R293). -/
opaque corePrioMin : Nat → Nat

/-- The base priority of a core target that Denhamon sets as it boots, before it is brought into 0 to 15 (R286). -/
opaque coreBase : Nat → Nat

/-- Square root as the engines compute it (R87, R90): the precision is not stated. -/
opaque sqrt : Rat → Rat

/-- cos (2π x) of a turn fraction (R87, R150). -/
opaque cosTurn : Rat → Rat

/-- sin (2π x) of a turn fraction (R87, R150). -/
opaque sinTurn : Rat → Rat

/-- The argument of the phasor x + jy in turns, in (−1/2, 1/2] (R88, R150). -/
opaque argTurn : Rat → Rat → Rat

/-- The off-centre taps of half-band stage 1, 2 or 3, from the centre outwards, without the zeros between them (R52): only
tolerances are stated. -/
opaque halfBand : Nat → List Rat

/-- The taps of the minimum-phase anti-alias lowpass with the droop compensation of a CIC order, newest input first, scaled
to full-scale peak (R52): only tolerances are stated. -/
opaque lowpass : Nat → List Rat

/-- The gain ratio that a dwell forms where the spare delivers nothing but zeros (R39). -/
opaque silentGain : Rat

/-- The coefficient of a first-order lowpass whose corner is the given fraction of the sample rate (R27, R53): the
discretisation is not stated. -/
opaque firstOrder : Rat → Rat

/-- The interpolated value of comb frame i of n between the value before them and the one after them (R36, R51, R252). -/
opaque interpolate : Int → Int → Nat → Nat → Int

/-- The value with which a comb frame that is still open enters the filters, by the number of the frame and the place of the open
one behind it (R36, R252): none is stated. -/
opaque openFrame : Nat → Nat → Int

/-- The value of an invalid sample that has no valid stream sample on either side, by channel and comb frame (R81): none is stated. -/
opaque unseenSample : Nat → Nat → Rat

/-- The comb frames that a change of the SYS reference at a comb frame bridges before its detection, and after it until the PLL has
relocked (R260, R261): only their bound is stated. -/
opaque relockFrames : Nat → Nat × Nat

/-- Taps 0 to 4 of the fourth-order acquisition lowpass on its inputs, newest first (R69): only its corner, 80 Hz, is stated. -/
opaque acqFeed : Nat → Rat

/-- Taps 1 to 4 of the acquisition lowpass on its outputs before, newest first (R69). -/
opaque acqBack : Nat → Rat

/-- What the loop filter adds to the frequency word for a phase error and the one before it, in 2^-16 of the period (R68): the
loop is stated by its characteristics only. -/
opaque loopFreq : Int → Int → Int

/-- The phase correction that the loop asks for, in 2^-16 cycle (R68). -/
opaque loopPhase : Int → Int

/-- The centre tap and the five taps to either side of it of the wideband compensation filter (R161). -/
opaque wbTaps : List Rat

/-- The factor from a comb output of order 4 to a fraction of full-scale peak (R161). -/
opaque combScale : Rat

/-- The decimal logarithm (R168). -/
opaque log10 : Rat → Rat

/-- The centre tap and the taps to either side of it of the lowpass of the Hilbert engine, 512 to 128 samples a cycle (R89):
only tolerances are stated. -/
opaque hilbertLowpass : List Rat

/-- Tap m of the antisymmetric Hilbert transformer, 1 to 31 places off its centre (R89). -/
opaque hilbertTap : Nat → Rat

/-- The gain of the main path of a CIC order at a frequency in Hz, that the harmonic engine removes (R52, R150): stated by tolerance
only. -/
opaque mainGain : Nat → Rat → Rat

/-- A ratio of R152 whose fundamental subgroup is zero: none is stated. -/
opaque undefinedRatio : BitVec 16

/-- The phase of the main path of a CIC order at a frequency in Hz beside its fixed delay, in turns (R52, R150). -/
opaque mainPhase : Nat → Rat → Rat

/-- The private identity key, before it is brought into 1 to n − 1: a secret (R359). -/
opaque identityKey : Nat

/-- The X.509 certificate that Crivia issues for a serial number and a public key, DER bytes (R359). -/
opaque issued : BitVec 64 → Nat × Nat → List (BitVec 8)

/-- The device nonce of the n-th SESSION_OPEN reply, by bytes (R209). -/
opaque helloBytes : Nat → Nat → BitVec 8

/-- The device's ephemeral private key of the n-th SESSION_OPEN, before it is brought into 1 to n − 1 (R210). -/
opaque ephemeralKey : Nat → Nat

/-- The 32 bytes of Z where the host's ephemeral key is no point of the curve (R210): none is stated. -/
opaque strayShared : Nat × Nat → Nat

/-- The Crivia P-384 key in the fuses, X and Y (R328). -/
opaque criviaKey : Nat × Nat

/-- The CRC-32C of a configuration image copy, by its number, cycle number, words and tables (R323): the byte layout of a copy is not
stated. -/
opaque imageCrc : Nat → Nat → List (Nat × BitVec 32) → List (Nat × Nat × List (BitVec 8)) → BitVec 32

/-- The version that the recovery image reports (R332): none is stated. -/
opaque recoveryVersion : BitVec 32

/-- What an accumulator holds that was reloaded and that no sealed folio carries (R256). -/
opaque lostAccumulator : Nat → Nat

/-- The same of a pending sum or an unreconciled register (R256). -/
opaque lostSum : Nat → Rat

/-- The same of a balance accumulator, or of A or G of a pulse output (R256). -/
opaque lostSigned : Nat → Int

end Sys2Proof.Config
end

