-- ==== Sys2Proof/Machine/Bits.lean ====
section
/-!
DEFINITION. Bit fields, little-endian byte strings (R5), BCD and bounded lists: the helpers every format uses.
-/
namespace Sys2Proof.Machine

/-- Bits [hi:lo] of a word as a number (R4). -/
def fld (w : Word) (hi lo : Nat) : Nat := (w.toNat >>> lo) % 2 ^ (hi + 1 - lo)

/-- Bit i of a word (R4). -/
def bit (w : Word) (i : Nat) : Bool := w.getLsbD i

/-- A field value placed at bit lo, cut to the width of [hi:lo]. -/
def put (hi lo v : Nat) : Nat := (v % 2 ^ (hi + 1 - lo)) <<< lo

/-- A Boolean as a bit at position i. -/
def flag (i : Nat) (b : Bool) : Nat := if b then 1 <<< i else 0

/-- A word from a number. -/
def word (n : Nat) : Word := BitVec.ofNat 32 n

/-- The mask of bits [hi:lo]. -/
def mask (hi lo : Nat) : Word := BitVec.ofNat 32 ((2 ^ (hi + 1 - lo) - 1) <<< lo)

/-- A w-bit two's-complement number as an integer. -/
def signed (w n : Nat) : Int := if n % 2 ^ w < 2 ^ (w - 1) then (n % 2 ^ w : Nat) else (n % 2 ^ w : Nat) - (2 ^ w : Nat)

/-- An integer as a w-bit two's-complement number. -/
def unsigned (w : Nat) (i : Int) : Nat := (i % (2 ^ w : Nat)).toNat

/-- The k bytes of n, least significant first (R5). -/
def le : Nat → Nat → List Byte
  | 0, _ => []
  | k + 1, n => BitVec.ofNat 8 n :: le k (n / 256)

/-- The k bytes of n, most significant first (keys and signatures, R209). -/
def be (k n : Nat) : List Byte := (le k n).reverse

/-- The number a little-endian byte string spells (R5). -/
def leNat : List Byte → Nat
  | [] => 0
  | b :: bs => b.toNat + 256 * leNat bs

/-- The number a big-endian byte string spells. -/
def beNat (bs : List Byte) : Nat := leNat bs.reverse

/-- k zero bytes. -/
def zeros (k : Nat) : List Byte := List.replicate k 0

/-- k bytes 0xFF. -/
def ones (k : Nat) : List Byte := List.replicate k 0xFF

/-- A byte string cut or filled with zeros to k bytes. -/
def fit (k : Nat) (bs : List Byte) : List Byte := (bs.take k) ++ zeros (k - bs.length)

/-- The 32-bit word at a byte offset of a byte string; 0 beyond its end (R5). -/
def wordAt (bs : List Byte) (off : Nat) : Word := word (leNat ((bs.drop off).take 4))

/-- The byte string of a list of words (R5). -/
def wordBytes (ws : List Word) : List Byte := ws.flatMap fun w => le 4 w.toNat

/-- Decimal 0 to 99 as packed BCD. -/
def toBcd (n : Nat) : Nat := (n / 10 % 10) * 16 + n % 10

/-- Packed BCD as a number. -/
def ofBcd (b : Byte) : Nat := (b.toNat / 16) * 10 + b.toNat % 16

/-- Both nibbles are decimal digits (R338). -/
def isBcd (b : Byte) : Bool := b.toNat / 16 ≤ 9 && b.toNat % 16 ≤ 9

/-- The least of n and the saturation limit. -/
def sat (limit n : Nat) : Nat := min limit n

/-- One element of a vector changed. -/
def upd {α : Type} {n : Nat} (v : Vector α n) (i : Fin n) (f : α → α) : Vector α n := v.set i.val (f v[i]) i.isLt

/-- An element of a list, or the default beyond its end. -/
def nth {α : Type} (l : List α) (i : Nat) (d : α) : α := l.getD i d

/-- The numbers lo, …, lo + n − 1. -/
def span (lo n : Nat) : List Nat := (List.range n).map (lo + ·)

/-- Insertion into an ascending list without repeats. -/
def insertAsc (x : Nat) : List Nat → List Nat
  | [] => [x]
  | y :: ys => if x < y then x :: y :: ys else if x = y then y :: ys else y :: insertAsc x ys

/-- The first number at or after start (modulo the size) that is not in use; one of the first used.length + 1
candidates always is when fewer than size numbers are in use. -/
def freshFrom (size start : Nat) (used : List Nat) : Nat :=
  ((List.range (used.length + 1)).map fun k => (start + k) % size).find? (fun x => !used.contains x) |>.getD (start % size)

/-- The sum of a list of rationals. -/
def sumR (l : List Rat) : Rat := l.foldl (· + ·) 0

/-- The arithmetic mean; 0 of nothing. -/
def meanR (l : List Rat) : Rat := if l.isEmpty then 0 else sumR l / (l.length : Rat)

/-- The greater of two rationals. -/
def maxR (a b : Rat) : Rat := if a ≤ b then b else a

/-- The least of two rationals. -/
def minR (a b : Rat) : Rat := if a ≤ b then a else b

/-- The magnitude of a rational. -/
def absR (a : Rat) : Rat := if a < 0 then -a else a

/-- The integer nearest to a rational, ties to even (R92, R122). -/
def roundEven (x : Rat) : Int :=
  let f := x.floor
  let d := x - (f : Rat)
  if d < 1 / 2 then f else if 1 / 2 < d then f + 1 else if f % 2 = 0 then f else f + 1

end Sys2Proof.Machine
end

