-- ==== Sys2Proof/Machine/Crypto.lean ====
section
/-!
DEFINITION. The functions the spec names: CRC-32C (R198), SHA-256 (R118, R126, R195, R325), SHA-384 (R327), the curves P-256
and P-384 (R209, R211, R327), ECDH and HKDF (R210) and AES-256-GCM (R199). They are those of FIPS 180-4, FIPS 186-4, RFC 2104,
RFC 5869, FIPS 197 and SP 800-38D (PRESUMED, log 11: the spec names the functions and does not print them).
-/
namespace Sys2Proof.Machine

/-- One bit of the reflected CRC-32C division (R198). -/
def crcBit (c : BitVec 32) : BitVec 32 := if c.getLsbD 0 then (c >>> 1) ^^^ 0x82F63B78#32 else c >>> 1

/-- One byte of the CRC-32C (R198). -/
def crcByte (c : BitVec 32) (b : Byte) : BitVec 32 :=
  let c := c ^^^ b.zeroExtend 32
  crcBit (crcBit (crcBit (crcBit (crcBit (crcBit (crcBit (crcBit c)))))))

/-- CRC-32C of a byte string (R198). -/
def crc32c (bs : List Byte) : BitVec 32 := (bs.foldl crcByte 0xFFFFFFFF#32) ^^^ 0xFFFFFFFF#32

/-- The primes from which FIPS 180-4 takes its constants. -/
def hashPrimes : List Nat :=
  [2, 3, 5, 7, 11, 13, 17, 19, 23, 29, 31, 37, 41, 43, 47, 53, 59, 61, 67, 71, 73, 79, 83, 89, 97, 101, 103, 107, 109,
   113, 127, 131, 137, 139, 149, 151, 157, 163, 167, 173, 179, 181, 191, 193, 197, 199, 211, 223, 227, 229, 233, 239,
   241, 251, 257, 263, 269, 271, 277, 281, 283, 293, 307, 311] ++
  [313, 317, 331, 337, 347, 349, 353, 359, 367, 373, 379, 383, 389, 397, 401, 409]

/-- The integer k-th root by bisection over the given number of bits, most significant first. -/
def rootBits (k n : Nat) : Nat → Nat → Nat
  | 0, acc => acc
  | b + 1, acc => rootBits k n b (if (acc + 2 ^ b) ^ k ≤ n then acc + 2 ^ b else acc)

/-- The first w bits of the fraction of the k-th root of p. -/
def rootFraction (k w p : Nat) : Nat := rootBits k (p * 2 ^ (k * w)) (w + 5) 0 % 2 ^ w

/-- What distinguishes the two hashes: word width, rounds, constants and rotations (FIPS 180-4). -/
structure Sha where
  w      : Nat
  rounds : Nat
  k      : List Nat
  big0   : Nat × Nat × Nat
  big1   : Nat × Nat × Nat
  small0 : Nat × Nat × Nat
  small1 : Nat × Nat × Nat

/-- SHA-256 (R118). -/
def sha256P : Sha :=
  { w := 32, rounds := 64, k := (hashPrimes.take 64).map (rootFraction 3 32),
    big0 := (2, 13, 22), big1 := (6, 11, 25), small0 := (7, 18, 3), small1 := (17, 19, 10) }

/-- SHA-512's compression, which SHA-384 uses (R327). -/
def sha512P : Sha :=
  { w := 64, rounds := 80, k := hashPrimes.map (rootFraction 3 64),
    big0 := (28, 34, 39), big1 := (14, 18, 41), small0 := (1, 8, 7), small1 := (19, 61, 6) }

/-- Rotation right of a w-bit number. -/
def rotr (w n x : Nat) : Nat := ((x >>> n) ||| (x <<< (w - n))) % 2 ^ w

/-- Xor of three rotations. -/
def Sha.big (p : Sha) (r : Nat × Nat × Nat) (x : Nat) : Nat :=
  rotr p.w r.1 x ^^^ rotr p.w r.2.1 x ^^^ rotr p.w r.2.2 x

/-- Xor of two rotations and a shift. -/
def Sha.small (p : Sha) (r : Nat × Nat × Nat) (x : Nat) : Nat :=
  rotr p.w r.1 x ^^^ rotr p.w r.2.1 x ^^^ (x >>> r.2.2)

/-- The message schedule, newest word first. -/
def Sha.schedule (p : Sha) : Nat → List Nat → List Nat
  | 0, ws => ws
  | n + 1, ws =>
    p.schedule n (((p.small p.small1 (nth ws 1 0) + nth ws 6 0 + p.small p.small0 (nth ws 14 0) + nth ws 15 0) % 2 ^ p.w) :: ws)

/-- The working variables a to h. -/
structure ShaState where
  a : Nat
  b : Nat
  c : Nat
  d : Nat
  e : Nat
  f : Nat
  g : Nat
  h : Nat

/-- One round. -/
def Sha.round (p : Sha) (s : ShaState) (kw : Nat) : ShaState :=
  let m := 2 ^ p.w
  let ch := (s.e &&& s.f) ^^^ ((m - 1 - s.e) &&& s.g)
  let maj := (s.a &&& s.b) ^^^ (s.a &&& s.c) ^^^ (s.b &&& s.c)
  let t1 := s.h + p.big p.big1 s.e + ch + kw
  let t2 := p.big p.big0 s.a + maj
  { a := (t1 + t2) % m, b := s.a, c := s.b, d := s.c, e := (s.d + t1) % m, f := s.e, g := s.f, h := s.g }

/-- One block, given as 16 words in order. -/
def Sha.block (p : Sha) (s : ShaState) (ws : List Nat) : ShaState :=
  let sch := (p.schedule (p.rounds - 16) ws.reverse).reverse
  let t := (List.zipWith (· + ·) sch p.k).foldl p.round s
  let m := 2 ^ p.w
  { a := (s.a + t.a) % m, b := (s.b + t.b) % m, c := (s.c + t.c) % m, d := (s.d + t.d) % m,
    e := (s.e + t.e) % m, f := (s.f + t.f) % m, g := (s.g + t.g) % m, h := (s.h + t.h) % m }

/-- The padded message: 0x80, zeros and the bit length, big-endian. -/
def shaPad (blk lenBytes : Nat) (bs : List Byte) : List Byte :=
  bs ++ [0x80#8] ++ zeros ((blk - (bs.length + 1 + lenBytes) % blk) % blk) ++ be lenBytes (8 * bs.length)

/-- A byte string cut into n pieces of k bytes. -/
def pieces {α : Type} (k : Nat) : Nat → List α → List (List α)
  | 0, _ => []
  | n + 1, l => l.take k :: pieces k n (l.drop k)

/-- The big-endian words of a block. -/
def beWords (k : Nat) (bs : List Byte) : List Nat := (pieces k 16 bs).map beNat

/-- All blocks of a padded message. -/
def Sha.run (p : Sha) (init : ShaState) (bs : List Byte) : ShaState :=
  let blk := p.w * 2
  (pieces blk (bs.length / blk) bs).foldl (fun s b => p.block s (beWords (p.w / 8) b)) init

/-- SHA-256 of a byte string, 32 bytes (R118, R126). -/
def sha256 (bs : List Byte) : List Byte :=
  let i := (hashPrimes.take 8).map (rootFraction 2 32)
  let s := sha256P.run ⟨nth i 0 0, nth i 1 0, nth i 2 0, nth i 3 0, nth i 4 0, nth i 5 0, nth i 6 0, nth i 7 0⟩
    (shaPad 64 8 bs)
  be 4 s.a ++ be 4 s.b ++ be 4 s.c ++ be 4 s.d ++ be 4 s.e ++ be 4 s.f ++ be 4 s.g ++ be 4 s.h

/-- SHA-384 of a byte string, 48 bytes (R327). -/
def sha384 (bs : List Byte) : List Byte :=
  let i := ((hashPrimes.drop 8).take 8).map (rootFraction 2 64)
  let s := sha512P.run ⟨nth i 0 0, nth i 1 0, nth i 2 0, nth i 3 0, nth i 4 0, nth i 5 0, nth i 6 0, nth i 7 0⟩
    (shaPad 128 16 bs)
  be 8 s.a ++ be 8 s.b ++ be 8 s.c ++ be 8 s.d ++ be 8 s.e ++ be 8 s.f

/-- A short Weierstrass curve with a = −3: prime, b, base point and order. -/
structure Curve where
  p  : Nat
  b  : Nat
  gx : Nat
  gy : Nat
  n  : Nat

/-- P-256 (R209, R211). -/
def p256 : Curve :=
  { p := 2 ^ 256 - 2 ^ 224 + 2 ^ 192 + 2 ^ 96 - 1
    b := 0x5AC635D8AA3A93E7B3EBBD55769886BC651D06B0CC53B0F63BCE3C3E27D2604B
    gx := 0x6B17D1F2E12C4247F8BCE6E563A440F277037D812DEB33A0F4A13945D898C296
    gy := 0x4FE342E2FE1A7F9B8EE7EB4A7C0F9E162BCE33576B315ECECBB6406837BF51F5
    n := 0xFFFFFFFF00000000FFFFFFFFFFFFFFFFBCE6FAADA7179E84F3B9CAC2FC632551 }

/-- P-384 (R327). -/
def p384 : Curve :=
  { p := 2 ^ 384 - 2 ^ 128 - 2 ^ 96 + 2 ^ 32 - 1
    b := 0xB3312FA7E23EE7E4988E056BE3F82D19181D9C6EFE8141120314088F5013875AC656398D8A2ED19D2A85C8EDD3EC2AEF
    gx := 0xAA87CA22BE8B05378EB1C71EF320AD746E1D3B628BA79B9859F741E082542A385502F25DBF55296C3A545E3872760AB7
    gy := 0x3617DE4A96262C6F5D9E98BF9292DC29F8F41DBD289A147CE9DA3113B5F0B8C00A60B1CE1D7E819D7A431D7C90EA0E5F
    n := 0xFFFFFFFFFFFFFFFFFFFFFFFFFFFFFFFFFFFFFFFFFFFFFFFFC7634D81F4372DDF581A0DB248B0A77AECEC196ACCC52973 }

/-- The point (x, y) lies on the curve: y² = x³ − 3x + b (mod p), both coordinates below p (R211). -/
def Curve.onCurve (c : Curve) (x y : Nat) : Bool :=
  x < c.p && y < c.p && (y * y) % c.p == (x * x * x + (c.p - 3) * x + c.b) % c.p

/-- b^e mod m over the given number of exponent bits. -/
def powMod (m : Nat) : Nat → Nat → Nat → Nat
  | 0, _, _ => 1 % m
  | k + 1, b, e => let h := powMod m k ((b * b) % m) (e / 2); if e % 2 = 1 then (h * b) % m else h

/-- The inverse modulo a prime. -/
def invMod (m x : Nat) : Nat := powMod m 400 (x % m) (m - 2)

/-- Addition of points; none is the point at infinity. -/
def Curve.add (c : Curve) : Option (Nat × Nat) → Option (Nat × Nat) → Option (Nat × Nat)
  | none, q => q
  | q, none => q
  | some (x1, y1), some (x2, y2) =>
    let p := c.p
    if x1 % p = x2 % p ∧ (y1 + y2) % p = 0 then none else
    let l := if x1 % p = x2 % p then (3 * x1 * x1 + (p - 3)) % p * invMod p (2 * y1) % p
             else (y2 + p - y1 % p) % p * invMod p ((x2 + p - x1 % p) % p) % p
    let x3 := (l * l + 2 * p - x1 % p - x2 % p) % p
    some (x3, (l * ((x1 + p - x3) % p) + p - y1 % p) % p)

/-- Multiplication of a point over the given number of scalar bits. -/
def Curve.mul (c : Curve) : Nat → Nat → Option (Nat × Nat) → Option (Nat × Nat)
  | 0, _, _ => none
  | k + 1, e, q => let h := c.mul k (e / 2) (c.add q q); if e % 2 = 1 then c.add h q else h

/-- ECDSA verification of (r, s) over a hash number by the key (x, y) (R209, R327). -/
def Curve.verify (c : Curve) (bits : Nat) (x y h r s : Nat) : Bool :=
  if r = 0 || s = 0 || c.n ≤ r || c.n ≤ s || !c.onCurve x y then false else
  let w := invMod c.n s
  match c.add (c.mul bits (h * w % c.n) (some (c.gx, c.gy))) (c.mul bits (r * w % c.n) (some (x, y))) with
  | none => false
  | some (x1, _) => x1 % c.n == r

/-- The ECDSA signature (r, s) of a hash number by a private key, with a secret number (R195, R209). -/
def Curve.sign (c : Curve) (bits d k h : Nat) : Nat × Nat :=
  let r := ((c.mul bits k (some (c.gx, c.gy))).map Prod.fst).getD 0 % c.n
  (r, invMod c.n k * (h + r * d) % c.n)

/-! ### ECDH, HMAC and HKDF (R210) -/

/-- The public key of a private key (R209). -/
def Curve.public (c : Curve) (bits d : Nat) : Nat × Nat := (c.mul bits d (some (c.gx, c.gy))).getD (0, 0)

/-- A free number as a private key of P-256 or a secret number, 1 to n − 1. -/
def p256Scalar (x : Nat) : Nat := x % (p256.n - 1) + 1

/-- The X coordinate of the product of a private key and a public key, where there is one (R210). -/
def Curve.shared (c : Curve) (bits d x y : Nat) : Option Nat :=
  if c.onCurve x y then (c.mul bits d (some (x, y))).map Prod.fst else none

/-- The exclusive or of two byte strings, as long as the shorter. -/
def xorBytes (a b : List Byte) : List Byte := List.zipWith (· ^^^ ·) a b

/-- HMAC-SHA-256 under a key of at most 64 bytes (RFC 2104). -/
def hmac256 (key msg : List Byte) : List Byte :=
  let k := fit 64 key
  let pad := fun (b : Byte) => xorBytes k (List.replicate 64 b)
  sha256 (pad 0x5C ++ sha256 (pad 0x36 ++ msg))

/-- The 64 bytes that HKDF-SHA-256 derives from a salt, keying material and info (R210; RFC 5869). -/
def hkdf64 (salt ikm info : List Byte) : List Byte :=
  let prk := hmac256 salt ikm
  let t1 := hmac256 prk (info ++ [1])
  t1 ++ hmac256 prk (t1 ++ info ++ [2])

/-- The candidates of RFC 6979 for the secret number of a signature by P-256 over SHA-256, from its two strings; the last of them is
brought into 1 to n − 1. -/
def candidate : Nat → List Byte → List Byte → Nat
  | 0, _, v => p256Scalar (beNat v)
  | m + 1, key, v =>
    let t := hmac256 key v
    let x := beNat t
    if 0 < x && x < p256.n then x
    else
      let next := hmac256 key (t ++ [0])
      candidate m next (hmac256 next t)

/-- The secret number of a signature by a private key over a hash number (R195; RFC 6979). -/
def signNumber (d h : Nat) : Nat :=
  let seed := be 32 d ++ be 32 (h % p256.n)
  let v0 := List.replicate 32 (1 : Byte)
  let k1 := hmac256 (zeros 32) (v0 ++ [0] ++ seed)
  let v1 := hmac256 k1 v0
  let k2 := hmac256 k1 (v1 ++ [1] ++ seed)
  candidate 16 k2 (hmac256 k2 v1)

/-! ### AES-256-GCM (R199; FIPS 197, SP 800-38D) -/

/-- Multiplication by x in the field of AES. -/
def xtime (b : Byte) : Byte := if b.getLsbD 7 then (b <<< 1) ^^^ 0x1B else b <<< 1

/-- Multiplication in the field of AES, over some bits of the second factor. -/
def gfMul : Nat → Byte → Byte → Byte
  | 0, _, _ => 0
  | n + 1, a, b => (if b.getLsbD 0 then a else 0) ^^^ gfMul n (xtime a) (b >>> 1)

/-- The inverse in the field of AES, the 254th power. -/
def gfInv (a : Byte) : Byte :=
  let sq := fun (x : Byte) => gfMul 8 x x
  ((List.range 6).foldl (fun (x : Byte × Byte) _ => (sq x.1, gfMul 8 x.2 (sq x.1))) (sq a, sq a)).2

/-- The substitution of AES. -/
def subByte (a : Byte) : Byte :=
  let b := gfInv a
  b ^^^ b.rotateLeft 1 ^^^ b.rotateLeft 2 ^^^ b.rotateLeft 3 ^^^ b.rotateLeft 4 ^^^ 0x63

/-- Words of the key schedule of AES-256, newest first: `i` is the number of the next one. -/
def aesWords : Nat → Nat → Byte → List (List Byte) → List (List Byte)
  | 0, _, _, ws => ws
  | n + 1, i, rcon, ws =>
    let last := ws.headD []
    let t := if i % 8 = 0 then xorBytes ((last.drop 1 ++ last.take 1).map subByte) [rcon, 0, 0, 0]
      else if i % 8 = 4 then last.map subByte else last
    aesWords n (i + 1) (if i % 8 = 0 then xtime rcon else rcon) (xorBytes (nth ws 7 []) t :: ws)

/-- The fifteen round keys of a 32-byte key. -/
def aesKeys (key : List Byte) : List (List Byte) :=
  pieces 16 15 (aesWords 52 8 1 (pieces 4 8 key).reverse).reverse.flatten

/-- The rows of a block, by columns, shifted. -/
def shiftRows (b : List Byte) : List Byte := (List.range 16).map fun i => nth b (i % 4 + 4 * ((i / 4 + i % 4) % 4)) 0

/-- One column mixed. -/
def mixColumn (c : List Byte) : List Byte :=
  (List.range 4).map fun i =>
    xtime (nth c i 0) ^^^ xtime (nth c ((i + 1) % 4) 0) ^^^ nth c ((i + 1) % 4) 0 ^^^ nth c ((i + 2) % 4) 0
      ^^^ nth c ((i + 3) % 4) 0

/-- AES-256 of a block of 16 bytes. -/
def aes256 (key block : List Byte) : List Byte :=
  let ks := aesKeys key
  let turn := fun (b k : List Byte) => xorBytes (((pieces 4 4 (shiftRows (b.map subByte))).map mixColumn).flatten) k
  let b := ((ks.drop 1).take 13).foldl turn (xorBytes block (ks.headD []))
  xorBytes (shiftRows (b.map subByte)) (nth ks 14 [])

/-- Multiplication in the field of GHASH over some bits of the first factor, most significant first. -/
def ghashMul : Nat → BitVec 128 → BitVec 128 → BitVec 128
  | 0, _, _ => 0
  | n + 1, x, v =>
    (if x.getLsbD 127 then v else 0)
      ^^^ ghashMul n (x <<< 1) (if v.getLsbD 0 then (v >>> 1) ^^^ (0xE1#128 <<< 120) else v >>> 1)

/-- A byte string filled with zeros to whole blocks of 16. -/
def padBlocks (bs : List Byte) : List Byte := bs ++ zeros ((16 - bs.length % 16) % 16)

/-- GHASH of a byte string of whole blocks under a key. -/
def ghash (h : BitVec 128) (bs : List Byte) : BitVec 128 :=
  (pieces 16 (bs.length / 16) bs).foldl (fun y b => ghashMul 128 (y ^^^ BitVec.ofNat 128 (beNat b)) h) 0

/-- A payload enciphered or deciphered in counter mode under a 12-byte nonce. -/
def gcmCrypt (key nonce bs : List Byte) : List Byte :=
  let stream := (List.range ((bs.length + 15) / 16)).flatMap fun i => aes256 key (nonce ++ be 4 (i + 2))
  xorBytes bs stream

/-- The authentication tag over associated data and a ciphertext. -/
def gcmTag (key nonce aad cipher : List Byte) : List Byte :=
  let h := BitVec.ofNat 128 (beNat (aes256 key (zeros 16)))
  let y := ghash h (padBlocks aad ++ padBlocks cipher ++ be 8 (8 * aad.length) ++ be 8 (8 * cipher.length))
  xorBytes (be 16 y.toNat) (aes256 key (nonce ++ be 4 1))

end Sys2Proof.Machine
end

