-- ==== Sys2Proof/Machine/Map.lean ====
section
/-!
DEFINITION. The parameter map (R395, R396, R399, R400): every word under its own name, its address, its fields with
their access and roles (R7, R8), and the value an RW word of the parameter space has after a cold reset.
-/
namespace Sys2Proof.Machine

/-- Words of a channel record (R395). -/
inductive ChWord where
  | afe | state | drift | ctl | filt | filtSt | skew | delay | fs | dcth
  deriving DecidableEq, Repr

/-- Words of a point record (R395). -/
inductive PtWord where
  | mode | state | phase | thresh | fpid | scunit | demand | recd | tddil | evcfg
  deriving DecidableEq, Repr

/-- RW words of a bus record (R395). -/
inductive BusWord where
  | balcfg | balth | udin | pqcfg | dipswl | inthys | rvcnl | nlcfg
  deriving DecidableEq, Repr

/-- Words of a calibration record of a channel, in the order of R124. -/
inductive ChCalWord where
  | gain | dcofs | rmsofs | offs | delay
  deriving DecidableEq, Repr

/-- Words of a calibration record of a point (R124): gains by index 0 to 2, offsets by phase. -/
inductive PtCalWord where
  | pgain | qgain | sgain | pofs (ph : Fin 3) | qofs (ph : Fin 3)
  deriving DecidableEq, Repr

/-- A calibration word of either copy (R124). -/
inductive CalWord where
  | ch (k : Fin 136) (w : ChCalWord)
  | pt (p : Fin 128) (w : PtCalWord)
  deriving DecidableEq, Repr

/-- Every word of the parameter map by name. Spare groups 0 to 31 are quads, 32 and 33 the buses (R33, R400). -/
inductive Reg where
  | devId | devVariant | devSerial (hi : Bool) | profCfg
  | ch (k : Fin 136) (w : ChWord)
  | qdTopo (q : Fin 32) | qdBus (q : Fin 32) | spare (g : Fin 34) | driftTh (g : Fin 34)
  | pt (p : Fin 128) (w : PtWord)
  | bus (b : Fin 2) (w : BusWord)
  | tbCfg | reflist | hold | lsync | tbStatus | tbFreq | tbCycle (hi : Bool)
  | fltCfg | fltCtl
  | pqCfg | pqMagth | capsel (i : Fin 4) | captrig | capkeep | wbCfg | wbStatus
  | pulCfg (n : Fin 8) | pulConst (n : Fin 8) | pulTest (n : Fin 8) | pulStatus (n : Fin 8)
  | folCfg | folStatus | scrCfg | queCfg (i : Fin 32) | queStatus (i : Fin 32)
  | sesCfg | sesKey (e : Fin 16) (i : Fin 16) | sesKeyCtl (e : Fin 16)
  | intSrc (n : Fin 192) | tgtTop (t : Fin 6) | tgtEoi (t : Fin 6) | tgtCfg (t : Fin 6) | tgtStatus (t : Fin 6)
  | watch (i : Fin 4)
  | anvStatus | anvVersion | fwcfg | lognum (hi : Bool) | loghead (i : Fin 8) | cokey (i : Fin 24) | cokeyCtl
  | auxCfg | auxUin (j : Fin 2) | auxRes (i : Fin 16) | inkLock | inkJrnl
  | pfcfg | pwrStatus | rstcause | clkst | blotBits (i : Fin 4)
  | cldTime0 | cldTime1 | cldSubsec | cldTrim | cldStatus | cldAdjseq | cldSlewrem
  | almMatch0 (a : Fin 2) | almMatch1 (a : Fin 2) | almCtl (a : Fin 2) | almStat (a : Fin 2)
  | alhit (a : Fin 2) (hi : Bool)
  | grdFlags | grdCfg | grdMagth | grdCtl | grdResp (i : Fin 16) | grdStatus | grdTick
  | pnlCfg | pnlGeom | railcfg | tcfg | pnlReg (r : Fin 8) | tband (hi : Bool) | tempw | pnlCtl | pnlStatus
  | tblvalid (hi : Bool)
  | staged (w : CalWord) | live (w : CalWord)
  | digest (i : Fin 8) | jdigest (i : Fin 8) | commits | mcalStatus
  | trimMod (n : Fin 170) | trimVref | trimOsc | trimCtl
  | reserved
  deriving DecidableEq, Repr

/-- Offset of a word in a channel record. -/
def ChWord.offset : ChWord → Nat
  | .afe => 0 | .state => 4 | .drift => 8 | .ctl => 12 | .filt => 16 | .filtSt => 20 | .skew => 24 | .delay => 28
  | .fs => 32 | .dcth => 36

/-- Offset of a word in a point record. -/
def PtWord.offset : PtWord → Nat
  | .mode => 0 | .state => 4 | .phase => 8 | .thresh => 12 | .fpid => 16 | .scunit => 20 | .demand => 24 | .recd => 28
  | .tddil => 32 | .evcfg => 36

/-- Offset of a word in a bus record. -/
def BusWord.offset : BusWord → Nat
  | .balcfg => 16 | .balth => 20 | .udin => 32 | .pqcfg => 36 | .dipswl => 40 | .inthys => 44 | .rvcnl => 48 | .nlcfg => 52

/-- Offset of a calibration word from the start of its copy (R124). -/
def CalWord.offset : CalWord → Nat
  | .ch k w => k.val * 0x20 + match w with
    | .gain => 0 | .dcofs => 4 | .rmsofs => 8 | .offs => 12 | .delay => 16
  | .pt p w => 0x2000 + p.val * 0x40 + match w with
    | .pgain => 0 | .qgain => 4 | .sgain => 8 | .pofs i => 12 + 4 * i.val | .qofs i => 24 + 4 * i.val

/-- The address of a word (R395, R400); a reserved word has none of its own. -/
def Reg.addr : Reg → Nat
  | .devId => 0 | .devVariant => 4 | .devSerial hi => if hi then 12 else 8 | .profCfg => 0x40
  | .ch k w => 0x10000 + k.val * 0x100 + w.offset
  | .qdTopo q => 0x20000 + q.val * 0x40
  | .qdBus q => 0x20004 + q.val * 0x40
  | .spare g => if g.val < 32 then 0x20008 + g.val * 0x40 else 0x40008 + (g.val - 32) * 0x100
  | .driftTh g => if g.val < 32 then 0x2000C + g.val * 0x40 else 0x4000C + (g.val - 32) * 0x100
  | .pt p w => 0x30000 + p.val * 0x200 + w.offset
  | .bus b w => 0x40000 + b.val * 0x100 + w.offset
  | .tbCfg => 0x41000 | .reflist => 0x41004 | .hold => 0x41008 | .lsync => 0x4100C | .tbStatus => 0x41010
  | .tbFreq => 0x41014 | .tbCycle hi => if hi then 0x4101C else 0x41018
  | .fltCfg => 0x42000 | .fltCtl => 0x42004
  | .pqCfg => 0x50000 | .pqMagth => 0x50004 | .capsel i => 0x50010 + i.val * 4 | .captrig => 0x50020
  | .capkeep => 0x50024 | .wbCfg => 0x51000 | .wbStatus => 0x51004
  | .pulCfg n => 0x60000 + n.val * 0x20 | .pulConst n => 0x60004 + n.val * 0x20
  | .pulTest n => 0x60008 + n.val * 0x20 | .pulStatus n => 0x6000C + n.val * 0x20
  | .folCfg => 0x70000 | .folStatus => 0x70004 | .scrCfg => 0x71000
  | .queCfg i => 0x72000 + i.val * 0x10 | .queStatus i => 0x72004 + i.val * 0x10
  | .sesCfg => 0x73000 | .sesKey e i => 0x73100 + e.val * 0x50 + i.val * 4 | .sesKeyCtl e => 0x73140 + e.val * 0x50
  | .intSrc n => 0x80000 + n.val * 4
  | .tgtTop t => 0x81000 + t.val * 0x10 | .tgtEoi t => 0x81004 + t.val * 0x10
  | .tgtCfg t => 0x81008 + t.val * 0x10 | .tgtStatus t => 0x8100C + t.val * 0x10
  | .watch i => 0x82000 + i.val * 4
  | .anvStatus => 0x90000 | .anvVersion => 0x90004 | .fwcfg => 0x90008
  | .lognum hi => if hi then 0x90014 else 0x90010 | .loghead i => 0x90020 + i.val * 4
  | .cokey i => 0x90100 + i.val * 4 | .cokeyCtl => 0x90160
  | .auxCfg => 0x91000 | .auxUin j => 0x91008 + j.val * 4 | .auxRes i => 0x91040 + i.val * 4
  | .inkLock => 0x92000 | .inkJrnl => 0x92004
  | .pfcfg => 0x93000 | .pwrStatus => 0x93004 | .rstcause => 0x93080 | .clkst => 0x93084
  | .blotBits i => 0x94000 + i.val * 4
  | .cldTime0 => 0xA0000 | .cldTime1 => 0xA0004 | .cldSubsec => 0xA0008 | .cldTrim => 0xA0010
  | .cldStatus => 0xA0014 | .cldAdjseq => 0xA0018 | .cldSlewrem => 0xA001C
  | .almMatch0 a => 0xA0020 + a.val * 0x10 | .almMatch1 a => 0xA0024 + a.val * 0x10
  | .almCtl a => 0xA0028 + a.val * 0x10 | .almStat a => 0xA002C + a.val * 0x10
  | .alhit a hi => 0xA0040 + a.val * 8 + if hi then 4 else 0
  | .grdFlags => 0xB0000 | .grdCfg => 0xB0004 | .grdMagth => 0xB0008 | .grdCtl => 0xB000C
  | .grdResp i => 0xB0010 + i.val * 4 | .grdStatus => 0xB0050 | .grdTick => 0xB0054
  | .pnlCfg => 0xC0000 | .pnlGeom => 0xC0004 | .railcfg => 0xC0008 | .tcfg => 0xC000C
  | .pnlReg r => 0xC0010 + r.val * 4 | .tband hi => if hi then 0xC0034 else 0xC0030 | .tempw => 0xC0038
  | .pnlCtl => 0xC0040 | .pnlStatus => 0xC0044 | .tblvalid hi => if hi then 0xC004C else 0xC0048
  | .staged w => 0xD0000 + w.offset | .live w => 0xD8000 + w.offset
  | .digest i => 0xD7000 + i.val * 4 | .jdigest i => 0xD7020 + i.val * 4 | .commits => 0xD7040
  | .mcalStatus => 0xD7044
  | .trimMod n => 0xE0000 + n.val * 4 | .trimVref => 0xE0300 | .trimOsc => 0xE0304 | .trimCtl => 0xE0310
  | .reserved => 0xF0000

/-- Record index below n as a `Fin`, or nothing. -/
def idx? (n i : Nat) : Option (Fin n) := if h : i < n then some ⟨i, h⟩ else none

/-- The first alternative that names a word. -/
def orReserved (r : Option Reg) : Reg := r.getD .reserved

/-- Channel word at a record offset. -/
def chWord? : Nat → Option ChWord
  | 0 => some .afe | 4 => some .state | 8 => some .drift | 12 => some .ctl | 16 => some .filt | 20 => some .filtSt
  | 24 => some .skew | 28 => some .delay | 32 => some .fs | 36 => some .dcth | _ => none

/-- Point word at a record offset. -/
def ptWord? : Nat → Option PtWord
  | 0 => some .mode | 4 => some .state | 8 => some .phase | 12 => some .thresh | 16 => some .fpid | 20 => some .scunit
  | 24 => some .demand | 28 => some .recd | 32 => some .tddil | 36 => some .evcfg | _ => none

/-- Bus word at a record offset. -/
def busWord? : Nat → Option BusWord
  | 16 => some .balcfg | 20 => some .balth | 32 => some .udin | 36 => some .pqcfg | 40 => some .dipswl
  | 44 => some .inthys | 48 => some .rvcnl | 52 => some .nlcfg | _ => none

/-- Calibration word at an offset of either copy (R124). -/
def calWord? (off : Nat) : Option CalWord :=
  if off < 0x2000 then do
    let k ← idx? 136 (off / 0x20)
    let w ← match off % 0x20 with
      | 0 => some ChCalWord.gain | 4 => some .dcofs | 8 => some .rmsofs | 12 => some .offs | 16 => some .delay | _ => none
    return .ch k w
  else do
    let p ← idx? 128 ((off - 0x2000) / 0x40)
    let w ← match (off - 0x2000) % 0x40 with
      | 0 => some PtCalWord.pgain | 4 => some .qgain | 8 => some .sgain | 12 => some (.pofs 0) | 16 => some (.pofs 1)
      | 20 => some (.pofs 2) | 24 => some (.qofs 0) | 28 => some (.qofs 1) | 32 => some (.qofs 2) | _ => none
    return .pt p w

/-- The word at an offset of the bus block 0x0004_0000. -/
def busBlock (off : Nat) : Reg :=
  if off < 0x200 then orReserved do
    let b ← idx? 2 (off / 0x100)
    if off % 0x100 = 8 then return .spare ⟨32 + b.val, by omega⟩
    if off % 0x100 = 12 then return .driftTh ⟨32 + b.val, by omega⟩
    let w ← busWord? (off % 0x100)
    return .bus b w
  else match off with
    | 0x1000 => .tbCfg | 0x1004 => .reflist | 0x1008 => .hold | 0x100C => .lsync | 0x1010 => .tbStatus
    | 0x1014 => .tbFreq | 0x1018 => .tbCycle false | 0x101C => .tbCycle true | 0x2000 => .fltCfg | 0x2004 => .fltCtl
    | _ => .reserved

/-- The word at an offset of the folio and Scribe block 0x0007_0000. -/
def scribeBlock (off : Nat) : Reg :=
  if off = 0 then .folCfg else if off = 4 then .folStatus else if off = 0x1000 then .scrCfg
  else if off = 0x3000 then .sesCfg
  else if 0x2000 ≤ off ∧ off < 0x2200 then orReserved do
    let i ← idx? 32 ((off - 0x2000) / 0x10)
    match off % 0x10 with
    | 0 => return .queCfg i
    | 4 => return .queStatus i
    | _ => none
  else if 0x3100 ≤ off then orReserved do
    let e ← idx? 16 ((off - 0x3100) / 0x50)
    let j := (off - 0x3100) % 0x50
    if j = 0x40 then return .sesKeyCtl e
    let i ← idx? 16 (j / 4)
    return .sesKey e i
  else .reserved

/-- The word at an offset of the interrupt block 0x0008_0000. -/
def intBlock (off : Nat) : Reg :=
  if off < 0x300 then orReserved do let n ← idx? 192 (off / 4); return .intSrc n
  else if 0x1000 ≤ off ∧ off < 0x1060 then orReserved do
    let t ← idx? 6 ((off - 0x1000) / 0x10)
    match off % 0x10 with
    | 0 => return .tgtTop t
    | 4 => return .tgtEoi t
    | 8 => return .tgtCfg t
    | 12 => return .tgtStatus t
    | _ => none
  else if 0x2000 ≤ off then orReserved do let i ← idx? 4 ((off - 0x2000) / 4); return .watch i
  else .reserved

/-- The word at an offset of the management block 0x0009_0000. -/
def anvilBlock (off : Nat) : Reg :=
  if 0x20 ≤ off ∧ off < 0x40 then orReserved do let i ← idx? 8 ((off - 0x20) / 4); return .loghead i
  else if 0x100 ≤ off ∧ off < 0x160 then orReserved do let i ← idx? 24 ((off - 0x100) / 4); return .cokey i
  else if 0x1040 ≤ off ∧ off < 0x1080 then orReserved do let i ← idx? 16 ((off - 0x1040) / 4); return .auxRes i
  else if 0x4000 ≤ off then orReserved do let i ← idx? 4 ((off - 0x4000) / 4); return .blotBits i
  else match off with
    | 0 => .anvStatus | 4 => .anvVersion | 8 => .fwcfg | 0x10 => .lognum false | 0x14 => .lognum true
    | 0x160 => .cokeyCtl | 0x1000 => .auxCfg | 0x1008 => .auxUin 0 | 0x100C => .auxUin 1
    | 0x2000 => .inkLock | 0x2004 => .inkJrnl
    | 0x3000 => .pfcfg | 0x3004 => .pwrStatus | 0x3080 => .rstcause | 0x3084 => .clkst | _ => .reserved

/-- The word at an offset of the calendar block 0x000A_0000. -/
def calendarBlock (off : Nat) : Reg :=
  match off with
  | 0 => .cldTime0 | 4 => .cldTime1 | 8 => .cldSubsec | 0x10 => .cldTrim | 0x14 => .cldStatus | 0x18 => .cldAdjseq
  | 0x1C => .cldSlewrem | 0x20 => .almMatch0 0 | 0x24 => .almMatch1 0 | 0x28 => .almCtl 0 | 0x2C => .almStat 0
  | 0x30 => .almMatch0 1 | 0x34 => .almMatch1 1 | 0x38 => .almCtl 1 | 0x3C => .almStat 1
  | 0x40 => .alhit 0 false | 0x44 => .alhit 0 true | 0x48 => .alhit 1 false | 0x4C => .alhit 1 true
  | _ => .reserved

/-- The word at an offset of the guard block 0x000B_0000. -/
def guardBlock (off : Nat) : Reg :=
  if 0x10 ≤ off ∧ off < 0x50 then orReserved do let i ← idx? 16 ((off - 0x10) / 4); return .grdResp i
  else match off with
    | 0 => .grdFlags | 4 => .grdCfg | 8 => .grdMagth | 12 => .grdCtl | 0x50 => .grdStatus | 0x54 => .grdTick
    | _ => .reserved

/-- The word at an offset of the panel block 0x000C_0000. -/
def panelBlock (off : Nat) : Reg :=
  if 0x10 ≤ off ∧ off < 0x30 then orReserved do let r ← idx? 8 ((off - 0x10) / 4); return .pnlReg r
  else match off with
    | 0 => .pnlCfg | 4 => .pnlGeom | 8 => .railcfg | 12 => .tcfg | 0x30 => .tband false | 0x34 => .tband true
    | 0x38 => .tempw | 0x40 => .pnlCtl | 0x44 => .pnlStatus | 0x48 => .tblvalid false | 0x4C => .tblvalid true
    | _ => .reserved

/-- The word at an offset of the calibration block 0x000D_0000. -/
def mcalBlock (off : Nat) : Reg :=
  if off < 0x7000 then orReserved ((calWord? off).map .staged)
  else if 0x8000 ≤ off then orReserved ((calWord? (off - 0x8000)).map .live)
  else if off < 0x7020 then orReserved do let i ← idx? 8 ((off - 0x7000) / 4); return .digest i
  else if off < 0x7040 then orReserved do let i ← idx? 8 ((off - 0x7020) / 4); return .jdigest i
  else if off = 0x7040 then .commits else if off = 0x7044 then .mcalStatus else .reserved

/-- The word at a 4-byte aligned address (R395, R396). -/
def regOf (addr : Nat) : Reg :=
  let off := addr % 0x10000
  match addr / 0x10000 with
  | 0 => match off with
    | 0 => .devId | 4 => .devVariant | 8 => .devSerial false | 12 => .devSerial true | 0x40 => .profCfg | _ => .reserved
  | 1 => orReserved do let k ← idx? 136 (off / 0x100); let w ← chWord? (off % 0x100); return .ch k w
  | 2 => orReserved do
    let q ← idx? 32 (off / 0x40)
    match off % 0x40 with
    | 0 => return .qdTopo q
    | 4 => return .qdBus q
    | 8 => return .spare ⟨q.val, by omega⟩
    | 12 => return .driftTh ⟨q.val, by omega⟩
    | _ => none
  | 3 => orReserved do let p ← idx? 128 (off / 0x200); let w ← ptWord? (off % 0x200); return .pt p w
  | 4 => busBlock off
  | 5 => match off with
    | 0 => .pqCfg | 4 => .pqMagth | 0x10 => .capsel 0 | 0x14 => .capsel 1 | 0x18 => .capsel 2 | 0x1C => .capsel 3
    | 0x20 => .captrig | 0x24 => .capkeep | 0x1000 => .wbCfg | 0x1004 => .wbStatus | _ => .reserved
  | 6 => orReserved do
    let n ← idx? 8 (off / 0x20)
    match off % 0x20 with
    | 0 => return .pulCfg n
    | 4 => return .pulConst n
    | 8 => return .pulTest n
    | 12 => return .pulStatus n
    | _ => none
  | 7 => scribeBlock off
  | 8 => intBlock off
  | 9 => anvilBlock off
  | 10 => calendarBlock off
  | 11 => guardBlock off
  | 12 => panelBlock off
  | 13 => mcalBlock off
  | 14 =>
    if off < 0x2A8 then orReserved do let n ← idx? 170 (off / 4); return .trimMod n
    else match off with
      | 0x300 => .trimVref | 0x304 => .trimOsc | 0x310 => .trimCtl | _ => .reserved
  | _ => .reserved

/-- Access codes of R7. -/
inductive Access where
  | ro | rw | wo | w1c
  deriving DecidableEq, Repr

/-- A field of a word: its bits, its access and the roles that may write it (R7, R8). -/
structure Fld where
  hi    : Nat
  lo    : Nat
  acc   : Access
  roles : List Role
  deriving DecidableEq, Repr

/-- Role lists of the field maps (R8). -/
def rL : List Role := [.legal]
/-- LEGAL and OPERATOR. -/
def rLO : List Role := [.legal, .operator]
/-- LEGAL and SERVICE. -/
def rLS : List Role := [.legal, .service]
/-- LEGAL, OPERATOR and SERVICE. -/
def rLOS : List Role := [.legal, .operator, .service]
/-- SERVICE. -/
def rS : List Role := [.service]

/-- The reserved interrupt sources (R284). -/
def intReserved (n : Nat) : Bool :=
  (9 ≤ n && n ≤ 15) || (24 ≤ n && n ≤ 31) || (42 ≤ n && n ≤ 63) || (69 ≤ n && n ≤ 79) || (114 ≤ n && n ≤ 127)

/-- The fields of a word that a write can act on; what is not listed is RO or reserved and ignored (R6, R7, R396). -/
def Reg.fields : Reg → List Fld
  | .profCfg => [⟨23, 16, .rw, rL⟩, ⟨3, 0, .rw, rL⟩]
  | .ch k .afe => if k.val < 128 then [⟨6, 4, .rw, rL⟩, ⟨2, 1, .rw, rL⟩, ⟨0, 0, .rw, rL⟩] else [⟨0, 0, .rw, rL⟩]
  | .ch _ .state => [⟨11, 11, .w1c, rLO⟩, ⟨8, 8, .w1c, rL⟩]
  | .ch _ .ctl => [⟨2, 2, .wo, rLS⟩, ⟨1, 1, .wo, rLS⟩, ⟨0, 0, .wo, rL⟩]
  | .ch k .filt =>
    [⟨11, 11, .rw, rL⟩, ⟨10, 10, .rw, rLO⟩, ⟨9, 8, .rw, rL⟩] ++ if k.val < 128 then [⟨2, 0, .rw, rL⟩] else []
  | .ch _ .fs => [⟨31, 0, .rw, rL⟩]
  | .ch _ .dcth => [⟨15, 0, .rw, rL⟩]
  | .qdTopo _ => [⟨1, 0, .rw, rL⟩]
  | .qdBus _ => [⟨0, 0, .rw, rL⟩]
  | .driftTh _ => [⟨31, 16, .rw, rLS⟩, ⟨15, 0, .rw, rLS⟩]
  | .pt _ .mode => [⟨11, 10, .rw, rL⟩, ⟨9, 9, .rw, rL⟩, ⟨8, 8, .rw, rL⟩, ⟨0, 0, .rw, rL⟩]
  | .pt _ .phase => [⟨1, 0, .rw, rL⟩]
  | .pt _ .thresh => [⟨31, 16, .rw, rL⟩, ⟨15, 0, .rw, rL⟩]
  | .pt _ .fpid => [⟨31, 0, .rw, rL⟩]
  | .pt _ .scunit => [⟨2, 0, .rw, rLO⟩]
  | .pt _ .demand => [⟨15, 12, .rw, rL⟩, ⟨11, 8, .rw, rL⟩, ⟨1, 1, .rw, rL⟩, ⟨0, 0, .rw, rL⟩]
  | .pt _ .recd => [⟨1, 1, .rw, rL⟩, ⟨0, 0, .rw, rL⟩]
  | .pt _ .tddil => [⟨31, 0, .rw, rLO⟩]
  | .pt _ .evcfg => [⟨15, 8, .rw, rL⟩, ⟨7, 0, .rw, rL⟩]
  | .bus _ .balcfg => [⟨15, 15, .rw, rL⟩, ⟨14, 8, .rw, rL⟩, ⟨3, 0, .rw, rL⟩]
  | .bus _ .pqcfg => [⟨1, 1, .rw, rL⟩, ⟨0, 0, .rw, rL⟩]
  | .bus _ .rvcnl => [⟨31, 16, .rw, rL⟩]
  | .bus _ .udin => [⟨31, 0, .rw, rL⟩]
  | .bus _ _ => [⟨31, 16, .rw, rL⟩, ⟨15, 0, .rw, rL⟩]
  | .tbCfg => [⟨2, 2, .rw, rL⟩, ⟨1, 1, .rw, rL⟩, ⟨0, 0, .rw, rL⟩]
  | .reflist => [⟨31, 0, .rw, rL⟩]
  | .hold | .lsync => [⟨15, 0, .rw, rL⟩]
  | .fltCfg => [⟨15, 8, .rw, rLS⟩, ⟨0, 0, .rw, rL⟩]
  | .fltCtl => [⟨1, 1, .wo, rS⟩, ⟨0, 0, .wo, rLS⟩]
  | .pqCfg => [⟨5, 0, .rw, rL⟩]
  | .pqMagth => [⟨15, 0, .rw, rL⟩]
  | .capsel _ => [⟨31, 0, .rw, rLO⟩]
  | .captrig => [⟨9, 0, .rw, rLO⟩]
  | .capkeep => [⟨15, 0, .rw, rLO⟩]
  | .wbCfg => [⟨0, 0, .rw, rLO⟩]
  | .pulCfg _ => [⟨31, 31, .rw, rL⟩, ⟨25, 24, .rw, rL⟩, ⟨22, 16, .rw, rL⟩, ⟨3, 0, .rw, rL⟩]
  | .pulConst _ => [⟨31, 0, .rw, rL⟩]
  | .pulTest _ => [⟨31, 31, .rw, rLS⟩, ⟨19, 0, .rw, rLS⟩]
  | .pulStatus _ => [⟨2, 2, .w1c, rLO⟩]
  | .folCfg => [⟨9, 0, .rw, rL⟩]
  | .scrCfg => [⟨15, 8, .rw, rL⟩, ⟨3, 0, .rw, rL⟩]
  | .queCfg _ =>
    [⟨31, 31, .rw, rL⟩, ⟨30, 30, .rw, rL⟩, ⟨29, 28, .rw, rL⟩, ⟨27, 24, .rw, rL⟩, ⟨21, 16, .rw, rL⟩, ⟨6, 0, .rw, rL⟩]
  | .sesCfg => [⟨31, 20, .rw, rL⟩, ⟨15, 8, .rw, rL⟩, ⟨1, 1, .rw, rL⟩, ⟨0, 0, .rw, rL⟩]
  | .sesKey e _ => if e.val = 0 then [] else [⟨31, 0, .rw, rL⟩]
  | .sesKeyCtl e => if e.val = 0 then [] else [⟨31, 31, .rw, rL⟩, ⟨1, 0, .rw, rL⟩]
  | .intSrc n => if intReserved n.val then [] else [⟨21, 18, .rw, rLO⟩, ⟨3, 0, .rw, rLO⟩]
  | .tgtEoi _ => [⟨15, 8, .wo, rLOS⟩, ⟨7, 0, .wo, rLOS⟩]
  | .tgtCfg t =>
    (if 2 ≤ t.val then [⟨31, 31, .rw, rLO⟩] else []) ++ (if t.val = 5 then [⟨11, 8, .rw, rLO⟩] else []) ++ [⟨5, 0, .rw, rL⟩]
  | .watch _ => [⟨31, 0, .rw, rL⟩]
  | .fwcfg => [⟨0, 0, .rw, rL⟩]
  | .cokey _ => [⟨31, 0, .rw, rL⟩]
  | .cokeyCtl => [⟨31, 31, .rw, rL⟩]
  | .auxCfg => [⟨31, 16, .rw, rLS⟩, ⟨15, 8, .rw, rLS⟩, ⟨0, 0, .rw, rLS⟩]
  | .auxUin _ => [⟨11, 8, .rw, rLO⟩, ⟨7, 0, .rw, rLO⟩]
  | .pfcfg => [⟨15, 15, .rw, rL⟩, ⟨7, 0, .rw, rL⟩]
  | .rstcause => [⟨10, 0, .w1c, rL⟩]
  | .cldTrim => [⟨9, 0, .rw, rL⟩]
  | .almMatch0 _ => [⟨26, 0, .rw, rLO⟩]
  | .almMatch1 _ => [⟨31, 0, .rw, rLO⟩]
  | .almCtl _ => [⟨31, 31, .rw, rLO⟩, ⟨30, 30, .rw, rLO⟩, ⟨6, 0, .rw, rLO⟩]
  | .grdCfg => [⟨31, 31, .rw, rL⟩, ⟨11, 8, .rw, rL⟩]
  | .grdMagth => [⟨15, 0, .rw, rL⟩]
  | .grdCtl => [⟨31, 31, .wo, rL⟩, ⟨23, 16, .wo, rL⟩, ⟨15, 15, .wo, rL⟩, ⟨3, 0, .wo, rL⟩]
  | .grdResp _ => [⟨3, 3, .rw, rL⟩, ⟨2, 2, .rw, rL⟩, ⟨1, 1, .rw, rL⟩]
  | .pnlCfg => [⟨6, 4, .rw, rL⟩, ⟨0, 0, .rw, rL⟩]
  | .pnlGeom => [⟨25, 16, .rw, rL⟩, ⟨10, 0, .rw, rL⟩]
  | .railcfg => [⟨2, 0, .rw, rL⟩]
  | .tcfg => [⟨15, 8, .rw, rL⟩, ⟨0, 0, .rw, rL⟩]
  | .pnlReg _ => [⟨25, 16, .rw, rL⟩, ⟨8, 0, .rw, rL⟩]
  | .tband hi => if hi then [⟨23, 0, .rw, rL⟩] else [⟨31, 0, .rw, rL⟩]
  | .tempw => [⟨7, 0, .rw, rLO⟩]
  | .pnlCtl => [⟨0, 0, .wo, rLO⟩]
  | .staged _ => [⟨31, 0, .rw, rL⟩]
  | .mcalStatus => [⟨3, 3, .w1c, rL⟩]
  | .trimMod _ => [⟨12, 8, .rw, rS⟩, ⟨4, 0, .rw, rS⟩]
  | .trimVref => [⟨13, 8, .rw, rS⟩, ⟨5, 0, .rw, rS⟩]
  | .trimOsc => [⟨15, 8, .rw, rS⟩, ⟨7, 0, .rw, rS⟩]
  | .trimCtl => [⟨0, 0, .wo, rS⟩]
  | .devId | .devVariant | .devSerial _ | .ch _ .drift | .ch _ .filtSt | .ch _ .skew | .ch _ .delay
  | .spare _ | .pt _ .state | .tbStatus | .tbFreq | .tbCycle _ | .wbStatus | .folStatus | .queStatus _
  | .tgtTop _ | .tgtStatus _ | .anvStatus | .anvVersion | .lognum _ | .loghead _ | .auxRes _ | .inkLock | .inkJrnl
  | .pwrStatus | .clkst | .blotBits _ | .cldTime0 | .cldTime1 | .cldSubsec | .cldStatus | .cldAdjseq | .cldSlewrem
  | .almStat _ | .alhit _ _ | .grdFlags | .grdStatus | .grdTick | .pnlStatus | .tblvalid _ | .live _ | .digest _
  | .jdigest _ | .commits | .reserved => []

/-- Reset value of an RW word that the stores `State.cfg` and `State.eff` keep (R399); 0 for every other word. -/
def Reg.reset : Reg → Word
  | .profCfg => 0x00FF0005
  | .ch _ .filt => 0x904
  | .ch _ .fs => 0x3F800000
  | .ch _ .dcth => 0x3E8
  | .qdTopo _ => 3
  | .driftTh _ => 0x00C80064
  | .pt _ .phase => 1
  | .pt _ .thresh => 0x012C0096
  | .pt _ .scunit => 2
  | .pt _ .demand => 0x1501
  | .pt _ .recd => 1
  | .pt _ .evcfg => 0x1932
  | .bus _ .balcfg => 5
  | .bus _ .balth => 0x012C0064
  | .bus _ .udin => 0x43660000
  | .bus _ .dipswl => 0x2AF82328
  | .bus _ .inthys => 0x01F400C8
  | .bus _ .rvcnl => 0x01F40000
  | .bus _ .nlcfg => 0x07D003E8
  | .reflist => 0xFF654210
  | .hold => 0xBB8
  | .fltCfg => 0x3C00
  | .pqCfg => 0x28
  | .pqMagth => 0x1F4
  | .capsel i => match i.val with
    | 0 => 0x83828180 | 1 => 0x87868584 | 2 => 0x03020100 | _ => 0x07060504
  | .captrig => 0x2F
  | .capkeep => 0x3C
  | .wbCfg => 1
  | .pulConst _ => 0x2710
  | .pulTest _ => 0xF4240
  | .folCfg => 0x14
  | .scrCfg => 0xA00
  | .queCfg i => match i.val with
    | 0 => 0xCF080010 | 1 => 0xDF080010 | 2 => 0xEF080010 | _ => 0x0F080010
  | .sesCfg => 0x03C02001
  | .intSrc n => if intReserved n.val then 0 else match n.val with
    | 0 => 0x00040008 | 1 => 0x00080008 | 2 => 0x00100008 | _ => 8
  | .tgtCfg _ => 0x8000000A
  | .watch _ => 0xFFFFFFFF
  | .auxCfg => 0x07D07300
  | .pfcfg => 0x8038
  | .railcfg => 1
  | .tband hi => if hi then 0x00463C32 else 0x28190A00
  | .tempw => 0x19
  | _ => 0

/-- The word that an address of the stores holds after a cold reset (R399). -/
def resetWord (addr : Nat) : Word := (regOf addr).reset

/-- Words of the blocks whose settings take effect at the next cycle boundary where their rule names no time
(R402), and DEV.PROFCFG (R116). TB.CFG and PT.REC are split by field where they are applied. -/
def Reg.atBoundary : Reg → Bool
  | .profCfg | .ch _ _ | .qdTopo _ | .qdBus _ | .driftTh _ | .pt _ _ | .bus _ _ | .tbCfg | .reflist | .hold | .lsync
  | .pqCfg | .pqMagth | .capsel _ | .captrig | .capkeep | .pulCfg _ | .pulConst _ | .pulTest _ => true
  | _ => false

/-- The words of the configuration image (R323), the Kept column of R399. -/
def Reg.inImage : Reg → Bool
  | .profCfg | .ch _ .afe | .ch _ .filt | .ch _ .fs | .ch _ .dcth | .qdTopo _ | .qdBus _ | .driftTh _
  | .bus _ _ | .tbCfg | .reflist | .hold | .lsync | .fltCfg | .pqCfg | .pqMagth | .capsel _ | .captrig | .capkeep
  | .wbCfg | .pulCfg _ | .pulConst _ | .folCfg | .scrCfg | .queCfg _ | .sesCfg | .intSrc _ | .tgtCfg _ | .watch _
  | .fwcfg | .cokey _ | .cokeyCtl | .auxCfg | .auxUin _ | .pfcfg | .pnlCfg | .pnlGeom | .railcfg | .tcfg | .pnlReg _
  | .tband _ => true
  | .pt _ .state => false
  | .pt _ _ => true
  | .sesKey e _ | .sesKeyCtl e => e.val ≠ 0
  | _ => false

/-- The captured words, marked F (R398). -/
def Reg.captured : Reg → Bool
  | .ch _ .state | .ch _ .drift | .ch _ .filtSt | .ch _ .skew | .spare _ | .pt _ .state | .tbStatus | .tbFreq
  | .tbCycle _ | .folStatus | .blotBits _ | .grdFlags => true
  | _ => false

end Sys2Proof.Machine
end

