-- ==== Sys2Proof/Machine/Types.lean ====
section
/-!
DEFINITION. The parts of the state as plain data, one structure for each piece of state the chapters name.
-/
namespace Sys2Proof.Machine

/-- Parameter words that differ from their reset value, by ascending address (R395, R397). -/
abbrev Regs := List (Nat × Word)

/-- A reported instant (R65, R66): cycle, angle in 2^-16 cycle, calendar time unless the calendar is invalid. -/
structure Stamp where
  cycle : Nat
  angle : Nat
  cal   : Option CalTime
  deriving DecidableEq, Repr

/-- The stamp before anything has happened. -/
def Stamp.zero : Stamp := ⟨0, 0, none⟩

/-- Ordering codes (R1, R2, R3). -/
inductive Variant where
  | bgi | bgc | bgw
  deriving DecidableEq, Repr

/-- Device states of R19. -/
inductive DevState where
  | off | start | run | banked | cell
  deriving DecidableEq, Repr

/-- The start-up phases of R282 that have completed, and what start-up still owes. -/
structure Startup where
  inReset       : Bool  -- RESET_N held low after a long assertion (R278)
  xtalPassed    : Bool  -- crystal accepted, or given up on, by 20.0 ms
  restored      : Bool  -- journal restored
  tested        : Bool  -- modulators and engines tested (R44, R254)
  portsReady    : Bool  -- Scribe and the ports serve frames (R204)
  configDone    : Bool  -- configuration image applied (R323)
  pathReady     : Bool  -- measurement path ready
  metering      : Bool  -- the first metered cycle has begun
  unmeteredDue  : Bool  -- the unmetered interval is still to be journalled (R22, R282)
  unmeteredFrom : Stamp -- last recorded cycle
  unmeteredWhy  : Nat   -- cause code 0 to 4 (R310)
  lineAtFailure : Bool
  lineAtStart   : Bool
  calInvalid    : Bool
  hadJournal    : Bool  -- something was restored from the journal
  deriving DecidableEq, Repr

/-- Device-wide state: ordering code, device state, Banked requests and start-up. -/
structure Dev where
  variant    : Variant
  st         : DevState
  startup    : Startup
  bankAt     : Bool   -- a Banked entry waits for the next cycle boundary (R297)
  bankedFrom : Nat    -- cycle at which the current stay took effect (R239)
  coresAsleep : Bool
  softReset  : List (Nat × Fin 128 × Fin 1024) -- SOFT_RESETs whose completion is not delivered: scope, tag, session
  deriving DecidableEq, Repr

/-- Channel states (R38). -/
inductive ChState where
  | active | shadowed | substituted | failed
  deriving DecidableEq, Repr

/-- A resampled sample as the engines keep it (R81, R101, R157): `dead` while its channel is FAILED, `supp` under a
settling suppression, `back` under the one that follows a RESTORE from FAILED. -/
structure Samp where
  x     : Int
  valid : Bool
  brdg  : Bool
  clip  : Bool
  subst : Bool
  dead  : Bool
  supp  : Bool
  back  : Bool
  deriving DecidableEq, Repr

/-- The running interval of a calendar schedule (R82, R275): the cycle that opened it, and the nominal frequency then in force, by
which it is counted while the calendar is not valid. -/
structure Sched where
  since : Nat
  sixty : Bool
  deriving DecidableEq, Repr

/-- A closed cycle of a channel (R84, R87, R157): its samples with the calibration of that cycle, FS × GAIN and GAIN, and what
RMSOFS takes from its mean square. -/
structure PastCycle where
  samps : List Samp
  scale : Rat
  gain  : Word
  ofs   : Rat
  deriving DecidableEq, Repr

/-- A detector of R154: active, length of the present run, and the stamps of the first cycle or block of the run and of
the last one that met the raise condition. -/
structure Detector where
  active : Bool
  run    : Nat
  first  : Stamp
  last   : Stamp
  deriving DecidableEq, Repr

/-- The values of a channel's last closed block (R152). -/
structure ChBlock where
  y1     : Word
  rms    : Word
  dc     : Word
  thds   : Nat
  tdd    : Nat
  flags  : Nat
  cycles : Nat
  ratios : List Nat
  phases : List Nat
  inters : List Nat
  deriving DecidableEq, Repr

/-- A running aggregate (R142): weight in cycles, blocks taken, weighted sums of squares, flags. -/
structure Agg where
  weight  : Nat
  blocks  : Nat
  sq      : List Rat
  flagged : Bool
  short   : Bool
  stepped : Bool
  deriving DecidableEq, Repr

/-- A closed aggregate: the root mean squares and the flags. -/
structure AggOut where
  vals    : List Rat
  flagged : Bool
  short   : Bool
  stepped : Bool
  deriving DecidableEq, Repr

/-- A latched integrator value with its parity check and frame count (R51, R251). -/
structure Latched where
  value  : Int
  parity : Bool
  count  : Fin 8
  deriving DecidableEq, Repr

/-- One comb slot with its integrator section (R35, R46, R48, R51, R251). -/
structure Slot where
  code  : Int                -- the code taken at the last MOD clock (R35)
  fails : Nat                -- frames in a row that failed their check, to 2 (R51)
  bad   : Nat                -- MOD clocks in a row whose parity failed, to 3 (R35)
  integ : List Int           -- the integrators, first to fifth (R46)
  hist  : List Latched       -- values latched in the last 64 frames, newest first (R251)
  outs  : List (Option Int)  -- comb outputs, newest first; none: not known yet (R51)
  deriving DecidableEq, Repr

/-- The filters between the comb and the 51.2 ksps stream (R52): inputs of HB1, HB2, HB3 and the lowpass, newest first. -/
structure Filter where
  h1  : List Rat
  h2  : List Rat
  h3  : List Rat
  low : List Rat
  deriving DecidableEq, Repr

/-- A sample of a channel's 51.2 ksps stream (R25, R52): a fraction of full-scale peak, with the clip flag. -/
structure StreamSamp where
  x    : Rat
  clip : Bool
  deriving DecidableEq, Repr

/-- Why instants of a channel do not count: a settling suppression (R57), one after a RESTORE from FAILED (R42), FAILED
(R37), or comb frames replaced by interpolation: those of a substitution (R36), of a stopped hand-off (R252), of a change of the
SYS reference (R260, R261); and the runs that count but come from the spare (R165). -/
inductive GapKind where
  | supp | back | dead | splice | comb | clock | carried
  deriving DecidableEq, Repr

/-- A run of instants at the pins, in SYS ticks with 16 fractional bits; without an end while it lasts. -/
structure Gap where
  kind : GapKind
  start : Nat
  stop  : Option Nat
  deriving DecidableEq, Repr

/-- One channel: status words, suppression, DC blocker, sample buffers and block results. -/
structure Chan where
  st         : ChState
  moves      : List (Nat × ChState × Nat) -- changes of state since the last boundary: instant, state and CAUSE before (R194)
  cause      : Nat
  perr       : Nat
  iperr      : Nat
  clip       : Bool
  drift      : Bool
  checking   : Bool
  restoring  : Bool
  injected   : Bool        -- working modulator on the injection while the spare carries the channel (R40)
  splicing   : Bool        -- between a hard fault and its splice (R36)
  suppressed : Bool
  fromFailed : Bool        -- the suppression that follows a RESTORE from FAILED is due or running (R42)
  suppressDue : Bool       -- a suppression starts at the next cycle boundary (R42)
  wvalid     : Bool
  wfail      : Bool
  werr       : BitVec 16
  trimDue    : Option Word -- a working-modulator trim waiting for the next boundary (R136)
  recheck    : Bool        -- an aborted drift check restarts when the suppression ends (R43)
  dcEst      : Rat
  dcRec      : List Rat    -- estimates at the last three half-cycle boundaries, newest first (R55)
  dcSum      : List Rat    -- DC blocker outputs of the running cycle (R56)
  dcContent  : Rat         -- DC content of the last closed cycle, V or A (R56)
  autoFrozen : Option (Fin 2) -- the bus whose event freezes the estimate (R55)
  line       : List (Option Int) -- frames of the main path, newest first; none: to be interpolated (R36, R51)
  main       : Filter
  raw        : Rat         -- the last decimated sample, before the DC blocker
  integ      : Rat         -- the Rogowski integrator (R27)
  stream     : List StreamSamp -- the 51.2 ksps stream, newest first
  gaps       : List Gap    -- runs whose samples do not count, or come from the spare, newest first
  was        : Option (Nat × Bool × Bool) -- the last boundary that changed EN or ORDER, with EN and ORDER = 4 before it (R165)
  cur        : List Samp   -- samples of the running cycle, newest first
  blk        : List Rat    -- calibrated samples of the running block, V or A (R87, R141)
  blkOfs     : List Rat    -- what RMSOFS takes from the mean square of each of its cycles
  blkDc      : List Rat
  blkBad     : Bool
  dcDet      : Detector
  block      : ChBlock
  agg150     : Agg
  agg10      : Agg
  out150     : AggOut
  out10      : AggOut
  deriving DecidableEq, Repr

/-- Spare states (R38). -/
inductive SpareState where
  | rotating | checking | substituting | failed
  deriving DecidableEq, Repr

/-- The sums of a dwell's comparison over working samples w and spare samples s (R39). -/
structure CmpSums where
  ws : Rat
  ss : Rat
  d  : Rat   -- of w − s
  ww : Rat
  n  : Nat
  deriving DecidableEq, Repr

/-- The comparison of a dwell (R39): the channel's place, samples still to pass before it begins, whether a whole line
cycle runs, the sums of that cycle and of the whole cycles before it. -/
structure Dwell where
  pos   : Fin 4
  skip  : Nat
  whole : Bool
  cyc   : CmpSums
  sums  : CmpSums
  deriving DecidableEq, Repr

/-- One spare (R34, R38, R40): `phase` is the drift-check phase, 0 none, 1 spare on the injection, 2 spare being
reconnected, 3 working modulator on the injection, 4 working modulator being reconnected. -/
structure Spare where
  st      : SpareState
  pos     : Fin 4
  parked  : Bool
  still   : Option (Fin 4 × Nat) -- the place whose channel it carries on, and the comb frames until that is back (R36, R42)
  wait    : Nat            -- comb frames until its output is valid (R34)
  fresh   : Nat            -- valid frames since, to 32
  main    : Filter         -- its comparison decimator (R33)
  dwell   : Dwell
  serr    : BitVec 16
  phase   : Nat
  queue   : List Nat       -- channels of the group whose drift check is queued, ascending (R43)
  trimDue : Option Word    -- a spare trim waiting for the end of a dwell (R136)
  deriving DecidableEq, Repr

/-- The quantities of one phase (R88, R89). -/
structure PhaseQ where
  u     : Rat
  i     : Rat
  u1    : Rat
  i1    : Rat
  theta : Rat
  p     : Rat
  qf    : Rat
  qt    : Rat
  qraw  : Rat
  qh    : Rat
  s     : Rat
  d     : Rat
  deriving DecidableEq, Repr

/-- One phase of a point: path states and histories (R97), last values and X_prev (R102), bridged instants. -/
structure Phase where
  aRun  : Bool
  qRun  : Bool
  pHist : List Rat
  qHist : List Rat
  q     : PhaseQ
  prev  : Option PhaseQ
  b     : Nat
  baseU : List Int    -- voltage and current samples of the cycle of X_prev (R102)
  baseI : List Int
  lastU : List Rat    -- samples as used in the last two cycles, as fractions, oldest first (R89)
  lastI : List Rat
  deriving DecidableEq, Repr

/-- The quantities of a point (R90, R91). -/
structure PointQ where
  p    : Rat
  qf   : Rat
  qt   : Rat
  sA   : Rat
  sV   : Rat
  sE   : Rat
  pf   : Rat
  iN   : Rat
  freq : Rat
  deriving DecidableEq, Repr

/-- Point states (R101). -/
inductive PtState where
  | off | settling | pending | live | bridged | faulted
  deriving DecidableEq, Repr

/-- One group of pending sums (R103, R238). -/
structure SumGroup where
  p     : Rat
  qraw  : Rat
  qh    : Rat
  s     : Rat
  u2    : Rat
  i2    : Rat
  count : Nat
  deriving DecidableEq, Repr

/-- Pending or unreconciled sums: six groups (phase, raw direction), measured and bridged parts apart (R103). -/
structure Sums where
  meas : Vector SumGroup 6
  brdg : Vector SumGroup 6
  deriving DecidableEq, Repr

/-- Marks of an interval (R83, R114, R115). -/
structure Marks where
  part    : Bool
  stepped : Bool
  pending : Bool
  bridged : Bool
  faulted : Bool  -- FAULTED or OFF cycles
  settling : Bool -- SETTLING cycles, which no maximum may hold
  deriving DecidableEq, Repr

/-- One demand subinterval (R113): registered energy per total in 2^-32 units, covered time in s, marks. -/
structure DemSub where
  e     : List Nat
  t     : Rat
  marks : Marks
  deriving DecidableEq, Repr

/-- The demand of a point (R113 to R115). -/
structure Demand where
  run      : DemSub
  subs     : List DemSub          -- closed subintervals of the window, newest first
  last     : List Word
  lastMark : Marks
  max      : List Word
  maxAt    : List (Option Stamp)
  resets   : Nat
  oldSubs  : Option (List DemSub) -- the window that a change of DEMAND at the present boundary emptied (R113, R194)
  sched    : Sched
  deriving DecidableEq, Repr

/-- One metering point. -/
structure Point where
  acc        : Vector Nat 22  -- 0-7 totals, 8-13 per-phase totals, 14-21 BRIDGED; 96 bits, unit 2^-32 (R92, R107)
  wrapped    : Bool
  reconciled : Bool
  phases     : Vector Phase 3
  q          : PointQ
  prevQ      : Option PointQ
  st         : PtState
  pend       : Bool
  brdg       : Bool
  degr       : Bool
  metered    : Bool           -- a cycle has been metered since ON took effect (R101)
  settle     : Bool           -- the running cycle is one of SETTLING (R101)
  turned     : Bool           -- a change of ON took effect at the start of the running cycle (R114)
  contrib    : List Nat       -- registered into each total by the last cycle, 2^-32 units
  contribPh  : List Nat       -- the same for the per-phase totals
  contribBr  : List Nat       -- the bridged part of each
  net        : Int            -- net registered active energy of the last cycle (R122)
  rawNet     : Rat            -- net active energy the direction rule judges (R155)
  pending    : Sums
  unrec      : Sums
  dem        : Demand
  profLost   : Nat
  dirExp     : Bool           -- reported direction (R155)
  revRun     : Nat
  revFirst   : Stamp
  bypass     : Detector
  deriving DecidableEq, Repr

/-- A running dip, swell or interruption (R146). Voltages in V. -/
structure PqEvent where
  startPhase : Nat
  extPhase   : Nat
  ext        : Rat
  classA     : Stamp
  onset      : Stamp
  contains   : Bool
  stepped    : Bool
  last       : Stamp      -- end of the last window with a value
  deriving DecidableEq, Repr

/-- Rapid-voltage-change machine of one voltage (R148): the last Urms(1/2) values and the lengths of their half-cycles in
SYS ticks with 16 fractional bits, newest first. -/
structure Rvc where
  hist   : List Rat
  durs   : List Nat
  active : Bool
  before : Rat            -- mean before the change
  maxDev : Rat
  start  : Stamp
  total  : Nat            -- time since the start, in the unit of `durs`
  deriving DecidableEq, Repr

/-- Balance sums (R122), 2^-32 cWh. -/
structure BalAcc where
  rImp : Int
  rExp : Int
  eImp : Int
  eExp : Int
  nImp : Nat
  nExp : Nat
  deriving DecidableEq, Repr

/-- The energy balance of a bus (R121 to R123). -/
structure Balance where
  run      : BalAcc
  span     : BalAcc       -- since the last folio cut
  opened   : Stamp
  complete : Bool
  part     : Bool
  stepped  : Bool
  sched    : Sched
  members  : List Nat
  last     : BalAcc
  lastOpen : Stamp
  lastShut : Stamp
  lastFlag : Nat          -- bits 0 to 6 of the balance block flags (R185)
  cycE     : Int          -- the incomer's net energy and the residual of the last cycle (R122)
  cycR     : Int
  deriving DecidableEq, Repr

/-- One voltage bus: declared reference, event machines, detectors, block values, balance. -/
structure Bus where
  usr        : Rat
  udinDue    : Bool           -- a change of U_din at this boundary is still to act (R139)
  urmsN      : Option Rat     -- Urms(1/2) of the neutral-to-earth channel (R144)
  dip        : Option PqEvent
  swell      : Option PqEvent
  intr       : Option PqEvent
  rvc        : Vector Rvc 3
  rvcLost    : Nat
  freezeLeft : Option Nat     -- cycle boundaries until the automatic freeze ends (R55)
  seq        : Detector
  neutral    : Detector
  least      : List (Option Rat)
  greatest   : List (Option Rat)
  lastLeast  : List (Option Rat)   -- the same of the last closed block
  lastGreatest : List (Option Rat)
  flagged    : Bool           -- an event covered part of the running block
  freq       : Rat
  freqFlag   : Bool
  blockRms   : List Rat
  blockFlag  : Bool
  blockShort : Bool
  u2         : Rat
  u0         : Rat
  u2bad      : Bool
  u0bad      : Bool
  u2agg      : Agg            -- u2 and u0 over the 10-minute interval
  u2out      : AggOut
  agg150     : Agg
  agg10      : Agg
  agg2h      : Agg
  out150     : AggOut
  out10      : AggOut
  out2h      : AggOut
  bal        : Balance
  deriving DecidableEq, Repr

/-- Timebase modes (R77). -/
inductive TbMode where
  | acquire | locked | holdover | freerun
  deriving DecidableEq, Repr

/-- A reference candidate (R67, R70, R71): one of CH 128 to CH 135. -/
structure Cand where
  valid  : Bool
  good   : Nat   -- consecutive cycles that meet the entry condition, to 10
  held   : Nat   -- consecutive valid cycles, to 50
  seen   : Bool  -- the last cycle gave a measurement
  offset : Int   -- phase of its fundamental ahead of the angle, 2^-16 cycle
  deriving DecidableEq, Repr

/-- The search for crossings of a candidate in start-up (R69, R283): inputs and outputs of the acquisition lowpass, newest
first, the crossings found, as places in the 51.2 ksps stream, newest first, and peaks of the output. -/
structure Acq where
  ins     : List Rat
  outs    : List Rat
  cross   : List Rat
  peak    : Rat          -- since the newest crossing
  between : Rat          -- between the two newest crossings
  deriving DecidableEq, Repr

/-- LSYNC (R74). -/
structure Lsync where
  valid   : Bool
  edge    : Option Nat   -- SYS tick of the last chosen edge
  last    : Nat          -- last period, SYS ticks; 0 none
  periods : List Nat     -- consecutive periods in range, newest first
  offset  : Int          -- phase ahead of the angle, 2^-16 cycle
  deriving DecidableEq, Repr

/-- The line-angle timebase (R62 to R77) and the block counter (R141). -/
structure Timebase where
  mode      : TbMode
  active    : Nat          -- candidate 0-7 (CH 128 to 135), 8 LSYNC, 15 none
  switches  : Nat
  slewing   : Bool
  slew      : Int          -- angle still to be removed (R71, R73)
  frozen    : Int          -- frozen offset of the active candidate (R70)
  cands     : Vector Cand 8
  acq       : Vector Acq 8
  lsync     : Lsync
  err       : Int          -- the loop's last phase error, 2^-16 cycle (R68)
  freqWord  : Nat          -- the frequency word: a period in SYS ticks with 16 fractional bits (R64)
  lockRun   : Nat
  holdRun   : Nat
  cycle     : Nat          -- number of the running cycle
  start     : Nat          -- t_n of the running cycle at the pins, SYS ticks with 16 fractional bits (R62)
  prevStart : Nat          -- t_n of the last closed cycle
  period    : Nat          -- T_n of the running cycle, SYS ticks with 16 fractional bits (R64)
  periods   : List Nat     -- periods of the last closed cycles, newest first, at most 11
  lastCycle : Nat          -- last closed cycle
  freq      : Nat          -- its frequency, 2^-16 Hz
  boundary  : Stamp        -- start of the running cycle
  prevBoundary : Stamp     -- start of the last closed cycle
  nomf60    : Bool         -- NOMF in force (R75)
  blkCycles : Nat          -- cycles of the running block
  blkStart  : Stamp        -- start of the running block
  blkUnlocked : Bool       -- a cycle of the block was not LOCKED (R150)
  aggBlocks : Nat          -- blocks of the running 150/180-cycle interval
  ran       : List (Nat × Nat) -- what the calendar ran through in the last closed cycle, in counts, from and to, oldest first (R82, R339)
  fCycles   : Nat          -- 10-second frequency interval (R143)
  fTicks    : Nat
  fFlag     : Bool
  tenSec    : Sched        -- the 10-second, 10-minute and 2-hour intervals (R142, R143)
  tenMin    : Sched
  twoHours  : Sched
  provisional : Option Nat -- provisional reference of start-up (R283)
  deriving DecidableEq, Repr

/-- The values of one channel in a calibration set (R86). -/
structure ChCal where
  gain   : Word
  dcofs  : Word
  rmsofs : Word
  offs   : Word
  delay  : Word
  deriving DecidableEq, Repr

/-- The values of one point in a calibration set (R86). -/
structure PtCal where
  pgain : Word
  qgain : Word
  sgain : Word
  pofs  : Vector Word 3
  qofs  : Vector Word 3
  deriving DecidableEq, Repr

/-- A calibration set (R124). -/
structure CalSet where
  ch : Vector ChCal 136
  pt : Vector PtCal 128
  deriving DecidableEq, Repr

/-- A commit that waits for its boundary (R127). -/
structure Commit where
  req    : Option Req
  digest : List Byte
  deriving DecidableEq, Repr

/-- A resolve that waits for its boundary (R132). -/
structure Resolve where
  req     : Option Req
  points  : List Nat
  convert : Bool
  deriving DecidableEq, Repr

/-- Meter calibration (R124 to R134). -/
structure MeterCal where
  staged      : CalSet
  live        : CalSet
  written     : List Nat      -- staged words written since the last commit, by live address (R134)
  reloadDue   : List Nat      -- live words to reload at the next boundary (R134)
  digest      : List Byte
  jdigest     : List Byte
  jdigestNow  : List Byte     -- the digest journal records carry (R128)
  jcommit     : Nat × Nat     -- cycle and count of the commit that the journal holds (R128)
  commits     : Nat
  commitCycle : Nat
  loaded      : Bool
  everSet     : Bool          -- a set has been committed in the device's life
  firstDone   : Bool          -- the first commit since the cold reset has taken effect
  perr        : Bool
  waiting     : List Commit   -- commits in admission order, one per boundary
  resolves    : List Resolve
  resets      : List (Option Req × BitVec 128) -- demand resets that wait for the next boundary (R115)
  deriving DecidableEq, Repr

/-- A profile record held in the ring (R117). -/
structure ProfRec where
  number : Nat
  points : List Nat
  bytes  : List Byte
  bad    : Bool
  deriving DecidableEq, Repr

/-- The load profile (R116 to R120). -/
structure Profile where
  running  : Bool
  opened   : Stamp
  map      : List Nat
  totals   : Vector (List Nat) 128 -- whole-unit totals at the opening boundary
  status   : Vector Nat 128        -- status byte being formed; bit 8: RECON of the present boundary
  stepped  : Bool
  part     : Bool
  holdover : Bool
  commit   : Bool
  gapDue   : Bool
  ring     : List ProfRec          -- oldest first
  next     : Nat
  newest   : Nat
  hash     : List Byte
  ack      : Nat
  runs     : List (Nat × Nat)      -- runs of record numbers given after the acknowledged one: first number and count, newest first
  lossNoted : Bool                 -- a loss since the later of the last acknowledgement and cold reset is logged
  sched     : Sched
  deriving DecidableEq, Repr

/-- Capture buffer states (R158). -/
inductive CapState where
  | free | filling | filled | kept
  deriving DecidableEq, Repr

/-- One capture buffer (R157). -/
structure Capture where
  st       : CapState
  number   : Nat
  chans    : List Nat
  triggers : List (Stamp × Nat)
  more     : Nat
  cycles   : List (List (List Samp))  -- per cycle, per selected channel, its samples
  left     : Nat                      -- cycles still to take
  whole    : Bool
  bad      : List Nat                 -- byte offsets of uncorrectable words (R257)
  deriving DecidableEq, Repr

/-- The events of R324. -/
inductive Ev where
  | chSubstituted | chFailed | chDrift | chDriftChecked | chRestored | chRestoreFailed | chClip | dcPresent
  | tbLocked | tbRefSwitch | tbHoldover | tbFreerun
  | dip | swell | interruption | rvc | wrongSequence | neutralLost | balanceResidual
  | reverseFlow | neutralBypass | ptFaulted | totalWrap | accLost | demandReset | profileLost | pendingDiscard
  | magnet | xtalFail | xtalReturn | xtalRate | engFault | engFenced | engRejoined | accFault | eccUncorr | inkUncorr
  | calParity | calDigestMismatch | trimChanged | refCheck | tempHigh
  | powerFail | pfRecovered | unmetered | vbatLow | calStopped | grdClock | intcOrder | pfSustained
  | portTimeout | replyDropped | sessionEnd | sesProvision | pnlDone
  | cldSet | cldAdjust | cldAlarm | cldReject | grdSource | grdCleared | grdTest
  | anvWdog | fwActivated | fwCommitted | fwReverted | blotCleared | cfgSaved | logGap | fill
  deriving DecidableEq, Repr

/-- The subject of an event (R235). -/
inductive Subject where
  | device
  | point (p : Fin 128)
  | channel (k : Fin 136)
  | bus (b : Fin 2)
  deriving DecidableEq, Repr

/-- An event of power quality that waits for its place in the order of R156. -/
structure PqDue where
  rank   : Nat
  ev     : Ev
  subj   : Subject
  at_    : Stamp
  start  : Bool
  done   : Bool
  detail : List Byte
  fpid   : Word           -- of its subject in the cycle it was found in (R402)
  deriving DecidableEq, Repr

/-- Device-wide power quality: capture, pre-trigger history and MAGNET. -/
structure Pq where
  caps    : Vector Capture 2
  next    : Nat
  lost    : Nat
  history : List (Vector PastCycle 136) -- the last cycles of every channel, newest first, at most 6
  ended   : Regs          -- the words in force in the last closed cycle (R84, R194)
  magnet  : Detector
  due     : List PqDue
  deriving DecidableEq, Repr

/-- A published wideband set in the layout of R169. -/
structure WbSet where
  number : Nat
  bytes  : List Byte
  bad    : List Nat   -- byte offsets of uncorrectable words (R257)
  deriving DecidableEq, Repr

/-- One analysis slot in the running set (R161, R165): samples of the window that fills, newest first, each with whether
it counts; squared magnitudes of the bins summed over valid windows; frames with EN = 0, with ORDER 3 or 5 and FAILED; and
the flags met. -/
structure WbSlot where
  buf     : List (Rat × Bool)
  sums    : List Rat
  windows : Nat
  off     : Nat
  order   : Nat
  failed  : Nat
  bad     : Bool
  subst   : Bool
  brdg    : Bool
  clip    : Bool
  deriving DecidableEq, Repr

/-- The supraharmonic survey (R164 to R170). The analysis lies behind the pins (log 85). -/
structure Wideband where
  next    : Nat
  running : Bool
  frames  : Nat                -- comb frames of the running 200.000 ms interval, as analysed
  onFor   : Nat                -- comb frames in a row for which the survey has been on, to one beyond an interval
  ended   : Bool               -- the set that follows the one in analysis has been discarded
  stepNow : Bool               -- the calendar has been stepped since the last comb frame (R167)
  past    : List (Bool × Bool) -- TIMEBASE_DEGRADED and a step, for the comb frames still to be analysed, newest first
  started : Stamp
  degr    : Bool
  stepped : Bool
  slots   : Vector WbSlot 24
  ring    : List WbSet         -- newest first, at most 8
  deriving DecidableEq, Repr

/-- One pulse output (R172 to R181). -/
structure Pulse where
  a         : Int
  n         : Nat
  g         : Int
  prov      : Int     -- provisional contributions of the running cycle, unit of A
  paced     : Nat     -- registered energy of the previous cycle, unit of A
  rebase    : Bool    -- a new baseline is due at the next boundary
  base      : Stamp
  edges     : List Nat      -- SYS ticks at which the edges of the pulses owed are due, oldest first (R175, R176)
  lastEdge  : Option Nat    -- SYS tick of the last leading edge (R177)
  lastFall  : Option Nat    -- SYS tick at which the last pulse ends or has ended
  high      : Bool    -- the pin sinks current
  width     : Nat     -- W in SYS ticks
  lateBlock : Bool
  overrange : Bool
  resImport : Bool    -- direction of the residual in the previous cycle
  deriving DecidableEq, Repr

/-- What a boundary finds at the pins, taken at the comb frame in which its instant comes (R182, R194): status words, blot bits and
the device state. -/
structure Pins where
  chans  : Vector Chan 136
  spares : Vector Word 34
  blots  : BitVec 128
  st     : DevState
  deriving DecidableEq, Repr

/-- The state a folio copies at its cut (R182, R185). -/
structure Image where
  chans   : Vector Chan 136
  spares  : Vector Word 34
  pts     : Vector Point 128
  buses   : Vector Bus 2
  pulses  : List Byte
  eff     : Regs
  variant : Variant
  tbStat  : Word
  tbFreq  : Word
  lastCyc : Nat
  blots   : BitVec 128
  evNew   : Nat
  evLost  : Nat
  grd     : Word
  folStat : Word
  devWord : Word
  digest  : List Byte
  dCycle  : Nat
  commits : Nat
  mcal    : Word
  profNew : Nat
  profOld : Nat
  profAck : Nat
  profHash : List Byte
  wb      : List Byte
  caps    : List (List Byte)
  deriving DecidableEq, Repr

/-- A folio (R182 to R185). -/
structure Folio where
  number : Nat
  cause  : Nat
  flags  : Nat
  cycles : Nat
  cut    : Stamp
  start  : Stamp
  img    : Image
  bad    : List Nat   -- byte offsets of uncorrectable words (R193)
  deriving DecidableEq, Repr

/-- A lease (R188, R189). -/
structure Lease where
  id       : Nat
  session  : Fin 1024
  folio    : Nat
  duration : Nat
  deriving DecidableEq, Repr

/-- Folios, slots and leases. -/
structure Folios where
  shut      : List Folio      -- sealed folios, newest first
  filling   : Option Folio
  next      : Nat
  asked     : Bool            -- a demanded cut is due at the next boundary
  leases    : List Lease
  used      : List (Fin 1024 × Nat) -- identifiers already given to open sessions (R189)
  spanStart : Stamp
  spanCycles : Nat
  first     : Bool            -- the next folio is the first after a cold reset
  degr      : Bool            -- a cycle of the span closed under TIMEBASE_DEGRADED
  stepped   : Bool
  pins      : Option Pins     -- the end of the running cycle at the pins, whose closure has not come yet
  ready     : Option Image    -- the state at the present boundary, for a cut there
  readyFlags : Nat            -- header bits 1 and 2 of such a cut (R194)
  retired   : Nat             -- slots retired (R257)
  errs      : List (Word × Nat) -- addresses in folio slots that have failed, with the folio each failed in (R257)
  retireDue : List Nat        -- folios whose slot is retired at reclamation
  deriving DecidableEq, Repr

/-- Status codes of R248. -/
inductive Status where
  | ok | badFrame | crcError | badVersion | noSession | authFail | seqError | queueDenied | badOpcode | denied
  | tagInUse | noCredit | queueFull | noTag | badValue | badAddress | topologyConflict | pointActive
  | spareUnavailable | notFitted | busy | calBusy | digestMismatch | cldInvalid | locked | isolated | stateError
  | sigFail | confirmFail | tableUnbalanced | notReady | folioGone | revoked | recordGone | eccError | quenched
  | superseded | cut | panelFault
  deriving DecidableEq, Repr

/-- A reply waiting for a port: its header fields, status and plaintext payload (R197), and the key it is sent under. -/
structure Reply where
  imm     : Bool
  session : Nat
  queue   : Nat
  tag     : Nat
  hello   : Bool
  opcode  : Nat
  status  : Status
  seq     : Nat
  secured : Bool
  payload : List Byte
  key     : List Byte        -- K_dh of its session where it is secured (R199)
  deriving DecidableEq, Repr

/-- One host port (R201 to R207, R215). -/
structure PortState where
  imm     : Option Reply
  done    : List Reply       -- completions waiting, oldest first
  partly  : Option Bool      -- the current reply is partly sent: true the immediate reply, false the oldest completion
  immLost : Nat
  timeout : Bool
  stalled : Bool             -- SCK ignored until CS_N rises (R205)
  baud    : Nat              -- rate code in force (port C)
  out     : List Byte        -- what the last transaction, or the last reply on port C, has shifted out (R201, R202, R206)
  deriving DecidableEq, Repr

/-- An open session (R200, R208). -/
structure Session where
  id       : Fin 1024
  role     : Role
  secured  : Bool
  port     : Port
  qmask    : BitVec 32
  hostSeq  : Nat             -- SEQ of the last authenticated frame
  devSeq   : Nat             -- SEQ of the next completion
  authFail : Nat             -- consecutive AUTH_FAIL rejections
  closing  : Option (Fin 128) -- the tag of its SESSION_CLOSE completion (R230)
  corrupt  : Bool            -- context marked invalid (R257)
  keys     : List Byte × List Byte -- K_hd and K_dh, 32 bytes each (R210)
  deriving DecidableEq, Repr

/-- What a selector names: a folio, a cycle number to wait for, or a status (R192). -/
inductive Named where
  | folio (f : Folio)
  | later (cycle : Nat)
  | bad (st : Status)
  deriving DecidableEq, Repr

/-- A guard-clear challenge (R245). -/
structure Challenge where
  session : Fin 1024
  mask    : BitVec 16
  value   : BitVec 32
  since   : BitVec 16  -- sources that have declared since the challenge was given, up to the last GUARD period that has ended (R245, R365)
  deriving DecidableEq, Repr

/-- What was settled for a command at its admission: the folio it names (R189, R192, R196), its whole outcome (R183, R190, R247), the
challenge that it confirms (R245), or whether a condition on it held then: the queues of an open admit it (R222), and the session of an
activation held the lock as it began (R331). -/
inductive Verdict where
  | named (x : Named)
  | reply (st : Status) (payload : List Byte)
  | confirms (c : Challenge)
  | judged (ok : Bool)
  deriving DecidableEq, Repr

/-- An admitted command in a queue (R216). -/
structure Entry where
  session : Fin 1024
  hello   : Bool
  port    : Port
  tag     : Fin 128
  opcode  : Nat
  payload : List Byte
  order   : Nat              -- admission order
  dead    : Bool             -- its session has ended: the completion is dropped (R212)
  verdict : Option Verdict   -- of a command that is judged at its admission
  deriving DecidableEq, Repr

/-- A command queue (R216, R222). -/
structure Que where
  entries : List Entry
  reject  : Nat
  deriving DecidableEq, Repr

/-- A tag in flight (R216). -/
structure TagUse where
  session : Fin 1024
  tag     : Fin 128
  hello   : Bool
  queue   : Fin 32
  dead    : Bool
  deriving DecidableEq, Repr

/-- Scribe: ports, sessions, queues, tags. -/
structure Scribe where
  ports     : Vector PortState 3
  sessions  : List Session
  queues    : Vector Que 32
  tags      : List TagUse
  admitted  : Nat            -- admissions so far
  legalEver : Bool           -- a LEGAL key has been VALID (R211)
  challenge : Option Challenge
  baudDue   : List (Fin 1024 × Fin 128 × Nat) -- writes of BAUD whose replies are not sent yet, and their rates (R206)
  inkLock   : Option (Fin 1024 × Nat × Nat) -- holder, duration in s, model time of the last renewal (R240)
  deriving DecidableEq, Repr

/-- An event (R235, R324). `subject`: kind in bits [15:14], index in [13:0]. -/
structure Event where
  number  : Nat
  code    : Nat
  stamp   : Stamp
  subject : Nat
  raised  : Bool
  ended   : Bool
  unsealed : Bool
  fpid    : Word
  detail  : List Byte
  deriving DecidableEq, Repr

/-- A record waiting for the event log: a ring event, or an entry of the log only. -/
structure LogItem where
  ev      : Event
  logOnly : Bool
  deriving DecidableEq, Repr

/-- The event ring and the queue to the log (R235, R266, R326). -/
structure Events where
  ring      : List Event     -- oldest first
  next      : Nat
  ack       : Option Nat
  lost      : Nat
  lossNoted : Bool
  held      : List Event     -- held until the journal is restored (R65)
  bad       : List Nat       -- event numbers with an uncorrectable ring word
  logQ      : List LogItem
  gap       : Option (Nat × Nat)
  deriving DecidableEq, Repr

/-- An in-service entry (R288). -/
structure InSvc where
  src  : Nat
  prio : Nat
  dtag : Nat
  deriving DecidableEq, Repr

/-- An interrupt target (R285 to R290). -/
structure Target where
  stack    : List InSvc      -- top first
  dtag     : Nat             -- tag of the next delivery
  retired  : List (Nat × Nat) -- the last 16 retired pairs, newest first
  base     : Nat             -- priority the port last reported (targets 2 to 4)
  orders   : Nat
  timeouts : Nat
  deriving DecidableEq, Repr

/-- The interrupt controller: pending sources ascending, and the targets. -/
structure Intc where
  pend    : List Nat
  targets : Vector Target 6
  deriving DecidableEq, Repr

/-- One number series with its ceiling in the newest journal record (R305). -/
structure Ceilings where
  cycle   : Nat
  folio   : Nat
  event   : Nat
  profile : Nat
  wb      : Nat
  cap     : Nat
  deriving DecidableEq, Repr

/-- A journal record: power-fail entry, tail or checkpoint (R301, R302, R304). -/
structure JRec where
  seq       : Nat            -- the sequence that holds it (R390)
  pts       : Vector Point 128
  heads     : Vector (Word × Word) 128 -- PT.SCUNIT and PT.FPID of every point (R109)
  digest    : List Byte
  commit    : Nat × Nat      -- cycle and count of the last commit (R128)
  everSet   : Bool
  stamp     : Stamp
  profNew   : Nat
  profHash  : List Byte
  profAck   : Nat
  profMap   : List Nat
  profRuns  : List (Nat × Nat)
  nexts     : Ceilings       -- the next number of every series (R305)
  ceilings  : Ceilings
  logNew    : Nat
  blots     : BitVec 128
  dirty     : BitVec 8
  lineValid : Bool
  metered   : Bool           -- a cycle has been metered: `stamp` is the last one's
  deriving DecidableEq, Repr

/-- Supply, power-fail sequence and totals journal. -/
structure Power where
  pfail     : Bool
  causeVin  : Bool
  causePfw  : Bool
  sustained : Bool
  entryDue  : Option JRec    -- the entry of the running warning, not written yet (R301)
  entryDone : Bool           -- a sequence is open: its entry has been written
  tails     : Nat            -- tails in the open sequence
  tailDue   : Nat            -- closures whose tail is not written yet
  erased    : Nat            -- erased sequences
  seqNo     : Nat            -- sequences taken in the device's life; the next takes place seqNo mod 8 of the region (R322, R390)
  ckptDue   : Bool           -- a checkpoint waits for an erased sequence
  opened    : Nat            -- sequences opened since the cold reset
  susCount  : Nat            -- sequences opened in sustained warnings, device life
  records   : List JRec      -- newest first
  ceil      : Ceilings       -- ceilings of the newest record
  pfCount   : Nat
  warnNo    : Option Nat     -- the number of the POWER_FAIL of the running warning, once it has one (R299)
  vinLow    : Bool
  pfwLow    : Bool
  vbatLow   : Bool
  vbatVolt  : Option Rat     -- last VBAT reading
  vbatOn    : Bool           -- VAON fed from VBAT
  rstCause  : BitVec 11
  deriving DecidableEq, Repr

/-- The fault machinery (R250 to R263). -/
structure Flt where
  combFenced : Option (Fin 2)
  metFenced  : Option (Fin 2)
  combStop   : Bool          -- hand-off stopped for a persistent comb fault (R252)
  combSusp   : Fin 2         -- the copy that disagreed with the recomputation
  accPrimOut : Bool          -- primary bank fenced
  accMirrOut : Bool
  accFixed   : List (Bool × Nat × Nat) -- words rewritten within the last second: bank, word, instant (R255)
  onBackup   : Bool
  degraded   : Bool          -- TIMEBASE_DEGRADED
  xtalOk     : Bool
  xtalHeld10 : Bool          -- the crystal has passed the monitor for 10 s
  xreturn    : Bool          -- a return is due at the next boundary
  relock     : Nat           -- comb frames still to be bridged until the PLL has relocked (R260, R261)
  calStop    : Bool
  panelStop  : Bool
  guardStop  : Bool
  frames     : Nat           -- comb frames since the cold reset; their number modulo 8 is the engine's frame count (R51)
  deriving DecidableEq, Repr

/-- One batch of the metrology engine (R80, R253): a sample of every channel. -/
structure Batch where
  cycle : Nat
  index : Nat
  samps : Vector Samp 136
  deriving DecidableEq, Repr

/-- A checkpoint of the metrology engine (R253): the samples of the running cycle so far, and the increments of the pulse outputs still
to be replaced by registered energy. -/
structure EngCheck where
  cycle : Nat
  index : Nat
  cur   : Vector (List Samp) 136
  prov  : Vector Int 8
  deriving DecidableEq, Repr

/-- What a replay of the metrology engine starts from (R253): the last two checkpoints, and the batches since the older one, newest
first. Both copies of the engine hold the one state; a disagreement is a command's operand. -/
structure Engine where
  checks : List EngCheck
  inputs : List Batch
  deriving DecidableEq, Repr

/-- Firmware states (R328). -/
inductive FwState where
  | idle | loading | verified | trial
  deriving DecidableEq, Repr

/-- A firmware slot (R322, R327). -/
structure FwSlot where
  image    : List Byte
  length   : Nat
  verified : Bool
  hash     : List Byte
  deriving DecidableEq, Repr

/-- A copy of the configuration image (R323). -/
structure CfgImage where
  number : Nat
  cycle  : Nat
  words  : Regs
  tables : List (Nat × Nat × List Byte)
  crc    : Word
  valid  : Bool
  deriving DecidableEq, Repr

/-- A record of the event log (R325). -/
structure LogRec where
  number : Nat
  bytes  : List Byte
  bad    : Bool
  deriving DecidableEq, Repr

/-- Anvil: cores, firmware, auxiliary ADC, blot bits, log, images. -/
structure Anvil where
  up        : Bool           -- the cores take up slow-path work
  slot      : Nat            -- running code: 0, 1, or 3 recovery
  active    : Nat            -- slot the control record names
  fallback  : Nat
  fw        : FwState
  epoch     : Nat
  version   : Word
  slots     : Vector FwSlot 2
  trialLeft : Nat            -- model time at which the trial began
  trialOver : Option Bool    -- the trial has ended while Inkwell writes are suspended: true a commit, false a revert (R300, R330)
  checkDue  : Bool           -- the image has still to pass its start self-check after a restart (R330)
  fillDue   : Bool           -- a partly written group of the log is still to be completed (R326)
  blots     : BitVec 128
  auxRes    : Vector Word 16
  auxDue    : List Nat       -- the queue of scans due (R317)
  hall      : List (Rat × Rat × Rat) -- Hall readings of the running block
  hallLast  : Rat × Rat × Rat
  magScans  : Nat            -- scans in a row with the field above GRD.MAGTH, to 2 (R346)
  refActive : Bool
  refClear  : Nat
  tempActive : Bool
  images    : List CfgImage  -- newest first, at most 2
  saveDue   : Option (Option Req) -- a CFG_SAVE waiting for its boundary
  log       : List LogRec    -- oldest first
  logNext   : Nat
  logLink   : List Byte      -- link of the last whole group
  deriving DecidableEq, Repr

/-- A calendar alarm (R342, R343): its words and its last firing. -/
structure Alarm where
  match0  : Word
  match1  : Word
  en      : Bool
  rep     : Bool
  armed   : Bool
  mask    : BitVec 7
  flagged : Bool
  skipped : Bool
  overrun : Bool
  onCell  : Bool
  hit0    : Word
  hit1    : Word
  fired   : Option CalTime
  owed    : Bool             -- fired on cell, CLD_ALARM still to be raised (R344)
  deriving DecidableEq, Repr

/-- A step or a set of the calendar (R83, R338 to R340): the SYS instant, in ticks with 16 fractional bits, the counts that stood
there, none while the calendar was invalid, and the counts from there on. -/
structure CalMove where
  at_    : Nat
  before : Option Nat
  after  : Nat
  deriving DecidableEq, Repr

/-- The calendar domain. -/
structure Calendar where
  time    : CalTime
  dow     : Nat
  valid   : Bool
  lost    : Bool
  range   : Bool
  trim    : Int
  trimNew : Int              -- TRIM as written, in force from the next window (R337)
  edge    : Nat              -- crystal edges within the window of 2^20
  ahead   : Nat              -- counts since the sub-second counter carried, while the second boundary is still to be taken
  slew    : Int
  slewing : Bool             -- a slew is in progress (R341)
  adjSeq  : Nat
  alarms  : Vector Alarm 2
  wake    : Bool             -- WAKE_N pulled low
  moves   : List CalMove     -- steps and sets since the last closed cycle began, newest first (R65, R83)
  deriving DecidableEq, Repr

/-- A guard source (R350). -/
structure GrdSrc where
  fired : Bool
  iso   : Bool
  count : Nat
  mask  : BitVec 4           -- QUENCH, ISOLATE, NOTIFY, RECORD in bits 3 to 0
  next  : Option (BitVec 4)  -- mask written, in force from the next GUARD period (R354)
  again : Option Bool        -- it has declared in the running GUARD period, and whether that found its flag set (R365)
  fused : Bool
  deriving DecidableEq, Repr

/-- An entry of the cell list (R358). -/
structure CellItem where
  src  : Nat
  tick : Nat
  resp : BitVec 4
  deriving DecidableEq, Repr

/-- The guard domain and the identity. -/
structure Guard where
  srcs      : Vector GrdSrc 16
  mlock     : Bool
  covpol    : BitVec 4
  magth     : Nat
  armed     : Bool
  arming    : Bool           -- the wrapped record is being written (R360)
  kek       : Option Nat     -- the key-encryption key in the key store
  transport : Bool           -- the transport-key fuse is intact
  quenched  : Bool
  qcause    : Nat
  glitchOn  : Bool           -- VGLITCH and CGLITCH armed (R347)
  tick      : Nat
  list      : List CellItem
  cellov    : Nat
  tOff      : Nat × Option CalTime
  tOn       : Nat × Option CalTime
  armStamp  : Option Stamp
  deriving DecidableEq, Repr

/-- A display request (R376). -/
structure PnlReq where
  number     : Nat
  transition : Nat
  urgent     : Bool
  refresh    : Bool          -- the refresh of a DIRTY region (R378)
  deriving DecidableEq, Repr

/-- A running waveform: its table, pairs done, and whether it has started. -/
structure PnlRun where
  req     : PnlReq
  table   : List Byte
  pair    : Nat
  started : Bool
  cut     : Bool             -- to be cut at the next pair boundary
  deriving DecidableEq, Repr

/-- One display region. -/
structure Region where
  run   : Option PnlRun
  slot  : Option PnlReq
  dirty : Bool
  deriving DecidableEq, Repr

/-- The panel driver. Planes are level bytes, one pixel per entry. -/
structure Panel where
  next     : List Byte
  work     : List Byte
  shown    : List Byte
  tables   : List (Nat × Nat × List Byte)
  staging  : Option (Nat × Nat × List Byte)
  regions  : Vector Region 8
  rail     : Nat             -- steps up, 0 to 5
  railDown : Bool            -- going down
  railFast : Bool            -- 1 ms steps
  railSel  : Nat
  railNew  : Bool            -- the rail of the last step up has not been read yet (R374)
  fault    : Bool
  second   : Bool            -- the second frame of a pair runs
  closeout : Nat             -- 0 none, 1 running pair, 2 grounded frame, 3 rails
  band     : Nat
  deriving DecidableEq, Repr

/-- The device trims in force and as written (R135 to R138). -/
structure Trims where
  mod     : Vector Word 170
  vref    : Word
  vrefDue : Option Word
  osc     : Word
  bkupDue : Option (BitVec 8)
  panelDue : Option (BitVec 8)
  deriving DecidableEq, Repr

end Sys2Proof.Machine
end

