-- ==== Sys2Proof/Machine/Reset.lean ====
section
/-!
DEFINITION. The value of every part of the state right after a cold reset at the first power-up (R279, R399). Where the
spec gives no value, the value is the model's (log 3).
-/
namespace Sys2Proof.Machine

/-- A detector that has seen nothing (R154). -/
def Detector.idle : Detector := ⟨false, 0, Stamp.zero, Stamp.zero⟩

/-- The interval of a schedule before anything has opened it. -/
def Sched.reset : Sched := ⟨0, false⟩

/-- No aggregate running (R142). -/
def Agg.empty : Agg := ⟨0, 0, [], false, false, false⟩

/-- No aggregate closed yet. -/
def AggOut.empty : AggOut := ⟨[], false, false, false⟩

/-- A channel block before the first block has closed (log 3). -/
def ChBlock.empty : ChBlock := ⟨0, 0, 0, 0, 0, 0, 0, [], [], []⟩

/-- A slot before its first frame. -/
def Slot.reset : Slot := ⟨0, 0, 0, List.replicate 5 0, [], []⟩

/-- Filters before their first input. -/
def Filter.reset : Filter := ⟨[], [], [], []⟩

/-- No sample compared. -/
def CmpSums.zero : CmpSums := ⟨0, 0, 0, 0, 0⟩

/-- The comparison of a dwell that begins (R39): 1.25 ms of the stream, 64 samples, pass first. -/
def Dwell.start (pos : Fin 4) : Dwell := ⟨pos, 64, false, .zero, .zero⟩

/-- A channel after a cold reset (R37, R38, R53). -/
def Chan.reset : Chan where
  st := .active
  moves := []
  cause := 0
  perr := 0
  iperr := 0
  clip := false
  drift := false
  checking := false
  restoring := false
  injected := false
  splicing := false
  suppressed := false
  fromFailed := false
  suppressDue := false
  wvalid := false
  wfail := false
  werr := 0
  trimDue := none
  recheck := false
  dcEst := 0
  dcRec := []
  dcSum := []
  dcContent := 0
  autoFrozen := none
  line := []
  main := .reset
  raw := 0
  integ := 0
  stream := []
  gaps := []
  was := none
  cur := []
  blk := []
  blkOfs := []
  blkDc := []
  blkBad := false
  dcDet := .idle
  block := .empty
  agg150 := .empty
  agg10 := .empty
  out150 := .empty
  out10 := .empty

/-- A spare after a cold reset: it rotates, and parks at its first move unless a channel is enabled (R34, R38). -/
def Spare.reset : Spare where
  st := .rotating
  pos := 0
  parked := false
  still := none
  wait := 0
  fresh := 0
  main := .reset
  dwell := .start 0
  serr := 0
  phase := 0
  queue := []
  trimDue := none

/-- The quantities of a phase that has closed no cycle. -/
def PhaseQ.zero : PhaseQ := ⟨0, 0, 0, 0, 0, 0, 0, 0, 0, 0, 0, 0⟩

/-- A phase whose paths are idle (R97). -/
def Phase.reset : Phase := ⟨false, false, [], [], .zero, none, 0, [], [], [], []⟩

/-- The quantities of a point that has closed no cycle. -/
def PointQ.zero : PointQ := ⟨0, 0, 0, 0, 0, 0, 0, 0, 0⟩

/-- An empty group of sums (R103). -/
def SumGroup.zero : SumGroup := ⟨0, 0, 0, 0, 0, 0, 0⟩

/-- Empty sums (R103). -/
def Sums.zero : Sums := ⟨Vector.replicate 6 .zero, Vector.replicate 6 .zero⟩

/-- No mark. -/
def Marks.none : Marks := ⟨false, false, false, false, false, false⟩

/-- A subinterval that has just opened (R113). -/
def DemSub.empty : DemSub := ⟨List.replicate 8 0, 0, .none⟩

/-- The demand of a point after a cold reset at the first power-up (R113 to R115). -/
def Demand.reset : Demand where
  run := .empty
  subs := []
  last := List.replicate 8 0
  lastMark := .none
  max := List.replicate 8 0
  maxAt := List.replicate 8 Option.none
  resets := 0
  oldSubs := Option.none
  sched := .reset

/-- A point after a cold reset at the first power-up. -/
def Point.reset : Point where
  acc := Vector.replicate 22 0
  wrapped := false
  reconciled := false
  phases := Vector.replicate 3 .reset
  q := .zero
  prevQ := none
  st := .off
  pend := false
  brdg := false
  degr := false
  metered := false
  settle := false
  turned := false
  contrib := List.replicate 8 0
  contribPh := List.replicate 6 0
  contribBr := List.replicate 8 0
  net := 0
  rawNet := 0
  pending := .zero
  unrec := .zero
  dem := .reset
  profLost := 0
  dirExp := false
  revRun := 0
  revFirst := .zero
  bypass := .idle

/-- Empty balance sums. -/
def BalAcc.zero : BalAcc := ⟨0, 0, 0, 0, 0, 0⟩

/-- A balance that is not computed. -/
def Balance.reset : Balance := ⟨.zero, .zero, .zero, false, false, false, .reset, [], .zero, .zero, .zero, 0, 0, 0⟩

/-- A rapid-change machine without history (R148). -/
def Rvc.reset : Rvc := ⟨[], [], false, 0, 0, .zero, 0⟩

/-- A bus after a cold reset: the sliding reference is the declared voltage, 230 V (R145). -/
def Bus.reset : Bus where
  usr := 230
  udinDue := false
  urmsN := none
  dip := none
  swell := none
  intr := none
  rvc := Vector.replicate 3 .reset
  rvcLost := 0
  freezeLeft := none
  seq := .idle
  neutral := .idle
  least := [none, none, none]
  greatest := [none, none, none]
  lastLeast := []
  lastGreatest := []
  flagged := false
  freq := 0
  freqFlag := false
  blockRms := []
  blockFlag := false
  blockShort := false
  u2 := 0
  u0 := 0
  u2bad := true
  u0bad := true
  u2agg := .empty
  u2out := .empty
  agg150 := .empty
  agg10 := .empty
  agg2h := .empty
  out150 := .empty
  out10 := .empty
  out2h := .empty
  bal := .reset

/-- A candidate not yet judged (R67). -/
def Cand.reset : Cand := ⟨false, 0, 0, false, 0⟩

/-- No crossing found (R69). -/
def Acq.reset : Acq := ⟨[], [], [], 0, 0⟩

/-- SYS ticks in a second: ticks of 5.0863 ns (R50, R64). -/
def sysHz : Nat := 196608000

/-- The period of the nominal frequency in SYS ticks with 16 fractional bits (R64, R75). -/
def nominalPeriod (sixty : Bool) : Nat := sysHz * 65536 / (if sixty then 60 else 50)

/-- The timebase before its first cycle (R77). -/
def Timebase.reset : Timebase where
  mode := .acquire
  active := 15
  switches := 0
  slewing := false
  slew := 0
  frozen := 0
  cands := Vector.replicate 8 .reset
  acq := Vector.replicate 8 .reset
  lsync := ⟨false, none, 0, [], 0⟩
  err := 0
  freqWord := nominalPeriod false
  lockRun := 0
  holdRun := 0
  cycle := 0
  start := 0
  prevStart := 0
  period := nominalPeriod false
  periods := []
  lastCycle := 0
  freq := 0
  boundary := .zero
  prevBoundary := .zero
  nomf60 := false
  blkCycles := 0
  blkStart := .zero
  blkUnlocked := false
  aggBlocks := 0
  ran := []
  fCycles := 0
  fTicks := 0
  fFlag := false
  tenSec := .reset
  tenMin := .reset
  twoHours := .reset
  provisional := none

/-- The unloaded values of a channel (R86). -/
def ChCal.unloaded : ChCal := ⟨0x40000000, 0, 0, 0, 0⟩

/-- The unloaded values of a point (R86). -/
def PtCal.unloaded : PtCal := ⟨0x40000000, 0x40000000, 0x40000000, Vector.replicate 3 0, Vector.replicate 3 0⟩

/-- The unloaded calibration set (R86). -/
def CalSet.unloaded : CalSet := ⟨Vector.replicate 136 .unloaded, Vector.replicate 128 .unloaded⟩

/-- The words of a channel record in order (R124). -/
def ChCal.words (c : ChCal) : List Word := [c.gain, c.dcofs, c.rmsofs, c.offs, c.delay]

/-- The words of a point record in order (R124). -/
def PtCal.words (c : PtCal) : List Word := [c.pgain, c.qgain, c.sgain] ++ c.pofs.toList ++ c.qofs.toList

/-- The 7340 bytes that the digest of R126 covers: serial number, format 1, channel records, point records. -/
def CalSet.image (s : CalSet) : List Byte :=
  le 8 Config.serial.toNat ++ le 4 1 ++ wordBytes (s.ch.toList.flatMap ChCal.words)
    ++ wordBytes (s.pt.toList.flatMap PtCal.words)

/-- The digest of a calibration set (R126). -/
def CalSet.digest (s : CalSet) : List Byte := sha256 s.image

/-- Meter calibration after a cold reset at the first power-up (R128). -/
def MeterCal.reset : MeterCal where
  staged := .unloaded
  live := .unloaded
  written := []
  reloadDue := []
  digest := CalSet.unloaded.digest
  jdigest := CalSet.unloaded.digest
  jdigestNow := CalSet.unloaded.digest
  jcommit := (0, 0)
  commits := 0
  commitCycle := 0
  loaded := false
  everSet := false
  firstDone := false
  perr := false
  waiting := []
  resolves := []
  resets := []

/-- The number that names no record yet (R118). -/
def noNumber : Nat := 0xFFFFFFFFFFFF

/-- The profile at the first power-up; the chain's seed is the hash of the serial number (R118). -/
def Profile.reset : Profile where
  running := false
  opened := .zero
  map := []
  totals := Vector.replicate 128 []
  status := Vector.replicate 128 0
  stepped := false
  part := false
  holdover := false
  commit := false
  gapDue := true
  ring := []
  next := 0
  newest := noNumber
  hash := sha256 (le 8 Config.serial.toNat)
  ack := noNumber
  runs := []
  lossNoted := false
  sched := .reset

/-- A free capture buffer (R157). -/
def Capture.free : Capture := ⟨.free, 0, [], [], 0, [], 0, false, []⟩

/-- Power quality without capture. -/
def Pq.reset : Pq := ⟨Vector.replicate 2 .free, 0, 0, [], [], .idle, []⟩

/-- An analysis slot at the start of a set (R161). -/
def WbSlot.reset : WbSlot := ⟨[], List.replicate 740 0, 0, 0, 0, 0, false, false, false, false⟩

/-- The survey before its first set (R164). -/
def Wideband.reset : Wideband := ⟨0, false, 0, 0, false, false, [], .zero, false, false, Vector.replicate 24 .reset, []⟩

/-- The default pulse width of 80 µs in SYS ticks (R177). -/
def pulseWidth : Nat := 80 * sysHz / 1000000

/-- A pulse output with its pin released (R179). -/
def Pulse.reset : Pulse := ⟨0, 0, 0, 0, 0, true, .zero, [], none, none, false, pulseWidth, false, false, true⟩

/-- Nothing to replay (R253). -/
def Engine.reset : Engine := ⟨[], []⟩

/-- No folio (R194). -/
def Folios.reset : Folios := ⟨[], none, 0, false, [], [], .zero, 0, true, false, false, none, none, 0, 0, [], []⟩

/-- A port without replies (R202). -/
def PortState.reset : PortState := ⟨none, [], none, 0, false, false, 0, []⟩

/-- Scribe without sessions and commands. -/
def Scribe.reset : Scribe :=
  ⟨Vector.replicate 3 .reset, [], Vector.replicate 32 ⟨[], 0⟩, [], 0, false, none, [], none⟩

/-- An empty event ring (R235). -/
def Events.reset : Events := ⟨[], 0, none, 0, false, [], [], [], none⟩

/-- A target with an empty stack (R286). -/
def Target.reset : Target := ⟨[], 0, [], 0, 0, 0⟩

/-- The interrupt controller after reset. -/
def Intc.reset : Intc := ⟨[], Vector.replicate 6 .reset⟩

/-- The journal and the supply at the first power-up: four erased sequences, no record (log 3). -/
def Power.reset : Power where
  pfail := false
  causeVin := false
  causePfw := false
  sustained := false
  entryDue := none
  entryDone := false
  tails := 0
  tailDue := 0
  erased := 4
  seqNo := 0
  ckptDue := false
  opened := 0
  susCount := 0
  records := []
  ceil := ⟨0, 0, 0, 0, 0, 0⟩
  pfCount := 0
  warnNo := none
  vinLow := false
  pfwLow := false
  vbatLow := false
  vbatVolt := none
  vbatOn := false
  rstCause := 1

/-- The fault machinery after a cold reset: both engines in lockstep, SYS on the backup oscillator (R274, R282). -/
def Flt.reset : Flt where
  combFenced := none
  metFenced := none
  combStop := false
  combSusp := 0
  accPrimOut := false
  accMirrOut := false
  accFixed := []
  onBackup := true
  degraded := false
  xtalOk := false
  xtalHeld10 := false
  xreturn := false
  relock := 0
  calStop := false
  panelStop := false
  guardStop := false
  frames := 0

/-- An empty firmware slot. -/
def FwSlot.empty : FwSlot := ⟨[], 0, false, []⟩

/-- Anvil at the first power-up: no slot holds a verified image, so that the recovery image is what boots, with FW_RECOVERY set (R282,
R332; log 3). -/
def Anvil.reset : Anvil where
  up := false
  slot := 3
  active := 0
  fallback := 0
  fw := .idle
  epoch := 0
  version := Config.recoveryVersion
  slots := Vector.replicate 2 .empty
  trialLeft := 0
  trialOver := none
  checkDue := false
  fillDue := false
  blots := BitVec.ofNat 128 (2 ^ 34)
  auxRes := Vector.replicate 16 0
  auxDue := []
  hall := []
  hallLast := (0, 0, 0)
  magScans := 0
  refActive := false
  refClear := 0
  tempActive := false
  images := []
  saveDue := none
  log := []
  logNext := 0
  logLink := sha256 (le 8 Config.serial.toNat)

/-- The calendar time after a loss: 2000-01-01 00:00:00 (R333, R334). -/
def calOrigin : CalTime := ⟨2000, 1, 1, 0, 0, 0, 0⟩

/-- A disabled alarm (R342). -/
def Alarm.reset : Alarm :=
  ⟨0x01000000, 0x20000101, false, false, false, 0x7F, false, false, false, false, 0, 0, none, false⟩

/-- The calendar after a loss (R334). -/
def Calendar.reset : Calendar where
  time := calOrigin
  dow := 1
  valid := false
  lost := true
  range := false
  trim := 0
  trimNew := 0
  edge := 0
  ahead := 0
  slew := 0
  slewing := false
  adjSeq := 0
  alarms := Vector.replicate 2 .reset
  wake := false
  moves := []

/-- The mask bits QUENCH, ISOLATE, NOTIFY and RECORD of a source after a loss (R350, R399). -/
def grdDefault (i : Nat) : BitVec 4 := if i ≤ 3 then 0xF else if i ≤ 9 then 3 else if i ≤ 11 then 7 else 0

/-- A guard source after a loss. -/
def GrdSrc.reset (i : Nat) : GrdSrc := ⟨false, false, 0, grdDefault i, none, none, false⟩

/-- The guard domain after a loss (R350). -/
def Guard.reset : Guard where
  srcs := Vector.ofFn fun i => GrdSrc.reset i.val
  mlock := false
  covpol := 0
  magth := 2000
  armed := false
  arming := false
  kek := none
  transport := true
  quenched := false
  qcause := 0
  glitchOn := false
  tick := 0
  list := []
  cellov := 0
  tOff := (0, none)
  tOn := (0, none)
  armStamp := none

/-- A display region at rest. -/
def Region.reset : Region := ⟨none, none, false⟩

/-- The panel driver after a cold reset at the first power-up (R369, log 3). -/
def Panel.reset : Panel where
  next := []
  work := []
  shown := []
  tables := []
  staging := none
  regions := Vector.replicate 8 .reset
  rail := 0
  railDown := false
  railFast := false
  railSel := 0
  railNew := false
  fault := false
  second := false
  closeout := 0
  band := 0

/-- A unit index as a fuse holds it: 0 to 14, or 31 for none (R135). -/
def unitIndex (w : Word) (hi lo : Nat) : Nat := let n := fld w hi lo; if n ≤ 14 then n else 31

/-- The fused trim of a modulator, within the ranges of its fields (R135). -/
def fusedMod (n : Fin 170) : Word :=
  let w := Config.trimFuse (0xE0000 + 4 * n.val)
  word (put 12 8 (unitIndex w 12 8) + put 4 0 (unitIndex w 4 0))

/-- The fused reference trim (R135). -/
def fusedVref : Word := Config.trimFuse 0xE0300 &&& 0x3F3F

/-- The fused oscillator trims (R135). -/
def fusedOsc : Word := Config.trimFuse 0xE0304 &&& 0xFFFF

/-- The trims as the fuses hold them (R135). -/
def Trims.reset : Trims where
  mod := Vector.ofFn fusedMod
  vref := fusedVref
  vrefDue := none
  osc := fusedOsc
  bkupDue := none
  panelDue := none

/-- Start-up at its beginning (R282). -/
def Startup.reset : Startup where
  inReset := false
  xtalPassed := false
  restored := false
  tested := false
  portsReady := false
  configDone := false
  pathReady := false
  metering := false
  unmeteredDue := false
  unmeteredFrom := .zero
  unmeteredWhy := 0
  lineAtFailure := false
  lineAtStart := false
  calInvalid := false
  hadJournal := false

/-- The device in START (R19). -/
def Dev.reset : Dev := ⟨.bgi, .start, .reset, false, 0, false, []⟩

end Sys2Proof.Machine
end

