-- ==== Sys2Proof/Machine/State.lean ====
section
/-!
DEFINITION. The state of the block, the reasons a command can stop, and the machine right after a power-on reset at
the first power-up.
-/
namespace Sys2Proof.Machine

/-- No command of the block ends in a fault: errors are replies, events and blot bits (R248, R324). The type has no
constructor, so no step can answer one. Safe. -/
inductive Fault where
  deriving DecidableEq, Repr

/-- Why a command has no meaning. -/
inductive Refusal where
  /-- Raised by `exec` alone for a row that has no meaning yet. Safe: nothing is claimed of it. -/
  | notModelled (mnemonic : String)
  deriving DecidableEq, Repr

/-- The whole block. `pending`: commands waiting, first in, first out. `draws`: free values taken so far (log 1).
`now`: edges of the calendar crystal seen on an empty queue (log 2). -/
structure State where
  pending : List Instr
  draws   : Nat
  now     : Nat
  dev     : Dev
  cfg     : Regs             -- RW words as last accepted (R397)
  eff     : Regs             -- RW words in force
  slots   : Vector Slot 170
  chans   : Vector Chan 136
  spares  : Vector Spare 34
  pts     : Vector Point 128
  buses   : Vector Bus 2
  tb      : Timebase
  engine  : Engine
  mcal    : MeterCal
  prof    : Profile
  pq      : Pq
  wb      : Wideband
  pulses  : Vector Pulse 8
  fol     : Folios
  scr     : Scribe
  ev      : Events
  intc    : Intc
  pwr     : Power
  flt     : Flt
  anv     : Anvil
  cld     : Calendar
  grd     : Guard
  pnl     : Panel
  trim    : Trims
  deriving DecidableEq, Repr

/-- The machine right after reset: in START on the backup oscillator, nothing restored, nothing waiting (R279, R399). The
ordering code and what the spec gives no value for are the model's (log 3). -/
def State.reset : State where
  pending := []
  draws := 0
  now := 0
  dev := .reset
  cfg := []
  eff := []
  slots := Vector.replicate 170 .reset
  chans := Vector.replicate 136 .reset
  spares := Vector.replicate 34 .reset
  pts := Vector.replicate 128 .reset
  buses := Vector.replicate 2 .reset
  tb := .reset
  engine := .reset
  mcal := .reset
  prof := .reset
  pq := .reset
  wb := .reset
  pulses := Vector.replicate 8 .reset
  fol := .reset
  scr := .reset
  ev := .reset
  intc := .reset
  pwr := .reset
  flt := .reset
  anv := .reset
  cld := .reset
  grd := .reset
  pnl := .reset
  trim := .reset

end Sys2Proof.Machine
end

