-- ==== Sys2Proof/Machine/Calendar.lean ====
section
/-!
DEFINITION. The calendar itself (R333 to R337): its range, its days, the conversion between fields and counts, and one
edge of its crystal with trim and slew.
-/
namespace Sys2Proof.Machine

/-- February has 29 days in years divisible by 4, except in 2100 (R336). -/
def isLeap (y : Nat) : Bool := y % 4 = 0 && y ≠ 2100

/-- The days of a month (R336). -/
def daysIn (y m : Nat) : Nat :=
  if m = 2 then (if isLeap y then 29 else 28) else if m = 4 ∨ m = 6 ∨ m = 9 ∨ m = 11 then 30 else 31

/-- Days from 2000-01-01 to the first day of a year (R336). -/
def daysBefore (y : Nat) : Nat := 365 * (y - 2000) + (y - 2000 + 3) / 4 - if 2100 < y then 1 else 0

/-- Days from the first day of a year to the first day of a month. -/
def daysToMonth (y m : Nat) : Nat := ((span 1 (m - 1)).map (daysIn y)).foldl (· + ·) 0

/-- A time that the calendar can hold (R336, R338). -/
def calOk (t : CalTime) : Bool :=
  2000 ≤ t.year && t.year ≤ 2199 && 1 ≤ t.month && t.month ≤ 12 && 1 ≤ t.date && t.date ≤ daysIn t.year t.month
    && t.hour ≤ 23 && t.min ≤ 59 && t.sec ≤ 59 && t.sub ≤ 32767

/-- Days since 2000-01-01. -/
def calDays (t : CalTime) : Nat := daysBefore t.year + daysToMonth t.year t.month + (t.date - 1)

/-- Whole seconds since 2000-01-01 00:00:00. -/
def calSeconds (t : CalTime) : Nat := ((calDays t * 24 + t.hour) * 60 + t.min) * 60 + t.sec

/-- Counts of 1/32768 s since 2000-01-01 00:00:00 (R333). -/
def calCounts (t : CalTime) : Nat := calSeconds t * 32768 + t.sub

/-- The year and the day within it of a day number, searching at most the given number of years. -/
def yearOf : Nat → Nat → Nat → Nat × Nat
  | 0, y, d => (y, d)
  | k + 1, y, d => let n := if isLeap y then 366 else 365; if d < n then (y, d) else yearOf k (y + 1) (d - n)

/-- The month and date of a day within a year. -/
def monthOf (y : Nat) : Nat → Nat → Nat → Nat × Nat
  | 0, m, d => (m, d + 1)
  | k + 1, m, d => if d < daysIn y m then (m, d + 1) else monthOf y k (m + 1) (d - daysIn y m)

/-- The fields of a count (R333, R336). -/
def calOfCounts (n : Nat) : CalTime :=
  let secs := n / 32768
  let (y, d) := yearOf 200 2000 (secs / 86400)
  let (m, date) := monthOf y 12 1 d
  ⟨y, m, date, secs / 3600 % 24, secs / 60 % 60, secs % 60, n % 32768⟩

/-- The number of counts in the calendar's range: the end of 2199 (R336). -/
def calEnd : Nat := daysBefore 2200 * 86400 * 32768

/-- CLD.TIME0 of a time and a day of week (R333). -/
def time0 (t : CalTime) (dow : Nat) : Word :=
  word (put 26 24 dow + put 23 16 (toBcd t.hour) + put 15 8 (toBcd t.min) + put 7 0 (toBcd t.sec))

/-- CLD.TIME1 of a time (R333). -/
def time1 (t : CalTime) : Word :=
  word (put 31 24 (toBcd (t.year / 100)) + put 23 16 (toBcd (t.year % 100)) + put 15 8 (toBcd t.month)
    + put 7 0 (toBcd t.date))

/-- The ten calendar bytes of a timestamp: 0xFF while the calendar is invalid (R66). -/
def calBytes : Option CalTime → List Byte
  | none => ones 8
  | some t =>
    [t.sec, t.min, t.hour, t.date, t.month, t.year % 100].map (fun n => BitVec.ofNat 8 (toBcd n))
      ++ le 2 (t.sub + if 2100 ≤ t.year then 32768 else 0)

/-- The sixteen bytes of a timestamp (R65, R66). -/
def Stamp.bytes (t : Stamp) : List Byte := le 6 t.cycle ++ le 2 t.angle ++ calBytes t.cal

/-- A correction of the trim falls on an edge of the window: |TRIM| corrections spread evenly (R337; which edges
they fall on is the model's, log 4). -/
def trimAt (trim : Int) (edge : Nat) : Bool :=
  (edge + 1) * trim.natAbs / 2 ^ 20 ≠ edge * trim.natAbs / 2 ^ 20

/-- A count of the slew falls on an edge: one in every 2048 (R341), beside a correction of the trim. -/
def slewAt (c : Calendar) : Bool :=
  c.slew ≠ 0 && (if c.edge % 2048 = 0 then !trimAt c.trim c.edge else c.edge % 2048 = 1 && trimAt c.trim (c.edge - 1))

/-- By how many counts the sub-second counter advances on an edge (R333, R337, R341). -/
def edgeCounts (c : Calendar) : Nat :=
  if trimAt c.trim c.edge then (if 0 < c.trim then 2 else 0)
  else if slewAt c then (if 0 < c.slew then 2 else 0) else 1

/-- The slew that remains after a count of it. -/
def slewLess (n : Int) : Int := if 0 < n then n - 1 else if n < 0 then n + 1 else 0

/-- The counts at which the calendar stands: those since its sub-second counter carried are in it (R333). -/
def Calendar.counts (c : Calendar) : Nat := calCounts c.time + c.ahead

/-- The time at which the calendar stands. -/
def Calendar.now (c : Calendar) : CalTime := if c.ahead = 0 then c.time else calOfCounts c.counts

/-- The calendar reaches the end of its range: it stops, becomes invalid and sets RANGE (R336). -/
def atRangeEnd (c : Calendar) : Calendar :=
  if calEnd ≤ calCounts c.time + 1 then { c with valid := false, range := true } else c

/-- One crystal edge (R333, R337, R341). The counter waits at 32 767 for the second boundary, which is a command of its
own (log 2); the counts from its carry on are kept. -/
def Calendar.tick (c : Calendar) : Calendar :=
  let count := if c.range then c.time.sub else c.time.sub + c.ahead + edgeCounts c
  let next := (c.edge + 1) % 2 ^ 20
  atRangeEnd
    { c with
      time := { c.time with sub := min 32767 count }
      ahead := count - 32767
      slew := if slewAt c then slewLess c.slew else c.slew
      edge := next
      trim := if next = 0 then c.trimNew else c.trim }

end Sys2Proof.Machine
end

