-- ==== Sys2Proof/Machine/Ops.lean ====
section
/-!
DEFINITION. The named operations every command shares: the parameter stores, free values, instants, blot bits,
interrupt sources and their routing, and the entry of events into the ring and the log's queue.
-/
namespace Sys2Proof.Machine

/-- The word of an address in a store: the reset word where none is listed (R399). -/
def Regs.at (m : Regs) (addr : Nat) : Word :=
  match m with
  | [] => resetWord addr
  | (a, w) :: rest => if a = addr then w else Regs.at rest addr

/-- A store with the word of an address removed. -/
def Regs.drop (m : Regs) (addr : Nat) : Regs := m.filter fun e => e.1 ≠ addr

/-- Insertion by ascending address. -/
def Regs.insert (addr : Nat) (w : Word) : Regs → Regs
  | [] => [(addr, w)]
  | (a, v) :: rest =>
    if addr < a then (addr, w) :: (a, v) :: rest
    else if addr = a then (addr, w) :: rest
    else (a, v) :: Regs.insert addr w rest

/-- A store with a word written, in canonical form: the reset word is not listed. -/
def Regs.put (m : Regs) (addr : Nat) (w : Word) : Regs :=
  if w = resetWord addr then m.drop addr else (m.drop addr).insert addr w

/-- The canonical form: addresses rise, and no entry equals the reset word. -/
def Regs.wf : Regs → Bool
  | [] => true
  | [(a, w)] => w != resetWord a
  | (a, w) :: (b, v) :: rest => a < b && w != resetWord a && Regs.wf ((b, v) :: rest)

/-- The word of a register as last accepted (R397). -/
def State.asked (s : State) (r : Reg) : Word := s.cfg.at r.addr

/-- The word of a register in force. -/
def State.live (s : State) (r : Reg) : Word := s.eff.at r.addr

/-- A fresh free value (log 1). -/
def State.fresh (s : State) : Nat × State := (Config.freeNat s.draws, { s with draws := s.draws + 1 })

/-- The calendar time carried in timestamps: none while the calendar is invalid (R66). -/
def State.calNow (s : State) : Option CalTime := if s.cld.valid then some s.cld.now else none

/-- The calendar and guard domains have a supply (R295). -/
def State.vaon (s : State) : Bool := match s.dev.st with | .off => false | _ => true

/-- SYS ticks of one comb frame (R48), and the fractional steps of a tick in which instants are kept (R64). -/
def frameTicks : Nat := 480

/-- The fractional steps of a SYS tick (R64). -/
def tickParts : Nat := 65536

/-- The present instant: the comb frames since the cold reset, in SYS ticks with 16 fractional bits (log 72). -/
def State.clock (s : State) : Nat := s.flt.frames * (frameTicks * tickParts)

/-- A calendar time some counts of 1/32768 s earlier. -/
def CalTime.earlier (n : Nat) (t : CalTime) : CalTime := if n = 0 then t else calOfCounts (calCounts t - n)

/-- The calendar time of an instant (R65), none while the calendar is invalid: the calendar now, or as it stood before the first
step or set after the instant, less the SYS time passed since, at 6000 ticks to a count. -/
def State.calAt (s : State) (x : Nat) : Option CalTime :=
  let back := fun (late : Nat) => CalTime.earlier ((late - x) / (6000 * tickParts))
  match (s.cld.moves.filter fun m => x < m.at_).getLast? with
  | some m => s.calNow.bind fun _ => m.before.map fun n => back m.at_ (calOfCounts n)
  | none => s.calNow.map (back s.clock)

/-- Cycle number and angle of an instant at the pins (R65). One at or after the end of the running cycle, whose closure has not
come yet, is counted on with the running period; one before the last closed cycle stands at its start (log 72). -/
def Timebase.place (t : Timebase) (x : Nat) : Nat × Nat :=
  if t.start ≤ x then
    let d := x - t.start
    ((t.cycle + d / t.period) % 2 ^ 48, d % t.period * 65536 / t.period)
  else (t.prevBoundary.cycle, (x - t.prevStart) * 65536 / (t.start - t.prevStart))

/-- An angle that has to be slewed (R71): below 0x0010 none is in progress. -/
def Timebase.setSlew (x : Int) (t : Timebase) : Timebase :=
  if 16 ≤ x.natAbs then { t with slew := x, slewing := true } else { t with slew := 0, slewing := false }

/-- The timebase runs at a period held (R72). -/
def Timebase.hold (period : Nat) (t : Timebase) : Timebase := { (t.setSlew 0) with period := period, freqWord := period, err := 0 }

/-- An instant as it is reported (R65). Before the first metered cycle the cycle number is the restored ceiling, the angle 0. -/
def State.stampOf (s : State) (x : Nat) : Stamp :=
  let place := if s.dev.startup.metering then s.tb.place x else (s.tb.cycle, 0)
  ⟨place.1, place.2, s.calAt x⟩

/-- The present instant as it is reported (R65). -/
def State.stampNow (s : State) : Stamp := s.stampOf s.clock

/-- The number of the next cycle boundary whose closure comes afterwards (R115, R127, R182, R233). -/
def State.nextBoundary (s : State) : Nat := if s.dev.startup.metering then s.tb.cycle + 1 else s.tb.cycle

/-- Metering runs (R19). -/
def State.metering (s : State) : Bool := s.dev.startup.metering

/-- The part is powered and out of reset, so that its SYS domain acts. -/
def State.powered (s : State) : Bool :=
  (match s.dev.st with | .off | .cell => false | _ => true) && !s.dev.startup.inReset

/-! ### Schedules (R82, R83, R141, R275) -/

/-- The calendar comes to a multiple of some seconds on a run of it, one that lies at or before the boundary at `last` (R82). -/
def crossed (seconds last : Nat) (run : Nat × Nat) : Bool :=
  let l := seconds * 32768
  decide ((run.1 / l + 1) * l ≤ min run.2 last)

/-- An interval of a schedule that opens at the present boundary (R75, R82). -/
def State.opening (s : State) : Sched := ⟨s.tb.cycle, s.tb.nomf60⟩

/-- An interval of some seconds closes at the present boundary (R82, R83, R339): its nominal instant has come since the boundary before
on a run of the calendar, from a step or set on by its new time, or,
without a calendar, as many cycles of the nominal frequency have passed as it was opened under (R275). It closes once. -/
def State.scheduleDue (s : State) (seconds : Nat) (x : Sched) : Bool :=
  x.since ≠ s.tb.cycle && (match s.tb.boundary.cal with
    | some t => s.tb.ran.any (crossed seconds (calCounts t))
    | none => decide (seconds * (if x.sixty then 60 else 50) ≤ s.tb.cycle - x.since))

/-- The present boundary is counted and not on the calendar: records that close there are marked stepped (R275). -/
def State.countedOut (s : State) : Bool := s.tb.boundary.cal.isNone

/-- N of a block (R141). -/
def blockLength (sixty : Bool) : Nat := if sixty then 12 else 10

/-- A block closes at the present boundary: it is full, or a 10-minute tick falls there (R141). -/
def State.blockDue (s : State) : Bool := blockLength s.tb.nomf60 ≤ s.tb.blkCycles || s.scheduleDue 600 s.tb.tenMin

/-- NOMF in force from the present boundary on (R75, R130). -/
def State.nomfFrom (s : State) : Bool := if s.blockDue then bit (s.asked .tbCfg) 0 else s.tb.nomf60

/-- A setting has taken effect at the present boundary: a folio cut there says so (R185, R194). -/
def State.settingTook (s : State) : State :=
  let mark := fun (f : Folio) => if f.cut.cycle = s.tb.cycle then { f with flags := f.flags ||| 4 } else f
  { s with fol := { s.fol with readyFlags := s.fol.readyFlags ||| 4, filling := s.fol.filling.map mark } }

/-! ### Guard-clear challenges (R245, R365) -/

/-- A challenge is of a session, mask and value. -/
def Challenge.isOf (session : Fin 1024) (mask : BitVec 16) (value : BitVec 32) (c : Challenge) : Bool :=
  c.session = session && c.mask = mask && c.value = value

/-- Sources have declared since a challenge was given (R245). -/
def Challenge.mark (m : BitVec 16) (c : Challenge) : Challenge := { c with since := c.since ||| m }

/-- The same for a challenge that a waiting command confirms. -/
def Entry.mark (m : BitVec 16) (e : Entry) : Entry :=
  match e.verdict with
  | some (.confirms c) => { e with verdict := some (.confirms (c.mark m)) }
  | _ => e

/-- Every challenge in hand learns of declarations. -/
def Scribe.mark (m : BitVec 16) (x : Scribe) : Scribe :=
  if m = 0 then x
  else { x with
    challenge := x.challenge.map (Challenge.mark m)
    queues := x.queues.map fun q => { q with entries := q.entries.map (Entry.mark m) } }

/-- The sources that have declared in the running GUARD period. -/
def Guard.inPeriod (g : Guard) : BitVec 16 :=
  (List.finRange 16).foldl (fun m i => if g.srcs[i].again.isSome then m ||| BitVec.ofNat 16 (2 ^ i.val) else m) 0

/-! ### Blot bits (R320, R321) -/

/-- The blot bits. -/
inductive Blot where
  | afeSubst | afeFailed | afeDrift | tbHoldover | tbFreerun | timebaseDegraded | engCombSimplex | engMetSimplex
  | accSimplex | accLost | sramUncorr | inkUncorr | journalFallback | cfgRestoreFail | calMismatch | mcalParity
  | trimChanged | totalWrap | unmetered | eventLost | pqSequence | pqNeutral | pqBypass | pqDc | pqMagnet | intcOrder
  | calStopped | cldBadset | grdClock | vbatLow | anvWdog | fwReverted | refDrift | tempHigh | fwRecovery | logGap
  deriving DecidableEq, Repr

/-- The number of a blot bit (R321). -/
def Blot.num : Blot → Nat
  | .afeSubst => 0 | .afeFailed => 1 | .afeDrift => 2 | .tbHoldover => 3 | .tbFreerun => 4 | .timebaseDegraded => 5
  | .engCombSimplex => 6 | .engMetSimplex => 7 | .accSimplex => 8 | .accLost => 9 | .sramUncorr => 10
  | .inkUncorr => 11 | .journalFallback => 12 | .cfgRestoreFail => 13 | .calMismatch => 14 | .mcalParity => 15
  | .trimChanged => 16 | .totalWrap => 17 | .unmetered => 18 | .eventLost => 19 | .pqSequence => 20 | .pqNeutral => 21
  | .pqBypass => 22 | .pqDc => 23 | .pqMagnet => 24 | .intcOrder => 25 | .calStopped => 26 | .cldBadset => 27
  | .grdClock => 28 | .vbatLow => 29 | .anvWdog => 30 | .fwReverted => 31 | .refDrift => 32 | .tempHigh => 33
  | .fwRecovery => 34 | .logGap => 35

/-- A blot mask with one bit set. -/
def blotBit (b : Blot) : BitVec 128 := BitVec.ofNat 128 (2 ^ b.num)

/-- A blot bit is set (R320). -/
def State.blot (b : Blot) (s : State) : State := { s with anv := { s.anv with blots := s.anv.blots ||| blotBit b } }

/-! ### Interrupts (R284 to R292) -/

/-- The host targets that a source's word names, and the core targets Denhamon sets (R287, R293). -/
def State.sourceTargets (s : State) (n : Fin 192) (t : Fin 6) : Bool :=
  if t.val < 2 then (Config.coreTargets n.val).getLsbD t.val else bit (s.live (.intSrc n)) (16 + t.val)

/-- The priority of a source (R285). -/
def State.sourcePrio (s : State) (n : Fin 192) : Nat := fld (s.live (.intSrc n)) 3 0

/-- The base priority of a target (R286): Denhamon sets that of a core once the cores have booted; it is 0 until then (R293, R399). -/
def State.basePrio (s : State) (t : Fin 6) : Nat :=
  if t.val < 2 then (if s.anv.up then Config.coreBase t.val % 16 else 0)
  else if t.val = 5 then fld (s.live (.tgtCfg 5)) 11 8 else s.intc.targets[t].base

/-- The running priority of a target (R286). -/
def State.runPrio (s : State) (t : Fin 6) : Nat :=
  max (s.basePrio t) (match s.intc.targets[t].stack with | [] => 0 | e :: _ => e.prio)

/-- A target takes part in routing: it is enabled, and a core is awake and not restarting (R286, R287, R291). -/
def State.targetOn (s : State) (t : Fin 6) : Bool :=
  bit (s.live (.tgtCfg t)) 31 && (2 ≤ t.val || (s.anv.up && !s.dev.coresAsleep))

/-- The eligible target with the lowest running priority, the lower number on a tie (R287). -/
def State.chosenTarget (s : State) (n : Fin 192) : Option (Fin 6) :=
  let ok := (List.finRange 6).filter fun t => s.targetOn t && s.sourceTargets n t && s.runPrio t < s.sourcePrio n
  ok.foldl (fun best t => match best with
    | none => some t
    | some b => if s.runPrio t < s.runPrio b then some t else some b) none

/-- A source of higher priority goes first, then the lower number (R287). -/
def State.firstSource (s : State) : Option (Fin 192 × Fin 6) :=
  (s.intc.pend.filterMap (fun n => (idx? 192 n).bind fun n => (s.chosenTarget n).map fun t => (n, t))).foldl
    (fun best x => match best with
      | none => some x
      | some b => if s.sourcePrio b.1 < s.sourcePrio x.1 then some x else some b) none

/-- A delivery: the source leaves the pending set and enters the target's in-service stack under a new tag (R288). -/
def State.deliver (s : State) (n : Fin 192) (t : Fin 6) : State :=
  let p := s.sourcePrio n
  { s with intc :=
    { pend := s.intc.pend.filter (· ≠ n.val)
      targets := upd s.intc.targets t fun g =>
        { g with stack := ⟨n.val, p, g.dtag⟩ :: g.stack, dtag := (g.dtag + 1) % 256 } } }

/-- Deliveries until no pending source has an eligible target; every one raises a running priority, so that 96
suffice (R287). -/
def State.routeN : Nat → State → State
  | 0, s => s
  | k + 1, s => match s.firstSource with
    | none => s
    | some (n, t) => State.routeN k (s.deliver n t)

/-- Routing is evaluated (R287). -/
def State.route (s : State) : State := s.routeN 96

/-- The sources of the watch set (R292). -/
def State.watched (s : State) (n : Nat) : Bool :=
  (List.finRange 4).any fun i => (List.range 4).any fun j => fld (s.live (.watch i)) (8 * j + 7) (8 * j) = n

/-- A source becomes pending, without routing; a reserved number never does (R284). -/
def State.latch (n : Nat) (s : State) : State :=
  if n < 192 && !intReserved n then { s with intc := { s.intc with pend := insertAsc n s.intc.pend } } else s

/-- The cores wake and the device returns from Banked to RUN; source 65 becomes pending (R19, R284, R292). -/
def State.unbank (s : State) : State :=
  match s.dev.st with
  | .banked => ({ s with dev := { s.dev with st := .run, coresAsleep := false } }).latch 65
  | _ => s

/-- The device is in Banked. -/
def State.inBanked (s : State) : Bool := match s.dev.st with | .banked => true | _ => false

/-- A slow-path command ends a stay in Banked, and what waits for the cores is routed (R19, R287). -/
def State.wake (s : State) : State := if s.inBanked then s.unbank.route else s

/-- A listed source that becomes pending returns the device from Banked to RUN (R292), but not within a power-fail sequence, which
runs without the cores (R20, R309; log 94). -/
def State.wakeFor (srcs : List Nat) (s : State) : State := if !s.pwr.pfail && srcs.any s.watched then s.unbank else s

/-- A source is raised: it becomes pending, a watched one wakes the device from Banked, and routing follows
(R284, R287, R292). -/
def State.pendInt (n : Nat) (s : State) : State := ((s.latch n).wakeFor [n]).route

/-- Every entry of a target's stack is flushed and its source pending again (R289 to R291). -/
def State.flushTarget (t : Fin 6) (s : State) : State :=
  let srcs := s.intc.targets[t].stack.map InSvc.src
  let intc : Intc :=
    { pend := srcs.foldl (fun l n => insertAsc n l) s.intc.pend
      targets := upd s.intc.targets t fun g => { g with stack := [] } }
  ({ s with intc := intc }).wakeFor srcs

/-- The output of a target is driven low: its stack holds an entry (R288). IRQ_N and INT_N. -/
def State.irqLow (s : State) (t : Fin 6) : Bool := !s.intc.targets[t].stack.isEmpty

/-! ### Events (R235, R266, R324) -/

/-- The code of an event (R324). -/
def Ev.code : Ev → Nat
  | .chSubstituted => 0x101 | .chFailed => 0x102 | .chDrift => 0x103 | .chDriftChecked => 0x104 | .chRestored => 0x105
  | .chRestoreFailed => 0x106 | .chClip => 0x107 | .dcPresent => 0x108
  | .tbLocked => 0x201 | .tbRefSwitch => 0x202 | .tbHoldover => 0x203 | .tbFreerun => 0x204
  | .dip => 0x301 | .swell => 0x302 | .interruption => 0x303 | .rvc => 0x304 | .wrongSequence => 0x305
  | .neutralLost => 0x306 | .balanceResidual => 0x307
  | .reverseFlow => 0x401 | .neutralBypass => 0x402 | .ptFaulted => 0x403 | .totalWrap => 0x404 | .accLost => 0x405
  | .demandReset => 0x406 | .profileLost => 0x407 | .pendingDiscard => 0x408
  | .magnet => 0x501 | .xtalFail => 0x502 | .xtalReturn => 0x503 | .xtalRate => 0x504 | .engFault => 0x505
  | .engFenced => 0x506 | .engRejoined => 0x507 | .accFault => 0x508 | .eccUncorr => 0x509 | .inkUncorr => 0x50A
  | .calParity => 0x50B | .calDigestMismatch => 0x50C | .trimChanged => 0x50D | .refCheck => 0x50E | .tempHigh => 0x50F
  | .powerFail => 0x601 | .pfRecovered => 0x602 | .unmetered => 0x603 | .vbatLow => 0x604 | .calStopped => 0x605
  | .grdClock => 0x606 | .intcOrder => 0x607 | .pfSustained => 0x608
  | .portTimeout => 0x701 | .replyDropped => 0x702 | .sessionEnd => 0x703 | .sesProvision => 0x704 | .pnlDone => 0x705
  | .cldSet => 0x801 | .cldAdjust => 0x802 | .cldAlarm => 0x803 | .cldReject => 0x804
  | .grdSource => 0x901 | .grdCleared => 0x902 | .grdTest => 0x903
  | .anvWdog => 0xA01 | .fwActivated => 0xA02 | .fwCommitted => 0xA03 | .fwReverted => 0xA04 | .blotCleared => 0xA05
  | .cfgSaved => 0xA06 | .logGap => 0xA07 | .fill => 0xA08

/-- The subject field: kind in bits [15:14], index in [13:0] (R235). -/
def Subject.code : Subject → Nat
  | .device => 0
  | .point p => 0x4000 + p.val
  | .channel k => 0x8000 + k.val
  | .bus b => 0xC000 + b.val

/-- The source of channel events (R284): the quad's, or the bus's for CH 128 to 135. -/
def channelSource (k : Fin 136) : Nat := if k.val < 128 then 160 + k.val / 4 else 103 + 8 * ((k.val - 128) / 4)

/-- The interrupt source of an event, where R284 names one. A panel's clock and a set of the calendar are named where
they are raised. -/
def Ev.source (e : Ev) (subj : Subject) : Option Nat :=
  match e, subj with
  | .portTimeout, _ => some 6
  | .replyDropped, _ => some 7
  | .sessionEnd, _ | .sesProvision, _ => some 8
  | .profileLost, _ => some 20
  | .pnlDone, _ => some 23
  | .tbLocked, _ | .tbRefSwitch, _ => some 32
  | .tbHoldover, _ | .tbFreerun, _ => some 33
  | .xtalFail, _ | .xtalReturn, _ | .xtalRate, _ => some 34
  | .engFault, _ | .engFenced, _ | .engRejoined, _ => some 35
  | .accFault, _ | .accLost, _ => some 36
  | .eccUncorr, _ | .inkUncorr, _ => some 37
  | .calParity, _ | .calDigestMismatch, _ => some 38
  | .trimChanged, _ | .totalWrap, _ => some 39
  | .grdClock, _ | .calStopped, _ => some 40
  | .intcOrder, _ => some 41
  | .powerFail, _ => some 64
  | .cldSet, _ | .cldAdjust, _ => some 68
  | .magnet, _ => some 112
  | .dip, .bus b => some (96 + 8 * b.val)
  | .swell, .bus b => some (97 + 8 * b.val)
  | .interruption, .bus b => some (98 + 8 * b.val)
  | .rvc, .bus b => some (99 + 8 * b.val)
  | .wrongSequence, .bus b => some (100 + 8 * b.val)
  | .neutralLost, .bus b => some (101 + 8 * b.val)
  | .balanceResidual, .bus b => some (102 + 8 * b.val)
  | .reverseFlow, .point p | .neutralBypass, .point p | .ptFaulted, .point p => some (128 + p.val / 4)
  | .chSubstituted, .channel k | .chFailed, .channel k | .chDrift, .channel k | .chDriftChecked, .channel k
  | .chRestored, .channel k | .chRestoreFailed, .channel k | .dcPresent, .channel k | .chClip, .channel k =>
    some (channelSource k)
  | _, _ => none

/-- Entries that an event of d detail bytes takes (R324). -/
def entriesOf (d : Nat) : Nat := 1 + (d + 23) / 24

/-- Entries of the ring in use. -/
def ringUsed (ring : List Event) : Nat := (ring.map fun e => entriesOf e.detail.length).foldl (· + ·) 0

/-- Acknowledged events are reclaimed, oldest first, while an event of n entries does not fit (R235, R266). -/
def reclaimRing (n : Nat) (ack : Option Nat) : List Event → List Event
  | [] => []
  | e :: rest =>
    if ringUsed (e :: rest) + n ≤ 2048 then e :: rest
    else match ack with
      | some a => if e.number ≤ a then reclaimRing n ack rest else e :: rest
      | none => e :: rest

/-- LOG_GAP names the events that did not reach the log (R324, R326). -/
def State.gapItem (s : State) (g : Nat × Nat) : LogItem :=
  ⟨⟨0, Ev.code .logGap, s.stampNow, Subject.code .device, true, true, s.grd.quenched, 0, le 6 g.1 ++ le 6 g.2⟩, true⟩

/-- The entries that a further item takes in the queue to the log: a gap before it takes one of its own. -/
def Events.logNeed (ev : Events) : Nat := if ev.gap.isSome then 2 else 1

/-- An item joins the queue of 512 to the log. Events met by a full queue are not logged; their range stands before the next item that
finds room (R326). -/
def State.toLog (item : LogItem) (s : State) : State :=
  let ev := s.ev
  let gap := ((ev.gap.map s.gapItem).toList : List LogItem)
  { s with ev :=
    if ev.logQ.length + ev.logNeed ≤ 512 then { ev with logQ := ev.logQ ++ gap ++ [item], gap := none }
    else if item.logOnly then ev
    else { ev with gap := some ((ev.gap.map Prod.fst).getD item.ev.number, item.ev.number) } }

/-- An event takes its number and its place in the ring, or is counted lost (R235, R266); it goes to the log in
either case. -/
def State.enter (e : Event) (s : State) : State :=
  let e := { e with number := s.ev.next }
  let n := entriesOf e.detail.length
  let ring := reclaimRing n s.ev.ack s.ev.ring
  let ev := { (s.toLog ⟨e, false⟩).ev with next := (s.ev.next + 1) % 2 ^ 48 }
  if ringUsed ring + n ≤ 2048 then ({ s with ev := { ev with ring := ring ++ [e] } }).pendInt 17
  else
    let s1 := { s with ev := { ev with ring := ring, lost := min 0xFFFFFFFF (ev.lost + 1), lossNoted := true } }
    if s.ev.lossNoted then s1 else (s1.blot .eventLost).pendInt 18

/-- The FPID an event of a subject carries (R235). -/
def State.fpidOf (s : State) : Subject → Word
  | .point p => s.live (.pt p .fpid)
  | _ => 0

/-- An event is raised: entered, or held until the journal is restored (R65), with its interrupt source pending
(R284). `start` and `done` are bits 0 and 1 of byte 27 (R235). -/
def State.raiseAs (fpid : Word) (e : Ev) (subj : Subject) (at_ : Stamp) (start done : Bool) (detail : List Byte) (s : State) : State :=
  let ev : Event := ⟨0, e.code, at_, subj.code, start, done, s.grd.quenched, fpid, detail⟩
  let s1 := if s.dev.startup.restored then s.enter ev else { s with ev := { s.ev with held := s.ev.held ++ [ev] } }
  match e.source subj with
  | some n => if start then s1.pendInt n else s1
  | none => s1

/-- An event raised with the FPID in force (R235). -/
def State.raiseWith (e : Ev) (subj : Subject) (at_ : Stamp) (start done : Bool) (detail : List Byte) (s : State) : State :=
  s.raiseAs (s.fpidOf subj) e subj at_ start done detail

/-- An event without duration, at the present instant (R235). -/
def State.raise (e : Ev) (subj : Subject) (detail : List Byte) (s : State) : State :=
  s.raiseWith e subj s.stampNow true true detail

/-- An entry of the log only (R324): no event number, no place in the ring; its source is pending where R284 names
one. -/
def State.logOnly (e : Ev) (subj : Subject) (detail : List Byte) (s : State) : State :=
  let ev : Event := ⟨0, e.code, s.stampNow, subj.code, true, true, s.grd.quenched, s.fpidOf subj, detail⟩
  let s1 := s.toLog ⟨ev, true⟩
  match e.source subj with
  | some n => s1.pendInt n
  | none => s1

/-- A blot bit is set and its event raised at the present instant. -/
def State.note (b : Blot) (e : Ev) (subj : Subject) (detail : List Byte) (s : State) : State :=
  (s.blot b).raise e subj detail

/-- Effects one after another. -/
def chain {α : Type} (l : List α) (f : α → State → State) (s : State) : State := l.foldl (fun s a => f a s) s

/-- The start-up phases changed. -/
def State.phase (f : Startup → Startup) (s : State) : State := { s with dev := { s.dev with startup := f s.dev.startup } }

/-- A phase of start-up has ended: VGLITCH and CGLITCH are armed 1 ms after POR is released (R347), so before the first of these ends;
not under a warning (DESIGN CHOICE, log 111). -/
def State.phaseEnds (f : Startup → Startup) (s : State) : State :=
  ({ s with grd := { s.grd with glitchOn := s.grd.glitchOn || !s.pwr.pfail } }).phase f

/-- One channel changed. -/
def State.onChan (k : Fin 136) (f : Chan → Chan) (s : State) : State := { s with chans := upd s.chans k f }

/-- One spare changed. -/
def State.onSpare (g : Fin 34) (f : Spare → Spare) (s : State) : State := { s with spares := upd s.spares g f }

/-- One point changed. -/
def State.onPt (p : Fin 128) (f : Point → Point) (s : State) : State := { s with pts := upd s.pts p f }

/-- One bus changed. -/
def State.onBus (b : Fin 2) (f : Bus → Bus) (s : State) : State := { s with buses := upd s.buses b f }

/-- One pulse output changed. -/
def State.onPulse (n : Fin 8) (f : Pulse → Pulse) (s : State) : State := { s with pulses := upd s.pulses n f }

/-- One alarm changed. -/
def State.onAlarm (a : Fin 2) (f : Alarm → Alarm) (s : State) : State :=
  { s with cld := { s.cld with alarms := upd s.cld.alarms a f } }

/-- One guard source changed. -/
def State.onGuard (i : Fin 16) (f : GrdSrc → GrdSrc) (s : State) : State :=
  { s with grd := { s.grd with srcs := upd s.grd.srcs i f } }

/-- One display region changed. -/
def State.onRegion (r : Fin 8) (f : Region → Region) (s : State) : State :=
  { s with pnl := { s.pnl with regions := upd s.pnl.regions r f } }

/-- The comb frames that the analysis of the wideband branch lies behind the newest one, 1.25 ms, so that every splice and every cycle
closure that bears on a frame is known when it is analysed (R167; log 85). -/
def surveyLag : Nat := 512

/-- The delay of the wideband branch from the pins for slot 0, 16.7 µs (R58). -/
def surveyDelay : Nat := 167 * sysHz * tickParts / 10000000

/-- The comb frames of one interval (R161). -/
def setFrames : Nat := 81920

/-- A set is in progress at the pins beside the one in analysis: an interval has begun there that the analysis has not reached, and the
survey has been on since (log 85). -/
def Wideband.ahead (w : Wideband) : Bool :=
  setFrames ≤ w.frames + surveyLag && w.frames + surveyLag - setFrames ≤ w.onFor && w.onFor ≠ 0

/-- The wideband set in progress is discarded: its number is consumed (R166). A set that is complete at the pins is published all the
same, unless the path stops at once. -/
def State.wbDiscard (atOnce : Bool) (s : State) : State :=
  let done : Bool := setFrames ≤ s.wb.frames + surveyLag
  if s.wb.running && done && !atOnce then { s with wb := { s.wb with ended := s.wb.ended || s.wb.ahead, onFor := 0 } }
  else
    let n := (if s.wb.running then 1 else 0) + if s.wb.ahead || s.wb.ended then 1 else 0
    { s with wb := { s.wb with running := false, ended := false, onFor := 0, next := (s.wb.next + n) % 2 ^ 48 } }

end Sys2Proof.Machine
end

