-- ==== Sys2Proof/Machine/Operands.lean ====
section
/-!
DEFINITION. The operands of host commands: the opcode table with paths, roles and classes (R223, R230 to R246), the
status codes (R248), folio selectors and point masks (R226, R227), and the row that an admitted request spells.
-/
namespace Sys2Proof.Machine

/-- The 16-bit value of a status (R248). -/
def Status.code : Status → Nat
  | .ok => 0 | .badFrame => 0x101 | .crcError => 0x102 | .badVersion => 0x103 | .noSession => 0x104
  | .authFail => 0x105 | .seqError => 0x106 | .queueDenied => 0x107 | .badOpcode => 0x108 | .denied => 0x109
  | .tagInUse => 0x10A | .noCredit => 0x10B | .queueFull => 0x10C | .noTag => 0x10D
  | .badValue => 0x201 | .badAddress => 0x202 | .topologyConflict => 0x203 | .pointActive => 0x204
  | .spareUnavailable => 0x205 | .notFitted => 0x206 | .busy => 0x207 | .calBusy => 0x208 | .digestMismatch => 0x209
  | .cldInvalid => 0x20A | .locked => 0x20B | .isolated => 0x20C | .stateError => 0x20D | .sigFail => 0x20E
  | .confirmFail => 0x20F | .tableUnbalanced => 0x210
  | .notReady => 0x301 | .folioGone => 0x302 | .revoked => 0x303 | .recordGone => 0x304 | .eccError => 0x305
  | .quenched => 0x306 | .superseded => 0x401 | .cut => 0x402 | .panelFault => 0x403

/-- The code of a role (R208). -/
def roleCode : Role → Nat
  | .legal => 0 | .operator => 1 | .reader => 2 | .service => 3

/-- The role of a code (R208). -/
def roleOf? : Nat → Option Role
  | 0 => some .legal | 1 => some .operator | 2 => some .reader | 3 => some .service | _ => none

/-- The number of a port (R209). -/
def portIdx : Port → Fin 3
  | .a => 0 | .b => 1 | .c => 2

/-- One row of the opcode tables: path, roles and class (R218, R228). -/
structure OpRow where
  code  : Nat
  slow  : Bool
  roles : List Role
  act   : Bool
  deriving DecidableEq, Repr

/-- Every role. -/
def rAll : List Role := [.legal, .operator, .reader, .service]

/-- The opcodes (R230, R231, R234, R237, R238, R239, R242, R243, R244, R246). -/
def opRows : List OpRow :=
  [⟨0x0001, false, rAll, false⟩, ⟨0x0002, true, rAll, false⟩, ⟨0x0003, true, rAll, false⟩,
   ⟨0x0004, false, rAll, false⟩, ⟨0x0101, false, rAll, false⟩, ⟨0x0102, false, rAll, false⟩,
   ⟨0x0103, false, rAll, false⟩, ⟨0x0104, false, rAll, false⟩, ⟨0x0105, false, rAll, false⟩,
   ⟨0x0106, true, rAll, false⟩, ⟨0x0201, false, rAll, false⟩, ⟨0x0202, true, rLOS, true⟩,
   ⟨0x0203, false, rAll, false⟩, ⟨0x0301, false, rAll, false⟩, ⟨0x0302, true, rLO, true⟩,
   ⟨0x0303, false, rAll, false⟩, ⟨0x0304, true, rLO, true⟩, ⟨0x0305, false, rAll, false⟩,
   ⟨0x0306, false, rAll, false⟩, ⟨0x0307, true, rLO, true⟩, ⟨0x0308, true, rLO, true⟩,
   ⟨0x0309, true, rAll, false⟩] ++
  [⟨0x0401, true, rLO, true⟩, ⟨0x0402, true, rL, true⟩, ⟨0x0403, true, rL, false⟩, ⟨0x0404, true, rL, true⟩,
   ⟨0x0405, true, rLS, true⟩, ⟨0x0501, false, rAll, false⟩, ⟨0x0502, true, rLOS, true⟩, ⟨0x0503, true, rLO, true⟩,
   ⟨0x0504, true, rLO, true⟩, ⟨0x0505, true, rLS, true⟩, ⟨0x0506, true, rAll, false⟩, ⟨0x0507, true, rL, true⟩,
   ⟨0x0508, true, rLS, true⟩, ⟨0x0509, true, rLS, true⟩] ++
  [⟨0x0601, true, rS, true⟩, ⟨0x0602, true, rS, true⟩, ⟨0x0603, true, rS, true⟩, ⟨0x0604, true, rS, true⟩,
   ⟨0x0701, true, rLO, true⟩, ⟨0x0702, true, rLO, true⟩, ⟨0x0703, true, rLO, true⟩, ⟨0x0801, true, rL, true⟩,
   ⟨0x0802, true, rL, true⟩, ⟨0x0803, true, rLS, true⟩, ⟨0x0804, true, rAll, false⟩, ⟨0x0901, true, rLO, true⟩,
   ⟨0x0902, true, rLO, true⟩, ⟨0x0903, true, rLO, true⟩]

/-- The row of an opcode, if it is listed (R223). -/
def opRow? (op : Nat) : Option OpRow := opRows.find? (·.code = op)

/-- The role may send the opcode (R213 step 10). -/
def permitted (op : Nat) (role : Role) : Bool := ((opRow? op).map fun o => o.roles.contains role).getD false

/-- The opcode runs on the slow path (R218, R219). -/
def isSlow (op : Nat) : Bool := ((opRow? op).map OpRow.slow).getD false

/-- The opcode is of the act class (R228). -/
def isAct (op : Nat) : Bool := ((opRow? op).map OpRow.act).getD false

/-- A folio selector of 8 bytes (R226). -/
def selectorOf (bs : List Byte) : Selector :=
  match (bs.headD 0).toNat with
  | 0 => .latest
  | 1 => .number (leNat ((bs.drop 2).take 6))
  | 2 => .lease (leNat ((bs.drop 2).take 4))
  | _ => .badKind (bs.headD 0)

/-- The points of a mask in ascending order (R227). -/
def maskPoints (m : BitVec 128) : List (Fin 128) := (List.finRange 128).filter fun p => m.getLsbD p.val

/-- The number spelled by n bytes at an offset. -/
def field (bs : List Byte) (off n : Nat) : Nat := leNat ((bs.drop off).take n)

/-- n words spelled from an offset on (R5). -/
def wordsFrom (bs : List Byte) (off n : Nat) : List Word := (List.range n).map fun i => wordAt bs (off + 4 * i)

/-- The signed 32-bit number at an offset. -/
def signedField (bs : List Byte) (off : Nat) : Int := signed 32 (field bs off 4)

/-- The row of the table that an admitted request is, from its opcode and payload (the Request columns). A request whose
payload is shorter than its layout reads zeros beyond its end (log 5). -/
def requestOf (r : Req) (op : Nat) (bs : List Byte) : Option Instr :=
  let f := field bs
  match op with
  | 0x0001 => some (.nop r bs)
  | 0x0002 => some (.sessionOpen r bs)
  | 0x0003 => some (.sessionClose r)
  | 0x0004 => some (.setPriority r (bs.headD 0))
  | 0x0101 => some (.folioRead r (selectorOf bs) (f 8 4) (f 12 4) [])
  | 0x0102 => some (.folioLease r (selectorOf bs) (f 8 2))
  | 0x0103 => some (.folioRenew r (f 0 4) (f 4 2))
  | 0x0104 => some (.folioRelease r (f 0 4))
  | 0x0105 => some (.folioCut r)
  | 0x0106 => some (.folioSealGet r (selectorOf bs))
  | 0x0201 => some (.paramRead r (f 0 4) (f 4 2))
  | 0x0202 => some (.paramWrite r (f 0 4) (wordsFrom bs 8 (min 1023 (f 4 2))))
  | 0x0203 => some (.scRead r (selectorOf bs) (f 8 1) (f 9 1))
  | 0x0301 => some (.eventRead r (f 0 6))
  | 0x0302 => some (.eventAck r (f 0 6))
  | 0x0303 => some (.profileRead r (f 0 6) (f 6 1))
  | 0x0304 => some (.profileAck r (f 0 6))
  | 0x0305 => some (.wbRead r (f 0 6) (f 6 2) (f 8 2))
  | 0x0306 => some (.capRead r (f 0 6) (f 8 4) (f 12 4))
  | 0x0307 => some (.capTrigger r)
  | 0x0308 => some (.capRelease r (f 0 6))
  | 0x0309 => some (.logRead r (f 0 6) (f 6 2))
  | 0x0401 => some (.demandReset r (BitVec.ofNat 128 (f 0 16)))
  | 0x0402 => some (.calCommit r (bs.take 32))
  | 0x0403 => some (.calPendingRead r (f 0 1) (f 1 1))
  | 0x0404 => some (.calPendingResolve r (BitVec.ofNat 128 (f 0 16)) (f 16 1))
  | 0x0405 => some (.pulseTest r (BitVec.ofNat 8 (f 0 1)) (f 1 1 ≠ 0) (word (f 4 4)))
  | 0x0501 => some (.blotRead r)
  | 0x0502 => some (.blotClear r (BitVec.ofNat 128 (f 0 16)))
  | 0x0503 => some (.bankEnter r)
  | 0x0504 => some (.bankExit r)
  | 0x0505 => some (.softReset r (f 0 1))
  | 0x0506 => some (.auxRead r (f 0 1) 0)
  | 0x0507 => some (.cfgSave r)
  | 0x0508 => some (.inkLock r (f 0 2))
  | 0x0509 => some (.inkUnlock r)
  | 0x0601 => some (.fwBegin r (f 0 4))
  | 0x0602 => some (.fwWrite r (f 0 4) (bs.drop 8))
  | 0x0603 => some (.fwVerify r)
  | 0x0604 => some (.fwActivate r)
  | 0x0701 =>
    let b := fun i => nth bs i 0
    some (.cldSet r ⟨b 0, b 1, b 2, b 3, b 4, b 5, b 6, b 7, BitVec.ofNat 16 (f 8 2)⟩)
  | 0x0702 =>
    if f 0 1 = 1 then some (.cldAdjustSlew r (bs.headD 0) (signedField bs 4))
    else some (.cldAdjustStep r (bs.headD 0) (signedField bs 4))
  | 0x0703 => some (.cldAlarmAck r (BitVec.ofNat 2 (f 0 1)))
  | 0x0801 => some (.grdClearArm r (BitVec.ofNat 16 (f 0 2)))
  | 0x0802 => some (.grdClearConfirm r (BitVec.ofNat 16 (f 0 2)) (BitVec.ofNat 32 (f 4 4)))
  | 0x0803 => some (.grdTest r (f 0 1) true)
  | 0x0804 => some (.idCertRead r (f 0 2) (f 2 2))
  | 0x0901 => some (.pnlTableLoad r (f 0 1) (f 1 1) (f 2 1 % 2 = 1) (f 4 4) (bs.drop 8))
  | 0x0902 => some (.pnlImageWrite r (f 0 1) (f 4 4) (bs.drop 8))
  | 0x0903 => some (.pnlUpdate r (f 0 1) (f 1 1) (f 2 1 % 2 = 1))
  | _ => none

/-- The 8 bytes of a folio selector (R226). -/
def selectorBytes : Selector → List Byte
  | .latest => zeros 8
  | .number n => [1, 0] ++ le 6 n
  | .lease id => [2, 0] ++ le 4 id ++ zeros 2
  | .badKind k => k :: zeros 7

/-- The payload that a host sends for a row, by the Request columns, reserved bytes 0; none for rows that are one register's
PARAM_WRITE and for events. -/
def payloadOf : Instr → Option (List Byte)
  | .nop _ bs | .sessionOpen _ bs => some bs
  | .sessionClose _ | .folioCut _ | .capTrigger _ | .blotRead _ | .bankEnter _ | .bankExit _ | .cfgSave _ | .inkUnlock _
  | .fwVerify _ | .fwActivate _ => some []
  | .setPriority _ prio => some [prio]
  | .folioRead _ sel offset length _ => some (selectorBytes sel ++ le 4 offset ++ le 4 length)
  | .folioLease _ sel duration => some (selectorBytes sel ++ le 2 duration)
  | .folioRenew _ lease duration => some (le 4 lease ++ le 2 duration)
  | .folioRelease _ lease => some (le 4 lease)
  | .folioSealGet _ sel => some (selectorBytes sel)
  | .paramRead _ addr count => some (le 4 addr ++ le 2 count ++ zeros 2)
  | .paramWrite _ addr words => some (le 4 addr ++ le 2 words.length ++ zeros 2 ++ wordBytes words)
  | .scRead _ sel first count => some (selectorBytes sel ++ le 1 first ++ le 1 count)
  | .eventRead _ number | .eventAck _ number | .profileAck _ number | .capRelease _ number => some (le 6 number)
  | .profileRead _ number count => some (le 6 number ++ le 1 count)
  | .wbRead _ number offset length => some (le 6 number ++ le 2 offset ++ le 2 length)
  | .capRead _ number offset length => some (le 6 number ++ zeros 2 ++ le 4 offset ++ le 4 length)
  | .logRead _ number count => some (le 6 number ++ le 2 count)
  | .demandReset _ mask | .blotClear _ mask => some (le 16 mask.toNat)
  | .calCommit _ digest => some digest
  | .calPendingRead _ point select => some (le 1 point ++ le 1 select)
  | .calPendingResolve _ mask action => some (le 16 mask.toNat ++ le 1 action)
  | .pulseTest _ mask ten tconst => some (le 1 mask.toNat ++ le 1 (flag 0 ten) ++ zeros 2 ++ le 4 tconst.toNat)
  | .softReset _ scope => some (le 1 scope)
  | .auxRead _ input _ => some (le 1 input)
  | .inkLock _ duration => some (le 2 duration)
  | .fwBegin _ length => some (le 4 length)
  | .fwWrite _ offset data => some (le 4 offset ++ zeros 4 ++ data)
  | .cldSet _ x => some ([x.sec, x.min, x.hour, x.dow, x.date, x.month, x.year, x.cent] ++ le 2 x.sub.toNat ++ zeros 2)
  | .cldAdjustStep _ mode amount | .cldAdjustSlew _ mode amount => some (mode :: zeros 3 ++ le 4 (unsigned 32 amount))
  | .cldAlarmAck _ mask => some (le 1 mask.toNat)
  | .grdClearArm _ mask => some (le 2 mask.toNat)
  | .grdClearConfirm _ mask challenge => some (le 2 mask.toNat ++ zeros 2 ++ le 4 challenge.toNat)
  | .grdTest _ source _ => some (le 1 source)
  | .idCertRead _ offset length => some (le 2 offset ++ le 2 length)
  | .pnlTableLoad _ transition band final offset data =>
    some (le 1 transition ++ le 1 band ++ le 1 (flag 0 final) ++ zeros 1 ++ le 4 offset ++ data)
  | .pnlImageWrite _ region offset data => some (le 1 region ++ zeros 3 ++ le 4 offset ++ data)
  | .pnlUpdate _ region transition urgent => some (le 1 region ++ le 1 transition ++ le 1 (flag 0 urgent) ++ zeros 1)
  | _ => none

/-- A row without what it brings from outside: a request does not carry the code of its conversion, a detector's answer or the
uncorrectable words that a read meets. -/
def asRequested : Instr → Instr
  | .folioRead r sel offset length _ => .folioRead r sel offset length []
  | .auxRead r input _ => .auxRead r input 0
  | .grdTest r source _ => .grdTest r source true
  | c => c

/-- A guard source whose disable fuse is blown (R357). -/
def GrdSrc.disable (g : GrdSrc) : GrdSrc := { g with fused := true, fired := false, iso := false, mask := 0, next := none, again := none }

/-- The guard domain as the device shows it: COVER0 to COVER3 of a ZD3296-BGC are fused off (R1, R357). -/
def State.guard (s : State) : Guard :=
  if s.dev.variant = .bgc then
    { s.grd with
      srcs := Vector.ofFn fun i => if 4 ≤ i.val && i.val ≤ 7 then s.grd.srcs[i].disable else s.grd.srcs[i] }
  else s.grd

/-- ISOLATE is in force: a guard source's response holds it (R228, R353). -/
def State.isolated (s : State) : Bool := s.guard.srcs.toList.any GrdSrc.iso

/-- ISOLATE closes the opcode for the role (R228). -/
def State.closedBy (s : State) (op : Nat) (role : Role) : Bool :=
  s.isolated && isAct op && (match role with | .operator | .service => true | _ => false)

end Sys2Proof.Machine
end

