-- ==== Sys2Proof/Machine/Flags.lean ====
section
/-!
DEFINITION. The status words and flags of the field maps, computed from the state they report (R7, R398).
-/
namespace Sys2Proof.Machine

/-- The spare group of a channel: quad 0 to 31, or 32 and 33 for the buses (R33). -/
def groupOf (k : Fin 136) : Fin 34 :=
  if h : k.val < 128 then ⟨k.val / 4, by omega⟩ else ⟨32 + (k.val - 128) / 4, by omega⟩

/-- The channels of a spare group in ascending order (R33). -/
def groupChans (g : Fin 34) : List (Fin 136) := (List.finRange 136).filter fun k => groupOf k = g

/-- The channel of a group at a position 0 to 3 (R33, AT). -/
def groupChan (g : Fin 34) (i : Fin 4) : Fin 136 :=
  if h : g.val < 32 then ⟨4 * g.val + i.val, by omega⟩ else ⟨128 + 4 * (g.val - 32) + i.val, by omega⟩

/-- The comb slot of a spare: 136 + q, 168 and 169 (R33). -/
def spareSlot (g : Fin 34) : Fin 170 := ⟨136 + g.val, by omega⟩

/-- The spare carries the channel (R36, R38, R50). -/
def Chan.onSpare (c : Chan) : Bool := (match c.st with | .substituted => true | _ => false) || c.injected

/-- The comb slot in effect (R50). -/
def slotOf (k : Fin 136) (c : Chan) : Nat := if c.onSpare then (spareSlot (groupOf k)).val else k.val

/-- The code of a channel state (R38). -/
def ChState.code : ChState → Nat
  | .active => 0 | .shadowed => 1 | .substituted => 2 | .failed => 3

/-- CH.STATE (R35 to R38, R41, R57). -/
def Chan.stateWord (c : Chan) : Word :=
  word (put 31 16 c.perr + flag 11 c.clip + flag 10 c.suppressed + flag 9 (c.checking || c.restoring) + flag 8 c.drift
    + put 7 4 c.cause + put 1 0 c.st.code)

/-- CH.DRIFT (R40). -/
def Chan.driftWord (c : Chan) : Word :=
  word (flag 31 c.wvalid + flag 30 c.wfail + put 15 0 c.werr.toNat)

/-- CH.FILT_ST (R51, R54, R55), from the FILT word in force. -/
def Chan.filtSt (c : Chan) (filt : Word) : Word :=
  word (put 31 16 c.iperr + flag 1 c.autoFrozen.isSome + flag 0 (c.autoFrozen.isSome || bit filt 10))

/-- The automatic delay term AUTO = SLOT + 220 × (ORDER − 4), in SYS ticks (R50). -/
def autoTerm (slot order : Nat) : Int := (slot : Int) + 220 * ((order : Int) - 4)

/-- CH.SKEW (R50), from the FILT word in force. -/
def Chan.skewWord (k : Fin 136) (c : Chan) (filt : Word) : Word :=
  let slot := slotOf k c
  word (put 23 16 slot + put 15 0 (unsigned 16 (autoTerm slot (fld filt 2 0))))

/-- The code of a spare state (R38). -/
def SpareState.code : SpareState → Nat
  | .rotating => 0 | .checking => 1 | .substituting => 2 | .failed => 3

/-- The place that a spare is on: that of the channel it carries on until its working modulator is back, then its own (R36, R42). -/
def Spare.place (p : Spare) : Fin 4 := (p.still.map Prod.fst).getD p.pos

/-- The SPARE word of a group (R34, R38, R40). -/
def Spare.word (p : Spare) : Word :=
  if p.parked then Machine.word (put 31 16 p.serr.toNat + flag 4 true)
  else Machine.word (put 31 16 p.serr.toNat + put 3 2 p.place.val + put 1 0 p.st.code)

/-- The code of a point state (R101). -/
def PtState.code : PtState → Nat
  | .off => 0 | .settling => 1 | .pending => 2 | .live => 3 | .bridged => 4 | .faulted => 5

/-- PT.STATE (R97, R101). -/
def Point.stateWord (p : Point) : Word :=
  word (flag 12 p.phases[0].aRun + flag 13 p.phases[1].aRun + flag 14 p.phases[2].aRun
    + flag 8 p.phases[0].qRun + flag 9 p.phases[1].qRun + flag 10 p.phases[2].qRun
    + flag 6 p.degr + flag 5 p.brdg + flag 4 p.pend + put 2 0 p.st.code)

/-- The candidates of TB.REFLIST in order, up to the first empty entry (R76). -/
def refCands (list : Word) : List (Fin 8) :=
  (((List.range 8).map fun e => fld list (4 * e + 3) (4 * e)).takeWhile (· ≠ 15)).filterMap (idx? 8)

/-- The entry of TB.REFLIST that names a reference: 8 for LSYNC, 15 for none (R70, R77). -/
def refEntry (list : Word) (ref : Nat) : Nat :=
  if 8 ≤ ref then ref else ((refCands list).findIdx? fun c => c.val = ref).getD 15

/-- The code of a timebase mode (R77). -/
def TbMode.code : TbMode → Nat
  | .acquire => 0 | .locked => 1 | .holdover => 2 | .freerun => 3

/-- TB.STATUS (R67, R70, R71, R74, R77), from the REFLIST in force. -/
def Timebase.status (t : Timebase) (list : Word) : Word :=
  let cs := refCands list
  let valid := (((List.range cs.length).zip cs).map fun x => flag (8 + x.1) t.cands[x.2].valid).foldl (· + ·) 0
  word (put 31 24 t.switches + flag 16 t.lsync.valid + valid + put 7 4 (refEntry list t.active) + flag 3 t.slewing
    + put 2 0 t.mode.code)

/-- Numbers of folios that a lease names, without repeats (R186). -/
def Folios.held (f : Folios) : List Nat := (f.leases.map Lease.folio).eraseDups

/-- FOL.STATUS (R186, R188). -/
def Folios.status (f : Folios) : Word := word (put 20 10 f.leases.length + put 3 0 f.held.length)

/-- A sum group holds something (R103). -/
def SumGroup.any (g : SumGroup) : Bool := g.count ≠ 0

/-- Sums are held (R103, R131). -/
def Sums.any (u : Sums) : Bool := u.meas.toList.any SumGroup.any || u.brdg.toList.any SumGroup.any

/-- MCAL.STATUS (R128, R131, R134). -/
def State.mcalStatus (s : State) : Word :=
  word (flag 3 s.mcal.perr + flag 2 (s.pts.toList.any fun p => p.unrec.any)
    + flag 1 (s.pts.toList.any fun p => p.pending.any) + flag 0 s.mcal.loaded)

/-- The device state in a status word: 1 START, 2 RUN, 3 Banked (R185, R201); 0 otherwise. -/
def DevState.code : DevState → Nat
  | .start => 1 | .run => 2 | .banked => 3 | .off | .cell => 0

/-- PWR.STATUS (R298, R299). -/
def State.pwrStatus (s : State) : Word :=
  word (put 15 8 s.pwr.pfCount + flag 7 s.pwr.vbatLow + flag 6 s.pwr.pfwLow + flag 5 s.pwr.vinLow + flag 4 s.pwr.pfail
    + put 2 0 s.dev.st.code)

/-- PWR.CLKST (R274, R275). -/
def State.clkst (s : State) : Word :=
  word (flag 5 s.flt.guardStop + flag 4 s.flt.calStop + flag 3 s.flt.panelStop + flag 2 s.flt.xtalOk
    + flag 1 s.flt.onBackup)

/-- WB.STATUS (R2, R164). -/
def State.wbStatus (s : State) : Word :=
  match s.dev.variant with
  | .bgw => word (flag 8 true)
  | _ =>
    let done : Bool := setFrames ≤ s.wb.frames + surveyLag
    let n := s.wb.next + if s.wb.running && done then (if s.wb.ended then 2 else 1) else 0
    word (flag 3 (if done then s.wb.ahead && !s.wb.ended else s.wb.running) + put 2 0 (n % 8))

/-- An output emits: EN in force while the device meters in RUN or Banked (R179, R180). -/
def State.pulseOn (s : State) (n : Fin 8) : Bool :=
  bit (s.live (.pulCfg n)) 31 && (match s.dev.st with | .run | .banked => true | _ => s.metering)

/-- PUL.STATUS (R177, R178). -/
def State.pulStatus (s : State) (n : Fin 8) : Word :=
  word (flag 2 s.pulses[n].overrange + flag 1 (bit (s.live (.pulTest n)) 31) + flag 0 (s.pulseOn n))

/-- QUE.STATUS (R222). -/
def Que.status (q : Que) : Word := word (put 22 16 q.entries.length + put 15 0 q.reject)

/-- CMIN of a source, at most 8 (R293). -/
def corePrioMin (n : Fin 192) : Nat := min 8 (Config.corePrioMin n.val)

/-- INT.SRC (R293). -/
def State.intSrcWord (s : State) (n : Fin 192) : Word :=
  let w := s.asked (.intSrc n)
  if intReserved n.val then 0 else
  word (flag 31 (s.intc.pend.contains n.val)
    + flag 30 (s.intc.targets.toList.any fun t => t.stack.any fun e => e.src = n.val)
    + put 21 18 (fld w 21 18) + put 17 16 (Config.coreTargets n.val).toNat + put 11 8 (corePrioMin n)
    + put 3 0 (fld w 3 0))

/-- INT.TGT.TOP (R286, R288). -/
def State.tgtTop (s : State) (t : Fin 6) : Word :=
  let st := s.intc.targets[t].stack
  let head := match st with | [] => (0, 0) | e :: _ => (e.dtag, e.src)
  word (flag 31 (!st.isEmpty) + put 27 24 st.length + put 23 20 (s.runPrio t) + put 19 16 (s.basePrio t)
    + put 15 8 head.1 + put 7 0 head.2)

/-- INT.TGT.STATUS (R289, R290). -/
def Target.status (t : Target) : Word := word (put 31 16 t.orders + put 15 0 t.timeouts)

/-- The code of a firmware state (R328). -/
def FwState.code : FwState → Nat
  | .idle => 0 | .loading => 1 | .verified => 2 | .trial => 3

/-- Whole seconds passed since a model time (log 2). -/
def State.secondsSince (s : State) (t : Nat) : Nat := (s.now - t) / 32768

/-- ANV.STATUS (R328, R330). -/
def State.anvStatus (s : State) : Word :=
  let trial := match s.anv.fw with | .trial => 600 - s.secondsSince s.anv.trialLeft | _ => 0
  word (put 31 30 s.anv.slot + put 29 28 s.anv.fw.code + put 23 16 s.anv.epoch + put 9 0 trial)

/-- The newest log record number, modulo 2^48 (R325). -/
def Anvil.logNewest (a : Anvil) : Nat := (a.logNext + 2 ^ 48 - 1) % 2 ^ 48

/-- ANV.LOGHEAD: SHA-256 over the last link followed by the records of the group in progress (R325). -/
def Anvil.logHead (a : Anvil) : List Byte :=
  sha256 (a.logLink ++ (a.log.filter fun r => a.logNext / 8 * 8 ≤ r.number).flatMap LogRec.bytes)

/-- INK.LOCK (R240, R401). -/
def State.inkLockWord (s : State) : Word :=
  match s.scr.inkLock with
  | none => 0
  | some (h, d, t) => word (flag 31 true + put 25 16 h.val + put 5 0 ((d * 32768 - (s.now - t)) / 32768))

/-- The allowance of R303: sequences opened in sustained warnings over the device's life. -/
def throttleLimit : Nat := 4000000

/-- INK.JRNL (R265, R303, R401). -/
def State.inkJrnl (s : State) : Word :=
  word (put 31 16 (sat 0xFFFF s.pwr.opened) + flag 3 (throttleLimit ≤ s.pwr.susCount) + put 2 0 s.pwr.erased)

/-- CLD.STATUS (R334, R336, R341). -/
def Calendar.status (c : Calendar) : Word :=
  word (flag 3 c.range + flag 2 c.slewing + flag 1 c.lost + flag 0 c.valid)

/-- CTL of an alarm (R342). -/
def Alarm.ctlWord (a : Alarm) : Word :=
  word (flag 31 a.en + flag 30 a.rep + flag 29 a.armed + put 6 0 a.mask.toNat)

/-- STAT of an alarm (R342 to R344). -/
def Alarm.statWord (a : Alarm) : Word :=
  word (flag 3 a.onCell + flag 2 a.overrun + flag 1 a.skipped + flag 0 a.flagged)

/-- GRD.FLAGS (R350, R361). -/
def Guard.flags (g : Guard) : Word :=
  word (((List.finRange 16).map fun i => flag i.val g.srcs[i].fired).foldl (· + ·) 0 + flag 16 g.quenched)

/-- GRD.RESP of a source (R350, R353); a mask write reads back at once (R397). -/
def GrdSrc.word (g : GrdSrc) : Word :=
  Machine.word (put 31 16 g.count + flag 8 g.iso + put 3 0 (g.next.getD g.mask).toNat)

/-- GRD.STATUS (R353, R357, R358, R360, R361). -/
def Guard.status (g : Guard) : Word :=
  word (((List.finRange 16).map fun i => flag (16 + i.val) g.srcs[i].fused).foldl (· + ·) 0
    + put 15 8 g.cellov + flag 7 g.armed + flag 6 (g.srcs.toList.any GrdSrc.iso) + put 5 4 g.qcause
    + put 3 0 g.list.length)

/-- A byte with one bit for each of the eight regions. -/
def regionBits (p : Panel) (f : Region → Bool) : Nat :=
  ((List.finRange 8).map fun r => flag r.val (f p.regions[r])).foldl (· + ·) 0

/-- PNL.STATUS (R373 to R378). -/
def Panel.status (p : Panel) : Word :=
  word (put 31 24 (regionBits p Region.dirty) + put 23 16 (regionBits p fun r => r.run.isSome)
    + put 15 8 (regionBits p fun r => r.slot.isSome) + flag 7 (p.rail = 5) + flag 6 p.fault + put 5 3 p.band
    + put 2 0 p.railSel)

/-- PNL.TBLVALID: bit 8t + b of the lower word for transitions 0 to 3, of the upper word for 4 to 7 (R372). -/
def Panel.tblvalid (p : Panel) (hi : Bool) : Word :=
  let lo := if hi then 4 else 0
  word ((p.tables.map fun e => if lo ≤ e.1 ∧ e.1 < lo + 4 then flag (8 * (e.1 - lo) + e.2.1) true else 0).foldl
    (· + ·) 0)

/-- The port status word (R201). -/
def State.portWord (s : State) (p : Port) : Word :=
  let q := s.scr.ports[portIdx p]
  word (put 31 24 (sat 0xFF q.done.length) + put 23 16 (128 - s.scr.tags.length) + put 15 8 q.immLost
    + flag 7 q.imm.isSome + flag 6 q.timeout + put 2 0 s.dev.st.code)

/-- DRDY_N of a port is low: a READ would deliver a reply (R203). -/
def PortState.drdyLow (q : PortState) : Bool := q.imm.isSome || !q.done.isEmpty

/-- The calibration word of a set (R124). -/
def CalSet.word (c : CalSet) : CalWord → Word
  | .ch k .gain => c.ch[k].gain
  | .ch k .dcofs => c.ch[k].dcofs
  | .ch k .rmsofs => c.ch[k].rmsofs
  | .ch k .offs => c.ch[k].offs
  | .ch k .delay => c.ch[k].delay
  | .pt p .pgain => c.pt[p].pgain
  | .pt p .qgain => c.pt[p].qgain
  | .pt p .sgain => c.pt[p].sgain
  | .pt p (.pofs i) => c.pt[p].pofs[i]
  | .pt p (.qofs i) => c.pt[p].qofs[i]

/-- The quad of a point. -/
def quadOf (p : Fin 128) : Fin 32 := ⟨p.val / 4, by omega⟩

/-- The quad's topology is Q3P3 (R30). -/
def isQ3P3 (topo : Word) : Bool := fld topo 1 0 = 1

/-- The point is a Q3P3 point: the one of its quad (R13, R30, R91). -/
def isQ3P3Point (f : Reg → Word) (p : Fin 128) : Bool := isQ3P3 (f (.qdTopo (quadOf p))) && p.val % 4 = 0

/-- TRIM.MOD as last accepted: a word that still waits reads back at once (R397). -/
def State.trimModWord (s : State) (n : Fin 170) : Word :=
  (if h : n.val < 136 then s.chans[n.val].trimDue else s.spares[n.val - 136].trimDue).getD s.trim.mod[n]

/-- TRIM.OSC as last accepted (R138, R397). -/
def Trims.oscWord (t : Trims) : Word :=
  word (put 15 8 ((t.panelDue.map BitVec.toNat).getD (fld t.osc 15 8)) + put 7 0 ((t.bkupDue.map BitVec.toNat).getD (fld t.osc 7 0)))

/-- A word as PARAM_READ finds it live (R7, R397). Captured words give the state they capture (R398). -/
def State.readLive (s : State) : Reg → Word
  | .devId => 0x3296B05A
  | .devVariant => match s.dev.variant with
    | .bgi => 0 | .bgc => 1 | .bgw => 2
  | .devSerial hi => if hi then Config.serial.extractLsb' 32 32 else Config.serial.extractLsb' 0 32
  | .ch k .state => s.chans[k].stateWord
  | .ch k .drift => s.chans[k].driftWord
  | .ch _ .ctl => 0
  | .ch k .filtSt => s.chans[k].filtSt (s.live (.ch k .filt))
  | .ch k .skew => s.chans[k].skewWord k (s.live (.ch k .filt))
  | .ch k .delay => s.mcal.live.ch[k].delay
  | .spare g => s.spares[g].word
  | .pt p .state => s.pts[p].stateWord
  | .pt p .mode =>
    s.asked (.pt p .mode) ||| if isQ3P3Point s.asked p then 0x100 else 0
  | .tbStatus => s.tb.status (s.live .reflist)
  | .tbFreq => word s.tb.freq
  | .tbCycle hi => if hi then word (s.tb.lastCycle / 2 ^ 32) else word s.tb.lastCycle
  | .fltCtl => 0
  | .wbCfg => match s.dev.variant with
    | .bgw => 0
    | _ => s.asked .wbCfg
  | .wbStatus => s.wbStatus
  | .pulStatus n => s.pulStatus n
  | .folStatus => s.fol.status
  | .queStatus i => s.scr.queues[i].status
  | .sesKey e i => if e.val = 0 then Config.serviceKey i.val else s.asked (.sesKey e i)
  | .sesKeyCtl e => if e.val = 0 then 0xC0000003 else s.asked (.sesKeyCtl e)
  | .intSrc n => s.intSrcWord n
  | .tgtTop t => s.tgtTop t
  | .tgtEoi _ => 0
  | .tgtStatus t => s.intc.targets[t].status
  | .anvStatus => s.anvStatus
  | .anvVersion => s.anv.version
  | .lognum hi => if hi then word (s.anv.logNewest / 2 ^ 32) else word s.anv.logNewest
  | .loghead i => wordAt s.anv.logHead (4 * i.val)
  | .auxRes i => s.anv.auxRes[i]
  | .inkLock => s.inkLockWord
  | .inkJrnl => s.inkJrnl
  | .pwrStatus => s.pwrStatus
  | .rstcause => word s.pwr.rstCause.toNat
  | .clkst => s.clkst
  | .blotBits i => s.anv.blots.extractLsb' (32 * i.val) 32
  | .cldTime0 => time0 s.cld.time s.cld.dow
  | .cldTime1 => time1 s.cld.time
  | .cldSubsec => word s.cld.time.sub
  | .cldTrim => word (unsigned 10 s.cld.trimNew)
  | .cldStatus => s.cld.status
  | .cldAdjseq => word s.cld.adjSeq
  | .cldSlewrem => word (unsigned 32 s.cld.slew)
  | .almMatch0 a => s.cld.alarms[a].match0
  | .almMatch1 a => s.cld.alarms[a].match1
  | .almCtl a => s.cld.alarms[a].ctlWord
  | .almStat a => s.cld.alarms[a].statWord
  | .alhit a hi => if hi then s.cld.alarms[a].hit1 else s.cld.alarms[a].hit0
  | .grdFlags => s.guard.flags
  | .grdCfg => word (flag 31 s.grd.mlock + put 11 8 s.grd.covpol.toNat)
  | .grdMagth => word s.grd.magth
  | .grdCtl => 0
  | .grdResp i => s.guard.srcs[i].word
  | .grdStatus => s.guard.status
  | .grdTick => word s.grd.tick
  | .pnlCtl => 0
  | .pnlStatus => s.pnl.status
  | .tblvalid hi => s.pnl.tblvalid hi
  | .staged w => s.mcal.staged.word w
  | .live w => s.mcal.live.word w
  | .digest i => wordAt s.mcal.digest (4 * i.val)
  | .jdigest i => wordAt s.mcal.jdigest (4 * i.val)
  | .commits => word s.mcal.commits
  | .mcalStatus => s.mcalStatus
  | .trimMod n => s.trimModWord n
  | .trimVref => s.trim.vrefDue.getD s.trim.vref
  | .trimOsc => s.trim.oscWord
  | .trimCtl => 0
  | .reserved => 0
  | r => s.asked r

end Sys2Proof.Machine
end

