-- ==== Sys2Proof/Machine/Float.lean ====
section
/-!
DEFINITION. IEEE 754 binary32 and binary64 values of words and folios (R10, R238): decoding to rationals, and
encoding by rounding to nearest, ties to even (the rounding is not stated: DEDUCED from IEEE 754's default, log 12).
-/
namespace Sys2Proof.Machine

/-- 2 to an integer power. -/
def pow2 (e : Int) : Rat := if 0 ≤ e then ((2 ^ e.toNat : Nat) : Rat) else 1 / ((2 ^ (-e).toNat : Nat) : Rat)

/-- A finite binary32 as a rational; none for NaN and infinity (R85, R125). -/
def f32 (w : Word) : Option Rat :=
  let e := fld w 30 23
  let m := fld w 22 0
  let s : Rat := if bit w 31 then -1 else 1
  if e = 255 then none
  else if e = 0 then some (s * (m : Rat) * pow2 (-149))
  else some (s * ((m + 2 ^ 23 : Nat) : Rat) * pow2 ((e : Int) - 150))

/-- A binary32 read where the rules keep it finite: 0 otherwise. -/
def f32D (w : Word) : Rat := (f32 w).getD 0

/-- floor of the base-2 logarithm of a positive rational. -/
def ilog2 (x : Rat) : Int :=
  let e : Int := (x.num.natAbs.log2 : Int) - (x.den.log2 : Int)
  if x < pow2 e then e - 1 else if pow2 (e + 1) ≤ x then e + 1 else e

/-- The number (sign, biased exponent, fraction) nearest to x in a binary format, ties to even, as one number. -/
def encodeBinary (mant ebits : Nat) (x : Rat) : Nat :=
  let bias : Int := 2 ^ (ebits - 1) - 1
  let sign : Nat := if x < 0 then 2 ^ (mant + ebits) else 0
  let a := absR x
  if a = 0 then 0 else
  let e := max (ilog2 a) (1 - bias)
  let m := (roundEven (a / pow2 (e - mant))).toNat
  let body : Nat := if m < 2 ^ mant then m else m + (e + bias - 1).toNat * 2 ^ mant
  let inf := (2 ^ ebits - 1) * 2 ^ mant
  sign + min body inf

/-- A rational as binary32 (R10). -/
def toF32 (x : Rat) : Word := word (encodeBinary 23 8 x)

/-- A rational as binary64 (R238). -/
def toF64 (x : Rat) : Nat := encodeBinary 52 11 x

end Sys2Proof.Machine
end

