-- ==== Sys2Proof/Machine/Topology.lean ====
section
/-!
DEFINITION. Topologies, bus binding and the channels of a point (R9, R13, R24, R26, R30, R31, R85), over a lookup of
parameter words: the words as asked, or the words in force.
-/
namespace Sys2Proof.Machine

/-- TOPO of a quad (R30). -/
def topoOf (f : Reg → Word) (q : Fin 32) : Nat := fld (f (.qdTopo q)) 1 0

/-- The bus of a quad (R32). -/
def busOfQuad (f : Reg → Word) (q : Fin 32) : Fin 2 := if bit (f (.qdBus q)) 0 then 1 else 0

/-- The topology uses point i of its quad (R13, R30). -/
def slotUsed (topo i : Nat) : Bool :=
  match topo with
  | 0 | 1 => i = 0
  | 2 => i < 2
  | _ => i < 4

/-- The place of a point within its quad (R9). -/
def ptPlace (p : Fin 128) : Fin 4 := ⟨p.val % 4, by omega⟩

/-- The quad's topology has the point (R13). -/
def pointUsed (f : Reg → Word) (p : Fin 128) : Bool := slotUsed (topoOf f (quadOf p)) (ptPlace p).val

/-- The point is a Q3P4 point: the one of its quad (R13, R30). -/
def isQ3P4Point (f : Reg → Word) (p : Fin 128) : Bool := topoOf f (quadOf p) = 0 && (ptPlace p).val = 0

/-- The point is three-phase (R30). -/
def isThreePhase (f : Reg → Word) (p : Fin 128) : Bool := topoOf f (quadOf p) ≤ 1

/-- Channel i of a quad (R9). -/
def quadChan (q : Fin 32) (i : Fin 4) : Fin 136 := ⟨4 * q.val + i.val, by omega⟩

/-- The balls of an analogue input as row and column: its P ball, and in the next row its N ball (R391). Rows are counted from A,
I and O left out. -/
def ballsOf (k : Fin 136) : (Nat × Nat) × (Nat × Nat) :=
  let b := k.val / 4
  let col := 4 * (b % 5) + k.val % 4 + 1
  ((2 * (b / 5), col), (2 * (b / 5) + 1, col))

/-- Channel i of a bus: phases 1 to 3, then neutral-to-earth (R31). -/
def voltChan (b : Fin 2) (i : Fin 4) : Fin 136 := ⟨128 + 4 * b.val + i.val, by omega⟩

/-- PHASE of a single-phase point (R32). -/
def phaseOf (f : Reg → Word) (p : Fin 128) : Nat := fld (f (.pt p .phase)) 1 0

/-- One phase of a point: its place in the point, its current channel and its voltage channel. -/
structure PhaseChans where
  ph   : Fin 3
  curr : Fin 136
  volt : Fin 136
  deriving DecidableEq, Repr

/-- The phase of a single-phase point: the first place of the point's phases (log 13); none while PHASE is 0 (R32). -/
def singlePhase (f : Reg → Word) (p : Fin 128) (c : Fin 136) : List PhaseChans :=
  match phaseOf f p with
  | 0 => []
  | n + 1 => [⟨0, c, voltChan (busOfQuad f (quadOf p)) (Fin.ofNat 4 n)⟩]

/-- The phases of a point (R30). -/
def pointPhases (f : Reg → Word) (p : Fin 128) : List PhaseChans :=
  let q := quadOf p
  let b := busOfQuad f q
  if !pointUsed f p then []
  else match topoOf f q with
    | 0 | 1 => [⟨0, quadChan q 0, voltChan b 0⟩, ⟨1, quadChan q 1, voltChan b 1⟩, ⟨2, quadChan q 2, voltChan b 2⟩]
    | 2 => singlePhase f p (quadChan q (Fin.ofNat 4 (2 * (ptPlace p).val)))
    | _ => singlePhase f p (quadChan q (ptPlace p))

/-- The neutral channel of a Q3P4 or Q2X1PN point, the residual channel of a Q3P3 point (R30). -/
def neutralChan (f : Reg → Word) (p : Fin 128) : Option (Fin 136) :=
  let q := quadOf p
  if !pointUsed f p then none
  else match topoOf f q with
    | 0 | 1 => some (quadChan q 3)
    | 2 => some (quadChan q (Fin.ofNat 4 (2 * (ptPlace p).val + 1)))
    | _ => none

/-- The phase channels of a point (R31). -/
def phaseChans (f : Reg → Word) (p : Fin 128) : List (Fin 136) :=
  (pointPhases f p).flatMap fun c => [c.curr, c.volt]

/-- The channels a point uses (R85). -/
def pointChans (f : Reg → Word) (p : Fin 128) : List (Fin 136) := phaseChans f p ++ (neutralChan f p).toList

/-- ON of a point (R100). -/
def pointOn (f : Reg → Word) (p : Fin 128) : Bool := bit (f (.pt p .mode)) 0

/-- EN of a channel. -/
def chanOn (f : Reg → Word) (k : Fin 136) : Bool := bit (f (.ch k .afe)) 0

/-- The gain of a channel: 1 on the voltage channels (R24). -/
def gainOf (f : Reg → Word) (k : Fin 136) : Nat := if k.val < 128 then 2 ^ fld (f (.ch k .afe)) 6 4 else 1

/-- The sensor type of a channel: 0 on the voltage channels (R26). -/
def sensorOf (f : Reg → Word) (k : Fin 136) : Nat := if k.val < 128 then fld (f (.ch k .afe)) 2 1 else 0

/-- The CIC order of a channel: 4 on the voltage channels (R47). -/
def orderOf (f : Reg → Word) (k : Fin 136) : Nat := if k.val < 128 then fld (f (.ch k .filt)) 2 0 else 4

/-- The full scale of a channel at its gain, primary V or A (R85). -/
def fullScale (f : Reg → Word) (k : Fin 136) : Rat := f32D (f (.ch k .fs)) / (gainOf f k : Rat)

/-- The declared voltage of a bus (R139). -/
def udin (f : Reg → Word) (b : Fin 2) : Rat := f32D (f (.bus b .udin))

/-- The bus a channel belongs to: its own, or that of its quad (R55). -/
def busOfChan (f : Reg → Word) (k : Fin 136) : Fin 2 :=
  if h : k.val < 128 then busOfQuad f ⟨k.val / 4, by omega⟩ else ⟨(k.val - 128) / 4, by omega⟩

/-- Every point. -/
def allPts : List (Fin 128) := List.finRange 128

/-- Every channel. -/
def allChans : List (Fin 136) := List.finRange 136

/-- The points of a quad (R9). -/
def quadPoints (q : Fin 32) : List (Fin 128) := allPts.filter fun p => quadOf p = q

/-- The point a current channel serves (R151). -/
def servedPoint (f : Reg → Word) (k : Fin 136) : Option (Fin 128) :=
  if k.val < 128 then allPts.find? fun p => (pointChans f p).contains k else none

/-- The members of a bus: points that are ON on quads bound to it (R121). -/
def onBusPoints (f : Reg → Word) (b : Fin 2) : List (Fin 128) :=
  allPts.filter fun p => busOfQuad f (quadOf p) = b && pointOn f p

end Sys2Proof.Machine
end

