-- ==== Sys2Proof/Machine/Channels.lean ====
section
/-!
DEFINITION. Modulators, spares and the comb: substitution, drift checks, the control bits of a channel, settling
suppression, modulator trims, and the comb engine's frames (R25, R33 to R57, R135 to R137, R250 to R252).
-/
namespace Sys2Proof.Machine

/-! ### Spares and the channels they are on -/

/-- The CAUSE code of a detection (R35). -/
def causeCode : HardCause → Nat
  | .stuck => 1 | .notoggle => 2 | .overflow => 3 | .limit => 4 | .clock => 5 | .parity => 6

/-- The place of a channel within its group, 0 to 3 (R33). -/
def placeOf (k : Fin 136) : Fin 4 := ⟨k.val % 4, by omega⟩

/-- The spare stands on the channel (R34, R38). It shadows it throughout a drift check, also while the spare itself is on the
injection: DESIGN CHOICE, log 73. -/
def Spare.shadows (p : Spare) (k : Fin 136) : Bool :=
  !p.parked && p.pos = placeOf k && (match p.st with | .rotating | .checking => true | _ => false)

/-- The state of a channel changes at an instant, and what it was before is kept for a folio of the boundary before (R38, R194). -/
def Chan.become (t : Nat) (st : ChState) (cause : Nat) (c : Chan) : Chan :=
  { c with st := st, cause := cause, moves := (t, c.st, c.cause) :: c.moves }

/-- A channel with the state and CAUSE it had at an instant (R194): the newest changes are undone as far as they lie after it. A
splice whose samples lie before it stands, whenever it was entered. -/
def Chan.asOf (t : Nat) (c : Chan) : Chan :=
  match (c.moves.takeWhile fun x => t ≤ x.1).getLast? with
  | some x => { c with st := x.2.1, cause := x.2.2 }
  | none => c

/-- The state of a channel in service follows where its spare stands (R38). -/
def Chan.shade (t : Nat) (p : Spare) (k : Fin 136) (c : Chan) : Chan :=
  let st := if p.shadows k then ChState.shadowed else .active
  match c.st with
  | .active | .shadowed => if c.st = st then c else c.become t st c.cause
  | .substituted | .failed => c

/-- ACTIVE and SHADOWED in a group follow its spare (R38). -/
def State.reshade (g : Fin 34) (s : State) : State :=
  chain (groupChans g) (fun k s => s.onChan k (Chan.shade s.clock s.spares[g] k)) s

/-- The next enabled channel of a group after a place, in ascending order (R34). -/
def State.nextEnabled (s : State) (g : Fin 34) (after : Fin 4) : Option (Fin 4) :=
  ((List.range 4).map fun i => Fin.ofNat 4 (after.val + 1 + i)).find? fun i => chanOn s.live (groupChan g i)

/-- A spare is connected to a place of its group: its output is valid once as many comb frames as the CIC order have passed (R34),
after those for which it carries another channel on (R36), and the comparison of the dwell begins anew (R39). -/
def Spare.connect (frames : Nat) (i : Fin 4) (p : Spare) : Spare :=
  { p with parked := false, pos := i, wait := frames + (p.still.map Prod.snd).getD 0, fresh := 0, dwell := .start i }

/-- The spare of a group is connected to a place (R34). -/
def State.connectSpare (g : Fin 34) (i : Fin 4) (s : State) : State :=
  s.onSpare g (Spare.connect (orderOf s.live (groupChan g i)) i)

/-- A rotating spare moves to the next enabled channel, or parks on the injection when there is none (R34). -/
def State.advanceSpare (g : Fin 34) (s : State) : State :=
  (match s.nextEnabled g s.spares[g].pos with
    | some i => s.connectSpare g i
    | none => s.onSpare g fun p => { p with parked := true, fresh := 0 }).reshade g

/-- The parameters of the gain threshold of a group (R39). -/
def State.gainTh (s : State) (g : Fin 34) : Nat := fld (s.live (.driftTh g)) 15 0

/-- The gain error lies beyond the gain threshold (R40). -/
def State.beyond (s : State) (g : Fin 34) (err : BitVec 16) : Bool := s.gainTh g < err.toInt.natAbs

/-- A drift check starts (R40): DRIFT is set, and the spare leaves the channel for the injection. -/
def State.startCheck (g : Fin 34) (k : Fin 136) (s : State) : State :=
  let s1 := s.onSpare g fun p =>
    { p with st := .checking, parked := false, pos := placeOf k, phase := 1, fresh := 0, queue := p.queue.filter (· ≠ k.val) }
  (s1.reshade g).onChan k fun c => { c with checking := true, drift := true }

/-- A queued check runs next, in channel order, once the spare is free; one whose channel has left service is dropped
(R43). -/
def State.nextCheck (g : Fin 34) (s : State) : State :=
  match s.spares[g].st with
  | .rotating =>
    match s.spares[g].queue.filterMap (idx? 136) |>.find? fun k =>
        match s.chans[k].st with | .active | .shadowed => !s.chans[k].splicing | _ => false with
    | some k => s.startCheck g k
    | none => s.onSpare g fun p => { p with queue := [] }
  | _ => s

/-- The channel that a spare checks. -/
def State.checked (s : State) (g : Fin 34) : Option (Fin 136) :=
  match s.spares[g].st with
  | .checking => some (groupChan g s.spares[g].pos)
  | _ => none

/-- The check of a group is over: the working modulator is back in service and the spare free (R40). -/
def State.endCheck (g : Fin 34) (s : State) : State :=
  match s.checked g with
  | none => s
  | some x =>
    let s1 := s.onSpare g fun p => { p with st := .rotating, phase := 0 }
    (s1.onChan x fun c => { c with checking := false, injected := false }).reshade g

/-- The running check of a group is broken off, and the spare is free; DRIFT stays (R42, R43). A channel that the spare carries
stays on it while its working modulator is reconnected, for as many comb frames as its CIC order (R36). -/
def State.abortCheck (g : Fin 34) (s : State) : State :=
  match s.checked g with
  | none => s
  | some x =>
    let s1 := if s.spares[g].phase = 1 then s.connectSpare g s.spares[g].pos else s
    let still := if s.chans[x].injected then some (placeOf x, orderOf s.live x) else none
    let s2 := s1.onSpare g fun p => { p with st := .rotating, phase := 0, still := still }
    (s2.onChan x fun c => { c with checking := false }).reshade g

/-- A channel's check is queued (R42, R43). -/
def State.queueCheck (g : Fin 34) (k : Fin 136) (s : State) : State :=
  s.onSpare g fun p => { p with queue := insertAsc k.val p.queue }

/-! ### Runs of instants that do not count -/

/-- A run begins on a channel. -/
def Chan.openGap (kind : GapKind) (start : Nat) (stop : Option Nat) (c : Chan) : Chan :=
  { c with gaps := ⟨kind, start, stop⟩ :: c.gaps }

/-- The open runs of a kind end. -/
def Chan.endGap (kind : GapKind) (stop : Nat) (c : Chan) : Chan :=
  { c with gaps := c.gaps.map fun g => if g.kind = kind && g.stop.isNone then { g with stop := some stop } else g }

/-- An instant kept in parts of a tick, in SYS ticks. -/
def ticksOf (x : Nat) : Rat := (x : Rat) / (tickParts : Rat)

/-- An instant lies within a run. -/
def Gap.holds (t : Rat) (g : Gap) : Bool :=
  decide (ticksOf g.start ≤ t) && (match g.stop with
    | some x => decide (t < ticksOf x)
    | none => true)

/-- The runs that are bridges: their comb frames are interpolated (R36, R252, R260). -/
def bridges : List GapKind := [.splice, .comb, .clock]

/-- An instant of a channel lies within a run of one of some kinds. -/
def Chan.within (c : Chan) (kinds : List GapKind) (t : Rat) : Bool := c.gaps.any fun g => kinds.contains g.kind && g.holds t

/-- The open run of a kind of a channel. -/
def Chan.openRun (kind : GapKind) (c : Chan) : Option Gap := c.gaps.find? fun x => x.kind = kind && x.stop.isNone

/-- The length of a settling suppression: 32 samples of the 51.2 ksps stream, 625.0 µs (R57). -/
def suppressionTime : Nat := 32 * 8 * frameTicks * tickParts

/-- A settling suppression of a channel starts at a cycle boundary (R42, R57): FAILED ends there. -/
def Chan.suppress (boundary : Nat) (c : Chan) : Chan :=
  { (c.endGap .dead boundary).openGap (if c.fromFailed then .back else .supp) boundary (some (boundary + suppressionTime)) with
    suppressed := true, suppressDue := false }

/-- A suppression that is due starts at a boundary (R42). -/
def Chan.suppressDueAt (boundary : Nat) (c : Chan) : Chan := if c.suppressDue then c.suppress boundary else c

/-- The bound of every detection of R35, 64 MOD clocks of 40 SYS ticks. -/
def detectionTime : Nat := 64 * 40 * tickParts

/-- The comb frames that lie within the bound of detection, rounded up. -/
def detectionFrames : Nat := 6

/-! ### The main path's line of comb frames (R36, R51) -/

/-- The comb frames of a line that the main path has still to take: those that wait for interpolation, and the eight of one hand-off. -/
def lineLength : Nat := 32

/-- The comb frames that a line holds: as far as the analysis of the wideband branch goes back, with the last 16 (R161). -/
def lineKept : Nat := surveyLag + 16

/-- A comb frame enters a line: one that is not known stays open, and a known one closes the open ones before it by
interpolation between their neighbours (R36, R51, R252). -/
def pushFrame (x : Option Int) (l : List (Option Int)) : List (Option Int) :=
  match x with
  | none => (none :: l).take lineKept
  | some b =>
    let n := (l.takeWhile Option.isNone).length
    let a := ((l.drop n).headD none).getD b
    (some b :: (List.range n).map (fun i => some (Config.interpolate a b (n - i) n)) ++ l.drop n).take lineKept

/-- The newest frames of a line are opened, to be replaced (R36). -/
def openFrames (n : Nat) (l : List (Option Int)) : List (Option Int) := List.replicate n none ++ l.drop n

/-- The valid frames of a spare take the place of open ones; those before them are closed by interpolation (R36). -/
def spliceFrames (valid : Nat) (spare l : List (Option Int)) : List (Option Int) :=
  let n := min valid (l.takeWhile Option.isNone).length
  (spare.take n).reverse.foldl (fun l x => pushFrame x l) (l.drop n)

/-! ### Substitution and failure (R36, R37) -/

/-- A channel becomes FAILED (R37): from now on its output is zero and invalid. -/
def State.failChan (k : Fin 136) (cause : Nat) (s : State) : State :=
  let s1 := s.onChan k fun c =>
    { (((c.endGap .splice s.clock).openGap .dead s.clock none).become s.clock .failed cause) with
      splicing := false, checking := false, injected := false }
  s1.note .afeFailed .chFailed (.channel k) (le 1 cause)

/-- The substitution of a channel is complete (R36, R37, R41): its comb output is the spare's from an instant on. -/
def State.substituted (k : Fin 136) (cause ticks from_ : Nat) (s : State) : State :=
  let s1 := s.onChan k fun c => { (c.become from_ .substituted c.cause) with splicing := false, checking := false, injected := false }
  s1.note .afeSubst .chSubstituted (.channel k) (le 1 cause ++ le 1 (spareSlot (groupOf k)).val ++ le 2 ticks)

/-- The spare of a channel's group is taken for it (R36, R42): another channel's check is broken off and queued, also after a
hard fault of this one (DESIGN CHOICE, log 74). The spare moves unless it stands on the channel already; where it carries
another channel, it carries that one on until its working modulator is back. -/
def State.takeSpare (k : Fin 136) (s : State) : State :=
  let g := groupOf k
  let p := s.spares[g]
  let here : Bool := !p.parked && decide (p.pos = placeOf k) && decide (p.phase ≠ 1)
  let s1 := match s.checked g with
    | some x => if x = k && s.chans[k].injected then s.endCheck g else if x = k then s.abortCheck g else (s.abortCheck g).queueCheck g x
    | none => s
  let s2 := if here then s1 else s1.connectSpare g (placeOf k)
  (s2.onSpare g fun p => { p with st := .substituting, phase := 0, queue := p.queue.filter (· ≠ k.val) }).reshade g

/-- The spare of a group can take a channel over (R41). -/
def State.spareFree (s : State) (g : Fin 34) : Bool :=
  match s.spares[g].st with
  | .rotating | .checking => true
  | .substituting | .failed => false

/-! ### The control bits of CH.CTL (R41, R42) -/

/-- The channel is in service on its working modulator. -/
def Chan.inService (c : Chan) : Bool := match c.st with | .active | .shadowed => true | _ => false

/-- Why FORCE_SPARE is refused (R41, R42). -/
def State.forceFault (s : State) (k : Fin 136) : Option Status :=
  match s.chans[k].st with
  | .failed => some .spareUnavailable
  | .substituted => none
  | _ => if s.chans[k].splicing || s.spareFree (groupOf k) then none else some .spareUnavailable

/-- FORCE_SPARE (R41, R42). -/
def State.forceSpare (k : Fin 136) (s : State) : State :=
  if s.chans[k].inService && !s.chans[k].splicing && s.spareFree (groupOf k) then (s.takeSpare k).substituted k 0 0 s.clock else s

/-- Why RESTORE is refused (R41, R42). -/
def State.restoreFault (s : State) (k : Fin 136) : Option Status :=
  if s.chans[k].inService then some .badValue else if s.chans[k].restoring then some .busy else none

/-- RESTORE: the test of the working modulator starts (R41, R42). -/
def State.startRestore (k : Fin 136) (s : State) : State := s.onChan k fun c => { c with restoring := true }

/-- Why CHECK is refused (R41, R42). -/
def State.checkFault (s : State) (k : Fin 136) : Option Status :=
  if s.chans[k].inService && !s.chans[k].splicing && s.spareFree (groupOf k) then none else some .spareUnavailable

/-- CHECK: a drift check starts, or is queued while another channel of the group is checked (R41, R42). -/
def State.check (k : Fin 136) (s : State) : State :=
  let g := groupOf k
  match s.checked g with
  | some x => if x = k then s else s.queueCheck g k
  | none => s.startCheck g k

/-! ### Hard faults (R35 to R37) -/

/-- A RESTORE ends without success: the channel stays as it is (R41, R43). -/
def State.restoreFailed (k : Fin 136) (s : State) : State :=
  let s1 := s.onChan k fun c => { c with restoring := false }
  s1.raise .chRestoreFailed (.channel k) (le 4 s1.chans[k].driftWord.toNat)

/-- A working modulator is declared hard-faulted (R36, R37, R41): a running RESTORE ends; a channel in service goes to
its spare, or is FAILED when that is not available. -/
def State.workingFault (k : Fin 136) (cause : Nat) (s : State) : State :=
  let g := groupOf k
  let c := s.chans[k]
  let s1 := s.onChan k fun c => c.become s.clock c.st cause
  if c.restoring then s1.restoreFailed k
  else if !c.inService || c.splicing then s1
  else if !s.spareFree g then s1.failChan k cause
  else if c.injected then (s1.takeSpare k).substituted k cause 0 s.clock
  else (s1.takeSpare k).onChan k fun c =>
    { (c.openGap .splice (s.clock - detectionTime) none) with splicing := true, line := openFrames detectionFrames c.line }

/-- The spare of a group has failed: a channel that it carries on has its frames bridged, from the bound of detection until its
working modulator is back (R36, R43; DESIGN CHOICE, log 108). -/
def State.spareDown (g : Fin 34) (s : State) : State :=
  let s1 := s.onSpare g fun p => { p with st := .failed, parked := false, phase := 0, queue := [] }
  let bridge := fun (x : Fin 4 × Nat) => s1.onChan (groupChan g x.1) fun c =>
    { (c.openGap .splice (s.clock - detectionTime) none) with line := openFrames detectionFrames c.line }
  (match s.spares[g].still with
    | some x => bridge x
    | none => s1).reshade g

/-- A spare is declared hard-faulted (R37, R43): the channel it substitutes becomes FAILED with CAUSE 7; a check ends. A RESTORE
of that channel that runs goes on, as one of a FAILED channel (DESIGN CHOICE, log 36). -/
def State.spareFault (g : Fin 34) (s : State) : State :=
  match s.spares[g].st with
  | .failed => s
  | .substituting => (s.spareDown g).failChan (groupChan g s.spares[g].pos) 7
  | .rotating => s.spareDown g
  | .checking => (s.abortCheck g).spareDown g

/-- A modulator of a comb slot is declared hard-faulted (R35). -/
def State.modFault (slot : Fin 170) (cause : Nat) (s : State) : State :=
  if h : slot.val < 136 then s.workingFault ⟨slot.val, h⟩ cause else s.spareFault ⟨slot.val - 136, by omega⟩

/-- MODULATOR_HARD_FAULT (R35). -/
def execModulatorHardFault (slot : Fin 170) (cause : HardCause) (s : State) : Host.Outcome State Fault Refusal :=
  .next (if s.powered then s.modFault slot (causeCode cause) else s)

/-- The instant of a spare's first valid frame. -/
def State.firstFresh (s : State) (g : Fin 34) : Nat := s.clock - s.spares[g].fresh * (frameTicks * tickParts)

/-- The bridged interval of a splice now, in SYS ticks (R36): from 13.02 µs before the detection to the first valid frame of the
spare, nothing where its frames cover all of it. -/
def State.bridgedTicks (s : State) (k : Fin 136) : Nat :=
  match s.chans[k].openRun .splice with
  | some x => (s.firstFresh (groupOf k) - x.start) / tickParts
  | none => 0

/-- The newest frames of a channel's line that a change of the SYS reference bridges (R260, R263). -/
def State.relockRun (s : State) (k : Fin 136) : Nat :=
  match s.chans[k].openRun .clock with
  | some x => min lineLength ((s.clock - x.start) / (frameTicks * tickParts))
  | none => 0

/-- The splice of R36: the spare's valid frames join the main path, and what they do not cover is interpolated and bridged. Frames
that a change of the SYS reference bridges stay open (R263: the union of both). -/
def State.splice (k : Fin 136) (s : State) : State :=
  let g := groupOf k
  let n := s.relockRun k
  let frames := s.slots[(spareSlot g).val].outs.drop n
  let s1 := s.onChan k fun c =>
    { (c.endGap .splice (s.firstFresh g)) with
      line := List.replicate n none ++ spliceFrames (s.spares[g].fresh - n) frames (c.line.drop n) }
  s1.substituted k s.chans[k].cause (s.bridgedTicks k) (s.firstFresh g)

/-- A splice waits for nothing but its row: the spare's comb output is valid (R36). -/
def State.spliceReady (s : State) (k : Fin 136) : Bool := s.chans[k].splicing && s.spares[groupOf k].fresh ≠ 0

/-- CH_SUBSTITUTED (R36): the splice frame, once the spare's comb output is valid. While the hand-off is stopped it takes no effect
before the first frame handed off again (R263). -/
def execChSubstituted (ch : Fin 136) (s : State) : Host.Outcome State Fault Refusal :=
  .next (if s.spliceReady ch && !s.flt.combStop then s.splice ch else s)

/-- A splice that fell within a stopped hand-off takes effect at the first frame handed off again (R263). -/
def State.lateSplice (k : Fin 136) (s : State) : State :=
  if s.spliceReady k then
    let ticks := match s.chans[k].openRun .splice with
      | some x => (s.clock - x.start) / tickParts
      | none => 0
    (s.onChan k (Chan.endGap .splice s.clock)).substituted k s.chans[k].cause ticks s.clock
  else s

/-- ISOLATED_PARITY_ERROR (R35): counted for the channel whose codes the modulator delivers. -/
def execIsolatedParityError (slot : Fin 170) (s : State) : Host.Outcome State Fault Refusal :=
  let count := fun (c : Chan) => { c with perr := sat 0xFFFF (c.perr + 1) }
  .next (if h : slot.val < 136 then s.onChan ⟨slot.val, h⟩ count
    else
      let g : Fin 34 := ⟨slot.val - 136, by omega⟩
      if s.spares[g].parked then s else s.onChan (groupChan g s.spares[g].pos) count)

/-! ### Device trims of the modulators (R135, R136) -/

/-- A trim takes effect: a change raises TRIM_CHANGED (R135, R280). -/
def State.trimNote (addr : Nat) (old new : Word) (s : State) : State :=
  if old = new then s
  else s.note .trimChanged .trimChanged .device (le 4 addr ++ le 4 old.toNat ++ le 4 new.toNat)

/-- TRIM.MOD of a slot takes effect. -/
def State.setModTrim (n : Fin 170) (w : Word) (s : State) : State :=
  let s1 := { s with trim := { s.trim with mod := upd s.trim.mod n fun _ => w } }
  s1.trimNote (Reg.trimMod n).addr s.trim.mod[n] w

/-- TRIM.MOD of a working modulator is written or reloaded: it waits for the next cycle boundary (R136). -/
def State.askModTrim (n : Fin 170) (w : Word) (s : State) : State :=
  if h : n.val < 136 then s.onChan ⟨n.val, h⟩ fun c => { c with trimDue := some w }
  else s.onSpare ⟨n.val - 136, by omega⟩ fun p => { p with trimDue := some w }

/-- The cycle boundary of a waiting working-modulator trim (R136): to the spare, the trim, then RESTORE. It waits on
while the spare is not available (log 14). -/
def State.trimBoundary (k : Fin 136) (s : State) : State :=
  match s.chans[k].trimDue with
  | none => s
  | some w =>
    if s.forceFault k ≠ none || s.chans[k].restoring || s.chans[k].splicing then s
    else
      let s1 := (s.forceSpare k).onChan k fun c => { c with trimDue := none }
      ((s1.setModTrim ⟨k.val, by omega⟩ w).settingTook).startRestore k

/-- A waiting trim of a spare takes effect between two dwells (R136). -/
def State.spareTrim (g : Fin 34) (s : State) : State :=
  match s.spares[g].trimDue with
  | none => s
  | some w => (s.onSpare g fun p => { p with trimDue := none }).setModTrim (spareSlot g) w

/-- TRIM.VREF takes effect (R137, R280). -/
def State.setVref (w : Word) (s : State) : State :=
  let s1 := { s with trim := { s.trim with vref := w, vrefDue := none } }
  s1.trimNote Reg.trimVref.addr s.trim.vref w

/-- TRIM.OSC takes effect (R138). -/
def State.setOsc (w : Word) (s : State) : State :=
  let s1 := { s with trim := { s.trim with osc := w } }
  s1.trimNote Reg.trimOsc.addr s.trim.osc w

/-- TRIM.OSC.BKUP is written or reloaded: at once, or when SYS has left the backup oscillator (R138, R280). -/
def State.askBkup (v : BitVec 8) (s : State) : State :=
  if s.flt.onBackup then { s with trim := { s.trim with bkupDue := some v } }
  else ({ s with trim := { s.trim with bkupDue := none } }).setOsc ((s.trim.osc &&& 0xFFFFFF00) ||| v.setWidth 32)

/-- A waiting TRIM.OSC.BKUP takes effect when SYS leaves the backup oscillator (R280). -/
def State.bkupDueNow (s : State) : State :=
  match s.trim.bkupDue with
  | some v => s.askBkup v
  | none => s

/-- TRIM.OSC.PANEL waits for the next display frame boundary (R138). -/
def State.askPanelOsc (v : BitVec 8) (s : State) : State := { s with trim := { s.trim with panelDue := some v } }

/-- A waiting TRIM.OSC.PANEL takes effect (R138). -/
def State.panelOscNow (s : State) : State :=
  match s.trim.panelDue with
  | some v => ({ s with trim := { s.trim with panelDue := none } }).setOsc ((s.trim.osc &&& 0xFFFF00FF) ||| (v.setWidth 32 <<< 8))
  | none => s

/-- A waiting trim of a modulator is no more (R135). -/
def State.dropModTrim (n : Fin 170) (s : State) : State :=
  if h : n.val < 136 then s.onChan ⟨n.val, h⟩ fun c => { c with trimDue := none }
  else s.onSpare ⟨n.val - 136, by omega⟩ fun p => { p with trimDue := none }

/-- Every trim is reloaded from the fuses, as a write would apply it, in the place of one that waits; what the fuses already hold
changes nothing (R135, R280). -/
def State.reloadTrims (s : State) : State :=
  let s1 := chain (List.finRange 170) (fun n s =>
    if s.trim.mod[n] = fusedMod n then s.dropModTrim n else s.askModTrim n (fusedMod n)) s
  let s2 := { s1 with trim := { s1.trim with vrefDue := if s1.trim.vref = fusedVref then none else some fusedVref } }
  let o := fusedOsc
  let s3 :=
    if fld s2.trim.osc 7 0 = fld o 7 0 then { s2 with trim := { s2.trim with bkupDue := none } }
    else s2.askBkup (BitVec.ofNat 8 (fld o 7 0))
  if fld s3.trim.osc 15 8 = fld o 15 8 then { s3 with trim := { s3.trim with panelDue := none } }
  else s3.askPanelOsc (BitVec.ofNat 8 (fld o 15 8))

/-! ### Rotation and drift checks (R34, R39, R40) -/

/-- The gain ratio of a comparison, as g − 1 in ppm (R39). -/
def CmpSums.gain (x : CmpSums) : Rat := ((if x.ss = 0 then Config.silentGain else x.ws / x.ss) - 1) * 1000000

/-- The offset difference of a comparison, in ppm of full scale (R39). -/
def CmpSums.offset (x : CmpSums) : Rat := if x.n = 0 then 0 else x.d / (x.n : Rat) * 1000000

/-- The channel's rms value is at least 1 % of that of a sine at full scale, so that the gain is compared (R39; log 75). -/
def CmpSums.gainMade (x : CmpSums) : Bool := x.n ≠ 0 && (x.n : Rat) ≤ x.ww * 20000

/-- The offset threshold of a group (R39). -/
def State.offsTh (s : State) (g : Fin 34) : Nat := fld (s.live (.driftTh g)) 31 16

/-- The comparison of a dwell fails (R39). -/
def State.drifted (s : State) (g : Fin 34) (x : CmpSums) : Bool :=
  (x.gainMade && decide ((s.gainTh g : Rat) < absR x.gain)) || decide ((s.offsTh g : Rat) < absR x.offset)

/-- CH_DRIFT: DRIFT is set (R39). -/
def State.chDrift (k : Fin 136) (x : CmpSums) (s : State) : State :=
  (s.onChan k fun c => { c with drift := true }).note .afeDrift .chDrift (.channel k)
    (le 4 (toF32 x.gain).toNat ++ le 4 (toF32 x.offset).toNat)

/-- A dwell ends while its group's spare checks another channel (R43): a comparison that the check cut short and that fails is
queued. -/
def State.dwellChecked (g : Fin 34) (s : State) : State :=
  let p := s.spares[g]
  let k := groupChan g p.dwell.pos
  let s1 := s.onSpare g fun p => { p with dwell := .start p.pos }
  if p.dwell.pos ≠ p.pos && s.chans[k].inService && s.drifted g p.dwell.sums then
    (s1.chDrift k p.dwell.sums).queueCheck g k
  else s1

/-- The end of a dwell, or of a second on the injection (R34, R39, R43). A spare dwells on an enabled channel that is FAILED too and
compares its zero output (DESIGN CHOICE, log 118). -/
def State.spareMove (g : Fin 34) (err : BitVec 16) (s : State) : State :=
  let p := s.spares[g]
  match p.st with
  | .rotating =>
    if p.parked then ((s.onSpare g fun p => { p with serr := err }).spareTrim g).advanceSpare g
    else
      let k := groupChan g p.pos
      if s.drifted g p.dwell.sums then (s.chDrift k p.dwell.sums).startCheck g k
      else (s.spareTrim g).advanceSpare g
  | .checking => s.dwellChecked g
  | .substituting | .failed => s

/-- SPARE_MOVE (R34); `err` is what a parked spare's self-check measures. -/
def execSpareMove (group : Fin 34) (err : BitVec 16) (s : State) : Host.Outcome State Fault Refusal :=
  .next (if s.powered then s.spareMove group err else s)

/-- DRIFT_CHECK_PHASE (R40): 81.0 ms records SERR, at 81.1 ms the working modulator goes to the injection, 162.0 ms
records WERR, WFAIL and VALID. -/
def execDriftCheckPhase (group : Fin 34) (err : BitVec 16) (s : State) : Host.Outcome State Fault Refusal :=
  .next (match s.checked group with
    | none => s
    | some k => match s.spares[group].phase with
      | 1 => (s.connectSpare group s.spares[group].pos).onSpare group fun p => { p with serr := err, phase := 2 }
      | 2 => (s.onSpare group fun p => { p with phase := 3 }).onChan k fun c => { c with injected := true }
      | 3 => (s.onSpare group fun p => { p with phase := 4 }).onChan k fun c =>
          { c with werr := err, wfail := s.beyond group err, wvalid := true }
      | _ => s)

/-- CH_DRIFT_CHECKED (R40): the check is over; a queued check follows, or the spare goes on. -/
def execChDriftChecked (group : Fin 34) (s : State) : Host.Outcome State Fault Refusal :=
  .next (match s.checked group with
    | none => s
    | some k =>
      if s.spares[group].phase ≠ 4 then s
      else
        let s1 := s.endCheck group
        let detail := le 4 s1.chans[k].driftWord.toNat ++ le 4 s1.spares[group].word.toNat
        let s2 := s1.raise .chDriftChecked (.channel k) detail
        if s2.spares[group].queue.isEmpty then (s2.spareTrim group).advanceSpare group else s2.nextCheck group)

/-- CH_RESTORED: the four injection pairs of a RESTORE are over, or a detection has ended them (R41, R42). -/
def State.restoreEnd (k : Fin 136) (err : BitVec 16) (detected : Option HardCause) (s : State) : State :=
  let g := groupOf k
  if !s.chans[k].restoring then s
  else match detected with
    | some d => (s.onChan k fun c => c.become s.clock c.st (causeCode d)).restoreFailed k
    | none =>
      let wfail := s.beyond g err
      let s1 := s.onChan k fun c => { c with werr := err, wfail := wfail, wvalid := true }
      if wfail then s1.restoreFailed k
      else
        let failed : Bool := match s.chans[k].st with | .failed => true | _ => false
        let s2 := s1.onChan k fun c =>
          { (c.become s.clock .active c.cause) with
            restoring := false, fromFailed := c.fromFailed || failed, suppressDue := c.suppressDue || failed }
        let s3 := match s.chans[k].st with
          | .substituted => s2.onSpare g fun p => { p with st := .rotating }
          | _ => s2
        ((s3.reshade g).raise .chRestored (.channel k) []).nextCheck g

/-- The row's meaning (R41). -/
def execChRestored (ch : Fin 136) (err : BitVec 16) (detected : Option HardCause) (s : State) :
    Host.Outcome State Fault Refusal := .next (s.restoreEnd ch err detected)

/-- SUPPRESSION_END (R57): samples are valid again; a check that a write broke off restarts (R43). -/
def execSuppressionEnd (ch : Fin 136) (s : State) : Host.Outcome State Fault Refusal :=
  .next (if !s.chans[ch].suppressed then s
    else
      let s1 := s.onChan ch fun c => { c with suppressed := false, fromFailed := false, recheck := false }
      if s.chans[ch].recheck then (s1.queueCheck (groupOf ch) ch).nextCheck (groupOf ch) else s1)

/-- CH_CLIP (R25): CLIP first set. -/
def execChClip (ch : Fin 136) (s : State) : Host.Outcome State Fault Refusal :=
  .next (if s.chans[ch].clip then s
    else (s.onChan ch fun c => { c with clip := true }).raise .chClip (.channel ch) [])

/-! ### Settings at a cycle boundary (R28, R43, R47, R53, R57) -/

/-- The calibration seed of the DC estimate: the live DC-offset value, a fraction of full scale (R53, R86). -/
def State.dcSeed (s : State) (k : Fin 136) : Rat := ((signed 32 s.mcal.live.ch[k].dcofs.toNat : Int) : Rat) / (2 ^ 31 : Nat)

/-- A channel's AFE and FILT words come into force: a change of EN, SENSOR, GAIN or ORDER suppresses the output, breaks
off a drift check or a RESTORE, and sets the DC estimate (R28, R43, R47, R53). -/
def State.channelBoundary (k : Fin 136) (s : State) : State :=
  let old := s.live
  let new := s.asked
  let g := groupOf k
  let en := chanOn old k ≠ chanOn new k
  let sensor := sensorOf old k ≠ sensorOf new k
  let gain := gainOf old k ≠ gainOf new k
  let order := orderOf old k ≠ orderOf new k
  let change := en || sensor || gain || order
  let seed := (chanOn new k && en) || sensor
  let s1 := { s with eff := (s.eff.put (Reg.ch k .afe).addr (new (.ch k .afe))).put (Reg.ch k .filt).addr (new (.ch k .filt)) }
  let s2 := s1.onChan k fun c =>
    { (if change || c.suppressDue then c.suppress s.tb.start else c) with
      dcEst := if seed then s.dcSeed k else if gain then c.dcEst * (gainOf new k : Rat) / (gainOf old k : Rat) else c.dcEst
      recheck := c.recheck || (change && c.checking)
      was := if en || order then some (s.tb.start, chanOn old k, decide (orderOf old k = 4)) else c.was }
  if !change then s2
  else
    let s3 := if s2.chans[k].checking then s2.abortCheck g else s2
    let s4 := if s3.chans[k].restoring then s3.restoreFailed k else s3
    s4.nextCheck g

/-- A spare whose channel is no longer enabled moves on, and a parked spare leaves the injection, at the boundary
(R34); a channel that is enabled under its spare is SHADOWED from it on (R38). -/
def State.spareBoundary (g : Fin 34) (s : State) : State :=
  match s.spares[g].st with
  | .rotating =>
    let p := s.spares[g]
    if p.parked then
      match s.nextEnabled g 3 with
      | some i => ((s.spareTrim g).connectSpare g i).reshade g
      | none => s
    else if chanOn s.live (groupChan g p.pos) then s.reshade g else (s.spareTrim g).advanceSpare g
  | _ => s

end Sys2Proof.Machine
end

