-- ==== Sys2Proof/Machine/Scribe.lean ====
section
/-!
DEFINITION. Scribe: completions, sessions and how they end, the gate every host command passes, delivery on the ports, and the
session commands (R197 to R222).
-/
namespace Sys2Proof.Machine

/-! ### Folios that nothing holds (R187) -/

/-- A folio stays if it is the newest or a lease names it (R187); a slot whose error has recurred is retired when its folio is
reclaimed (R257). -/
def Folios.reclaim (f : Folios) : Folios :=
  match f.shut with
  | [] => f
  | newest :: older =>
    let stays := fun (x : Folio) => f.leases.any fun l => l.folio = x.number
    let gone := (older.filter fun x => !stays x).map Folio.number
    { f with
      shut := newest :: older.filter stays, retired := min 2 (f.retired + (f.retireDue.filter gone.contains).length)
      retireDue := f.retireDue.filter fun n => !gone.contains n }

/-! ### Ports and sessions -/

/-- One port changed. -/
def State.onPort (p : Port) (f : PortState → PortState) (s : State) : State :=
  { s with scr := { s.scr with ports := upd s.scr.ports (portIdx p) f } }

/-- One queue changed. -/
def State.onQue (q : Fin 32) (f : Que → Que) (s : State) : State :=
  { s with scr := { s.scr with queues := upd s.scr.queues q f } }

/-- An open session by its identifier. -/
def State.session? (s : State) (id : Fin 1024) : Option Session := s.scr.sessions.find? (·.id = id)

/-- One open session changed. -/
def State.onSession (id : Fin 1024) (f : Session → Session) (s : State) : State :=
  { s with scr := { s.scr with sessions := s.scr.sessions.map fun x => if x.id = id then f x else x } }

/-- The size of a reply's frame (R198). -/
def Reply.size (r : Reply) : Nat := (if r.secured then 36 else 20) + r.payload.length

/-- The header of a reply (R197). -/
def Reply.header (r : Reply) : List Byte :=
  [0xC5, 0x01] ++ le 2 (put 9 0 r.session + put 14 10 r.queue) ++ le 1 (put 6 0 r.tag)
    ++ le 1 (flag 0 r.secured + flag 1 true + flag 2 r.imm + flag 3 r.hello)
    ++ le 2 r.opcode ++ le 2 r.payload.length ++ le 2 r.status.code ++ le 4 r.seq

/-- The nonce of a frame (R199): the direction, 0 host to device and 1 device to host, seven zero bytes and SEQ. -/
def gcmNonce (dir : Byte) (seq : Nat) : List Byte := dir :: zeros 7 ++ le 4 seq

/-- The frame of a reply: under the session's key where it is secured, with its trailer (R198, R199). -/
def Reply.frame (r : Reply) : List Byte :=
  let nonce := gcmNonce 1 r.seq
  let cipher := gcmCrypt r.key nonce r.payload
  let body := r.header ++ if r.secured then cipher ++ gcmTag r.key nonce r.header cipher else r.payload
  body ++ le 4 (crc32c body).toNat

/-- The tag of a completion leaves the pool of tags in use (R216). -/
def freeTag (id : Fin 1024) (tag queue : Nat) (hello dead : Bool) (tags : List TagUse) : List TagUse :=
  tags.eraseP fun t => t.session = id && t.tag.val = tag && t.queue.val = queue && t.hello = hello && t.dead = dead

/-- The tag of a reply that has been delivered or dropped is freed, also where its session has ended (R212, R216, R220). -/
def Reply.free (r : Reply) (tags : List TagUse) : List TagUse :=
  let id := Fin.ofNat 1024 r.session
  let alive := tags.any fun t =>
    t.session = id && t.tag.val = r.tag && t.queue.val = r.queue && t.hello = r.hello && !t.dead
  freeTag id r.tag r.queue r.hello (!alive) tags

/-- The current reply of a port: the one partly sent, else the immediate reply, else the oldest completion (R202). -/
def PortState.current (q : PortState) : Option (Bool × Reply) :=
  match q.partly, q.imm, q.done with
  | some false, _, r :: _ => some (false, r)
  | _, some r, _ => some (true, r)
  | _, none, r :: _ => some (false, r)
  | _, none, [] => none

/-- Port C begins to send a reply as soon as one is available (R207); a reply on port A or B waits for a READ. -/
def State.start (p : Port) (s : State) : State :=
  match p with
  | .c => s.onPort .c fun q => { q with partly := q.current.map Prod.fst }
  | .a | .b => s

/-- A completion waits on a port for a session and tag. -/
def State.waits (s : State) (id : Fin 1024) (tag : Fin 128) : Bool :=
  s.scr.ports.toList.any fun p => p.done.any fun r => r.session = id.val && r.tag = tag.val && !r.hello

/-- A command of a session and tag is still in a queue: HELLO frames are of no session. -/
def State.inQueue (s : State) (id : Fin 1024) (tag : Fin 128) : Bool :=
  s.scr.queues.toList.any fun q => q.entries.any fun e => e.session = id && e.tag = tag && !e.hello && !e.dead

/-! ### The queues and what the cores take up (R217, R219, R224, R329) -/

/-- The session holds the Inkwell lock. -/
def State.holdsLock (s : State) (id : Fin 1024) : Bool := (s.scr.inkLock.map fun l => decide (l.1 = id)).getD false

/-- A queue entry is the command of an opcode, session and tag. -/
def Entry.isOf (op : Nat) (r : Req) (e : Entry) : Bool := e.session = r.session && e.tag = r.tag && e.opcode = op

/-- The first entry of a command in its queue. -/
def State.entry? (s : State) (op : Nat) (r : Req) : Option Entry :=
  s.scr.queues[r.queue].entries.find? (Entry.isOf op r)

/-- The command's entry, where it has one, is at the head of its queue (R217). -/
def State.atHead (s : State) (op : Nat) (r : Req) : Bool :=
  match s.entry? op r, s.scr.queues[r.queue].entries with
  | some e, h :: _ => e = h
  | _, _ => true

/-- The cores take up slow-path work: booted with the configuration restored, not restarting, and not halted by
a power-fail warning (R219, R224, R282, R300). -/
def State.coresServe (s : State) : Bool :=
  s.anv.up && s.dev.startup.configDone && !s.pwr.pfail

/-- Scribe serves commands: the part is powered and its ports are ready (R204, R282). -/
def State.serving (s : State) : Bool := s.powered && s.dev.startup.portsReady

/-- The requests that wait for a boundary (R115, R127, R132, R239). -/
def State.waiting (s : State) : List Req :=
  (s.mcal.waiting.map Commit.req ++ s.mcal.resolves.map Resolve.req ++ s.mcal.resets.map Prod.fst ++ s.anv.saveDue.toList).filterMap id

/-- The session of an FW_ACTIVATE holds the Inkwell lock, or held it as the activation began (R240, R331). -/
def State.mayActivate (s : State) (e : Entry) : Bool := s.holdsLock e.session || e.verdict = some (.judged true)

/-- An FW_ACTIVATE has come to the head of its queue and may run (R329). -/
def State.startsActivation (s : State) (q : Fin 32) (e : Entry) : Bool :=
  e.opcode = 0x0604 && s.anv.fw = .verified && s.mayActivate e && s.scr.queues[q].entries.head? = some e

/-- Anvil has taken up a command that is not complete (R217): it waits for a boundary, or for a commit or save in hand; core 1 reads the
slot of an activation again while core 0 serves the slow path (R329). -/
def State.takenUp (s : State) (q : Fin 32) (e : Entry) : Bool :=
  s.waiting.any (fun r => r.queue = q && r.session = e.session && r.tag = e.tag)
    || e.opcode = 0x0503 && (!s.mcal.waiting.isEmpty || s.anv.saveDue.isSome) || e.opcode = 0x0507 && s.anv.saveDue.isSome
    || s.startsActivation q e

/-- No slow-path command of another queue that was admitted before is still to be taken up (R217), wherever it stands in its
queue. -/
def State.inTurn (s : State) (op : Nat) (r : Req) : Bool :=
  match s.entry? op r with
  | none => true
  | some e => (List.finRange 32).all fun q =>
    q = r.queue || s.scr.queues[q].entries.all fun h => !isSlow h.opcode || e.order < h.order || s.takenUp q h

/-- A command of the opcode runs now (R217, R219). -/
def State.ready (s : State) (op : Nat) (r : Req) : Bool :=
  s.serving && s.atHead op r && (!isSlow op || s.coresServe && s.inTurn op r)

/-- The command at the head of a queue, where it is an FW_ACTIVATE whose activation runs (R329). -/
def State.activating (s : State) (q : Fin 32) : Option Req :=
  match s.scr.queues[q].entries with
  | e :: _ =>
    let role := ((s.session? e.session).map Session.role).getD .service
    let r : Req := ⟨e.port, e.session, role, q, e.tag, 0, ((s.session? e.session).map Session.secured).getD false⟩
    if s.startsActivation q e && s.ready 0x0604 r then some r else none
  | [] => none

/-- An activation that runs goes on when its session's lock ends (R331): its entry keeps that the lock was held. -/
def State.keepActivations (id : Fin 1024) (s : State) : State :=
  let keep := fun (q : Fin 32) (l : List Entry) => if (s.activating q).any fun r => r.session = id then
      match l with
      | e :: rest => { e with verdict := some (.judged true) } :: rest
      | [] => []
    else l
  { s with scr := { s.scr with queues := Vector.ofFn fun q =>
      { s.scr.queues[q] with entries := keep q s.scr.queues[q].entries } } }

/-- What was settled for a command at its admission: nothing for one that has no entry. -/
def State.settled (s : State) (op : Nat) (r : Req) : Option Verdict := (s.entry? op r).bind Entry.verdict

/-- The completions of a session that wait and of which no part is being sent are dropped (R212; log 20). -/
def dropReplies (id : Fin 1024) (p : PortState) : PortState :=
  let keep := fun (i : Nat × Reply) => i.2.session ≠ id.val || i.2.hello || (i.1 = 0 && p.partly = some false)
  { p with done := (((List.range p.done.length).zip p.done).filter keep).map Prod.snd }

/-- A session ends (R189, R212): its leases end, its Inkwell lock is released, its waiting completions are dropped and
its commands in flight will complete unanswered. `cause` counts in the order of R212. -/
def State.endSession (id : Fin 1024) (cause : Nat) (s : State) : State :=
  match s.session? id with
  | none => s
  | some ss =>
    let s := s.keepActivations id
    let ports := s.scr.ports.map (dropReplies id)
    let left := ports.toList.flatMap PortState.done
    let tags := (s.scr.tags.map fun t => if t.session = id && !t.hello then { t with dead := true } else t).filter
      fun t => t.session ≠ id || t.hello || s.inQueue id t.tag || left.any fun r => r.session = id.val && r.tag = t.tag.val && !r.hello
    let leases := s.fol.leases.filter fun l => l.session ≠ id
    let scr :=
      { s.scr with
        ports := ports
        sessions := s.scr.sessions.filter fun x => x.id ≠ id
        queues := s.scr.queues.map fun q =>
          { q with entries := q.entries.map fun e => if e.session = id && !e.hello then { e with dead := true } else e }
        tags := tags
        challenge := s.scr.challenge.filter fun c => c.session ≠ id
        inkLock := s.scr.inkLock.filter fun l => l.1 ≠ id }
    let fol := ({ s.fol with leases := leases, used := s.fol.used.filter fun u => u.1 ≠ id }).reclaim
    ({ s with scr := scr, fol := fol }).raise .sessionEnd .device
      (le 2 id.val ++ le 1 (roleCode ss.role) ++ le 1 cause)

/-- Every session ends for one cause. -/
def State.endSessions (cause : Nat) (s : State) : State :=
  chain (s.scr.sessions.map Session.id) (fun id => State.endSession id cause) s

/-- A reset of a port discards its partial transfer and its immediate register (R221). -/
def PortState.clear (p : PortState) : PortState := { p with imm := none, partly := none, stalled := false }

/-- What restarts the cores: core targets are flushed, and the slow path is held until they are up (R279, R312). -/
def State.coresDown (s : State) : State :=
  let s1 := (s.flushTarget 0).flushTarget 1
  { s1 with anv := { s1.anv with up := false } }.route

/-! ### Completions -/

/-- The slow-path commands that the recovery image serves (R332). -/
def recoveryServes (op : Nat) : Bool :=
  [0x0002, 0x0003, 0x0106, 0x0202, 0x0402, 0x0403, 0x0404, 0x0502, 0x0508, 0x0509, 0x0601, 0x0602, 0x0603, 0x0604].contains op

/-- The queue entry of a command is returned (R216). -/
def State.popEntry (op : Nat) (r : Req) (s : State) : State :=
  s.onQue r.queue fun q => { q with entries := q.entries.eraseP (Entry.isOf op r) }

/-- A completion (R197, R200, R216): the queue entry is returned, and the reply waits on the session's port with its
interrupt source pending (R284). Of an ended session it is dropped and its tag freed (R212). A session whose device
counter is used up ends (R200). -/
def State.complete (op : Nat) (r : Req) (st : Status) (payload : List Byte) (s : State) : State :=
  let dead := ((s.entry? op r).map Entry.dead).getD false
  let hello := ((s.entry? op r).map Entry.hello).getD (op = 2)
  let s1 := s.popEntry op r
  let free := fun (dead : Bool) (s : State) =>
    { s with scr := { s.scr with tags := freeTag r.session r.tag.val r.queue.val hello dead s.scr.tags } }
  if dead then free true s1
  else
    let seq := if hello then 0 else ((s.session? r.session).map Session.devSeq).getD 0
    if 2 ^ 32 ≤ seq then
      (free false s1).endSession r.session 3
    else
      let key := ((s.session? r.session).map fun x => x.keys.2).getD []
      let reply : Reply :=
        ⟨false, r.session.val, r.queue.val, r.tag.val, hello, op, st, seq, r.secured && !hello, payload, key⟩
      let s2 := (s1.onPort r.port fun p => { p with done := p.done ++ [reply] }).start r.port
      let s3 := if hello then s2 else s2.onSession r.session fun x => { x with devSeq := x.devSeq + 1 }
      s3.pendInt (portIdx r.port).val

/-- A completion with status OK. -/
def State.ok (op : Nat) (r : Req) (payload : List Byte) (s : State) : State := s.complete op r .ok payload

/-- The completion of a command that has waited for its boundary: none where a warm reset has lost the command (R279). -/
def State.okTo (op : Nat) (r : Option Req) (payload : List Byte) (s : State) : State :=
  match r with
  | some r => s.ok op r payload
  | none => s

/-- A completion with a status other than OK and an empty payload (R225). -/
def State.fail (op : Nat) (r : Req) (st : Status) (s : State) : State := s.complete op r st []

/-- A command that acted at its admission answers what came of it (R183, R190, R247); one without an entry acts now. -/
def State.acted (op : Nat) (r : Req) (s : State) (act : State → State × Status × List Byte) : State :=
  match s.settled op r with
  | some (.reply st payload) => s.complete op r st payload
  | _ => let x := act s; x.1.complete op r x.2.1 x.2.2

/-- A watchdog expiry, or a power-fail warning, before the switch abandons an activation that runs (R309, R331; of the warning the
status is the model's, DESIGN CHOICE, log 97). -/
def State.abandonActivation (s : State) : State :=
  chain ((List.finRange 32).filterMap s.activating) (fun r s => s.fail 0x0604 r .stateError) s

/-- NOT_READY with its expected cycle number (R192, R225). -/
def State.notReady (op : Nat) (r : Req) (cycle : Nat) (s : State) : State :=
  s.complete op r .notReady (le 6 cycle ++ zeros 2)

/-- The gate of every host command: held while it cannot run; DENIED for a role that no admission lets pass (log 6); closed by ISOLATE
(R228), not served by the recovery image (R332); otherwise the command's own effect. A slow-path command other than
BANK_ENTER wakes the device from Banked (R19). -/
def State.command (op : Nat) (r : Req) (s : State) (body : State → State) : State :=
  if !s.ready op r then s
  else if !permitted op r.role then s.fail op r .denied
  else
    let s := if isSlow op && op ≠ 0x0503 then s.wake else s
    if s.closedBy op r.role then s.fail op r .isolated
    else if s.anv.slot = 3 && isSlow op && !recoveryServes op then s.fail op r .stateError
    else body s

/-! ### What follows the delivery or the drop of a completion (R230, R241) -/

/-- A due SOFT_RESET acts by its scope (R241): 0 ends every session, 1 resets the three ports, 2 restarts the cores. -/
def State.softScope (scope : Nat) (s : State) : State :=
  let cause := fun (bits : BitVec 11) (s : State) => { s with pwr := { s.pwr with rstCause := s.pwr.rstCause ||| bits } }
  match scope with
  | 0 => (cause 0x20 (s.endSessions 4)).reloadTrims
  | 1 => (cause 0x40 ({ s with scr := { s.scr with ports := s.scr.ports.map PortState.clear } }.start .c)).reloadTrims
  | _ =>
    let s1 := s.coresDown
    (cause 0x80 { s1 with anv := { s1.anv with checkDue := true } }).reloadTrims

/-- SOFT_RESETs whose completion no longer waits. -/
def State.softDue (s : State) : List Nat :=
  ((s.dev.softReset.filter fun x => !s.waits x.2.2 x.2.1 && !s.inQueue x.2.2 x.2.1).map Prod.fst).eraseDups

/-- Sessions whose SESSION_CLOSE completion no longer waits. -/
def State.closeDue (s : State) : Option (Fin 1024) :=
  (s.scr.sessions.find? fun x => match x.closing with
    | some t => !s.waits x.id t && !s.inQueue x.id t
    | none => false).map Session.id

/-- After replies have gone: closing sessions end and soft resets act, until none is due. Each round ends a session or
removes a soft reset. -/
def State.settleN : Nat → State → State
  | 0, s => s
  | k + 1, s =>
    match s.closeDue with
    | some id => State.settleN k (s.endSession id 0)
    | none =>
      match s.softDue with
      | [] => s
      | scopes =>
        let left := s.dev.softReset.filter fun x => s.waits x.2.2 x.2.1 || s.inQueue x.2.2 x.2.1
        State.settleN k (chain scopes State.softScope { s with dev := { s.dev with softReset := left } })

/-- A new BAUD acts once the reply to its write has gone (R206); one that a later write has replaced by then acts no more. -/
def State.settleBaud (s : State) : State :=
  let gone := fun (x : Fin 1024 × Fin 128 × Nat) => !s.waits x.1 x.2.1 && !s.inQueue x.1 x.2.1
  match s.scr.baudDue.reverse.find? gone with
  | some x =>
    let left := (s.scr.baudDue.reverse.takeWhile fun y => !gone y).reverse
    ({ s with scr := { s.scr with baudDue := left } }).onPort .c fun p => { p with baud := x.2.2 }
  | none => s

/-- Every session, soft reset and BAUD that is due acts. -/
def State.settle (s : State) : State :=
  (s.settleN (s.scr.sessions.length + s.dev.softReset.length + 1)).settleBaud

/-! ### Delivery (R202, R206, R207, R220) -/

/-- COBS encoding, with fuel for the number of blocks (R206). -/
def cobsBlocks : Nat → List Byte → List Byte
  | 0, _ => []
  | k + 1, bs =>
    let run := (bs.takeWhile (· ≠ 0)).take 254
    let code := BitVec.ofNat 8 (run.length + 1) :: run
    let rest := bs.drop run.length
    if rest.isEmpty then code else code ++ cobsBlocks k (if run.length = 254 then rest else rest.drop 1)

/-- The COBS encoding of a frame (R206). -/
def cobsEncode (bs : List Byte) : List Byte := cobsBlocks (bs.length + 1) bs

/-- A transaction on an SPI port: the port status word goes out, then what the transfer code brings (R201); its prefix clears
TIMEOUT, and CS_N has risen since a stall (R205). -/
def State.transact (p : Port) (out : List Byte) (s : State) : State :=
  let w := wordBytes [s.portWord p]
  s.onPort p fun q => { q with timeout := false, stalled := false, out := w ++ out }

/-- The current reply is removed: an immediate one empties its register, a completion returns its tag (R215, R216). -/
def State.delivered (p : Port) (imm : Bool) (r : Reply) (s : State) : State :=
  if imm then (s.onPort p fun q => { q with imm := none, partly := none, immLost := 0 }).start p
  else
    let s1 := s.onPort p fun q => { q with done := q.done.drop 1, partly := none }
    ({ s1 with scr := { s1.scr with tags := r.free s1.scr.tags } }.start p).settle

/-- What a READ of some bytes shifts out (R202): the current reply and 0x00 beyond it, or the empty reply. -/
def PortState.shifted (q : PortState) (bytes : Nat) : List Byte :=
  fit bytes ((q.current.map fun x => x.2.frame).getD (zeros 16))

/-- READ: `bytes` bytes of the reply are clocked before CS_N rises; the reply is removed only when all of them are
(R202). -/
def State.readPort (p : Port) (bytes : Nat) (s : State) : State :=
  let q := s.scr.ports[portIdx p]
  let s := s.transact p (q.shifted bytes)
  match q.current with
  | none => s
  | some (imm, r) =>
    if r.size ≤ bytes then s.delivered p imm r
    else if bytes = 0 then s
    else s.onPort p fun q => { q with partly := some imm }

/-- READ on port A or B (R202). Port C has no READ. -/
def execRead (port : Port) (bytes : Nat) (s : State) : Host.Outcome State Fault Refusal :=
  .next (match port with
    | .c => s
    | p => if s.serving then s.readPort p bytes else s)

/-- STATUS on port A or B: a prefix only (R201). -/
def execStatus (port : Port) (s : State) : Host.Outcome State Fault Refusal :=
  .next (match port with
    | .c => s
    | p => if s.serving then s.transact p [] else s)

/-- A reply on port C has gone out with its delimiter (R207). -/
def execUartReplySent (s : State) : Host.Outcome State Fault Refusal :=
  .next (if !s.serving then s else match s.scr.ports[2].current with
    | none => s
    | some (imm, r) => (s.onPort .c fun q => { q with out := cobsEncode r.frame ++ [0] }).delivered .c imm r)

/-- CS_N stays low for 2 ms without SCK (R205). -/
def execPortTimeout (port : Port) (s : State) : Host.Outcome State Fault Refusal :=
  .next (match port with
    | .c => s
    | p =>
      if s.serving then
        (s.onPort p fun q => { q with timeout := true, stalled := true }).raise .portTimeout .device
          (le 1 (portIdx p).val)
      else s)

/-- A frame on port C stops for 2 ms without its delimiter (R207). -/
def execUartFrameStall (s : State) : Host.Outcome State Fault Refusal :=
  .next (if s.serving then s.raise .portTimeout .device (le 1 2) else s)

/-- A completion not delivered in time is dropped and its tag freed, but not while it is being sent (R220): a READ has ended by
the next row, port C goes on. -/
def State.replyDropped (p : Port) (tag : Nat) (s : State) : State :=
  let q := s.scr.ports[portIdx p]
  let on := (match p with | .c => true | _ => false) && q.partly = some false
  match q.done.zipIdx.find? fun x => x.1.tag = tag && !(on && x.2 = 0) with
  | none => s
  | some (r, i) =>
    let s1 := s.onPort p fun q =>
      { q with done := q.done.eraseIdx i, partly := if i = 0 && q.partly = some false then none else q.partly }
    let s2 := { s1 with scr := { s1.scr with tags := r.free s1.scr.tags } }
    (s2.raise .replyDropped .device (le 2 r.session ++ le 1 tag)).settle

/-- The row's meaning (R220). -/
def execReplyDropped (port : Port) (tag : Nat) (s : State) : Host.Outcome State Fault Refusal :=
  .next (s.replyDropped port tag)

/-- A session has had no admitted frame for SES.CFG.IDLE seconds (R212). -/
def execSessionIdleTimeout (session : Fin 1024) (s : State) : Host.Outcome State Fault Refusal :=
  .next (s.endSession session 1).settle

/-! ### Session commands (R209, R230) -/

/-- NOP: the request payload, unchanged (R230). -/
def execNop (r : Req) (payload : List Byte) (s : State) : Host.Outcome State Fault Refusal :=
  .next (s.command 0x0001 r fun s => s.ok 0x0001 r payload)

/-- SESSION_CLOSE: the session ends when this completion has been delivered or dropped (R230). -/
def execSessionClose (r : Req) (s : State) : Host.Outcome State Fault Refusal :=
  .next (s.command 0x0003 r fun s =>
    ((s.onSession r.session fun x => { x with closing := some r.tag }).ok 0x0003 r []).settle)

/-- SET_PRIORITY: the payload value becomes the port's base priority (R230, R286). -/
def execSetPriority (r : Req) (prio : Byte) (s : State) : Host.Outcome State Fault Refusal :=
  .next (s.command 0x0004 r fun s =>
    if 15 < prio.toNat then s.fail 0x0004 r .badValue
    else
      let t : Fin 6 := ⟨2 + (portIdx r.port).val, by omega⟩
      (({ s with intc := { s.intc with targets := upd s.intc.targets t fun g => { g with base := prio.toNat } } }).route).ok
        0x0004 r [])

/-- A queue is enabled and bound to a port (R222). -/
def State.queueServes (s : State) (q : Fin 32) (p : Port) : Bool :=
  bit (s.live (.queCfg q)) 31 && fld (s.live (.queCfg q)) 29 28 = (portIdx p).val

/-- A queue admits a role (R222). -/
def State.queueAdmits (s : State) (q : Fin 32) (role : Role) : Bool :=
  bit (s.live (.queCfg q)) (24 + roleCode role)

/-- A key of SES.KEY as two big-endian numbers X and Y (R211; the first byte of each word is its least significant, R5,
log 8). -/
def State.sesKey (s : State) (e : Fin 16) : Nat × Nat :=
  let ws := (List.finRange 16).map fun i => s.readLive (.sesKey e i)
  (beNat (wordBytes (ws.take 8)), beNat (wordBytes (ws.drop 8)))

/-- Plain mode is permitted for a role (R208). -/
def State.plainOk (s : State) (role : Role) : Bool :=
  match role with
  | .operator => bit (s.live .sesCfg) 1
  | .reader => bit (s.live .sesCfg) 0
  | .legal | .service => false

/-- The provisioning allowance of R211 covers an open. -/
def State.provision (s : State) (role : Role) (p : Port) (sig : List Byte) : Bool :=
  (match role, p with | .legal, .a => true | _, _ => false) && !s.scr.legalEver && sig.all (· = 0)

/-- The host's signature verifies under the KEYSLOT entry, which is VALID for the role (R209, R211). -/
def State.openSigned (s : State) (role : Role) (p : Port) (bs : List Byte) : Bool :=
  match idx? 16 (field bs 2 1) with
  | none => false
  | some e =>
    let ctl := s.readLive (.sesKeyCtl e)
    let (x, y) := s.sesKey e
    let msg := le 8 Config.serial.toNat ++ le 1 (portIdx p).val ++ bs.take 88
    bit ctl 31 && fld ctl 1 0 = roleCode role
      && p256.verify 256 x y (beNat (sha256 msg)) (beNat ((bs.drop 88).take 32)) (beNat ((bs.drop 120).take 32))

/-- The queue of an open and those of its mask admit its role, and the latter serve its port (R209). -/
def State.openQueues (s : State) (r : Req) (bs : List Byte) : Bool :=
  (roleOf? (field bs 0 1)).all fun role => s.queueAdmits r.queue role && (List.finRange 32).all fun q =>
    !bit (wordAt bs 4) q.val || (s.queueServes q r.port && s.queueAdmits q role)

/-- The same as it was found at the admission of the open: a command in flight completes under the old setting (R222). -/
def State.openAdmitted (s : State) (r : Req) (bs : List Byte) : Bool :=
  match s.settled 0x0002 r with
  | some (.judged ok) => ok
  | _ => s.openQueues r bs

/-- Why an open is refused, in the order of R209 (a ROLE above 3 is a value out of range, log 9). -/
def State.openFault (s : State) (r : Req) (bs : List Byte) : Option Status :=
  match roleOf? (field bs 0 1) with
  | none => some .badValue
  | some role =>
    let secured := field bs 1 1 % 2 = 1
    if !s.openAdmitted r bs then some .queueDenied
    else if !secured && !s.plainOk role then some .denied
    else if secured && !s.provision role r.port ((bs.drop 88).take 64) && !s.openSigned role r.port bs then some .authFail
    else if 1024 ≤ s.scr.sessions.length then some .busy
    else none

/-- The device nonce of an open (R209): what the device draws is free (log 1). -/
def deviceNonce (seed : Nat) : List Byte := (List.range 16).map (Config.helloBytes seed)

/-- The device's ephemeral private key of an open, 1 to n − 1 (R210). -/
def privateKey (seed : Nat) : Nat := p256Scalar (Config.ephemeralKey seed)

/-- The private identity key of the device (R359). -/
def identityKey : Nat := p256Scalar Config.identityKey

/-- The public identity key, which the identity record holds (R359). -/
def identityPublic : Nat × Nat := p256.public 256 identityKey

/-- The device identity certificate: issued for the serial number and the public identity key, at most 1024 bytes (R359). -/
def certificate : List Byte := (Config.issued Config.serial identityPublic).take 1024

/-- The signature by the identity key over a SHA-256 hash (R195, R209; log 7). -/
def sealSign (h : Nat) : Nat × Nat := p256.sign 256 identityKey (signNumber identityKey h) h

/-- The reply of an accepted open (R209): identifier, nonce, ephemeral public key, and the device's signature unless it is
quenched. -/
def openReply (id : Nat) (seed : Nat) (secured quenched : Bool) (bs : List Byte) : List Byte :=
  let (x, y) := p256.public 256 (privateKey seed)
  let key := if secured then be 32 x ++ be 32 y else zeros 64
  let head := le 2 id ++ le 1 (if quenched then 0 else 1) ++ zeros 1 ++ deviceNonce seed ++ key
  let sig := sealSign (beNat (sha256 (bs.take 152 ++ head)))
  head ++ if quenched then zeros 64 else be 32 sig.1 ++ be 32 sig.2

/-- The ASCII bytes "ZD3296-SESSION" (R210). -/
def sessionLabel : List Byte := [0x5A, 0x44, 0x33, 0x32, 0x39, 0x36, 0x2D, 0x53, 0x45, 0x53, 0x53, 0x49, 0x4F, 0x4E]

/-- K_hd and K_dh (R210), from the request of the open. Where the host's key is no point of the curve, Z is free (log 93). -/
def sessionKeys (id seed : Nat) (role : Role) (bs : List Byte) : List Byte × List Byte :=
  let x := beNat ((bs.drop 24).take 32)
  let y := beNat ((bs.drop 56).take 32)
  let z := (p256.shared 256 (privateKey seed) x y).getD (Config.strayShared (x, y))
  let info := sessionLabel ++ le 8 Config.serial.toNat ++ le 2 id ++ le 1 (roleCode role)
  let k := hkdf64 ((bs.drop 8).take 16 ++ deviceNonce seed) (be 32 z) info
  (k.take 32, k.drop 32)

/-- SESSION_OPEN (R209 to R211). -/
def State.sessionOpen (r : Req) (payload : List Byte) (s : State) : State :=
  let bs := fit 152 payload
  match s.openFault r bs with
  | some st => s.fail 0x0002 r st
  | none =>
    let role := (roleOf? (field bs 0 1)).getD .reader
    let secured := field bs 1 1 % 2 = 1
    let (n, s1) := s.fresh
    let id := Fin.ofNat 1024 (freshFrom 1024 n (s.scr.sessions.map fun x => x.id.val))
    let ss : Session :=
      { id := id, role := role, secured := secured, port := r.port, qmask := wordAt bs 4, hostSeq := 0, devSeq := 0
        authFail := 0, closing := none, corrupt := false
        keys := if secured then sessionKeys id.val s.draws role bs else ([], []) }
    let s2 := { s1 with scr := { s1.scr with sessions := s1.scr.sessions ++ [ss] } }
    let s3 :=
      if secured && s.provision role r.port ((bs.drop 88).take 64) then
        s2.raise .sesProvision .device (le 1 (portIdx r.port).val)
      else s2
    s3.ok 0x0002 r (openReply id.val s.draws secured s.grd.quenched bs)

/-- The row's meaning (R209). -/
def execSessionOpen (r : Req) (payload : List Byte) (s : State) : Host.Outcome State Fault Refusal :=
  .next (s.command 0x0002 r (State.sessionOpen r payload))

end Sys2Proof.Machine
end

