-- ==== Sys2Proof/Machine/Guard.lean ====
section
/-!
DEFINITION. The guard domain and the identity: declarations and their responses, the cell list, arming, fuses, the
two-step clear and the certificate (R244, R245, R346 to R365).
-/
namespace Sys2Proof.Machine

/-- Every guard source. -/
def allGuards : List (Fin 16) := List.finRange 16

/-- A list of sources as a mask. -/
def guardMask (l : List (Fin 16)) : Nat := l.foldl (fun n i => n + 2 ^ i.val) 0

/-- A source watches: neither reserved nor fused off, VGLITCH and CGLITCH only while armed for glitches (R346, R347),
and on cell neither they nor MAG (R349). -/
def Guard.watches (g : Guard) (onCell : Bool) (i : Fin 16) : Bool :=
  i.val < 12 && !g.srcs[i].fused && (if i.val = 8 then !onCell else if 10 ≤ i.val then g.glitchOn && !onCell else true)

/-- The key store is zeroed (R352, R361): before arming, the transport-key fuse is blown as well. -/
def Guard.quench (g : Guard) : Guard :=
  { g with kek := none, transport := false, quenched := true, qcause := if g.quenched then g.qcause else 1 }

/-- The responses of one source to its declaration, QUENCH apart (R350, R351, R353); `timed`: GUARD periods pass. -/
def GrdSrc.declare (timed : Bool) (g : GrdSrc) : GrdSrc :=
  { g with
    fired := true, iso := g.iso || g.mask.getLsbD 2, count := sat 0xFFFF (g.count + 1)
    again := if timed then some (g.again.getD g.fired) else none }

/-- A clear resets COUNT and the ISO bit of a source with its flag (R355). In the GUARD period of a declaration it comes first, and
the declaration stands (R365). -/
def GrdSrc.clear (g : GrdSrc) : GrdSrc :=
  if g.again.isSome then { g with iso := g.mask.getLsbD 2, count := 1 } else { g with fired := false, iso := false, count := 0 }

/-- A declaration finds the flag clear and its mask holds NOTIFY (R350). -/
def GrdSrc.notifies (g : GrdSrc) : Bool := !g.fired && g.mask.getLsbD 1

/-- A cover is open by the level its ball reads and its polarity bit (R348): with COVPOL 0 it is shut while the ball reads low. -/
def Guard.coverOpen (g : Guard) (i : Fin 4) (high : Bool) : Bool := high != g.covpol.getLsbD i.val

/-- What is declared in a period: sources other than covers, and the covers whose two samples read the open level (R346, R348). -/
def Guard.declared (g : Guard) (group : BitVec 16) (covers : List (Fin 4 × Bool)) : BitVec 16 :=
  (covers.filter fun c => g.coverOpen c.1 c.2).foldl (fun m c => m ||| BitVec.ofNat 16 (2 ^ (4 + c.1.val))) (group &&& 0xFF0F)

/-- The sources of a group that declare, ascending (R351): MAG in the second scan in a row above its threshold (R346). -/
def State.group (s : State) (onCell : Bool) (m : BitVec 16) : List (Fin 16) :=
  allGuards.filter fun i => m.getLsbD i.val && s.guard.watches onCell i && (i.val ≠ 8 || s.anv.magScans = 2)

/-- One entry of the cell list; beyond eight they are counted (R358). -/
def Guard.cellEntry (i : Fin 16) (g : Guard) : Guard :=
  if g.list.length < 8 then { g with list := g.list ++ [⟨i.val, g.tick, g.srcs[i].mask⟩] }
  else { g with cellov := sat 0xFF (g.cellov + 1) }

/-- NOTIFY in RUN: GRD_SOURCE is entered and source 80 + i pending (R350). -/
def State.grdNotify (i : Fin 16) (s : State) : State :=
  (s.raise .grdSource .device (le 1 i.val ++ le 1 s.grd.srcs[i].mask.toNat ++ [0])).pendInt (80 + i.val)

/-- A group of declarations (R350 to R353): QUENCH, then ISOLATE, NOTIFY and RECORD. -/
def State.declareGroup (onCell : Bool) (m : BitVec 16) (s : State) : State :=
  let srcs := s.group onCell m
  let s1 := if srcs.any fun i => s.grd.srcs[i].mask.getLsbD 3 then { s with grd := s.grd.quench } else s
  let new := srcs.filter fun i => s.grd.srcs[i].notifies
  let s2 := chain srcs (fun i s => s.onGuard i (GrdSrc.declare !s.flt.guardStop)) s1
  let s3 := if s.flt.guardStop then { s2 with scr := s2.scr.mark (BitVec.ofNat 16 (guardMask srcs)) } else s2
  if onCell then chain new (fun i s => { s with grd := s.grd.cellEntry i }) s3
  else chain new State.grdNotify s3

/-- GRD_SOURCE (R350): a group declared in one GUARD period while the part runs, or after a brownout until VAON is fed from VBAT,
when nobody is there to be notified and the cell list takes the entries (R365; log 98). -/
def execGrdSource (group : BitVec 16) (covers : List (Fin 4 × Bool)) (s : State) : Host.Outcome State Fault Refusal :=
  .next (if s.powered then s.declareGroup false (s.guard.declared group covers)
    else if s.vaon && !s.pwr.vbatOn then s.declareGroup true (s.guard.declared group covers)
    else s)

/-- CELL_SCAN_PERIOD (R349, R358): a scan period on cell passes, with the declarations made in it. With the GUARD clock stopped neither
the scans nor the tick counter go on (R274). -/
def execCellScanPeriod (group : BitVec 16) (covers : List (Fin 4 × Bool)) (s : State) : Host.Outcome State Fault Refusal :=
  .next (if !s.pwr.vbatOn || s.flt.guardStop then s
    else ({ s with grd := { s.grd with tick := (s.grd.tick + 1) % 2 ^ 32 } }).declareGroup true (s.guard.declared group covers))

/-- The crossing to the guard domain is flushed: a mask write in flight has no effect (R277); the period in which a clear comes first is
over (R365). -/
def GrdSrc.flush (g : GrdSrc) : GrdSrc := { g with next := none, again := none }

/-- GRD_CLOCK (R274, R277): the GUARD clock is declared stopped from the SYS domain. -/
def execGrdClock (s : State) : Host.Outcome State Fault Refusal :=
  .next (if !s.powered then s
    else
      let s1 := { s with
        flt := { s.flt with guardStop := true }, scr := s.scr.mark s.grd.inPeriod
        grd := { s.grd with srcs := s.grd.srcs.map GrdSrc.flush } }
      s1.note .grdClock .grdClock .device [])

/-- The calendar time of a tick on cell, between the two changeovers (R358). -/
def Guard.cellTime (g : Guard) (tick : Nat) : Option CalTime :=
  match g.tOff, g.tOn with
  | (T0, some c0), (T1, some c1) =>
    if T1 ≤ T0 then some c0
    else some (calOfCounts (calCounts c0 + (tick - T0) * (calCounts c1 - calCounts c0) / (T1 - T0)))
  | _, _ => none

/-- The entries of the cell list become GRD_SOURCE events with mapped times; the list is emptied (R358). While the
calendar is invalid the tick follows in detail bytes 4 to 7 (log 15). -/
def State.cellReplay (s : State) : State :=
  let one := fun (e : CellItem) (s : State) =>
    let t := if s.cld.valid then s.grd.cellTime e.tick else none
    let detail := le 1 e.src ++ le 1 e.resp.toNat ++ [1] ++ if t.isNone then [0] ++ le 4 e.tick else []
    (s.raiseWith .grdSource .device { s.stampNow with cal := t } true true detail).pendInt (80 + e.src)
  chain s.grd.list one { s with grd := { s.grd with list := [] } }

/-! ### Arming and fuses (R357, R360) -/

/-- The last VBAT reading is below 2.2 V (R298, R360). -/
def State.vbatPoor (s : State) : Bool := (s.pwr.vbatVolt.map fun v => decide (v < 11 / 5)).getD false

/-- Why an ARM is refused (R360). -/
def State.armFault (s : State) : Option Status :=
  if !s.grd.armed && (s.vbatPoor || s.grd.quenched) then some .busy else none

/-- ARM: a KEK is drawn, the identity key rewrapped, the transport-key fuse blown (R360; the KEK is free, log 1). -/
def State.arm (s : State) : State :=
  if s.grd.armed then s
  else
    let (n, s1) := s.fresh
    { s1 with grd := { s1.grd with
        armed := true, arming := true, kek := some n, transport := false, armStamp := some s.stampNow } }

/-- A warning before the wrapped record has been written abandons the arming (R360). -/
def Guard.abandonArm (g : Guard) : Guard :=
  if g.arming then { g with armed := false, arming := false, kek := none, transport := true, armStamp := none } else g

/-- Why an FDIS is refused (R357): a wrong key or a source that does not exist, then a guard that is armed. -/
def State.fdisFault (s : State) (key src : Nat) : Option Status :=
  if key ≠ 0xD7 || 12 ≤ src then some .badValue else if s.grd.armed then some .denied else none

/-- FDIS: the source's disable fuse is blown (R357). -/
def State.fdis (i : Fin 16) (s : State) : State :=
  s.onGuard i GrdSrc.disable

/-- A guard without a valid key sets QUENCHED at start-up (R361). -/
def Guard.startUp (g : Guard) : Guard :=
  if g.quenched || (if g.armed then g.kek.isSome else g.transport) then g
  else { g with quenched := true, qcause := 2 }

/-! ### Guard commands (R244, R245, R356, R359) -/

/-- A further GRD_CLEAR_ARM has been admitted after one (R245). -/
def State.armedAfter (s : State) (r : Req) : Bool :=
  let order := ((s.entry? 0x0801 r).map Entry.order).getD s.scr.admitted
  s.scr.queues.toList.any fun q => q.entries.any fun e => e.opcode = 0x0801 && decide (order < e.order)

/-- GRD_CLEAR_ARM: a random challenge for the mask, void where another one has been admitted since (R245; log 1). -/
def execGrdClearArm (r : Req) (mask : BitVec 16) (s : State) : Host.Outcome State Fault Refusal :=
  .next (s.command 0x0801 r fun s =>
    let (n, s1) := s.fresh
    let c : Challenge := ⟨r.session, mask, BitVec.ofNat 32 n, 0⟩
    ({ s1 with scr := { s1.scr with challenge := if s.armedAfter r then none else some c } }).ok 0x0801 r (le 4 c.value.toNat))

/-- The flags of a mask that are set. -/
def Guard.set (g : Guard) (m : BitVec 16) : List (Fin 16) := allGuards.filter fun i => m.getLsbD i.val && g.srcs[i].fired

/-- The challenge that a GRD_CLEAR_CONFIRM confirms (R245): it was judged as the command arrived; one without an entry is judged now. -/
def State.confirms (s : State) (r : Req) (mask : BitVec 16) (value : BitVec 32) : Option Challenge :=
  match s.settled 0x0802 r with
  | some (.confirms c) => some c
  | some _ => none
  | none => s.scr.challenge.filter (Challenge.isOf r.session mask value)

/-- A clear of a mask that some sources have outlived (R245, R355): flags that had been set before are cleared, and a source that has
declared in the running GUARD period is declared again (R365). -/
def State.clearGuards (mask since : BitVec 16) (s : State) : State :=
  let all := (s.guard.set mask).filter fun i => !since.getLsbD i.val
  let gone := all.filter fun i => s.grd.srcs[i].again ≠ some false
  let anew := gone.filter fun i => s.grd.srcs[i].again = some true && s.grd.srcs[i].mask.getLsbD 1
  let s1 := chain all (fun i s => s.onGuard i GrdSrc.clear) s
  let s2 := if gone.isEmpty then s1 else s1.raise .grdCleared .device (le 2 (guardMask gone))
  chain anew State.grdNotify s2

/-- GRD_CLEAR_CONFIRM: the flags of the mask are cleared, those of sources that have fired since the arm stay, and the reply shows what
is still set (R245, R355). -/
def execGrdClearConfirm (r : Req) (mask : BitVec 16) (challenge : BitVec 32) (s : State) :
    Host.Outcome State Fault Refusal :=
  .next (s.command 0x0802 r fun s =>
    match s.confirms r mask challenge with
    | none => s.fail 0x0802 r .confirmFail
    | some c =>
      let used := s.scr.challenge.filter fun x => !Challenge.isOf r.session mask challenge x
      let s1 := State.clearGuards mask c.since { s with scr := { s.scr with challenge := used } }
      s1.ok 0x0802 r (le 2 (guardMask (s1.guard.set mask)) ++ zeros 2))

/-- GRD_CHALLENGE_EXPIRY: a challenge is valid for 10 s (R245). -/
def execGrdChallengeExpiry (s : State) : Host.Outcome State Fault Refusal :=
  .next { s with scr := { s.scr with challenge := none } }

/-- GRD_TEST: `declares` is whether the detector declared within its bound (R356). -/
def execGrdTest (r : Req) (source : Nat) (declares : Bool) (s : State) : Host.Outcome State Fault Refusal :=
  .next (s.command 0x0803 r fun s =>
    match idx? 12 source with
    | none => s.fail 0x0803 r .badValue
    | some i =>
      let i : Fin 16 := ⟨i.val, by omega⟩
      if s.guard.srcs[i].fused then s.fail 0x0803 r .notFitted
      else
        let pass := declares && (i.val < 10 || s.grd.glitchOn)
        let result := if pass then 0 else 1
        (s.raise .grdTest .device (le 1 i.val ++ le 1 result)).ok 0x0803 r (le 1 result ++ zeros 3))

/-- ID_CERT_READ: the certificate from an offset on; what lies beyond its end is not returned (R244; log 16). -/
def execIdCertRead (r : Req) (offset length : Nat) (s : State) : Host.Outcome State Fault Refusal :=
  .next (s.command 0x0804 r fun s =>
    if length = 0 || 4088 < length then s.fail 0x0804 r .badValue
    else s.ok 0x0804 r (le 2 certificate.length ++ zeros 2 ++ (certificate.drop offset).take length))

end Sys2Proof.Machine
end

