-- ==== Sys2Proof/Machine/Interrupts.lean ====
section
/-!
DEFINITION. Retirement of interrupts: EOI, the in-service timeout and a target's disabling (R289 to R291).
-/
namespace Sys2Proof.Machine

/-- The saturating count of a target's out-of-order retirements or timeouts (R289, R290). -/
def Target.count (timeout : Bool) (t : Target) : Target :=
  if timeout then { t with timeouts := sat 0xFFFF (t.timeouts + 1) } else { t with orders := sat 0xFFFF (t.orders + 1) }

/-- An out-of-order retirement or a timeout: the stack is flushed, its sources pending again, INTC_ORDER raised (R289,
R290). -/
def State.outOfOrder (t : Fin 6) (timeout : Bool) (src dtag : Nat) (s : State) : State :=
  let s1 := s.flushTarget t
  let s2 := { s1 with intc := { s1.intc with targets := upd s1.intc.targets t (Target.count timeout) } }
  (s2.note .intcOrder .intcOrder .device
    (le 1 t.val ++ le 1 (flag 0 timeout) ++ le 1 src ++ le 1 dtag)).route

/-- A write of INT.TGT[t].EOI: the pair on top is retired, one of the last 16 retired changes nothing, any other is out
of order (R289). -/
def State.retire (t : Fin 6) (src dtag : Nat) (s : State) : State :=
  let g := s.intc.targets[t]
  match g.stack with
  | e :: rest =>
    if e.src = src && e.dtag = dtag then
      ({ s with intc := { s.intc with targets := upd s.intc.targets t fun g =>
          { g with stack := rest, retired := ((src, dtag) :: g.retired).take 16 } } }).route
    else if g.retired.contains (src, dtag) then s else s.outOfOrder t false src dtag
  | [] => if g.retired.contains (src, dtag) then s else s.outOfOrder t false src dtag

/-- EN of a target is cleared: its stack is flushed without INTC_ORDER (R291). -/
def State.disableTarget (t : Fin 6) (s : State) : State := (s.flushTarget t).route

/-- INT_TIMEOUT (R290): the top entry has stayed for TMO seconds. -/
def execIntTimeout (target : Fin 6) (s : State) : Host.Outcome State Fault Refusal :=
  .next (match s.intc.targets[target].stack with
    | [] => s
    | e :: _ => s.outOfOrder target true e.src e.dtag)

end Sys2Proof.Machine
end

