-- ==== Sys2Proof/Machine/AuxAdc.lean ====
section
/-!
DEFINITION. The auxiliary ADC: its inputs' scaling, scans, urgent conversions and the checks on the results (R298,
R315 to R319).
-/
namespace Sys2Proof.Machine

/-- The value of a code in its input's unit (R315). REFCHK: VREF of 1.2 V at the converter (log 17); input 15 carries a
rail scaled by 1/10, the negative rails VGL and VSL inverted (R374). -/
def auxValue (i : Fin 16) (rail : Nat) (n : Rat) : Rat :=
  let v := 3 * n / 4096
  match i.val with
  | 0 | 1 | 2 | 3 => n / 16 - 50
  | 4 => 16 * v
  | 5 | 8 => 2 * v
  | 11 | 12 | 13 => (n - 2048) * (4883 / 10000)
  | 14 => (v / (6 / 5) - 1) * 1000000
  | 15 => if rail % 2 = 0 then -(10 * v) else 10 * v
  | _ => v

/-- A stored scan result. -/
def State.auxRes (s : State) (i : Fin 16) : Rat := f32D s.anv.auxRes[i]

/-- The REFCHK check (R319): raised once when the deviation exceeds REFTH, cleared after 10 scans below half of it. -/
def State.refCheck (s : State) : State :=
  let x := s.auxRes 14
  let th : Rat := (fld (s.live .auxCfg) 31 16 : Nat)
  if th < absR x then
    let s1 := { s with anv := { s.anv with refActive := true, refClear := 0 } }
    if s.anv.refActive then s1
    else s1.note .refDrift .refCheck .device (le 4 (toF32 x).toNat ++ le 1 14)
  else if absR x < th / 2 then
    let n := s.anv.refClear + 1
    { s with anv := { s.anv with refClear := n, refActive := s.anv.refActive && n < 10 } }
  else { s with anv := { s.anv with refClear := 0 } }

/-- The sensor with the highest die temperature (R319). -/
def State.hottest (s : State) : Fin 16 :=
  [1, 2, 3].foldl (fun (m i : Fin 16) => if s.auxRes m < s.auxRes i then i else m) 0

/-- The temperature check (R319): raised once when any die sensor exceeds TJTH, cleared when all are 5 °C below. -/
def State.tempCheck (s : State) : State :=
  let m := s.hottest
  let th : Rat := (fld (s.live .auxCfg) 15 8 : Nat)
  if th < s.auxRes m then
    let s1 := { s with anv := { s.anv with tempActive := true } }
    if s.anv.tempActive then s1
    else s1.note .tempHigh .tempHigh .device (le 4 (toF32 (s.auxRes m)).toNat ++ le 1 m.val)
  else if s.auxRes m < th - 5 then { s with anv := { s.anv with tempActive := false } }
  else s

/-- A VBAT reading (R298). -/
def State.vbatReading (s : State) : State :=
  let v := s.auxRes 8
  let s1 := { s with pwr := { s.pwr with
    vbatVolt := some v
    vbatLow := decide (v < 11 / 5) || (s.pwr.vbatLow && decide (v < 23 / 10)) } }
  if v < 11 / 5 then s1.note .vbatLow .vbatLow .device (le 4 (toF32 v).toNat) else s1

/-- Scans in a row in which the field lies above GRD.MAGTH, units of 0.1 mT, to 2 (R346). -/
def State.magScans (s : State) (a b c : Rat) : Nat :=
  let th : Rat := (s.grd.magth : Rat) / 10
  if th * th < a * a + b * b + c * c then min 2 (s.anv.magScans + 1) else 0

/-- The Hall axes collected for the running block (R154), and judged against the guard's threshold (R346). -/
def State.hallReading (i : Fin 16) (s : State) : State :=
  let x := s.auxRes i
  let (a, b, c) := s.anv.hallLast
  match i.val with
  | 11 => { s with anv := { s.anv with hallLast := (x, b, c) } }
  | 12 => { s with anv := { s.anv with hallLast := (a, x, c) } }
  | _ =>
    let n := s.magScans a b x
    { s with anv := { s.anv with hallLast := (a, b, x), hall := (a, b, x) :: s.anv.hall, magScans := n } }

/-- A scan stores the mean of its conversions, and the checks judge it (R317, R319). -/
def State.auxScan (i : Fin 16) (codes : List (BitVec 12)) (s : State) : State :=
  let mean := meanR (codes.map fun c => (c.toNat : Rat))
  let w := toF32 (auxValue i s.pnl.railSel mean)
  let s1 := { s with anv := { s.anv with
    auxRes := upd s.anv.auxRes i fun _ => w
    auxDue := s.anv.auxDue.tail } }
  match i.val with
  | 0 | 1 | 2 | 3 => s1.tempCheck
  | 8 => s1.vbatReading
  | 11 | 12 | 13 => s1.hallReading i
  | 14 => s1.refCheck
  | _ => s1

/-- The conversions of a scan (R315, R317): 2^AVG of AUX0 and AUX1, 256 of REFCHK, and one of an input whose averaging is not stated
(DESIGN CHOICE: log 112). -/
def State.scanCount (s : State) (i : Fin 16) : Nat :=
  match i.val with
  | 9 => 2 ^ fld (s.live (.auxUin 0)) 11 8
  | 10 => 2 ^ fld (s.live (.auxUin 1)) 11 8
  | 14 => 256
  | _ => 1

/-- AUX_SCAN (R317): the scan at the head of the queue, with as many conversions as its input takes; no other scan runs. -/
def execAuxScan (input : Fin 16) (codes : List (BitVec 12)) (s : State) : Host.Outcome State Fault Refusal :=
  let next := s.anv.auxDue.head? = some input.val && codes.length = s.scanCount input
  .next (if s.powered && next then s.auxScan input codes else s)

/-- AUX_READ: one urgent conversion, whose code is `code` (R239, R318). -/
def execAuxRead (r : Req) (input : Nat) (code : BitVec 12) (s : State) : Host.Outcome State Fault Refusal :=
  .next (s.command 0x0506 r fun s =>
    match idx? 16 input with
    | none => s.fail 0x0506 r .badValue
    | some i =>
      let v := auxValue i s.pnl.railSel (code.toNat : Rat)
      s.ok 0x0506 r (le 2 code.toNat ++ zeros 2 ++ le 4 (toF32 v).toNat ++ s.stampNow.bytes))

end Sys2Proof.Machine
end

