-- ==== Sys2Proof/Machine/Panel.lean ====
section
/-!
DEFINITION. The panel driver: image planes, waveform tables, region requests, rails, the closeout and the refresh of
DIRTY regions (R246, R247, R366 to R378).
-/
namespace Sys2Proof.Machine

/-- Every region. -/
def allRegions : List (Fin 8) := List.finRange 8

/-- COLS (R368). -/
def cols (f : Reg → Word) : Nat := fld (f .pnlGeom) 10 0

/-- ROWS of the panel (R368). -/
def panelRows (f : Reg → Word) : Nat := fld (f .pnlGeom) 25 16

/-- START of a region (R368). -/
def regionStart (f : Reg → Word) (r : Fin 8) : Nat := fld (f (.pnlReg r)) 8 0

/-- ROWS of a region; 0: unused (R368). -/
def regionRows (f : Reg → Word) (r : Fin 8) : Nat := fld (f (.pnlReg r)) 25 16

/-- EN of the driver (R367). -/
def State.panelOn (s : State) : Bool := bit (s.live .pnlCfg) 0

/-! ### Planes (R369) -/

/-- The level of a pixel; beyond what has been written a plane reads 0 (R369). -/
def planeAt (p : List Byte) (i : Nat) : Byte := nth p i 0

/-- A run of pixels written into a plane from an index on. -/
def planePut (p : List Byte) (i : Nat) (px : List Byte) : List Byte := fit i (p.take i) ++ px ++ p.drop (i + px.length)

/-- The pixels of a region in a plane. -/
def State.regionPixels (s : State) (r : Fin 8) (p : List Byte) : List Byte :=
  let n := cols s.live
  (List.range (regionRows s.live r * n)).map fun i => planeAt p (regionStart s.live r * n + i)

/-- The four levels of a byte, lowest column first (R366). -/
def pixelsOf (b : Byte) : List Byte := (List.range 4).map fun i => BitVec.ofNat 8 (b.toNat / 4 ^ i % 4)

/-! ### Tables (R370 to R373) -/

/-- The balanced pairs of codes (R370). -/
def balancedPair (a b : Nat) : Bool :=
  [(0, 0), (1, 2), (1, 3), (2, 1), (3, 2), (3, 3)].contains (a, b)

/-- The code of entry e in frame f of a table (R371). -/
def tableCode (t : List Byte) (f e : Nat) : Nat := fld (wordAt t (4 + 4 * f)) (2 * e + 1) (2 * e)

/-- NF of a table (R371). -/
def tableFrames (t : List Byte) : Nat := (t.headD 0).toNat

/-- What is wrong with a whole table (R372). -/
def tableFault (t : List Byte) : Option Status :=
  let nf := tableFrames t
  if nf % 2 = 1 || nf < 2 || 128 < nf || t.length ≠ 4 + 4 * nf then some .badValue
  else if (List.range (nf / 2)).all fun i => (List.range 16).all fun e =>
      balancedPair (tableCode t (2 * i) e) (tableCode t (2 * i + 1) e) then none
  else some .tableUnbalanced

/-- An entry of the tables is that of a transition and band. -/
def tableOf (t b : Nat) (e : Nat × Nat × List Byte) : Bool := e.1 = t && e.2.1 = b

/-- The table of a transition and band. -/
def Panel.table? (p : Panel) (t b : Nat) : Option (List Byte) :=
  (p.tables.find? (tableOf t b)).map fun e => e.2.2

/-- The band that serves a transition: its own, the nearest lower, failing that the nearest higher (R373). -/
def Panel.bandFor (p : Panel) (t b : Nat) : Option Nat :=
  ((List.range (b + 1)).reverse ++ span (b + 1) (7 - b)).find? fun x => (p.table? t x).isSome

/-- The transition has a table in some band (R376). -/
def Panel.hasTable (p : Panel) (t : Nat) : Bool := (p.bandFor t 7).isSome

/-- The boundary B_i (R373). -/
def bandBound (f : Reg → Word) (i : Nat) : Int :=
  let w := f (.tband (4 ≤ i))
  signed 8 (fld w (8 * (i % 4) + 7) (8 * (i % 4)))

/-- The panel temperature (R373). -/
def State.panelTemp (s : State) : Rat :=
  if bit (s.live .tcfg) 0 then (signed 8 (fld (s.live .tempw) 7 0) : Int)
  else meanR ([0, 1, 2, 3].map fun (i : Fin 16) => s.auxRes i) + (signed 8 (fld (s.live .tcfg) 15 8) : Int)

/-- The band of the present temperature: the boundaries at or below it (R373). -/
def State.panelBand (s : State) : Nat :=
  ((List.range 7).filter fun i => decide ((bandBound s.live i : Rat) ≤ s.panelTemp)).length

/-- PNL_TABLE_LOAD: parts are collected in the staging buffer; the final part is checked (R372). -/
def State.tableLoad (r : Req) (t b : Nat) (final : Bool) (offset : Nat) (data : List Byte) (s : State) : State :=
  let stage := fun (x : Option (Nat × Nat × List Byte)) (s : State) => { s with pnl := { s.pnl with staging := x } }
  let staged : Option (List Byte) :=
    if 7 < t || 7 < b then none
    else if offset = 0 then some data
    else match s.pnl.staging with
      | some (t', b', bs) => if t = t' && b = b' && offset = bs.length then some (bs ++ data) else none
      | none => none
  match staged with
  | none => (stage none s).fail 0x0901 r .badValue
  | some bs =>
    if !final then (stage (some (t, b, bs)) s).ok 0x0901 r []
    else match tableFault bs with
      | some st => (stage none s).fail 0x0901 r st
      | none =>
        let s1 := stage none s
        ({ s1 with pnl := { s1.pnl with
            tables := (s1.pnl.tables.filter fun e => !tableOf t b e) ++ [(t, b, bs)] } }).ok 0x0901 r []

/-- The row's meaning (R372). -/
def execPnlTableLoad (r : Req) (transition band : Nat) (final : Bool) (offset : Nat) (data : List Byte) (s : State) :
    Host.Outcome State Fault Refusal := .next (s.command 0x0901 r (State.tableLoad r transition band final offset data))

/-- PNL_IMAGE_WRITE: pixels of one region of NEXT (R369). -/
def execPnlImageWrite (r : Req) (region offset : Nat) (data : List Byte) (s : State) :
    Host.Outcome State Fault Refusal :=
  .next (s.command 0x0902 r fun s =>
    match idx? 8 region with
    | none => s.fail 0x0902 r .badValue
    | some g =>
      if regionRows s.live g * cols s.live < 4 * (offset + data.length) then s.fail 0x0902 r .badValue
      else
        let at_ := regionStart s.live g * cols s.live + 4 * offset
        ({ s with pnl := { s.pnl with next := planePut s.pnl.next at_ (data.flatMap pixelsOf) } }).ok 0x0902 r [])

/-! ### Rails (R374) -/

/-- A region has a running or pending request. -/
def Panel.busy (p : Panel) : Bool := p.regions.toList.any fun r => r.run.isSome || r.slot.isSome

/-- A waveform runs (R377). -/
def Panel.driving (p : Panel) : Bool := p.regions.toList.any fun r => (r.run.map PnlRun.started).getD false

/-- Rails come up while a request stands and go down when none does (R374); in the fault state and the closeout they
only go down (R375, R377). -/
def Panel.steer (p : Panel) : Panel :=
  if p.closeout = 1 then p
  else if p.fault || p.closeout ≠ 0 then { p with railDown := p.rail ≠ 0 }
  else if p.busy then { p with railDown := false }
  else { p with railDown := p.rail ≠ 0 }

/-- The rails follow the requests. -/
def State.steer (s : State) : State := { s with pnl := s.pnl.steer }

/-! ### Requests (R376, R378) -/

/-- PNL_DONE of a host request (R247); a refresh answers nobody. -/
def State.pnlDone (g : Fin 8) (q : PnlReq) (st : Status) (s : State) : State :=
  if q.refresh then s else s.raise .pnlDone .device (le 4 q.number ++ le 2 st.code ++ le 1 g.val)

/-- A request becomes the running request of a region. -/
def PnlReq.run (q : PnlReq) : PnlRun := ⟨q, [], 0, false, false⟩

/-- The numbers of the requests in hand. -/
def Panel.numbers (p : Panel) : List Nat :=
  p.regions.toList.flatMap fun r => (r.run.map fun x => x.req.number).toList ++ (r.slot.map PnlReq.number).toList

/-- The refresh of a DIRTY region (R378). -/
def State.refreshReq (s : State) : PnlReq := ⟨0, fld (s.live .pnlCfg) 6 4, false, true⟩

/-- A power-fail closeout stands: the warning, or what is left of the closeout after it (R247, R306). -/
def State.closingOut (s : State) : Bool := s.pwr.pfail || s.pnl.closeout ≠ 0

/-- DIRTY regions can be refreshed: transition DTRANS has a table (R378; log 99). -/
def State.canRefresh (s : State) : Bool :=
  s.panelOn && !s.pnl.fault && s.pnl.closeout = 0 && s.pnl.hasTable s.refreshReq.transition

/-- A request enters the pending slot, and the one that is there ends SUPERSEDED (R376). -/
def State.slotReq (g : Fin 8) (q : PnlReq) (s : State) : State :=
  let s1 := match s.pnl.regions[g].slot with
    | some old => s.pnlDone g old .superseded
    | none => s
  s1.onRegion g fun x => { x with slot := some q }

/-- A request is placed (R376): it runs, waits in the slot, or an URGENT one cuts the running waveform at the next pair boundary. A
refresh is not cut; that of a DIRTY region comes first, in start-up at its end (R378; log 99). -/
def State.placeReq (g : Fin 8) (q : PnlReq) (s : State) : State :=
  (match s.pnl.regions[g].run with
  | none =>
    if !s.pnl.regions[g].dirty || q.refresh || !s.canRefresh then s.onRegion g fun x => { x with run := some q.run }
    else if s.metering then (s.slotReq g q).onRegion g fun x => { x with run := some s.refreshReq.run }
    else s.slotReq g q
  | some run =>
    (s.slotReq g q).onRegion g fun x => { x with run := some { run with cut := run.cut || (q.urgent && !run.req.refresh) } }).steer

/-- Why a PNL_UPDATE is refused (R375, R376). -/
def State.updateFault (s : State) (region transition : Nat) : Option Status :=
  match idx? 8 region with
  | none => some .badValue
  | some g =>
    if regionRows s.live g = 0 || !s.panelOn || !s.pnl.hasTable transition then some .badValue
    else if s.pnl.fault then some .busy else none

/-- A request of the closeout is SUPERSEDED at once, and its region is journalled as DIRTY: in the entry that the warning still owes, and
in the records after it (R247, R301). -/
def State.supersede (g : Fin 8) (q : PnlReq) (s : State) : State :=
  let owe := fun (r : JRec) => { r with dirty := r.dirty ||| BitVec.ofNat 8 (2 ^ g.val) }
  let s1 := { s with pwr := { s.pwr with entryDue := s.pwr.entryDue.map owe } }
  (s1.onRegion g fun x => { x with dirty := true }).pnlDone g q .superseded

/-- PNL_UPDATE (R376); its request number is the device's (log 1). -/
def State.panelUpdate (region transition : Nat) (urgent : Bool) (s : State) : State × Status × List Byte :=
  match s.updateFault region transition with
  | some st => (s, st, [])
  | none =>
    let g := Fin.ofNat 8 region
    let (n, s1) := s.fresh
    let q : PnlReq := ⟨freshFrom (2 ^ 32) n s.pnl.numbers, transition, urgent, false⟩
    (if s1.closingOut then s1.supersede g q else s1.placeReq g q, .ok, le 4 q.number)

/-- The command answers what came of it at its admission in a closeout (R247), or acts now. -/
def State.pnlUpdate (r : Req) (region transition : Nat) (urgent : Bool) (s : State) : State :=
  s.acted 0x0903 r (State.panelUpdate region transition urgent)

/-- The row's meaning (R376). -/
def execPnlUpdate (r : Req) (region transition : Nat) (urgent : Bool) (s : State) :
    Host.Outcome State Fault Refusal := .next (s.command 0x0903 r (State.pnlUpdate r region transition urgent))

/-- DIRTY regions without a running request are refreshed with transition DTRANS (R378). -/
def State.refreshDirty (s : State) : State :=
  let due := fun (g : Fin 8) => s.pnl.regions[g].dirty && s.pnl.regions[g].run.isNone && regionRows s.live g ≠ 0
  if s.canRefresh then chain (allRegions.filter due) (fun g s => s.placeReq g s.refreshReq) s else s

/-- A request that waits behind a refresh which cannot run, or for EN, runs as soon as it can (R376, R378; log 99). -/
def State.startWaiting (s : State) : State :=
  let go := fun (g : Fin 8) (s : State) =>
    let run := if s.pnl.regions[g].dirty && s.canRefresh then some s.refreshReq.run else s.pnl.regions[g].slot.map PnlReq.run
    let slot := if s.pnl.regions[g].dirty && s.canRefresh then s.pnl.regions[g].slot else none
    s.onRegion g fun x => { x with run := run, slot := slot }
  let due := fun (g : Fin 8) => s.pnl.regions[g].run.isNone && s.pnl.regions[g].slot.isSome
  if s.metering && s.panelOn && !s.pnl.fault && !s.closingOut then (chain (allRegions.filter due) go s).steer else s

/-! ### Pair and frame boundaries (R367, R376) -/

/-- A region's waveform ends: WORK is copied to SHOWN where it had started, and the pending request runs next (R376). -/
def State.endRun (g : Fin 8) (run : PnlRun) (st : Status) (s : State) : State :=
  let n := regionStart s.live g * cols s.live
  let s1 := if run.started then
      { s with pnl := { s.pnl with shown := planePut s.pnl.shown n (s.regionPixels g s.pnl.work) } }
    else s
  let clean := run.req.refresh && st = .ok
  (s1.onRegion g fun x =>
    { x with run := x.slot.map PnlReq.run, slot := none, dirty := x.dirty && !clean }).pnlDone g run.req st

/-- A region's waveform starts: NEXT is copied to WORK and the table of the band is taken (R369, R373). -/
def State.startRun (g : Fin 8) (run : PnlRun) (s : State) : State :=
  match s.pnl.bandFor run.req.transition s.panelBand with
  | none => s
  | some b =>
    let n := regionStart s.live g * cols s.live
    let s1 := { s with pnl := { s.pnl with
      work := planePut s.pnl.work n (s.regionPixels g s.pnl.next), band := b } }
    s1.onRegion g fun x =>
      { x with run := some { run with started := true, pair := 0, table := (s.pnl.table? run.req.transition b).getD [] } }

/-- A running waveform at a pair boundary: completed, cut, or one pair on (R376). -/
def State.pairEnd (g : Fin 8) (s : State) : State :=
  match s.pnl.regions[g].run with
  | none => s
  | some run =>
    if run.started && tableFrames run.table ≤ 2 * (run.pair + 1) then s.endRun g run .ok
    else if run.cut || s.pnl.closeout ≠ 0 then s.endRun g run .cut
    else if run.started then s.onRegion g fun x => { x with run := some { run with pair := run.pair + 1 } }
    else s

/-- A waiting request starts at a pair boundary with all rails up (R376). -/
def State.pairStart (g : Fin 8) (s : State) : State :=
  match s.pnl.regions[g].run with
  | none => s
  | some run => if run.started || s.pnl.rail ≠ 5 || s.pnl.railDown || s.pnl.closeout ≠ 0 then s else s.startRun g run

/-- Pending requests end SUPERSEDED, running ones that have not started end CUT: the closeout (R377). -/
def State.dropPending (g : Fin 8) (s : State) : State :=
  let s1 := match s.pnl.regions[g].slot with
    | some q => (s.onRegion g fun x => { x with slot := none }).pnlDone g q .superseded
    | none => s
  match s1.pnl.regions[g].run with
  | some run => if run.started then s1 else s1.endRun g run .cut
  | none => s1

/-- PANEL_PAIR_BOUNDARY (R376, R377): in the closeout's first step every running pair has now been completed. -/
def State.pairBoundary (s : State) : State :=
  let s0 := { s with pnl := { s.pnl with second := false } }
  let s1 := chain allRegions State.pairEnd s0
  if s1.pnl.closeout = 1 then ({ s1 with pnl := { s1.pnl with closeout := 2 } }).steer
  else (chain allRegions State.pairStart s1).steer

/-- The frame grid runs (R367). -/
def State.panelRuns (s : State) : Bool := s.powered && s.panelOn && !s.flt.panelStop

/-- The row's meaning: the end of the second frame of a pair (R367); a pair boundary is a frame boundary too (R138). -/
def execPanelPairBoundary (s : State) : Host.Outcome State Fault Refusal :=
  .next (if s.panelRuns && s.pnl.second then s.panelOscNow.pairBoundary else s)

/-- PANEL_FRAME_BOUNDARY: the second frame of a pair begins, and a waiting trim takes effect (R138, R367). -/
def execPanelFrameBoundary (s : State) : Host.Outcome State Fault Refusal :=
  .next (if s.panelRuns && !s.pnl.second then ({ s with pnl := { s.pnl with second := true } }).panelOscNow else s)

/-- The source code that a pixel of a region is driven with (R370, R371): 0 outside a waveform. -/
def State.pixelCode (s : State) (g : Fin 8) (pixel : Nat) : Nat :=
  match s.pnl.regions[g].run with
  | none => 0
  | some run =>
    if !run.started then 0
    else tableCode run.table (2 * run.pair + if s.pnl.second then 1 else 0)
      (4 * (planeAt s.pnl.shown pixel).toNat + (planeAt s.pnl.work pixel).toNat)

/-- The voltage of a region's common (R367): +15 V in the first frame of a pair and −15 V in the second while its waveform runs. -/
def State.commonVolts (s : State) (g : Fin 8) : Int :=
  if (s.pnl.regions[g].run.map PnlRun.started).getD false then (if s.pnl.second then -15 else 15) else 0

/-- The voltage of a source for a code: code 3 follows the common (R370). -/
def sourceVolts (common : Int) (code : Nat) : Int :=
  match code with
  | 0 => 0 | 1 => 15 | 2 => -15 | _ => common

/-- The voltage across a pixel of a region (R370): the source less the common. -/
def State.pixelVolts (s : State) (g : Fin 8) (pixel : Nat) : Int :=
  sourceVolts (s.commonVolts g) (s.pixelCode g pixel) - s.commonVolts g

/-! ### The panel bus (R366, R367, R377) -/

/-- The signals of the panel bus beside PNL_SD (R366). -/
inductive PanelPin where
  | sck | sle | soe | gsp | gck | goe
  deriving DecidableEq, Repr

/-- Every output of the bus is driven low: the driver is disabled, in reset or on cell (R366). -/
def State.busLow (s : State) : Bool := !s.powered || !s.panelOn

/-- A signal is held at a level whatever the frame does: low while the bus is low; how it moves in a frame is not stated (R366). -/
def State.pinHeld (s : State) (_pin : PanelPin) : Option Bool := if s.busLow then some false else none

/-- The region that a row lies in (R368). -/
def State.regionOfRow (s : State) (row : Nat) : Option (Fin 8) :=
  allRegions.find? fun g => decide (regionStart s.live g ≤ row ∧ row < regionStart s.live g + regionRows s.live g)

/-- The source code of a pixel by row and column (R366, R370): code 0 in the grounded frame and outside a region. -/
def State.codeAt (s : State) (row col : Nat) : Nat :=
  if s.pnl.closeout = 2 then 0
  else ((s.regionOfRow row).map fun g => s.pixelCode g (row * cols s.live + col)).getD 0

/-- Byte i of a row on PNL_SD: 4 pixels, the lowest column in bits [1:0] (R366, R367). -/
def State.sourceByte (s : State) (row i : Nat) : Byte :=
  if s.busLow then 0
  else BitVec.ofNat 8 (((List.range 4).map fun k => s.codeAt row (4 * i + k) * 4 ^ k).foldl (· + ·) 0)

/-- The bytes of a row as it is sent: up to 256 (R367). -/
def State.rowBytes (s : State) (row : Nat) : List Byte := (List.range (cols s.live / 4)).map (s.sourceByte row)

/-- A gate line is selected: every one of them together in the grounded frame, else that of the row that is being scanned (R367,
R377). -/
def State.gateSelected (s : State) (scanned row : Nat) : Bool :=
  !s.busLow && row < panelRows s.live && (s.pnl.closeout = 2 || row = scanned)

/-! ### Faults, rails and the closeout (R374, R375, R377) -/

/-- A region's requests end with PANEL_FAULT and it becomes DIRTY (R375). -/
def State.faultRegion (g : Fin 8) (s : State) : State :=
  let x := s.pnl.regions[g]
  if x.run.isNone && x.slot.isNone then s
  else
    let s1 := s.onRegion g fun x => { x with run := none, slot := none, dirty := true }
    let s2 := match x.run with | some run => s1.pnlDone g run.req .panelFault | none => s1
    match x.slot with | some q => s2.pnlDone g q .panelFault | none => s2

/-- A rail fault or a clock stop (R375): every request ends, the rails go down at 1 ms steps. In a closeout nothing is left for its pair
and its grounded frame (R274). -/
def State.panelFault (s : State) : State :=
  let s1 := chain allRegions State.faultRegion { s with pnl := { s.pnl with fault := true, railFast := s.pnl.rail ≠ 0 } }
  let n := if s1.pnl.closeout = 0 || s1.pnl.rail = 0 then 0 else 3
  ({ s1 with pnl := { s1.pnl with closeout := n } }).steer

/-- PANEL_FAULT: `clock` is a PANEL clock that has stopped, otherwise a rail fault (R274, R375). -/
def execPanelFault (clock : Bool) (s : State) : Host.Outcome State Fault Refusal :=
  .next (if s.powered then
      ({ s with flt := { s.flt with panelStop := s.flt.panelStop || clock } }).panelFault
    else s)

/-- The nominal value of a rail in V: VGL, VGH, VSL, VSH (R374; the table of rails in the electrical characteristics). -/
def railNominal (rail : Fin 4) : Rat :=
  match rail.val with
  | 0 => -20 | 1 => 22 | 2 => -15 | _ => 15

/-- A rail lies outside ±10 % of its nominal value (R374). -/
def railBad (rail : Fin 4) (v : Rat) : Bool := decide (absR (railNominal rail) < 10 * absR (v - railNominal rail))

/-- The rails that are up: the commons, the fifth step, are not read (R374). -/
def Panel.railsUp (p : Panel) : Nat := min p.rail 4

/-- The rail that is read next (R374): the one that has just risen, else the next in turn of those that are up. -/
def Panel.railTurn (p : Panel) : Option (Fin 4) :=
  if p.railsUp = 0 then none
  else if p.railNew then some (Fin.ofNat 4 (p.railsUp - 1))
  else some (Fin.ofNat 4 ((p.railSel + 1) % p.railsUp))

/-- RAIL_READ: the auxiliary ADC reads a rail through input 15; one outside ±10 % of its nominal value is a rail fault
(R315, R374). -/
def execRailRead (code : BitVec 12) (s : State) : Host.Outcome State Fault Refusal :=
  .next (if !s.powered then s
    else match s.pnl.railTurn with
      | none => s
      | some rail =>
        let v := auxValue 15 rail.val (code.toNat : Rat)
        let s1 := { s with
          pnl := { s.pnl with railSel := rail.val, railNew := false }
          anv := { s.anv with auxRes := upd s.anv.auxRes 15 fun _ => toF32 v } }
        if railBad rail v then s1.panelFault else s1)

/-- RAIL_STEP: one step of the rail sequence (R374); the first step down of a closeout ends its grounded frame (R377).
-/
def Panel.railStep (p : Panel) : Panel :=
  if p.railDown then
    let n := p.rail - 1
    { p with
      rail := n, railDown := n ≠ 0, railFast := p.railFast && n ≠ 0, railNew := false
      closeout := if n = 0 then 0 else if p.closeout = 2 then 3 else p.closeout }
  else if p.busy && p.rail < 5 then { p with rail := p.rail + 1, railNew := p.rail < 4 }
  else p

/-- The row's meaning; a closeout that ends after its warning was withdrawn leaves DIRTY regions to refresh (R308). -/
def execRailStep (s : State) : Host.Outcome State Fault Refusal :=
  .next (if !s.powered then s
    else
      let s1 := { s with pnl := s.pnl.railStep }
      if s.pnl.closeout ≠ 0 && s1.pnl.closeout = 0 && !s1.pwr.pfail then s1.refreshDirty.startWaiting else s1)

/-- The closeout starts at a power-fail warning (R377): regions with a request become DIRTY; without a running waveform
the grounded frame comes at once, and after a fault the rails go on down without one (R375). -/
def State.closeout (s : State) : State :=
  let s1 := chain (allRegions.filter fun g => s.pnl.regions[g].run.isSome || s.pnl.regions[g].slot.isSome)
    (fun g s => s.onRegion g fun x => { x with dirty := true }) s
  let s2 := chain allRegions State.dropPending s1
  let n := if s2.pnl.driving then 1 else if s2.pnl.rail = 0 then 0 else if s2.pnl.fault then 3 else 2
  ({ s2 with pnl := { s2.pnl with closeout := n, railFast := s2.pnl.rail ≠ 0 } }).steer

/-- RECOVER (R375): the PANEL clock is checked again; when it runs, the fault state is left and DIRTY regions are
refreshed. -/
def State.recover (clockOk : Bool) (s : State) : State :=
  if !s.pnl.fault || !clockOk then s
  else
    let s1 := { s with pnl := { s.pnl with fault := false }, flt := { s.flt with panelStop := false } }
    s1.refreshDirty.startWaiting.steer

end Sys2Proof.Machine
end

