-- ==== Sys2Proof/Machine/Params.lean ====
section
/-!
DEFINITION. PARAM_WRITE (R232, R233): its range, the roles of the fields it changes (R8), the rule of every word, and what
each accepted word does.
-/
namespace Sys2Proof.Machine

/-- What a write senses of the device beside its state: the self-tests of the fenced comb copy and of the fenced metrology copy pass
(R254), the PANEL clock runs (R375). -/
structure Sensed where
  comb    : Bool
  met     : Bool
  clockOk : Bool
  deriving DecidableEq, Repr

/-! ### Ranges and fields -/

/-- A range of words lies within one block of the map (R232, R395). -/
def rangeOk (addr count : Nat) : Bool :=
  let last := addr + 4 * (count - 1)
  addr % 4 = 0 && 1 ≤ count && count ≤ 1022 && last < 0xF0000 && addr / 0x10000 = last / 0x10000

/-- The addresses of a range with their words. -/
def addressed (addr : Nat) (ws : List Word) : List (Nat × Word) :=
  ((List.range ws.length).zip ws).map fun x => (addr + 4 * x.1, x.2)

/-- A written word changes a field (R8). -/
def Fld.changed (f : Fld) (old new : Word) : Bool :=
  match f.acc with
  | .ro => false
  | .rw => fld old f.hi f.lo ≠ fld new f.hi f.lo
  | .wo | .w1c => fld new f.hi f.lo ≠ 0

/-- The mask of a word's RW bits. -/
def Reg.rwMask (r : Reg) : Word :=
  r.fields.foldl (fun m f => match f.acc with | .rw => m ||| mask f.hi f.lo | .ro | .wo | .w1c => m) 0

/-- The word as it would be held: RW bits written, the others as they are. -/
def Reg.merge (r : Reg) (old new : Word) : Word := (old &&& ~~~r.rwMask) ||| (new &&& r.rwMask)

/-- The role may not change a field of the word that the write changes (R8). -/
def State.roleFault (s : State) (role : Role) (r : Reg) (w : Word) : Bool :=
  r.fields.any fun f => !f.roles.contains role && f.changed (s.readLive r) w

/-- The first address whose fields the role may not change (R233). -/
def State.deniedAt (s : State) (role : Role) (l : List (Nat × Word)) : Option Nat :=
  (l.find? fun x => s.roleFault role (regOf x.1) x.2).map Prod.fst

/-! ### The rules of the words -/

/-- A field lies in its range. -/
def within (w : Word) (hi lo least most : Nat) : Bool := least ≤ fld w hi lo && fld w hi lo ≤ most

/-- BAD_VALUE unless a test holds. -/
def valueOk (ok : Bool) : Option Status := if ok then none else some .badValue

/-- The first rule broken. -/
def firstOf (l : List (Option Status)) : Option Status := (l.find? Option.isSome).getD none

/-- The status when a test holds. -/
def failIf (bad : Bool) (st : Status) : Option Status := if bad then some st else none

/-- A finite binary32 in the range of full scales and declared voltages (R85, R139). -/
def scaleOk (w : Word) : Bool :=
  match f32 w with
  | some x => 1 / 1000 ≤ x && x ≤ 10000000
  | none => false

/-- The four bytes of a word, lowest first. -/
def entriesOfWord (w : Word) : List Nat := [fld w 7 0, fld w 15 8, fld w 23 16, fld w 31 24]

/-- A point is not OFF (R100): ON, or to be ON or OFF from the next boundary on. -/
def State.notOff (s : State) (p : Fin 128) : Bool := pointOn s.live p || pointOn s.asked p

/-- A point of a list is not OFF. -/
def State.anyOn (s : State) (l : List (Fin 128)) : Bool := l.any s.notOff

/-- A point that is not OFF uses a channel of those that a list gives for it. -/
def State.uses (s : State) (chans : (Reg → Word) → Fin 128 → List (Fin 136)) (k : Fin 136) (p : Fin 128) : Bool :=
  pointOn s.live p && (chans s.live p).contains k || pointOn s.asked p && (chans s.asked p).contains k

/-- AFE (R24, R26, R31). -/
def State.judgeAfe (s : State) (k : Fin 136) (w : Word) : Option Status :=
  firstOf [valueOk (128 ≤ k.val || (fld w 6 4 < 6 && fld w 2 1 ≠ 3)),
    failIf (!bit w 0 && allPts.any (s.uses phaseChans k)) .topologyConflict]

/-- FS (R85). -/
def State.judgeFs (s : State) (k : Fin 136) (w : Word) : Option Status :=
  firstOf [valueOk (scaleOk w), failIf (w ≠ s.asked (.ch k .fs) && allPts.any (s.uses pointChans k)) .pointActive]

/-- The control bits of a channel (R42). -/
def State.judgeCtl (s : State) (k : Fin 136) (w : Word) : Option Status :=
  match fld w 2 0 with
  | 0 => none
  | 1 => s.forceFault k
  | 2 => s.restoreFault k
  | 4 => s.checkFault k
  | _ => some .badValue

/-- TOPO (R32). -/
def State.judgeTopo (s : State) (q : Fin 32) (w : Word) : Option Status :=
  failIf (fld w 1 0 ≠ topoOf s.asked q && s.anyOn (quadPoints q)) .topologyConflict

/-- The incomer of a bus whose balance is computed (R121). -/
def incomerOf (f : Reg → Word) (b : Fin 2) : Option (Fin 128) :=
  let w := f (.bus b .balcfg)
  if bit w 15 then some (Fin.ofNat 128 (fld w 14 8)) else none

/-- BUS of a quad (R32, R121). -/
def State.judgeBus (s : State) (q : Fin 32) (w : Word) : Option Status :=
  let moved := bit w 0 ≠ bit (s.asked (.qdBus q)) 0
  let incomer := (List.finRange 2).any fun b => (incomerOf s.asked b).map quadOf = some q
  failIf ((moved && s.anyOn (quadPoints q)) || incomer) .topologyConflict

/-- MODE of a point (R13, R31, R32, R91). -/
def State.judgeMode (s : State) (p : Fin 128) (w : Word) : Option Status :=
  let f := s.asked
  let on := bit w 0 && !pointOn f p
  let bound := !(pointPhases f p).isEmpty && (phaseChans f p).all (chanOn f)
  firstOf [valueOk (fld w 11 10 ≠ 3 && (bit w 8 || !isQ3P3Point f p)),
    failIf (on && !bound) .topologyConflict]

/-- The minutes of an interval code (R113). -/
def intervalMinutes (code : Nat) : Nat := nth [1, 2, 3, 5, 10, 15, 20, 30, 60] code 5

/-- DEMAND of a point (R113). -/
def judgeDemand (w : Word) : Option Status :=
  let n := fld w 15 12
  valueOk (1 ≤ n && fld w 11 8 ≤ 8 && intervalMinutes (fld w 11 8) % n = 0 && (bit w 1 || n = 1))

/-- DIPSWL and INTHYS (R145). -/
def judgeDip (dip int : Word) : Option Status :=
  let (swl, dipTh, inth, hys) := (fld dip 31 16, fld dip 15 0, fld int 31 16, fld int 15 0)
  valueOk (within dip 31 16 10100 20000 && within dip 15 0 5000 9900 && within int 31 16 100 5000
    && within int 15 0 10 1000 && inth + hys < dipTh && dipTh + hys + hys < swl)

/-- RVCNL (R148). -/
def judgeRvc (dip w : Word) : Option Status :=
  valueOk (within w 31 16 100 600 && fld w 31 16 + fld dip 15 0 < 10000 && fld w 31 16 + 10000 < fld dip 31 16)

/-- REFLIST (R76): every entry is a phase or empty, and none repeats before the first empty one. -/
def reflistOk (w : Word) : Bool :=
  let es := (List.range 8).map fun e => fld w (4 * e + 3) (4 * e)
  let used := es.takeWhile (· ≠ 15)
  es.all [0, 1, 2, 4, 5, 6, 15].contains && used.eraseDups.length = used.length

/-- PUL.CFG (R172). -/
def State.judgePulse (s : State) (w : Word) : Option Status :=
  let (kind, index, qty) := (fld w 25 24, fld w 22 16, fld w 3 0)
  valueOk (match kind with
    | 1 => qty ≤ 5 && isQ3P4Point s.asked (Fin.ofNat 128 index)
    | 2 => index ≤ 1 && qty ≤ 1
    | _ => qty ≤ 7)

/-- QUE.CFG (R222). -/
def State.judgeQueue (s : State) (i : Fin 32) (w : Word) : Option Status :=
  let depth := fun j => let x := if j = i then w else s.asked (.queCfg j); if bit x 31 then fld x 6 0 else 0
  let sum := ((List.finRange 32).map depth).foldl (· + ·) 0
  valueOk (fld w 29 28 ≠ 3 && within w 21 16 1 63 && within w 6 0 1 64 && fld w 21 16 ≤ fld w 6 0 && sum ≤ 512)

/-- The control word of a key entry (R211). -/
def State.judgeKeyCtl (s : State) (e : Fin 16) (w : Word) : Option Status :=
  let (x, y) := s.sesKey e
  valueOk (e.val = 0 || (fld w 1 0 ≠ 3 && (!bit w 31 || p256.onCurve x y)))

/-- The utility co-signature key (R328). -/
def State.coKey (s : State) : Nat × Nat :=
  let bs := wordBytes ((List.finRange 24).map fun i => s.asked (.cokey i))
  (beNat (bs.take 48), beNat (bs.drop 48))

/-- A source's word (R293). -/
def State.judgeSource (n : Fin 192) (w : Word) : Option Status :=
  if intReserved n.val then valueOk (w = 0)
  else valueOk (Config.coreTargets n.val = 0 || corePrioMin n ≤ fld w 3 0)

/-- The EOI word of a target (R289, R293). -/
def judgeEoi (port : Port) (t : Fin 6) : Option Status :=
  failIf (t.val < 2 || (t.val < 5 && t.val ≠ 2 + (portIdx port).val)) .denied

/-- An entry of INT.WATCH (R293). -/
def watchOk (n : Nat) : Bool := n = 255 || (n < 192 && !intReserved n)

/-- The latest date of a month; of any year when none is given (R336, R343). -/
def lastDate (month : Nat) (year : Option Nat) : Nat := daysIn (year.getD 2000) month

/-- A BCD byte lies in a range (R338, R343). -/
def bcdIn (n least most : Nat) : Bool :=
  let b : Byte := BitVec.ofNat 8 n
  isBcd b && least ≤ ofBcd b && ofBcd b ≤ most

/-- The match words of an alarm under its mask (R343). -/
def alarmOk (m0 m1 : Word) (msk : BitVec 7) : Bool :=
  let open' := fun i => !msk.getLsbD i
  let num := fun (w : Word) hi lo => ofBcd (BitVec.ofNat 8 (fld w hi lo))
  let year := 100 * num m1 31 24 + num m1 23 16
  let ranges :=
    [(0, bcdIn (fld m0 7 0) 0 59), (1, bcdIn (fld m0 15 8) 0 59), (2, bcdIn (fld m0 23 16) 0 23),
     (3, 1 ≤ fld m0 26 24 && fld m0 26 24 ≤ 7), (4, bcdIn (fld m1 7 0) 1 31), (5, bcdIn (fld m1 15 8) 1 12),
     (6, bcdIn (fld m1 23 16) 0 99 && (fld m1 31 24 = 0x20 || fld m1 31 24 = 0x21))]
  ranges.all (fun x => !open' x.1 || x.2)
    && (!open' 4 || !open' 5 || num m1 7 0 ≤ lastDate (num m1 15 8) (if open' 6 then some year else none))

/-- A word of an alarm, beside the alarm's other words. -/
def State.judgeAlarm (s : State) (a : Fin 2) (m0 m1 ctl : Option Word) : Option Status :=
  let x := s.cld.alarms[a]
  valueOk (alarmOk (m0.getD x.match0) (m1.getD x.match1) ((ctl.map fun w => w.setWidth 7).getD x.mask))

/-- GRD.RESP (R354): under MLOCK no mask bit is cleared; a fused source ignores the write (R357). -/
def State.judgeResp (s : State) (i : Fin 16) (w : Word) : Option Status :=
  let g := s.guard.srcs[i]
  let old := word (g.next.getD g.mask).toNat
  failIf (s.grd.mlock && !g.fused && (old &&& 0xE &&& ~~~w) ≠ 0) .denied

/-- GRD.CTL (R357, R360). -/
def State.judgeGrdCtl (s : State) (w : Word) : Option Status :=
  firstOf [if bit w 15 then s.fdisFault (fld w 23 16) (fld w 3 0) else none, if bit w 31 then s.armFault else none]

/-- The bands of two regions overlap (R368). -/
def overlap (a b : Nat × Nat) : Bool := a.2 ≠ 0 && b.2 ≠ 0 && a.1 < b.1 + b.2 && b.1 < a.1 + a.2

/-- The regions fit the panel and do not overlap (R368). -/
def regionsOk (f : Reg → Word) : Bool :=
  let bands := allRegions.map fun r => (regionStart f r, regionRows f r)
  bands.all (fun x => x.2 = 0 || x.1 + x.2 ≤ panelRows f)
    && (List.range 8).all fun i => (List.range i).all fun j => !overlap (nth bands i (0, 0)) (nth bands j (0, 0))

/-- A lookup with one word replaced. -/
def withWord (f : Reg → Word) (r : Reg) (w : Word) (x : Reg) : Word := if x = r then w else f x

/-- Rails are up or a region has a request (R368). -/
def Panel.inUse (p : Panel) : Bool := p.rail ≠ 0 || p.busy

/-- PNL.GEOM (R368). -/
def State.judgeGeom (s : State) (w : Word) : Option Status :=
  let f := withWord s.asked .pnlGeom w
  firstOf [valueOk (8 ≤ cols f && cols f ≤ 1024 && cols f % 8 = 0 && 1 ≤ panelRows f && panelRows f ≤ 512
      && cols f * panelRows f ≤ 262144 && regionsOk f),
    failIf s.pnl.inUse .busy]

/-- PNL.REG (R368). -/
def State.judgeRegion (s : State) (r : Fin 8) (w : Word) : Option Status :=
  firstOf [valueOk (fld w 25 16 ≤ 512 && regionsOk (withWord s.asked (.pnlReg r) w)), failIf s.pnl.inUse .busy]

/-- The signed bytes of a word ascend. -/
def ascends : List Int → Bool
  | a :: b :: rest => a ≤ b && ascends (b :: rest)
  | _ => true

/-- TBAND0 and TBAND1 (R373). -/
def State.judgeBand (s : State) (hi : Bool) (w : Word) : Option Status :=
  let bytes := fun w => (entriesOfWord w).map (signed 8)
  valueOk (ascends (if hi then (bytes (s.asked (.tband false))).drop 3 ++ (bytes w).take 3 else bytes w))

/-- A CAL_COMMIT has been admitted before a write and is not complete (R125). -/
def State.commitAhead (s : State) (order : Option Nat) : Bool :=
  !s.mcal.waiting.isEmpty
    || s.scr.queues.toList.any fun q => q.entries.any fun e => e.opcode = 0x0402 && (order.map fun n => decide (e.order < n)).getD true

/-- The bound of a POFS or QOFS value (R86, R125): none for a phase without bound channels. -/
def State.offsetOk (s : State) (p : Fin 128) (ph : Fin 3) (w : Word) : Bool :=
  match f32 w, (pointPhases s.live p).find? fun c => c.ph = ph with
  | none, _ => false
  | some _, none => true
  | some x, some c => absR x * 2000 ≤ fullScale s.live c.volt * fullScale s.live c.curr

/-- A calibration gain (R86). -/
def gainOk (w : Word) : Bool := 0x20000000 ≤ w.toNat && w.toNat ≤ 0x80000000

/-- A value lies in the range of R86. -/
def State.calOk (s : State) (c : CalWord) (w : Word) : Bool :=
  match c with
  | .ch _ .gain | .pt _ .pgain | .pt _ .qgain | .pt _ .sgain => gainOk w
  | .ch _ .dcofs => w.toInt.natAbs ≤ 2 ^ 28
  | .ch _ .rmsofs | .ch _ .offs => true
  | .ch _ .delay => w.toInt.natAbs ≤ 262144
  | .pt p (.pofs i) | .pt p (.qofs i) => s.offsetOk p i w

/-- A DAC unit of a modulator trim (R135). -/
def unitOk (n : Nat) : Bool := n ≤ 14 || n = 31

/-- TRIM.MOD (R135, R136). -/
def State.judgeTrimMod (s : State) (n : Fin 170) (w : Word) : Option Status :=
  firstOf [valueOk (unitOk (fld w 12 8) && unitOk (fld w 4 0)), if h : n.val < 136 then s.forceFault ⟨n.val, h⟩ else none]

/-- The rule of a word for the value it would hold (R233). `order` is the admission order of the write. -/
def State.judgeWord (s : State) (port : Port) (order : Option Nat) (r : Reg) (w : Word) : Option Status :=
  match r with
  | .profCfg => valueOk (fld w 3 0 ≤ 8)
  | .ch k .afe => s.judgeAfe k w
  | .ch k .ctl => s.judgeCtl k w
  | .ch k .filt => valueOk (128 ≤ k.val || within w 2 0 3 5)
  | .ch k .fs => s.judgeFs k w
  | .qdTopo q => s.judgeTopo q w
  | .qdBus q => s.judgeBus q w
  | .driftTh _ => valueOk (within w 31 16 20 5000 && within w 15 0 20 5000)
  | .pt p .mode => s.judgeMode p w
  | .pt p .phase => failIf (fld w 1 0 ≠ phaseOf s.asked p && s.notOff p) .topologyConflict
  | .pt _ .thresh => valueOk (within w 31 16 10 20000 && within w 15 0 10 10000 && fld w 15 0 ≤ fld w 31 16)
  | .pt _ .scunit => valueOk (fld w 2 0 ≤ 5)
  | .pt _ .demand => judgeDemand w
  | .pt _ .tddil => valueOk ((f32 w).any fun x => 0 ≤ x)
  | .pt _ .evcfg => valueOk (within w 15 8 1 100 && within w 7 0 1 255)
  | .bus b .balcfg =>
    firstOf [valueOk (fld w 3 0 ≤ 8),
      failIf (bit w 15 && busOfQuad s.asked (quadOf (Fin.ofNat 128 (fld w 14 8))) ≠ b) .topologyConflict]
  | .bus _ .balth => valueOk (fld w 31 16 ≤ 10000)
  | .bus _ .udin => valueOk (scaleOk w)
  | .bus b .dipswl => judgeDip w (s.asked (.bus b .inthys))
  | .bus b .inthys => judgeDip (s.asked (.bus b .dipswl)) w
  | .bus b .rvcnl => judgeRvc (s.asked (.bus b .dipswl)) w
  | .bus _ .nlcfg => valueOk (within w 31 16 100 10000 && within w 15 0 100 10000)
  | .reflist => valueOk (reflistOk w)
  | .fltCfg => valueOk (within w 15 8 10 255)
  | .fltCtl => failIf (bit w 0 && (!s.flt.onBackup || !s.flt.xtalHeld10)) .busy
  | .pqCfg => valueOk (within w 5 0 2 63)
  | .pqMagth | .grdMagth => valueOk (within w 15 0 10 10000)
  | .capsel _ => valueOk ((entriesOfWord w).all fun n => n ≤ 135 || n = 255)
  | .capkeep => valueOk (within w 15 0 1 3600)
  | .wbCfg => failIf (s.dev.variant = .bgw) .notFitted
  | .pulCfg _ => s.judgePulse w
  | .pulConst _ => valueOk (1 ≤ w.toNat && w.toNat ≤ 1000000)
  | .pulTest _ => valueOk (within w 19 0 1 1000000)
  | .folCfg => valueOk (within w 9 0 1 600)
  | .scrCfg => valueOk (within w 15 8 1 100 && fld w 3 0 ≤ 8)
  | .queCfg i => s.judgeQueue i w
  | .sesCfg => valueOk (within w 31 20 1 3600 && within w 15 8 1 128)
  | .sesKey e _ => valueOk (e.val = 0 || !bit (s.asked (.sesKeyCtl e)) 31)
  | .sesKeyCtl e => s.judgeKeyCtl e w
  | .intSrc n => State.judgeSource n w
  | .tgtEoi t => judgeEoi port t
  | .tgtCfg _ => valueOk (within w 5 0 1 60)
  | .watch _ => valueOk ((entriesOfWord w).all watchOk)
  | .fwcfg => valueOk (!bit w 0 || bit (s.asked .cokeyCtl) 31)
  | .cokey _ => valueOk (!bit (s.asked .cokeyCtl) 31)
  | .cokeyCtl => valueOk (!bit w 31 || p384.onCurve s.coKey.1 s.coKey.2)
  | .auxCfg => valueOk (within w 31 16 500 10000 && within w 15 8 85 125)
  | .auxUin _ => valueOk (fld w 11 8 ≤ 8)
  | .pfcfg => valueOk (within w 7 0 56 120)
  | .cldTrim => valueOk ((signed 10 (fld w 9 0)).natAbs ≤ 503)
  | .almMatch0 a => s.judgeAlarm a (some w) none none
  | .almMatch1 a => s.judgeAlarm a none (some w) none
  | .almCtl a => s.judgeAlarm a none none (some w)
  | .grdCtl => s.judgeGrdCtl w
  | .grdResp i => s.judgeResp i w
  | .pnlCfg => failIf (!bit w 0 && s.pnl.regions.toList.any fun x => x.run.isSome) .busy
  | .pnlGeom => s.judgeGeom w
  | .pnlReg g => s.judgeRegion g w
  | .tband hi => s.judgeBand hi w
  | .staged c => firstOf [failIf (s.commitAhead order) .calBusy, valueOk (s.calOk c w)]
  | .trimMod n => s.judgeTrimMod n w
  | .trimVref => failIf (s.anyOn allPts) .pointActive
  | .trimOsc => failIf (s.flt.onBackup && fld w 7 0 ≠ fld s.trim.oscWord 7 0) .busy
  | _ => none

/-! ### What an accepted word does -/

/-- A word of the stores is replaced; in force at once unless its block waits for the cycle boundary (R402). -/
def State.store (r : Reg) (w : Word) (s : State) : State :=
  { s with cfg := s.cfg.put r.addr w, eff := if r.atBoundary then s.eff else s.eff.put r.addr w }

/-- A calibration word of a set replaced. -/
def CalSet.put (c : CalSet) (x : CalWord) (w : Word) : CalSet :=
  match x with
  | .ch k .gain => { c with ch := upd c.ch k fun a => { a with gain := w } }
  | .ch k .dcofs => { c with ch := upd c.ch k fun a => { a with dcofs := w } }
  | .ch k .rmsofs => { c with ch := upd c.ch k fun a => { a with rmsofs := w } }
  | .ch k .offs => { c with ch := upd c.ch k fun a => { a with offs := w } }
  | .ch k .delay => { c with ch := upd c.ch k fun a => { a with delay := w } }
  | .pt p .pgain => { c with pt := upd c.pt p fun a => { a with pgain := w } }
  | .pt p .qgain => { c with pt := upd c.pt p fun a => { a with qgain := w } }
  | .pt p .sgain => { c with pt := upd c.pt p fun a => { a with sgain := w } }
  | .pt p (.pofs i) => { c with pt := upd c.pt p fun a => { a with pofs := upd a.pofs i fun _ => w } }
  | .pt p (.qofs i) => { c with pt := upd c.pt p fun a => { a with qofs := upd a.qofs i fun _ => w } }

/-- The word that is stored for a staged value: −0.0 becomes +0.0 in the binary32 offsets (R125). -/
def CalWord.stored (x : CalWord) (w : Word) : Word :=
  match x with
  | .pt _ (.pofs _) | .pt _ (.qofs _) => if w = 0x80000000 then 0 else w
  | _ => w

/-- A staged calibration word is written (R124, R134). -/
def State.stage (x : CalWord) (w : Word) (s : State) : State :=
  { s with mcal := { s.mcal with
      staged := s.mcal.staged.put x (x.stored w), written := insertAsc (Reg.live x).addr s.mcal.written } }

/-- ENG_REJOINED of a copy of an engine. -/
def State.noteRejoined (engine : Nat) (copy : Fin 2) (s : State) : State :=
  s.raise .engRejoined .device (le 1 engine ++ le 1 copy.val)

/-- The fenced comb copy, its self-test passed, is reloaded from the survivor and rejoins lockstep (R254). -/
def State.rejoinComb (s : State) : State :=
  match s.flt.combFenced with
  | some c => ({ s with flt := { s.flt with combFenced := none } }).noteRejoined 0 c
  | none => s

/-- The same of the metrology engine (R254). -/
def State.rejoinMet (s : State) : State :=
  match s.flt.metFenced with
  | some c => ({ s with flt := { s.flt with metFenced := none } }).noteRejoined 1 c
  | none => s

/-- Each fenced engine copy whose own self-test passes rejoins lockstep (R254). -/
def State.rejoin (comb met : Bool) (s : State) : State :=
  let s1 := if comb then s.rejoinComb else s
  if met then s1.rejoinMet else s1

/-- Alarm words (R343): a write of CTL arms the alarm when EN = 1. -/
def Alarm.control (w : Word) (a : Alarm) : Alarm :=
  { a with en := bit w 31, rep := bit w 30, armed := bit w 31, mask := w.setWidth 7 }

/-- A mask write of a guard source applies from the next GUARD period (R354). -/
def GrdSrc.ask (w : Word) (g : GrdSrc) : GrdSrc :=
  { g with next := some (BitVec.ofNat 4 (fld w 3 1 * 2 + (g.mask.toNat % 2))) }

/-- The control bits of a channel act (R41, R42). -/
def State.control (k : Fin 136) (w : Word) (s : State) : State :=
  match fld w 2 0 with
  | 1 => s.forceSpare k
  | 2 => s.startRestore k
  | 4 => s.check k
  | _ => s

/-- GRD.CTL acts (R357, R360). -/
def State.guardControl (w : Word) (s : State) : State :=
  let s1 := if bit w 15 then s.fdis (Fin.ofNat 16 (fld w 3 0)) else s
  if bit w 31 then s1.arm else s1

/-- TRIM.OSC is written (R138). -/
def State.askOsc (w : Word) (s : State) : State :=
  let s1 := if fld w 7 0 = fld s.trim.oscWord 7 0 then s else s.askBkup (BitVec.ofNat 8 (fld w 7 0))
  if fld w 15 8 = fld s.trim.oscWord 15 8 then s1 else s1.askPanelOsc (BitVec.ofNat 8 (fld w 15 8))

/-- A valid LEGAL key ends the provisioning allowance for good (R211). -/
def State.noteKey (w : Word) (s : State) : State :=
  if bit w 31 && fld w 1 0 = 0 then { s with scr := { s.scr with legalEver := true } } else s

/-- An accepted word takes effect: `v` is the value it will hold, `w` the word as written (R7, R233). -/
def State.applyWord (req : Req) (env : Sensed) (r : Reg) (v w : Word) (s : State) : State :=
  match r with
  | .ch k .state => s.onChan k fun c => { c with clip := c.clip && !bit w 11, drift := c.drift && !bit w 8 }
  | .ch k .ctl => s.control k w
  | .fltCtl =>
    let s1 := if bit w 0 then { s with flt := { s.flt with xreturn := true } } else s
    if bit w 1 then s1.rejoin env.comb env.met else s1
  | .pulStatus n => s.onPulse n fun p => { p with overrange := p.overrange && !bit w 2 }
  | .scrCfg =>
    let s1 := s.store .scrCfg v
    if fld v 3 0 = fld (s.asked .scrCfg) 3 0 then s1
    else { s1 with scr := { s1.scr with baudDue := s1.scr.baudDue ++ [(req.session, req.tag, fld v 3 0)] } }
  | .sesKey e i => if e.val = 0 then s else s.store (.sesKey e i) v
  | .sesKeyCtl e => if e.val = 0 then s else (s.store (.sesKeyCtl e) v).noteKey v
  | .intSrc n => if intReserved n.val then s else (s.store (.intSrc n) v).route
  | .tgtEoi t => s.retire t (fld w 7 0) (fld w 15 8)
  | .tgtCfg t =>
    let s1 := s.store (.tgtCfg t) v
    if bit (s.asked (.tgtCfg t)) 31 && !bit v 31 then s1.disableTarget t else s1.route
  | .wbCfg => if bit v 0 then s.store .wbCfg v else (s.store .wbCfg v).wbDiscard false
  | .rstcause => { s with pwr := { s.pwr with rstCause := s.pwr.rstCause &&& ~~~(w.setWidth 11) } }
  | .cldTrim => { s with cld := { s.cld with trimNew := signed 10 (fld v 9 0) } }
  | .almMatch0 a => s.onAlarm a fun x => { x with match0 := v }
  | .almMatch1 a => s.onAlarm a fun x => { x with match1 := v }
  | .almCtl a => s.onAlarm a (Alarm.control v)
  | .grdCfg => { s with grd := { s.grd with mlock := s.grd.mlock || bit v 31, covpol := BitVec.ofNat 4 (fld v 11 8) } }
  | .grdMagth => { s with grd := { s.grd with magth := fld v 15 0 } }
  | .grdCtl => s.guardControl w
  | .pnlCfg =>
    let s1 := s.store .pnlCfg v
    if bit v 0 then s1.startWaiting else { s1 with pnl := { s1.pnl with second := false } }
  | .grdResp i => if s.guard.srcs[i].fused then s else s.onGuard i (GrdSrc.ask v)
  | .pnlCtl => if bit w 0 then s.recover env.clockOk else s
  | .staged c => s.stage c v
  | .mcalStatus => { s with mcal := { s.mcal with perr := s.mcal.perr && !bit w 3 } }
  | .trimMod n => s.askModTrim n v
  | .trimVref => s.setVref v
  | .trimOsc => s.askOsc v
  | .trimCtl => if bit w 0 then s.reloadTrims else s
  | r => if r.rwMask = 0 then s else s.store r v

/-- The word that a register's rule judges: control words and those of sources as written, others as they would be held. -/
def Reg.judged (r : Reg) (old w : Word) : Word :=
  match r with
  | .ch _ .ctl | .fltCtl | .grdCtl | .intSrc _ => w
  | _ => r.merge old w

/-- The words of a request in ascending order, each judged against what the earlier ones leave (R233): the address and
status of the first that fails, or the state that the whole leaves. -/
def State.writeWords (req : Req) (env : Sensed) (order : Option Nat) : List (Nat × Word) → State → (Nat × Status) ⊕ State
  | [], s => .inr s
  | (a, w) :: rest, s =>
    let r := regOf a
    match s.judgeWord req.port order r (r.judged (s.readLive r) w) with
    | some st => .inl (a, st)
    | none => (s.applyWord req env r (r.merge (s.readLive r) w) w).writeWords req env order rest

/-- What is wrong with a request to write, or the state it leaves (R233). -/
def State.tryWrite (req : Req) (env : Sensed) (addr : Nat) (ws : List Word) (s : State) : (Nat × Status) ⊕ State :=
  let l := addressed addr ws
  if !rangeOk addr ws.length then .inl (addr, .badAddress)
  else match s.deniedAt req.role l with
    | some a => .inl (a, .denied)
    | none => s.writeWords req env ((s.entry? 0x0202 req).map Entry.order) l

/-- PARAM_WRITE: the whole request takes effect, or none of it does (R225, R233). -/
def State.paramWrite (req : Req) (env : Sensed) (addr : Nat) (ws : List Word) (s : State) : State :=
  match s.tryWrite req env addr ws with
  | .inl (a, st) => s.complete 0x0202 req st (le 4 a)
  | .inr s1 => s1.ok 0x0202 req (le 6 s.nextBoundary ++ zeros 2)

/-- A PARAM_WRITE command. -/
def State.write (req : Req) (env : Sensed) (r : Reg) (w : Word) (s : State) : State :=
  s.command 0x0202 req (State.paramWrite req env r.addr [w])

/-- Nothing is sensed that a write of this word asks for. -/
def Sensed.plain : Sensed := ⟨true, true, true⟩

/-- PARAM_WRITE (R233). The outcome of a self-test or clock check that the request asks for is free (log 1). -/
def execParamWrite (r : Req) (addr : Nat) (words : List Word) (s : State) : Host.Outcome State Fault Refusal :=
  .next (s.command 0x0202 r fun s =>
    let (n, s1) := s.fresh
    s1.paramWrite r ⟨n % 2 = 1, n / 2 % 2 = 1, n / 4 % 2 = 1⟩ addr words)

/-- FORCE_SPARE of a channel (R41, R42). -/
def execForceSpare (r : Req) (ch : Fin 136) (s : State) : Host.Outcome State Fault Refusal :=
  .next (s.write r .plain (.ch ch .ctl) 1)

/-- RESTORE of a channel (R41, R42). -/
def execRestore (r : Req) (ch : Fin 136) (s : State) : Host.Outcome State Fault Refusal :=
  .next (s.write r .plain (.ch ch .ctl) 2)

/-- CHECK of a channel (R41, R42). -/
def execCheck (r : Req) (ch : Fin 136) (s : State) : Host.Outcome State Fault Refusal :=
  .next (s.write r .plain (.ch ch .ctl) 4)

/-- A write of TRIM.MOD (R136). -/
def execTrimModWrite (r : Req) (slot : Fin 170) (value : Word) (s : State) : Host.Outcome State Fault Refusal :=
  .next (s.write r .plain (.trimMod slot) value)

/-- A write of TRIM.VREF (R137). -/
def execTrimVrefWrite (r : Req) (value : Word) (s : State) : Host.Outcome State Fault Refusal :=
  .next (s.write r .plain .trimVref value)

/-- A write of TRIM.OSC (R138). -/
def execTrimOscWrite (r : Req) (value : Word) (s : State) : Host.Outcome State Fault Refusal :=
  .next (s.write r .plain .trimOsc value)

/-- TRIM.CTL.RELOAD (R135). -/
def execReload (r : Req) (s : State) : Host.Outcome State Fault Refusal := .next (s.write r .plain .trimCtl 1)

/-- FLT.CTL.REJOIN (R254): `comb` and `met` are the outcomes of the self-tests of the fenced copies. -/
def execRejoin (r : Req) (comb met : Bool) (s : State) : Host.Outcome State Fault Refusal :=
  .next (s.write r ⟨comb, met, true⟩ .fltCtl 2)

/-- FLT.CTL.XRETURN (R261, R270). -/
def execXreturn (r : Req) (s : State) : Host.Outcome State Fault Refusal := .next (s.write r .plain .fltCtl 1)

/-- A write of INT.TGT[t].EOI (R289). -/
def execEoi (r : Req) (target : Fin 6) (source dtag : Byte) (s : State) : Host.Outcome State Fault Refusal :=
  .next (s.write r .plain (.tgtEoi target) (word (put 15 8 dtag.toNat + put 7 0 source.toNat)))

/-- EN of a target cleared (R291). -/
def execIntTargetDisable (r : Req) (target : Fin 6) (s : State) : Host.Outcome State Fault Refusal :=
  .next (s.write r .plain (.tgtCfg target) (s.asked (.tgtCfg target) &&& 0x7FFFFFFF))

/-- GRD.CTL.ARM (R360). -/
def execArm (r : Req) (s : State) : Host.Outcome State Fault Refusal := .next (s.write r .plain .grdCtl 0x80000000)

/-- GRD.CTL.FDIS with a key and a source (R357). -/
def execFdis (r : Req) (key : Byte) (source : BitVec 4) (s : State) : Host.Outcome State Fault Refusal :=
  .next (s.write r .plain .grdCtl (word (put 23 16 key.toNat + flag 15 true + put 3 0 source.toNat)))

/-- PNL.CTL.RECOVER (R375): `clockOk` is the outcome of the PANEL clock check. -/
def execRecover (r : Req) (clockOk : Bool) (s : State) : Host.Outcome State Fault Refusal :=
  .next (s.write r ⟨true, true, clockOk⟩ .pnlCtl 1)

end Sys2Proof.Machine
end

