-- ==== Sys2Proof/Machine/FrontEnd.lean ====
section
/-!
DEFINITION. From modulator codes to the 51.2 ksps stream: integrator sections, the comb engine, the main path's line of frames,
the half-band stages and the lowpass, the DC blocker and the Rogowski integrator, the comparison of a dwell, the search for
crossings in start-up, and the window sums of the survey (R25, R27, R35, R39, R46 to R56, R61, R69, R161, R251, R252).
-/
namespace Sys2Proof.Machine

/-! ### Integrator sections (R35, R46) -/

/-- The channel whose comb output a slot delivers: for a spare, the channel it stands on. -/
def State.slotChan (s : State) (n : Fin 170) : Fin 136 :=
  if h : n.val < 136 then ⟨n.val, h⟩
  else groupChan ⟨n.val - 136, by omega⟩ s.spares[n.val - 136].place

/-- The CIC order of a slot (R34, R46). -/
def State.slotOrder (s : State) (n : Fin 170) : Nat := orderOf s.live (s.slotChan n)

/-- One clock of cascaded integrators: each adds the value of the one before it. -/
def integrate (x : Int) : List Int → List Int
  | [] => []
  | y :: ys => (y + x) :: integrate (y + x) ys

/-- One MOD clock of a section of some order (R35, R46): a code whose parity failed is replaced by the one before it. -/
def Slot.tick (order : Nat) (t : Slot) (c : Option Int) : Slot :=
  let code := c.getD t.code
  { t with
    code := code, bad := if c.isNone then min 3 (t.bad + 1) else 0
    integ := integrate code (t.integ.take order) ++ t.integ.drop order }

/-- A run of three parity errors on the hop ends or lasts within these clocks (R35). -/
def Slot.hopFault : List (Option Int) → Slot → Bool
  | [], _ => false
  | c :: cs, t => (c.isNone && 2 ≤ t.bad) || Slot.hopFault cs { t with bad := if c.isNone then min 3 (t.bad + 1) else 0 }

/-! ### The comb (R46, R48, R51) -/

/-- The differences of a list, newest first. -/
def diffs : List Int → List Int
  | a :: b :: rest => (a - b) :: diffs (b :: rest)
  | _ => []

/-- The N-th difference of the latched values, newest first (R46: differential delay 1). -/
def comb : Nat → List Int → Int
  | 0, l => l.headD 0
  | n + 1, l => comb n (diffs l)

/-- The check of a latched value (R51): its parity, and its frame count against the engine's own. -/
def Latched.ok (count : Nat) (l : Latched) : Bool := l.parity && l.count.val = count % 8

/-- One frame of a slot's section (R46, R48, R51): 12 clocks, and the value of its last integrator latched with its tag and checked.
The value as the section latched it stays in the history and enters the differences of the frames that follow: DESIGN CHOICE,
log 76. -/
def Slot.latch (order count : Nat) (l : Latch) (t : Slot) : Slot :=
  let t1 := l.codes.foldl (Slot.tick order) t
  let x : Latched := ⟨nth t1.integ (order - 1) 0, l.parity, l.count⟩
  { t1 with hist := (x :: t.hist).take 64, fails := if x.ok count then 0 else min 2 (t.fails + 1) }

/-- The comb output of a slot's newest frame (R46, R51, R252): open where the check fails or the hand-off is stopped. -/
def Slot.deliver (order : Nat) (held : Bool) (t : Slot) : Slot :=
  let out := comb order ((t.hist.take (order + 1)).map Latched.value)
  { t with outs := pushFrame (if held || t.fails ≠ 0 then none else some out) t.outs }

/-- What the newest frame of a slot declares (R35, R51): three parity errors in a row on the hop, or a second frame in a row that
fails, is a hard fault; a good frame after a single failed one counts that one in IPERR. -/
def State.slotCheck (old : Vector Slot 170) (x : Fin 170 × Latch) (s : State) : State :=
  let n := x.1
  let fails := s.slots[n].fails
  if Slot.hopFault x.2.codes old[n] || 2 ≤ fails then s.modFault n (causeCode .parity)
  else if fails = 0 && old[n].fails = 1 && !(136 ≤ n.val && (s.spares.toList.map Spare.parked).getD (n.val - 136) false) then
    s.onChan (s.slotChan n) fun c => { c with iperr := sat 0xFFFF (c.iperr + 1) }
  else s

/-- What a slot's section brings in this frame; a slot that the list does not reach brings nothing, and its checks pass. -/
def State.latchOf (s : State) (latches : List Latch) (n : Fin 170) : Latch := nth latches n.val ⟨[], true, Fin.ofNat 8 s.flt.frames⟩

/-- Every slot latches its frame (R48). -/
def State.latchSlots (latches : List Latch) (s : State) : State :=
  { s with slots := Vector.ofFn fun n => s.slots[n].latch (s.slotOrder n) s.flt.frames (s.latchOf latches n) }

/-- Every slot delivers its comb output; while the hand-off is stopped, none does (R252). -/
def State.deliverSlots (s : State) : State :=
  { s with slots := Vector.ofFn fun n => s.slots[n].deliver (s.slotOrder n) s.flt.combStop }

/-- The lockstep comparison of the two comb copies (R251, R252): up to 45 disagreeing slots are recomputed within the
frame; a second disagreement, or more slots, stops the hand-off, and the run that is bridged begins. -/
def State.combCompare (disagree : List Nat) (again : Bool) (suspect : Fin 2) (s : State) : State :=
  let fault := fun (persistent : Bool) (n : Nat) (s : State) =>
    s.raise .engFault .device (le 1 0 ++ le 1 (flag 0 persistent) ++ le 2 n)
  if s.flt.combFenced.isSome || s.flt.combStop || disagree.isEmpty then s
  else if again || 45 < disagree.length then
    fault true (disagree.headD 0)
      { s with flt := { s.flt with combStop := true, combSusp := suspect }, chans := s.chans.map (Chan.openGap .comb s.clock none) }
  else chain disagree (fault false) s

/-! ### The main path's line (R36, R38, R50) -/

/-- The spare of a channel's group carries the channel on while its working modulator is reconnected (R36, R42). -/
def Spare.carries (p : Spare) (k : Fin 136) : Bool := p.still.any fun x => x.1 = placeOf k

/-- A spare that has failed. -/
def Spare.down (p : Spare) : Bool := match p.st with | .failed => true | _ => false

/-- The newest comb frame of a channel's main path: the spare's where it carries the channel with a valid output, none between a
hard fault and its splice, where a failed spare carried it, while the hand-off is stopped or until the PLL has relocked, else the
working modulator's. -/
def State.lineInput (s : State) (k : Fin 136) : Option Int :=
  let c := s.chans[k]
  let spare := s.spares[groupOf k]
  let carried := c.injected && spare.carries k
  let slot := if carried || (c.onSpare && spare.fresh ≠ 0) then spareSlot (groupOf k) else ⟨k.val, by omega⟩
  if c.splicing || (carried && spare.down) || s.flt.combStop || s.flt.relock ≠ 0 then none else s.slots[slot].outs.headD none

/-- A spare that is connected to a channel has one frame more (R34), and one that carries a channel on has it carried for one frame
more (R36). -/
def Spare.frame (p : Spare) : Spare :=
  let p1 := { p with still := p.still.bind fun x => if 1 < x.2 then some (x.1, x.2 - 1) else none }
  if p.parked || p.phase = 1 || p.down then p1
  else if 1 < p.wait then { p1 with wait := p.wait - 1 }
  else { p1 with wait := 0, fresh := min lineLength (p.fresh + 1) }

/-- A channel's working modulator is back where its spare no longer carries it on (R36, R42). -/
def Chan.return_ (clock : Nat) (before after : Spare) (k : Fin 136) (c : Chan) : Chan :=
  if before.carries k && !after.carries k && c.injected then { (c.endGap .splice clock) with injected := false } else c

/-- The run of frames that come from the spare begins or ends with the frame of an instant at the pins (R165). -/
def Chan.carry (t : Nat) (c : Chan) : Chan :=
  if c.onSpare = (c.openRun .carried).isSome then c
  else if c.onSpare then c.openGap .carried t none
  else c.endGap .carried t

/-- Every channel's line takes its frame, after the spares have taken theirs. -/
def State.frameLines (s : State) : State :=
  let s1 := { s with
    spares := s.spares.map Spare.frame
    chans := Vector.ofFn fun k => s.chans[k].return_ s.clock s.spares[groupOf k] (s.spares[groupOf k]).frame k }
  { s1 with chans := Vector.ofFn fun k =>
      (Chan.carry (s.clock - surveyDelay) { s1.chans[k] with line := pushFrame (s1.lineInput k) s1.chans[k].line }) }

/-! ### The main-path filters (R52) -/

/-- The output of a transversal filter on inputs, newest first. -/
def fir (taps inputs : List Rat) : Rat := sumR (List.zipWith (· * ·) taps inputs)

/-- A zero after every element but the last. -/
def spread : List Rat → List Rat
  | [] => []
  | [a] => [a]
  | a :: l => a :: 0 :: spread l

/-- Taps of a linear-phase filter from its centre tap and those to either side of it. -/
def linearPhase (centre : Rat) (side : List Rat) : List Rat := side.reverse ++ centre :: side

/-- The taps of a half-band stage (R52): linear phase, 1/2 at the centre, and every second tap 0. -/
def halfBandTaps (stage : Nat) : List Rat := linearPhase (1 / 2) (spread (Config.halfBand stage))

/-- A stage that halves the rate: its outputs for inputs in pairs, oldest first, and its history after them. -/
def halve (taps : List Rat) : List Rat → List Rat → List Rat × List Rat
  | a :: b :: xs, h =>
    let h1 := (b :: a :: h).take taps.length
    let (ys, h2) := halve taps xs h1
    (fir taps h1 :: ys, h2)
  | _, h => ([], h)

/-- One sample of the 51.2 ksps stream from eight comb frames, oldest first, with the lowpass of a CIC order (R52). -/
def Filter.step (order : Nat) (xs : List Rat) (f : Filter) : Rat × Filter :=
  let (a, h1) := halve (halfBandTaps 1) xs f.h1
  let (b, h2) := halve (halfBandTaps 2) a f.h2
  let (c, h3) := halve (halfBandTaps 3) b f.h3
  let taps := Config.lowpass order
  let low := (c.reverse ++ f.low).take taps.length
  (fir taps low, ⟨h1, h2, h3, low⟩)

/-- Comb frames of a line as the filters take them: one that is still open is a free value (log 77). -/
def taken (frame : Nat) (l : List (Option Int)) : List Rat :=
  l.zipIdx.map fun x => ((x.1.getD (Config.openFrame frame x.2) : Int) : Rat)

/-- The eight frames of a line that a hand-off takes at a comb frame, oldest first: those before them wait for interpolation
(log 77). -/
def handOff (frame : Nat) (l : List (Option Int)) : List Rat := (taken frame ((l.drop (lineLength - 8)).take 8)).reverse

/-! ### The DC blocker and the Rogowski integrator (R27, R53, R54) -/

/-- The rate of the stream before the resampler (R52). -/
def streamRate : Rat := 51200

/-- The corner of the DC blocker in Hz (R53). -/
def cornerHz (code : Nat) : Rat := 2 ^ code / 2

/-- The estimate after a sample (R53): a first-order lowpass with the corner set. -/
def dcTrack (code : Nat) (est x : Rat) : Rat := est + Config.firstOrder (cornerHz code / streamRate) * (x - est)

/-- The pole of the Rogowski integrator: a leak with its corner at 0.01 Hz (R27). -/
def integratorPole : Rat := 1 - Config.firstOrder (1 / 100 / streamRate)

/-- The magnitude of 1 − pole × e^(−j·2π·f / rate), the inverse of the integrator's gain at a frequency (R27). -/
def integratorLoss (hz : Rat) : Rat :=
  Config.sqrt (1 - 2 * integratorPole * Config.cosTurn (hz / streamRate) + integratorPole * integratorPole)

/-- The nominal line frequency in force (R75). -/
def nominalHz (sixty : Bool) : Rat := if sixty then 60 else 50

/-- One sample of the Rogowski integrator, of gain 1 at the nominal line frequency (R27). -/
def integrator (sixty : Bool) (y x : Rat) : Rat := integratorPole * y + integratorLoss (nominalHz sixty) * x

/-- The estimate is frozen (R54). -/
def State.dcFrozen (s : State) (k : Fin 136) : Bool := s.chans[k].autoFrozen.isSome || bit (s.live (.ch k .filt)) 10

/-- A channel that is FAILED delivers zero (R37). -/
def Chan.failedNow (c : Chan) : Bool := match c.st with | .failed => true | _ => false

/-- A value limited to ±full scale (R25). -/
def clipped (x : Rat) : Rat := maxR (-1) (minR 1 x)

/-- A sample of the decimated output passes the DC blocker, and on a Rogowski channel the integrator (R25, R27, R53, R54, R56): it
is clipped at ±full scale, and its flag rides on it. The integrator runs on every channel at all times, and what it holds as SENSOR 2 is
switched in is what it has come to by then (DESIGN CHOICE, log 117). -/
def State.streamSample (s : State) (k : Fin 136) (c : Chan) : Chan :=
  let (y, main) := c.main.step (orderOf s.live k) (handOff s.flt.frames c.line)
  let x := if c.failedNow then 0 else clipped y
  let est := if s.dcFrozen k then c.dcEst else dcTrack (fld (s.live (.ch k .filt)) 9 8) c.dcEst x
  let integ := integrator s.tb.nomf60 c.integ (x - est)
  let out := if c.failedNow then 0 else if sensorOf s.live k = 2 then integ else x - est
  { c with
    main := main, raw := x, dcEst := est, dcSum := (x - est) :: c.dcSum, integ := integ
    stream := (⟨out, decide (1 < absR y)⟩ :: c.stream).take 64 }

/-! ### The comparison of a dwell (R33, R39) -/

/-- A pair of a working and a spare sample enters the sums of a comparison (R39). -/
def CmpSums.add (w s : Rat) (x : CmpSums) : CmpSums := ⟨x.ws + w * s, x.ss + s * s, x.d + (w - s), x.ww + w * w, x.n + 1⟩

/-- Two sums together. -/
def CmpSums.plus (a b : CmpSums) : CmpSums := ⟨a.ws + b.ws, a.ss + b.ss, a.d + b.d, a.ww + b.ww, a.n + b.n⟩

/-- A pair of samples of a dwell (R39): 1.25 ms pass first, and whole line cycles count. -/
def Dwell.sample (w s : Rat) (x : Dwell) : Dwell :=
  if x.skip ≠ 0 then { x with skip := x.skip - 1 } else if x.whole then { x with cyc := x.cyc.add w s } else x

/-- A line cycle ends within a dwell (R39). -/
def Dwell.boundary (x : Dwell) : Dwell :=
  if x.skip ≠ 0 then x else { x with whole := true, cyc := .zero, sums := if x.whole then x.sums.plus x.cyc else x.sums }

/-- A spare's comparison decimator gives a sample, which is compared with its channel's while it shadows it (R33, R39). -/
def State.spareSample (s : State) (g : Fin 34) (p : Spare) : Spare :=
  let k := groupChan g p.pos
  let (y, main) := p.main.step (orderOf s.live k) (handOff s.flt.frames s.slots[(spareSlot g).val].outs)
  let rotating := match p.st with | .rotating => true | _ => false
  { p with
    main := main
    dwell := if rotating && !p.parked && p.fresh ≠ 0 && p.dwell.pos = p.pos then p.dwell.sample s.chans[k].raw (clipped y) else p.dwell }

/-! ### The search for crossings (R69, R283) -/

/-- The taps of the fourth-order acquisition lowpass on its inputs (R69). -/
def acqFeed : List Rat := (span 0 4).map Config.acqFeed

/-- The taps of the acquisition lowpass on its outputs before (R69). -/
def acqBack : List Rat := (span 1 4).map Config.acqBack

/-- The argument in turns of the sum of taps, each turned back by its place, at some turns a sample. -/
def tapArg (turn : Rat) (taps : List Rat) : Rat :=
  let xs := (List.range taps.length).zip taps
  Config.argTurn (sumR (xs.map fun x => x.2 * Config.cosTurn (turn * (x.1 : Rat))))
    (-(sumR (xs.map fun x => x.2 * Config.sinTurn (turn * (x.1 : Rat)))))

/-- The delay of the acquisition lowpass at a frequency, in SYS ticks (R69): the phase by which its taps lag, which is less than a
turn at order four. -/
def acqDelay (hz : Rat) : Rat :=
  let lag := tapArg (hz / streamRate) (1 :: acqBack) - tapArg (hz / streamRate) acqFeed
  (lag - ((lag.floor : Int) : Rat)) / hz * (sysHz : Rat)

/-- One sample of the acquisition lowpass (R69): a positive-going crossing is placed between samples by linear interpolation. -/
def Acq.sample (place : Nat) (x : Rat) (a : Acq) : Acq :=
  let ins := (x :: a.ins).take 5
  let y := fir acqFeed ins - fir acqBack a.outs
  let outs := (y :: a.outs).take 4
  let before := a.outs.headD 0
  let peak := maxR a.peak (absR y)
  if before < 0 && 0 ≤ y then
    { ins := ins, outs := outs, cross := (((place : Rat) - 1 + before / (before - y)) :: a.cross).take 2, peak := 0, between := peak }
  else { a with ins := ins, outs := outs, peak := peak }

/-- Crossings are sought from the time the measurement path is ready until the first metered cycle (R69, R283). -/
def State.acquiring (s : State) : Bool := s.dev.startup.pathReady && !s.dev.startup.metering

/-- Each candidate's stream sample enters its search (R69). -/
def State.acquire (place : Nat) (s : State) : State :=
  let acq := Vector.ofFn fun (i : Fin 8) =>
    s.tb.acq[i].sample place ((s.chans[128 + i.val].stream.map StreamSamp.x).headD 0)
  if s.acquiring then { s with tb := { s.tb with acq := acq } } else s

/-! ### The wideband branch (R48, R61, R161, R165) -/

/-- The channel of an analysis slot in a rotation set (R164). -/
def surveyChan (set slot : Nat) : Fin 136 :=
  if slot < 8 then Fin.ofNat 136 (128 + slot) else Fin.ofNat 136 (16 * (set % 8) + (slot - 8))

/-- The pin instant of comb slot 0 of the frame that is analysed now: that frame's, less the delay of the branch (R59, R167; log 85). -/
def State.surveyInstant (s : State) : Nat := s.clock - surveyLag * (frameTicks * tickParts) - surveyDelay

/-- EN of a channel, and whether its ORDER is 4, at an instant at the pins (R165). -/
def State.settingAt (s : State) (k : Fin 136) (t : Nat) : Bool × Bool :=
  let now := (chanOn s.live k, decide (orderOf s.live k = 4))
  match s.chans[k].was with
  | some x => if t < x.1 then x.2 else now
  | none => now

/-- The comb frames by which the 51.2 ksps stream of a channel of ORDER 4 lies behind the wideband branch: 309.6 µs less 16.7 µs
(R58). -/
def streamBehind : Nat := 120

/-- The clip flag of a channel in the frame that is analysed now: that of the stream sample of the same instant (R25, R165). -/
def State.surveyClip (s : State) (k : Fin 136) : Bool :=
  ((s.chans[k].stream.drop (s.flt.frames / 8 - (s.flt.frames + streamBehind - surveyLag) / 8)).map StreamSamp.clip).headD false

/-- The compensation filter of the branch (R161): 11 taps, linear phase. -/
def wbTaps : List Rat := linearPhase (Config.wbTaps.headD 0) ((Config.wbTaps.drop 1).take 5)

/-- The Hann window of 2048 samples (R161). -/
def hann (i : Nat) : Rat := (1 - Config.cosTurn ((i : Rat) / 2048)) / 2

/-- The squared magnitude of bin k of a window, oldest sample first (R161, R162): the window is shifted by −100 Hz, so that the
bin is centred on 200 k + 100 Hz, and a sinusoid at its centre reads its own rms value. -/
def binSquare (l : List Rat) (k : Nat) : Rat :=
  let turn := fun (i : Nat) => ((2 * k + 1) * i : Rat) / 4096
  let xs := (List.range 2048).zip l
  let re := sumR (xs.map fun x => hann x.1 * x.2 * Config.cosTurn (turn x.1))
  let im := sumR (xs.map fun x => hann x.1 * x.2 * Config.sinTurn (turn x.1))
  2 * (re * re + im * im) / (1024 * 1024)

/-- The bins of the reported band (R162). -/
def surveyBins : List Nat := span 10 740

/-- A window that is full is analysed where every sample of it counts, and overlaps the next by 1024 samples (R161, R165). -/
def WbSlot.window (w : WbSlot) : WbSlot :=
  if w.buf.length < 2048 then w
  else
    let buf := w.buf.take 1024
    if w.buf.all Prod.snd then
      { w with
        buf := buf, windows := w.windows + 1
        sums := List.zipWith (· + ·) w.sums (surveyBins.map (binSquare (w.buf.map Prod.fst).reverse)) }
    else { w with buf := buf }

/-- A comb frame of an analysis slot's channel (R61, R161, R165). -/
def State.surveySample (s : State) (i : Fin 24) (w : WbSlot) : WbSlot :=
  let k := surveyChan s.wb.next i.val
  let c := s.chans[k]
  let (on, four) := s.settingAt k s.surveyInstant
  let t := ticksOf s.surveyInstant
  let good := on && four && !c.within [.supp, .back, .dead] t
  let x := fir wbTaps ((taken s.flt.frames ((c.line.drop surveyLag).take 11)).map (· * Config.combScale))
  { w with
    buf := (x, good) :: w.buf, off := w.off + if on then 0 else 1, order := w.order + if four then 0 else 1
    failed := w.failed + if c.within [.dead] t then 1 else 0, bad := w.bad || !good, subst := w.subst || c.within [.carried] t
    brdg := w.brdg || c.within bridges t, clip := w.clip || s.surveyClip k }.window

/-- The survey may run: the path is fitted, EN = 1, the device is in RUN and no warning stands (R2, R166). -/
def State.surveyOn (s : State) : Bool :=
  s.dev.variant ≠ .bgw && bit (s.live .wbCfg) 0 && s.dev.st = .run && !s.pwr.pfail

/-- A frame is analysed in every slot of a running set, and the interval of 81 920 frames counts on (R161, R166). -/
def State.survey (s : State) : State :=
  let run := s.wb.running && s.wb.frames < setFrames
  let slots := if run then Vector.ofFn fun i => s.surveySample i s.wb.slots[i] else s.wb.slots
  let past := (s.flt.degraded, s.wb.stepNow) :: s.wb.past
  let mark := past.getD surveyLag (false, false)
  { s with wb :=
    { s.wb with
      slots := slots, frames := s.wb.frames + 1, past := past.take surveyLag, stepNow := false
      onFor := if s.surveyOn then min (setFrames + 1) (s.wb.onFor + 1) else 0
      degr := s.wb.degr || (run && mark.1), stepped := s.wb.stepped || (run && mark.2) } }

/-! ### One frame (R48) -/

/-- The frame runs by until the PLL has relocked, where the bridge of R260 and R261 ends. -/
def State.relockFrame (s : State) : State :=
  if s.flt.relock = 0 then s
  else
    let s1 := { s with flt := { s.flt with relock := s.flt.relock - 1 } }
    if s1.flt.relock = 0 then { s1 with chans := s.chans.map (Chan.endGap .clock s1.clock) } else s1

/-- Every eighth frame gives a sample of the 51.2 ksps stream of every channel and of every spare's comparison decimator. -/
def State.handOffFrame (s : State) : State :=
  let s1 := { s with chans := Vector.ofFn fun k => s.streamSample k s.chans[k] }
  let s2 := { s1 with spares := Vector.ofFn fun g => s1.spareSample g s1.spares[g] }
  s2.acquire (s.flt.frames / 8)

/-- The instant at which the running cycle ends has come at the pins: what a folio cut there shows is put away (R182, R194). -/
def State.takePins (s : State) : State :=
  if s.metering && s.fol.pins.isNone && s.tb.start + s.tb.period ≤ s.clock then
    { s with fol := { s.fol with pins := some ⟨s.chans, s.spares.map Spare.word, s.anv.blots, s.dev.st⟩ } }
  else s

/-- COMB_FRAME (R48): every slot is latched and computed and checked, the copies are compared, and the frame is handed to the main
path and to the wideband branch. -/
def State.combFrame (latches : List Latch) (disagree : List Nat) (again : Bool) (suspect : Fin 2) (s : State) : State :=
  let s1 := chain ((List.finRange 170).map fun n => (n, s.latchOf latches n)) (State.slotCheck s.slots) (s.latchSlots latches)
  let s2 := (s1.combCompare disagree again suspect).deliverSlots.frameLines.survey
  let s3 := { s2 with flt := { s2.flt with frames := s2.flt.frames + 1 } }.relockFrame.takePins
  if s3.flt.frames % 8 = 0 then s3.handOffFrame else s3

/-- The row's meaning. -/
def execCombFrame (latches : List Latch) (disagree : List Nat) (again : Bool) (suspect : Fin 2) (s : State) :
    Host.Outcome State Fault Refusal := .next (if s.powered then s.combFrame latches disagree again suspect else s)

/-- ENG_FENCED (R252): the copy that fails its self-test is fenced, or the copy that disagreed with the recomputation
when both pass; hand-off resumes, and the bridged run ends. -/
def execEngFenced (failed : Option (Fin 2)) (s : State) : Host.Outcome State Fault Refusal :=
  .next (if !s.flt.combStop then s
    else
      let copy := failed.getD s.flt.combSusp
      let s1 := { s with
        flt := { s.flt with combStop := false, combFenced := some copy }
        chans := s.chans.map (Chan.endGap .comb s.clock) }
      (chain allChans State.lateSplice s1).note .engCombSimplex .engFenced .device (le 1 0 ++ le 1 copy.val))

end Sys2Proof.Machine
end

