-- ==== Sys2Proof/Machine/Signal.lean ====
section
/-!
DEFINITION. What a closed cycle of samples gives: the calibrated scale, mean squares, rms values, the fundamental phasor
and the quantities of one phase (R84 to R89), and the instants of samples (R62, R65).
-/
namespace Sys2Proof.Machine

/-! ### Instants -/

/-- A period in seconds (R64): SYS ticks with 16 fractional bits. -/
def periodSec (p : Nat) : Rat := (p : Rat) / ((65536 * sysHz : Nat) : Rat)

/-- An angle of the running cycle as a reported instant (R65). -/
def State.stampAt (s : State) (angle : Nat) : Stamp := ⟨s.tb.cycle, angle, s.calAt (s.tb.start + s.tb.period * angle / 65536)⟩

/-- An angle of the cycle before the running one as a reported instant (R65). -/
def State.stampBefore (s : State) (angle : Nat) : Stamp :=
  ⟨s.tb.prevBoundary.cycle, angle, s.calAt (s.tb.prevStart + (s.tb.start - s.tb.prevStart) * angle / 65536)⟩

/-! ### Samples -/

/-- A sample as a fraction of full-scale peak (R24). -/
def unitOf (x : Int) : Rat := (x : Rat) / ((2 ^ 31 : Nat) : Rat)

/-- The samples of a channel in the cycle that closes, oldest first. -/
def Chan.cycle (c : Chan) : List Samp := c.cur.reverse

/-- Samples as fractions of full-scale peak. -/
def fractions (l : List Samp) : List Rat := l.map fun x => unitOf x.x

/-- A calibration gain in Q2.30 (R86). -/
def gainQ (w : Word) : Rat := (w.toNat : Rat) / ((2 ^ 30 : Nat) : Rat)

/-- FS × GAIN of a channel, with the live calibration (R85, R87). -/
def State.scale (s : State) (k : Fin 136) : Rat := fullScale s.live k * gainQ s.mcal.live.ch[k].gain

/-- An offset in units of 2^-48 of the squared full-scale peak (R86). -/
def offset48 (w : Word) : Rat := (w.toNat : Rat) / ((2 ^ 48 : Nat) : Rat)

/-- The mean square of samples. -/
def meanSq (l : List Rat) : Rat := meanR (l.map fun x => x * x)

/-- What RMSOFS takes from the mean square of a channel's calibrated samples (R87). -/
def State.rmsOfs (s : State) (k : Fin 136) : Rat := s.scale k * s.scale k * offset48 s.mcal.live.ch[k].rmsofs

/-- The square root of what is left of a mean square (R87). -/
def rootOf (x : Rat) : Rat := Config.sqrt (maxR 0 x)

/-- The rms value of a channel over samples (R87). -/
def State.rmsOf (s : State) (k : Fin 136) (l : List Rat) : Rat :=
  s.scale k * rootOf (meanSq l - offset48 s.mcal.live.ch[k].rmsofs)

/-- The component of samples at an order of their window, in rms units (R87, R150). -/
def phasorAt (order : Nat) (l : List Rat) : Rat × Rat :=
  let turn := fun (j : Nat) => ((order * j : Nat) : Rat) / (l.length : Rat)
  let k := Config.sqrt 2 / (l.length : Rat)
  let xs := (List.range l.length).zip l
  (k * sumR (xs.map fun x => x.2 * Config.cosTurn (turn x.1)), -(k * sumR (xs.map fun x => x.2 * Config.sinTurn (turn x.1))))

/-- The raw fundamental phasor of one cycle (R87). -/
def phasor (l : List Rat) : Rat × Rat := phasorAt 1 l

/-- The squared magnitude of a phasor. -/
def normSq (z : Rat × Rat) : Rat := z.1 * z.1 + z.2 * z.2

/-- The reported fundamental Y1 of a channel (R87). -/
def State.fundamental (s : State) (k : Fin 136) (l : List Rat) : Rat :=
  s.scale k * rootOf (normSq (phasor l) - offset48 s.mcal.live.ch[k].offs)

/-- A turn fraction reduced to (−1/2, 1/2] (R88). -/
def reduceTurn (x : Rat) : Rat := x - ((-((1 / 2 - x).floor) : Int) : Rat)

/-! ### One phase -/

/-- The samples a phase quantity is formed from: voltage and current as fractions, and both calibrated with the two cycles before in
front (R89). -/
structure PhaseSamples where
  u  : List Rat
  i  : List Rat
  u2 : List Rat
  i2 : List Rat

/-- H1, the transformer's gain at the first order (R89). -/
def hilbertGain : Rat := 9993 / 10000

/-- Sample m of 128 to a cycle, counted from the start of the last cycle of the samples given, oldest first: the one lowpass of the
Hilbert engine on samples up to 4 m (R89). That the lowpass ends at sample 4 m, its own delay adding to that of the product window, is the
model's (DESIGN CHOICE, log 120). -/
def decimated (l : List Rat) (m : Int) : Rat :=
  let taps := linearPhase (Config.hilbertLowpass.headD 0) (Config.hilbertLowpass.drop 1)
  let place := fun (t : Nat) => (l.length : Int) - 512 + 4 * m - (t : Int)
  sumR (((List.range taps.length).zip taps).map fun x => x.2 * if place x.1 < 0 then 0 else nth l (place x.1).toNat 0)

/-- The output of the 63-tap antisymmetric Hilbert transformer at sample m; its centre is 31 samples back (R89). -/
def hilbert (l : List Rat) (m : Int) : Rat :=
  sumR ((span 1 31).map fun q => Config.hilbertTap q * (decimated l (m - 31 - (q : Int)) - decimated l (m - 31 + (q : Int))))

/-- Q_H of a cycle (R89): the mean over its 128 samples of the transformer's output on the voltage and the current 31 samples
earlier. -/
def hilbertMean (u i : List Rat) : Rat :=
  sumR ((List.range 128).map fun m => hilbert u (m : Int) * decimated i ((m : Int) - 31)) / 128

/-- The quantities of a phase (R88, R89); `mean` is the mean of the products of raw samples. -/
def State.phaseQ (s : State) (p : Fin 128) (c : PhaseChans) (x : PhaseSamples) (mean : Rat) : PhaseQ :=
  let cal := s.mcal.live.pt[p]
  let (ku, ki) := (s.scale c.volt, s.scale c.curr)
  let (zu, zi) := (phasor x.u, phasor x.i)
  let qraw := ku * ki * (zu.2 * zi.1 - zu.1 * zi.2)
  let qh := hilbertMean x.u2 x.i2
  let u := s.rmsOf c.volt x.u
  let i := s.rmsOf c.curr x.i
  let theta := 360 * reduceTurn (Config.argTurn zu.1 zu.2 - Config.argTurn zi.1 zi.2)
  let qofs := f32D cal.qofs[c.ph]
  { u := u, i := i, u1 := s.fundamental c.volt x.u, i1 := s.fundamental c.curr x.i, theta := theta
    p := gainQ cal.pgain * (ku * ki * mean) + f32D cal.pofs[c.ph]
    qf := gainQ cal.qgain * qraw + qofs
    qt := gainQ cal.qgain * (qh + (1 - hilbertGain) * qraw) + qofs
    qraw := qraw, qh := qh, s := gainQ cal.sgain * u * i, d := Config.cosTurn (theta / 360) }

/-- A fraction f of one set of quantities and the rest of another (R102). -/
def PhaseQ.blend (f : Rat) (m v : PhaseQ) : PhaseQ :=
  let mix := fun a b => (1 - f) * a + f * b
  ⟨mix m.u v.u, mix m.i v.i, mix m.u1 v.u1, mix m.i1 v.i1, mix m.theta v.theta, mix m.p v.p, mix m.qf v.qf, mix m.qt v.qt,
   mix m.qraw v.qraw, mix m.qh v.qh, mix m.s v.s, mix m.d v.d⟩

/-- A list of samples with those at marked places replaced (R102); places beyond the replacement read 0. -/
def replaceAt (marks : List Bool) (xs : List Rat) (base : List Int) : List Rat :=
  ((List.range xs.length).zip (marks.zip xs)).map fun x => if x.2.1 then unitOf (nth base x.1 0) else x.2.2

/-- A phase in the cycle that closes (R88, R89, R101, R102). -/
structure PhaseCycle where
  q    : PhaseQ
  b    : Nat        -- bridged instants
  dead : Bool       -- a channel FAILED, or under the suppression that follows
  us   : List Rat   -- samples that enter the point's own sums, raw fractions
  is   : List Rat

/-- A phase that contributes nothing (R101). -/
def PhaseCycle.none : PhaseCycle := ⟨.zero, 0, true, [], []⟩

/-- The samples of the two cycles before the one that closes, as fractions, oldest first (R89): as the point used them, or, where it
used none of them, as the channel's resampled stream gave them. -/
def State.usedBefore (s : State) (k : Fin 136) (used : List Rat) : List Rat :=
  if used.isEmpty then (s.pq.history.take 2).reverse.flatMap fun h => fractions h[k].samps else used

/-- A phase of a point over the cycle that closes (R88, R101, R102): every sample of Q_H carries the calibration of that cycle
(R84). -/
def State.phaseCycle (s : State) (p : Fin 128) (c : PhaseChans) : PhaseCycle :=
  let (us, is) := (s.chans[c.volt].cycle, s.chans[c.curr].cycle)
  if (us ++ is).any fun x => x.dead || x.back then .none
  else
    let ph := s.pts[p].phases[c.ph]
    let marks := (us.zip is).map fun x => x.1.brdg || x.2.brdg
    let b := (marks.filter id).length
    let (xu, xi) := (fractions us, fractions is)
    let valid := (marks.zip (xu.zip xi)).filter fun x => !x.1
    let mean := meanR (valid.map fun x => x.2.1 * x.2.2)
    let (ru, ri) := (replaceAt marks xu ph.baseU, replaceAt marks xi ph.baseI)
    let q := s.phaseQ p c ⟨ru, ri, (s.usedBefore c.volt ph.lastU ++ ru).map (s.scale c.volt * ·),
      (s.usedBefore c.curr ph.lastI ++ ri).map (s.scale c.curr * ·)⟩ mean
    ⟨if b = 0 then q else q.blend ((b : Rat) / (xu.length : Rat)) (ph.prev.getD .zero), b, false, ru, ri⟩

end Sys2Proof.Machine
end

