-- ==== Sys2Proof/Machine/Energy.lean ====
section
/-!
DEFINITION. Energy at a cycle closure: point quantities, states, paths, the sorting of energy into the totals, pending sums,
and the balance of a bus (R90 to R103, R108, R112, R121, R122).
-/
namespace Sys2Proof.Machine

/-! ### Quantities of a point (R90, R91) -/

/-- Samples added one by one; the longer list goes on alone. -/
def addLists : List Rat → List Rat → List Rat
  | a :: as, b :: bs => (a + b) :: addLists as bs
  | [], bs => bs
  | as, [] => as

/-- The rms value of calibrated samples, without RMSOFS (R90, R91). -/
def plainRms (l : List Rat) : Rat := Config.sqrt (meanSq l)

/-- The phases of a point with what the closing cycle gives for each. -/
abbrev Phases := List (PhaseChans × PhaseCycle)

/-- A quantity summed over the phases. -/
def sumPhases (l : Phases) (f : PhaseQ → Rat) : Rat := sumR (l.map fun x => f x.2.q)

/-- The calibrated voltage samples of a phase place. -/
def State.voltsOf (s : State) (l : Phases) (ph : Nat) : List Rat :=
  match l.find? fun x => x.1.ph.val = ph with
  | some x => x.2.us.map (s.scale x.1.volt * ·)
  | none => []

/-- The rms value of a line voltage (R90). -/
def State.lineRms (s : State) (l : Phases) (a b : Nat) : Rat :=
  plainRms (addLists (s.voltsOf l a) ((s.voltsOf l b).map (-·)))

/-- The rms value of the per-sample sum of the phase currents (R91). -/
def State.sumCurrents (s : State) (l : Phases) : Rat :=
  plainRms (l.foldl (fun acc x => addLists acc (x.2.is.map (s.scale x.1.curr * ·))) [])

/-- The neutral channel of a point while it can be used: enabled, not FAILED, not under the suppression that follows. -/
def State.neutralInUse (s : State) (p : Fin 128) : Option (Fin 136) :=
  (neutralChan s.live p).filter fun k => chanOn s.live k && !s.chans[k].cur.any fun x => x.dead || x.back

/-- I_N (R91). -/
def State.neutralCurrent (s : State) (p : Fin 128) (l : Phases) : Rat :=
  let own := (s.neutralInUse p).map fun k => s.rmsOf k (fractions s.chans[k].cycle)
  match topoOf s.live (quadOf p) with
  | 0 => own.getD (s.sumCurrents l)
  | 1 => s.sumCurrents l
  | _ => own.getD 0

/-- QDEF of a point: total reactive power is registered (R90). -/
def totalReactive (f : Reg → Word) (p : Fin 128) : Bool := bit (f (.pt p .mode)) 9

/-- The registered reactive power of a phase. -/
def PhaseQ.reactive (total : Bool) (q : PhaseQ) : Rat := if total then q.qt else q.qf

/-- The effective apparent power (R90). -/
def State.effectivePower (s : State) (p : Fin 128) (l : Phases) (iN : Rat) : Rat :=
  let sgain := gainQ s.mcal.live.pt[p].sgain
  let i2 := sumPhases l fun q => q.i * q.i
  let u2 := sumPhases l fun q => q.u * q.u
  let sq := fun (x : Rat) => x * x
  let lines := sq (s.lineRms l 0 1) + sq (s.lineRms l 1 2) + sq (s.lineRms l 2 0)
  match topoOf s.live (quadOf p) with
  | 0 => sgain * 3 * Config.sqrt ((3 * u2 + lines) / 18) * Config.sqrt ((i2 + sq iN) / 3)
  | 1 => sgain * 3 * Config.sqrt (lines / 9) * Config.sqrt (i2 / 3)
  | _ => sumPhases l PhaseQ.s

/-- SDEF of a point (R90, R100). -/
def sdefOf (f : Reg → Word) (p : Fin 128) : Nat := fld (f (.pt p .mode)) 11 10

/-- The apparent power that SDEF selects. -/
def PointQ.apparent (sdef : Nat) (q : PointQ) : Rat := if sdef = 0 then q.sA else if sdef = 1 then q.sV else q.sE

/-- The quantities of a point (R90, R91, R105). -/
def State.pointQ (s : State) (p : Fin 128) (l : Phases) : PointQ :=
  let act := sumPhases l PhaseQ.p
  let react := sumPhases l (PhaseQ.reactive (totalReactive s.live p))
  let iN := s.neutralCurrent p l
  let q : PointQ :=
    { p := act, qf := sumPhases l PhaseQ.qf, qt := sumPhases l PhaseQ.qt, sA := sumPhases l PhaseQ.s
      sV := Config.sqrt (act * act + react * react), sE := s.effectivePower p l iN, pf := 0, iN := iN
      freq := 1 / periodSec s.tb.period }
  let ap := q.apparent (sdefOf s.live p)
  { q with pf := if ap = 0 then 0 else act / ap }

/-! ### States (R101) -/

/-- The channel that makes a point FAULTED in the closing cycle, if any (R101). -/
def State.faultOf (s : State) (p : Fin 128) : Option (Fin 136) :=
  match (phaseChans s.live p).find? fun k => s.chans[k].cur.any fun x => x.dead || x.back with
  | some k => some k
  | none => (neutralChan s.live p).filter fun k => chanOn s.live k && s.chans[k].cur.any Samp.back

/-- A sample of the point's is bridged in the closing cycle (R101), whatever the state of its phases. -/
def State.bridgedIn (s : State) (p : Fin 128) : Bool :=
  (phaseChans s.live p ++ (s.neutralInUse p).toList).any fun k => s.chans[k].cur.any Samp.brdg

/-- The state of the closing cycle (R101). -/
def State.stateOf (s : State) (p : Fin 128) : PtState :=
  if !pointOn s.live p then .off
  else if (s.faultOf p).isSome then .faulted
  else if s.pts[p].settle then .settling
  else if s.bridgedIn p then .bridged
  else if !s.mcal.loaded then .pending
  else .live

/-! ### Starting and no-load (R97, R99) -/

/-- The threshold power of a current channel for a threshold in units of 10 nV (R97). -/
def State.thresholdPower (s : State) (p : Fin 128) (k : Fin 136) (t : Nat) : Rat :=
  udin s.live (busOfQuad s.live (quadOf p)) * ((t : Rat) / 100000000 * f32D (s.live (.ch k .fs)) / (1 / 2))

/-- A path after the close of a cycle with its last values, newest first (R97). -/
def runsOn (running : Bool) (start noload : Rat) (hist : List Rat) : Bool :=
  let m := absR (meanR hist)
  if running then noload ≤ m else start ≤ m

/-- The samples of the last two cycles (R89). -/
def lastTwo (l : List Rat) : List Rat := l.drop (l.length - 1024)

/-- The paths of a phase at the close of a cycle (R97), and the base that later bridges use (R102). A phase with a channel that is
FAILED has no cycle: its paths and their histories stand still (DESIGN CHOICE, log 80); the history of the reactive path holds what
QDEF selected in each cycle (DESIGN CHOICE, log 81). -/
def State.closePhase (s : State) (p : Fin 128) (c : PhaseChans) (x : PhaseCycle) (ph : Phase) : Phase :=
  if x.dead then { ph with q := .zero, b := 0, lastU := [], lastI := [] }
  else
    let th := s.live (.pt p .thresh)
    let (start, noload) := (s.thresholdPower p c.curr (fld th 31 16), s.thresholdPower p c.curr (fld th 15 0))
    let pHist := (x.q.p :: ph.pHist).take 8
    let qHist := (x.q.reactive (totalReactive s.live p) :: ph.qHist).take 8
    let clean := x.b = 0
    { aRun := runsOn ph.aRun start noload pHist, qRun := runsOn ph.qRun start noload qHist, pHist := pHist, qHist := qHist
      q := x.q, prev := if clean then some x.q else ph.prev, b := x.b
      baseU := if clean then s.chans[c.volt].cycle.map Samp.x else ph.baseU
      baseI := if clean then s.chans[c.curr].cycle.map Samp.x else ph.baseI
      lastU := lastTwo (s.usedBefore c.volt ph.lastU ++ x.us)
      lastI := lastTwo (s.usedBefore c.curr ph.lastI ++ x.is) }

/-- A phase at the close of a cycle of SETTLING (R101, R105, R262): its quantities are reported, and nothing else of it begins. -/
def State.settlePhase (s : State) (c : PhaseChans) (x : PhaseCycle) (ph : Phase) : Phase :=
  { ph with q := x.q, b := 0, lastU := lastTwo (s.usedBefore c.volt ph.lastU ++ x.us)
            lastI := lastTwo (s.usedBefore c.curr ph.lastI ++ x.is) }

/-! ### Sorting (R92 to R96, R102) -/

/-- What one phase, or the point as a whole, offers the totals: powers that count, and their bridged parts. -/
structure Share where
  p   : Rat
  bp  : Rat
  q   : Rat
  bq  : Rat
  s   : Rat
  bs  : Rat
  run : Bool

/-- The share of a phase after its paths have been judged (R94, R95, R97, R102). -/
def Phase.share (total : Bool) (n : Nat) (before : Option PhaseQ) (ph : Phase) : Share :=
  let f : Rat := if n = 0 then 0 else (ph.b : Rat) / (n : Rat)
  let v := before.getD .zero
  let run := ph.aRun || ph.qRun
  { p := if ph.aRun then ph.q.p else 0, bp := if ph.aRun then f * v.p else 0
    q := if ph.qRun then ph.q.reactive total else 0, bq := if ph.qRun then f * v.reactive total else 0
    s := if run then ph.q.s else 0, bs := if run then f * v.s else 0, run := run }

/-- The share of a point: sums over the phases, with the apparent power SDEF selects (R93 to R95, R102). -/
def pointShare (l : List Share) (ap bs : Rat) : Share :=
  let sum := fun (f : Share → Rat) => sumR (l.map f)
  let run := l.any Share.run
  ⟨sum Share.p, sum Share.bp, sum Share.q, sum Share.bq, if run then ap else 0, if run then bs else 0, run⟩

/-- One quantity on its way to a total: its magnitude, its bridged part and that of the active power beside it. -/
structure Part where
  tot : Nat
  x   : Rat
  b   : Rat
  bp  : Rat

/-- The quadrant total of an active and a reactive quantity (R94). -/
def quadrant (p q : Rat) : Nat := if 0 ≤ p then (if 0 < q then 2 else 5) else (if 0 < q then 3 else 4)

/-- The total of an active quantity (R93). -/
def activeTotal (p : Rat) : Nat := if 0 < p then 0 else 1

/-- The total of an apparent quantity beside its active one (R95). -/
def apparentTotal (p : Rat) : Nat := if 0 ≤ p then 6 else 7

/-- Active and reactive quantities of a share; 0 adds nothing (R93, R94). -/
def Share.power (h : Share) : List Part :=
  (if h.p = 0 then [] else [⟨activeTotal h.p, absR h.p, h.bp, h.bp⟩])
    ++ (if h.q = 0 then [] else [⟨quadrant h.p h.q, absR h.q, h.bq, h.bp⟩])

/-- The apparent quantity of a share, registered while a path runs (R95). -/
def Share.apparent (h : Share) : List Part := if h.run then [⟨apparentTotal h.p, h.s, h.bs, h.bp⟩] else []

/-- The quantities of a point by its rules of direction (R93 to R95). -/
def partsOf (onSum perPhaseS : Bool) (phases : List Share) (point : Share) : List Part :=
  (if onSum then point.power else phases.flatMap Share.power)
    ++ (if !onSum && perPhaseS then phases.flatMap Share.apparent else point.apparent)

/-- Energy in 2^-32 register units, rounded to nearest, ties to even (R92). -/
def energyUnits (x : Rat) (t : Rat) : Int := roundEven (x * t / 36 * ((2 ^ 32 : Nat) : Rat))

/-- What a total receives in a cycle (R92). -/
def contribution (l : List Part) (t : Rat) (tot : Nat) : Nat :=
  (energyUnits (sumR ((l.filter (·.tot = tot)).map Part.x)) t).toNat

/-- The total that a bridged part would go to on its own (R102). -/
def bridgedTotal (tot : Nat) (b bp : Rat) : Option Nat :=
  if tot < 2 then (if b = 0 then none else some (activeTotal b))
  else if tot < 6 then (if b = 0 then none else some (quadrant bp b))
  else some (apparentTotal bp)

/-- What the BRIDGED register of a total receives (R102). Of several phases, the bridged part of a reactive or apparent contribution is sorted
by the sum of the active bridged parts of the phases that enter it (DESIGN CHOICE, log 122). -/
def bridgedPart (l : List Part) (t : Rat) (tot : Nat) : Nat :=
  let mine := l.filter (·.tot = tot)
  let (b, bp) := (sumR (mine.map Part.b), sumR (mine.map Part.bp))
  if bridgedTotal tot b bp = some tot then min (contribution l t tot) (energyUnits (absR b) t).toNat else 0

/-- Per-phase totals of a Q3P4 point: A+ and A− of phases 1 to 3 (R91, R93, R107). -/
def phaseContribution (q3p4 : Bool) (phases : List Share) (t : Rat) (i : Nat) : Nat :=
  if !q3p4 then 0
  else match phases.drop (i / 2) with
    | [] => 0
    | h :: _ => if i % 2 = 0 then (energyUnits (maxR 0 h.p) t).toNat else (energyUnits (maxR 0 (-h.p)) t).toNat

/-! ### Registration -/

/-- The three lists that a cycle of a point registers: totals, per-phase totals, BRIDGED registers. -/
structure Booking where
  tot : List Nat
  ph  : List Nat
  br  : List Nat

/-- A cycle that registers nothing. -/
def Booking.nothing : Booking := ⟨List.replicate 8 0, List.replicate 6 0, List.replicate 8 0⟩

/-- The 22 contributions in the order of the accumulators. -/
def Booking.all (b : Booking) : List Nat := b.tot ++ b.ph ++ b.br

/-- The code of an accumulator in TOTAL_WRAP and ACC_LOST (R324). -/
def accCode (i : Nat) : Nat := if i < 14 then i else i + 2

/-- Contributions enter the accumulators, which run modulo 2^96 (R92, R108). -/
def Point.add (l : List Nat) (p : Point) : Point :=
  { p with acc := Vector.ofFn fun i => (p.acc[i] + nth l i.val 0) % 2 ^ 96 }

/-- The accumulators that a list of contributions carries past their end (R108). -/
def Point.wraps (l : List Nat) (p : Point) : List Nat :=
  ((List.finRange 22).filter fun i => 2 ^ 96 ≤ p.acc[i] + nth l i.val 0).map Fin.val

/-- Contributions enter a point's accumulators; a wrap is marked and raised at the boundary at which they enter (R59, R108). -/
def State.book (p : Fin 128) (at_ : Stamp) (l : List Nat) (s : State) : State :=
  let wrapping := s.pts[p].wraps l
  let s1 := s.onPt p (Point.add l)
  if wrapping.isEmpty then s1
  else chain wrapping (fun i s => (s.blot .totalWrap).raiseWith .totalWrap (.point p) at_ true true (le 1 (accCode i)))
    (s1.onPt p fun x => { x with wrapped := true })

/-- One cycle of a sum group (R103). -/
def SumGroup.add (t : Rat) (p q h s u i : Rat) (g : SumGroup) : SumGroup :=
  { p := g.p + p * t, qraw := g.qraw + q * t, qh := g.qh + h * t, s := g.s + s * t, u2 := g.u2 + u * u * t
    i2 := g.i2 + i * i * t, count := g.count + 1 }

/-- The group of a phase and a raw direction: import before export (R103, R238). -/
def sumIndex (ph : Fin 3) (export_ : Bool) : Fin 6 := ⟨2 * ph.val + if export_ then 1 else 0, by split <;> omega⟩

/-- A pending cycle of one phase (R103): the whole quantities, and the bridged parts on their own. A phase whose active path is IDLE adds 0
for P, and its cycle counts, with its U² and I², as an import (DESIGN CHOICE, log 123). -/
def Sums.addPhase (t : Rat) (n : Nat) (export_ : Bool) (c : PhaseChans) (before : Option PhaseQ) (ph : Phase) (u : Sums) :
    Sums :=
  let gate := fun (b : Bool) (x : Rat) => if b then x else 0
  let run := ph.aRun || ph.qRun
  let q := ph.q
  let i := sumIndex c.ph export_
  let meas := upd u.meas i
    (SumGroup.add t (gate ph.aRun q.p) (gate ph.qRun q.qraw) (gate ph.qRun q.qh) (gate run q.s) q.u q.i)
  if ph.b = 0 then { u with meas := meas }
  else
    let f : Rat := (ph.b : Rat) / (n : Rat)
    let v := before.getD .zero
    let add := fun (g : SumGroup) =>
      { (SumGroup.add t (f * gate ph.aRun v.p) (f * gate ph.qRun v.qraw) (f * gate ph.qRun v.qh) (f * gate run v.s) 0 0 g) with
        u2 := g.u2 + f * v.u * v.u * t, i2 := g.i2 + f * v.i * v.i * t }
    ⟨meas, upd u.brdg i add⟩

/-- What a cycle of a point leaves, its energy apart: state, flags, quantities, phases. -/
structure PointCycle where
  st     : PtState
  brdg   : Bool
  phases : List (PhaseChans × Phase × Option PhaseQ × Bool) -- with X_prev as it was, and whether the phase is dead
  q      : PointQ

/-- The samples of a cycle (R62). -/
def cycleLength : Nat := 512

/-- Energy is computed in a state (R101). -/
def PtState.counts : PtState → Bool
  | .pending | .live | .bridged | .faulted => true
  | .off | .settling => false

/-- The closing cycle of a point (R84, R101). -/
def State.pointCycle (s : State) (p : Fin 128) : PointCycle :=
  if !pointOn s.live p then ⟨.off, false, [], .zero⟩
  else
    let l : Phases := (pointPhases s.live p).map fun c => (c, s.phaseCycle p c)
    let st := s.stateOf p
    let close := if st.counts then s.closePhase p else s.settlePhase
    ⟨st, s.bridgedIn p,
      l.map fun x => (x.1, close x.1 x.2 s.pts[p].phases[x.1.ph], s.pts[p].phases[x.1.ph].prev, x.2.dead),
      s.pointQ p l⟩

/-- The direction rule of a point: on the sum, and always so on Q3P3 (R91, R93). -/
def onSumOf (f : Reg → Word) (p : Fin 128) : Bool := bit (f (.pt p .mode)) 8 || isQ3P3 (f (.qdTopo (quadOf p)))

/-- The shares of the phases of a closing cycle. -/
def State.shares (s : State) (p : Fin 128) (c : PointCycle) : List Share :=
  c.phases.map fun x =>
    if x.2.2.2 then ⟨0, 0, 0, 0, 0, 0, false⟩ else x.2.1.share (totalReactive s.live p) cycleLength x.2.2.1

/-- The bridged part of the apparent power of a phase, whether its paths run or not (R102). -/
def bridgedPhase (x : PhaseChans × Phase × Option PhaseQ × Bool) : Rat :=
  if x.2.2.2 then 0 else (x.2.1.b : Rat) / (cycleLength : Rat) * (x.2.2.1.getD .zero).s

/-- The bridged part of the point's own apparent power: that of its phases for the arithmetic one, else b_max of its phases of the
value before (R102), 0 where there is none, as for a phase (R262; DEDUCED, log 127). -/
def State.bridgedApparent (s : State) (p : Fin 128) (c : PointCycle) : Rat :=
  let bmax := (c.phases.map fun x => x.2.1.b).foldl max 0
  let sdef := sdefOf s.live p
  if sdef = 0 then sumR (c.phases.map bridgedPhase)
  else (bmax : Rat) / (cycleLength : Rat) * ((s.pts[p].prevQ.getD .zero).apparent sdef)

/-- What a closing cycle registers (R92 to R96, R102). -/
def State.bookingOf (s : State) (p : Fin 128) (c : PointCycle) : Booking :=
  let l := s.shares p c
  let t := periodSec s.tb.period
  let sdef := sdefOf s.live p
  let parts := partsOf (onSumOf s.live p) (sdef = 0) l (pointShare l (c.q.apparent sdef) (s.bridgedApparent p c))
  let q3p4 := topoOf s.live (quadOf p) = 0
  ⟨(List.range 8).map (contribution parts t), (List.range 6).map (phaseContribution q3p4 l t),
   (List.range 8).map (bridgedPart parts t)⟩

/-- The pending sums after a closing cycle (R91, R103). -/
def State.pendingOf (s : State) (p : Fin 128) (c : PointCycle) : Sums :=
  let l := s.shares p c
  let net := sumR (l.map Share.p)
  let q3p3 := isQ3P3 (s.live (.qdTopo (quadOf p)))
  (c.phases.zip l).foldl (fun u x =>
    if x.1.2.2.2 then u
    else u.addPhase (periodSec s.tb.period) cycleLength ((if q3p3 then net else x.2.p) < 0) x.1.1 x.1.2.2.1 x.1.2.1)
    s.pts[p].pending

/-- Marks of the running demand subinterval after a cycle (R114, R115). -/
def Marks.cycle (st : PtState) (pend brdg : Bool) (m : Marks) : Marks :=
  let is := fun x => decide (st = x)
  { m with
    pending := m.pending || (pend && st.counts), bridged := m.bridged || brdg
    faulted := m.faulted || is .faulted || is .off, settling := m.settling || is .settling }

/-- The cycle opens with a change of ON: the interval is PARTIAL (R114). -/
def Marks.opened (turned : Bool) (m : Marks) : Marks := { m with part := m.part || turned }

/-- A cycle enters the running demand subinterval (R114). -/
def DemSub.cycle (tot : List Nat) (t : Rat) (m : Marks) (d : DemSub) : DemSub :=
  ⟨List.zipWith (· + ·) d.e tot, d.t + t, m⟩

/-- The profile status bits that a cycle sets (R117). -/
def profileBits (st : PtState) (pend brdg degr : Bool) : Nat :=
  let is := fun x => decide (st = x)
  flag 0 brdg + flag 1 (pend && st.counts) + flag 2 (is .faulted) + flag 3 (is .off) + flag 4 (degr && st.counts)
    + flag 5 (is .settling)

/-- The phases of a point after a closing cycle. -/
def Point.setPhases (l : List (PhaseChans × Phase × Option PhaseQ × Bool)) (p : Point) : Point :=
  l.foldl (fun p x => { p with phases := upd p.phases x.1.ph fun _ => x.2.1 }) p

/-- The active power of a cycle of SETTLING, of which nothing is registered (R155). -/
def State.settlingPower (s : State) (p : Fin 128) : Rat :=
  sumR ((pointPhases s.live p).map fun c => let x := s.phaseCycle p c; if x.dead then 0 else x.q.p)

/-- A cycle of a point is closed (R92 to R103, R112, R114): quantities and state, contributions into the totals or into
the pending sums, and the marks of the running intervals. PEND of a point that is OFF reads 0 (DESIGN CHOICE, log 121). -/
def State.closePoint (p : Fin 128) (s : State) : State :=
  let c := s.pointCycle p
  let old := s.pts[p]
  let t := periodSec s.tb.period
  let pend := !s.mcal.loaded
  let b := if c.st.counts && !pend then s.bookingOf p c else .nothing
  let l := s.shares p c
  let clean := c.phases.all fun x => x.2.1.b = 0
  let s1 := { s with prof := { s.prof with
    status := upd s.prof.status p fun n => n ||| profileBits c.st pend c.brdg s.flt.degraded } }
  let s2 := s1.onPt p fun x =>
    { (x.setPhases c.phases) with
      q := c.q, prevQ := if c.st.counts && clean then some c.q else x.prevQ
      st := c.st, pend := pend && pointOn s.live p, brdg := c.brdg, degr := s.flt.degraded && c.st.counts
      metered := x.metered || c.st.counts
      contrib := b.tot, contribPh := b.ph, contribBr := b.br
      net := ((nth b.tot 0 0 : Nat) : Int) - ((nth b.tot 1 0 : Nat) : Int)
      rawNet := (if c.st = .settling then s.settlingPower p else sumR (l.map Share.p)) * t
      pending := if c.st.counts && pend then s.pendingOf p c else x.pending
      turned := false
      dem := { x.dem with run := x.dem.run.cycle b.tot t ((x.dem.run.marks.cycle c.st pend c.brdg).opened x.turned) } }
  let s3 := s2.book p (s.stampOf (s.tb.start + s.tb.period)) b.all
  match s.faultOf p with
  | some k =>
    if c.st = .faulted && old.st ≠ .faulted then
      s3.raiseWith .ptFaulted (.point p) s.tb.boundary true true (le 1 k.val)
    else s3
  | none => s3

/-! ### Energy balance (R121, R122) -/

/-- The members of a bus in a cycle: points not OFF, but for the incomer and the excluded (R121). -/
def State.balanceMembers (s : State) (b : Fin 2) (incomer : Fin 128) : List (Fin 128) :=
  (onBusPoints s.live b).filter fun p => p ≠ incomer && !bit (s.live (.pt p .recd)) 1

/-- A cycle enters the sums of a balance (R122). -/
def BalAcc.cycle (e r : Int) (a : BalAcc) : BalAcc :=
  if 0 ≤ e then { a with rImp := a.rImp + r, eImp := a.eImp + e, nImp := a.nImp + 1 }
  else { a with rExp := a.rExp + r, eExp := a.eExp - e, nExp := a.nExp + 1 }

/-- The point's cycle was LIVE or BRIDGED and registered (R115, R123). -/
def Point.whole (p : Point) : Bool := !p.pend && (match p.st with | .live | .bridged => true | _ => false)

/-- The closing cycle enters the balance of a bus, after its points have closed (R122, R123). -/
def State.closeBalance (b : Fin 2) (s : State) : State :=
  match incomerOf s.live b with
  | none => s
  | some p0 =>
    let ms := s.balanceMembers b p0
    let e := s.pts[p0].net
    let r := e - (ms.map fun p => s.pts[p].net).foldl (· + ·) 0
    let names := (p0 :: ms).map Fin.val
    s.onBus b fun x =>
      let a := x.bal
      let fresh := a.run.nImp + a.run.nExp = 0
      { x with bal :=
        { a with
          run := a.run.cycle e r, span := a.span.cycle e r, members := names, cycE := e, cycR := r
          complete := (fresh || (a.complete && a.members = names)) && (p0 :: ms).all fun p => s.pts[p].whole } }

/-! ### DC content (R56) -/

/-- The DC content of a channel at the close of a cycle, in V or A (R56). -/
def State.closeDc (k : Fin 136) (s : State) : State :=
  let c := s.chans[k]
  s.onChan k fun x => { x with dcContent := s.scale k * (c.dcEst + meanR c.dcSum - s.dcSeed k), dcSum := [] }

end Sys2Proof.Machine
end

