-- ==== Sys2Proof/Machine/Capture.lean ====
section
/-!
DEFINITION. Waveform capture: triggers, buffers and their bytes (R157, R158), and the order in which events of power quality
are entered (R156).
-/
namespace Sys2Proof.Machine

/-- The channels that PQ.CAPSEL names, in entry order; 255 is an empty entry (R157). -/
def capChannels (f : Reg → Word) : List Nat := (List.finRange 4).flatMap fun i => entriesOfWord (f (.capsel i))

/-- A sample as captured: calibrated, a fraction of full-scale peak (R87, R157). -/
def Samp.calibrated (gain : Word) (x : Samp) : Samp :=
  { x with x := max (-(2 ^ 31)) (min (2 ^ 31 - 1) (roundEven ((x.x : Rat) * gainQ gain))) }

/-- The captured samples of a list of channels in one cycle, with the calibration of that cycle (R84, R87, R157). -/
def pickCycle (chans : List Nat) (h : Vector PastCycle 136) : List (List Samp) :=
  chans.map fun n => match idx? 136 n with
    | some k => h[k].samps.map (Samp.calibrated h[k].gain)
    | none => []

/-- The cycles before the running one that a capture of a trigger keeps: 4 before the trigger's cycle, that cycle, and
those after it that have closed (R157). -/
def State.pastCycles (s : State) (chans : List Nat) (trigger : Nat) : List (List (List Samp)) :=
  let n := min 16 (s.tb.cycle - trigger + 4)
  (List.range n).map fun i => match s.pq.history.drop (n - 1 - i) with
    | h :: _ => pickCycle chans h
    | [] => chans.map fun _ => []

/-- Space for a new capture: a free buffer, or one whose protection has ended (R158). -/
def Pq.room (q : Pq) : Option (Fin 2) :=
  let is := fun (st : CapState) => (List.finRange 2).filter fun i => decide (q.caps[i].st = st)
  match is .free with
  | i :: _ => some i
  | [] => match is .filled with
    | [] => none
    | i :: rest => some (rest.foldl (fun a b => if q.caps[b].number < q.caps[a].number then b else a) i)

/-- A trigger joins a running capture (R157). -/
def Capture.list (t : Stamp × Nat) (c : Capture) : Capture :=
  if c.triggers.length < 4 then { c with triggers := c.triggers ++ [t] } else { c with more := sat 0xFF (c.more + 1) }

/-- A running capture whose sixteen cycles hold an instant (R157). -/
def Pq.runningAt (q : Pq) (t : Stamp) : Option (Fin 2) :=
  (List.finRange 2).find? fun i => q.caps[i].st = .filling
    && (q.caps[i].triggers.head?.map fun x => decide (t.cycle ≤ x.1.cycle + 11)).getD false

/-- A capture starts (R157, R158). -/
def State.startCapture (i : Fin 2) (t : Stamp) (kind : Nat) (s : State) : State :=
  let chans := capChannels s.live
  let past := s.pastCycles chans t.cycle
  let c : Capture := ⟨.filling, s.pq.next, chans, [(t, kind)], 0, past, 16 - past.length, true, []⟩
  { s with pq := { s.pq with caps := upd s.pq.caps i fun _ => c, next := s.pq.next + 1 } }

/-- A trigger (R157, R158): into a running capture, into a buffer, or counted in CAPTURE_LOST. Capture is stopped during a
power-fail sequence (R300). -/
def State.trigger (t : Stamp) (kind : Nat) (s : State) : State :=
  if s.pwr.pfail then s
  else match s.pq.runningAt t with
  | some i => { s with pq := { s.pq with caps := upd s.pq.caps i (Capture.list (t, kind)) } }
  | none => match s.pq.room with
    | some i => s.startCapture i t kind
    | none => ({ s with pq := { s.pq with lost := sat 0xFFFFFFFF (s.pq.lost + 1) } }).pendInt 22

/-- The bit of PQ.CAPTRIG of an event (R158). -/
def Ev.capBit : Ev → Option Nat
  | .dip => some 0 | .swell => some 1 | .interruption => some 2 | .rvc => some 3 | .wrongSequence => some 4
  | .neutralLost => some 5 | .neutralBypass => some 6 | .reverseFlow => some 7 | .dcPresent => some 8 | .magnet => some 9
  | _ => none

/-- An event triggers capture where its bit is set (R157). -/
def State.triggerBy (e : Ev) (t : Stamp) (s : State) : State :=
  match e.capBit with
  | some n => if bit (s.live .captrig) n then s.trigger t n else s
  | none => s

/-- The instant at which an event triggers: the onset of dips, swells and interruptions, else the boundary at which it is
raised (R157). A rapid voltage change has triggered at its start. -/
def State.dueTrigger (d : PqDue) (s : State) : State :=
  match d.ev with
  | .dip | .swell | .interruption => if d.start then s.triggerBy d.ev d.at_ else s
  | .rvc => s
  | e => if d.start then s.triggerBy e s.tb.boundary else s

/-- The blot bit of a detector (R154). -/
def Ev.detectorBlot : Ev → Option Blot
  | .wrongSequence => some .pqSequence | .neutralLost => some .pqNeutral | .neutralBypass => some .pqBypass
  | .dcPresent => some .pqDc | .magnet => some .pqMagnet
  | _ => none

/-- An event of power quality is entered, with its blot bit at the raise (R154, R156). -/
def State.enterDue (d : PqDue) (s : State) : State :=
  let s1 := match d.ev.detectorBlot with
    | some b => if d.start then s.blot b else s
    | none => s
  (s1.raiseAs d.fpid d.ev d.subj d.at_ d.start d.done d.detail).dueTrigger d

/-- An event waits for its place (R156), with the FPID in force in the cycle it was found in (R402). -/
def State.due (rank : Nat) (ev : Ev) (subj : Subject) (at_ : Stamp) (start done : Bool) (detail : List Byte) (s : State) : State :=
  { s with pq := { s.pq with due := s.pq.due ++ [⟨rank, ev, subj, at_, start, done, detail, s.fpidOf subj⟩] } }

/-- Insertion by rank; equal ranks keep their order. -/
def insertDue (d : PqDue) : List PqDue → List PqDue
  | [] => [d]
  | x :: xs => if d.rank < x.rank then d :: x :: xs else x :: insertDue d xs

/-- The events of a boundary are entered in the order of R156. -/
def State.flushDue (s : State) : State :=
  chain (s.pq.due.foldl (fun l d => insertDue d l) []) State.enterDue { s with pq := { s.pq with due := [] } }

/-- A closed cycle enters a capture that is filling (R157). -/
def Capture.feed (h : Vector PastCycle 136) (c : Capture) : Capture :=
  if c.st = .filling && 0 < c.left then { c with cycles := c.cycles ++ [pickCycle c.chans h], left := c.left - 1 } else c

/-- CAPTURE_FILLED (R157, R158): the sixteen cycles are in; the buffer is filled and protected. -/
def execCaptureFilled (buffer : Fin 2) (s : State) : Host.Outcome State Fault Refusal :=
  .next (if s.pq.caps[buffer].st = .filling && s.pq.caps[buffer].left = 0 then
      ({ s with pq := { s.pq with caps := upd s.pq.caps buffer fun c => { c with st := .kept } } }).pendInt 22
    else s)

/-- CAPTURE_KEEP_EXPIRY (R158): the protection ends. -/
def execCaptureKeepExpiry (buffer : Fin 2) (s : State) : Host.Outcome State Fault Refusal :=
  .next (if s.pq.caps[buffer].st = .kept then
      { s with pq := { s.pq with caps := upd s.pq.caps buffer fun c => { c with st := .filled } } }
    else s)

/-- The word of a captured sample (R157). -/
def Samp.word (x : Samp) : Word :=
  Machine.word (put 31 8 (unsigned 24 (x.x / 256)) + flag 0 x.valid + flag 1 x.brdg + flag 2 x.clip + flag 3 x.subst)

/-- The bytes of a capture: channel-major in entry order, then cycle, then sample (R157). -/
def Capture.bytes (c : Capture) : List Byte :=
  (List.range 16).flatMap fun i => (List.range 16).flatMap fun j =>
    fit 2048 (wordBytes ((nth (nth c.cycles j []) i []).map Samp.word))

/-- The code of a buffer's state (R185). -/
def CapState.code : CapState → Nat
  | .free => 0 | .filling => 1 | .filled => 2 | .kept => 3

/-- A capture descriptor (R158, R185). -/
def State.capDescriptor (s : State) (i : Fin 2) : List Byte :=
  let c := s.pq.caps[i]
  let slot := fun n => c.triggers[n]?
  le 6 c.number ++ le 1 c.st.code ++ le 1 c.more ++ fit 16 (c.chans.map fun n => BitVec.ofNat 8 n)
    ++ ((List.range 4).flatMap fun n => ((slot n).map fun x => x.1.bytes).getD (zeros 16))
    ++ ((List.range 4).flatMap fun n => le 1 (((slot n).map Prod.snd).getD 0xFF))
    ++ le 4 s.pq.lost ++ zeros 32

end Sys2Proof.Machine
end

