-- ==== Sys2Proof/Machine/HalfCycle.lean ====
section
/-!
DEFINITION. Half-cycle rms values, dips, swells, interruptions, rapid voltage changes and the automatic freeze (R55, R144 to
R148).
-/
namespace Sys2Proof.Machine

/-! ### Urms(1/2) (R144) -/

/-- WIRING = 1: phase-to-phase voltages (R140). -/
def threeWire (f : Reg → Word) (b : Fin 2) : Bool := bit (f (.bus b .pqcfg)) 0

/-- The declared voltage of the voltages that R140 selects. -/
def declared (f : Reg → Word) (b : Fin 2) : Rat := if threeWire f b then Config.sqrt 3 * udin f b else udin f b

/-- A sample with its calibrated value in V or A and what RMSOFS takes from its square (R84, R87). -/
structure Reading where
  samp : Samp
  y    : Rat
  ofs  : Rat

/-- A sample with the calibration of its cycle. -/
def reading (scale ofs : Rat) (x : Samp) : Reading := ⟨x, scale * unitOf x.x, ofs⟩

/-- The last n samples of a channel, newest first: the running cycle and the ones before, each with its own calibration. -/
def State.recent (s : State) (k : Fin 136) (n : Nat) : List Reading :=
  let past := (s.pq.history.take 2).flatMap fun h => h[k].samps.reverse.map (reading h[k].scale h[k].ofs)
  (s.chans[k].cur.map (reading (s.scale k) (s.rmsOfs k)) ++ past).take n

/-- The two channels of voltage i for three-wire wiring: U_12, U_23, U_31 (R90, R140). -/
def linePair (b : Fin 2) (i : Fin 3) : Fin 136 × Fin 136 :=
  (voltChan b ⟨i.val, by omega⟩, voltChan b (Fin.ofNat 4 ((i.val + 1) % 3)))

/-- n samples of a channel that is enabled, newest first, as values with what RMSOFS takes from their squares; none where one is not
valid or they are not there yet (R144; log 19). -/
def State.window? (s : State) (k : Fin 136) (skip n : Nat) : Option (List (Rat × Rat)) :=
  let l := (s.recent k (skip + n)).drop skip
  if chanOn s.live k && l.length = n && l.all fun x => x.samp.valid then some (l.map fun x => (x.y, x.ofs)) else none

/-- The same of voltage i of a bus; RMSOFS takes nothing from a difference (R87, R90, R140). -/
def State.voltSamples (s : State) (b : Fin 2) (i : Fin 3) (skip n : Nat) : Option (List (Rat × Rat)) :=
  let (ka, kb) := linePair b i
  if !threeWire s.live b then s.window? ka skip n
  else match s.window? ka skip n, s.window? kb skip n with
    | some x, some y => some (List.zipWith (fun a b => (a.1 - b.1, 0)) x y)
    | _, _ => none

/-- The rms value of a window (R87, R144). -/
def windowRms (l : List (Rat × Rat)) : Rat := rootOf (meanSq (l.map Prod.fst) - meanR (l.map Prod.snd))

/-- Urms(1/2) of voltage i for the window that ends now (R144). -/
def State.urms (s : State) (b : Fin 2) (i : Fin 3) : Option Rat := (s.voltSamples b i 0 512).map windowRms

/-- Urms(1/2) of the neutral-to-earth channel (R144). -/
def State.urmsNeutral (s : State) (b : Fin 2) : Option Rat := (s.window? (voltChan b 3) 0 512).map windowRms

/-- A channel of voltage i is left out of the window that ends now: disabled, suppressed or FAILED in it (R147). -/
def State.leftOut (s : State) (b : Fin 2) (i : Fin 3) : Bool :=
  let (ka, kb) := linePair b i
  let out := fun (k : Fin 136) => !chanOn s.live k || (s.recent k 512).any fun x => x.samp.supp || x.samp.back || x.samp.dead
  out ka || (threeWire s.live b && out kb)

/-! ### The polyphase event machine (R145 to R147) -/

/-- The three kinds. -/
inductive DipKind where
  | dip | swell | interruption
  deriving DecidableEq, Repr

/-- The event of a kind (R324). -/
def DipKind.ev : DipKind → Ev
  | .dip => .dip | .swell => .swell | .interruption => .interruption

/-- The place of a kind in the active state of R153. -/
def DipKind.rank : DipKind → Nat
  | .dip => 0 | .swell => 1 | .interruption => 2

/-- The running event of a kind. -/
def Bus.event (x : Bus) : DipKind → Option PqEvent
  | .dip => x.dip | .swell => x.swell | .interruption => x.intr

/-- The running event of a kind replaced. -/
def Bus.setEvent (k : DipKind) (e : Option PqEvent) (x : Bus) : Bus :=
  match k with
  | .dip => { x with dip := e }
  | .swell => { x with swell := e }
  | .interruption => { x with intr := e }

/-- A dip, swell or interruption runs on the bus. -/
def Bus.inEvent (x : Bus) : Bool := x.dip.isSome || x.swell.isSome || x.intr.isSome

/-- A field in units of 0.01 % as a fraction. -/
def pct (w : Word) (hi lo : Nat) : Rat := (fld w hi lo : Rat) / 10000

/-- The reference of a kind's percentages: the sliding reference for dips and swells with SLIDE = 1 (R145). -/
def State.eventBase (s : State) (b : Fin 2) (k : DipKind) : Rat :=
  let slide := bit (s.live (.bus b .pqcfg)) 1
  match k with
  | .interruption => declared s.live b
  | .dip | .swell => if slide then s.buses[b].usr else declared s.live b

/-- The thresholds of a bus as fractions: DIP_TH, SWL_TH, INT_TH, HYS (R145). -/
def dipThreshold (f : Reg → Word) (b : Fin 2) : DipKind → Rat
  | .dip => pct (f (.bus b .dipswl)) 15 0
  | .swell => pct (f (.bus b .dipswl)) 31 16
  | .interruption => pct (f (.bus b .inthys)) 31 16

/-- HYS of a bus as a fraction. -/
def hysteresis (f : Reg → Word) (b : Fin 2) : Rat := pct (f (.bus b .inthys)) 15 0

/-- A voltage meets the start condition of a kind (R145); an interruption needs every voltage. -/
def State.startsAt (s : State) (b : Fin 2) (k : DipKind) (v : Rat) : Bool :=
  let th := dipThreshold s.live b k * s.eventBase b k
  match k with
  | .dip => v ≤ th
  | .swell => th ≤ v
  | .interruption => v < th

/-- A voltage meets the end condition of a kind (R145); an interruption needs any voltage. -/
def State.endsAt (s : State) (b : Fin 2) (k : DipKind) (v : Rat) : Bool :=
  let th := dipThreshold s.live b k
  let h := hysteresis s.live b
  match k with
  | .dip | .interruption => (th + h) * s.eventBase b k ≤ v
  | .swell => v ≤ (th - h) * s.eventBase b k

/-- The start condition over the voltages with a value, phases counted from 1 (R145). -/
def State.eventStarts (s : State) (b : Fin 2) (k : DipKind) (vs : List (Nat × Rat)) : Option Nat :=
  match k with
  | .interruption => if vs.all fun x => s.startsAt b k x.2 then vs.head?.map Prod.fst else none
  | .dip | .swell => (vs.find? fun x => s.startsAt b k x.2).map Prod.fst

/-- The end condition over the voltages with a value (R145). -/
def State.eventEnds (s : State) (b : Fin 2) (k : DipKind) (vs : List (Nat × Rat)) : Bool :=
  match k with
  | .interruption => vs.any fun x => s.endsAt b k x.2
  | .dip | .swell => vs.all fun x => s.endsAt b k x.2

/-- The window that ends now, by the sample index of its last batch: its two halves begin at these instants (R144). -/
structure Window where
  half  : Bool    -- it ends at angle 0x8000
  start : Stamp
  stop  : Stamp

/-- The window that ends with the batch of a sample index (R144). -/
def State.window (s : State) (half : Bool) : Window :=
  if half then ⟨true, s.stampBefore 0x8000, s.stampAt 0x8000⟩
  else ⟨false, s.stampAt 0, { s.stampAt 0x10000 with cycle := s.tb.cycle + 1, angle := 0 }⟩

/-- The instant at which segment i of 16 of a window begins (R146). -/
def State.segmentStart (s : State) (w : Window) (i : Nat) : Stamp :=
  if w.half then (if i < 8 then s.stampBefore (0x8000 + 4096 * i) else s.stampAt (4096 * (i - 8))) else s.stampAt (4096 * i)

/-- The mean squares of the 16 segments of 32 samples of 512, newest first, and those of one cycle earlier, oldest segment
first (R146). -/
def State.segments (s : State) (b : Fin 2) (i : Fin 3) : List (Rat × Rat) :=
  ((List.range 16).map fun n =>
    match s.voltSamples b i (32 * (15 - n)) 32, s.voltSamples b i (512 + 32 * (15 - n)) 32 with
    | some x, some y => (meanSq (x.map Prod.fst), meanSq (y.map Prod.fst))
    | _, _ => (0, 0))

/-- A segment differs from the one a cycle earlier by more than the threshold's factor (R146). -/
def State.segmentJumps (s : State) (b : Fin 2) (k : DipKind) (x : Rat × Rat) : Bool :=
  let t := match k with
    | .swell => dipThreshold s.live b .swell
    | .dip | .interruption => dipThreshold s.live b .dip
  match k with
  | .swell => decide (t * t * x.2 < x.1) || decide (t * t * x.1 < x.2)
  | .dip | .interruption => decide (x.1 < t * t * x.2) || decide (x.2 < t * t * x.1)

/-- The start of the first segment of the window, of any voltage, that jumps; otherwise the instant given (R146). -/
def State.jumpInstant (s : State) (b : Fin 2) (k : DipKind) (w : Window) (otherwise : Stamp) : Stamp :=
  let segs := (List.finRange 3).map (s.segments b)
  match (List.range 16).find? fun n => segs.any fun l => s.segmentJumps b k (nth l n (0, 0)) with
  | some n => s.segmentStart w n
  | none => otherwise

/-- The value of an event follows its extreme: the greatest of a swell, else the least (R146). -/
def PqEvent.follow (k : DipKind) (v : Nat × Rat) (e : PqEvent) : PqEvent :=
  let new := match k with
    | .swell => decide (e.ext < v.2)
    | .dip | .interruption => decide (v.2 < e.ext)
  if new then { e with ext := v.2, extPhase := v.1 } else e

/-- The 60 detail bytes of a completed event (R146, R324). -/
def State.eventDetail (s : State) (b : Fin 2) (k : DipKind) (e : PqEvent) (byPower incomplete : Bool) (stop recovery : Stamp) :
    List Byte :=
  let percent := (roundEven (e.ext / s.eventBase b k * 10000)).toNat
  le 1 e.startPhase ++ le 1 e.extPhase
    ++ le 2 (flag 0 e.contains + flag 1 byPower + flag 2 incomplete + flag 3 e.stepped)
    ++ le 4 (toF32 e.ext).toNat ++ le 2 (min 0xFFFF percent) ++ zeros 2 ++ e.classA.bytes ++ stop.bytes ++ recovery.bytes

/-- An event of a kind is completed (R146): its first-entry timestamp is the onset. -/
def State.completeEvent (b : Fin 2) (k : DipKind) (e : PqEvent) (byPower incomplete : Bool) (stop recovery : Stamp) (s : State) :
    State :=
  let detail := s.eventDetail b k e byPower incomplete stop recovery
  (s.onBus b (Bus.setEvent k none)).due (8 * b.val + k.rank) k.ev (.bus b) e.onset false true detail

/-! ### The automatic freeze (R55) -/

/-- A channel freezes at a detection on a bus with the estimate at the start of the window; one that is frozen already keeps its
estimate (R55). The freeze stays with that bus, also when AUTOFRZ or the channel's bus changes: DESIGN CHOICE, log 87. -/
def Chan.freeze (b : Fin 2) (c : Chan) : Chan :=
  if c.autoFrozen.isSome then { c with autoFrozen := some b } else { c with autoFrozen := some b, dcEst := nth c.dcRec 2 c.dcEst }

/-- The channels of a bus with AUTOFRZ = 1 (R55). -/
def State.freezing (s : State) (b : Fin 2) : List (Fin 136) :=
  allChans.filter fun k => busOfChan s.live k = b && bit (s.live (.ch k .filt)) 11

/-- The automatic freeze of a bus starts, or is extended (R55). -/
def State.autoFreeze (b : Fin 2) (s : State) : State :=
  (chain (s.freezing b) (fun k s => s.onChan k (Chan.freeze b)) s).onBus b fun x => { x with freezeLeft := none }

/-- The bus has left its events: at the tenth cycle boundary after the window's end the freeze ends (R55). -/
def State.freezeCount (b : Fin 2) (half : Bool) (s : State) : State :=
  let x := s.buses[b]
  if x.dip.isSome || x.intr.isSome then s
  else s.onBus b fun x => { x with freezeLeft := some (if half then 10 else 11) }

/-- The automatic freeze of a bus ends (R55). -/
def Chan.thaw (b : Fin 2) (c : Chan) : Chan := if c.autoFrozen = some b then { c with autoFrozen := none } else c

/-- AUTO_FREEZE_END (R55): the tenth cycle boundary after the bus left the event. -/
def execAutoFreezeEnd (bus : Fin 2) (s : State) : Host.Outcome State Fault Refusal :=
  .next (if s.buses[bus].freezeLeft = some 0 then
      ({ s with chans := s.chans.map (Chan.thaw bus) }).onBus bus fun x => { x with freezeLeft := none }
    else s)

/-! ### Rapid voltage changes (R148) -/

/-- The number of Urms(1/2) values of the mean: 100 at 50 Hz, 120 at 60 Hz (R148). -/
def rvcLength (sixty : Bool) : Nat := if sixty then 120 else 100

/-- All values lie within a band of their mean, and there are enough of them (R148). -/
def steadyIn (n : Nat) (band : Rat) (l : List Rat) : Bool :=
  l.length = n && l.all fun x => absR (x - meanR l) ≤ band

/-- A rapid voltage change ends: its record (R148, R324). Duration: from the start to n half-cycles before the end. -/
def rvcDetail (phase : Nat) (r : Rvc) : List Byte :=
  let ticks := r.total - (r.durs.take r.hist.length).foldl (· + ·) 0
  le 1 phase ++ zeros 3 ++ le 4 (toF32 r.maxDev).toNat ++ le 4 (toF32 (meanR r.hist - r.before)).toNat
    ++ le 4 (ticks * 1000 / (65536 * sysHz))

/-- A half-cycle passes for a machine (R148); at most 120 are looked back on. -/
def Rvc.pass (half : Nat) (r : Rvc) : Rvc := { r with durs := (half :: r.durs).take 120, total := r.total + half }

/-- A half-cycle of voltage i, with its Urms(1/2) where there is one, enters its machine (R148). The start is that of the window,
two half-cycles back. -/
def State.rvcValue (b : Fin 2) (i : Fin 3) (w : Window) (value : Option Rat) (s : State) : State :=
  let r := (s.buses[b].rvc[i]).pass (s.tb.period / 2)
  let n := rvcLength s.tb.nomf60
  let band := pct (s.live (.bus b .rvcnl)) 31 16 * declared s.live b
  let put := fun (r : Rvc) (s : State) => s.onBus b fun x => { x with rvc := upd x.rvc i fun _ => r }
  match value with
  | none => put r s
  | some v =>
    let hist := (v :: r.hist).take n
    if r.active then
      let dev := if absR r.maxDev < absR (v - r.before) then v - r.before else r.maxDev
      let r1 := { r with hist := hist, maxDev := dev }
      if steadyIn n (band / 2) hist then
        (put { r1 with active := false } s).due (8 * b.val + 3) .rvc (.bus b) r.start true true (rvcDetail (i.val + 1) r1)
      else put r1 s
    else if steadyIn n band r.hist && band < absR (v - meanR r.hist) then
      let total := (r.durs.take 2).foldl (· + ·) 0
      (put ⟨hist, r.durs, true, meanR r.hist, v - meanR r.hist, w.start, total⟩ s).triggerBy .rvc w.start
    else put { r with hist := hist } s

/-- A dip or swell starts: running rapid changes are discarded and counted (R148). -/
def Bus.discardRvc (x : Bus) : Bus :=
  { x with
    rvcLost := sat 0xFFFF (x.rvcLost + (x.rvc.toList.filter Rvc.active).length)
    rvc := x.rvc.map fun r => { r with active := false } }

/-- The values have to be collected afresh (R75, R148). -/
def Bus.restartRvc (x : Bus) : Bus :=
  { x with rvc := x.rvc.map fun r => { r with hist := [] } }

/-! ### One half cycle -/

/-- An interruption starts within a dip (R147). -/
def PqEvent.hold (e : PqEvent) : PqEvent := { e with contains := true }

/-- An event of a kind starts (R55, R145 to R148). -/
def State.startEvent (b : Fin 2) (k : DipKind) (phase : Nat) (v : Rat) (w : Window) (s : State) : State :=
  let e : PqEvent := ⟨phase, phase, v, w.start, s.jumpInstant b k w w.start, false, false, w.stop⟩
  let s1 := s.onBus b (Bus.setEvent k (some e))
  let s2 := match k with
    | .interruption => s1.onBus b fun x => { x with dip := x.dip.map PqEvent.hold }
    | .dip | .swell => s1.onBus b Bus.discardRvc
  let s3 := match k with
    | .swell => s2
    | .dip | .interruption => s2.autoFreeze b
  s3.due (8 * b.val + k.rank) k.ev (.bus b) e.onset true false (le 1 phase)

/-- The machine of one kind for the window that ends now (R145 to R147). -/
def State.eventStep (b : Fin 2) (w : Window) (vs : List (Nat × Rat)) (k : DipKind) (s : State) : State :=
  match s.buses[b].event k with
  | none =>
    if vs.isEmpty then s
    else match s.eventStarts b k vs with
      | none => s
      | some phase =>
        let first := (vs.find? fun x => x.1 = phase).getD (phase, 0)
        let s1 := s.startEvent b k phase first.2 w
        s1.onBus b fun x => x.setEvent k ((x.event k).map fun e => vs.foldl (fun e v => e.follow k v) e)
  | some e =>
    let stop := fun (incomplete : Bool) (at_ recovery : Stamp) (s : State) =>
      let s1 := s.completeEvent b k e false incomplete at_ recovery
      let s2 := s1.onBus b Bus.restartRvc
      match k with
      | .swell => s2
      | .dip | .interruption => s2.freezeCount b w.half
    if (List.finRange 3).all (s.leftOut b) then stop true e.last e.last s
    else if vs.isEmpty then s
    else if s.eventEnds b k vs then stop false w.stop (s.jumpInstant b k w w.stop) s
    else
      let e1 := { vs.foldl (fun e v => e.follow k v) e with last := w.stop }
      s.onBus b (Bus.setEvent k (some e1))

/-- The least of two values that may be absent. -/
def mergeBy (f : Rat → Rat → Rat) : Option Rat → Option Rat → Option Rat
  | some a, some b => some (f a b)
  | some a, none => some a
  | none, b => b

/-- An event of a bus reaches back into the block that has closed last: that one and the aggregates it entered are FLAGGED as well
(R142; log 88). -/
def State.flagBefore (b : Fin 2) (s : State) : State :=
  let x := s.buses[b]
  let began := [x.dip, x.swell, x.intr].any fun e => e.any fun e => decide (e.classA.cycle < s.tb.blkStart.cycle)
  let mark := fun (a : Agg) (o : AggOut) => if a.blocks = 0 then (a, { o with flagged := true }) else ({ a with flagged := true }, o)
  if !began || s.tb.blkCycles ≠ 0 then s
  else
    let bus := fun (x : Bus) =>
      let (a1, o1) := mark x.agg150 x.out150
      let (a2, o2) := mark x.agg10 x.out10
      let (a3, o3) := mark x.u2agg x.u2out
      let (a4, o4) := if x.agg10.blocks = 0 then mark x.agg2h x.out2h else (x.agg2h, x.out2h)
      { x with
        agg150 := a1, out150 := o1, agg10 := a2, out10 := o2, u2agg := a3, u2out := o3, agg2h := a4, out2h := o4
        blockFlag := true }
    let chan := fun (k : Fin 136) (c : Chan) =>
      if busOfChan s.live k ≠ b then c
      else
        let (a1, o1) := mark c.agg150 c.out150
        let (a2, o2) := mark c.agg10 c.out10
        { c with agg150 := a1, out150 := o1, agg10 := a2, out10 := o2, block := { c.block with flags := c.block.flags ||| 1 } }
    ({ s with chans := Vector.ofFn fun k => chan k s.chans[k] }).onBus b bus

/-- A half cycle of a bus ends (R144 to R148, R153). -/
def State.halfCycle (b : Fin 2) (half : Bool) (s : State) : State :=
  let w := s.window half
  let us := (List.finRange 3).map (s.urms b)
  let vs := ((List.range 3).zip us).filterMap fun x => x.2.map fun v => (x.1 + 1, v)
  let quiet := !s.buses[b].inEvent
  let s1 := chain [DipKind.dip, .swell, .interruption] (State.eventStep b w vs) s
  let s2 := if quiet && !s1.buses[b].inEvent then
      chain ((List.finRange 3).zip us) (fun x s => s.rvcValue b x.1 w x.2) s1
    else s1
  (s2.flagBefore b).onBus b fun x =>
    { x with
      urmsN := s.urmsNeutral b
      least := List.zipWith (mergeBy minR) x.least us, greatest := List.zipWith (mergeBy maxR) x.greatest us
      flagged := x.flagged || !quiet || x.inEvent }

/-- A power-fail warning closes every running event at its instant (R147). -/
def State.powerFailEvents (s : State) : State :=
  let stamp := s.stampNow
  (chain (List.finRange 2) (fun b s => chain [DipKind.dip, .swell, .interruption] (fun k s =>
    match s.buses[b].event k with
    | some e =>
      let s1 := (s.completeEvent b k e true false stamp stamp).onBus b Bus.restartRvc
      match k with
      | .swell => s1
      | .dip | .interruption => s1.freezeCount b true
    | none => s) s) s).flushDue

end Sys2Proof.Machine
end

