-- ==== Sys2Proof/Machine/Detect.lean ====
section
/-!
DEFINITION. Network event detectors: runs, per-cycle detectors of points and buses, symmetrical components, and per-block
detectors (R149, R154, R155).
-/
namespace Sys2Proof.Machine

/-! ### Runs (R154) -/

/-- A detector after one valid cycle or block at an instant: it raises after `up` in a row that meet its condition, and clears
after `down` in a row that clear it. -/
def Detector.step (hit clears : Bool) (up down : Nat) (at_ : Stamp) (d : Detector) : Detector :=
  if d.active then
    if hit then { d with run := 0, last := at_ }
    else if !clears then { d with run := 0 }
    else if down ≤ d.run + 1 then { d with active := false, run := 0 }
    else { d with run := d.run + 1 }
  else if !hit then { d with run := 0 }
  else
    let first := if d.run = 0 then at_ else d.first
    if up ≤ d.run + 1 then ⟨true, 0, first, at_⟩ else ⟨false, d.run + 1, first, at_⟩

/-- The event of a detector that has raised or cleared (R154): the instants of the first and the last that met. -/
def State.detected (rank : Nat) (e : Ev) (subj : Subject) (detail : List Byte) (old new : Detector) (s : State) : State :=
  if !old.active && new.active then s.due rank e subj new.first true false detail
  else if old.active && !new.active then s.due rank e subj old.last false true detail
  else s

/-! ### Phasors and sequences (R149) -/

/-- The product of two phasors. -/
def mulC (a b : Rat × Rat) : Rat × Rat := (a.1 * b.1 - a.2 * b.2, a.1 * b.2 + a.2 * b.1)

/-- The sum of two phasors. -/
def addC (a b : Rat × Rat) : Rat × Rat := (a.1 + b.1, a.2 + b.2)

/-- The difference of two phasors. -/
def subC (a b : Rat × Rat) : Rat × Rat := (a.1 - b.1, a.2 - b.2)

/-- The magnitude of a phasor. -/
def absC (a : Rat × Rat) : Rat := Config.sqrt (normSq a)

/-- A phasor scaled. -/
def scaleC (k : Rat) (a : Rat × Rat) : Rat × Rat := (k * a.1, k * a.2)

/-- The turn by a third of a cycle, forwards or backwards. -/
def third (back : Bool) : Rat × Rat := (-(1 / 2), if back then -(Config.sqrt 3 / 2) else Config.sqrt 3 / 2)

/-- Magnitudes of the zero-, positive- and negative-sequence components (R149). -/
structure Sequence where
  zero : Rat
  pos  : Rat
  neg  : Rat

/-- The symmetrical components of three phasors (R149). -/
def sequenceOf (a b c : Rat × Rat) : Sequence :=
  let turn := fun (x y : Bool) => absC (scaleC (1 / 3) (addC a (addC (mulC (third x) b) (mulC (third y) c))))
  ⟨absC (scaleC (1 / 3) (addC a (addC b c))), turn false true, turn true false⟩

/-- The calibrated fundamental phasor of a voltage channel over whole cycles of samples (R87, R149). -/
def State.voltPhasor (s : State) (k : Fin 136) (cycles : Nat) (l : List Rat) : Rat × Rat :=
  scaleC (s.scale k) (phasorAt cycles l)

/-! ### Per cycle -/

/-- The channel gives a valid cycle. -/
def State.wholeCycle (s : State) (k : Fin 136) : Bool := chanOn s.live k && s.chans[k].cur.all Samp.valid

/-- NEUTRAL_LOST of a bus at the close of a cycle (R154). -/
def State.neutralLost (b : Fin 2) (s : State) : State :=
  let ks := (List.finRange 4).map (voltChan b)
  let cyc := fun i => fractions s.chans[voltChan b i].cycle
  let z := fun i => s.voltPhasor (voltChan b i) 1 (cyc i)
  let q := sequenceOf (z 0) (z 1) (z 2)
  if threeWire s.live b || !ks.all s.wholeCycle || q.pos * 20 < udin s.live b then s
  else
    let w := s.live (.bus b .nlcfg)
    let une := s.fundamental (voltChan b 3) (cyc 3)
    let u0 := q.zero / q.pos
    let (thE, th0) := (pct w 31 16 * udin s.live b, pct w 15 0)
    let old := s.buses[b].neutral
    let new := old.step (thE < une && th0 < u0) (une * 2 < thE && u0 * 2 < th0) 5 50 s.tb.boundary
    (s.onBus b fun x => { x with neutral := new }).detected (8 * b.val + 5) .neutralLost (.bus b)
      (le 4 (toF32 une).toNat ++ le 4 (toF32 (u0 * 100)).toNat) old new

/-- NEUTRAL_BYPASS of a Q2X1PN point at the close of a cycle (R154). -/
def State.neutralBypass (p : Fin 128) (s : State) : State :=
  match topoOf s.live (quadOf p), pointPhases s.live p, neutralChan s.live p with
  | 2, c :: _, some n =>
    if !pointOn s.live p || !s.wholeCycle n || !s.wholeCycle c.curr then s
    else
      let (iP, iN) := (s.rmsOf c.curr (fractions s.chans[c.curr].cycle), s.rmsOf n (fractions s.chans[n].cycle))
      let most := maxR iP iN
      let diff := absR (iP - iN)
      let rel : Rat := (fld (s.live (.pt p .evcfg)) 15 8 : Rat) / 200
      let start := (fld (s.live (.pt p .thresh)) 31 16 : Rat) / 100000000 * f32D (s.live (.ch c.curr .fs)) / (1 / 2)
      let old := s.pts[p].bypass
      let new := old.step (rel * most < diff && start ≤ most) (diff * 2 < rel * most || most < start) 50 50 s.tb.boundary
      (s.onPt p fun x => { x with bypass := new }).detected (16 + p.val) .neutralBypass (.point p)
        (le 4 (toF32 iP).toNat ++ le 4 (toF32 iN).toNat ++ le 1 (flag 0 (iP < iN))) old new
  | _, _, _ => s

/-- REVERSE_FLOW of a point at the close of a cycle (R155): a net energy of 0 keeps the run. -/
def State.reverseFlow (p : Fin 128) (s : State) : State :=
  let x := s.pts[p]
  let net : Rat := if x.st.counts && !x.pend then (x.net : Rat) else x.rawNet
  if !pointOn s.live p || net = 0 then s
  else
    let reverse : Bool := if x.dirExp then decide (0 < net) else decide (net < 0)
    if !reverse then s.onPt p fun x => { x with revRun := 0 }
    else
      let first := if x.revRun = 0 then s.tb.boundary else x.revFirst
      if x.revRun + 1 < fld (s.live (.pt p .evcfg)) 7 0 then
        s.onPt p fun x => { x with revRun := x.revRun + 1, revFirst := first }
      else
        State.due (16 + p.val) .reverseFlow (.point p) first true true (le 1 (flag 0 (!x.dirExp)))
          (s.onPt p fun x => { x with revRun := 0, revFirst := first, dirExp := !x.dirExp })

/-- The detectors judged at every cycle closure (R154, R155). -/
def State.cycleDetectors (s : State) : State :=
  let s1 := chain (List.finRange 2) State.neutralLost s
  chain allPts (fun p s => (s.neutralBypass p).reverseFlow p) s1

/-! ### Per block -/

/-- The fundamental phasor of voltage channel i over the closing block (R149). -/
def State.blockPhasor (s : State) (b : Fin 2) (i : Fin 4) : Rat × Rat := phasorAt s.tb.blkCycles s.chans[voltChan b i].blk

/-- The phasors of the three voltages that R140 selects over the closing block (R149). -/
def State.blockPhasors (s : State) (b : Fin 2) : List (Rat × Rat) :=
  let z := s.blockPhasor b
  if threeWire s.live b then [subC (z 0) (z 1), subC (z 1) (z 2), subC (z 2) (z 0)] else [z 0, z 1, z 2]

/-- The sequence components of three phasors in a list. -/
def sequenceIn : List (Rat × Rat) → Sequence
  | [a, b, c] => sequenceOf a b c
  | _ => ⟨0, 0, 0⟩

/-- WRONG_SEQUENCE of a bus at the close of a block (R154), over the voltages that R140 selects. -/
def State.wrongSequence (b : Fin 2) (s : State) : State :=
  let z := s.blockPhasors b
  let ks := (List.range 3).map fun i => voltChan b (Fin.ofNat 4 i)
  let ready := ks.all fun k => chanOn s.live k && !s.chans[k].blkBad
  let high := z.all fun x => declared s.live b ≤ absC x * 4
  if !ready || !high then s
  else
    let q := sequenceIn z
    let old := s.buses[b].seq
    let new := old.step (q.pos < q.neg) (q.neg * 2 < q.pos) 1 5 s.tb.blkStart
    let ratio := if q.pos = 0 then Config.undefinedRatio.setWidth 32 else toF32 (q.neg / q.pos)
    (s.onBus b fun x => { x with seq := new }).detected (8 * b.val + 4) .wrongSequence (.bus b) (le 4 ratio.toNat) old new

/-- DC_PRESENT of a channel at the close of a block (R154). -/
def State.dcPresent (k : Fin 136) (s : State) : State :=
  let th := fld (s.live (.ch k .dcth)) 15 0
  if !chanOn s.live k || th = 0 || s.chans[k].blkBad then s
  else
    let mean := meanR s.chans[k].blkDc
    let limit := (th : Rat) / 100000 * fullScale s.live k
    let old := s.chans[k].dcDet
    let new := old.step (limit < absR mean) (absR mean * 2 < limit) 5 5 s.tb.blkStart
    (s.onChan k fun c => { c with dcDet := new }).detected (144 + k.val) .dcPresent (.channel k) (le 4 (toF32 mean).toNat) old new

/-- The mean of each Hall axis over the closing block, in mT. -/
def meanHall (l : List (Rat × Rat × Rat)) : Rat × Rat × Rat :=
  (meanR (l.map Prod.fst), meanR (l.map fun x => x.2.1), meanR (l.map fun x => x.2.2))

/-- MAGNET at the close of a block (R154): no reading in the block is no valid input. -/
def State.magnet (s : State) : State :=
  if s.anv.hall.isEmpty then s
  else
    let (x, y, z) := meanHall s.anv.hall
    let field := Config.sqrt (x * x + y * y + z * z)
    let limit : Rat := (fld (s.live .pqMagth) 15 0 : Rat) / 10
    let old := s.pq.magnet
    let new := old.step (limit < field) (field * 5 < limit * 4) 2 5 s.tb.blkStart
    let s1 := { s with pq := { s.pq with magnet := new }, anv := { s.anv with hall := [] } }
    s1.detected 1000 .magnet .device (le 4 (toF32 field).toNat) old new

/-- The detectors judged at every block closure (R154). -/
def State.blockDetectors (s : State) : State :=
  (chain allChans State.dcPresent (chain (List.finRange 2) State.wrongSequence s)).magnet

end Sys2Proof.Machine
end

