-- ==== Sys2Proof/Machine/Survey.lean ====
section
/-!
DEFINITION. The supraharmonic survey: the levels of a set, its records and the ring (R161 to R170).
-/
namespace Sys2Proof.Machine

/-! ### Levels (R161, R162, R163, R168) -/

/-- The bins left out around the chopping line of a SENSOR = 1 channel (R163). -/
def chopBin (sensor k : Nat) : Bool := sensor = 1 && 382 ≤ k && k ≤ 385

/-- The code of an rms amplitude, a fraction of full-scale peak: hundredths of a decibel below the rms value of a sine at
full-scale peak, within 0 to 0xFFFE (R168). -/
def levelCode (y : Rat) : Nat :=
  if y ≤ 0 then 0xFFFE
  else (max 0 (min 0xFFFE (roundEven (-(2000 * Config.log10 (y * Config.sqrt 2)))))).toNat

/-- The rms value of some bins, given with their squared magnitudes (R162): 1.5 is the noise bandwidth of the window in bins. -/
def binsRms (l : List (Nat × Rat)) : Rat := Config.sqrt (sumR (l.map Prod.snd) * 2 / 3)

/-- The bin with the largest magnitude, the lowest of equal ones (R162). -/
def peakBin : List (Nat × Rat) → Nat × Rat
  | [] => (0, 0)
  | x :: l => l.foldl (fun best y => if best.2 < y.2 then y else best) x

/-- The bins that count, with their squared magnitudes averaged over the valid windows (R161, R163); `gain` is the channel's
calibration gain, which enters every sample (R86). -/
def WbSlot.bins (w : WbSlot) (sensor : Nat) (gain : Rat) : List (Nat × Rat) :=
  ((surveyBins.zip w.sums).map fun x => (x.1, gain * gain * x.2 / (w.windows : Rat))).filter fun x => !chopBin sensor x.1

/-- Rms code, peak code and peak index of a group (R162, R168, R169). -/
def groupLevel (bins : List (Nat × Rat)) (g : Nat) : Nat × Nat × Nat :=
  let l := bins.filter fun x => x.1 / 10 = g + 1
  let p := peakBin l
  (levelCode (binsRms l), levelCode (Config.sqrt p.2), p.1 % 10)

/-! ### Records and sets (R165, R169) -/

/-- The flags of a channel's record and whether it carries levels (R165, R169). A channel FAILED, or of ORDER 3 or 5, for a part of
the set only is INVALID (DEDUCED, log 86). -/
def WbSlot.flags (w : WbSlot) : Nat × Bool :=
  let marks := flag 2 w.subst + flag 3 w.brdg + flag 4 w.clip
  if w.off = setFrames then (flag 6 true, false)
  else if w.order = setFrames then (flag 5 true, false)
  else if w.failed = setFrames then (flag 7 true, false)
  else if w.bad then (flag 1 true + marks, w.windows ≠ 0)
  else (flag 0 true + marks, w.windows ≠ 0)

/-- A channel record of 464 bytes (R163, R169). -/
def State.surveyRecord (s : State) (i : Fin 24) : List Byte :=
  let k := surveyChan s.wb.next i.val
  let w := s.wb.slots[i]
  let (flags, has) := w.flags
  let bins := w.bins (sensorOf s.live k) (gainQ s.mcal.live.ch[k].gain)
  let group := fun (g : Nat) =>
    let x := if has then groupLevel bins g else (0xFFFF, 0xFFFF, 0)
    le 2 x.1 ++ le 2 x.2.1 ++ le 1 x.2.2 ++ le 1 (flag 0 (g = 37 && sensorOf s.live k = 1))
  le 1 k.val ++ le 1 i.val ++ le 2 flags ++ le 2 (if has then levelCode (binsRms bins) else 0xFFFF)
    ++ le 1 (if s.chans[k].within [.carried] (ticksOf s.surveyInstant) then (spareSlot (groupOf k)).val else k.val)
    ++ zeros 9 ++ (List.range 74).flatMap group ++ zeros 4

/-- A set in the layout of R169 as it is published; its end is the pin instant of slot 0 now (R167). -/
def State.surveySet (s : State) : List Byte :=
  let n := s.wb.next
  let status := flag 3 true + flag 4 s.wb.degr + flag 5 s.wb.stepped
  le 6 n ++ le 1 (n % 8) ++ le 1 status ++ s.wb.started.bytes ++ (s.stampOf s.surveyInstant).bytes ++ le 2 79 ++ zeros 22
    ++ (List.finRange 24).flatMap s.surveyRecord

/-- A set may start on the interval whose analysis begins now, where the survey has been on since that interval began at the pins
(R164, R166, R167). -/
def State.startSet (s : State) : State :=
  { s with wb :=
    { s.wb with
      running := s.surveyOn && surveyLag ≤ s.wb.onFor, frames := 0, started := s.stampOf s.surveyInstant, degr := false
      stepped := false, ended := false
      slots := Vector.replicate 24 .reset } }

/-- The running set is published (R170); the number of a set that has begun since and was discarded is consumed (R166). -/
def State.publishSet (s : State) : State :=
  if !s.wb.running then s
  else
    let set : WbSet := ⟨s.wb.next, s.surveySet, []⟩
    { s with wb := { s.wb with ring := (set :: s.wb.ring).take 8, next := (s.wb.next + if s.wb.ended then 2 else 1) % 2 ^ 48 } }

/-- WB_SET_END (R166, R167, R170): the interval of 81 920 frames is over; a running set is published, and the next one starts. -/
def execWbSetEnd (s : State) : Host.Outcome State Fault Refusal :=
  .next (if !s.powered || s.wb.frames < setFrames then s
    else if s.wb.running then s.publishSet.startSet.pendInt 21 else s.startSet)

/-! ### The section of a folio (R2, R169) -/

/-- The newest set is the last one completed before the survey stopped (R166, R169): the survey is stopped, or a number after it
was consumed by a set that was discarded. -/
def State.surveyStale (s : State) : Bool :=
  match s.wb.ring with
  | [] => false
  | x :: _ => !s.surveyOn || (x.number + 1) % 2 ^ 48 ≠ s.wb.next

/-- The wideband section of a folio cut now (R2, R169). -/
def State.surveySection (s : State) : List Byte :=
  match s.dev.variant with
  | .bgw => zeros 7 ++ [1] ++ zeros 11192
  | _ =>
    let bs := match s.wb.ring with | [] => zeros 11200 | x :: _ => x.bytes
    let status := ((bs.drop 7).headD 0).toNat ||| (flag 1 s.surveyStale + flag 2 (!bit (s.live .wbCfg) 0))
    bs.take 7 ++ [BitVec.ofNat 8 status] ++ bs.drop 8

end Sys2Proof.Machine
end

