-- ==== Sys2Proof/Machine/FolioCut.lean ====
section
/-!
DEFINITION. Folios: what a cut copies, the bytes of every section, and sealing (R107, R110, R115, R152, R153, R181 to R187,
R194).
-/
namespace Sys2Proof.Machine

/-! ### The image of a cut -/

/-- The pulse block of an output (R181). -/
def State.pulseBlock (s : State) (n : Fin 8) : List Byte :=
  let p := s.pulses[n]
  let cfg := s.live (.pulCfg n)
  let test := s.live (.pulTest n)
  let const := if bit test 31 then word (fld test 19 0) else s.live (.pulConst n)
  let paced : Bool := (fld cfg 25 24 = 0 || fld cfg 25 24 = 3) && 2 ≤ fld cfg 3 0
  le 4 cfg.toNat ++ le 4 const.toNat ++ le 8 (p.n % 2 ^ 48) ++ le 12 (unsigned 96 p.g)
    ++ le 4 ((s.pulStatus n).toNat % 8 + flag 3 (p.g < 0) + flag 4 p.lateBlock + flag 5 paced)
    ++ le 12 (unsigned 96 p.a) ++ zeros 4 ++ p.base.bytes

/-- The number of the oldest profile record held: that of the next record while none is (R118). -/
def Profile.oldest (p : Profile) : Nat :=
  match p.ring with
  | [] => p.next
  | x :: _ => x.number

/-- The newest event number (R235). -/
def Events.newest (e : Events) : Nat := (e.next + 2 ^ 48 - 1) % 2 ^ 48

/-- The device as a folio cut now would copy it (R182, R185). -/
def State.image (s : State) : Image where
  chans := s.chans
  spares := s.spares.map Spare.word
  pts := s.pts
  buses := s.buses
  pulses := (List.finRange 8).flatMap s.pulseBlock
  eff := s.eff
  variant := s.dev.variant
  tbStat := s.tb.status (s.live .reflist)
  tbFreq := word s.tb.freq
  lastCyc := s.tb.lastCycle
  blots := s.anv.blots
  evNew := s.ev.newest
  evLost := s.ev.lost
  grd := s.guard.flags
  folStat := s.fol.status
  devWord := word (s.dev.st.code + flag 8 s.flt.degraded)
  digest := s.mcal.digest
  dCycle := s.mcal.commitCycle
  commits := s.mcal.commits
  mcal := s.mcalStatus
  profNew := s.prof.newest
  profOld := s.prof.oldest
  profAck := s.prof.ack
  profHash := s.prof.hash
  wb := s.surveySection
  caps := (List.finRange 2).map s.capDescriptor

/-- A demand as a folio of the boundary shows it: the window that a change of DEMAND there emptied is still in it (R194). -/
def Demand.asCut (d : Demand) : Demand := { d with subs := d.oldSubs.getD d.subs }

/-- What closes at the same boundary after the cycle enters the image: block values, aggregates, demand, profile and balance
intervals (R182). A folio cut at the boundary of a demand reset shows the values after it (DESIGN CHOICE, log 125). -/
def Image.refill (s : State) (i : Image) : Image :=
  { i with
    chans := Vector.ofFn fun k =>
      { i.chans[k] with block := s.chans[k].block, out150 := s.chans[k].out150, out10 := s.chans[k].out10 }
    pts := Vector.ofFn fun p => { i.pts[p] with dem := s.pts[p].dem.asCut, profLost := s.pts[p].profLost }
    buses := Vector.ofFn fun b => { s.buses[b] with bal := { s.buses[b].bal with span := i.buses[b].bal.span } }
    profNew := s.prof.newest, profOld := s.prof.oldest, profHash := s.prof.hash }

/-- The filling folio of the present boundary takes in what has closed since. -/
def State.refill (s : State) : State :=
  match s.fol.filling with
  | some f =>
    if f.cut.cycle = s.tb.cycle then
      { s with fol := { s.fol with filling := some { f with img := f.img.refill s } } }
    else s
  | none => s

/-! ### Cutting and sealing (R182 to R187, R194) -/

/-- The image shows the device in Banked (R185): what takes effect at the boundary itself is in no part of it. -/
def Image.banked (i : Image) : Bool := fld i.devWord 2 0 = DevState.banked.code

/-- Header byte 3 of a cut (R185, R196). -/
def State.cutFlags (s : State) (i : Image) (short : Bool) : Nat :=
  flag 0 short + s.fol.readyFlags + flag 3 s.grd.quenched + flag 4 s.fol.first + flag 5 s.fol.degr + flag 6 i.banked
    + flag 7 s.fol.stepped

/-- A folio whose filling is complete becomes the newest sealed one; what nothing holds is reclaimed (R184, R187). -/
def State.seal (ecc : Bool) (s : State) : State :=
  match s.fol.filling with
  | none => s
  | some f =>
    let f1 := if ecc then { f with flags := f.flags ||| 8 } else f
    ({ s with fol := ({ s.fol with filling := none, shut := f1 :: s.fol.shut }).reclaim }).pendInt 16

/-- A folio is cut at the present boundary; `cause` bit 0 block cut, bit 1 demanded cut. A second cause at the same boundary
joins the first (R182). -/
def State.cut (cause : Nat) (short : Bool) (s : State) : State :=
  let same : Bool := match s.fol.filling with
    | some f => decide (f.cut.cycle = s.tb.cycle)
    | none => false
  if same then
    let join := fun (f : Folio) =>
      { f with cause := f.cause ||| cause, flags := f.flags ||| flag 0 short, img := f.img.refill s }
    { s with fol := { s.fol with filling := s.fol.filling.map join } }
  else
    let s := s.seal false
    let img := (s.fol.ready.getD s.image).refill s
    let f : Folio :=
      ⟨s.fol.next, cause, s.cutFlags img short, sat 0xFFFF s.fol.spanCycles, s.tb.boundary, s.fol.spanStart, img, []⟩
    let fol :=
      { s.fol with
        filling := some f, next := (s.fol.next + 1) % 2 ^ 48, spanStart := s.tb.boundary, spanCycles := 0
        first := false, degr := false, stepped := false }
    { s with
      fol := fol
      buses := s.buses.map fun x => { x with bal := { x.bal with span := .zero } }
      pulses := s.pulses.map fun p => { p with lateBlock := false } }

/-- FOLIO_SEALED (R184, R257): filling is complete. A closure with both its rows comes first. -/
def execFolioSealed (ecc : Bool) (s : State) : Host.Outcome State Fault Refusal :=
  .next (if s.metering && s.blockDue then s else s.seal ecc)

/-! ### The bytes of a folio (R185) -/

/-- A word of the image's parameters in force. -/
def Image.live (i : Image) (r : Reg) : Word := i.eff.at r.addr

/-- Whole register units of an accumulator (R92, R107). -/
def wholeUnits (acc : Nat) : Nat := acc / 2 ^ 32

/-- The unit of the short counters in register units (R110). -/
def scUnit (f : Reg → Word) (p : Fin 128) : Nat := 10 ^ fld (f (.pt p .scunit)) 2 0

/-- A short counter (R110). -/
def shortCount (total u : Nat) : Nat := total / u % 2 ^ 32

/-- A wrap count (R110). -/
def wrapCount (total u : Nat) : Nat := total / (u * 2 ^ 32) % 256

/-- The billing block of a point, 256 bytes (R107). -/
def Image.billing (i : Image) (p : Fin 128) : List Byte :=
  let x := i.pts[p]
  let held := x.acc.toList.map wholeUnits
  let totals := held.take 8 ++ (if isQ3P4Point i.live p then (held.drop 8).take 6 else List.replicate 6 0) ++ held.drop 14
  let u := scUnit i.live p
  totals.flatMap (le 8) ++ (totals.take 8).flatMap (fun t => le 4 (shortCount t u))
    ++ (totals.take 8).flatMap (fun t => le 1 (wrapCount t u))
    ++ le 1 (fld (i.live (.pt p .scunit)) 2 0) ++ le 1 (flag 0 x.wrapped + flag 1 x.reconciled) ++ zeros 2
    ++ le 4 (i.live (.pt p .fpid)).toNat ++ le 4 x.profLost ++ le 4 x.dem.resets ++ zeros 24

/-- Energy in 2^-32 register units over a time in seconds: W, var or VA (R92, R114). -/
def meanPower (e : Nat) (t : Rat) : Rat := if t = 0 then 0 else (e : Rat) * 36 / ((2 ^ 32 : Nat) : Rat) / t

/-- The interval length of a point's demand in seconds (R113). -/
def demandSeconds (w : Word) : Nat := 60 * intervalMinutes (fld w 11 8)

/-- The energy of the running interval so far: with METHOD = 1, the subintervals before it as well (R115). -/
def runningEnergy (w : Word) (d : Demand) (i : Nat) : Nat :=
  let before := if bit w 1 then (d.subs.take (fld w 15 12 - 1)).map fun x => nth x.e i 0 else []
  before.foldl (· + ·) (nth d.run.e i 0)

/-- The marks of an interval as flags (R115). -/
def Marks.word (m : Marks) : Nat :=
  flag 0 m.part + flag 1 m.stepped + flag 2 m.pending + flag 3 m.bridged + flag 4 m.faulted

/-- Sixteen bytes of a timestamp that may be absent: zeros. -/
def stampBytes (t : Option Stamp) : List Byte := (t.map Stamp.bytes).getD (zeros 16)

/-- The demand block of a point, 256 bytes (R115). -/
def Image.demand (i : Image) (p : Fin 128) : List Byte :=
  let d := i.pts[p].dem
  let w := i.live (.pt p .demand)
  let run := fun n =>
    if bit w 0 then toF32 (meanPower (runningEnergy w d n) ((demandSeconds w : Nat) : Rat)) else 0
  wordBytes ((List.range 8).map run) ++ wordBytes d.last ++ wordBytes d.max ++ d.maxAt.flatMap stampBytes
    ++ le 4 d.lastMark.word ++ zeros 28

/-- The ten values of a phase (R88, R185). -/
def PhaseQ.bytes (q : PhaseQ) : List Byte :=
  wordBytes ([q.u, q.i, q.u1, q.i1, q.theta, q.p, q.qf, q.qt, q.s, q.d].map toF32)

/-- The nine values of a point (R90, R185). -/
def PointQ.bytes (q : PointQ) : List Byte :=
  wordBytes ([q.p, q.qf, q.qt, q.sA, q.sV, q.sE, q.pf, q.iN, q.freq].map toF32)

/-- The point values of a point, 160 bytes; an OFF point's block is zero (R105, R185). -/
def Image.values (i : Image) (p : Fin 128) : List Byte :=
  let x := i.pts[p]
  if x.st = .off then zeros 160
  else
    let phase := fun (n : Fin 3) => if n.val = 0 || isThreePhase i.live p then x.phases[n].q.bytes else zeros 40
    phase 0 ++ phase 1 ++ phase 2 ++ x.q.bytes ++ le 4 x.stateWord.toNat

/-- The channel status of a channel, 16 bytes (R185). -/
def Image.status (i : Image) (k : Fin 136) : List Byte :=
  let c := i.chans[k]
  let filt := i.live (.ch k .filt)
  wordBytes [c.stateWord, c.driftWord, c.skewWord k filt, c.filtSt filt]

/-- The channel block of a channel, 416 bytes (R152). -/
def Image.chanBlock (i : Image) (k : Fin 136) : List Byte :=
  let b := i.chans[k].block
  if !chanOn i.live k then zeros 16 ++ le 2 0x20 ++ zeros 398
  else
    le 4 b.y1.toNat ++ le 4 b.rms.toNat ++ le 4 b.dc.toNat ++ le 2 b.thds ++ le 2 b.tdd ++ le 2 b.flags ++ le 2 b.cycles
      ++ zeros 12 ++ fit 128 (b.ratios.flatMap (le 2)) ++ fit 128 (b.phases.flatMap (le 2)) ++ fit 128 (b.inters.flatMap (le 2))

/-- Values as binary32, filled with zeros. -/
def floats (n : Nat) (l : List Rat) : List Byte := fit (4 * n) (wordBytes (l.map toF32))

/-- The bus block of a bus, 128 bytes (R153). -/
def Image.busBlock (i : Image) (b : Fin 2) : List Byte :=
  let x := i.buses[b]
  let opts := fun (l : List (Option Rat)) => floats 3 (l.map fun v => v.getD 0)
  let flags := flag 0 x.blockFlag + flag 1 x.out150.flagged + flag 2 x.out10.flagged + flag 3 x.out2h.flagged
    + flag 4 x.blockShort + flag 5 x.out150.short + flag 6 x.out10.short + flag 7 x.out2h.short
    + flag 8 (x.out150.stepped || x.out10.stepped || x.out2h.stepped) + flag 9 x.u2bad + flag 10 x.u0bad
  let active := flag 0 x.dip.isSome + flag 1 x.swell.isSome + flag 2 x.intr.isSome + flag 3 (x.rvc.toList.any Rvc.active)
    + flag 4 x.seq.active + flag 5 x.neutral.active + put 31 16 x.rvcLost
  floats 1 [x.freq] ++ le 4 (flag 0 x.freqFlag) ++ floats 4 x.blockRms ++ floats 4 x.out150.vals ++ floats 4 x.out10.vals
    ++ floats 4 x.out2h.vals ++ floats 2 [x.u2, x.u0] ++ floats 2 x.u2out.vals ++ opts x.lastLeast ++ opts x.lastGreatest
    ++ le 4 flags ++ le 4 active ++ floats 1 [x.usr] ++ zeros 4

/-- A ratio of R152 in units of 2^-14, saturating; of a fundamental that is zero it is not stated (log 1). -/
def ratio14 (x y : Rat) : Nat :=
  if y = 0 then Config.undefinedRatio.toNat else min 0xFFFF (roundEven (x / y * 16384)).toNat

/-- THDS over subgroups, orders 0 to 63, as a ratio; 0 while the fundamental subgroup is 0 (R151). -/
def thdsOf (hmax : Nat) (y : List Rat) : Nat :=
  let y1 := nth y 1 0
  if y1 = 0 then 0
  else ratio14 (Config.sqrt (sumR (((y.take (hmax + 1)).drop 2).map fun x => x * x))) y1

/-- Ratios of subgroups, orders 0 to 63; order 1 reads 0x4000 (R152). -/
def ratiosOf (y : List Rat) : List Nat :=
  ((List.range y.length).zip y).map fun x => if x.1 = 1 then 0x4000 else ratio14 x.2 (nth y 1 0)

/-- The voltage aggregate block of a channel, 288 bytes (R153). -/
def Image.voltBlock (i : Image) (k : Fin 136) : List Byte :=
  let c := i.chans[k]
  let hmax := fld (i.live .pqCfg) 5 0
  let flags := flag 0 c.out150.flagged + flag 1 c.out10.flagged + flag 2 c.out150.short + flag 3 c.out10.short
  fit 128 ((ratiosOf c.out150.vals).flatMap (le 2)) ++ fit 128 ((ratiosOf c.out10.vals).flatMap (le 2))
    ++ le 2 (thdsOf hmax c.out150.vals) ++ le 2 (thdsOf hmax c.out10.vals) ++ le 4 flags ++ zeros 24

/-- A signed 64-bit whole number of cWh of a balance sum (R122). -/
def balanceBytes (x : Int) : List Byte := le 8 (unsigned 64 (roundEven ((x : Rat) / ((2 ^ 32 : Nat) : Rat))))

/-- The four sums of a balance (R122). -/
def BalAcc.bytes (a : BalAcc) : List Byte :=
  balanceBytes a.rImp ++ balanceBytes a.rExp ++ balanceBytes a.eImp ++ balanceBytes a.eExp

/-- The balance block of a bus, 136 bytes (R185). -/
def Image.balance (i : Image) (b : Fin 2) : List Byte :=
  let x := i.buses[b].bal
  x.last.bytes ++ le 8 x.last.nImp ++ le 8 x.last.nExp ++ x.lastOpen.bytes ++ x.lastShut.bytes
    ++ le 4 (flag 0 (bit (i.live (.bus b .balcfg)) 15) + x.lastFlag) ++ x.span.bytes ++ le 8 x.span.nImp ++ le 8 x.span.nExp
    ++ zeros 4

/-- The folio header, 256 bytes (R185). -/
def Folio.header (f : Folio) : List Byte :=
  le 2 1 ++ le 1 f.cause ++ le 1 f.flags ++ le 2 f.cycles ++ zeros 2 ++ le 6 f.number ++ zeros 2 ++ f.cut.bytes ++ f.start.bytes
    ++ le 4 163840 ++ zeros 204

/-- The header of the billing section, 512 bytes (R185). -/
def Folio.billingHeader (f : Folio) : List Byte :=
  let i := f.img
  le 6 f.number ++ le 2 1 ++ f.cut.bytes ++ le 8 Config.serial.toNat ++ fit 32 i.digest ++ le 6 i.dCycle ++ zeros 2
    ++ le 4 i.commits ++ le 4 i.mcal.toNat ++ le 6 i.profNew ++ le 6 i.profOld ++ le 6 i.profAck ++ zeros 14
    ++ fit 32 i.profHash ++ i.balance 0 ++ i.balance 1 ++ zeros 96

/-- The billing section, bytes 0x0100 to 0x102FF (R185, R195). -/
def Folio.billingSection (f : Folio) : List Byte :=
  f.billingHeader ++ allPts.flatMap f.img.billing ++ allPts.flatMap f.img.demand

/-- The device-state block, 256 bytes (R185). -/
def Image.deviceState (i : Image) : List Byte :=
  le 4 i.tbStat.toNat ++ le 4 i.tbFreq.toNat ++ le 8 i.lastCyc ++ le 16 i.blots.toNat
    ++ wordBytes i.spares.toList ++ le 8 i.evNew ++ le 4 i.evLost ++ le 4 i.grd.toNat ++ le 4 i.folStat.toNat
    ++ le 4 i.devWord.toNat ++ zeros 64

/-- The 163 840 bytes of a folio (R185). -/
def Folio.bytes (f : Folio) : List Byte :=
  let i := f.img
  f.header ++ f.billingSection ++ allPts.flatMap i.values ++ allChans.flatMap i.status ++ allChans.flatMap i.chanBlock
    ++ i.busBlock 0 ++ i.busBlock 1 ++ (allChans.drop 128).flatMap i.voltBlock ++ i.pulses ++ i.caps.flatMap (fit 128)
    ++ i.deviceState ++ fit 11200 i.wb ++ zeros 3520

end Sys2Proof.Machine
end

