-- ==== Sys2Proof/Machine/Journal.lean ====
section
/-!
DEFINITION. Journal records, checkpoints and ceilings (R301 to R305), and the accumulator bank with its mirror (R255, R256).
-/
namespace Sys2Proof.Machine

/-! ### Records (R301, R304, R305) -/

/-- The next number of every series (R305). -/
def State.nextNumbers (s : State) : Ceilings :=
  ⟨s.nextBoundary, s.fol.next, s.ev.next, s.prof.next, s.wb.next, s.pq.next⟩

/-- The block of every series (R305). -/
def seriesBlock : Ceilings := ⟨131072, 131072, 1048576, 4096, 16384, 256⟩

/-- Two sets of numbers combined. -/
def Ceilings.with_ (f : Nat → Nat → Nat) (a b : Ceilings) : Ceilings :=
  ⟨f a.cycle b.cycle, f a.folio b.folio, f a.event b.event, f a.profile b.profile, f a.wb b.wb, f a.cap b.cap⟩

/-- The numbers as a list. -/
def Ceilings.list (a : Ceilings) : List Nat := [a.cycle, a.folio, a.event, a.profile, a.wb, a.cap]

/-- A series has come within a quarter of its block of its ceiling (R305). -/
def State.ceilingNear (s : State) : Bool :=
  (s.nextNumbers.list.zip (s.pwr.ceil.list.zip seriesBlock.list)).any fun x => x.2.1 ≤ x.1 + x.2.2 / 4

/-- Every ceiling raised to the next number plus its block (R305). -/
def State.raisedCeilings (s : State) : Ceilings := s.nextNumbers.with_ (· + ·) seriesBlock

/-- Display regions with a waveform running or pending, or DIRTY (R301, R378). -/
def State.dirtyRegions (s : State) : BitVec 8 :=
  BitVec.ofNat 8 (regionBits s.pnl fun r => r.dirty || r.run.isSome || r.slot.isSome)

/-- A cycle has closed since start-up. -/
def State.closedOne (s : State) : Bool := s.metering && !s.tb.periods.isEmpty

/-- The active reference is valid (R67, R74, R310). -/
def State.lineValid (s : State) : Bool :=
  match idx? 8 s.tb.active with
  | some c => s.tb.cands[c].valid
  | none => s.tb.active = 8 && s.tb.lsync.valid

/-- A journal record of the present state (R301, R304), as of the last cycle closure; before the first one it carries on what
the restored record says of the last cycle. -/
def State.record (s : State) (ceil : Ceilings) : JRec where
  seq := s.pwr.seqNo
  pts := s.pts
  heads := Vector.ofFn fun p => (s.live (.pt p .scunit), s.live (.pt p .fpid))
  digest := s.mcal.jdigestNow
  commit := s.mcal.jcommit
  everSet := s.mcal.everSet
  stamp := if s.closedOne then { s.tb.prevBoundary with cycle := s.tb.lastCycle } else s.dev.startup.unmeteredFrom
  profNew := s.prof.newest
  profHash := s.prof.hash
  profAck := s.prof.ack
  profMap := s.prof.map
  profRuns := s.prof.runs
  nexts := s.nextNumbers
  ceilings := ceil
  logNew := s.anv.logNewest
  blots := s.anv.blots
  dirty := s.dirtyRegions
  lineValid := if s.closedOne then s.lineValid else s.dev.startup.lineAtFailure
  metered := s.closedOne || s.dev.startup.hadJournal

/-- A record number is given: it lengthens the newest run, or opens one (R120). -/
def noteRun (n : Nat) : List (Nat × Nat) → List (Nat × Nat)
  | (a, c) :: rest => if a + c = n then (a, c + 1) :: rest else (n, 1) :: (a, c) :: rest
  | [] => [(n, 1)]

/-- What is left of the runs after an acknowledgement (R118). -/
def ackRuns (n : Nat) (l : List (Nat × Nat)) : List (Nat × Nat) :=
  (l.map fun x => if x.1 ≤ n then (n + 1, x.1 + x.2 - (n + 1)) else x).filter fun x => x.2 ≠ 0

/-- The places that sequences take in rotation in the journal region (R322, R390; DEDUCED, log 115). -/
def journalPlaces : Nat := 8

/-- An erased sequence is taken, the next one of the rotation (R322, R390). -/
def Power.takeSequence (p : Power) : Power :=
  { p with erased := p.erased - 1, seqNo := p.seqNo + 1, opened := p.opened + 1 }

/-- A record is written into the sequence taken last; its ceilings are the ones in force (R305). -/
def State.writeRecord (r : JRec) (s : State) : State :=
  { s with pwr := { s.pwr with records := { r with seq := s.pwr.seqNo - 1 } :: s.pwr.records, ceil := r.ceilings } }

/-- A checkpoint takes a sequence of its own (R390); it waits for one where none is erased. -/
def State.writeCheckpoint (s : State) : State :=
  if s.pwr.erased = 0 then { s with pwr := { s.pwr with ckptDue := true } }
  else ({ s with pwr := { s.pwr.takeSequence with ckptDue := false } }).writeRecord (s.record s.raisedCeilings)

/-- A checkpoint, regular or extra: none while a power-fail sequence runs (R304, R305, R309). -/
def State.checkpoint (s : State) : State := if s.pwr.pfail || !s.dev.startup.restored then s else s.writeCheckpoint

/-- An extra checkpoint where a series nears its ceiling (R305). -/
def State.extraCheckpoint (s : State) : State := if s.ceilingNear then s.checkpoint else s

/-! ### Accumulators (R255, R256) -/

/-- The newest sealed folio. -/
def State.newest? (s : State) : Option Folio := s.fol.shut.head?

/-- The detail of UNMETERED (R310, R324). -/
def State.unmeteredDetail (s : State) (from_ : Stamp) (cause : Nat) (atFailure : Bool) : List Byte :=
  le 6 from_.cycle ++ from_.bytes ++ le 1 cause
    ++ le 1 (flag 0 atFailure + flag 1 s.dev.startup.lineAtStart + flag 2 s.dev.startup.calInvalid)

/-- A quantity of a group of sums, in the order of R238, is replaced. -/
def SumGroup.lose (i : Fin 7) (x : Rat) (g : SumGroup) : SumGroup :=
  match i with
  | 0 => { g with p := x }
  | 1 => { g with qraw := x }
  | 2 => { g with qh := x }
  | 3 => { g with s := x }
  | 4 => { g with u2 := x }
  | 5 => { g with i2 := x }
  | 6 => { g with count := x.floor.toNat }

/-- A quantity of one of the twelve groups, six measured and six bridged, is replaced. -/
def Sums.lose (g : Fin 12) (i : Fin 7) (x : Rat) (y : Sums) : Sums :=
  if g.val < 6 then { y with meas := upd y.meas (Fin.ofNat 6 g.val) (SumGroup.lose i x) }
  else { y with brdg := upd y.brdg (Fin.ofNat 6 (g.val - 6)) (SumGroup.lose i x) }

/-- A balance accumulator is replaced. -/
def BalAcc.lose (i : Fin 6) (x : Int) (y : BalAcc) : BalAcc :=
  match i with
  | 0 => { y with rImp := x }
  | 1 => { y with rExp := x }
  | 2 => { y with eImp := x }
  | 3 => { y with eExp := x }
  | 4 => { y with nImp := x.toNat }
  | 5 => { y with nExp := x.toNat }

/-- A, N or G of an output is replaced. -/
def Pulse.lose (i : Fin 3) (x : Int) (p : Pulse) : Pulse :=
  match i with
  | 0 => { p with a := x }
  | 1 => { p with n := x.toNat }
  | 2 => { p with g := x }

/-- A, N or G of an output as a folio's pulse block carries it (R181). -/
def Folio.pulseValue (f : Folio) (out : Fin 8) (i : Fin 3) : Int :=
  let at_ := fun (off k : Nat) => leNat ((f.img.pulses.drop (64 * out.val + off)).take k)
  match i with
  | 0 => signed 96 (at_ 32 12)
  | 1 => at_ 8 8
  | 2 => signed 96 (at_ 16 12)

/-- An accumulator is reloaded from the newest sealed folio (R256), which carries the whole units of a point's accumulators and the
values of the pulse outputs; what it does not carry is free (log 1). -/
def State.reloadCell (n : Nat) (x : AccCell) (s : State) : State :=
  match x with
  | .total p a =>
    let value := match s.newest? with
      | some f => wholeUnits f.img.pts[p].acc[a] * 2 ^ 32 + Config.lostAccumulator n % 2 ^ 32
      | none => Config.lostAccumulator n % 2 ^ 96
    s.onPt p fun y => { y with acc := upd y.acc a fun _ => value }
  | .pendingSum p g i => s.onPt p fun y => { y with pending := y.pending.lose g i (Config.lostSum n) }
  | .unreconciled p g i => s.onPt p fun y => { y with unrec := y.unrec.lose g i (Config.lostSum n) }
  | .balance b i => s.onBus b fun y => { y with bal := { y.bal with run := y.bal.run.lose i (Config.lostSigned n) } }
  | .pulse o i => s.onPulse o (Pulse.lose i ((s.newest?.map fun f => f.pulseValue o i).getD (Config.lostSigned n)))
  | .bookkeeping => s

/-- The subject of a lost accumulator, and the byte that names its quantity: coded for the accumulators of a point alone (R324), free for
the others (DESIGN CHOICE, log 113). -/
def lostAs (n : Nat) : AccCell → Option (Subject × Nat)
  | .total p a => some (.point p, accCode a.val)
  | .pendingSum p _ _ | .unreconciled p _ _ => some (.point p, n)
  | .balance b _ => some (.bus b, n)
  | .pulse _ _ => some (.device, n)
  | .bookkeeping => none

/-- The cycles of a point from the newest folio's cut to a reload are an unmetered interval (R256, R310): UNMETERED gives the last cycle
closed at that cut and, as its own instant, the start of the cycle that is still to be registered. The record of the next closure journals
it. -/
def State.lostInterval (s : State) : State :=
  let from_ := (s.newest?.map fun f => { f.cut with cycle := f.img.lastCyc }).getD { s.tb.boundary with cycle := s.tb.lastCycle }
  let s1 := (s.blot .unmetered).raiseWith .unmetered .device s.tb.boundary true true (s.unmeteredDetail from_ 4 s.lineValid)
  s1.phase fun x => { x with unmeteredDue := true }

/-- Both copies of a word are lost (R256): its accumulator is reloaded, with ACC_LOST and, for one of a point, an unmetered interval. -/
def State.accLost (x : AccCell) (s : State) : State :=
  let (n, s1) := s.fresh
  let s2 := s1.reloadCell n x
  match lostAs n x with
  | some (.point p, code) => (s2.note .accLost .accLost (.point p) (le 1 code)).lostInterval
  | some (subj, code) => s2.note .accLost .accLost subj (le 1 code)
  | none => s2

/-- A bank is fenced (R255). -/
def State.fenceBank (mirror : Bool) (s : State) : State :=
  ({ s with flt := { s.flt with
      accPrimOut := s.flt.accPrimOut || !mirror, accMirrOut := s.flt.accMirrOut || mirror } }).blot .accSimplex

/-- A word was rewritten within the last second (R255). -/
def State.rewritten (s : State) (mirror : Bool) (word : Nat) : Bool :=
  s.flt.accFixed.any fun x => x.1 = mirror && x.2.1 = word && s.clock ≤ x.2.2 + sysHz * tickParts

/-- A word is rewritten from the other bank (R255). -/
def State.rewrite (mirror : Bool) (word : Nat) (s : State) : State :=
  let recent := s.flt.accFixed.filter fun x => s.clock ≤ x.2.2 + sysHz * tickParts
  { s with flt := { s.flt with accFixed := (mirror, word, s.clock) :: recent } }

/-- A bank is out of use (R255). -/
def Flt.bankOut (x : Flt) (mirror : Bool) : Bool := if mirror then x.accMirrOut else x.accPrimOut

/-- A SECDED error in a word of accumulator SRAM, among the `errs` of one pass (R255, R256): corrected; lost where the other copy is
fenced or fails too, which the primary's error handles; otherwise served by the other bank and rewritten from it, or the bank fenced where
it was rewritten within the last second. The banks hold equal words, since every update writes both: the model keeps their one value. -/
def State.accError (errs : List AccErr) (e : AccErr) (s : State) : State :=
  let twin := errs.any fun x => x.word = e.word && x.mirror ≠ e.mirror && !x.correctable
  if s.flt.bankOut e.mirror then s
  else
    let s1 := s.raise .accFault .device (le 2 e.word ++ le 1 (if e.mirror then 1 else 0))
    if e.correctable then s1
    else if s.flt.bankOut !e.mirror then s1.accLost e.cell
    else if twin then (if e.mirror then s1 else s1.accLost e.cell)
    else if s.rewritten e.mirror e.word then s1.fenceBank e.mirror
    else s1.rewrite e.mirror e.word

/-- The errors that one pass over accumulator words meets. -/
def State.accErrors (errs : List AccErr) (s : State) : State := chain errs (State.accError errs) s

/-- ACC_SCRUB (R255): the errors that one pass over both banks meets. -/
def execAccScrub (errs : List AccErr) (s : State) : Host.Outcome State Fault Refusal :=
  .next (if s.powered then s.accErrors errs else s)

end Sys2Proof.Machine
end

