-- ==== Sys2Proof/Machine/Resample.lean ====
section
/-!
DEFINITION. The Farrow resampler: the instant at which each channel is read, the cubic interpolation of its 51.2 ksps stream, and
which samples are valid (R27, R62, R78 to R81).
-/
namespace Sys2Proof.Machine

/-! ### Instants in SYS ticks (R62, R78, R79) -/

/-- Microseconds in SYS ticks. -/
def microTicks (x : Rat) : Rat := x * (sysHz : Rat) / 1000000

/-- P, the order-4 main-path delay of slot 0 (R58, R78). -/
def mainDelay : Rat := microTicks (3096 / 10)

/-- The SYS ticks of one sample of the 51.2 ksps stream. -/
def streamTicks : Nat := 8 * frameTicks

/-- The programmed delay of a channel in SYS ticks: units of 2^-16 of a stream sample (R79). -/
def State.delayTicks (s : State) (k : Fin 136) : Rat :=
  ((signed 32 s.mcal.live.ch[k].delay.toNat : Int) : Rat) * (streamTicks : Rat) / 65536

/-- D_max of R80: the largest positive programmed delay of all 136 channels, in SYS ticks. -/
def State.delayMax (s : State) : Rat := (allChans.map s.delayTicks).foldl maxR 0

/-- The line instant of sample j of the running cycle (R62). -/
def State.lineInstant (s : State) (j : Nat) : Rat :=
  ticksOf s.tb.start + ticksOf s.tb.period * (j : Rat) / 512

/-- The frequency of the running cycle in Hz (R64, R78). -/
def State.lineHz (s : State) : Rat := 1 / periodSec s.tb.period

/-- The automatic delay term of a channel (R50). -/
def State.autoOf (s : State) (k : Fin 136) : Int := autoTerm (slotOf k s.chans[k]) (orderOf s.live k)

/-- τ of R78: the time equivalent of the DC blocker's phase lead atan(f_c / f). -/
def blockerLead (corner : Nat) (hz : Rat) : Rat := Config.argTurn hz (cornerHz corner) / hz * (sysHz : Rat)

/-- The lead that the leak leaves of the Rogowski integrator at a frequency, as a time (R27): its phase is that of
1 / (1 − pole × e^(−j·2π·f / rate)), an ideal integrator's a quarter turn behind. -/
def leakLead (hz : Rat) : Rat :=
  let w := hz / streamRate
  let turn := 1 / 4 - Config.argTurn (1 - integratorPole * Config.cosTurn w) (integratorPole * Config.sinTurn w)
  turn / hz * (sysHz : Rat)

/-- The gain that compensates the integrator at a frequency: an ideal one falls as f_nom / f (R27). -/
def leakGain (sixty : Bool) (hz : Rat) : Rat :=
  nominalHz sixty / hz * integratorLoss hz / integratorLoss (nominalHz sixty)

/-- The delay between a pin instant and the stream time at which a channel is read, but for its programmed delay (R78). -/
def State.pathDelay (s : State) (k : Fin 136) (hz : Rat) : Rat :=
  mainDelay + (s.autoOf k : Rat) - blockerLead (fld (s.live (.ch k .filt)) 9 8) hz
    - if sensorOf s.live k = 2 then leakLead hz else 0

/-- u_k(n) of R78: the stream time at which channel k is read for the line instant t. -/
def State.readTime (s : State) (k : Fin 136) (t : Rat) : Rat := t + s.delayTicks k + s.pathDelay k s.lineHz

/-! ### Invalid runs (R57, R81) -/

/-- Every kind of run. -/
def allGaps : List GapKind := .supp :: .back :: .dead :: bridges

/-! ### Interpolation (R78, R81) -/

/-- The product of a list of rationals. -/
def prodR (l : List Rat) : Rat := l.foldl (· * ·) 1

/-- The polynomial of least degree through points, at a place. -/
def lagrange (nodes : List (Rat × Rat)) (x : Rat) : Rat :=
  sumR (nodes.map fun a => a.2 * prodR ((nodes.filter fun b => b.1 ≠ a.1).map fun b => (x - b.1) / (a.1 - b.1)))

/-- Sample m of a channel's stream, where it is held; `newest` is the number of the newest one. -/
def Chan.streamAt (c : Chan) (newest : Nat) (m : Int) : Option StreamSamp :=
  if 0 ≤ m && m ≤ (newest : Int) then c.stream[((newest : Int) - m).toNat]? else none

/-- Stream sample m of a channel as a point for the interpolation, unless it is not held or its instant at the pins lies within an
invalid run (R81). -/
def State.node (s : State) (k : Fin 136) (m : Int) : Option (Rat × Rat × Bool) :=
  let c := s.chans[k]
  let pin := (m : Rat) * (streamTicks : Rat) - s.pathDelay k s.lineHz
  match c.streamAt (s.flt.frames / 8) m with
  | some x => if c.within allGaps pin then none else some ((m : Rat), x.x, x.clip)
  | none => none

/-- The valid samples that run on from a place in one direction, four at most. -/
def State.sideNodes (s : State) (k : Fin 136) (first step : Int) : List (Rat × Rat × Bool) :=
  ((((List.range 4).map fun i => s.node k (first + step * (i : Int))).takeWhile Option.isSome).filterMap id)

/-- The samples that a read at a place between sample m and the next uses (R78, R81): the two on either side, or, where one of them
is suppressed or invalid, those of the valid side, whose cubic extrapolation takes its place. -/
def State.nodes (s : State) (k : Fin 136) (m : Int) : List (Rat × Rat × Bool) :=
  let four := [m - 1, m, m + 1, m + 2].map (s.node k)
  if four.all Option.isSome then four.filterMap id
  else
    let has := fun (i : Int) => (s.node k i).isSome
    if has (m + 1) && has (m + 2) then s.sideNodes k (if has m then m else m + 1) 1
    else s.sideNodes k (if has (m + 1) then m + 1 else m) (-1)

/-- A fraction of full-scale peak in units of 2^-31, to which the engines keep samples (log 78). -/
def sampleUnits (x : Rat) : Int := roundEven (x * (2 ^ 31 : Nat))

/-- Sample j of a channel's resampled stream in the running cycle (R62, R78, R81, R101, R157): a FAILED channel's is zero, and one
whose instant lies within an invalid run is invalid. Where the stream holds no valid sample on either side, the value of an invalid one
is free (log 79). -/
def State.resample (s : State) (j : Nat) (k : Fin 136) : Samp :=
  let c := s.chans[k]
  let t := s.lineInstant j
  let dead := c.within [.dead] t
  let valid := !c.within allGaps t
  let u := s.readTime k t / (streamTicks : Rat)
  let nodes := s.nodes k u.floor
  let y := if nodes.isEmpty then Config.unseenSample k.val s.flt.frames else lagrange (nodes.map fun x => (x.1, x.2.1)) u
  let gain := if sensorOf s.live k = 2 then leakGain s.tb.nomf60 s.lineHz else 1
  { x := if dead then 0 else sampleUnits (gain * y), valid := valid, brdg := !valid && !dead
    clip := !dead && nodes.any fun x => x.2.2, subst := c.onSpare, dead := dead
    supp := c.within [.supp, .back] t, back := c.within [.back] t }

end Sys2Proof.Machine
end

