-- ==== Sys2Proof/Machine/Blocks.lean ====
section
/-!
DEFINITION. Blocks and aggregation: channel and bus block values, aggregates, the closes of blocks and of the 150/180-cycle,
10-minute, 2-hour and 10-second intervals (R75, R141 to R143, R145, R149 to R153).
-/
namespace Sys2Proof.Machine

/-! ### Channel blocks (R150 to R152) -/

/-- The voltage channel whose fundamental is the reference of a channel's phases (R150). -/
def phaseReference (f : Reg → Word) (k : Fin 136) : Fin 136 :=
  let b := busOfChan f k
  if 128 ≤ k.val then (if k.val % 4 < 3 then k else voltChan b 0)
  else match (allPts.flatMap (pointPhases f)).find? fun c => c.curr = k with
    | some c => c.volt
    | none => voltChan b 0

/-- The line frequency of a closing block: that of its last cycle (R78, R150). -/
def State.blockHz (s : State) : Rat := 1 / periodSec (s.tb.periods.headD s.tb.period)

/-- The gain of a channel's chain at an order, beside what the resampler has applied (R150): the main path of its CIC order, the
highpass of its corner (R53), and for SENSOR = 2 the integrator beside an ideal one (R27). -/
def State.chainGain (s : State) (k : Fin 136) (h : Nat) : Rat :=
  let f := s.blockHz
  let x := (h : Rat) * f
  let c := cornerHz (fld (s.live (.ch k .filt)) 9 8)
  let high := x / Config.sqrt (x * x + c * c)
  let rog := if sensorOf s.live k = 2 then leakGain s.tb.nomf60 f / leakGain s.tb.nomf60 x else 1
  Config.mainGain (orderOf s.live k) x * high * rog

/-- The phase of a channel's chain at an order, in turns, beside the times that the resampler has removed (R78, R150). -/
def State.chainPhase (s : State) (k : Fin 136) (h : Nat) : Rat :=
  let f := s.blockHz
  let x := (h : Rat) * f
  let c := fld (s.live (.ch k .filt)) 9 8
  let left := fun (lead : Rat → Rat) => x * (lead x - lead f) / (sysHz : Rat)
  Config.mainPhase (orderOf s.live k) x + left (blockerLead c) + if sensorOf s.live k = 2 then left leakLead else 0

/-- Squared amplitudes of the bins of a block, with the chain's gain at an order removed (R150). -/
def State.binPower (s : State) (k : Fin 136) (l : List Rat) (order bin : Nat) : Rat :=
  let g := s.chainGain k order
  normSq (phasorAt bin l) / (g * g)

/-- Harmonic subgroup of an order, 1 to 63, of a block of n cycles (R150). -/
def State.subgroup (s : State) (k : Fin 136) (l : List Rat) (n h : Nat) : Rat :=
  Config.sqrt (sumR ([n * h - 1, n * h, n * h + 1].map (s.binPower k l h)))

/-- Centred interharmonic subgroup of an order, 0 to 63, of a block of n cycles; 0 below four cycles (R150). -/
def State.interSubgroup (s : State) (k : Fin 136) (l : List Rat) (n i : Nat) : Rat :=
  if n < 4 then 0 else Config.sqrt (sumR ((span (n * i + 2) (n - 3)).map (s.binPower k l (max 1 i))))

/-- The argument of an order in turns, with the chain's phase removed (R150). -/
def State.orderPhase (s : State) (k : Fin 136) (l : List Rat) (n h : Nat) : Rat :=
  let z := phasorAt (n * h) l
  Config.argTurn z.1 z.2 - s.chainPhase k h

/-- The phases of a block, φ_0 first; all 0 while the reference is below 5 % of U_din (R150, R152). -/
def State.blockPhases (s : State) (k : Fin 136) (l : List Rat) (n : Nat) (weak : Bool) : List Nat :=
  let r := phaseReference s.live k
  let v := s.orderPhase r s.chans[r].blk n 1
  (List.range 64).map fun h =>
    if weak || h = 0 then 0
    else unsigned 16 (roundEven (reduceTurn (s.orderPhase k l n h - (h : Rat) * v) * 65536))

/-- The reference of a channel is below 5 % of its bus's declared voltage (R150). -/
def State.weakReference (s : State) (k : Fin 136) (n : Nat) : Bool :=
  let r := phaseReference s.live k
  absC (phasorAt n s.chans[r].blk) * 20 < udin s.live (busOfChan s.live r)

/-- The demand current of the point that a channel serves; 0: none (R151). -/
def State.demandCurrent (s : State) (k : Fin 136) : Rat :=
  match servedPoint s.live k with
  | some p => f32D (s.live (.pt p .tddil))
  | none => 0

/-- The subgroups of a channel's block: order 0 is the magnitude of the mean DC content (R150). -/
def State.subgroups (s : State) (k : Fin 136) (l : List Rat) (n : Nat) : List Rat :=
  absR (meanR s.chans[k].blkDc) :: (span 1 63).map (s.subgroup k l n)

/-- The rms value of a channel over the closing block (R87, R141, R152). -/
def Chan.blockRms (c : Chan) : Rat := rootOf (meanSq c.blk - meanR c.blkOfs)

/-- The values of a channel's closing block (R152). -/
def State.channelBlock (s : State) (k : Fin 136) (short : Bool) : ChBlock :=
  let c := s.chans[k]
  let n := s.tb.blkCycles
  if !chanOn s.live k then { ChBlock.empty with flags := 0x20 }
  else
    let l := c.blk
    let y := s.subgroups k l n
    let y1 := nth y 1 0
    let hmax := fld (s.live .pqCfg) 5 0
    let distortion := Config.sqrt (sumR (((y.take (hmax + 1)).drop 2).map fun x => x * x))
    let il := s.demandCurrent k
    let weak := s.weakReference k n
    let failed := match c.st with | .failed => true | _ => false
    { y1 := toF32 y1, rms := toF32 c.blockRms, dc := toF32 (meanR c.blkDc), thds := thdsOf hmax y
      tdd := if il = 0 then 0 else ratio14 distortion il
      flags := flag 0 s.buses[busOfChan s.live k].flagged + flag 1 s.tb.blkUnlocked + flag 2 c.blkBad + flag 3 short
        + flag 4 failed + flag 6 weak + flag 7 (y1 = 0)
      cycles := n, ratios := ratiosOf y, phases := s.blockPhases k l n weak
      inters := (List.range 64).map fun i => ratio14 (s.interSubgroup k l n i) y1 }

/-! ### Aggregates (R142) -/

/-- Values enter an aggregate with a weight. -/
def Agg.add (w : Nat) (vals : List Rat) (flagged : Bool) (a : Agg) : Agg :=
  { a with
    weight := a.weight + w, blocks := a.blocks + 1
    sq := addLists a.sq (vals.map fun x => (w : Rat) * (x * x)), flagged := a.flagged || flagged }

/-- The root mean squares of an aggregate that closes. -/
def Agg.close (short : Bool) (a : Agg) : AggOut :=
  ⟨a.sq.map fun x => if a.weight = 0 then 0 else Config.sqrt (x / (a.weight : Rat)), a.flagged, a.short || short, a.stepped⟩

/-- A channel's block closes, with the values of the state `z` at the block's end; the voltage channels' subgroups enter their
aggregates (R142, R153). -/
def State.closeChannel (short : Bool) (z : State) (k : Fin 136) (s : State) : State :=
  let n := z.tb.blkCycles
  let blk := z.channelBlock k short
  let flagged := blk.flags % 2 = 1
  let y := if 128 ≤ k.val && chanOn z.live k then z.subgroups k z.chans[k].blk n else List.replicate 64 0
  s.onChan k fun c =>
    let c1 := { c with block := blk, blk := [], blkOfs := [], blkDc := [], blkBad := false }
    if k.val < 128 then c1 else { c1 with agg150 := c1.agg150.add 1 y flagged, agg10 := c1.agg10.add n y flagged }

/-! ### Bus blocks (R140, R149, R153) -/

/-- The rms value of voltage i over the closing block (R87, R140). -/
def State.blockVoltage (s : State) (b : Fin 2) (i : Fin 3) : Rat :=
  let (ka, kb) := linePair b i
  if !threeWire s.live b then (if chanOn s.live ka then s.chans[ka].blockRms else 0)
  else plainRms (addLists s.chans[ka].blk (s.chans[kb].blk.map (-·)))

/-- The four rms values of a bus block: three voltages, then the neutral-to-earth channel (R153). -/
def State.busRms (s : State) (b : Fin 2) : List Rat :=
  let n := voltChan b 3
  (List.finRange 3).map (s.blockVoltage b) ++ [if chanOn s.live n then s.chans[n].blockRms else 0]

/-- The values of a bus at the close of a block, from the state `z` at the block's end, and its aggregates (R142, R149,
R153). -/
def State.closeBus (short : Bool) (z : State) (b : Fin 2) (s : State) : State :=
  let n := z.tb.blkCycles
  let rms := z.busRms b
  let q := sequenceIn (z.blockPhasors b)
  let bad : Bool := decide (q.pos * 20 < declared z.live b)
  let wire := threeWire z.live b
  let u2 := if bad then 0 else q.neg / q.pos * 100
  let u0 := if bad || wire then 0 else q.zero / q.pos * 100
  s.onBus b fun x =>
    { x with
      blockRms := rms, blockFlag := x.flagged, blockShort := short, u2 := u2, u0 := u0, u2bad := bad, u0bad := bad || wire
      lastLeast := x.least, lastGreatest := x.greatest
      least := [none, none, none], greatest := [none, none, none], flagged := x.inEvent
      agg150 := x.agg150.add 1 rms x.flagged, agg10 := x.agg10.add n rms x.flagged
      u2agg := x.u2agg.add n [u2, u0] x.flagged }

/-! ### The 150/180-cycle interval (R142, R145) -/

/-- The sliding reference after a 150/180-cycle value; frozen while a dip or swell runs (R145). -/
def Bus.slide (x : Bus) : Bus :=
  if x.dip.isSome || x.swell.isSome then x
  else { x with usr := 9967 / 10000 * x.usr + 33 / 10000 * meanR (x.out150.vals.take 3) }

/-- The 150/180-cycle interval closes on both buses and the voltage channels (R142). -/
def State.close150 (short : Bool) (s : State) : State :=
  { s with
    buses := s.buses.map fun x => ({ x with out150 := x.agg150.close short, agg150 := Agg.empty }).slide
    chans := s.chans.map fun c => { c with out150 := c.agg150.close short, agg150 := Agg.empty }
    tb := { s.tb with aggBlocks := 0 } }

/-- AGGREGATE_CLOSE (R142, R145): 15 blocks have closed. -/
def execAggregateClose (s : State) : Host.Outcome State Fault Refusal :=
  .next (if s.powered && 15 ≤ s.tb.aggBlocks then (s.close150 false).refill else s)

/-! ### The block (R75, R141, R182) -/

/-- NOMF as asked comes into force at a block boundary (R75). A 150/180-cycle interval whose 15th block closes at that very boundary is
still the running one, and closes SHORT (DESIGN CHOICE, log 119). -/
def State.applyNomf (s : State) : State :=
  let new := bit (s.asked .tbCfg) 0
  if new = s.tb.nomf60 then s
  else
    let free := match s.tb.mode with | .freerun => true | _ => false
    let tb := if free then { (s.tb.hold (nominalPeriod new)) with nomf60 := new } else { s.tb with nomf60 := new }
    let s1 : State := ({ s with tb := tb }).settingTook
    let s2 := if s1.tb.aggBlocks = 0 then s1 else s1.close150 true
    { s2 with buses := s2.buses.map Bus.restartRvc }

/-- The state seen with the words that were in force in the cycle that has closed (R84, R194). -/
def State.asEnded (s : State) : State := { s with eff := s.pq.ended }

/-- The running block closes: channel and bus values and detectors with the settings of its last cycle, events in order, the block
cut, and the next block (R84, R141, R152 to R156, R182, R194). -/
def State.closeBlock (short : Bool) (s : State) : State :=
  let z := s.asEnded.blockDetectors
  let s1 : State := { z with eff := s.eff }
  let s2 := chain (List.finRange 2) (State.closeBus short z) (chain allChans (State.closeChannel short z) s1)
  let tb := { s2.tb with blkCycles := 0, blkStart := s2.tb.boundary, blkUnlocked := false, aggBlocks := s2.tb.aggBlocks + 1 }
  (({ s2 with tb := tb }).flushDue.applyNomf).cut 1 short

/-- BLOCK_CLOSE (R141): N cycles have closed since the last block boundary. -/
def execBlockClose (s : State) : Host.Outcome State Fault Refusal :=
  .next (if s.powered && blockLength s.tb.nomf60 ≤ s.tb.blkCycles then s.closeBlock false else s)

/-! ### Calendar ticks (R141 to R143, R304) -/

/-- The 10-minute values of a bus close (R142); they enter the 2-hour value. -/
def Bus.close10 (x : Bus) : Bus :=
  let out := x.agg10.close false
  { x with
    out10 := out, agg10 := Agg.empty, u2out := x.u2agg.close false, u2agg := Agg.empty
    agg2h := { (x.agg2h.add 1 out.vals out.flagged) with stepped := x.agg2h.stepped || out.stepped } }

/-- The 2-hour value of a bus closes (R142). -/
def Bus.close2h (x : Bus) : Bus := { x with out2h := x.agg2h.close (x.agg2h.blocks < 12), agg2h := Agg.empty }

/-- The running aggregates of a bus are marked stepped. -/
def Bus.stepAggs (x : Bus) : Bus :=
  let mark := fun (a : Agg) => { a with stepped := true }
  { x with agg150 := mark x.agg150, agg10 := mark x.agg10, agg2h := mark x.agg2h }

/-- The running aggregates of a channel are marked stepped. -/
def Chan.stepAggs (c : Chan) : Chan :=
  let mark := fun (a : Agg) => { a with stepped := true }
  { c with agg150 := mark c.agg150, agg10 := mark c.agg10 }

/-- The aggregates are marked where the tick is counted and not on the calendar (R275). -/
def State.countedAggs (s : State) : State :=
  if s.countedOut then { s with buses := s.buses.map Bus.stepAggs, chans := s.chans.map Chan.stepAggs } else s

/-- TEN_MINUTE_TICK (R141, R142, R304): the block in progress, the 150/180-cycle and the 10-minute interval close, the 2-hour
interval at its multiples, and a checkpoint is written. -/
def State.tenMinuteTick (s : State) : State :=
  let s1 := if s.tb.blkCycles = 0 then s else s.closeBlock (s.tb.blkCycles < blockLength s.tb.nomf60)
  let s2 := (if s1.tb.aggBlocks = 0 then s1 else s1.close150 (s1.tb.aggBlocks < 15)).countedAggs
  let chans := s2.chans.map fun c => { c with out10 := c.agg10.close false, agg10 := Agg.empty }
  let two := s.scheduleDue 7200 s.tb.twoHours
  let tb := { s2.tb with tenMin := s2.opening, twoHours := if two then s2.opening else s2.tb.twoHours }
  let s3 : State := { s2 with buses := s2.buses.map Bus.close10, chans := chans, tb := tb }
  (if two then { s3 with buses := s3.buses.map Bus.close2h } else s3).refill.checkpoint

/-- The row's meaning: at a 10-minute calendar tick (R82, R141). -/
def execTenMinuteTick (s : State) : Host.Outcome State Fault Refusal :=
  .next (if s.powered && s.metering && s.scheduleDue 600 s.tb.tenMin then s.tenMinuteTick else s)

/-- FREQUENCY_INTERVAL_CLOSE (R143): whole cycles of the interval over their total duration. -/
def State.frequencyClose (s : State) : State :=
  let t := s.tb
  let f : Rat := if t.fTicks = 0 then 0 else (t.fCycles : Rat) * ((65536 * sysHz : Nat) : Rat) / (t.fTicks : Rat)
  { s with
    buses := s.buses.map fun x => { x with freq := f, freqFlag := t.fFlag }
    tb := { t with fCycles := 0, fTicks := 0, fFlag := false, tenSec := s.opening } }

/-- The row's meaning: at a 10-second calendar tick (R82, R143). -/
def execFrequencyIntervalClose (s : State) : Host.Outcome State Fault Refusal :=
  .next (if s.powered && s.metering && s.scheduleDue 10 s.tb.tenSec then s.frequencyClose.refill else s)

/-- The value of an aggregate that a change of U_din closes: flagged (R139). -/
def Agg.cut (old : AggOut) (a : Agg) : AggOut :=
  let out := a.close true
  if a.blocks = 0 then old else { out with flagged := true }

/-- A change of U_din (R139): the sliding reference takes the new value, and the running intervals of the bus close as flagged. -/
def State.changeUdin (b : Fin 2) (s : State) : State :=
  let opened : Agg := { Agg.empty with short := true }
  let s1 := s.onBus b fun x =>
    { x with
      usr := udin s.live b, udinDue := false
      out150 := x.agg150.cut x.out150, out10 := x.agg10.cut x.out10, out2h := x.agg2h.cut x.out2h, u2out := x.u2agg.cut x.u2out
      agg150 := opened, agg10 := opened, agg2h := opened, u2agg := opened }
  chain ((List.finRange 4).map (voltChan b)) (fun k s => s.onChan k fun c =>
    { c with out150 := c.agg150.cut c.out150, out10 := c.agg10.cut c.out10, agg150 := opened, agg10 := opened }) s1

/-- Changes of U_din act once everything that closes at their boundary has closed (R139): with the first samples after it. -/
def State.udinNow (s : State) : State :=
  chain ((List.finRange 2).filter fun b => s.buses[b].udinDue) State.changeUdin s

end Sys2Proof.Machine
end

