-- ==== Sys2Proof/Machine/Sram.lean ====
section
/-!
DEFINITION. Uncorrectable words of the working SRAM and of the Scribe SRAM, met by the scrub or by a read (R250, R257).
-/
namespace Sys2Proof.Machine

/-- The place of a region in the order of R257 and R324: the table's rows, with the four rings of its second row together. -/
def sramCode : SramRegion → Nat
  | .folioSlot .. => 0
  | .profileRing _ | .wbRing .. | .capture .. | .eventRing _ => 1
  | .sessionContext _ => 2
  | .completionSlot .. => 3
  | .anvil => 4

/-- An uncorrectable word of a folio, sealed or filling (R193, R257). -/
def Folio.spoil (number offset : Nat) (f : Folio) : Folio :=
  if f.number = number then { f with bad := offset :: f.bad } else f

/-- A folio of a number is sealed or filling. -/
def Folios.has (f : Folios) (number : Nat) : Bool := (f.filling.toList ++ f.shut).any fun x => x.number = number

/-- The error of a slot recurs at an address: an earlier folio failed there, and its slot has been rewritten since (R257). -/
def Folios.recurs (f : Folios) (number : Nat) (addr : Word) : Bool := f.errs.any fun x => x.1 = addr && x.2 ≠ number

/-- A word of a folio slot (R257): the folio that is filling is sealed with the error; a slot whose error recurs at an address is
retired, when its folio is reclaimed where it holds one. -/
def State.spoilFolio (number offset : Nat) (addr : Word) (s : State) : State :=
  let filling : Bool := (s.fol.filling.map fun f => decide (f.number = number)).getD false
  let held := s.fol.has number
  let recurs := s.fol.recurs number addr
  let fol :=
    { s.fol with
      retired := if recurs && !held then min 2 (s.fol.retired + 1) else s.fol.retired
      retireDue := if recurs && held then s.fol.retireDue ++ [number] else s.fol.retireDue
      errs := if recurs then s.fol.errs.filter fun x => x.1 ≠ addr else (addr, number) :: s.fol.errs.filter fun x => x.1 ≠ addr
      shut := s.fol.shut.map (Folio.spoil number offset), filling := s.fol.filling.map (Folio.spoil number offset) }
  let s1 := { s with fol := fol }
  if filling then s1.seal true else s1

/-- A completion whose slot is lost carries ECC_ERROR and no payload (R257). -/
def Reply.spoil (session : Fin 1024) (tag : Fin 128) (hello : Bool) (r : Reply) : Reply :=
  if r.session = session.val && r.tag = tag.val && r.hello = hello then { r with status := .eccError, payload := [] } else r

/-- What an uncorrectable word does in a region that a read can meet (R257). -/
def State.spoilRead (x : SramRegion × Word) (s : State) : State :=
  match x.1 with
  | .folioSlot number offset => s.spoilFolio number offset x.2
  | .profileRing n =>
    let mark := fun (r : ProfRec) => if r.number = n then { r with bad := true } else r
    { s with prof := { s.prof with ring := s.prof.ring.map mark } }
  | .wbRing n offset =>
    let mark := fun (r : WbSet) => if r.number = n then { r with bad := offset :: r.bad } else r
    { s with wb := { s.wb with ring := s.wb.ring.map mark } }
  | .capture i offset => { s with pq := { s.pq with caps := upd s.pq.caps i fun c => { c with bad := offset :: c.bad } } }
  | .eventRing n => { s with ev := { s.ev with bad := insertAsc n s.ev.bad } }
  | .sessionContext id => s.onSession id fun x => { x with corrupt := true }
  | .completionSlot session tag hello =>
    { s with scr := { s.scr with ports := s.scr.ports.map fun p => { p with done := p.done.map (Reply.spoil session tag hello) } } }
  | .anvil => s

/-- ECC_UNCORR and its blot bit (R250, R324). -/
def State.noteUncorr (x : SramRegion × Word) (s : State) : State :=
  s.note .sramUncorr .eccUncorr .device (le 1 (sramCode x.1) ++ zeros 3 ++ le 4 x.2.toNat)

/-- An uncorrectable word that a read meets (R250, R257). -/
def State.readError (x : SramRegion × Word) (s : State) : State := (s.spoilRead x).noteUncorr x

end Sys2Proof.Machine
end

