-- ==== Sys2Proof/Machine/FolioCmd.lean ====
section
/-!
DEFINITION. Folio commands and leases, PARAM_READ, SC_READ and BLOT_READ (R186 to R196, R226, R231, R232, R234, R239).
-/
namespace Sys2Proof.Machine

/-! ### The folio a selector names (R192, R226) -/

/-- A folio has been cut at the present boundary. -/
def State.cutHere (s : State) : Bool := s.fol.filling.any fun f => f.cut.cycle = s.tb.cycle

/-- A block ends at the present boundary and its closure is still to come. -/
def State.blockPending (s : State) : Bool := s.metering && s.blockDue

/-- The next block boundary at which no folio has been cut (R141, R182). Before metering, it counts from the first cycle number. -/
def State.blockEnd (s : State) : Nat :=
  if !s.blockPending then s.tb.cycle + (blockLength s.tb.nomf60 - s.tb.blkCycles)
  else if s.cutHere then s.tb.cycle + blockLength s.nomfFrom
  else s.tb.cycle

/-- The boundary of a cut demanded now (R182): the first one whose closure is to come. -/
def State.demandedAt (s : State) : Nat := s.tb.cycle + 1

/-- The next cut boundary (R182, R192): that of a demanded cut or the end of the running block. -/
def State.nextCut (s : State) : Nat := if s.fol.asked then min s.demandedAt s.blockEnd else s.blockEnd

/-- The first block boundary that no folio has been sealed for (R192). -/
def State.blockAhead (s : State) : Nat :=
  match s.fol.filling with
  | some f => if f.cause % 2 = 1 then f.cut.cycle else s.blockEnd
  | none => s.blockEnd

/-- The expected cycle number of a folio that is not sealed yet (R192). -/
def State.expectedCut (s : State) (n : Nat) : Nat :=
  match s.fol.filling with
  | some f => if n ≤ f.number then f.cut.cycle else s.nextCut + (n - s.fol.next)
  | none => s.nextCut + (n - s.fol.next)

/-- A folio number has not been sealed and will be (R192). -/
def State.folioAhead (s : State) (n : Nat) : Bool :=
  s.fol.next ≤ n || (match s.fol.filling with
    | some f => decide (f.number ≤ n)
    | none => false)

/-- The folio of a number (R192). -/
def State.folioOf (s : State) (n : Nat) : Named :=
  if s.folioAhead n then .later (s.expectedCut n)
  else match s.fol.shut.find? fun f => f.number = n with
    | some f => .folio f
    | none => .bad .folioGone

/-- The latest sealed folio (R192). -/
def State.latest (s : State) : Named :=
  match s.newest? with
  | some f => .folio f
  | none => .later s.blockAhead

/-- The folio that a selector names for a session (R189, R192, R226). -/
def State.named (s : State) (session : Fin 1024) : Selector → Named
  | .latest => s.latest
  | .number n => s.folioOf n
  | .lease id => match s.fol.leases.find? fun l => l.session = session && l.id = id with
    | some l => s.folioOf l.folio
    | none => .bad .revoked
  | .badKind _ => .bad .badValue

/-- What a selector named at a command's admission (R189, R192, R196), or names now for one without an entry. -/
def State.namedFor (s : State) (op : Nat) (r : Req) (sel : Selector) : Named :=
  match s.settled op r with
  | some (.named x) => x
  | _ => s.named r.session sel

/-- A command on the folio that its selector names. -/
def State.onFolio (op : Nat) (r : Req) (sel : Selector) (s : State) (body : Folio → State) : State :=
  match s.namedFor op r sel with
  | .folio f => body f
  | .later n => s.notReady op r n
  | .bad st => s.fail op r st

/-- A range of a folio, set or capture (R191). -/
def rangeFits (offset length most size : Nat) : Bool :=
  offset % 4 = 0 && length % 4 = 0 && length ≤ most && offset + length ≤ size

/-- A range covers one of the uncorrectable words at some offsets, words of 64 bits (R193, R257). -/
def badIn (bad : List Nat) (offset length : Nat) : Bool :=
  0 < length && bad.any fun b => offset < b / 8 * 8 + 8 && b / 8 * 8 < offset + length

/-- The folio has an uncorrectable word in a range (R193, R257). -/
def Folio.broken (f : Folio) (offset length : Nat) : Bool := badIn f.bad offset length

/-- The slot of a folio has an uncorrectable word in a range (R193): as it is now, while the folio is held. -/
def State.broken (s : State) (f : Folio) (offset length : Nat) : Bool :=
  ((s.fol.shut.find? fun x => x.number = f.number).getD f).broken offset length

/-- Six bytes of a number and two reserved bytes. -/
def numberBytes (n : Nat) : List Byte := le 6 n ++ zeros 2

/-- FOLIO_READ (R191 to R193): `errs` are the uncorrectable words that the read meets, by byte offset in the folio and address (R257). -/
def execFolioRead (r : Req) (sel : Selector) (offset length : Nat) (errs : List (Nat × Word)) (s : State) :
    Host.Outcome State Fault Refusal :=
  .next (s.command 0x0101 r fun s =>
    if !rangeFits offset length 4088 163840 then s.fail 0x0101 r .badValue
    else s.onFolio 0x0101 r sel fun f =>
      let met := errs.filter fun e => offset ≤ e.1 && e.1 < offset + length
      let s1 := chain met (fun e => State.readError (.folioSlot f.number e.1, e.2)) s
      if s1.broken f offset length || !met.isEmpty then s1.fail 0x0101 r .eccError
      else s1.ok 0x0101 r (numberBytes f.number ++ (f.bytes.drop offset).take length))

/-! ### Leases (R186, R188, R189) -/

/-- The limit on held folios (R186, R257). -/
def Folios.limit (f : Folios) : Nat := max 4 (6 - f.retired)

/-- A duration in units of 100 ms as granted: 0 takes FOL.CFG.LDEF; none above 60 s (R188). -/
def State.leaseTime (s : State) (d : Nat) : Option Nat :=
  if 600 < d then none else some (if d = 0 then fld (s.live .folCfg) 9 0 else d)

/-- The reply of a lease (R231). -/
def leaseReply (l : Lease) : List Byte := le 4 l.id ++ le 6 l.folio ++ le 2 l.duration ++ zeros 4

/-- A lease on a folio, under an identifier the session has not had (R188, R189; log 1). -/
def State.grant (session : Fin 1024) (f : Folio) (d : Nat) (s : State) : State × Status × List Byte :=
  let held := s.fol.held
  if 1024 ≤ s.fol.leases.length || (!held.contains f.number && s.fol.limit ≤ held.length) then (s, .busy, [])
  else
    let (n, s1) := s.fresh
    let mine := (s.fol.used.filter fun u => u.1 = session).map Prod.snd
    let l : Lease := ⟨freshFrom (2 ^ 32) n mine, session, f.number, d⟩
    ({ s1 with fol := { s1.fol with leases := s1.fol.leases ++ [l], used := (session, l.id) :: s1.fol.used } }, .ok,
      leaseReply l)

/-- FOLIO_LEASE (R188, R231). -/
def State.lease (session : Fin 1024) (sel : Selector) (duration : Nat) (s : State) : State × Status × List Byte :=
  match s.leaseTime duration, sel with
  | none, _ | some _, .lease _ => (s, .badValue, [])
  | some d, sel => match s.named session sel with
    | .folio f => s.grant session f d
    | .later n => (s, .notReady, numberBytes n)
    | .bad st => (s, st, [])

/-- The row's meaning (R188, R190). -/
def execFolioLease (r : Req) (sel : Selector) (duration : Nat) (s : State) : Host.Outcome State Fault Refusal :=
  .next (s.command 0x0102 r fun s => s.acted 0x0102 r (State.lease r.session sel duration))

/-- A lease is of a session and identifier. -/
def Lease.isOf (session : Fin 1024) (id : Nat) (l : Lease) : Bool := l.session = session && l.id = id

/-- A lease ends (R187, R189). -/
def State.endLease (session : Fin 1024) (id : Nat) (s : State) : State :=
  { s with fol := ({ s.fol with leases := s.fol.leases.filter fun l => !l.isOf session id }).reclaim }

/-- FOLIO_RENEW (R189). -/
def State.renew (session : Fin 1024) (lease duration : Nat) (s : State) : State × Status × List Byte :=
  match s.leaseTime duration, s.fol.leases.find? (Lease.isOf session lease) with
  | none, _ => (s, .badValue, [])
  | some _, none => (s, .revoked, [])
  | some d, some l =>
    let set := fun (x : Lease) => if x.isOf session lease then { x with duration := d } else x
    ({ s with fol := { s.fol with leases := s.fol.leases.map set } }, .ok, leaseReply { l with duration := d })

/-- The row's meaning (R189, R190). -/
def execFolioRenew (r : Req) (lease duration : Nat) (s : State) : Host.Outcome State Fault Refusal :=
  .next (s.command 0x0103 r fun s => s.acted 0x0103 r (State.renew r.session lease duration))

/-- FOLIO_RELEASE (R189). -/
def State.release (session : Fin 1024) (lease : Nat) (s : State) : State × Status × List Byte :=
  if s.fol.leases.any (Lease.isOf session lease) then (s.endLease session lease, .ok, []) else (s, .revoked, [])

/-- The row's meaning (R189, R190). -/
def execFolioRelease (r : Req) (lease : Nat) (s : State) : Host.Outcome State Fault Refusal :=
  .next (s.command 0x0104 r fun s => s.acted 0x0104 r (State.release r.session lease))

/-- LEASE_EXPIRY (R189). -/
def execLeaseExpiry (session : Fin 1024) (lease : Nat) (s : State) : Host.Outcome State Fault Refusal :=
  .next (s.endLease session lease)

/-- FOLIO_CUT (R182, R183): the reply names the folio and the boundary. A block cut that is still due at the present boundary takes
its number first. Before the journal is restored no number is known (log 92). -/
def State.demandCut (s : State) : State × Status × List Byte :=
  if !s.dev.startup.restored then (s, .notReady, numberBytes s.nextCut)
  else
    let n := if s.blockPending && !s.cutHere then (s.fol.next + 1) % 2 ^ 48 else s.fol.next
    ({ s with fol := { s.fol with asked := true } }, .ok, numberBytes n ++ numberBytes s.demandedAt)

/-- The row's meaning (R183, R190, R231). -/
def execFolioCut (r : Req) (s : State) : Host.Outcome State Fault Refusal :=
  .next (s.command 0x0105 r fun s => s.acted 0x0105 r State.demandCut)

/-- FOLIO_SEAL_GET (R195, R196). A folio sealed with an error has no Seal (R185, R257; log 91). -/
def execFolioSealGet (r : Req) (sel : Selector) (s : State) : Host.Outcome State Fault Refusal :=
  .next (s.command 0x0106 r fun s => s.onFolio 0x0106 r sel fun f =>
    if s.grd.quenched then s.fail 0x0106 r .quenched
    else if 8 ≤ f.flags % 16 then s.fail 0x0106 r .eccError
    else
      let h := sha256 f.billingSection
      let sig := sealSign (beNat h)
      s.ok 0x0106 r (numberBytes f.number ++ h ++ be 32 sig.1 ++ be 32 sig.2))

/-! ### Parameters (R232) -/

/-- A captured word as a folio holds it (R398). -/
def Image.word (i : Image) : Reg → Word
  | .ch k .state => i.chans[k].stateWord
  | .ch k .drift => i.chans[k].driftWord
  | .ch k .filtSt => i.chans[k].filtSt (i.live (.ch k .filt))
  | .ch k .skew => i.chans[k].skewWord k (i.live (.ch k .filt))
  | .spare g => i.spares[g]
  | .pt p .state => i.pts[p].stateWord
  | .tbStatus => i.tbStat
  | .tbFreq => i.tbFreq
  | .tbCycle hi => if hi then Machine.word (i.lastCyc / 2 ^ 32) else Machine.word i.lastCyc
  | .folStatus => i.folStat
  | .blotBits n => i.blots.extractLsb' (32 * n.val) 32
  | .grdFlags => i.grd
  | _ => 0

/-- The words of a range, the captured ones from a folio (R232). -/
def State.readRange (s : State) (f : Option Folio) (addr count : Nat) : List Word :=
  (List.range count).map fun i =>
    let r := regOf (addr + 4 * i)
    if r.captured then ((f.map fun f => f.img.word r).getD 0) else s.readLive r

/-- Where a folio holds a captured word (R185): its offset, by the sections. -/
def folioOffset : Reg → Nat
  | .ch k .state => 0x15300 + 16 * k.val
  | .ch k .drift => 0x15304 + 16 * k.val
  | .ch k .skew => 0x15308 + 16 * k.val
  | .ch k .filtSt => 0x1530C + 16 * k.val
  | .spare g => 0x245A0 + 4 * g.val
  | .pt p .state => 0x1039C + 160 * p.val
  | .tbStatus => 0x24580
  | .tbFreq => 0x24584
  | .tbCycle hi => if hi then 0x2458C else 0x24588
  | .folStatus => 0x24638
  | .blotBits n => 0x24590 + 4 * n.val
  | .grdFlags => 0x24634
  | _ => 0

/-- PARAM_READ (R232); a captured word that is uncorrectable in the folio is ECC_ERROR (R193). -/
def execParamRead (r : Req) (addr count : Nat) (s : State) : Host.Outcome State Fault Refusal :=
  .next (s.command 0x0201 r fun s =>
    let captured := ((List.range count).map fun i => regOf (addr + 4 * i)).filter Reg.captured
    if !rangeOk addr count then s.fail 0x0201 r .badAddress
    else if captured.isEmpty then s.ok 0x0201 r (numberBytes noNumber ++ wordBytes (s.readRange none addr count))
    else s.onFolio 0x0201 r .latest fun f =>
      if captured.any fun x => s.broken f (folioOffset x) 4 then s.fail 0x0201 r .eccError
      else s.ok 0x0201 r (numberBytes f.number ++ wordBytes (s.readRange (some f) addr count)))

/-- The 44 bytes of a point in an SC_READ (R110, R234): the unit code, byte 0xD9, and the counters of its billing block. -/
def Image.shortCounters (i : Image) (p : Fin 128) : List Byte :=
  let b := i.billing p
  le 1 p.val ++ (b.drop 0xD8).take 2 ++ zeros 1 ++ (b.drop 0xB0).take 40

/-- SC_READ (R234). -/
def execScRead (r : Req) (sel : Selector) (first count : Nat) (s : State) : Host.Outcome State Fault Refusal :=
  .next (s.command 0x0203 r fun s =>
    if count = 0 || 92 < count || 128 < first + count then s.fail 0x0203 r .badValue
    else s.onFolio 0x0203 r sel fun f =>
      if s.broken f (0x300 + 256 * first) (256 * count) then s.fail 0x0203 r .eccError
      else s.ok 0x0203 r (numberBytes f.number
        ++ ((span first count).filterMap (idx? 128)).flatMap f.img.shortCounters))

/-- BLOT_READ: the blot bits of the latest sealed folio (R239). -/
def execBlotRead (r : Req) (s : State) : Host.Outcome State Fault Refusal :=
  .next (s.command 0x0501 r fun s => s.onFolio 0x0501 r .latest fun f =>
    if s.broken f 0x24590 16 then s.fail 0x0501 r .eccError
    else s.ok 0x0501 r (numberBytes f.number ++ le 16 f.img.blots.toNat))

end Sys2Proof.Machine
end

