-- ==== Sys2Proof/Machine/Admission.lean ====
section
/-!
DEFINITION. Received frames: COBS, the header, the fourteen admission steps of R213, authentication, and what a command settles
as it is admitted (R189, R190, R192, R197 to R201, R206, R212 to R216).
-/
namespace Sys2Proof.Machine

/-- A rejection is stored in the port's immediate register, or counted in IMMLOST (R215). -/
def State.reject (p : Port) (reply : Reply) (s : State) : State :=
  match s.scr.ports[portIdx p].imm with
  | some _ => s.onPort p fun q => { q with immLost := sat 0xFF (q.immLost + 1) }
  | none => ((s.onPort p fun q => { q with imm := some reply }).start p).pendInt (3 + (portIdx p).val)

/-- COBS decoding of the bytes before a delimiter, with fuel for the number of blocks (R206). -/
def cobsN : Nat → List Byte → Option (List Byte)
  | 0, _ => none
  | _ + 1, [] => some []
  | k + 1, c :: bs =>
    let n := c.toNat - 1
    if c = 0 || bs.length < n || (bs.take n).contains 0 then none
    else match cobsN k (bs.drop n) with
      | none => none
      | some rest => some (bs.take n ++ (if c = 0xFF || (bs.drop n).isEmpty then [] else [0]) ++ rest)

/-- COBS decoding; an empty encoding decodes to nothing that is a frame. -/
def cobs (bs : List Byte) : Option (List Byte) := if bs.isEmpty then none else cobsN (bs.length + 1) bs

/-- The fields of a received header (R197). -/
structure Header where
  magic   : Nat
  version : Nat
  session : Nat
  queue   : Nat
  top     : Bool
  tag     : Nat
  tagTop  : Bool
  flags   : Nat
  prio    : Nat
  opcode  : Nat
  length  : Nat
  seq     : Nat
  deriving DecidableEq, Repr

/-- The header of a frame; bytes beyond its end read 0. -/
def headerOf (bs : List Byte) : Header :=
  let f := field bs
  let sq := f 2 2
  ⟨f 0 1, f 1 1, sq % 1024, sq / 1024 % 32, 32768 ≤ sq, f 4 1 % 128, 128 ≤ f 4 1, f 5 1 % 16, f 5 1 / 16, f 6 2, f 8 2,
   f 12 4⟩

/-- The rejection of a frame: IMM = 1, LENGTH 0, everything else echoed (R215). -/
def Header.rejection (h : Header) (st : Status) : Reply :=
  ⟨true, h.session, h.queue, h.tag, h.flags / 8 % 2 = 1, h.opcode, st, h.seq, false, [], []⟩

/-- Session index of a header. -/
def Header.sid (h : Header) : Fin 1024 := Fin.ofNat 1024 h.session

/-- Queue index of a header. -/
def Header.qid (h : Header) : Fin 32 := Fin.ofNat 32 h.queue

/-- Tag index of a header. -/
def Header.tid (h : Header) : Fin 128 := Fin.ofNat 128 h.tag

/-- HELLO bit of a header. -/
def Header.isHello (h : Header) : Bool := h.flags / 8 % 2 = 1

/-- SEC bit of a header. -/
def Header.isSec (h : Header) : Bool := h.flags % 2 = 1

/-- The size of a frame by its header (R198). -/
def Header.size (h : Header) : Nat := (if h.isSec then 36 else 20) + h.length

/-- Steps 1 to 4 of R213: what is wrong with the bytes of a frame. On an SPI port the size is judged by the header first (R201). -/
def frameFault (spi : Bool) (bs : List Byte) (h : Header) : Option Status :=
  if bs.length < 20 || 4132 < bs.length || h.magic ≠ 0xC5 || (spi && bs.length ≠ h.size) then some .badFrame
  else if crc32c (bs.take (bs.length - 4)) ≠ BitVec.ofNat 32 (field bs (bs.length - 4) 4) then some .crcError
  else if h.version ≠ 1 then some .badVersion
  else if h.top || h.tagTop || h.flags / 2 % 4 ≠ 0 || 4096 < h.length || bs.length ≠ h.size then some .badFrame
  else none

/-- Steps 11 to 14 of R213 for a session, or for all HELLO frames of a queue as one session. -/
def State.roomFault (s : State) (h : Header) : Option Status :=
  let q := h.qid
  let cfg := s.live (.queCfg q)
  let mine := fun (t : TagUse) => if h.isHello then t.hello && t.queue = q else !t.hello && t.session = h.sid && !t.dead
  let entries := s.scr.queues[q].entries
  let used := (entries.filter fun e => if h.isHello then e.hello else !e.hello && e.session = h.sid && !e.dead).length
  let tags := s.scr.tags.filter mine
  if tags.any fun t => t.tag = h.tid then some .tagInUse
  else if fld cfg 21 16 ≤ used then some .noCredit
  else if fld cfg 6 0 ≤ entries.length then some .queueFull
  else if 128 ≤ s.scr.tags.length || fld (s.live .sesCfg) 15 8 ≤ tags.length then some .noTag
  else none

/-- The commands that need the Inkwell write lock (R240). -/
def needsLock (op : Nat) : Bool := [0x0507, 0x0601, 0x0602, 0x0603, 0x0604].contains op

/-- What is settled for a command as it is admitted: the folio it names (R189, R192, R196), its whole effect (R183, R190; of a display
request in the closeout, R247), the challenge it confirms, which is used with that (R245), or whether the queues of an open admit it
(R222). -/
def State.judgeAdmitted (c : Instr) (s : State) : State × Option Verdict :=
  let answer := fun (x : State × Status × List Byte) => (x.1, some (Verdict.reply x.2.1 x.2.2))
  match c with
  | .folioRead r sel _ _ _ | .folioSealGet r sel | .scRead r sel _ _ => (s, some (.named (s.named r.session sel)))
  | .paramRead _ _ _ | .blotRead _ => (s, some (.named s.latest))
  | .folioLease r sel duration => answer (s.lease r.session sel duration)
  | .folioRenew r lease duration => answer (s.renew r.session lease duration)
  | .folioRelease r lease => answer (s.release r.session lease)
  | .folioCut _ => answer s.demandCut
  | .sessionOpen r payload => (s, some (.judged (s.openQueues r (fit 152 payload))))
  | .grdClearConfirm r mask value => match s.scr.challenge.filter (Challenge.isOf r.session mask value) with
    | some c => ({ s with scr := { s.scr with challenge := none } }, some (.confirms c))
    | none => (s, some (.judged false))
  | .pnlUpdate r region transition urgent =>
    if s.closingOut && s.anv.slot ≠ 3 && !s.closedBy 0x0903 r.role && (s.updateFault region transition).isNone then
      answer (s.panelUpdate region transition urgent)
    else (s, none)
  | _ => (s, none)

/-- A frame is admitted: one queue entry, one tag and its completion slot (R216), and what its command settles now. A slow-path
command other than BANK_ENTER ends a stay in Banked (R19); a command of the lock's holder renews it (R240); a further
GRD_CLEAR_ARM voids the challenge in hand (R245). -/
def State.admitFrame (p : Port) (h : Header) (role : Role) (payload : List Byte) (s : State) : State :=
  let r : Req := ⟨p, h.sid, role, h.qid, h.tid, BitVec.ofNat 32 h.seq, h.isSec⟩
  let (s0, verdict) := match requestOf r h.opcode payload with
    | some c => s.judgeAdmitted c
    | none => (s, none)
  let e : Entry := ⟨h.sid, h.isHello, p, h.tid, h.opcode, payload, s.scr.admitted, false, verdict⟩
  let s1 := s0.onQue h.qid fun q => { q with entries := q.entries ++ [e] }
  let scr := s1.scr
  let s2 := { s1 with scr :=
    { scr with
      tags := scr.tags ++ [⟨h.sid, h.tid, h.isHello, h.qid, false⟩]
      admitted := scr.admitted + 1
      challenge := if h.opcode = 0x0801 then none else scr.challenge
      inkLock := scr.inkLock.map fun l => if l.1 = h.sid && needsLock h.opcode then (l.1, l.2.1, s.now) else l } }
  if isSlow h.opcode && h.opcode ≠ 0x0503 then s2.wake else s2

/-- Steps 9 to 14 of R213 after the session's own checks, then admission. -/
def State.judgeOpcode (p : Port) (h : Header) (role : Option Role) (payload : List Byte) (s : State) : State :=
  if (opRow? h.opcode).isNone then s.reject p (h.rejection .badOpcode)
  else if (role.map fun x => !permitted h.opcode x).getD false then s.reject p (h.rejection .denied)
  else match s.roomFault h with
    | some .tagInUse => s.reject p (h.rejection .tagInUse)
    | some st => (s.onQue h.qid fun q => { q with reject := sat 0xFFFF (q.reject + 1) }).reject p (h.rejection st)
    | none => s.admitFrame p h (role.getD .reader) payload

/-- A frame fails with AUTH_FAIL; the eighth in a row ends the session (R212). -/
def State.authFailure (p : Port) (h : Header) (ss : Session) (s : State) : State :=
  let s1 := (s.onSession ss.id fun x => { x with authFail := x.authFail + 1 }).reject p (h.rejection .authFail)
  if 8 ≤ ss.authFail + 1 then (s1.endSession ss.id 2).settle else s1

/-- The payload of a frame of a session, where its tag verifies (R199). -/
def Session.opened (ss : Session) (h : Header) (bs : List Byte) : Option (List Byte) :=
  let body := (bs.drop 16).take h.length
  if !ss.secured then some body
  else
    let nonce := gcmNonce 0 h.seq
    if gcmTag ss.keys.1 nonce (bs.take 16) body = (bs.drop (16 + h.length)).take 16 then
      some (gcmCrypt ss.keys.1 nonce body)
    else none

/-- Steps 7 to 14 of R213 for a frame of an open session. A host counter at its limit ends the session (R200). -/
def State.judgeSequence (p : Port) (h : Header) (ss : Session) (payload : List Byte) (s : State) : State :=
  let s := s.onSession ss.id fun x => { x with authFail := 0 }
  if h.seq ≤ ss.hostSeq then
    let s1 := s.reject p (h.rejection .seqError)
    if ss.hostSeq = 2 ^ 32 - 1 then (s1.endSession ss.id 3).settle else s1
  else
    let s := s.onSession ss.id fun x => { x with hostSeq := h.seq }
    let t : Fin 6 := ⟨2 + (portIdx p).val, by omega⟩
    let s := ({ s with intc := { s.intc with targets := upd s.intc.targets t fun g => { g with base := h.prio } } }).route
    if !ss.qmask.getLsbD h.queue || !s.queueServes h.qid p || !s.queueAdmits h.qid ss.role then
      s.reject p (h.rejection .queueDenied)
    else s.judgeOpcode p h (some ss.role) payload

/-- Steps 6 to 14 of R213 for a frame of an open session. -/
def State.judgeSession (p : Port) (h : Header) (ss : Session) (bs : List Byte) (s : State) : State :=
  if h.isSec ≠ ss.secured || ss.corrupt then s.authFailure p h ss
  else match ss.opened h bs with
    | none => s.authFailure p h ss
    | some payload => s.judgeSequence p h ss payload

/-- A whole frame is judged (R213). -/
def State.judgeFrame (p : Port) (bs : List Byte) (s : State) : State :=
  let h := headerOf bs
  match frameFault (match p with | .c => false | .a | .b => true) bs h with
  | some st => s.reject p (h.rejection st)
  | none =>
    if h.isHello then
      if h.opcode = 2 && s.queueServes h.qid p && bit (s.live (.queCfg h.qid)) 30 then
        s.judgeOpcode p h none ((bs.drop 16).take h.length)
      else s.reject p (h.rejection .queueDenied)
    else match s.session? h.sid with
      | some ss => if ss.port = p then s.judgeSession p h ss bs else s.reject p (h.rejection .noSession)
      | none => s.reject p (h.rejection .noSession)

/-- FRAME_RECEIVE (R213): a WRITE on port A or B, or the bytes before a delimiter on port C. -/
def State.frameReceive (p : Port) (bytes : List Byte) (s : State) : State :=
  if !s.serving then s else
  match p with
  | .c => match cobs bytes with
    | none => s.reject .c ((headerOf []).rejection .badFrame)
    | some bs => s.judgeFrame .c bs
  | .a | .b => (s.transact p (zeros bytes.length)).judgeFrame p bytes

/-- The row's meaning: `errs` are the uncorrectable words of the Scribe SRAM that the frame meets, with their addresses (R257). -/
def execFrameReceive (port : Port) (bytes : List Byte) (errs : List (SramRegion × Word)) (s : State) : Host.Outcome State Fault Refusal :=
  .next (if s.serving then (chain (errs.filter fun e => e.1.scribe) State.readError s).frameReceive port bytes else s)

end Sys2Proof.Machine
end

