-- ==== Sys2Proof/Machine/CalendarCmd.lean ====
section
/-!
DEFINITION. The calendar's commands and events: sets, steps, slews, alarms, the second boundary and a stopped crystal
(R243, R275, R333 to R345).
-/
namespace Sys2Proof.Machine

/-! ### Alarms (R342 to R344) -/

/-- The match fields of an alarm: mask bit, word and bits (R342, R343). -/
def alarmFields : List (Nat × Bool × Nat × Nat) :=
  [(0, false, 7, 0), (1, false, 15, 8), (2, false, 23, 16), (3, false, 26, 24), (4, true, 7, 0), (5, true, 15, 8),
   (6, true, 31, 16)]

/-- Every unmasked field equals the calendar (R342). -/
def Alarm.matches (a : Alarm) (w0 w1 : Word) : Bool :=
  alarmFields.all fun x =>
    let m := if x.2.1 then a.match1 else a.match0
    let w := if x.2.1 then w1 else w0
    a.mask.getLsbD x.1 || fld m x.2.2.1 x.2.2.2 = fld w x.2.2.1 x.2.2.2

/-- The alarm can fire: it is enabled and armed. -/
def Alarm.live (a : Alarm) : Bool := a.en && a.armed

/-- What a firing leaves in the alarm (R342, R344). -/
def Alarm.fire (t : CalTime) (dow : Nat) (skipped onCell : Bool) (a : Alarm) : Alarm :=
  { a with
    flagged := true, overrun := a.overrun || a.flagged, skipped := skipped, onCell := onCell, armed := a.rep
    hit0 := time0 t dow, hit1 := time1 t, fired := some t, owed := onCell }

/-- CLD_ALARM at an instant, and its interrupt source (R324, R342). -/
def State.alarmEvent (a : Fin 2) (at_ : Stamp) (s : State) : State :=
  let x := s.cld.alarms[a]
  (s.raiseWith .cldAlarm .device at_ true true
    (le 1 a.val ++ le 1 (flag 0 x.skipped) ++ zeros 2 ++ le 4 s.cld.adjSeq)).pendInt (66 + a.val)

/-- An alarm fires: on cell it pulls WAKE_N low and raises nothing (R342, R344). -/
def State.alarmFire (a : Fin 2) (t : CalTime) (dow : Nat) (skipped : Bool) (s : State) : State :=
  let cell := s.pwr.vbatOn
  let s1 := s.onAlarm a (Alarm.fire t dow skipped cell)
  if cell then { s1 with cld := { s1.cld with wake := true } } else s1.alarmEvent a s1.stampNow

/-- The latest second boundary above `low` and at most `n` seconds at which a test holds. -/
def lastSecond (test : Nat → Bool) : Nat → Nat → Option Nat
  | 0, _ => none
  | k + 1, n => if test n then some n else lastSecond test k (n - 1)

/-- The day of week some days after a day of week (R335). -/
def dowPlus (dow : Nat) (days : Int) : Nat := (((dow : Int) - 1 + days) % 7).toNat + 1

/-- A forward step: an armed alarm that matches at a second boundary passed fires once, with the latest one (R342). -/
def State.alarmForward (old : CalTime) (dow : Nat) (new : CalTime) (a : Fin 2) (s : State) : State :=
  let x := s.cld.alarms[a]
  let dowAt := fun n => dowPlus dow ((n / 86400 : Nat) - (calDays old : Nat))
  let test := fun n => let t := calOfCounts (n * 32768); x.matches (time0 t (dowAt n)) (time1 t)
  if !x.live then s
  else match lastSecond test (calSeconds new - calSeconds old) (calSeconds new) with
    | some n => s.alarmFire a (calOfCounts (n * 32768)) (dowAt n) true
    | none => s

/-- A backward step: a REPEAT = 0 alarm whose last firing now lies ahead is armed again (R342). -/
def Alarm.rearm (new : CalTime) (a : Alarm) : Alarm :=
  match a.fired with
  | some t => if !a.rep && !a.armed && calCounts new < calCounts t then { a with armed := true } else a
  | none => a

/-- The alarms are judged at a step (R342). -/
def State.alarmsAtStep (old : CalTime) (dow : Nat) (new : CalTime) (s : State) : State :=
  if calCounts old < calCounts new then chain (List.finRange 2) (State.alarmForward old dow new) s
  else { s with cld := { s.cld with alarms := s.cld.alarms.map (Alarm.rearm new) } }

/-! ### Sets, steps and slews (R338 to R341) -/

/-- The calendar time that a CLD_SET carries. -/
def cldTime (f : CldFields) : CalTime :=
  ⟨ofBcd f.cent * 100 + ofBcd f.year, ofBcd f.month, ofBcd f.date, ofBcd f.hour, ofBcd f.min, ofBcd f.sec, f.sub.toNat⟩

/-- CLD_SET accepts the fields (R338). -/
def cldOk (f : CldFields) : Bool :=
  [f.sec, f.min, f.hour, f.dow, f.date, f.month, f.year, f.cent].all isBcd && calOk (cldTime f)
    && 1 ≤ ofBcd f.dow && ofBcd f.dow ≤ 7 && (f.cent = 0x20 || f.cent = 0x21)

/-- The 12 payload bytes of a CLD_SET (R243, R324). -/
def cldBytes (f : CldFields) : List Byte :=
  [f.sec, f.min, f.hour, f.dow, f.date, f.month, f.year, f.cent] ++ le 2 f.sub.toNat ++ zeros 2

/-- CLD_BADSET is set, with its interrupt source (R284, R338, R340). -/
def State.badSet (s : State) : State := (s.blot .cldBadset).pendInt 68

/-- A calendar step marks the events that run (R147). -/
def Bus.markStep (x : Bus) : Bus :=
  let mark := fun (e : Option PqEvent) => e.map fun e => { e with stepped := true }
  { x with dip := mark x.dip, swell := mark x.swell, intr := mark x.intr }

/-- A new time is loaded at an instant (R338 to R341): a running slew is cancelled, ADJSEQ goes up. -/
def Calendar.load (at_ : Nat) (new : CalTime) (dow : Nat) (c : Calendar) : Calendar :=
  { c with
    time := new, dow := dow, ahead := 0, slew := 0, slewing := false, adjSeq := (c.adjSeq + 1) % 2 ^ 32
    moves := ⟨at_, if c.valid then some c.counts else none, calCounts new⟩ :: c.moves }

/-- The calendar moves by a step from its present time (R83, R339 to R342): running events and sets are marked, alarms judged. -/
def State.calStep (new : CalTime) (dow : Nat) (s : State) : State :=
  let wb := { s.wb with stepNow := true }
  let s1 := { s with cld := atRangeEnd (s.cld.load s.clock new dow), buses := s.buses.map Bus.markStep, wb := wb }
  s1.alarmsAtStep s.cld.time s.cld.dow new

/-- A set of an invalid calendar is not a step: it only marks the running intervals (R339). -/
def State.calFirstSet (new : CalTime) (dow : Nat) (s : State) : State := { s with cld := s.cld.load s.clock new dow }

/-- CLD_SET (R338, R339). -/
def State.cldSet (r : Req) (f : CldFields) (s : State) : State :=
  if !cldOk f then ((s.raise .cldReject .device (cldBytes f)).badSet).fail 0x0701 r .cldInvalid
  else
    let before := s.stampNow
    let dow := ofBcd f.dow
    let s1 := if s.cld.valid then s.calStep (cldTime f) dow else s.calFirstSet (cldTime f) dow
    let s2 := { s1 with
      cld := atRangeEnd { s1.cld with valid := true, lost := false, range := false }
      flt := { s1.flt with calStop := false } }
    let seq := le 4 s2.cld.adjSeq
    (s2.raise .cldSet .device (seq ++ before.bytes)).ok 0x0701 r (seq ++ zeros 4)

/-- The row's meaning (R338). -/
def execCldSet (r : Req) (fields : CldFields) (s : State) : Host.Outcome State Fault Refusal :=
  .next (s.command 0x0701 r (State.cldSet r fields))

/-- CLD_ADJUST of an accepted adjustment (R324, R340, R341). -/
def State.cldAdjusted (r : Req) (mode : Nat) (amount : Int) (s : State) : State :=
  let seq := le 4 s.cld.adjSeq
  (s.raise .cldAdjust .device (le 1 mode ++ zeros 3 ++ le 4 (unsigned 32 amount) ++ seq)).ok 0x0702 r (seq ++ zeros 4)

/-- CLD_ADJUST in mode 0: a step (R340). A step of 0 changes only ADJSEQ. -/
def State.adjustStep (r : Req) (mode : Byte) (amount : Int) (s : State) : State :=
  let c := s.cld
  let new : Int := (c.counts : Int) + amount
  if mode ≠ 0 || 2 ^ 31 < amount.natAbs then s.fail 0x0702 r .badValue
  else if !c.valid then s.fail 0x0702 r .cldInvalid
  else if amount = 0 then
    ({ s with cld := { c with adjSeq := (c.adjSeq + 1) % 2 ^ 32 } }).cldAdjusted r 0 0
  else if new < 0 || (calEnd : Int) ≤ new then s.badSet.fail 0x0702 r .cldInvalid
  else
    let t := calOfCounts new.toNat
    (s.calStep t (dowPlus c.dow ((calDays t : Int) - (calDays c.time : Int)))).cldAdjusted r 0 amount

/-- The row's meaning (R340). -/
def execCldAdjustStep (r : Req) (mode : Byte) (amount : Int) (s : State) : Host.Outcome State Fault Refusal :=
  .next (s.command 0x0702 r (State.adjustStep r mode amount))

/-- CLD_ADJUST in mode 1: a slew, which replaces one that runs (R341). -/
def State.adjustSlew (r : Req) (mode : Byte) (amount : Int) (s : State) : State :=
  let c := s.cld
  if mode ≠ 1 then s.fail 0x0702 r .badValue
  else if !c.valid then s.fail 0x0702 r .cldInvalid
  else if 2 ^ 20 < amount.natAbs then s.fail 0x0702 r .badValue
  else ({ s with cld := { c with slew := amount, slewing := amount ≠ 0, adjSeq := (c.adjSeq + 1) % 2 ^ 32 } }).cldAdjusted r 1 amount

/-- The row's meaning (R341). -/
def execCldAdjustSlew (r : Req) (mode : Byte) (amount : Int) (s : State) : Host.Outcome State Fault Refusal :=
  .next (s.command 0x0702 r (State.adjustSlew r mode amount))

/-- FLAG, SKIPPED and OVERRUN of an alarm are cleared (R343). -/
def Alarm.ack (a : Alarm) : Alarm := { a with flagged := false, skipped := false, overrun := false }

/-- CLD_ALARM_ACK (R343): the alarms named are acknowledged, WAKE_N is released. -/
def execCldAlarmAck (r : Req) (mask : BitVec 2) (s : State) : Host.Outcome State Fault Refusal :=
  .next (s.command 0x0703 r fun s =>
    let s1 := chain ((List.finRange 2).filter fun a => mask.getLsbD a.val) (fun a s => s.onAlarm a Alarm.ack) s
    ({ s1 with cld := { s1.cld with wake := false } }).ok 0x0703 r [])

/-! ### Events of the calendar domain -/

/-- The calendar at its next second: fields carried, the day of week at midnight (R333, R335). -/
def Calendar.second (c : Calendar) : Calendar :=
  let n := (calSeconds c.time + 1) * 32768
  let sub := min 32767 (c.ahead - 1)
  { c with time := calOfCounts (n + sub), ahead := c.ahead - 1 - sub, dow := if n / 32768 % 86400 = 0 then dowPlus c.dow 1 else c.dow }

/-- CAL_SECOND_BOUNDARY (R333, R342): the sub-second counter carries, where a carry has come that no step or set has taken the place of
(R345); in a valid calendar the alarms that match fire. -/
def State.secondBoundary (s : State) : State :=
  if s.cld.range || s.cld.ahead = 0 then s
  else
    let s1 := { s with cld := s.cld.second }
    let c := s1.cld
    if !c.valid then s1
    else chain (List.finRange 2) (fun a s =>
      if s.cld.alarms[a].live && s.cld.alarms[a].matches (time0 c.time c.dow) (time1 c.time) then
        s.alarmFire a c.time c.dow false
      else s) s1

/-- The row's meaning. -/
def execCalSecondBoundary (s : State) : Host.Outcome State Fault Refusal :=
  .next (if s.vaon then s.secondBoundary else s)

/-- CAL_STOPPED (R275): no CAL edge for 2 s; the calendar is invalid. -/
def execCalStopped (s : State) : Host.Outcome State Fault Refusal :=
  .next (if !s.powered then s
    else ({ s with flt := { s.flt with calStop := true }, cld := { s.cld with valid := false } }).note
      .calStopped .calStopped .device [])

/-- SLEW_END (R341): the amount is used up, and SLEWING clears. -/
def execSlewEnd (s : State) : Host.Outcome State Fault Refusal :=
  .next (if s.cld.slew = 0 then { s with cld := { s.cld with slewing := false } } else s)

end Sys2Proof.Machine
end

