-- ==== Sys2Proof/Machine/Intervals.lean ====
section
/-!
DEFINITION. Calendar intervals: demand, the load profile with its ring and chain, and the energy balance (R112 to R123).
-/
namespace Sys2Proof.Machine

/-! ### Demand (R113 to R115) -/

/-- Marks of two intervals together. -/
def Marks.join (a b : Marks) : Marks :=
  ⟨a.part || b.part, a.stepped || b.stepped, a.pending || b.pending, a.bridged || b.bridged, a.faulted || b.faulted,
   a.settling || b.settling⟩

/-- The subintervals that a demand value covers: the interval, or the sliding window (R114). -/
def Demand.window (w : Word) (d : Demand) : List DemSub :=
  d.run :: if bit w 1 then d.subs.take (fld w 15 12 - 1) else []

/-- The marks of a demand value (R113, R114): a window that is not full and a stepped interval are PARTIAL. -/
def Demand.windowMarks (w : Word) (d : Demand) : Marks :=
  let l := d.window w
  let m := l.foldl (fun m x => m.join x.marks) Marks.none
  { m with part := m.part || m.stepped || l.length < (if bit w 1 then fld w 15 12 else 1) }

/-- The eight demand values of a closing interval (R114): over the nominal length, or over the time covered when PARTIAL. -/
def Demand.values (w : Word) (d : Demand) : List Word :=
  let l := d.window w
  let t : Rat := if (d.windowMarks w).part then sumR (l.map DemSub.t) else ((demandSeconds w : Nat) : Rat)
  (List.range 8).map fun i => toF32 (meanPower ((l.map fun x => nth x.e i 0).foldl (· + ·) 0) t)

/-- An interval may set a maximum: every cycle LIVE or BRIDGED, and not PARTIAL (R115). -/
def Marks.eligible (m : Marks) : Bool := !m.part && !m.pending && !m.faulted && !m.settling

/-- Demand values judged against maxima (R115): only a strictly greater one replaces its maximum. -/
def judgeMax (values : List Word) (at_ : Stamp) (old : List Word × List (Option Stamp)) : List Word × List (Option Stamp) :=
  let more := fun i => f32D (nth old.1 i 0) < f32D (nth values i 0)
  ((List.range 8).map fun i => if more i then nth values i 0 else nth old.1 i 0,
   (List.range 8).map fun i => if more i then some at_ else nth old.2 i none)

/-- The running subinterval of a demand closes at a boundary and the next one opens (R113 to R115). -/
def Demand.close (w : Word) (at_ : Stamp) (d : Demand) : Demand :=
  let m := d.windowMarks w
  let v := d.values w
  let judge := fun (x : List Word × List (Option Stamp)) => if m.eligible then judgeMax v at_ x else x
  let new := judge (d.max, d.maxAt)
  { d with
    run := DemSub.empty, subs := if bit w 1 then (d.run :: d.subs).take 15 else [], last := v, lastMark := m
    max := new.1, maxAt := new.2 }

/-- The detail of DEMAND_RESET: old maxima, their timestamps, and the new count (R324). -/
def resetDetail (old : List Word × List (Option Stamp)) (count : Nat) : List Byte :=
  wordBytes old.1 ++ old.2.flatMap stampBytes ++ le 4 count

/-- The running subinterval is marked stepped (R83, R275). -/
def Demand.step (mark : Bool) (d : Demand) : Demand :=
  { d with run := { d.run with marks := { d.run.marks with stepped := d.run.marks.stepped || mark } } }

/-- DEMAND_CLOSE (R113 to R115, R275). -/
def State.demandClose (p : Fin 128) (s : State) : State :=
  s.onPt p fun x =>
    { x with dem := { ((x.dem.step s.countedOut).close (s.live (.pt p .demand)) s.tb.boundary) with sched := s.opening } }

/-- The length of a demand subinterval in seconds (R113). -/
def subSeconds (w : Word) : Nat := demandSeconds w / fld w 15 12

/-- A demand subinterval closes at the present boundary (R82, R113): with EN = 0 no demand is computed. -/
def State.demandDue (s : State) (p : Fin 128) : Bool :=
  let w := s.live (.pt p .demand)
  bit w 0 && s.scheduleDue (subSeconds w) s.pts[p].dem.sched

/-- The row's meaning. -/
def execDemandClose (point : Fin 128) (s : State) : Host.Outcome State Fault Refusal :=
  .next (if s.powered && s.metering && s.demandDue point then (s.demandClose point).refill else s)

/-! ### The load profile (R116 to R120) -/

/-- QMASK of the profile (R116). -/
def qmaskOf (w : Word) : Nat := fld w 23 16

/-- The selected quantities in QMASK order (R116). -/
def quantities (q : Nat) : List Nat := (List.range 8).filter fun i => q / 2 ^ i % 2 = 1

/-- Whole-unit totals of a point, eight quantities (R107, R117). -/
def Point.totals (p : Point) : List Nat := (p.acc.toList.take 8).map wholeUnits

/-- PROF_EN changes take effect at a profile close (R116). -/
def State.applyProfEn (s : State) : State :=
  let one := fun (m : Regs) (p : Fin 128) =>
    let r := Reg.pt p .recd
    m.put r.addr ((s.live r &&& 0xFFFFFFFE) ||| (s.asked r &&& 1))
  let s1 : State := { s with eff := allPts.foldl one s.eff }
  if s1.eff = s.eff then s1 else s1.settingTook

/-- The totals of a point at the present boundary, before what a commit there has added (R112, R117). -/
def State.boundaryTotals (s : State) (p : Fin 128) : List Nat :=
  match s.fol.ready with
  | some i => i.pts[p].totals
  | none => s.pts[p].totals

/-- A profile interval opens at the present boundary (R116); a RECON of this boundary stays. -/
def State.openProfile (part : Bool) (s : State) : State :=
  let s := s.applyProfEn
  let map := allPts.filter fun p => bit (s.live (.pt p .recd)) 0 && pointOn s.live p
  { s with prof := { s.prof with
      running := qmaskOf (s.live .profCfg) ≠ 0, opened := s.tb.boundary, map := map.map Fin.val
      totals := Vector.ofFn s.boundaryTotals, status := s.prof.status.map fun n => n / 256 * 256, stepped := false, part := part
      holdover := false
      commit := false, sched := s.opening } }

/-- The advance of a total over the interval (R117). -/
def State.advance (s : State) (p : Fin 128) (i : Nat) : Nat :=
  (nth (s.boundaryTotals p) i 0 + 2 ^ 64 - nth s.prof.totals[p] i 0) % 2 ^ 64

/-- The status byte of a point in its record (R117). -/
def State.profileStatus (s : State) (p : Fin 128) (qs : List Nat) : Nat :=
  s.prof.status[p] % 256 + flag 7 (qs.any fun i => 0xFFFFFFFF < s.advance p i)

/-- The flags of the records of a close (R117). -/
def State.profileFlags (s : State) : Nat :=
  flag 0 s.prof.stepped + flag 1 (s.prof.part || s.prof.stepped) + flag 2 s.prof.gapDue + flag 3 s.prof.holdover
    + flag 4 s.grd.quenched + flag 5 s.prof.commit

/-- A record of a group without its chain hash (R117). -/
def State.profileBody (s : State) (g : Nat) (ps : List (Fin 128)) : List Byte :=
  let w := s.live .profCfg
  let qs := quantities (qmaskOf w)
  let map := (ps.map fun p => 2 ^ (p.val % 32)).foldl (· + ·) 0
  let status := ps.map fun p => BitVec.ofNat 8 (s.profileStatus p qs)
  le 6 s.prof.next ++ le 2 s.profileFlags ++ s.prof.opened.bytes ++ s.tb.boundary.bytes ++ le 4 map ++ le 1 g
    ++ le 1 (qmaskOf w) ++ le 1 (fld w 3 0) ++ le 1 ps.length ++ fit ((ps.length + 3) / 4 * 4) status
    ++ ps.flatMap fun p => qs.flatMap fun i => le 4 (min 0xFFFFFFFF (s.advance p i))

/-- The bytes of the ring (R117). -/
def profileRing : Nat := 1572864

/-- Oldest records reclaimed until n bytes are free (R119): those lost, and the ring that stays. -/
def reclaimProfile (n : Nat) : List ProfRec → List ProfRec × List ProfRec
  | [] => ([], [])
  | x :: rest =>
    if ((x :: rest).map fun r => r.bytes.length).foldl (· + ·) 0 + n ≤ profileRing then ([], x :: rest)
    else
      let r := reclaimProfile n rest
      (x :: r.1, r.2)

/-- A record has been acknowledged (R118). -/
def Profile.acked (p : Profile) (n : Nat) : Bool := p.ack ≠ noNumber && n ≤ p.ack

/-- PROFILE_LOST of a point counts (R119). -/
def State.countLost (p : Nat) (s : State) : State :=
  match idx? 128 p with
  | some i => s.onPt i fun x => { x with profLost := sat 0xFFFFFFFF (x.profLost + 1) }
  | none => s

/-- Records are lost that no host has acknowledged (R119). -/
def State.loseRecords (lost : List ProfRec) (s : State) : State :=
  match lost with
  | [] => s
  | first :: rest =>
    let s1 := chain ((first :: rest).flatMap ProfRec.points) State.countLost s
    if s.prof.lossNoted then s1
    else
      let last := (rest.getLast?.getD first).number
      (({ s1 with prof := { s1.prof with lossNoted := true } }).logOnly .profileLost .device (le 6 first.number ++ le 6 last))

/-- The record of a group is written (R117 to R119). -/
def State.writeGroup (g : Nat) (s : State) : State :=
  let ps := (s.prof.map.filterMap (idx? 128)).filter fun p => p.val / 32 = g
  if ps.isEmpty then s
  else
    let body := s.profileBody g ps
    let hash := sha256 (s.prof.hash ++ body)
    let r : ProfRec := ⟨s.prof.next, ps.map Fin.val, body ++ hash, false⟩
    let (gone, ring) := reclaimProfile r.bytes.length s.prof.ring
    let s1 := s.loseRecords (gone.filter fun x => !s.prof.acked x.number)
    ({ s1 with prof := { s1.prof with
        ring := ring ++ [r], next := (s.prof.next + 1) % 2 ^ 48, newest := s.prof.next, hash := hash, gapDue := false
        runs := noteRun s.prof.next s.prof.runs } }).pendInt 19

/-- The profile interval closes and the next one opens (R116 to R119, R275). -/
def State.profileClose (part : Bool) (s : State) : State :=
  let s : State := { s with prof := { s.prof with stepped := s.prof.stepped || s.countedOut } }
  let s1 := if s.prof.running then chain (List.range 4) State.writeGroup s else s
  s1.openProfile part

/-- The profile interval closes at the present boundary (R82, R116). -/
def State.profileDue (s : State) : Bool := s.scheduleDue (60 * intervalMinutes (fld (s.live .profCfg) 3 0)) s.prof.sched

/-- PROFILE_CLOSE (R116). -/
def execProfileClose (s : State) : Host.Outcome State Fault Refusal :=
  .next (if s.powered && s.metering && s.profileDue then (s.profileClose false).refill else s)

/-! ### The energy balance (R121 to R123) -/

/-- A residual is beyond its threshold (R123). -/
def beyondBalance (w : Word) (r e : Int) : Bool :=
  let unit : Rat := ((2 ^ 32 : Nat) : Rat)
  (fld w 31 16 : Rat) / 10000 * (e : Rat) + (fld w 15 0 : Rat) * 100 * unit < (r.natAbs : Rat)

/-- BALANCE_RESIDUAL of a direction (R123, R324). -/
def State.residual (b : Fin 2) (export_ : Bool) (opened : Stamp) (r e : Int) (s : State) : State :=
  s.raiseWith .balanceResidual (.bus b) s.tb.boundary true true
    (le 1 (flag 0 export_) ++ zeros 3 ++ balanceBytes r ++ balanceBytes e ++ opened.bytes ++ s.tb.boundary.bytes)

/-- The balance interval of a bus closes, is judged and reported, and the next one opens (R121 to R123). -/
def State.balanceClose (b : Fin 2) (part : Bool) (s : State) : State :=
  let a := s.buses[b].bal
  let w := s.live (.bus b .balth)
  let stepped := a.stepped || s.countedOut
  let partial_ := a.part || stepped
  let judged := a.complete && !partial_
  let imp := judged && beyondBalance w a.run.rImp a.run.eImp
  let exp := judged && beyondBalance w a.run.rExp a.run.eExp
  let flags := flag 1 partial_ + flag 2 stepped + flag 3 a.complete + flag 4 a.complete + flag 5 imp + flag 6 exp
  let s1 := s.onBus b fun x =>
    { x with bal :=
      { x.bal with
        run := .zero, opened := s.tb.boundary, complete := false, part := part, stepped := false, sched := s.opening, members := []
        last := a.run, lastOpen := a.opened, lastShut := s.tb.boundary, lastFlag := flags } }
  let s2 := if imp then s1.residual b false a.opened a.run.rImp a.run.eImp else s1
  if exp then s2.residual b true a.opened a.run.rExp a.run.eExp else s2

/-- A balance interval closes at the present boundary (R82, R121). -/
def State.balanceDue (s : State) (b : Fin 2) : Bool :=
  let w := s.live (.bus b .balcfg)
  bit w 15 && s.scheduleDue (60 * intervalMinutes (fld w 3 0)) s.buses[b].bal.sched

/-- BALANCE_CLOSE (R121). -/
def execBalanceClose (bus : Fin 2) (s : State) : Host.Outcome State Fault Refusal :=
  .next (if s.powered && s.metering && s.balanceDue bus then (s.balanceClose bus false).refill else s)

end Sys2Proof.Machine
end

