-- ==== Sys2Proof/Machine/LineAngle.lean ====
section
/-!
DEFINITION. The line-angle timebase: candidates, loss, return, HOLDOVER and FREERUN, the next period, and LSYNC (R62 to R77).
-/
namespace Sys2Proof.Machine

/-! ### Candidates (R67, R70, R71) -/

/-- A frequency in units of 2^-16 Hz lies within 42.5 to 69 Hz (R67). -/
def freqOk (f : Nat) : Bool := 2785280 ≤ f && f ≤ 4521984

/-- A period in SYS ticks lies within 42.5 to 69 Hz (R74). -/
def lsyncOk (ticks : Nat) : Bool := sysHz ≤ 69 * ticks && 85 * ticks ≤ 2 * sysHz

/-- The voltage channel of a candidate (R76). -/
def candChan (c : Fin 8) : Fin 136 := ⟨128 + c.val, by omega⟩

/-- An angle in 2^-16 cycle brought to −0x8000 to 0x7FFF. -/
def wrapAngle (x : Int) : Int := (x + 32768) % 65536 - 32768

/-- A turn fraction in 2^-16 cycle. -/
def angleOf (turn : Rat) : Int := wrapAngle (roundEven (turn * 65536))

/-- What a cycle says of a candidate (R67, R70). -/
structure Look where
  supp  : Bool   -- suppressed: no measurement
  out   : Bool   -- disabled or FAILED
  y1    : Rat    -- fundamental, as a multiple of the declared input voltage
  freq  : Nat    -- 2^-16 Hz
  phase : Int    -- ahead of the angle, 2^-16 cycle

/-- The frequency of a candidate whose phase moved by some angle over a cycle (R67; log 82): it ran through 1 + Δ cycles of its own
while the timebase ran through one. -/
def cycleFreq (period : Nat) (delta : Int) : Nat := (((sysHz * 2 ^ 32 / period : Nat) : Int) * (65536 + delta) / 65536).toNat

/-- The phase of a candidate's fundamental in the closing cycle ahead of the angle, whose 0 is its positive-going zero crossing
(R62, R70). -/
def State.candPhase (s : State) (k : Fin 136) : Int :=
  let z := phasor (fractions s.chans[k].cycle)
  angleOf (Config.argTurn z.1 z.2 + 1 / 4)

/-- What the closing cycle says of a candidate (R67, R70). -/
def State.look (s : State) (c : Fin 8) : Look :=
  let k := candChan c
  let cyc := s.chans[k].cycle
  let old := s.tb.cands[c]
  let phase := s.candPhase k
  { supp := cyc.any Samp.supp, out := !chanOn s.live k || cyc.any Samp.dead
    y1 := s.fundamental k (fractions cyc) / udin s.live (busOfChan s.live k)
    freq := cycleFreq s.tb.period (if old.seen then wrapAngle (phase - old.offset) else 0), phase := phase }

/-- A cycle that loses a valid candidate (R67). -/
def Look.bad (x : Look) : Bool := x.out || (!x.supp && (decide (x.y1 < 1 / 5) || !freqOk x.freq))

/-- A cycle that counts towards validity (R67). -/
def Look.good (x : Look) : Bool := !x.out && decide (1 / 4 ≤ x.y1) && freqOk x.freq

/-- A candidate after a cycle (R67, R70, R71). -/
def Cand.close (x : Look) (c : Cand) : Cand :=
  if x.supp && !x.out then { c with seen := false }
  else
    let n := if x.good then min 10 (c.good + 1) else 0
    let valid := if c.valid then !x.bad else n = 10
    ⟨valid, n, if valid then min 50 (c.held + 1) else 0, !x.out, x.phase⟩

/-- The candidates after the closing cycle. -/
def State.closedCands (s : State) : Vector Cand 8 := Vector.ofFn fun c => s.tb.cands[c].close (s.look c)

/-! ### References and modes (R68 to R73) -/

/-- LSYNC may be the active reference (R68). -/
def State.lsyncUsable (s : State) : Bool := bit (s.asked .tbCfg) 1 && s.tb.lsync.valid

/-- The first valid candidate of the list that comes into force (R68). -/
def State.firstCandidate (s : State) : Option (Fin 8) := (refCands (s.asked .reflist)).find? fun c => s.tb.cands[c].valid

/-- The first valid reference, 8 for LSYNC, none without one (R68, R70). -/
def State.firstReference (s : State) : Option Nat :=
  match s.firstCandidate with
  | some c => some c.val
  | none => if s.lsyncUsable then some 8 else none

/-- The candidate of higher priority that takes over after 50 valid cycles (R71, R74). -/
def State.returning (s : State) : Option (Fin 8) :=
  ((refCands (s.asked .reflist)).takeWhile fun c => c.val ≠ s.tb.active).find? fun c =>
    s.tb.cands[c].valid && s.tb.cands[c].held = 50

/-- The active reference changes (R70): counted, and raised with old and new entries and the frozen offset. -/
def State.switchRef (ref : Nat) (frozen : Int) (s : State) : State :=
  let list := s.asked .reflist
  let old := refEntry list s.tb.active
  let s1 := { s with tb :=
    { s.tb with active := ref, frozen := frozen, provisional := none, switches := sat 0xFF (s.tb.switches + 1) } }
  s1.raiseWith .tbRefSwitch .device s1.tb.boundary true true
    (le 1 old ++ le 1 (refEntry list ref) ++ le 2 (unsigned 16 frozen))

/-- The phase of a reference ahead of the angle, as last measured (R70, R74). -/
def Timebase.offsetOf (ref : Nat) (t : Timebase) : Int :=
  match idx? 8 ref with
  | some c => t.cands[c].offset
  | none => t.lsync.offset

/-- FREERUN is entered at a boundary (R72). -/
def State.enterFreerun (s : State) : State :=
  let tb := { (s.tb.hold (nominalPeriod s.tb.nomf60)) with mode := .freerun, active := 15, lockRun := 0 }
  ({ s with tb := tb }).blot .tbFreerun |>.raiseWith .tbFreerun .device s.tb.boundary true true []

/-- HOLDOVER is entered at a boundary with the mean period of the cycles given (R72); FREERUN follows directly with
TB.HOLD = 0. -/
def State.enterHoldover (periods : List Nat) (s : State) : State :=
  let ps := periods.take 10
  let mean := if ps.isEmpty then s.tb.period else ps.foldl (· + ·) 0 / ps.length
  if fld (s.asked .hold) 15 0 = 0 then s.enterFreerun
  else
    let tb := { (s.tb.hold mean) with mode := .holdover, active := 15, provisional := none, holdRun := 0, lockRun := 0 }
    ({ s with tb := tb }).blot .tbHoldover |>.raiseWith .tbHoldover .device s.tb.boundary true true
      (le 4 (sysHz * 2 ^ 32 / mean))

/-- The active reference is still usable after the closing cycle (R68, R70, R76, R283). -/
def State.activeHolds (s : State) (looks : List Look) : Bool :=
  match idx? 8 s.tb.active with
  | some c =>
    (refCands (s.asked .reflist)).contains c
      && (s.tb.cands[c].valid || (s.tb.provisional = some c.val && !((looks.drop c.val).headD ⟨false, true, 0, 0, 0⟩).bad))
  | none => s.tb.active = 8 && s.lsyncUsable

/-- The offset that a switch after a loss freezes: the one of the last cycle before it, where the candidate was valid
then (R70). -/
def frozenOffset (old new : Cand) : Int := if old.valid then old.offset else new.offset

/-- The offset that becomes frozen with a reference that takes over from a lost one (R70). -/
def Timebase.frozenFor (old : Vector Cand 8) (ref : Nat) (t : Timebase) : Int :=
  match idx? 8 ref with
  | some c => frozenOffset old[c] t.cands[c]
  | none => t.lsync.offset

/-- The reference for the next cycle (R68, R70 to R73). `old` are the candidates before the closing cycle, `periods` the
periods of the cycles before it. Another candidate that is valid takes over from a provisional reference that is not, as one does
from a reference that is lost (R68, R70, R283). -/
def State.chooseRef (old : Vector Cand 8) (periods : List Nat) (looks : List Look) (s : State) : State :=
  let follow := fun (ref : Nat) => ({ s with tb := s.tb.setSlew 0 }).switchRef ref (s.tb.frozenFor old ref)
  if s.tb.active = 15 then
    match s.firstReference with
    | none => s
    | some ref =>
      let tb := { (s.tb.setSlew (s.tb.offsetOf ref)) with mode := .acquire, lockRun := 0 }
      ({ s with tb := tb }).switchRef ref 0
  else if s.tb.provisional.isSome && s.firstCandidate.isSome then
    match s.firstCandidate with
    | some c => follow c.val
    | none => s
  else if s.activeHolds looks then
    match s.returning with
    | some c => ({ s with tb := s.tb.setSlew s.tb.cands[c].offset }).switchRef c.val 0
    | none => s
  else
    match s.firstReference with
    | none => s.enterHoldover periods
    | some ref => follow ref

/-- A phase correction is limited to ±0x0080 per cycle (R68, R71). -/
def clampAngle (x : Int) : Int := max (-128) (min 128 x)

/-- A period with the angle advanced by some 2^-16 cycle in it (R68, R71), within the tracking range (R68). -/
def advanced (period : Nat) (angle : Int) : Nat :=
  let longest := 2 * sysHz * tickParts / 85
  let shortest := sysHz * tickParts / 69
  max shortest (min longest ((period : Int) - period * angle / 65536).toNat)

/-- The closing cycle has measured the active reference (R67, R74). -/
def Timebase.measured (t : Timebase) : Bool :=
  match idx? 8 t.active with
  | some c => t.cands[c].seen
  | none => t.active = 8

/-- The phase of the active reference less its frozen offset (R70). -/
def Timebase.angleError (t : Timebase) : Int := wrapAngle (t.offsetOf t.active - t.frozen)

/-- The period of the next cycle (R64, R68, R70 to R73): while a reference is active, the loop moves the frequency word by the error
that is not left to the slew, and adds its phase correction and one step of the slew, together limited to ±0x0080; else the period
held. The loop's own filter is stated by its characteristics only (Config.loopFreq, Config.loopPhase). -/
def Timebase.nextPeriod (t : Timebase) : Timebase :=
  if t.active = 15 then t
  else
    let e := if t.measured then wrapAngle (t.angleError - t.slew) else 0
    let (kf, kp) := if t.measured then (Config.loopFreq e t.err, Config.loopPhase e) else (0, 0)
    let step := clampAngle t.slew
    { (t.setSlew (t.slew - step)) with
      err := e, freqWord := advanced t.freqWord (clampAngle kf), period := advanced t.freqWord (clampAngle (kf + kp + step)) }

/-- The mode becomes LOCKED after three cycles of a small error with no slew (R69, R73). -/
def State.judgeLock (s : State) : State :=
  let t := s.tb
  let small : Bool := t.active ≠ 15 && t.measured && !t.slewing && decide (t.angleError.natAbs < 256)
  let run := if small then t.lockRun + 1 else 0
  let s1 := { s with tb := { t with lockRun := min 3 run } }
  match s1.tb.mode with
  | .acquire =>
    if run < 3 then s1
    else
      let s2 := { s1 with tb := { s1.tb with mode := .locked } }
      s2.raiseWith .tbLocked .device s2.tb.boundary true true (le 4 (s2.tb.status (s2.asked .reflist)).toNat)
  | .locked | .holdover | .freerun => s1

/-- A step or set of the calendar falls into the running cycle (R83). -/
def Timebase.covers (t : Timebase) (m : CalMove) : Bool := decide (t.start < m.at_) && decide (m.at_ ≤ t.start + t.period)

/-- What the calendar runs through from one time to another, over steps and sets between them, oldest first (R82, R83, R339). -/
def calRuns (last : Option Nat) : Option Nat → List CalMove → List (Nat × Nat)
  | a, [] => (a.bind fun a => last.map fun b => (a, b)).toList
  | a, m :: ms => (a.bind fun a => m.before.map fun b => (a, b)).toList ++ calRuns last (some m.after) ms

/-- The timebase at the boundary that closes a cycle: numbers, instants, candidates, reference, lock and the next period (R62 to
R73). A provisional reference that has become valid is the active one from now on (R283). -/
def State.closeTimebase (s : State) : State :=
  let t := s.tb
  let cands := s.closedCands
  let start := t.start + t.period
  let cycle := (t.cycle + 1) % 2 ^ 48
  let cal := s.calAt start
  let tb :=
    { t with
      ran := calRuns (cal.map calCounts) (t.boundary.cal.map calCounts) (s.cld.moves.filter t.covers).reverse
      cands := cands, lastCycle := t.cycle, freq := sysHz * 2 ^ 32 / t.period, periods := (t.period :: t.periods).take 11
      cycle := cycle, start := start, prevStart := t.start, prevBoundary := t.boundary, boundary := ⟨cycle, 0, cal⟩
      holdRun := match t.mode with | .holdover => t.holdRun + 1 | _ => t.holdRun
      provisional := t.provisional.filter fun n => !((cands.toList.map Cand.valid).getD n false) }
  let s1 := (({ s with tb := tb }).chooseRef t.cands t.periods ((List.finRange 8).map s.look)).judgeLock
  { s1 with tb := s1.tb.nextPeriod }

/-- A commit changes the DELAY of the active reference (R71): its waveform is read later by the difference, so that its phase
leads by that much more, and the slew absorbs it (log 83). A unit of DELAY is 2^-16 of 3840 ticks (R79). -/
def State.absorbDelay (old new : CalSet) (s : State) : State :=
  match idx? 8 s.tb.active with
  | none => s
  | some c =>
    let k := candChan c
    let d := signed 32 new.ch[k].delay.toNat - signed 32 old.ch[k].delay.toNat
    if d = 0 then s else { s with tb := s.tb.setSlew (s.tb.slew + d * 3840 * 65536 / s.tb.period) }

/-- FREERUN_ENTRY (R72): TB.HOLD cycles in HOLDOVER have passed. -/
def execFreerunEntry (s : State) : Host.Outcome State Fault Refusal :=
  .next (match s.tb.mode with
    | .holdover => if fld (s.live .hold) 15 0 ≤ s.tb.holdRun then s.enterFreerun else s
    | .acquire | .locked | .freerun => s)

/-! ### LSYNC (R74) -/

/-- Periods differ from one another by at most 2 %, of the smaller of each two (DESIGN CHOICE, log 84). -/
def alike (l : List Nat) : Bool := l.all fun a => l.all fun b => (a - b) * 50 ≤ b

/-- A chosen edge of LSYNC at a SYS tick, with the phase that it shows ahead of the angle (R74). -/
def Lsync.take (tick : Nat) (offset : Int) (l : Lsync) : Lsync :=
  match l.edge with
  | none => { l with edge := some tick, offset := offset }
  | some t =>
    let ticks := tick - t
    if !lsyncOk ticks then ⟨false, some tick, ticks, [], offset⟩
    else
      let ps := (ticks :: l.periods).take 3
      ⟨l.valid || (ps.length = 3 && alike ps), some tick, ticks, ps, offset⟩

/-- LSYNC_EDGE (R74): the chosen edge marks TB.LSYNC.OFS, the other one nothing. -/
def execLsyncEdge (rising : Bool) (tick : Nat) (s : State) : Host.Outcome State Fault Refusal :=
  let chosen := rising ≠ bit (s.live .tbCfg) 2
  let offset := wrapAngle ((fld (s.live .lsync) 15 0 : Int) - ((s.tb.place (tick * tickParts)).2 : Int))
  .next (if s.powered && chosen then { s with tb := { s.tb with lsync := s.tb.lsync.take tick offset } } else s)

/-- LSYNC_TIMEOUT (R74): no edge within 1.5 times the last period. -/
def execLsyncTimeout (s : State) : Host.Outcome State Fault Refusal :=
  .next { s with tb := { s.tb with lsync := { s.tb.lsync with valid := false, periods := [] } } }

end Sys2Proof.Machine
end

