-- ==== Sys2Proof/Machine/MeterCtl.lean ====
section
/-!
DEFINITION. Metering control: commits of calibration sets, conversion of pending energy, demand resets, and the commands for
them (R115, R124 to R134, R178, R238).
-/
namespace Sys2Proof.Machine

/-! ### Conversion of pending energy (R130) -/

/-- What a group of pending sums converts to, in J: active, reactive and apparent energy. -/
structure Converted where
  act : Rat
  re  : Rat
  app : Rat

/-- Nothing to convert. -/
def Converted.zero : Converted := ⟨0, 0, 0⟩

/-- Two conversions together. -/
def Converted.add (a b : Converted) : Converted := ⟨a.act + b.act, a.re + b.re, a.app + b.app⟩

/-- The nominal frequency of TB.CFG.NOMF in force at the present boundary (R75, R130). -/
def State.nominal (s : State) : Rat := nominalHz s.nomfFrom

/-- G and the turn fraction of δ for a phase: 1 and 0 without bound channels (R130). -/
def State.conversion (s : State) (p : Fin 128) (ph : Fin 3) : Rat × Rat :=
  match (pointPhases s.live p).find? fun c => c.ph = ph with
  | none => (1, 0)
  | some c =>
    let (u, i) := (s.mcal.live.ch[c.volt], s.mcal.live.ch[c.curr])
    (gainQ u.gain * gainQ i.gain, s.nominal * ((u.delay.toInt - i.delay.toInt : Int) : Rat) / (51200 * 65536))

/-- A group of sums converted with the live set (R130). -/
def State.convertGroup (s : State) (p : Fin 128) (ph : Fin 3) (g : SumGroup) : Converted :=
  if g.count = 0 then .zero
  else
    let cal := s.mcal.live.pt[p]
    let (k, turn) := s.conversion p ph
    let (c, n) := (Config.cosTurn turn, Config.sinTurn turn)
    let t := (g.count : Rat) / s.nominal
    let act := gainQ cal.pgain * k * (g.p * c - g.qraw * n) + f32D cal.pofs[ph] * t
    let fund := gainQ cal.qgain * k * (g.qraw * c + g.p * n) + f32D cal.qofs[ph] * t
    let tot := gainQ cal.qgain * k * (g.qh * c + g.p * n + (1 - hilbertGain) * g.qraw) + f32D cal.qofs[ph] * t
    ⟨act, if totalReactive s.live p then tot else fund, gainQ cal.sgain * k * g.s⟩

/-- Where a converted group goes (R130): pairs of a total and its energy in 2^-32 units. The sums are signed as R103 forms
them, so that the sign of the active result is its net direction. -/
def Converted.sorted (export_ : Bool) (c : Converted) : List (Nat × Nat) :=
  let act := if c.act < 0 then 1 else 0
  let quad := if export_ then (if 0 < c.re then 3 else 4) else (if 0 < c.re then 2 else 5)
  [(act, (energyUnits (absR c.act) 1).toNat), (quad, (energyUnits (absR c.re) 1).toNat),
   (if export_ then 7 else 6, (energyUnits c.app 1).toNat)]

/-- The converted groups of a phase list and direction. -/
def State.convertedOf (s : State) (p : Fin 128) (v : Vector SumGroup 6) (phs : List (Fin 3)) (export_ : Bool) : Converted :=
  phs.foldl (fun c ph => c.add (s.convertGroup p ph v[sumIndex ph export_])) .zero

/-- The groups that are sorted on their own: each phase and direction, or the directions alone on a Q3P3 point (R91, R130). -/
def conversionUnits (q3p3 : Bool) : List (List (Fin 3) × Bool) :=
  if q3p3 then [(List.finRange 3, false), (List.finRange 3, true)]
  else (List.finRange 3).flatMap fun ph => [([ph], false), ([ph], true)]

/-- The eight totals that sums convert to (R130). -/
def State.convertTotals (s : State) (p : Fin 128) (v : Vector SumGroup 6) : List Nat :=
  let l := (conversionUnits (isQ3P3 (s.live (.qdTopo (quadOf p))))).flatMap fun x => (s.convertedOf p v x.1 x.2).sorted x.2
  (List.range 8).map fun i => ((l.filter (·.1 = i)).map Prod.snd).foldl (· + ·) 0

/-- The six per-phase totals of a Q3P4 point that sums convert to (R130). -/
def State.convertPhases (s : State) (p : Fin 128) (v : Vector SumGroup 6) : List Nat :=
  if topoOf s.live (quadOf p) ≠ 0 then List.replicate 6 0
  else (List.finRange 3).flatMap fun ph =>
    let l := [false, true].flatMap fun e => ((s.convertedOf p v [ph] e).sorted e).take 1
    [0, 1].map fun i => ((l.filter (·.1 = i)).map Prod.snd).foldl (· + ·) 0

/-- A RECON of the present boundary: it belongs to the profile interval that opens there or holds it (R112, R117). -/
def reconMark : Nat := 256

/-- Sums are converted into a point's totals (R112, R130). -/
def State.convert (p : Fin 128) (u : Sums) (s : State) : State :=
  if !u.any then s
  else
    let l := s.convertTotals p u.meas ++ s.convertPhases p u.meas ++ s.convertTotals p u.brdg
    let s1 := (s.book p s.tb.boundary l).onPt p fun x => { x with reconciled := true }
    { s1 with prof := { s1.prof with status := upd s1.prof.status p fun n => n ||| reconMark } }

/-- RECON marks of the boundary before enter the status bytes of the interval that holds it (R117). -/
def Profile.promote (f : Profile) : Profile :=
  { f with status := f.status.map fun n => if 256 ≤ n then n % 256 ||| 64 else n }

/-! ### Commits (R127, R128, R130, R131) -/

/-- Two groups of sums together (R131). -/
def SumGroup.merge (a b : SumGroup) : SumGroup :=
  ⟨a.p + b.p, a.qraw + b.qraw, a.qh + b.qh, a.s + b.s, a.u2 + b.u2, a.i2 + b.i2, a.count + b.count⟩

/-- Two sets of sums together (R131). -/
def Sums.merge (a b : Sums) : Sums :=
  ⟨Vector.ofFn fun i => a.meas[i].merge b.meas[i], Vector.ofFn fun i => a.brdg[i].merge b.brdg[i]⟩

/-- The pending sums of a point are converted and cleared (R130). -/
def State.reconcile (p : Fin 128) (s : State) : State :=
  (s.convert p s.pts[p].pending).onPt p fun x => { x with pending := .zero }

/-- The pending sums of a point move to its unreconciled register (R131). -/
def Point.setAside (x : Point) : Point :=
  if x.pending.any then { x with unrec := x.unrec.merge x.pending, pending := .zero } else x

/-- The first commit after a cold reset settles the pending sums by its digest (R130, R131). -/
def State.firstCommit (digest : List Byte) (s : State) : State :=
  if digest = s.mcal.jdigest || s.mcal.jdigest = CalSet.unloaded.digest then chain allPts State.reconcile s
  else
    ({ s with pts := s.pts.map Point.setAside }).note .calMismatch .calDigestMismatch .device
      (fit 32 s.mcal.jdigest ++ fit 32 digest)

/-- The staged set becomes live at a cycle boundary (R127, R128): the journal takes the new digest. -/
def State.commitSet (digest : List Byte) (s : State) : State :=
  let m := s.mcal
  let first := !m.firstDone
  let mcal :=
    { m with
      live := m.staged, digest := digest, jdigestNow := digest, jcommit := (s.tb.cycle, m.commits + 1), commits := m.commits + 1
      commitCycle := s.tb.cycle
      loaded := true, everSet := true, firstDone := true, written := [], reloadDue := [] }
  let mark := fun (r : JRec) => { r with digest := digest, commit := mcal.jcommit, everSet := true }
  let pwr := { s.pwr with records := s.pwr.records.map mark }
  let s1 := ({ s with mcal := mcal, pwr := pwr }).absorbDelay m.live m.staged
  if first then s1.firstCommit digest else s1

/-- The oldest waiting commit takes effect at the present boundary (R127). -/
def State.commitBoundary (s : State) : State :=
  match s.mcal.waiting with
  | [] => s
  | c :: rest =>
    let s1 := ({ s with mcal := { s.mcal with waiting := rest } }).commitSet c.digest
    s1.okTo 0x0402 c.req (fit 32 c.digest ++ le 6 s1.tb.cycle ++ zeros 2 ++ le 4 s1.mcal.commits)

/-- Words with a parity error are reloaded from the staged copy at a boundary, where it has not been written since the
last commit (R134). -/
def State.reloadCal (s : State) : State :=
  let one := fun (c : CalSet) (a : Nat) => match regOf a with
    | .live w => if s.mcal.written.contains a then c else c.put w (s.mcal.staged.word w)
    | _ => c
  { s with mcal := { s.mcal with live := s.mcal.reloadDue.foldl one s.mcal.live, reloadDue := [] } }

/-- A parity error in a live word (R134). The value of the word as used until it is reloaded is the committed one (DESIGN CHOICE,
log 126). -/
def State.calParity (addr : Nat) (s : State) : State :=
  let due := if s.mcal.written.contains addr then s.mcal.reloadDue else insertAsc addr s.mcal.reloadDue
  ({ s with mcal := { s.mcal with perr := true, reloadDue := due } }).note .mcalParity .calParity .device (le 4 addr)

/-! ### Resolves and demand resets (R115, R132) -/

/-- The binary64 values and the count of a group (R238). -/
def SumGroup.bytes (g : SumGroup) : List Byte :=
  [g.p, g.qraw, g.qh, g.s, g.u2, g.i2].flatMap (fun x => le 8 (toF64 x)) ++ le 8 g.count

/-- The 672 bytes of sums (R238). -/
def Sums.bytes (u : Sums) : List Byte := (List.finRange 6).flatMap fun i => u.meas[i].bytes ++ u.brdg[i].bytes

/-- One point of a resolve (R132). -/
def State.resolvePoint (convert : Bool) (p : Fin 128) (s : State) : State :=
  let u := s.pts[p].unrec
  if !u.any then s
  else
    let s1 := if convert then s.convert p u else s.logOnly .pendingDiscard (.point p) u.bytes
    s1.onPt p fun x => { x with unrec := .zero }

/-- A waiting resolve takes effect at the present boundary (R132). -/
def State.resolveOne (x : Resolve) (s : State) : State :=
  let s1 := chain (x.points.filterMap (idx? 128)) (State.resolvePoint x.convert) s
  s1.okTo 0x0404 x.req (le 6 s1.tb.cycle ++ zeros 2)

/-- Every waiting resolve takes effect (R132). -/
def State.resolveBoundary (s : State) : State :=
  chain s.mcal.resolves State.resolveOne { s with mcal := { s.mcal with resolves := [] } }

/-- The maxima of a point are reset (R115): an interval that closes at the boundary is judged against the old ones first, and the
entry of the log carries them. -/
def State.resetDemand (p : Fin 128) (s : State) : State :=
  let s := if s.demandDue p then s.demandClose p else s
  let d := s.pts[p].dem
  let n := (d.resets + 1) % 2 ^ 32
  let s1 := s.logOnly .demandReset (.point p) (resetDetail (d.max, d.maxAt) n)
  s1.onPt p fun x =>
    { x with dem := { x.dem with resets := n, max := List.replicate 8 0, maxAt := List.replicate 8 Option.none } }

/-- The reply of a demand reset (R238). -/
def State.resetReply (x : Option Req × BitVec 128) (s : State) : State :=
  s.okTo 0x0401 x.1 (le 6 s.tb.cycle ++ zeros 2 ++ (maskPoints x.2).flatMap fun p => le 4 s.pts[p].dem.resets)

/-- A demand reset that waits has been closed off by ISOLATE since (R228). -/
def State.resetClosed (s : State) (x : Option Req × BitVec 128) : Bool := x.1.any fun r => s.closedBy 0x0401 r.role

/-- Demand resets that wait take effect at the present boundary; several act once (R115). One that ISOLATE has closed off by now
changes nothing (R228). -/
def State.resetBoundary (s : State) : State :=
  let closed := (s.mcal.resets.filter s.resetClosed).filterMap Prod.fst
  let l := s.mcal.resets.filter fun x => !s.resetClosed x
  let s := chain closed (fun r s => s.fail 0x0401 r .isolated) s
  let m := l.foldl (fun (m : BitVec 128) x => m ||| x.2) 0
  chain l State.resetReply (chain (maskPoints m) State.resetDemand { s with mcal := { s.mcal with resets := [] } })

/-- A window that a change of DEMAND at the boundary before has emptied is of no more use (R194). -/
def State.dropOldWindows (s : State) : State :=
  { s with pts := s.pts.map fun p => { p with dem := { p.dem with oldSubs := Option.none } } }

/-! ### The commands (R238) -/

/-- DEMAND_RESET: waits for the next cycle boundary (R115). -/
def execDemandReset (r : Req) (mask : BitVec 128) (s : State) : Host.Outcome State Fault Refusal :=
  .next (s.command 0x0401 r fun s =>
    if mask = 0 then s.fail 0x0401 r .badValue
    else if s.mcal.resets.any fun x => x.1 = some r then s
    else { s with mcal := { s.mcal with resets := s.mcal.resets ++ [(some r, mask)] } })

/-- CAL_COMMIT: the staged copy's digest is checked, then the commit waits for its boundary (R127). -/
def execCalCommit (r : Req) (digest : List Byte) (s : State) : Host.Outcome State Fault Refusal :=
  .next (s.command 0x0402 r fun s =>
    if s.mcal.waiting.any fun x => x.req = some r then s
    else
      let d := s.mcal.staged.digest
      if fit 32 digest ≠ d then s.complete 0x0402 r .digestMismatch d
      else { s with mcal := { s.mcal with waiting := s.mcal.waiting ++ [⟨some r, d⟩] } })

/-- The sums a CAL_PENDING_READ returns, with their source code (R238). -/
def Point.sumsFor (select : Nat) (x : Point) : Nat × Sums :=
  let pend := if x.pending.any then (1, x.pending) else (0, Sums.zero)
  let unrec := if x.unrec.any then (2, x.unrec) else (0, Sums.zero)
  match select with
  | 0 => if x.pending.any then pend else unrec
  | 1 => pend
  | _ => unrec

/-- CAL_PENDING_READ (R238). -/
def execCalPendingRead (r : Req) (point select : Nat) (s : State) : Host.Outcome State Fault Refusal :=
  .next (s.command 0x0403 r fun s =>
    match idx? 128 point with
    | none => s.fail 0x0403 r .badValue
    | some p =>
      if 2 < select then s.fail 0x0403 r .badValue
      else
        let x := s.pts[p]
        let (src, u) := x.sumsFor select
        s.ok 0x0403 r
          (le 1 point ++ le 1 src ++ le 1 (flag 0 x.pending.any + flag 1 x.unrec.any) ++ zeros 5 ++ u.bytes))

/-- CAL_PENDING_RESOLVE: waits for the next cycle boundary (R132). -/
def execCalPendingResolve (r : Req) (mask : BitVec 128) (action : Nat) (s : State) : Host.Outcome State Fault Refusal :=
  .next (s.command 0x0404 r fun s =>
    if 1 < action || mask = 0 then s.fail 0x0404 r .badValue
    else if s.mcal.resolves.any fun x => x.req = some r then s
    else
      let x : Resolve := ⟨some r, (maskPoints mask).map Fin.val, action = 0⟩
      { s with mcal := { s.mcal with resolves := s.mcal.resolves ++ [x] } })

/-- PULSE_TEST: TEN and TCONST of every output named, as one PARAM_WRITE would (R178, R238). -/
def execPulseTest (r : Req) (mask : BitVec 8) (ten : Bool) (tconst : Word) (s : State) : Host.Outcome State Fault Refusal :=
  .next (s.command 0x0405 r fun s =>
    let outs := (List.finRange 8).filter fun n => mask.getLsbD n.val
    if !outs.isEmpty && (tconst.toNat = 0 || 1000000 < tconst.toNat) then s.fail 0x0405 r .badValue
    else
      let w := word (flag 31 ten + put 19 0 tconst.toNat)
      (chain outs (fun n s => s.store (.pulTest n) w) s).ok 0x0405 r (le 6 s.nextBoundary ++ zeros 2))

end Sys2Proof.Machine
end

