-- ==== Sys2Proof/Machine/PulseOut.lean ====
section
/-!
DEFINITION. The pulse outputs: sources, the provisional sums of a running cycle, the cycle close, and the edges (R172 to R180).
-/
namespace Sys2Proof.Machine

/-- Every output. -/
def allPulses : List (Fin 8) := List.finRange 8

/-- The threshold 10^5 × 2^32 (R173). -/
def pulseQuantum : Int := 100000 * 2 ^ 32

/-- The constant in force: TCONST in test mode (R173, R178). -/
def pulseConst (f : Reg → Word) (n : Fin 8) : Nat :=
  if bit (f (.pulTest n)) 31 then fld (f (.pulTest n)) 19 0 else (f (.pulConst n)).toNat

/-- What an output follows (R172). -/
structure PulseSource where
  kind  : Nat
  index : Nat
  qty   : Nat

/-- The source of an output in force. -/
def pulseSource (f : Reg → Word) (n : Fin 8) : PulseSource :=
  let w := f (.pulCfg n)
  ⟨fld w 25 24, fld w 22 16, fld w 3 0⟩

/-- The source is paced (R174). -/
def PulseSource.paced (x : PulseSource) : Bool := (x.kind = 0 || x.kind = 3) && 2 ≤ x.qty

/-- The point of a source. -/
def PulseSource.point (x : PulseSource) : Fin 128 := Fin.ofNat 128 x.index

/-- The bus of a source. -/
def PulseSource.bus (x : PulseSource) : Fin 2 := Fin.ofNat 2 x.index

/-- The energy that a source registered in the cycle that closes, 2^-32 units (R172). -/
def State.registered (s : State) (x : PulseSource) : Int :=
  let p := s.pts[x.point]
  let of_ := fun (l : List Nat) => ((nth l x.qty 0 : Nat) : Int)
  match x.kind with
  | 0 => of_ p.contrib
  | 1 => of_ p.contribPh
  | 3 => of_ p.contribBr
  | _ =>
    let bal := s.buses[x.bus].bal
    if !bit (s.live (.bus x.bus .balcfg)) 15 then 0
    else if (x.qty = 0) = (0 ≤ bal.cycE) then bal.cycR else 0

/-- A sample of a point's phase as a term of active energy, 2^-32 cWh, with only its bridged part if so asked (R174). -/
def State.sampleTerm (s : State) (p : Fin 128) (bridgedOnly : Bool) (c : PhaseChans) : Int :=
  match s.chans[c.volt].cur, s.chans[c.curr].cur with
  | u :: _, i :: _ =>
    let cal := s.mcal.live.pt[p]
    let t := periodSec s.tb.period / 512
    if u.dead || i.dead || u.back || i.back then 0
    else if u.brdg || i.brdg then energyUnits (s.pts[p].phases[c.ph].prev.getD .zero).p t
    else if bridgedOnly then 0
    else energyUnits (gainQ cal.pgain * (s.scale c.volt * s.scale c.curr * (unitOf u.x * unitOf i.x)) + f32D cal.pofs[c.ph]) t
  | _, _ => 0

/-- The point registers energy in the running cycle (R172). -/
def State.registers (s : State) (p : Fin 128) : Bool := pointOn s.live p && !s.pts[p].settle && s.mcal.loaded

/-- The terms of a point's phases, of one phase or of all (R174). -/
def State.pointTerm (s : State) (p : Fin 128) (phase : Option Nat) (bridgedOnly : Bool) : Int :=
  if !s.registers p then 0
  else
    let cs := (pointPhases s.live p).filter fun c => (phase.map fun n => decide (c.ph.val = n)).getD true
    (cs.map (s.sampleTerm p bridgedOnly)).foldl (· + ·) 0

/-- The residual's terms: the incomer's less the members' (R174). -/
def State.residualTerm (s : State) (b : Fin 2) : Int :=
  match incomerOf s.live b with
  | none => 0
  | some p0 =>
    s.pointTerm p0 none false - ((s.balanceMembers b p0).map fun p => s.pointTerm p none false).foldl (· + ·) 0

/-- The contribution of a source at a sample instant (R174). -/
def State.pulseTerm (s : State) (n : Fin 8) (index : Nat) : Int :=
  let x := pulseSource s.live n
  let p := s.pulses[n]
  let signed_ := fun (v : Int) => if x.qty % 2 = 0 then v else -v
  if x.paced then ((p.paced * (index + 1) / 512 : Nat) : Int) - ((p.paced * index / 512 : Nat) : Int)
  else match x.kind with
    | 0 => signed_ (s.pointTerm x.point none false)
    | 1 => signed_ (s.pointTerm x.point (some (x.qty / 2)) false)
    | 3 => signed_ (s.pointTerm x.point none true)
    | _ => if (x.qty = 0) = p.resImport then s.residualTerm x.bus else 0

/-- The delay from a crossing at the pins to its leading edge, in SYS ticks: 350.7 µs and D_max (R176). -/
def State.edgeDelay (s : State) : Rat := microTicks (3507 / 10) + s.delayMax

/-- The SYS tick nearest to an instant (R176). -/
def tickOf (x : Rat) : Nat := (roundEven x).toNat

/-- The places, as fractions of the way from one sample instant to the next, at which G less the pulses owed crosses a multiple of
the threshold between two values (R175). -/
def crossings (e0 e1 : Int) : List Rat :=
  (span 1 (e1 / pulseQuantum).toNat).map fun m =>
    maxR 0 ((((m : Int) * pulseQuantum - e0 : Int) : Rat) / ((e1 - e0 : Int) : Rat))

/-- A contribution enters G, which runs in a straight line from its sample instant to the next (R175; DESIGN CHOICE, log 114): each
crossing is a pulse owed, with the tick at which its edge is due. -/
def Pulse.contribute (const : Nat) (d : Int) (from_ upto delay : Rat) (p : Pulse) : Pulse :=
  let e0 := p.g - (p.edges.length : Int) * pulseQuantum
  let new := (crossings e0 (e0 + const * d)).map fun x => tickOf (from_ + x * (upto - from_) + delay)
  { p with g := p.g + const * d, prov := p.prov + d, edges := p.edges ++ new }

/-- A sample instant of an output that emits (R175). -/
def State.pulseSample (index : Nat) (n : Fin 8) (s : State) : State :=
  if !s.pulseOn n then s
  else
    let from_ := s.lineInstant index
    s.onPulse n (Pulse.contribute (pulseConst s.live n) (s.pulseTerm n index) from_ (from_ + ticksOf s.tb.period / 512) s.edgeDelay)

/-- The width W from the energy of a cycle, in SYS ticks (R177). -/
def pulseWidthOf (const : Nat) (e : Int) (t : Rat) : Nat :=
  let r : Rat := if e ≤ 0 || t = 0 then 0 else ((const * e : Int) : Rat) / (pulseQuantum : Rat) / t
  if r ≤ 6250 then pulseWidth else max (25 * sysHz / 1000000) (((sysHz : Nat) : Rat) / (2 * r)).floor.toNat

/-- The pulses owed once G is known (R175): those missing have their edge at the boundary, those beyond G wait for energy that
repays the debt. -/
def owedEdges (g : Int) (due : Nat) (l : List Nat) : List Nat :=
  let n := (g / pulseQuantum).toNat
  l.take n ++ List.replicate (n - l.length) due

/-- The close of a cycle replaces the provisional sum by the registered energy (R175, R177). -/
def Pulse.close (const : Nat) (e : Int) (paced resImport : Bool) (t : Rat) (due : Nat) (p : Pulse) : Pulse :=
  let g := p.g + const * (e - p.prov)
  { p with
    a := p.a + e, g := g, prov := 0, edges := owedEdges g due p.edges, paced := if paced then e.toNat else 0
    overrange := p.overrange || 2 * pulseQuantum ≤ g
    width := pulseWidthOf const e t, resImport := resImport }

/-- An output at a cycle closure (R175, R177). -/
def State.pulseClose (n : Fin 8) (s : State) : State :=
  if !s.pulseOn n then s
  else
    let x := pulseSource s.live n
    let old := s.pulses[n]
    let s1 := s.onPulse n
      (Pulse.close (pulseConst s.live n) (s.registered x) x.paced (0 ≤ s.buses[x.bus].bal.cycE) (periodSec s.tb.period)
        (tickOf (ticksOf (s.tb.start + s.tb.period) + s.edgeDelay)))
    if s1.pulses[n].overrange && !old.overrange then s1.pendInt 113 else s1

/-- The words of an output change at the boundary in a way that starts a new baseline (R178). -/
def State.pulseChanges (s : State) (n : Fin 8) : Bool :=
  let test := fun (f : Reg → Word) =>
    let w := f (.pulTest n)
    if bit w 31 then w else 0
  s.live (.pulCfg n) ≠ s.asked (.pulCfg n) || s.live (.pulConst n) ≠ s.asked (.pulConst n) || test s.live ≠ test s.asked

/-- A new baseline at a boundary (R178): the words in force are those of the new source. -/
def State.rebase (n : Fin 8) (s : State) : State :=
  let x := pulseSource s.live n
  s.onPulse n fun p =>
    { p with
      a := 0, n := 0, g := 0, prov := 0, edges := [], rebase := false, base := s.tb.boundary
      paced := if x.paced then (s.registered x).toNat else 0, resImport := 0 ≤ s.buses[x.bus].bal.cycE }

/-- The tick of a leading edge that is due at some tick: 9831 ticks at least after the one before (R177). -/
def Pulse.edgeTick (due : Nat) (p : Pulse) : Nat :=
  match p.lastEdge with
  | some t => max due (t + 9831)
  | none => due

/-- A leading edge is emitted (R173, R176, R177): one that has to wait for the spacing is LATE. Its pulse ends W later. -/
def Pulse.lead (due : Nat) (p : Pulse) : Pulse :=
  let tick := p.edgeTick due
  { p with
    n := p.n + 1, g := p.g - pulseQuantum, edges := p.edges.drop 1, lastEdge := some tick, lastFall := some (tick + p.width)
    high := true, lateBlock := p.lateBlock || due < tick }

/-- PULSE_LEADING_EDGE (R173, R176, R177): the oldest pulse owed, while G reaches the threshold. -/
def execPulseLeadingEdge (out : Fin 8) (s : State) : Host.Outcome State Fault Refusal :=
  let p := s.pulses[out]
  .next (match p.edges with
    | due :: _ => if s.powered && s.pulseOn out && pulseQuantum ≤ p.g then s.onPulse out (Pulse.lead due) else s
    | [] => s)

/-- A pulse ends (R177): at the tick its width gives, or 10 µs before the next leading edge. -/
def Pulse.trail (p : Pulse) : Pulse :=
  let limit := p.edges.head?.map fun due => p.edgeTick due - 10 * sysHz / 1000000
  let fall := match p.lastFall, limit with
    | some a, some b => some (min a b)
    | a, _ => a
  { p with high := false, lastFall := if p.high then fall else p.lastFall }

/-- PULSE_TRAILING_EDGE (R177, R180): the pin is released. -/
def execPulseTrailingEdge (out : Fin 8) (s : State) : Host.Outcome State Fault Refusal := .next (s.onPulse out Pulse.trail)

end Sys2Proof.Machine
end

