-- ==== Sys2Proof/Machine/Closure.lean ====
section
/-!
DEFINITION. The resampled stream and the cycle closure: SAMPLE_BATCH, METROLOGY_REPLAY, and CYCLE_CLOSE with everything that
takes effect at a cycle boundary (R80, R83, R84, R253, R402).
-/
namespace Sys2Proof.Machine

/-! ### One batch of samples (R80) -/

/-- A half cycle ends: the DC estimates are recorded, and both buses form their half-cycle values (R55, R144). -/
def State.halfEnd (half : Bool) (s : State) : State :=
  let s1 := { s with chans := s.chans.map fun c => { c with dcRec := (c.dcEst :: c.dcRec).take 3 } }
  chain (List.finRange 2) (fun b s => s.halfCycle b half) s1

/-- The metrology engine takes a batch (R253): it takes a checkpoint first at every 32nd sample, and keeps its batches back to the older
of the last two. -/
def State.keepBatch (index : Nat) (samps : Vector Samp 136) (s : State) : State :=
  let checks :=
    if index % 32 = 0 then
      (⟨s.tb.cycle, index, s.chans.map Chan.cur, s.pulses.map Pulse.prov⟩ :: s.engine.checks).take 2
    else s.engine.checks
  let kept := fun (b : Batch) => match checks.getLast? with
    | some c => c.cycle < b.cycle || (c.cycle = b.cycle && c.index ≤ b.index)
    | none => false
  { s with engine := ⟨checks, ((⟨s.tb.cycle, index, samps⟩ :: s.engine.inputs).filter kept).take 64⟩ }

/-- A batch enters the running cycle of every channel (R80). -/
def State.takeBatch (samps : Vector Samp 136) (s : State) : State :=
  { s with chans := Vector.ofFn fun k => { s.chans[k] with cur := samps[k] :: s.chans[k].cur } }

/-- SAMPLE_BATCH (R80): sample `index` of every channel is read from its stream, and the live calibration words whose parity failed
on use are reported (R134). -/
def State.sampleBatch (index : Fin 512) (parity : List Nat) (s : State) : State :=
  let s0 := s.udinNow
  let samps := Vector.ofFn fun k => s0.resample index.val k
  let s1 := (s0.keepBatch index.val samps).takeBatch samps
  let s2 := chain allPulses (State.pulseSample index.val) (chain parity State.calParity s1)
  if index.val = 255 then (s2.halfEnd true).flushDue
  else if index.val = 511 then s2.halfEnd false
  else s2

/-- The row's meaning. -/
def execSampleBatch (index : Fin 512) (parity : List Nat) (s : State) : Host.Outcome State Fault Refusal :=
  .next (if s.powered && s.metering then s.sampleBatch index parity else s)

/-- A batch is replayed (R253): its samples join the running cycle again and its terms the provisional sums; its edges keep their
computed positions. -/
def State.replayBatch (b : Batch) (s : State) : State :=
  let s1 := s.takeBatch b.samps
  { s1 with pulses := Vector.ofFn fun n =>
      { s1.pulses[n] with prov := s1.pulses[n].prov + if s1.pulseOn n then s1.pulseTerm n b.index else 0 } }

/-- Back to the newest checkpoint of the running cycle at or before a batch, and through the batches since then (R253). A batch of a
cycle that has closed has nothing left to replay. -/
def State.replayFrom (batch : Nat) (s : State) : State :=
  match s.engine.checks.find? fun c => c.cycle = s.tb.cycle && c.index ≤ batch with
  | none => s
  | some c =>
    let s1 : State :=
      { s with
        chans := Vector.ofFn fun k => { s.chans[k] with cur := c.cur[k] }
        pulses := Vector.ofFn fun n => { s.pulses[n] with prov := c.prov[n] } }
    chain (s.engine.inputs.filter fun b => b.cycle = c.cycle && c.index ≤ b.index).reverse State.replayBatch s1

/-- METROLOGY_REPLAY (R253): the copies disagree on a batch and replay from the checkpoint at or before it; a second disagreement is
persistent: the copy that fails its self-test is fenced, and the survivor replays once more. Edges whose crossings fall in the replayed
batches count as LATE. -/
def State.metrologyReplay (batch : Fin 512) (again : Bool) (failed : Fin 2) (s : State) : State :=
  let first := tickOf (s.lineInstant (batch.val / 32 * 32) + s.edgeDelay)
  let late := fun (p : Pulse) => { p with lateBlock := p.lateBlock || p.edges.any fun due => first ≤ due }
  let s1 := (({ s with pulses := s.pulses.map late }).raise .engFault .device
    (le 1 1 ++ le 1 (flag 0 again) ++ le 2 batch.val)).replayFrom batch
  if !again then s1
  else (({ s1 with flt := { s1.flt with metFenced := some failed } }).replayFrom batch).note .engMetSimplex .engFenced .device
    (le 1 1 ++ le 1 failed.val)

/-- The row's meaning: an engine in simplex compares nothing (R254). -/
def execMetrologyReplay (batch : Fin 512) (again : Bool) (failed : Fin 2) (s : State) : Host.Outcome State Fault Refusal :=
  .next (if s.powered && s.flt.metFenced.isNone then s.metrologyReplay batch again failed else s)

/-! ### The cycle itself (R84) -/

/-- A commit took effect at the start of the cycle that closes, inside the profile interval (R117); one at the boundary at which an interval
opens is inside neither (DESIGN CHOICE, log 124). -/
def State.noteCommit (s : State) : State :=
  let inside := s.mcal.firstDone && s.mcal.commitCycle = s.tb.cycle && s.prof.opened.cycle ≠ s.tb.cycle
  let free := match s.tb.mode with | .holdover | .freerun => true | .acquire | .locked => false
  { s with prof := { s.prof.promote with commit := s.prof.commit || inside, holdover := s.prof.holdover || free } }

/-- A calendar step or set marks every running interval (R83, R339). -/
def State.markSteps (s : State) : State :=
  if !s.cld.moves.any s.tb.covers then s
  else
    let pt := fun (p : Point) => { p with dem := p.dem.step true }
    let bus := fun (x : Bus) => { x.stepAggs with bal := { x.bal with stepped := true } }
    { s with
      pts := s.pts.map pt, buses := s.buses.map bus, chans := s.chans.map Chan.stepAggs, prof := { s.prof with stepped := true }
      fol := { s.fol with stepped := true } }

/-- The closing cycle of a channel with its calibration (R84, R87). -/
def State.pastCycle (s : State) (k : Fin 136) : PastCycle := ⟨s.chans[k].cycle, s.scale k, s.mcal.live.ch[k].gain, s.rmsOfs k⟩

/-- The samples of a cycle join the running block (R141). -/
def Chan.toBlock (x : PastCycle) (c : Chan) : Chan :=
  { c with
    blk := c.blk ++ x.samps.map fun y => x.scale * unitOf y.x, blkOfs := c.blkOfs ++ [x.ofs], blkDc := c.blkDc ++ [c.dcContent]
    blkBad := c.blkBad || c.cur.any fun y => !y.valid }

/-- The cycle's values of every channel enter its block (R141). -/
def State.channelsToBlock (s : State) : State :=
  { s with chans := Vector.ofFn fun k => s.chans[k].toBlock (s.pastCycle k) }

/-- The closing cycle enters every quantity, register and detector, once the words that it is added to have been read (R84 to R103, R121,
R154, R175, R255). -/
def State.closeQuantities (accErrs : List AccErr) (s : State) : State :=
  let s0 := s.accErrors accErrs
  let s1 := chain (List.finRange 2) State.closeBalance (chain allPts State.closePoint s0)
  let s2 := chain allChans State.closeDc s1
  (chain allPulses State.pulseClose s2).cycleDetectors.channelsToBlock

/-- The status of a channel at the boundary (R194): as it was at the pins, but that a splice whose samples lie before the boundary
shows whenever it was entered. -/
def Chan.atPins (now pin : Chan) : Chan := { pin with st := now.st, cause := now.cause }

/-- Group `g` has a channel that shows as SUBSTITUTED at the boundary and was not yet at the pins. -/
def Pins.spliced (chans : Vector Chan 136) (p : Pins) (g : Fin 34) : Bool :=
  (groupChans g).any fun k => chans[k].onSpare && !p.chans[k].onSpare

/-- The image of the boundary, for a folio cut there (R182, R185, R194): nothing that takes effect at the boundary or that came after
its instant is in it, but for the blot bits `raised` by the closing cycle itself (DEDUCED, log 109). -/
def State.boundaryImage (raised : BitVec 128) (s : State) : State :=
  let chans := s.chans.map (Chan.asOf (s.tb.start + s.tb.period))
  let st := (s.fol.pins.map Pins.st).getD s.dev.st
  let base := { ({ s with dev := { s.dev with st := st } }).image with
    chans := chans, lastCyc := s.tb.cycle, tbFreq := word (sysHz * 2 ^ 32 / s.tb.period) }
  let img := match s.fol.pins with
    | none => base
    | some p =>
      let late := (List.finRange 34).any (p.spliced chans)
      { base with
        chans := Vector.ofFn fun k => chans[k].atPins p.chans[k]
        spares := Vector.ofFn fun g => if p.spliced chans g then base.spares[g] else p.spares[g]
        blots := p.blots ||| raised ||| (if late then s.anv.blots &&& blotBit .afeSubst else 0) }
  { s with fol := { s.fol with
      pins := none, ready := some img, readyFlags := 0, spanCycles := s.fol.spanCycles + 1
      degr := s.fol.degr || s.flt.degraded } }

/-- The counters of blocks and of the 10-second interval after a cycle (R141, R143). -/
def Timebase.count (period : Nat) (locked degraded : Bool) (t : Timebase) : Timebase :=
  { t with
    blkCycles := t.blkCycles + 1, blkUnlocked := t.blkUnlocked || !locked, fCycles := t.fCycles + 1
    fTicks := t.fTicks + period, fFlag := t.fFlag || !locked || degraded }

/-- What of a channel belongs to the cycles before is put away at a boundary: runs and changes of state that end before the cycle
just closed began. -/
def Chan.turnCycle (t : Timebase) (c : Chan) : Chan :=
  { c with
    cur := [], moves := c.moves.filter fun x => t.start ≤ x.1
    gaps := c.gaps.filter fun g => (match g.stop with | some x => decide (t.prevStart ≤ x) | none => true) }

/-- The timebase at the boundary, the history of cycles and the captures that take the closed cycle, and the comparisons of the
dwells (R39, R63 to R73, R157). -/
def State.turnCycle (s : State) : State :=
  let locked := match s.tb.mode with | .locked => true | _ => false
  let s1 := s.closeTimebase
  let h := Vector.ofFn s.pastCycle
  { s1 with
    tb := s1.tb.count s.tb.period locked s.flt.degraded
    pq := { s1.pq with history := (h :: s1.pq.history).take 6, caps := s1.pq.caps.map (Capture.feed h), ended := s.eff }
    cld := { s1.cld with moves := s1.cld.moves.filter fun m => s1.tb.prevStart < m.at_ }
    spares := s1.spares.map fun (p : Spare) => { p with dwell := p.dwell.boundary }
    chans := s1.chans.map (Chan.turnCycle s1.tb) }

/-! ### Settings at the boundary (R402) -/

/-- The word of an address that the boundary brings into force: PROF_EN waits for the profile close (R116). -/
def State.boundaryWord (s : State) (a : Nat) : Word :=
  match regOf a with
  | .pt _ .recd => (s.cfg.at a &&& 0xFFFFFFFE) ||| (s.eff.at a &&& 1)
  | _ => s.cfg.at a

/-- Addresses whose accepted word waits for the boundary. -/
def State.settingsDue (s : State) : List Nat :=
  ((s.cfg ++ s.eff).map Prod.fst).eraseDups.filter fun a => (regOf a).atBoundary && s.boundaryWord a ≠ s.eff.at a

/-- A waiting word comes into force. -/
def State.enforce (a : Nat) (s : State) : State := { s with eff := s.eff.put a (s.boundaryWord a) }

/-- A setting takes effect by a word (R185): NOMF alone does so at a block boundary (R75). -/
def State.takesEffect (s : State) (a : Nat) : Bool :=
  match regOf a with
  | .tbCfg => (s.cfg.at a ^^^ s.eff.at a) ≠ 1
  | _ => true

/-- A change of ON takes effect (R100, R101, R114). -/
def Point.turn (x : Point) : Point :=
  { x with
    phases := Vector.replicate 3 .reset, q := .zero, prevQ := Option.none, metered := false, turned := true, settle := false }

/-- The running cycle of a point is one of SETTLING (R101): ON, nothing metered yet, and a channel of it suppressed. -/
def State.settles (s : State) (p : Fin 128) : Bool :=
  pointOn s.live p && !s.pts[p].metered && (pointChans s.live p).any fun k => chanOn s.live k && s.chans[k].suppressed

/-- The demand word of a point changes (R113): both sides are PARTIAL, and a sliding window starts empty. With EN = 0 no
demand was running that could close. -/
def State.changeDemand (p : Fin 128) (s : State) : State :=
  let part := fun (x : Point) => { x with dem := { x.dem with run := { x.dem.run with marks := { x.dem.run.marks with part := true } } } }
  let s1 := if bit (s.live (.pt p .demand)) 0 then (s.onPt p part).demandClose p else s
  let first : DemSub := { DemSub.empty with marks := { Marks.none with part := true } }
  s1.onPt p fun x => { x with dem := { x.dem with run := first, subs := [], oldSubs := some x.dem.subs, sched := s.opening } }

/-- Intervals that a changed word closes, with the old words still in force (R113, R116, R121). -/
def State.closeChanged (due : List Nat) (s : State) : State :=
  let one := fun (a : Nat) (s : State) => match regOf a with
    | .pt p .demand => s.changeDemand p
    | .bus b .balcfg =>
      if bit (s.live (.bus b .balcfg)) 15 then
        (s.onBus b fun x => { x with bal := { x.bal with part := true } }).balanceClose b true
      else
        let open_ := fun (x : Balance) =>
          { x with run := .zero, opened := s.tb.boundary, part := true, stepped := false, sched := s.opening }
        s.onBus b fun x => { x with bal := open_ x.bal }
    | .profCfg => ({ s with prof := { s.prof with part := true } }).profileClose true
    | _ => s
  chain due one s

/-- What follows words that have come into force (R116, R139, R178). -/
def State.afterSettings (old : Reg → Word) (due : List Nat) (rebases : List (Fin 8)) (s : State) : State :=
  let one := fun (a : Nat) (s : State) => match regOf a with
    | .bus b .udin => s.onBus b fun x => { x with udinDue := true }
    | .profCfg => s.openProfile true
    | .pt p .mode => if pointOn old p ≠ pointOn s.live p then s.onPt p Point.turn else s
    | _ => s
  chain rebases State.rebase (chain due one s)

/-- Every accepted word of the boundary blocks comes into force (R233, R402). -/
def State.applySettings (s : State) : State :=
  let due := s.settingsDue
  let old := s.live
  let rebases := allPulses.filter s.pulseChanges
  let s1 := s.closeChanged due
  let s2 := chain due State.enforce (chain allChans State.channelBoundary s1)
  let s3 := s2.afterSettings old due rebases
  if due.any s.takesEffect then s3.settingTook else s3

/-- The trims that wait for a cycle boundary (R136, R137). -/
def State.trimsBoundary (s : State) : State :=
  let s1 := chain allChans State.trimBoundary s
  match s1.trim.vrefDue with
  | some w => (s1.setVref w).settingTook
  | none => s1

/-! ### Commands that wait for the boundary -/

/-- The words of the configuration image in force (R323). -/
def State.imageWords (s : State) : Regs := s.eff.filter fun e => (regOf e.1).inImage

/-- The CRC-32C of a configuration image, over the whole copy (R323): the layout of a copy is not stated. -/
def imageCrc (number cycle : Nat) (words : Regs) (tables : List (Nat × Nat × List Byte)) : Word := Config.imageCrc number cycle words tables

/-- A CFG_SAVE takes its snapshot at the boundary (R239, R323). -/
def State.saveBoundary (s : State) : State :=
  match s.anv.saveDue with
  | none => s
  | some r =>
    let n := (s.anv.images.map CfgImage.number).foldl max 0 + 1
    let words := s.imageWords
    let img : CfgImage := ⟨n, s.tb.cycle, words, s.pnl.tables, imageCrc n s.tb.cycle words s.pnl.tables, true⟩
    let s1 := { s with anv := { s.anv with saveDue := none, images := (img :: s.anv.images).take 2 } }
    let s2 := s1.raise .cfgSaved .device (le 4 n ++ le 4 img.crc.toNat)
    s2.okTo 0x0507 r (le 6 s.tb.cycle ++ zeros 2 ++ le 4 img.crc.toNat)

/-- Banked is entered at the boundary (R19, R297): source 65 becomes pending, which returns the device at once where it is watched
(R284, R292). -/
def State.bankBoundary (s : State) : State :=
  if s.dev.bankAt && s.dev.st = .run then
    let dev := { s.dev with st := .banked, bankAt := false, bankedFrom := s.tb.cycle, coresAsleep := true }
    (({ s with dev := dev }).wbDiscard true).pendInt 65
  else { s with dev := { s.dev with bankAt := false } }

/-- What takes effect at a boundary (R127, R132, R402): settings and trims, then one commit, resolves, demand resets, a snapshot and
Banked. A power-fail warning holds the commands that are not complete; what a complete one has named its boundary for takes effect
there (R229; log 61). -/
def State.boundaryEffects (s : State) : State :=
  let s1 := s.applySettings.trimsBoundary.reloadCal
  if s.pwr.pfail then s1.bankBoundary
  else
    let commits := !s1.mcal.waiting.isEmpty
    let s2 := s1.commitBoundary.resolveBoundary.resetBoundary.saveBoundary.bankBoundary
    { s2 with fol := { s2.fol with readyFlags := s2.fol.readyFlags ||| flag 1 commits } }

/-! ### Calendar steps (R83) -/

/-- A forward step has passed a multiple of some seconds (R83). -/
def CalMove.passed (seconds : Nat) (m : CalMove) : Bool :=
  m.before.any fun b => b < m.after && b / (seconds * 32768) ≠ m.after / (seconds * 32768)

/-- Schedules whose nominal instants a forward step in the closed cycle has passed close once (R83), where they have not closed at
this boundary. -/
def State.closeSteps (moves : List CalMove) (s : State) : State :=
  let due := fun (s : State) (seconds : Nat) (x : Sched) => x.since ≠ s.tb.cycle && moves.any (CalMove.passed seconds)
  let pts := allPts.filter fun p =>
    let w := s.live (.pt p .demand)
    bit w 0 && due s (subSeconds w) s.pts[p].dem.sched
  let s1 := chain pts State.demandClose s
  let s2 := if due s1 (60 * intervalMinutes (fld (s1.live .profCfg) 3 0)) s1.prof.sched then s1.profileClose false else s1
  let buses := (List.finRange 2).filter fun b =>
    let w := s.live (.bus b .balcfg)
    bit w 15 && due s (60 * intervalMinutes (fld w 3 0)) s.buses[b].bal.sched
  let s3 := chain buses (fun b s => s.balanceClose b false) s2
  let s4 := if due s3 10 s3.tb.tenSec then s3.frequencyClose else s3
  if due s4 600 s4.tb.tenMin then s4.tenMinuteTick else s4

/-! ### The closure (R84) -/

/-- The automatic freeze of a bus has one boundary less to go (R55). -/
def Bus.freezeStep (x : Bus) : Bus := { x with freezeLeft := x.freezeLeft.map (· - 1) }

/-- A demanded cut is made at its boundary (R182). -/
def State.cutAsked (s : State) : State :=
  let s1 := s.cut 2 false
  if s.fol.asked then { s1 with fol := { s1.fol with asked := false } } else s

/-- The first closure after an unmetered interval journals it (R282); others write an extra checkpoint where one is due (R305). -/
def State.closureRecord (s : State) : State :=
  if s.dev.startup.unmeteredDue then (s.phase fun x => { x with unmeteredDue := false }).checkpoint else s.extraCheckpoint

/-- What the boundary leaves for the cycle that opens: where each point settles, what is left of each freeze, and, in a power-fail
sequence, the tail owed (R55, R101, R302). -/
def State.openNext (s : State) : State :=
  { s with
    pts := Vector.ofFn fun p => { s.pts[p] with settle := s.settles p }
    buses := s.buses.map Bus.freezeStep
    pwr := if s.pwr.pfail then { s.pwr with tailDue := s.pwr.tailDue + 1 } else s.pwr }

/-- CYCLE_CLOSE (R84): the cycle's quantities and energy, the timebase, and what takes effect at the boundary. A closure during
a power-fail sequence owes its tail (R302). -/
def State.cycleClose (errs : List AccErr) (s : State) : State :=
  let s0 := ((s.noteCommit.dropOldWindows).markSteps).closeQuantities errs
  let s1 := s0.boundaryImage (s0.anv.blots &&& ~~~s.anv.blots)
  let s2 := s1.turnCycle
  let s3 := if s2.blockDue then s2 else s2.flushDue
  let s4 := (chain (List.finRange 34) State.spareBoundary s3.boundaryEffects).openNext
  ((s4.cutAsked.closeSteps (s.cld.moves.filter s.tb.covers)).refill).closureRecord

/-- The row's meaning. -/
def execCycleClose (errs : List AccErr) (s : State) : Host.Outcome State Fault Refusal :=
  .next (if s.powered && s.metering then s.cycleClose errs else s)

end Sys2Proof.Machine
end

