-- ==== Sys2Proof/Machine/Mgmt.lean ====
section
/-!
DEFINITION. Device management: BLOT_CLEAR, Banked, SOFT_RESET, CFG_SAVE and the Inkwell lock (R19, R239 to R241, R320, R321).
-/
namespace Sys2Proof.Machine

/-! ### Blot bits (R320, R321) -/

/-- The condition of a blot bit marked C holds (R321). -/
def State.blotHolds (s : State) (n : Nat) : Bool :=
  match n with
  | 5 => s.flt.onBackup
  | 6 => s.flt.combFenced.isSome
  | 7 => s.flt.metFenced.isSome
  | 8 => s.flt.accPrimOut || s.flt.accMirrOut
  | 14 => s.pts.toList.any fun p => p.unrec.any
  | 20 => s.buses.toList.any fun x => x.seq.active
  | 21 => s.buses.toList.any fun x => x.neutral.active
  | 22 => s.pts.toList.any fun p => p.bypass.active
  | 23 => s.chans.toList.any fun c => c.dcDet.active
  | 24 => s.pq.magnet.active
  | 26 => !s.cld.valid
  | 28 => s.flt.guardStop
  | 32 => s.anv.refActive
  | 33 => s.anv.tempActive
  | 34 => s.anv.slot = 3
  | _ => false

/-- The role may clear a blot bit (R321). -/
def blotRole (role : Role) (n : Nat) : Bool :=
  match role with
  | .legal => true
  | .operator => [3, 4, 19, 20, 21, 22, 23, 25, 26, 27, 29].contains n
  | .service => [0, 1, 2, 6, 7, 8, 10, 11, 16, 30, 31, 32, 33, 34, 35].contains n
  | .reader => false

/-- Blot bits of a mask, the reserved ones left out (R239). -/
def blotsOf (mask : BitVec 128) : List Nat := (List.range 36).filter fun n => mask.getLsbD n

/-- Bits as a blot mask. -/
def blotMask (l : List Nat) : BitVec 128 := l.foldl (fun m n => m ||| BitVec.ofNat 128 (2 ^ n)) 0

/-- BLOT_CLEAR (R239, R321): a bit stays set while its condition holds. -/
def execBlotClear (r : Req) (mask : BitVec 128) (s : State) : Host.Outcome State Fault Refusal :=
  .next (s.command 0x0502 r fun s =>
    let named := blotsOf mask
    if !named.all (blotRole r.role) then s.fail 0x0502 r .denied
    else
      let gone := blotMask (named.filter fun n => !s.blotHolds n) &&& s.anv.blots
      let blots := s.anv.blots &&& ~~~gone
      let s1 := ({ s with anv := { s.anv with blots := blots } }).raise .blotCleared .device (le 16 gone.toNat)
      s1.ok 0x0502 r (le 16 (blots &&& blotMask named).toNat))

/-! ### Banked (R19, R20, R239, R297) -/

/-- A calibration or configuration commit is in hand (R20). -/
def State.commitRuns (s : State) : Bool := !s.mcal.waiting.isEmpty || s.anv.saveDue.isSome

/-- BANK_ENTER: at the next cycle boundary; in Banked it is answered with the boundary of the present stay. While a commit is in
hand it is held (R20; log 6). In START there is no way to Banked (R19); that it is answered with STATE_ERROR there is the model's
(DESIGN CHOICE, log 95). -/
def execBankEnter (r : Req) (s : State) : Host.Outcome State Fault Refusal :=
  .next (s.command 0x0503 r fun s =>
    match s.dev.st with
    | .banked => s.ok 0x0503 r (numberBytes s.dev.bankedFrom)
    | .run =>
      if s.commitRuns then s
      else ({ s with dev := { s.dev with bankAt := true } }).ok 0x0503 r (numberBytes s.nextBoundary)
    | .off | .start | .cell => s.fail 0x0503 r .stateError)

/-- BANK_EXIT: the command itself has ended the stay (R19). -/
def execBankExit (r : Req) (s : State) : Host.Outcome State Fault Refusal :=
  .next (s.command 0x0504 r fun s => ({ s with dev := { s.dev with bankAt := false } }).ok 0x0504 r [])

/-- SOFT_RESET: acts when its completion has been delivered or dropped (R241). -/
def execSoftReset (r : Req) (scope : Nat) (s : State) : Host.Outcome State Fault Refusal :=
  .next (s.command 0x0505 r fun s =>
    if 2 < scope then s.fail 0x0505 r .badValue
    else
      (({ s with dev := { s.dev with softReset := s.dev.softReset ++ [(scope, r.tag, r.session)] } }).ok 0x0505 r []).settle)

/-! ### The Inkwell lock and CFG_SAVE (R239, R240) -/

/-- CFG_SAVE: waits for its snapshot boundary (R239). -/
def execCfgSave (r : Req) (s : State) : Host.Outcome State Fault Refusal :=
  .next (s.command 0x0507 r fun s =>
    if s.anv.saveDue = some (some r) then s
    else if !s.holdsLock r.session then s.fail 0x0507 r .locked
    else if s.anv.saveDue.isSome then s
    else { s with anv := { s.anv with saveDue := some (some r) } })

/-- INK_LOCK (R240). -/
def execInkLock (r : Req) (duration : Nat) (s : State) : Host.Outcome State Fault Refusal :=
  .next (s.command 0x0508 r fun s =>
    if duration = 0 || 60 < duration then s.fail 0x0508 r .badValue
    else if s.scr.inkLock.isSome && !s.holdsLock r.session then s.fail 0x0508 r .locked
    else
      ({ s with scr := { s.scr with inkLock := some (r.session, duration, s.now) } }).ok 0x0508 r (le 2 duration ++ zeros 2))

/-- The Inkwell lock ends (R240); an activation that runs goes on (R331). -/
def State.endLock (s : State) : State :=
  let s1 := match s.scr.inkLock with
    | some (id, _) => s.keepActivations id
    | none => s
  { s1 with scr := { s1.scr with inkLock := none } }

/-- INK_UNLOCK (R240): from a session that does not hold the lock it changes nothing. -/
def execInkUnlock (r : Req) (s : State) : Host.Outcome State Fault Refusal :=
  .next (s.command 0x0509 r fun s =>
    (if s.holdsLock r.session then s.endLock else s).ok 0x0509 r [])

/-- INK_LOCK_EXPIRY (R240): the lock's duration has passed. -/
def execInkLockExpiry (s : State) : Host.Outcome State Fault Refusal := .next s.endLock

end Sys2Proof.Machine
end

