-- ==== Sys2Proof/Machine/Records.lean ====
section
/-!
DEFINITION. Commands on records: events, profile, wideband sets, captures and the log, and the writing of the log (R118, R158,
R170, R235 to R237, R325, R326).
-/
namespace Sys2Proof.Machine

/-! ### Events (R235, R236) -/

/-- Byte 27 of an event (R235). -/
def Event.marks (e : Event) : Nat := flag 0 e.raised + flag 1 e.ended + flag 2 e.unsealed

/-- The entries of an event: the first, then its detail in portions of 24 bytes (R235, R324). -/
def Event.bytes (e : Event) : List Byte :=
  let n := entriesOf e.detail.length
  le 6 e.number ++ le 2 e.code ++ e.stamp.bytes ++ le 2 e.subject ++ le 1 n ++ le 1 e.marks ++ le 4 e.fpid.toNat
    ++ (List.range (n - 1)).flatMap fun i => le 6 e.number ++ le 2 e.code ++ fit 24 ((e.detail.drop (24 * i)).take 24)

/-- Whole items from the front of a list while they fit. -/
def takeWhole {α : Type} (size : α → Nat) : Nat → List α → List α
  | _, [] => []
  | room, x :: rest => if room < size x then [] else x :: takeWhole size (room - size x) rest

/-- EVENT_READ (R236): a reply that would cover an uncorrectable word is an error (R257). -/
def State.eventRead (r : Req) (number : Nat) (s : State) : State :=
  let oldest := (s.ev.ring.head?.map Event.number).getD s.ev.next
  let out := takeWhole (fun e => e.bytes.length) 4088 (s.ev.ring.filter fun e => number ≤ e.number)
  if s.ev.next ≤ number then s.notReady 0x0301 r 0
  else if number < oldest then s.fail 0x0301 r .recordGone
  else if out.any fun e => s.ev.bad.contains e.number then s.fail 0x0301 r .eccError
  else
    s.ok 0x0301 r (le 6 s.ev.newest ++ le 2 (ringUsed out) ++ out.flatMap Event.bytes)

/-- The row's meaning. -/
def execEventRead (r : Req) (number : Nat) (s : State) : Host.Outcome State Fault Refusal :=
  .next (s.command 0x0301 r (State.eventRead r number))

/-- The later of an acknowledged number and a new one. -/
def laterAck (old : Option Nat) (n : Nat) : Nat := max (old.getD 0) n

/-- EVENT_ACK (R236, R266): one below the current number changes nothing. -/
def execEventAck (r : Req) (number : Nat) (s : State) : Host.Outcome State Fault Refusal :=
  .next (s.command 0x0302 r fun s =>
    if s.ev.next ≤ number then s.fail 0x0302 r .badValue
    else
      let ack := laterAck s.ev.ack number
      let lower := (s.ev.ack.map fun a => decide (number < a)).getD false
      ({ s with ev := { s.ev with ack := some ack, lossNoted := s.ev.lossNoted && lower } }).ok 0x0302 r (numberBytes ack))

/-! ### The profile (R118, R119) -/

/-- Records of consecutive numbers from the front of a list. -/
def consecutive : Nat → List ProfRec → List ProfRec
  | _, [] => []
  | n, x :: rest => if x.number = n then x :: consecutive (n + 1) rest else []

/-- PROFILE_READ (R119, R237): a reply that would cover an uncorrectable word is an error (R257). -/
def State.profileRead (r : Req) (number count : Nat) (s : State) : State :=
  let l := (consecutive number (s.prof.ring.filter fun x => number ≤ x.number)).take count
  let out := takeWhole (fun x => x.bytes.length) 4088 l
  if count = 0 || 3 < count then s.fail 0x0303 r .badValue
  else if s.prof.next ≤ number then s.notReady 0x0303 r 0
  else if l.isEmpty then s.fail 0x0303 r .recordGone
  else if out.any ProfRec.bad then s.fail 0x0303 r .eccError
  else s.ok 0x0303 r (le 1 out.length ++ zeros 7 ++ out.flatMap ProfRec.bytes)

/-- The row's meaning. -/
def execProfileRead (r : Req) (number count : Nat) (s : State) : Host.Outcome State Fault Refusal :=
  .next (s.command 0x0303 r (State.profileRead r number count))

/-- PROFILE_ACK (R118): never lower, never beyond the newest record. -/
def execProfileAck (r : Req) (number : Nat) (s : State) : Host.Outcome State Fault Refusal :=
  .next (s.command 0x0304 r fun s =>
    if s.prof.newest = noNumber || s.prof.newest < number then s.fail 0x0304 r .badValue
    else
      let ack := laterAck (if s.prof.ack = noNumber then none else some s.prof.ack) number
      let lower : Bool := s.prof.ack ≠ noNumber && number < s.prof.ack
      ({ s with prof :=
        { s.prof with ack := ack, lossNoted := s.prof.lossNoted && lower, runs := ackRuns ack s.prof.runs } }).ok 0x0304 r
          (numberBytes ack))

/-! ### Wideband sets and captures (R158, R170) -/

/-- WB_READ (R170, R237). -/
def execWbRead (r : Req) (number offset length : Nat) (s : State) : Host.Outcome State Fault Refusal :=
  .next (s.command 0x0305 r fun s =>
    if length = 0 || !rangeFits offset length 4088 11200 then s.fail 0x0305 r .badValue
    else if s.wb.next ≤ number then s.notReady 0x0305 r 0
    else match s.wb.ring.find? fun x => x.number = number with
      | none => s.fail 0x0305 r .recordGone
      | some x =>
        if badIn x.bad offset length then s.fail 0x0305 r .eccError
        else s.ok 0x0305 r (numberBytes number ++ (x.bytes.drop offset).take length))

/-- The buffer that holds a capture number. -/
def Pq.holds (q : Pq) (number : Nat) : Option (Fin 2) :=
  (List.finRange 2).find? fun i => q.caps[i].st ≠ .free && q.caps[i].number = number

/-- CAP_READ (R158, R237). -/
def execCapRead (r : Req) (number offset length : Nat) (s : State) : Host.Outcome State Fault Refusal :=
  .next (s.command 0x0306 r fun s =>
    if !rangeFits offset length 4088 524288 then s.fail 0x0306 r .badValue
    else if s.pq.next ≤ number then s.notReady 0x0306 r 0
    else match s.pq.holds number with
      | none => s.fail 0x0306 r .recordGone
      | some i =>
        let c := s.pq.caps[i]
        if c.st = .filling then s.notReady 0x0306 r 0
        else if badIn c.bad offset length then s.fail 0x0306 r .eccError
        else s.ok 0x0306 r (numberBytes number ++ (c.bytes.drop offset).take length))

/-- The kind code of a trigger by command (R157, R158): the capture command (R185). -/
def commandTrigger : Nat := 10

/-- CAP_TRIGGER (R157, R158, R237): the capture that runs or starts is named. -/
def execCapTrigger (r : Req) (s : State) : Host.Outcome State Fault Refusal :=
  .next (s.command 0x0307 r fun s =>
    let t := s.stampNow
    let s1 := s.trigger t commandTrigger
    match s1.pq.runningAt t with
    | some i => s1.ok 0x0307 r (numberBytes s1.pq.caps[i].number)
    | none => s1.fail 0x0307 r .busy)

/-- CAP_RELEASE (R158, R237). -/
def execCapRelease (r : Req) (number : Nat) (s : State) : Host.Outcome State Fault Refusal :=
  .next (s.command 0x0308 r fun s =>
    match s.pq.holds number with
    | none => s.fail 0x0308 r .recordGone
    | some i =>
      if s.pq.caps[i].st = .filling then s.fail 0x0308 r .busy
      else ({ s with pq := { s.pq with caps := upd s.pq.caps i fun _ => .free } }).ok 0x0308 r [])

/-! ### The event log (R325, R326) -/

/-- LOG_READ (R237, R259, R325). -/
def State.logRead (r : Req) (number count : Nat) (s : State) : State :=
  if count = 0 || 127 < count then s.fail 0x0309 r .badValue
  else if s.anv.logNext ≤ number then s.notReady 0x0309 r 0
  else
    let out := (s.anv.log.dropWhile fun x => x.number ≠ number).take count
    if out.isEmpty then s.fail 0x0309 r .recordGone
    else if out.any LogRec.bad then s.fail 0x0309 r .eccError
    else s.ok 0x0309 r (le 6 s.anv.logNewest ++ le 2 out.length ++ out.flatMap LogRec.bytes)

/-- The row's meaning. -/
def execLogRead (r : Req) (number count : Nat) (s : State) : Host.Outcome State Fault Refusal :=
  .next (s.command 0x0309 r (State.logRead r number count))

/-- The records of the log (R322). -/
def logSize : Nat := 32768

/-- The oldest whole group makes room in a full log (R326). -/
def logRoom (l : List LogRec) : List LogRec :=
  if l.length < logSize then l
  else match l with
    | [] => []
    | x :: _ => l.filter fun y => y.number / 8 ≠ x.number / 8

/-- A record of 26 bytes of content takes the next number; the link follows the seventh of its group (R325). -/
def Anvil.logRecord (body : List Byte) (a : Anvil) : Anvil :=
  let add := fun (a : Anvil) (bs : List Byte) =>
    { a with log := logRoom a.log ++ [⟨a.logNext, bs, false⟩], logNext := (a.logNext + 1) % 2 ^ 48 }
  let a1 := add a (le 6 a.logNext ++ fit 26 body)
  if a1.logNext % 8 ≠ 7 then a1
  else
    let link := sha256 (a.logLink ++ (a1.log.filter fun r => a1.logNext / 8 * 8 ≤ r.number).flatMap LogRec.bytes)
    { (add a1 link) with logLink := link }

/-- An event in the layout of log records: its ring entries, each under a log record number (R325). -/
def Anvil.logEvent (e : Event) (a : Anvil) : Anvil :=
  (List.range (entriesOf e.detail.length)).foldl (fun a i => a.logRecord ((e.bytes.drop (32 * i + 6)).take 26)) a

/-- Anvil writes the oldest waiting item to the log; a gap that nothing has followed comes once the queue has drained (R326). With
LOG_GAP its blot bit is set (R321). -/
def State.writeLog (s : State) : State :=
  match s.ev.logQ with
  | item :: rest =>
    let s1 := { s with ev := { s.ev with logQ := rest }, anv := s.anv.logEvent item.ev }
    if item.ev.code = Ev.code .logGap then s1.blot .logGap else s1
  | [] => match s.ev.gap with
    | none => s
    | some g => ({ s with ev := { s.ev with gap := none }, anv := s.anv.logEvent (s.gapItem g).ev }).blot .logGap

/-- A group of the log that was partly written is completed with FILL records (R326): at most seven are missing. -/
def State.fillLog : Nat → State → State
  | 0, s => s
  | n + 1, s =>
    if s.anv.logNext % 8 = 0 then s
    else
      let e : Event := ⟨0, Ev.code .fill, s.stampNow, Subject.code .device, true, true, s.grd.quenched, 0, []⟩
      State.fillLog n { s with anv := s.anv.logEvent e }

/-- An uncorrectable codeword of the log (R259). -/
def State.logEcc (number : Nat) (s : State) : State :=
  let mark := fun (r : LogRec) => if r.number = number then { r with bad := true } else r
  ({ s with anv := { s.anv with log := s.anv.log.map mark } }).note .inkUncorr .inkUncorr .device
    (le 1 3 ++ zeros 3 ++ le 4 (0x280000 + number % logSize * 32))

/-- EVENT_LOG_WRITE (R259, R326): the cores write one waiting item; `ecc` names a log record found uncorrectable. -/
def execEventLogWrite (ecc : Option Nat) (s : State) : Host.Outcome State Fault Refusal :=
  .next (if !s.coresServe then s
    else match ecc with
      | some n => s.writeLog.logEcc n
      | none => s.writeLog)

end Sys2Proof.Machine
end

