-- ==== Sys2Proof/Machine/Firmware.lean ====
section
/-!
DEFINITION. Firmware update: the slots, verification, activation, trial and revert (R242, R327 to R332).
-/
namespace Sys2Proof.Machine

/-- The slot in use: the one the cores run from (R259), or the active one while the recovery image runs. -/
def Anvil.running (a : Anvil) : Nat := if a.slot = 3 then a.active else a.slot

/-- The inactive slot (R328). -/
def Anvil.spareSlot (a : Anvil) : Fin 2 := if a.running = 0 then 1 else 0

/-- A firmware slot by number. -/
def slotIdx (n : Nat) : Fin 2 := if n = 0 then 0 else 1

/-- One firmware slot changed. -/
def State.onSlot (i : Fin 2) (f : FwSlot → FwSlot) (s : State) : State :=
  { s with anv := { s.anv with slots := upd s.anv.slots i f } }

/-- An erased byte of Inkwell (log 25). -/
def erasedByte : Byte := 0xFF

/-- The bytes of the image in a slot: those not written since the erase read as erased. -/
def FwSlot.bytes (x : FwSlot) : List Byte := x.image.take x.length ++ List.replicate (x.length - x.image.length) erasedByte

/-- The version of an image (R327). -/
def FwSlot.version (x : FwSlot) : Word := wordAt x.bytes 4

/-- The epoch of an image (R327). -/
def FwSlot.epoch (x : FwSlot) : Nat := field x.bytes 8 1

/-- The signature at an offset over the bytes before it verifies under a P-384 key (R327). -/
def FwSlot.signed (x : FwSlot) (key : Nat × Nat) (off : Nat) : Bool :=
  let bs := x.bytes
  let big := fun (o : Nat) => beNat ((bs.drop o).take 48)
  p384.verify 384 key.1 key.2 (beNat (sha384 (bs.take off))) (big off) (big (off + 48))

/-- The utility's co-signature is present and valid (R242, R327). -/
def State.cosigned (s : State) (x : FwSlot) : Bool :=
  let tail := x.bytes.drop (x.length - 96)
  bit (s.live .cokeyCtl) 31 && tail.any (· ≠ 0) && x.signed s.coKey (x.length - 96)

/-- The image passes FW_VERIFY (R328). -/
def State.imagePasses (s : State) (x : FwSlot) : Bool :=
  256 ≤ x.length && x.signed Config.criviaKey (x.length - 192) && s.anv.epoch ≤ x.epoch
    && (!bit (s.live .fwcfg) 0 || s.cosigned x)

/-- A firmware command of a session that holds the Inkwell lock (R240). -/
def State.fwCommand (op : Nat) (r : Req) (s : State) (body : State → State) : State :=
  s.command op r fun s => if s.holdsLock r.session then body s else s.fail op r .locked

/-- The firmware state. -/
def State.fwState (x : FwState) (s : State) : State := { s with anv := { s.anv with fw := x } }

/-- FW_BEGIN (R242, R328): the inactive slot is erased. -/
def execFwBegin (r : Req) (length : Nat) (s : State) : Host.Outcome State Fault Refusal :=
  .next (s.fwCommand 0x0601 r fun s =>
    if s.anv.fw = .trial then s.fail 0x0601 r .stateError
    else if length = 0 || 1048576 < length then s.fail 0x0601 r .badValue
    else ((s.onSlot s.anv.spareSlot fun _ => ⟨[], length, false, []⟩).fwState .loading).ok 0x0601 r [])

/-- FW_WRITE (R242). -/
def execFwWrite (r : Req) (offset : Nat) (data : List Byte) (s : State) : Host.Outcome State Fault Refusal :=
  .next (s.fwCommand 0x0602 r fun s =>
    let i := s.anv.spareSlot
    let x := s.anv.slots[i]
    if s.anv.fw ≠ .loading then s.fail 0x0602 r .stateError
    else if offset % 8 ≠ 0 || 4088 < data.length || x.length < offset + data.length then s.fail 0x0602 r .badValue
    else
      let bs := x.bytes
      (s.onSlot i fun x => { x with image := bs.take offset ++ data ++ bs.drop (offset + data.length) }).ok 0x0602 r [])

/-- FW_VERIFY (R242, R328). -/
def execFwVerify (r : Req) (s : State) : Host.Outcome State Fault Refusal :=
  .next (s.fwCommand 0x0603 r fun s =>
    let i := s.anv.spareSlot
    let x := s.anv.slots[i]
    if s.anv.fw ≠ .loading then s.fail 0x0603 r .stateError
    else if !s.imagePasses x then s.fail 0x0603 r .sigFail
    else
      let h := sha384 x.bytes
      let s1 := (s.onSlot i fun x => { x with verified := true, hash := h }).fwState .verified
      s1.ok 0x0603 r (le 4 x.version.toNat ++ le 1 (flag 0 (s.cosigned x)) ++ zeros 3 ++ h))

/-- The cores restart and are up again; their targets are flushed (R291, R312). -/
def State.restartCores (s : State) : State :=
  let s1 := s.coresDown
  ({ s1 with anv := { s1.anv with up := true } }).route

/-- What the cores run: the active slot if it is verified, else the other one if that is, else the recovery image (R311, R332). -/
def Anvil.boot (a : Anvil) : Anvil :=
  let run := fun (n : Nat) => { a with slot := n, version := a.slots[slotIdx n].version }
  if a.slots[slotIdx a.active].verified then run a.active
  else if a.slots[slotIdx (1 - a.active)].verified then run (1 - a.active)
  else { a with slot := 3, version := Config.recoveryVersion }

/-- FW_RECOVERY is set while the recovery image runs (R332). -/
def State.noteRecovery (s : State) : State := if s.anv.slot = 3 then s.blot .fwRecovery else s

/-- The trial image is rejected: the fallback slot is active and runs again, where it is verified (R311, R330, R332). `cause`:
0 watchdog, 1 start self-check, 2 slot unreadable. -/
def State.revert (cause : Nat) (s : State) : State :=
  let bad := s.anv.version
  let s1 := s.onSlot (slotIdx s.anv.active) fun y => { y with verified := false }
  let anv := ({ s1.anv with active := (slotIdx s.anv.fallback).val, fw := .idle }).boot
  (({ s1 with anv := anv }).noteRecovery).note .fwReverted .fwReverted .device
    (le 4 bad.toNat ++ le 4 anv.version.toNat ++ le 1 cause)

/-- The trial ends with a revert: at the withdrawal where a warning suspends what Anvil writes to Inkwell (R300, R330). -/
def State.revertOrHold (cause : Nat) (s : State) : State :=
  if s.pwr.pfail then { s with anv := { s.anv with trialOver := some false } } else s.revert cause

/-- The cores boot (R332). A trial image that cannot be read is rejected (R330). -/
def State.bootSlot (s : State) : State :=
  if s.anv.fw = .trial && !s.anv.slots[slotIdx s.anv.active].verified then s.revert 2
  else ({ s with anv := s.anv.boot }).noteRecovery

/-- A firmware slot with an uncorrectable codeword loses its verified state (R259). -/
def State.spoilSlot (x : Fin 2 × Word) (s : State) : State :=
  (s.onSlot x.1 fun y => { y with verified := false }).note .inkUncorr .inkUncorr .device
    (le 1 x.1.val ++ zeros 3 ++ le 4 x.2.toNat)

/-- The cores load their image from Inkwell (R259, R311, R330): `bad` are slots found unreadable, with the Inkwell offset; `passes`: an
image in trial passes its start self-check. Cores that a warning has halted load when it is withdrawn, and nothing is found
then (DEDUCED, log 110). -/
def State.loadCores (bad : List (Fin 2 × Word)) (passes : Bool) (s : State) : State :=
  if s.pwr.pfail then s
  else
    let s1 := (chain bad State.spoilSlot s).bootSlot
    if s1.anv.fw = .trial && !passes then s1.revert 1 else s1

/-- The cores are restarted and load their image again (R257, R312, R279). -/
def State.restartAnvil (bad : List (Fin 2 × Word)) (s : State) : State :=
  ((s.abandonActivation.coresDown).loadCores bad true).reloadTrims

/-- Whether an image in trial passes its start self-check is free where no row brings it (R330; log 1). -/
def State.selfCheck (s : State) : State :=
  let (n, s1) := s.fresh
  if s1.anv.fw = .trial && n % 2 = 1 then s1.revertOrHold 1 else s1

/-- The switch to the verified slot (R329): the old slot is the fallback, and the trial begins with the start of the new image. -/
def State.switchSlot (i : Fin 2) (s : State) : State :=
  let x := s.anv.slots[i]
  let old := s.anv.version
  let anv := { s.anv with
    slot := i.val, active := i.val, fallback := s.anv.running, version := x.version, fw := .trial, trialLeft := s.now }
  ({ s with anv := anv }).restartCores.raise .fwActivated .device (le 4 old.toNat ++ le 4 x.version.toNat ++ le 1 i.val)

/-- FW_ACTIVATE (R329): the slot is read again; then the switch, and the new image answers, unless it fails its start self-check and the
fallback does (R330). The end of the lock of the session that sent it does not stop it (R331; log 97). -/
def execFwActivate (r : Req) (s : State) : Host.Outcome State Fault Refusal :=
  .next (s.command 0x0604 r fun s =>
    let i := s.anv.spareSlot
    let x := s.anv.slots[i]
    if !s.holdsLock r.session && s.settled 0x0604 r ≠ some (.judged true) then s.fail 0x0604 r .locked
    else if s.anv.fw ≠ .verified then s.fail 0x0604 r .stateError
    else if !x.verified || sha384 x.bytes ≠ x.hash then (s.fwState .loading).fail 0x0604 r .sigFail
    else ((s.switchSlot i).selfCheck).ok 0x0604 r (le 4 x.version.toNat))

/-- The image in trial is committed (R330): the old slot can run again only after a new update. -/
def State.commitTrial (s : State) : State :=
  let x := s.anv.slots[slotIdx s.anv.active]
  let s1 := (s.onSlot (slotIdx s.anv.fallback) fun y => { y with verified := false }).fwState .idle
  ({ s1 with anv := { s1.anv with epoch := x.epoch } }).raise .fwCommitted .device (le 4 x.version.toNat ++ le 1 x.epoch)

/-- FW_TRIAL_END (R330): an undisturbed trial commits the image; what Anvil writes to Inkwell waits for the end of a warning (R300). -/
def execFwTrialEnd (s : State) : Host.Outcome State Fault Refusal :=
  .next (if !s.powered || s.anv.fw ≠ .trial then s
    else if s.pwr.pfail then { s with anv := { s.anv with trialOver := some (s.anv.trialOver.getD true) } }
    else s.commitTrial)

/-- What Anvil has held back while a warning suspended its Inkwell writes (R300, R308, R326, R330). -/
def State.heldWrites (s : State) : State :=
  let s1 := { s with anv := { s.anv with trialOver := none } }
  let s2 := match s.anv.trialOver with
    | some true => s1.commitTrial
    | some false => s1.revert 0
    | none => s1
  if s2.anv.fillDue then ({ s2 with anv := { s2.anv with fillDue := false } }).fillLog 8 else s2

end Sys2Proof.Machine
end

