-- ==== Sys2Proof/Machine/Faults.lean ====
section
/-!
DEFINITION. Memory errors met by the scrub, and the loss and return of the crystal (R257 to R261, R282).
-/
namespace Sys2Proof.Machine

/-! ### Uncorrectable words (R257, R258) -/

/-- An uncorrectable SRAM word that the scrub meets (R250, R257); one of the Anvil SRAM restarts the cores as a watchdog reset does. -/
def State.sramError (x : SramRegion × Word) (s : State) : State :=
  match x.1 with
  | .anvil => (s.restartAnvil []).noteUncorr x
  | _ => s.readError x

/-- SRAM_SCRUB (R257, R258): the uncorrectable words that one pass meets; correctable ones are written back. The scrub is stopped
during a power-fail sequence (R300). -/
def execSramScrub (errs : List (SramRegion × Word)) (s : State) : Host.Outcome State Fault Refusal :=
  .next (if s.powered && !s.pwr.pfail then chain errs State.sramError s else s)

/-! ### The crystal (R260, R261, R282) -/

/-- SYS changes its reference (R260, R261): every comb frame until the PLL has relocked is bridged, 18 at most with the `before` frames
that lie before the change (log 96). -/
def State.changeRef (before : Nat) (s : State) : State :=
  let start := s.clock - before * (frameTicks * tickParts)
  { s with
    flt := { s.flt with relock := (Config.relockFrames s.flt.frames).2 % 16 + 1 }
    chans := s.chans.map fun (c : Chan) => { (c.openGap .clock start none) with line := openFrames before c.line } }

/-- XTAL_FAIL (R260): SYS moves to the backup oscillator. On the backup oscillator already, the crystal has to pass the monitor
anew, and a return that was asked for lapses (R261). -/
def State.xtalFail (s : State) : State :=
  let s1 := { s with flt := { s.flt with xtalOk := false, xtalHeld10 := false, xreturn := false } }
  if s.flt.onBackup then s1
  else
    let s2 := { s1 with
      flt := { s1.flt with onBackup := true, degraded := true } }
    (s2.changeRef ((Config.relockFrames s.flt.frames).1 % 3)).note .timebaseDegraded .xtalFail .device []

/-- The row's meaning. -/
def execXtalFail (s : State) : Host.Outcome State Fault Refusal := .next (if s.powered then s.xtalFail else s)

/-- XTAL_RATE (R261): the error of the backup oscillator, in ppm. -/
def execXtalRate (ppm : Int) (s : State) : Host.Outcome State Fault Refusal :=
  .next (if s.powered && s.flt.degraded then s.raise .xtalRate .device (le 4 (unsigned 32 ppm)) else s)

/-- XTAL_RETURN (R261): the crystal has passed the monitor for 10 s, at a cycle boundary. SYS returns to it where XAUTO is set or
a host has asked for it; otherwise a host may ask from now on. -/
def State.xtalReturn (s : State) : State :=
  if !s.flt.onBackup then s
  else if !bit (s.live .fltCfg) 0 && !s.flt.xreturn then
    { s with flt := { s.flt with xtalOk := true, xtalHeld10 := true } }
  else
    let flt := { s.flt with xtalOk := true, xtalHeld10 := false, onBackup := false, degraded := false, xreturn := false }
    ((({ s with flt := flt }).changeRef 0).raise .xtalReturn .device []).bkupDueNow

/-- The row's meaning: start-up moves to the crystal by a row of its own. -/
def execXtalReturn (s : State) : Host.Outcome State Fault Refusal :=
  .next (if s.powered && s.dev.startup.xtalPassed then s.xtalReturn else s)

/-- CRYSTAL_ACCEPTED (R282): at start-up SYS moves to the crystal. -/
def execCrystalAccepted (s : State) : Host.Outcome State Fault Refusal :=
  .next (if !s.powered || s.dev.startup.xtalPassed then s
    else
      let s1 := { s with flt := { s.flt with xtalOk := true, onBackup := false } }
      (s1.phaseEnds fun x => { x with xtalPassed := true }).bkupDueNow)

/-- XTAL_START_TIMEOUT (R282): start-up goes on with the backup oscillator and TIMEBASE_DEGRADED. -/
def execXtalStartTimeout (s : State) : Host.Outcome State Fault Refusal :=
  .next (if !s.powered || s.dev.startup.xtalPassed then s
    else
      let s1 := { s with flt := { s.flt with degraded := true } }
      (s1.phaseEnds fun x => { x with xtalPassed := true }).blot .timebaseDegraded)

end Sys2Proof.Machine
end

