-- ==== Sys2Proof/Machine/PowerFail.lean ====
section
/-!
DEFINITION. The power-fail sequence: the warning and what it sheds, journal entries and tails, sustained warnings, erasure and
withdrawal (R299 to R309).
-/
namespace Sys2Proof.Machine

/-! ### The warning (R299, R300) -/

/-- The last element that passes a test is changed. -/
def amendLast {α : Type} (test : α → Bool) (f : α → α) (l : List α) : List α :=
  match l.reverse.span fun x => !test x with
  | (after, x :: before) => before.reverse ++ f x :: after.reverse
  | (_, []) => l

/-- Byte 0 of an event's detail takes more bits. -/
def Event.addCause (bits : Nat) (e : Event) : Event :=
  { e with detail := match e.detail with
    | b :: rest => (b ||| BitVec.ofNat 8 bits) :: rest
    | [] => [] }

/-- A later cause joins the record of this warning's POWER_FAIL (R299), wherever it still is: in the ring, among the held events, in the
queue to the log. -/
def State.addCause (bits : Nat) (s : State) : State :=
  let is := fun (e : Event) => e.code = Ev.code .powerFail && (s.pwr.warnNo.map fun n => decide (e.number = n)).getD true
  { s with ev := { s.ev with
      ring := amendLast is (Event.addCause bits) s.ev.ring, held := amendLast is (Event.addCause bits) s.ev.held
      logQ := amendLast (fun x => is x.ev) (fun x => { x with ev := x.ev.addCause bits }) s.ev.logQ } }

/-- A filling capture ends incomplete (R300). -/
def Capture.stop (c : Capture) : Capture := if c.st = .filling then { c with st := .kept, left := 0, whole := false } else c

/-- The load is shed (R300): the running wideband set, a filling capture, running events of power quality, an arming that is not
written yet, and the glitch detectors (R347, R360); the display closeout starts (R306). -/
def State.shed (s : State) : State :=
  let s1 := (s.wbDiscard true).powerFailEvents
  let s2 := { s1 with
    pq := { s1.pq with caps := s1.pq.caps.map Capture.stop }, grd := { s1.grd.abandonArm with glitchOn := false } }
  s2.closeout

/-- The entry that a warning owes: the state of the last cycle closure, with the display regions of the warning; none before a
cycle has closed (R301, R309). -/
def State.entryOwed (s : State) : Option JRec := if s.closedOne then some (s.record s.pwr.ceil) else none

/-- A warning is declared (R299): an activation that has not switched is abandoned (R309). -/
def State.warn (vin pfw : Bool) (s : State) : State :=
  let owed := s.entryOwed
  let s := s.abandonActivation
  let pwr :=
    { s.pwr with
      pfail := true, causeVin := vin, causePfw := pfw, vinLow := s.pwr.vinLow || vin, pfwLow := s.pwr.pfwLow || pfw
      sustained := false, entryDue := owed, entryDone := false, tails := 0, tailDue := 0
      pfCount := sat 0xFF (s.pwr.pfCount + 1), warnNo := if s.dev.startup.restored then some s.ev.next else none }
  (({ s with pwr := pwr }).raise .powerFail .device (le 1 (flag 0 vin + flag 1 pfw))).shed

/-- A second cause while the sequence runs (R299). -/
def State.warnAgain (vin pfw : Bool) (s : State) : State :=
  let pwr :=
    { s.pwr with
      causeVin := s.pwr.causeVin || vin, causePfw := s.pwr.causePfw || pfw
      vinLow := s.pwr.vinLow || vin, pfwLow := s.pwr.pfwLow || pfw }
  ({ s with pwr := pwr }).addCause (flag 0 vin + flag 1 pfw)

/-- POWER_FAIL (R299): VIN below VTH, or PFW_N low while it is enabled, has held for 10 µs. -/
def execPowerFail (vin pfw : Bool) (s : State) : Host.Outcome State Fault Refusal :=
  let p := pfw && bit (s.live .pfcfg) 15
  .next (if !s.powered || (!vin && !p) then s else if s.pwr.pfail then s.warnAgain vin p else s.warn vin p)

/-! ### Entries and tails (R301 to R303, R305) -/

/-- The ceilings that the next entry or tail carries (R305). -/
def State.nextCeilings (s : State) : Ceilings := if s.ceilingNear then s.raisedCeilings else s.pwr.ceil

/-- A sequence is opened in an erased one (R265, R303). -/
def Power.openSequence (p : Power) : Power :=
  { p.takeSequence with
    susCount := p.susCount + if p.sustained then 1 else 0, ckptDue := false, entryDue := none, entryDone := true, tails := 0 }

/-- An entry is written into a fresh sequence. -/
def State.writeEntry (r : JRec) (s : State) : State :=
  ({ s with pwr := s.pwr.openSequence }).writeRecord { r with ceilings := s.nextCeilings }

/-- An entry of the state at the present closure: closures that wait for a tail are in it. -/
def State.presentEntry (s : State) : State :=
  let s1 := s.writeEntry (s.record s.pwr.ceil)
  { s1 with pwr := { s1.pwr with tailDue := 0 } }

/-- An entry is due at a closure: the first one of metering that starts under the warning, or the one after 64 tails (R302). -/
def State.entryAtClosure (s : State) : Bool :=
  s.pwr.tailDue ≠ 0 && s.closedOne && (!s.pwr.entryDone || 64 ≤ s.pwr.tails)

/-- The entry that is due is written where an erased sequence is available, and held otherwise (R301 to R303). -/
def State.journalEntry (s : State) : State :=
  if s.pwr.erased = 0 then s
  else match s.pwr.entryDue with
    | some r => s.writeEntry r
    | none => if s.entryAtClosure then s.presentEntry else s

/-- JOURNAL_ENTRY (R301). -/
def execJournalEntry (s : State) : Host.Outcome State Fault Refusal :=
  .next (if s.powered && s.pwr.pfail then s.journalEntry else s)

/-- Closures that one tail covers (R303): one, or sixteen in a sustained warning beyond the allowance. -/
def Power.tailStride (p : Power) : Nat := if p.sustained && throttleLimit ≤ p.susCount then 16 else 1

/-- What a tail adds to a point: its accumulators and its pending and unreconciled sums (R302). -/
def Point.tail (old new : Point) : Point :=
  { old with acc := new.acc, wrapped := new.wrapped, pending := new.pending, unrec := new.unrec }

/-- A tail: the record before it, with the increments, number and timestamp of the closed cycles, ceilings (R302, R305), and the
regions that have become DIRTY since (R247). -/
def State.tailRecord (s : State) (before : JRec) : JRec :=
  let now := s.record s.nextCeilings
  { before with
    pts := Vector.ofFn fun p => before.pts[p].tail s.pts[p]
    dirty := before.dirty ||| now.dirty, stamp := now.stamp, lineValid := now.lineValid, metered := now.metered, nexts := now.nexts
    ceilings := now.ceilings }

/-- A tail is written (R302). -/
def State.tailUpdate (s : State) : State :=
  match s.pwr.records with
  | [] => s
  | r :: _ =>
    let s1 := s.writeRecord (s.tailRecord r)
    { s1 with pwr := { s1.pwr with tails := s1.pwr.tails + 1, tailDue := 0 } }

/-- TAIL_UPDATE (R302, R303). -/
def execTailUpdate (s : State) : Host.Outcome State Fault Refusal :=
  let p := s.pwr
  .next (if s.powered && p.pfail && p.entryDone && p.tails < 64 && p.tailStride ≤ p.tailDue then s.tailUpdate else s)

/-- The oldest used sequence is erased, with its records: the next place of the rotation behind the erased ones (R322, R390). -/
def Power.erase (p : Power) : Power :=
  { p with erased := p.erased + 1, records := p.records.filter fun r => r.seq + journalPlaces ≠ p.seqNo + p.erased }

/-- JOURNAL_ERASE (R265, R303): a used sequence is erased, or a spare one of the reserve region takes its place where the erasure
fails; four are kept erased. A checkpoint that waits for one is written. -/
def execJournalErase (_ok : Bool) (s : State) : Host.Outcome State Fault Refusal :=
  let s1 := { s with pwr := s.pwr.erase }
  .next (if !s.powered || 4 ≤ s.pwr.erased then s else if s.pwr.ckptDue then s1.checkpoint else s1)

/-- PF_SUSTAINED (R303): the warning has lasted 60 s. -/
def execPfSustained (s : State) : Host.Outcome State Fault Refusal :=
  .next (if s.powered && s.pwr.pfail && !s.pwr.sustained then
      ({ s with pwr := { s.pwr with sustained := true } }).raise .pfSustained .device
        (le 4 60 ++ le 1 (flag 0 (throttleLimit ≤ s.pwr.susCount)))
    else s)

/-! ### Withdrawal (R308) -/

/-- The warning is withdrawn: the cores resume, what Anvil has held back is written (R300), the glitch detectors are armed again (R347),
DIRTY regions are refreshed. -/
def State.pfRecovered (s : State) : State :=
  let pwr :=
    { s.pwr with
      pfail := false, causeVin := false, causePfw := false, sustained := false, entryDue := none, entryDone := false, tails := 0
      tailDue := 0, vinLow := false, pfwLow := s.pwr.pfwLow && !bit (s.live .pfcfg) 15 }
  let s1 := ({ s with pwr := pwr, grd := { s.grd with glitchOn := true } }).raise .pfRecovered .device []
  s1.heldWrites.refreshDirty.startWaiting.extraCheckpoint

/-- PF_RECOVERED (R308): VIN has been at or above VTH + 0.4 V and PFW_N high or disabled for 10 ms; an erased sequence has to be
available. -/
def execPfRecovered (s : State) : Host.Outcome State Fault Refusal :=
  .next (if s.powered && s.pwr.pfail && s.pwr.erased ≠ 0 then s.pfRecovered else s)

end Sys2Proof.Machine
end

