-- ==== Sys2Proof/Machine/Resets.lean ====
section
/-!
DEFINITION. Resets and the supplies: cold, warm and local resets, the changeover of VAON and the loss of both supplies (R206,
R276 to R281, R295, R312, R334, R355).
-/
namespace Sys2Proof.Machine

/-! ### Cold resets (R276, R278, R279) -/

/-- A cause of a reset is recorded (R276). -/
def State.resetCause (bits : BitVec 11) (s : State) : State :=
  { s with pwr := { s.pwr with rstCause := s.pwr.rstCause ||| bits } }

/-- The device part after a cold reset: the cause of the interval that begins is kept until metering resumes (R310), and RESET_N held
low stays so (R278). -/
def State.coldDev (s : State) (why : Nat) : Dev :=
  let startup := { Startup.reset with
    unmeteredWhy := if s.metering then why else s.dev.startup.unmeteredWhy, inReset := s.dev.startup.inReset }
  { Dev.reset with variant := s.dev.variant, startup := startup }

/-- What Inkwell keeps of the journal, and the supply of VAON (R276, R303, R304): a cold reset clears bits 10 to 3 of
PWR.RSTCAUSE and sets its own. -/
def Power.cold (bits : BitVec 11) (p : Power) : Power :=
  { Power.reset with
    erased := p.erased, seqNo := p.seqNo, susCount := p.susCount, records := p.records, ceil := p.ceil, vbatOn := p.vbatOn
    rstCause := (p.rstCause &&& 7) ||| bits }

/-- What Inkwell keeps of Anvil: firmware, configuration images and the log (R322, R330). -/
def Anvil.cold (a : Anvil) : Anvil :=
  { Anvil.reset with
    slot := a.slot, active := a.active, fallback := a.fallback, blots := 0, fw := if a.fw = .trial then .trial else .idle
    epoch := a.epoch, version := a.version, slots := a.slots, trialLeft := a.trialLeft, images := a.images, log := a.log
    logNext := a.logNext, logLink := a.logLink }

/-- What a cold reset leaves (R279): the guard and calendar domains, less what was on its way to the guard (R277), and what Inkwell keeps. -/
def State.coldReset (bits : BitVec 11) (why : Nat) (s : State) : State :=
  { State.reset with
    pending := s.pending
    draws := s.draws
    now := s.now
    dev := s.coldDev why
    mcal := { MeterCal.reset with jdigestNow := s.mcal.jdigestNow, jcommit := s.mcal.jcommit, everSet := s.mcal.everSet }
    scr := { Scribe.reset with legalEver := s.scr.legalEver }
    pwr := s.pwr.cold bits
    flt := { Flt.reset with calStop := s.flt.calStop, guardStop := s.flt.guardStop }
    anv := s.anv.cold
    cld := { s.cld with moves := [] }
    grd := { s.grd.abandonArm with srcs := s.grd.srcs.map GrdSrc.flush } }

/-- The trims are reloaded from the fuses after a cold reset, and each change that is made is raised (R135, R280). -/
def State.coldTrims (old : Trims) (s : State) : State :=
  let s1 := chain (List.finRange 170) (fun n => State.trimNote (Reg.trimMod n).addr old.mod[n] (fusedMod n)) s
  (s1.trimNote Reg.trimVref.addr old.vref fusedVref).trimNote Reg.trimOsc.addr old.osc fusedOsc

/-- SYS has a supply: neither CELL nor OFF. -/
def State.supplied (s : State) : Bool := match s.dev.st with | .off | .cell => false | _ => true

/-- BROWNOUT (R19, R229, R276, R294): a cold reset; the guard and calendar domains go on. The fuses are read at the start-up that
follows (R282). -/
def execBrownout (s : State) : Host.Outcome State Fault Refusal :=
  .next (if !s.supplied then s
    else
      let s1 := s.coldReset 2 (if s.pwr.pfail then 0 else 1)
      { s1 with
        dev := { s1.dev with st := .cell }, grd := { s1.grd with glitchOn := false }
        trim := { s.trim with vrefDue := none, bkupDue := none, panelDue := none } })

/-- Start-up begins: the guard looks for its key (R361), and Anvil boots, with the 600 s of a trial anew (R330, R332). -/
def State.begin_ (bad : List (Fin 2 × Word)) (selfCheck : Bool) (s : State) : State :=
  ({ s with grd := s.grd.startUp, anv := { s.anv with trialLeft := s.now } }).loadCores bad selfCheck

/-- POR (R276, R278, R282): VIN is good. `bad`: firmware slots found unreadable, with the Inkwell offset; `selfCheck`: the image
passes its start self-check. While RESET_N is low, start-up waits for its release. -/
def execPor (bad : List (Fin 2 × Word)) (selfCheck : Bool) (s : State) : Host.Outcome State Fault Refusal :=
  let s1 := (s.coldReset 1 (if s.pwr.pfail then 0 else 1)).coldTrims s.trim
  .next (if s1.dev.startup.inReset then s1 else s1.begin_ bad selfCheck)

/-- The entry that a long RESET_N writes first (R278): as at a warning. The entry of a warning that runs serves (R309). -/
def State.resetEntry (s : State) : State :=
  if s.pwr.pfail then (if s.pwr.entryDue.isSome then s.journalEntry else s)
  else if s.closedOne && s.pwr.erased ≠ 0 then s.writeEntry (s.record s.pwr.ceil)
  else s

/-- RESETN_COLD (R278): RESET_N has been low for 100 ms; without a supply it is only held low. -/
def execResetnCold (s : State) : Host.Outcome State Fault Refusal :=
  .next (if s.dev.startup.inReset then s
    else
      let s1 := if s.supplied then (s.resetEntry.coldReset 4 2).coldTrims s.trim else s
      s1.phase fun x => { x with inReset := true })

/-- RESETN_RELEASE (R278, R281): start-up counts from here, once there is a supply; the operands are those of POR. -/
def execResetnRelease (bad : List (Fin 2 × Word)) (selfCheck : Bool) (s : State) : Host.Outcome State Fault Refusal :=
  .next (if !s.dev.startup.inReset then s
    else
      let s1 := s.phase fun x => { x with inReset := false }
      if s.supplied then s1.begin_ bad selfCheck else s1)

/-! ### Warm and local resets (R276, R279, R281) -/

/-- Scribe after a warm reset: no session, command or reply; port C keeps its rate (R279). -/
def Scribe.warm (x : Scribe) : Scribe :=
  { Scribe.reset with
    ports := x.ports.map fun p => { PortState.reset with baud := p.baud }, admitted := x.admitted, legalEver := x.legalEver }

/-- A target after a warm reset: its stack flushed, the base priority 0 (R279, R286). -/
def Target.warm (t : Target) : Target := { t with stack := [], base := 0 }

/-- Every target's stack is flushed and its sources are pending again (R279). -/
def State.flushAll (s : State) : State :=
  let s1 := chain (List.finRange 6) State.flushTarget s
  { s1 with intc := { s1.intc with targets := s1.intc.targets.map Target.warm } }

/-- Commands that wait for a boundary are in flight, and lost (R279). -/
def State.loseWaiting (s : State) : State :=
  { s with
    mcal := { s.mcal with waiting := [], resolves := [], resets := [] }, anv := { s.anv with saveDue := none }
    dev := { s.dev with softReset := [] } }

/-- A warm reset of Scribe, the ports, the cores and the interrupt controller (R276, R279). -/
def State.warmReset (s : State) : State :=
  let s1 := (s.endSessions 4).loseWaiting
  let s2 := ({ s1 with scr := s1.scr.warm }).flushAll
  ((s2.resetCause 8).coresDown).reloadTrims

/-- Start-up begins again after a short RESET_N (R281): its phases run anew on what a warm reset keeps (log 90). -/
def State.restartStartup (s : State) : State :=
  s.phase fun x => { Startup.reset with unmeteredFrom := x.unmeteredFrom, unmeteredWhy := x.unmeteredWhy, hadJournal := x.hadJournal }

/-- RESETN_WARM (R276): before metering it restarts the start-up (R281); the cores load their image anew, with the operands of POR. -/
def execResetnWarm (bad : List (Fin 2 × Word)) (selfCheck : Bool) (s : State) : Host.Outcome State Fault Refusal :=
  .next (if !s.powered then s
    else if s.metering then s.warmReset.loadCores bad selfCheck
    else s.warmReset.restartStartup.begin_ bad selfCheck)

/-- ANV_WDOG (R312, R330): the core's watchdog has expired; in a trial the image is rejected, and both cores load the active slot again,
`bad` being slots found unreadable (R259). Watchdogs are armed once the configuration is restored, and stopped while the cores sleep
(R314). -/
def State.anvWdog (core : Fin 2) (bad : List (Fin 2 × Word)) (s : State) : State :=
  let trial := s.anv.fw = .trial
  let s1 := s.note .anvWdog .anvWdog .device (le 1 core.val ++ le 1 (flag 0 trial))
  let s2 := if trial then s1.revertOrHold 0 else s1
  (s2.resetCause 16).restartAnvil bad

/-- The row's meaning. -/
def execAnvWdog (core : Fin 2) (bad : List (Fin 2 × Word)) (s : State) : Host.Outcome State Fault Refusal :=
  .next (if s.powered && s.dev.startup.configDone && !s.dev.coresAsleep then s.anvWdog core bad else s)

/-- SPI_PORT_RESET (R221, R276): CS_N low for 10 ms without SCK on port A or B. -/
def execSpiPortReset (port : Port) (s : State) : Host.Outcome State Fault Refusal :=
  .next (match port with
    | .c => s
    | p =>
      if !s.serving then s
      else ((s.onPort p PortState.clear).resetCause (if p = .a then 0x100 else 0x200)).reloadTrims)

/-- BREAK (R206): RX of port C low for at least 1 ms; `long`: for at least 100 ms, which restores code 0. -/
def execBrk (long : Bool) (s : State) : Host.Outcome State Fault Refusal :=
  .next (if !s.serving then s
    else
      let s1 := (((s.onPort .c PortState.clear).start .c).resetCause 0x400).reloadTrims
      if !long then s1
      else
        let s2 := (s1.store .scrCfg (s1.asked .scrCfg &&& 0xFFFFFFF0)).onPort .c fun p => { p with baud := 0 }
        { s2 with scr := { s2.scr with baudDue := [] } })

/-! ### The supplies of the guard and calendar domains (R295, R334, R344, R355, R358) -/

/-- VAON_CHANGEOVER (R295, R358): tick and calendar time are latched; with VSYS3 back, WAKE_N is released (R344). -/
def execVaonChangeover (toVbat : Bool) (s : State) : Host.Outcome State Fault Refusal :=
  let now := (s.grd.tick, s.calNow)
  .next (if s.pwr.vbatOn = toVbat then s
    else
      let s1 := { s with pwr := { s.pwr with vbatOn := toVbat } }
      if toVbat then { s1 with grd := { s1.grd with tOff := now } }
      else { s1 with grd := { s1.grd with tOn := now }, cld := { s1.cld with wake := false } })

/-- A guard source after the loss of both supplies: a blown fuse stays blown (R355, R357). -/
def GrdSrc.lost (g : GrdSrc) (i : Nat) : GrdSrc :=
  if g.fused then (GrdSrc.reset i).disable else GrdSrc.reset i

/-- The guard domain after the loss of both supplies: fuses and the identity record are kept, the key is gone (R355, R361). -/
def Guard.lost (g : Guard) : Guard :=
  { Guard.reset with
    srcs := Vector.ofFn fun i => g.srcs[i].lost i.val, armed := g.armed, transport := g.transport, quenched := g.quenched
    qcause := g.qcause, armStamp := g.armStamp }

/-- SUPPLY_LOSS_BOTH (R19, R334, R355): VIN and VBAT are absent together. -/
def execSupplyLossBoth (s : State) : Host.Outcome State Fault Refusal :=
  .next (if s.supplied then s
    else { s with
      dev := { s.dev with st := .off }, pwr := { s.pwr with vbatOn := false }, flt := { s.flt with calStop := false }
      grd := s.grd.lost, cld := .reset })

end Sys2Proof.Machine
end

