-- ==== Sys2Proof/Machine/Startup.lean ====
section
/-!
DEFINITION. Start-up: the journal and the configuration restored, the start-up test, and the first metered cycle (R44, R109,
R120, R254, R259, R282, R283, R304, R305, R310, R314, R323).
-/
namespace Sys2Proof.Machine

/-- Start-up runs: in START, out of reset, nothing metered yet (R282). -/
def State.starting (s : State) : Bool := s.powered && !s.metering && s.dev.st = .start

/-! ### The journal (R109, R120, R259, R304, R305) -/

/-- A point from its journal record (R109): bit 1 of byte 0xD9 starts at 0. -/
def Point.restore (x : Point) : Point :=
  { Point.reset with
    acc := x.acc, wrapped := x.wrapped, pending := x.pending, unrec := x.unrec, profLost := x.profLost
    dem := { Demand.reset with max := x.dem.max, maxAt := x.dem.maxAt, resets := x.dem.resets } }

/-- Profile records after the acknowledged number, up to the journalled newest (R120): numbers that were skipped are none. -/
def JRec.lostRecords (r : JRec) : Nat := (r.profRuns.map Prod.snd).foldl (· + ·) 0

/-- The points of a record, with the lost profile records of its map counted (R119, R120). -/
def JRec.points (r : JRec) : Vector Point 128 :=
  Vector.ofFn fun p =>
    let x := r.pts[p].restore
    if r.profMap.contains p.val then { x with profLost := sat 0xFFFFFFFF (x.profLost + r.lostRecords) } else x

/-- The first wideband set number after a cold reset (R166). -/
def wbResume (ceiling : Nat) : Nat := (ceiling + 7) / 8 * 8

/-- Display regions that were DIRTY (R301). -/
def JRec.regions (r : JRec) (v : Vector Region 8) : Vector Region 8 :=
  Vector.ofFn fun g => { v[g] with dirty := v[g].dirty || r.dirty.getLsbD g.val }

/-- Every series resumes at the ceiling of the record (R305). -/
def State.resume (c : Ceilings) (s : State) : State :=
  { s with
    tb := { s.tb with cycle := c.cycle }
    fol := { s.fol with next := c.folio }
    ev := { s.ev with next := c.event }
    prof := { s.prof with next := c.profile }
    wb := { s.wb with next := wbResume c.wb }
    pq := { s.pq with next := c.cap }
    pwr := { s.pwr with ceil := c } }

/-- The words of the billing blocks (R109): the configuration image that is applied afterwards replaces them (log 89). -/
def JRec.billingWords (r : JRec) (m : Regs) : Regs :=
  allPts.foldl (fun m p => (m.put (Reg.pt p .scunit).addr r.heads[p].1).put (Reg.pt p .fpid).addr r.heads[p].2) m

/-- The state is restored from a journal record (R109, R120, R128, R301, R304, R305, R320). -/
def State.restoreRecord (r : JRec) (s : State) : State :=
  let s1 := s.resume r.ceilings
  { s1 with
    cfg := r.billingWords s1.cfg
    eff := r.billingWords s1.eff
    pts := r.points
    prof := { s1.prof with newest := r.profNew, hash := r.profHash, ack := r.profAck, map := r.profMap, runs := r.profRuns }
    mcal := { s1.mcal with jdigest := fit 32 r.digest, jdigestNow := fit 32 r.digest, jcommit := r.commit, everSet := r.everSet }
    pnl := { s1.pnl with regions := r.regions s1.pnl.regions }
    anv := { s1.anv with blots := s1.anv.blots ||| r.blots }
    dev := { s1.dev with startup := { s1.dev.startup with
      hadJournal := r.metered, unmeteredFrom := r.stamp, lineAtFailure := r.lineValid } } }

/-- Records that fail their check (R259): the restore falls back to the newest that passes. -/
def State.fallBack (bad : List Word) (s : State) : State :=
  if bad.isEmpty then s
  else
    let one := fun (a : Word) (s : State) => s.raise .inkUncorr .device (le 1 2 ++ zeros 3 ++ le 4 a.toNat)
    ((chain bad one s).blot .journalFallback).phase fun x => { x with unmeteredWhy := 3 }

/-- Events held in start-up are entered with the number of the first metered cycle (R65); a POWER_FAIL of the running warning among them
has its event number with that (R299). -/
def State.enterHeld (s : State) : State :=
  let l := s.ev.held.map fun e => { e with stamp := { e.stamp with cycle := s.tb.cycle } }
  let last := (l.zipIdx.filter fun x => x.1.code = Ev.code .powerFail).getLast?
  let no := if s.pwr.pfail then last.map fun x => (s.ev.next + x.2) % 2 ^ 48 else none
  chain l State.enter { s with ev := { s.ev with held := [] }, pwr := { s.pwr with warnNo := no } }

/-- JOURNAL_RESTORED (R282): `bad` lists the Inkwell offsets of the newest records that fail. Without a record the digest is the
one journalled last (R128). New ceilings are written before numbers are issued (R305). -/
def State.journalRestored (bad : List Word) (s : State) : State :=
  let s1 := s.fallBack bad
  let s2 := match s1.pwr.records.drop bad.length with
    | r :: _ => s1.restoreRecord r
    | [] => { s1 with mcal := { s1.mcal with jdigest := s1.mcal.jdigestNow } }
  let s3 := s2.phaseEnds fun x => { x with restored := true }
  s3.writeCheckpoint.enterHeld

/-- The row's meaning. -/
def execJournalRestored (bad : List Word) (s : State) : Host.Outcome State Fault Refusal :=
  .next (if s.starting && !s.dev.startup.restored then s.journalRestored bad else s)

/-! ### The start-up test (R44, R254) -/

/-- A spare that fails the start-up test (R44): a channel that it carries already is FAILED (R37). -/
def State.testSpare (failed : List Nat) (g : Fin 34) (s : State) : State :=
  if failed.contains (spareSlot g).val then s.spareFault g else s

/-- A working modulator that fails starts on its spare, or FAILED where the spare has failed or serves another channel (R37, R44).
A channel that a detection has brought onto its spare, or to FAILED, stays so. -/
def State.testChan (failed : List Nat) (k : Fin 136) (s : State) : State :=
  if !failed.contains k.val || !s.chans[k].inService || s.chans[k].splicing then s
  else if s.spareFree (groupOf k) then (s.takeSpare k).substituted k 0 0 s.clock
  else s.failChan k 0

/-- A copy of an engine that fails its self-test stays fenced (R254): 0 comb, 1 metrology. -/
def State.testEngines (comb met : Option (Fin 2)) (s : State) : State :=
  let s1 := { s with flt := { s.flt with combFenced := comb, metFenced := met } }
  let s2 := match comb with
    | some c => s1.note .engCombSimplex .engFenced .device (le 1 0 ++ le 1 c.val)
    | none => s1
  match met with
  | some c => s2.note .engMetSimplex .engFenced .device (le 1 1 ++ le 1 c.val)
  | none => s2

/-- START_UP_TEST (R44, R254, R282): the comb slots whose modulators fail, and the engine copies that do. -/
def execStartUpTest (failed : List Nat) (comb met : Option (Fin 2)) (s : State) : Host.Outcome State Fault Refusal :=
  .next (if !s.starting || s.dev.startup.tested then s
    else
      let s1 := chain allChans (State.testChan failed) (chain (List.finRange 34) (State.testSpare failed) s)
      (s1.testEngines comb met).phaseEnds fun x => { x with tested := true })

/-- PORTS_READY (R204, R282). -/
def execPortsReady (s : State) : Host.Outcome State Fault Refusal :=
  .next (if s.starting then s.phaseEnds fun x => { x with portsReady := true } else s)

/-! ### The configuration image (R259, R314, R323) -/

/-- A copy of the image that fails its check is not valid; its codeword is reported (R259, R324). -/
def State.checkImage (i : Nat) (bad : Option Word) (s : State) : State :=
  match bad with
  | none => s
  | some a =>
    let mark := fun (x : Nat × CfgImage) => if x.1 = i then { x.2 with valid := false } else x.2
    let images := ((List.range s.anv.images.length).zip s.anv.images).map mark
    ({ s with anv := { s.anv with images := images } }).raise .inkUncorr .device (le 1 4 ++ zeros 3 ++ le 4 a.toNat)

/-- A point that PARAM_WRITE would refuse to turn ON is held OFF (R13, R31, R32, R323). -/
def holdOff (m : Regs) (p : Fin 128) : Regs :=
  let f := fun (r : Reg) => m.at r.addr
  let bound := !(pointPhases f p).isEmpty && (phaseChans f p).all (chanOn f)
  let r := Reg.pt p .mode
  if pointOn f p && !bound then m.put r.addr (f r &&& 0xFFFFFFFE) else m

/-- A balance whose incomer breaks R121 is not computed (R323). -/
def holdBalance (m : Regs) (b : Fin 2) : Regs :=
  let f := fun (r : Reg) => m.at r.addr
  let r := Reg.bus b .balcfg
  match incomerOf f b with
  | some p => if busOfQuad f (quadOf p) = b then m else m.put r.addr (f r &&& 0xFFFF7FFF)
  | none => m

/-- The words of an image as one consistent set (R323). -/
def consistent (m : Regs) : Regs := (List.finRange 2).foldl holdBalance (allPts.foldl holdOff m)

/-- Words and tables of an image come into force (R323): with them the declared voltages, the nominal frequency, the rate of
port C, the spares of enabled channels, and the seeds of the DC estimates (R53); the stacks of interrupt targets that it disables are
flushed (R291). -/
def State.applyImage (words : Regs) (tables : List (Nat × Nat × List Byte)) (s : State) : State :=
  let m := consistent words
  let s1 := { s with cfg := m, eff := m, pnl := { s.pnl with tables := tables } }
  let sixty := bit (s1.live .tbCfg) 0
  let seeded := fun (k : Fin 136) => (chanOn s1.live k && !chanOn s.live k) || sensorOf s1.live k ≠ sensorOf s.live k
  let s2 := { s1 with
    chans := Vector.ofFn fun k => { s1.chans[k] with dcEst := if seeded k then s1.dcSeed k else s1.chans[k].dcEst }
    buses := Vector.ofFn fun b => { s1.buses[b] with usr := udin s1.live b }
    tb := { s1.tb.hold (nominalPeriod sixty) with nomf60 := sixty } }
  let off := (List.finRange 6).filter fun t => bit (s.live (.tgtCfg t)) 31 && !bit (s1.live (.tgtCfg t)) 31
  let s3 := chain (List.finRange 34) State.spareBoundary (s2.onPort .c fun p => { p with baud := fld (s1.live .scrCfg) 3 0 })
  chain off State.flushTarget s3

/-- The restore has ended: slow-path commands run, the log is completed, once no warning suspends it, and the cell list is entered
(R282, R300, R326, R358). -/
def State.configured (up : Bool) (s : State) : State :=
  let s1 := s.phase fun x => { x with configDone := true }
  let s2 := { s1 with anv := { s1.anv with up := up, fillDue := s1.pwr.pfail } }
  ((if s2.pwr.pfail then s2 else s2.fillLog 8).cellReplay).route

/-- CONFIG_RESTORE (R323): `bad0` and `bad1` are the offsets at which the newer and the older copy fail their check. With no
valid copy among those saved every word keeps its reset value (R259). -/
def State.configRestore (bad0 bad1 : Option Word) (s : State) : State :=
  let s1 := (s.checkImage 0 bad0).checkImage 1 bad1
  let s2 := match s1.anv.images.find? CfgImage.valid with
    | some i => s1.applyImage i.words i.tables
    | none =>
      let s2 := { s1 with cfg := [], eff := [] }
      if s1.anv.images.isEmpty then s2 else s2.blot .cfgRestoreFail
  s2.configured true

/-- The row's meaning. -/
def execConfigRestore (bad0 bad1 : Option Word) (s : State) : Host.Outcome State Fault Refusal :=
  .next (if s.starting && !s.dev.startup.configDone && !s.pwr.pfail then s.configRestore bad0 bad1 else s)

/-- CFG_RESTORE_FAIL (R314): the restore is not complete by 80.0 ms; reset values stand and the cores restart. -/
def execCfgRestoreFail (s : State) : Host.Outcome State Fault Refusal :=
  .next (if s.starting && !s.dev.startup.configDone then
      (({ s with cfg := [], eff := [] }).blot .cfgRestoreFail).configured false
    else s)

/-! ### The first metered cycle (R22, R69, R282, R283, R310) -/

/-- STARTUP_READY (R282): the measurement path has settled with the restored settings, and the search for crossings begins. -/
def execStartupReady (s : State) : Host.Outcome State Fault Refusal :=
  .next (if s.starting && s.dev.startup.tested && s.dev.startup.configDone && !s.dev.startup.pathReady then
      ({ s with tb := { s.tb with acq := Vector.replicate 8 .reset } }).phase fun x => { x with pathReady := true }
    else s)

/-- Metering can begin (R265, R282). -/
def State.canMeter (s : State) : Bool :=
  s.starting && s.dev.startup.restored && s.dev.startup.pathReady && s.pwr.erased ≠ 0

/-- Commands that wait for a boundary take effect at the start of the first cycle, unless a warning holds them (R229, R238). -/
def State.firstCommands (s : State) : State :=
  if s.pwr.pfail then s else s.commitBoundary.resolveBoundary.resetBoundary.saveBoundary

/-- Words accepted since the restore, and what waits for a boundary, take effect at the start of the first cycle (R34, R101,
R402). -/
def State.firstSettings (s : State) : State :=
  let s1 := chain s.settingsDue State.enforce (chain allChans State.channelBoundary s)
  let s2 := { s1 with
    buses := Vector.ofFn fun b => { s1.buses[b] with usr := udin s1.live b }
    tb := { s1.tb with nomf60 := bit (s1.live .tbCfg) 0 } }
  let s3 := chain (List.finRange 34) State.spareBoundary s2.trimsBoundary.firstCommands
  { s3 with pts := Vector.ofFn fun p => { s3.pts[p] with settle := s3.settles p } }

/-- A bus whose intervals open with the first metered cycle: all but the first block are short of their start (R109, R142). -/
def Bus.open_ (x : Sched) (at_ : Stamp) (b : Bus) : Bus :=
  let short : Agg := { Agg.empty with short := true }
  { b with
    agg10 := short, agg2h := short, u2agg := short
    bal := { b.bal with
      run := .zero, opened := at_, part := true, stepped := false, complete := false, members := [], sched := x } }

/-- A channel likewise; the DC content of the first cycle is of that cycle alone (R56). -/
def Chan.open_ (c : Chan) : Chan := { c with agg10 := { Agg.empty with short := true }, dcSum := [] }

/-- The first demand interval is PARTIAL (R109). -/
def Point.open_ (x : Sched) (p : Point) : Point :=
  { p with dem :=
    { p.dem with run := { DemSub.empty with marks := { Marks.none with part := true } }, subs := [], sched := x } }

/-- Every interval opens with the first metered cycle (R82, R109, R116, R121, R142, R179). -/
def State.openAll (s : State) : State :=
  let b := s.tb.boundary
  let x := s.opening
  let s1 := { s with
    pts := s.pts.map (Point.open_ x), buses := s.buses.map (Bus.open_ x b), chans := s.chans.map Chan.open_
    tb := { s.tb with tenSec := x, tenMin := x, twoHours := x }, fol := { s.fol with spanStart := b } }
  (chain allPulses State.rebase s1).openProfile true

/-- UNMETERED (R310): after any loss of metering that the journal knows of. Before any cycle has been journalled there is none to open the
interval, and nothing is raised (DESIGN CHOICE, log 116). -/
def State.raiseUnmetered (s : State) : State :=
  let x := s.dev.startup
  if !x.hadJournal then s
  else
    let from_ := if x.calInvalid then { x.unmeteredFrom with cal := none } else x.unmeteredFrom
    let s1 := (s.blot .unmetered).raiseWith .unmetered .device s.tb.boundary true true
      (s.unmeteredDetail from_ x.unmeteredWhy x.lineAtFailure)
    s1.phase fun x => { x with unmeteredDue := true }

/-- An alarm that fired on cell is raised (R344). -/
def State.cellAlarm (a : Fin 2) (s : State) : State :=
  if !s.cld.alarms[a].owed then s
  else (s.onAlarm a fun x => { x with owed := false }).alarmEvent a s.tb.boundary

/-- The first metered cycle begins at an instant at the pins (R22, R69, R282): its number is the restored ceiling; `line`: a
reference qualified. The first profile interval counts from the totals as they stand before what takes effect there (R117, R238). -/
def State.startMetering (line : Bool) (start : Nat) (s : State) : State :=
  let b : Stamp := ⟨s.tb.cycle, 0, s.calAt start⟩
  let startup := { s.dev.startup with metering := true, lineAtStart := line, calInvalid := !s.cld.valid }
  let tb := { s.tb with start := start, prevStart := start, boundary := b, prevBoundary := b, blkStart := b }
  let s1 := { s with dev := { s.dev with st := .run, startup := startup }, tb := tb }
  let s2 := ({ s1 with fol := { s1.fol with ready := some s1.image } }).firstSettings.openAll
  let s3 := { s2 with fol := { s2.fol with ready := none } }
  (chain (List.finRange 2) State.cellAlarm s3.raiseUnmetered).refreshDirty.startWaiting

/-- A first cycle that a reference gives: the reference, 8 for LSYNC, the instant at the pins at which it begins, and its period. -/
structure FirstCycle where
  ref    : Nat
  start  : Nat
  period : Nat

/-- The instant at the pins of a crossing that the search found at a place of a channel's stream (R69): the delays of the path and
of the acquisition lowpass at the frequency of the crossing interval are removed. -/
def State.crossingAt (s : State) (k : Fin 136) (hz place : Rat) : Nat :=
  ((place * (streamTicks : Rat) - s.delayTicks k - s.pathDelay k hz - acqDelay hz) * (tickParts : Rat)).floor.toNat

/-- A candidate whose last two crossings qualify (R283): the interval within the tracking range, and between them a peak of at least
25 % of √2 × U_din. -/
def State.acquired (s : State) (c : Fin 8) : Option FirstCycle :=
  let k := candChan c
  match s.tb.acq[c].cross with
  | b :: a :: _ =>
    let hz := streamRate / (b - a)
    let peak := s.scale k * s.tb.acq[c].between
    let u := udin s.live (busOfChan s.live k)
    if chanOn s.live k && decide (85 ≤ 2 * hz) && decide (hz ≤ 69) && decide (u * u ≤ 8 * (peak * peak)) then
      some ⟨c.val, s.crossingAt k hz b, ((b - a) * (streamTicks : Rat) * (tickParts : Rat)).floor.toNat⟩
    else none
  | _ => none

/-- The first cycle that LSYNC gives (R74, R283): its last edge marks the angle TB.LSYNC.OFS. -/
def State.lsyncCycle (s : State) : Option FirstCycle :=
  let period := s.tb.lsync.last * tickParts
  match s.tb.lsync.edge with
  | some t => if s.lsyncUsable then some ⟨8, t * tickParts - fld (s.live .lsync) 15 0 * period / 65536, period⟩ else none
  | none => none

/-- The first cycle of start-up (R283): the first entry of TB.REFLIST that qualifies, else LSYNC. -/
def State.firstCycle (s : State) : Option FirstCycle :=
  match (refCands (s.live .reflist)).filterMap s.acquired with
  | x :: _ => some x
  | [] => s.lsyncCycle

/-- FIRST_METERED_CYCLE (R69, R283). -/
def execFirstMeteredCycle (s : State) : Host.Outcome State Fault Refusal :=
  .next (if !s.canMeter then s
    else match s.firstCycle with
      | none => s
      | some x =>
        let tb := { s.tb.hold x.period with
          mode := .acquire, active := x.ref, provisional := if x.ref = 8 then none else some x.ref }
        ({ s with tb := tb }).startMetering true x.start)

/-- STARTUP_FREERUN_FALLBACK (R72, R283): the first cycle starts now, in FREERUN at the nominal frequency. -/
def execStartupFreerunFallback (s : State) : Host.Outcome State Fault Refusal :=
  .next (if s.canMeter then
      (({ s with tb := s.tb.hold (nominalPeriod s.tb.nomf60) }).startMetering false s.clock).enterFreerun
    else s)

end Sys2Proof.Machine
end

