-- ==== Sys2Proof/Machine/Dispatch.lean ====
section
/-! DEFINITION. The meaning of every command, one arm for each row of the opcode table. -/
namespace Sys2Proof.Machine

def exec (i : Instr) (s : State) : Host.Outcome State Fault Refusal :=
  match i with
  | .nop r payload => Sys2Proof.Machine.execNop r payload s
  | .sessionOpen r payload => Sys2Proof.Machine.execSessionOpen r payload s
  | .sessionClose r => Sys2Proof.Machine.execSessionClose r s
  | .setPriority r prio => Sys2Proof.Machine.execSetPriority r prio s
  | .folioRead r sel offset length errs => Sys2Proof.Machine.execFolioRead r sel offset length errs s
  | .folioLease r sel duration => Sys2Proof.Machine.execFolioLease r sel duration s
  | .folioRenew r lease duration => Sys2Proof.Machine.execFolioRenew r lease duration s
  | .folioRelease r lease => Sys2Proof.Machine.execFolioRelease r lease s
  | .folioCut r => Sys2Proof.Machine.execFolioCut r s
  | .folioSealGet r sel => Sys2Proof.Machine.execFolioSealGet r sel s
  | .paramRead r addr count => Sys2Proof.Machine.execParamRead r addr count s
  | .paramWrite r addr words => Sys2Proof.Machine.execParamWrite r addr words s
  | .scRead r sel first count => Sys2Proof.Machine.execScRead r sel first count s
  | .eventRead r number => Sys2Proof.Machine.execEventRead r number s
  | .eventAck r number => Sys2Proof.Machine.execEventAck r number s
  | .profileRead r number count => Sys2Proof.Machine.execProfileRead r number count s
  | .profileAck r number => Sys2Proof.Machine.execProfileAck r number s
  | .wbRead r number offset length => Sys2Proof.Machine.execWbRead r number offset length s
  | .capRead r number offset length => Sys2Proof.Machine.execCapRead r number offset length s
  | .capTrigger r => Sys2Proof.Machine.execCapTrigger r s
  | .capRelease r number => Sys2Proof.Machine.execCapRelease r number s
  | .logRead r number count => Sys2Proof.Machine.execLogRead r number count s
  | .demandReset r mask => Sys2Proof.Machine.execDemandReset r mask s
  | .calCommit r digest => Sys2Proof.Machine.execCalCommit r digest s
  | .calPendingRead r point select => Sys2Proof.Machine.execCalPendingRead r point select s
  | .calPendingResolve r mask action => Sys2Proof.Machine.execCalPendingResolve r mask action s
  | .pulseTest r mask ten tconst => Sys2Proof.Machine.execPulseTest r mask ten tconst s
  | .blotRead r => Sys2Proof.Machine.execBlotRead r s
  | .blotClear r mask => Sys2Proof.Machine.execBlotClear r mask s
  | .bankEnter r => Sys2Proof.Machine.execBankEnter r s
  | .bankExit r => Sys2Proof.Machine.execBankExit r s
  | .softReset r scope => Sys2Proof.Machine.execSoftReset r scope s
  | .auxRead r input code => Sys2Proof.Machine.execAuxRead r input code s
  | .cfgSave r => Sys2Proof.Machine.execCfgSave r s
  | .inkLock r duration => Sys2Proof.Machine.execInkLock r duration s
  | .inkUnlock r => Sys2Proof.Machine.execInkUnlock r s
  | .fwBegin r length => Sys2Proof.Machine.execFwBegin r length s
  | .fwWrite r offset data => Sys2Proof.Machine.execFwWrite r offset data s
  | .fwVerify r => Sys2Proof.Machine.execFwVerify r s
  | .fwActivate r => Sys2Proof.Machine.execFwActivate r s
  | .cldSet r fields => Sys2Proof.Machine.execCldSet r fields s
  | .cldAdjustStep r mode amount => Sys2Proof.Machine.execCldAdjustStep r mode amount s
  | .cldAdjustSlew r mode amount => Sys2Proof.Machine.execCldAdjustSlew r mode amount s
  | .cldAlarmAck r mask => Sys2Proof.Machine.execCldAlarmAck r mask s
  | .grdClearArm r mask => Sys2Proof.Machine.execGrdClearArm r mask s
  | .grdClearConfirm r mask challenge => Sys2Proof.Machine.execGrdClearConfirm r mask challenge s
  | .grdTest r source declares => Sys2Proof.Machine.execGrdTest r source declares s
  | .idCertRead r offset length => Sys2Proof.Machine.execIdCertRead r offset length s
  | .pnlTableLoad r transition band final offset data => Sys2Proof.Machine.execPnlTableLoad r transition band final offset data s
  | .pnlImageWrite r region offset data => Sys2Proof.Machine.execPnlImageWrite r region offset data s
  | .pnlUpdate r region transition urgent => Sys2Proof.Machine.execPnlUpdate r region transition urgent s
  | .forceSpare r ch => Sys2Proof.Machine.execForceSpare r ch s
  | .restore r ch => Sys2Proof.Machine.execRestore r ch s
  | .check r ch => Sys2Proof.Machine.execCheck r ch s
  | .trimModWrite r slot value => Sys2Proof.Machine.execTrimModWrite r slot value s
  | .trimVrefWrite r value => Sys2Proof.Machine.execTrimVrefWrite r value s
  | .trimOscWrite r value => Sys2Proof.Machine.execTrimOscWrite r value s
  | .reload r => Sys2Proof.Machine.execReload r s
  | .rejoin r comb met => Sys2Proof.Machine.execRejoin r comb met s
  | .xreturn r => Sys2Proof.Machine.execXreturn r s
  | .eoi r target source dtag => Sys2Proof.Machine.execEoi r target source dtag s
  | .intTargetDisable r target => Sys2Proof.Machine.execIntTargetDisable r target s
  | .arm r => Sys2Proof.Machine.execArm r s
  | .fdis r key source => Sys2Proof.Machine.execFdis r key source s
  | .recover r clockOk => Sys2Proof.Machine.execRecover r clockOk s
  | .frameReceive port bytes errs => Sys2Proof.Machine.execFrameReceive port bytes errs s
  | .read port bytes => Sys2Proof.Machine.execRead port bytes s
  | .status port => Sys2Proof.Machine.execStatus port s
  | .uartReplySent => Sys2Proof.Machine.execUartReplySent s
  | .portTimeout port => Sys2Proof.Machine.execPortTimeout port s
  | .spiPortReset port => Sys2Proof.Machine.execSpiPortReset port s
  | .uartFrameStall => Sys2Proof.Machine.execUartFrameStall s
  | .brk long => Sys2Proof.Machine.execBrk long s
  | .replyDropped port tag => Sys2Proof.Machine.execReplyDropped port tag s
  | .sessionIdleTimeout session => Sys2Proof.Machine.execSessionIdleTimeout session s
  | .leaseExpiry session lease => Sys2Proof.Machine.execLeaseExpiry session lease s
  | .inkLockExpiry => Sys2Proof.Machine.execInkLockExpiry s
  | .grdChallengeExpiry => Sys2Proof.Machine.execGrdChallengeExpiry s
  | .combFrame latches disagree again suspect => Sys2Proof.Machine.execCombFrame latches disagree again suspect s
  | .engFenced failed => Sys2Proof.Machine.execEngFenced failed s
  | .sampleBatch index parity => Sys2Proof.Machine.execSampleBatch index parity s
  | .metrologyReplay batch again failed => Sys2Proof.Machine.execMetrologyReplay batch again failed s
  | .autoFreezeEnd bus => Sys2Proof.Machine.execAutoFreezeEnd bus s
  | .cycleClose errs => Sys2Proof.Machine.execCycleClose errs s
  | .freerunEntry => Sys2Proof.Machine.execFreerunEntry s
  | .lsyncEdge rising tick => Sys2Proof.Machine.execLsyncEdge rising tick s
  | .lsyncTimeout => Sys2Proof.Machine.execLsyncTimeout s
  | .blockClose => Sys2Proof.Machine.execBlockClose s
  | .aggregateClose => Sys2Proof.Machine.execAggregateClose s
  | .tenMinuteTick => Sys2Proof.Machine.execTenMinuteTick s
  | .frequencyIntervalClose => Sys2Proof.Machine.execFrequencyIntervalClose s
  | .demandClose point => Sys2Proof.Machine.execDemandClose point s
  | .profileClose => Sys2Proof.Machine.execProfileClose s
  | .balanceClose bus => Sys2Proof.Machine.execBalanceClose bus s
  | .modulatorHardFault slot cause => Sys2Proof.Machine.execModulatorHardFault slot cause s
  | .chSubstituted ch => Sys2Proof.Machine.execChSubstituted ch s
  | .spareMove group err => Sys2Proof.Machine.execSpareMove group err s
  | .driftCheckPhase group err => Sys2Proof.Machine.execDriftCheckPhase group err s
  | .chDriftChecked group => Sys2Proof.Machine.execChDriftChecked group s
  | .chRestored ch err detected => Sys2Proof.Machine.execChRestored ch err detected s
  | .suppressionEnd ch => Sys2Proof.Machine.execSuppressionEnd ch s
  | .chClip ch => Sys2Proof.Machine.execChClip ch s
  | .pulseLeadingEdge out => Sys2Proof.Machine.execPulseLeadingEdge out s
  | .pulseTrailingEdge out => Sys2Proof.Machine.execPulseTrailingEdge out s
  | .wbSetEnd => Sys2Proof.Machine.execWbSetEnd s
  | .captureFilled buffer => Sys2Proof.Machine.execCaptureFilled buffer s
  | .captureKeepExpiry buffer => Sys2Proof.Machine.execCaptureKeepExpiry buffer s
  | .eventLogWrite ecc => Sys2Proof.Machine.execEventLogWrite ecc s
  | .intTimeout target => Sys2Proof.Machine.execIntTimeout target s
  | .auxScan input codes => Sys2Proof.Machine.execAuxScan input codes s
  | .accScrub errs => Sys2Proof.Machine.execAccScrub errs s
  | .sramScrub errs => Sys2Proof.Machine.execSramScrub errs s
  | .xtalFail => Sys2Proof.Machine.execXtalFail s
  | .xtalRate ppm => Sys2Proof.Machine.execXtalRate ppm s
  | .xtalReturn => Sys2Proof.Machine.execXtalReturn s
  | .powerFail vin pfw => Sys2Proof.Machine.execPowerFail vin pfw s
  | .journalEntry => Sys2Proof.Machine.execJournalEntry s
  | .tailUpdate => Sys2Proof.Machine.execTailUpdate s
  | .journalErase ok => Sys2Proof.Machine.execJournalErase ok s
  | .pfSustained => Sys2Proof.Machine.execPfSustained s
  | .pfRecovered => Sys2Proof.Machine.execPfRecovered s
  | .brownout => Sys2Proof.Machine.execBrownout s
  | .por bad selfCheck => Sys2Proof.Machine.execPor bad selfCheck s
  | .resetnCold => Sys2Proof.Machine.execResetnCold s
  | .resetnWarm bad selfCheck => Sys2Proof.Machine.execResetnWarm bad selfCheck s
  | .vaonChangeover toVbat => Sys2Proof.Machine.execVaonChangeover toVbat s
  | .supplyLossBoth => Sys2Proof.Machine.execSupplyLossBoth s
  | .crystalAccepted => Sys2Proof.Machine.execCrystalAccepted s
  | .startupReady => Sys2Proof.Machine.execStartupReady s
  | .configRestore bad0 bad1 => Sys2Proof.Machine.execConfigRestore bad0 bad1 s
  | .cfgRestoreFail => Sys2Proof.Machine.execCfgRestoreFail s
  | .firstMeteredCycle => Sys2Proof.Machine.execFirstMeteredCycle s
  | .startupFreerunFallback => Sys2Proof.Machine.execStartupFreerunFallback s
  | .anvWdog core bad => Sys2Proof.Machine.execAnvWdog core bad s
  | .fwTrialEnd => Sys2Proof.Machine.execFwTrialEnd s
  | .calSecondBoundary => Sys2Proof.Machine.execCalSecondBoundary s
  | .calStopped => Sys2Proof.Machine.execCalStopped s
  | .grdClock => Sys2Proof.Machine.execGrdClock s
  | .grdSource group covers => Sys2Proof.Machine.execGrdSource group covers s
  | .panelPairBoundary => Sys2Proof.Machine.execPanelPairBoundary s
  | .railStep => Sys2Proof.Machine.execRailStep s
  | .railRead code => Sys2Proof.Machine.execRailRead code s
  | .panelFault clock => Sys2Proof.Machine.execPanelFault clock s
  | .folioSealed ecc => Sys2Proof.Machine.execFolioSealed ecc s
  | .resetnRelease bad selfCheck => Sys2Proof.Machine.execResetnRelease bad selfCheck s
  | .journalRestored bad => Sys2Proof.Machine.execJournalRestored bad s
  | .startUpTest failed comb met => Sys2Proof.Machine.execStartUpTest failed comb met s
  | .portsReady => Sys2Proof.Machine.execPortsReady s
  | .xtalStartTimeout => Sys2Proof.Machine.execXtalStartTimeout s
  | .slewEnd => Sys2Proof.Machine.execSlewEnd s
  | .cellScanPeriod group covers => Sys2Proof.Machine.execCellScanPeriod group covers s
  | .panelFrameBoundary => Sys2Proof.Machine.execPanelFrameBoundary s
  | .isolatedParityError slot => Sys2Proof.Machine.execIsolatedParityError slot s

end Sys2Proof.Machine
end

