-- ==== Sys2Proof/Machine/Idle.lean ====
section
/-!
DEFINITION. What passes with time when no command waits (log 2): a crystal edge of the calendar, a GUARD period, and
the auxiliary ADC's scans that fall due.
-/
namespace Sys2Proof.Machine

/-- A mask written applies from the next GUARD period (R354). -/
def GrdSrc.period (g : GrdSrc) : GrdSrc := { g with mask := g.next.getD g.mask, next := none, again := none }

/-- A GUARD period has passed: written masks apply, and an arming's record has been written (R354, R360; log 2). -/
def Guard.period (g : Guard) : Guard := { g with srcs := g.srcs.map GrdSrc.period, arming := false }

/-- The scan period of an input of the auxiliary ADC in units of 10 ms; 0: not scanned by the sequencer (R315). -/
def State.scanPeriod (s : State) (i : Fin 16) : Nat :=
  match i.val with
  | 0 | 1 | 2 | 3 => 10
  | 8 => 6000
  | 9 => fld (s.live (.auxUin 0)) 7 0
  | 10 => fld (s.live (.auxUin 1)) 7 0
  | 14 => 100
  | 15 => 0
  | _ => 1

/-- The queue of scans as time passes: those that fall due together join it in ascending order, and one that is due already is merged
(R317; their phase is the model's, log 2). -/
def State.scansDue (s : State) : List Nat :=
  let t := fun n => n * 100 / 32768
  let due := (List.finRange 16).filter fun i => s.scanPeriod i ≠ 0 && t (s.now + 1) / s.scanPeriod i ≠ t s.now / s.scanPeriod i
  s.anv.auxDue ++ (due.map Fin.val).filter fun i => !s.anv.auxDue.contains i

/-- Cores that a watchdog or a soft reset has restarted take up work again (R312; log 2); after a soft reset the image has its start
self-check to pass (R330). -/
def State.coresBack (s : State) : State :=
  if s.powered && s.dev.startup.configDone && !s.anv.up then
    let s1 := { s with anv := { s.anv with up := true, checkDue := false } }
    (if s.anv.checkDue then s1.selfCheck else s1).route
  else s

/-- What a step does when no command waits: one edge of the calendar crystal, on which an invalid calendar counts too (R334), and with
it a GUARD period (R354; log 2). -/
def crystalEdge (s : State) : State :=
  let s := s.coresBack
  { s with
    now := s.now + 1
    cld := if s.vaon then s.cld.tick else s.cld
    scr := if s.flt.guardStop || !s.vaon then s.scr else s.scr.mark s.grd.inPeriod
    grd := if s.flt.guardStop || !s.vaon then s.grd else s.grd.period
    anv := if s.powered then { s.anv with auxDue := s.scansDue } else s.anv }

end Sys2Proof.Machine
end

