-- ==== Sys2Proof/WellFormed.lean ====
section
/-!
DEFINITION. Which commands are well formed: every operand fits the field of the request layout or the register that carries it
(R197, R226 to R246), and what an event row brings from outside has the shape that the hardware can present.
-/
namespace Sys2Proof

/-- A number fits n bytes. -/
def fitsBytes (n x : Nat) : Bool := x < 2 ^ (8 * n)

/-- A signed 32-bit operand (R243). -/
def fitsInt32 (x : Int) : Bool := -(2 ^ 31) ≤ x && x < 2 ^ 31

/-- A payload, or the data part of one, is no longer than the bytes left for it (R197: LENGTH up to 4096). -/
def fitsData (most : Nat) (data : List Byte) : Bool := data.length ≤ most

/-- A selector's number fits its field; a bad KIND is none of the three that exist (R226). -/
def Selector.wf : Selector → Bool
  | .latest => true
  | .number n => fitsBytes 6 n
  | .lease id => fitsBytes 4 id
  | .badKind k => 3 ≤ k.toNat

/-- What a section brings in a frame: the codes of 12 MOD clocks, each of 4 bits (R46). The value of a code is read as a
two's-complement number (log 71). -/
def Latch.wf (l : Latch) : Bool := l.codes.length = 12 && l.codes.all fun c => c.all fun x => -8 ≤ x && x < 8

/-- A command is well formed. -/
def Instr.wf : Instr → Bool
  | .nop _ payload | .sessionOpen _ payload => fitsData 4096 payload
  | .folioRead _ sel offset length _ => sel.wf && fitsBytes 4 offset && fitsBytes 4 length
  | .folioLease _ sel duration => sel.wf && fitsBytes 2 duration
  | .folioRenew _ lease duration => fitsBytes 4 lease && fitsBytes 2 duration
  | .folioRelease _ lease => fitsBytes 4 lease
  | .folioSealGet _ sel => sel.wf
  | .paramRead _ addr count => fitsBytes 4 addr && fitsBytes 2 count
  | .paramWrite _ addr words => fitsBytes 4 addr && words.length ≤ 1023
  | .scRead _ sel first count => sel.wf && fitsBytes 1 first && fitsBytes 1 count
  | .eventRead _ number | .eventAck _ number | .profileAck _ number | .capRelease _ number => fitsBytes 6 number
  | .profileRead _ number count => fitsBytes 6 number && fitsBytes 1 count
  | .wbRead _ number offset length => fitsBytes 6 number && fitsBytes 2 offset && fitsBytes 2 length
  | .capRead _ number offset length => fitsBytes 6 number && fitsBytes 4 offset && fitsBytes 4 length
  | .logRead _ number count => fitsBytes 6 number && fitsBytes 2 count
  | .calCommit _ digest => digest.length = 32
  | .calPendingRead _ point select => fitsBytes 1 point && fitsBytes 1 select
  | .calPendingResolve _ _ action => fitsBytes 1 action
  | .softReset _ scope => fitsBytes 1 scope
  | .auxRead _ input _ => fitsBytes 1 input
  | .inkLock _ duration => fitsBytes 2 duration
  | .fwBegin _ length => fitsBytes 4 length
  | .fwWrite _ offset data => fitsBytes 4 offset && fitsData 4088 data
  | .cldAdjustStep _ mode amount => mode ≠ 1 && fitsInt32 amount
  | .cldAdjustSlew _ mode amount => mode = 1 && fitsInt32 amount
  | .grdTest _ source _ => fitsBytes 1 source
  | .idCertRead _ offset length => fitsBytes 2 offset && fitsBytes 2 length
  | .pnlTableLoad _ transition band _ offset data =>
    fitsBytes 1 transition && fitsBytes 1 band && fitsBytes 4 offset && fitsData 4088 data
  | .pnlImageWrite _ region offset data => fitsBytes 1 region && fitsBytes 4 offset && fitsData 4088 data
  | .pnlUpdate _ region transition _ => fitsBytes 1 region && fitsBytes 1 transition
  | .replyDropped _ tag => tag < 128
  | .leaseExpiry _ lease => fitsBytes 4 lease
  | .combFrame latches disagree _ _ => latches.length = 170 && latches.all Latch.wf && disagree.all fun n => n < 170
  | .sampleBatch _ parity => parity.all (fitsBytes 4)
  | .cycleClose errs | .accScrub errs => errs.all fun e => e.word < 32768
  | .eventLogWrite ecc => ecc.all (fitsBytes 6)
  | .auxScan _ codes => 0 < codes.length
  | .startUpTest failed _ _ => failed.all fun n => n < 170
  | .sessionClose _ | .setPriority _ _ | .folioCut _ | .capTrigger _ | .demandReset _ _ | .pulseTest _ _ _ _
  | .blotRead _ | .blotClear _ _ | .bankEnter _ | .bankExit _ | .cfgSave _ | .inkUnlock _ | .fwVerify _
  | .fwActivate _ | .cldSet _ _ | .cldAlarmAck _ _ | .grdClearArm _ _ | .grdClearConfirm _ _ _ => true
  | .forceSpare _ _ | .restore _ _ | .check _ _ | .trimModWrite _ _ _ | .trimVrefWrite _ _ | .trimOscWrite _ _
  | .reload _ | .rejoin _ _ _ | .xreturn _ | .eoi _ _ _ _ | .intTargetDisable _ _ | .arm _ | .fdis _ _ _
  | .recover _ _ => true
  | .frameReceive _ _ _ | .read _ _ | .status _ | .uartReplySent | .portTimeout _ | .spiPortReset _
  | .uartFrameStall | .brk _ | .sessionIdleTimeout _ | .inkLockExpiry | .grdChallengeExpiry => true
  | .engFenced _ | .metrologyReplay _ _ _ | .autoFreezeEnd _ | .freerunEntry | .lsyncEdge _ _ | .lsyncTimeout
  | .blockClose | .aggregateClose | .tenMinuteTick | .frequencyIntervalClose | .demandClose _ | .profileClose
  | .balanceClose _ => true
  | .modulatorHardFault _ _ | .chSubstituted _ | .spareMove _ _ | .driftCheckPhase _ _ | .chDriftChecked _
  | .chRestored _ _ _ | .suppressionEnd _ | .chClip _ | .isolatedParityError _ | .pulseLeadingEdge _ | .wbSetEnd
  | .pulseTrailingEdge _ | .captureFilled _ | .captureKeepExpiry _ | .intTimeout _
  | .sramScrub _ => true
  | .xtalFail | .xtalRate _ | .xtalReturn | .powerFail _ _ | .journalEntry | .tailUpdate | .journalErase _
  | .pfSustained | .pfRecovered | .brownout | .por _ _ | .resetnCold | .resetnWarm _ _ | .vaonChangeover _
  | .supplyLossBoth | .crystalAccepted | .startupReady | .configRestore _ _ | .cfgRestoreFail | .anvWdog _ _
  | .firstMeteredCycle | .startupFreerunFallback | .fwTrialEnd | .calSecondBoundary | .calStopped | .grdClock
  | .grdSource _ _ | .panelPairBoundary | .railStep
  | .railRead _ | .panelFault _ | .folioSealed _ | .resetnRelease _ _ | .journalRestored _ | .portsReady
  | .xtalStartTimeout | .slewEnd | .cellScanPeriod _ _ | .panelFrameBoundary => true

end Sys2Proof
end

