-- ==== Sys2Proof/Safety.lean ====
section
/-!
DEFINITION. The terms in which claims speak: which host command a row is, when it is served, what a register write that is
accepted means, what an observer sees of a completion, and the canonical form that the parameter stores keep.
-/
namespace Sys2Proof.Machine

/-! ### Host commands (R213 to R219, R228, R332) -/

/-- The host command behind a row: its opcode and its request (R223). The rows that name one register write are PARAM_WRITEs. -/
def hostOf : Instr → Option (Nat × Req)
  | .nop r _ => some (0x0001, r) | .sessionOpen r _ => some (0x0002, r) | .sessionClose r => some (0x0003, r)
  | .setPriority r _ => some (0x0004, r)
  | .folioRead r _ _ _ _ => some (0x0101, r) | .folioLease r _ _ => some (0x0102, r) | .folioRenew r _ _ => some (0x0103, r)
  | .folioRelease r _ => some (0x0104, r) | .folioCut r => some (0x0105, r) | .folioSealGet r _ => some (0x0106, r)
  | .paramRead r _ _ => some (0x0201, r) | .paramWrite r _ _ => some (0x0202, r) | .scRead r _ _ _ => some (0x0203, r)
  | .eventRead r _ => some (0x0301, r) | .eventAck r _ => some (0x0302, r) | .profileRead r _ _ => some (0x0303, r)
  | .profileAck r _ => some (0x0304, r) | .wbRead r _ _ _ => some (0x0305, r) | .capRead r _ _ _ => some (0x0306, r)
  | .capTrigger r => some (0x0307, r) | .capRelease r _ => some (0x0308, r) | .logRead r _ _ => some (0x0309, r)
  | .demandReset r _ => some (0x0401, r) | .calCommit r _ => some (0x0402, r) | .calPendingRead r _ _ => some (0x0403, r)
  | .calPendingResolve r _ _ => some (0x0404, r) | .pulseTest r _ _ _ => some (0x0405, r)
  | .blotRead r => some (0x0501, r) | .blotClear r _ => some (0x0502, r) | .bankEnter r => some (0x0503, r)
  | .bankExit r => some (0x0504, r) | .softReset r _ => some (0x0505, r) | .auxRead r _ _ => some (0x0506, r)
  | .cfgSave r => some (0x0507, r) | .inkLock r _ => some (0x0508, r) | .inkUnlock r => some (0x0509, r)
  | .fwBegin r _ => some (0x0601, r) | .fwWrite r _ _ => some (0x0602, r) | .fwVerify r => some (0x0603, r)
  | .fwActivate r => some (0x0604, r)
  | .cldSet r _ => some (0x0701, r) | .cldAdjustStep r _ _ => some (0x0702, r) | .cldAdjustSlew r _ _ => some (0x0702, r)
  | .cldAlarmAck r _ => some (0x0703, r)
  | .grdClearArm r _ => some (0x0801, r) | .grdClearConfirm r _ _ => some (0x0802, r) | .grdTest r _ _ => some (0x0803, r)
  | .idCertRead r _ _ => some (0x0804, r)
  | .pnlTableLoad r _ _ _ _ _ => some (0x0901, r) | .pnlImageWrite r _ _ _ => some (0x0902, r)
  | .pnlUpdate r _ _ _ => some (0x0903, r)
  | .forceSpare r _ | .restore r _ | .check r _ | .trimModWrite r _ _ | .trimVrefWrite r _ | .trimOscWrite r _
  | .reload r | .rejoin r _ _ | .xreturn r | .eoi r _ _ _ | .intTargetDisable r _ | .arm r | .fdis r _ _
  | .recover r _ => some (0x0202, r)
  | .frameReceive _ _ _ | .read _ _ | .status _ | .uartReplySent | .portTimeout _ | .spiPortReset _
  | .uartFrameStall | .brk _ | .replyDropped _ _ | .sessionIdleTimeout _ | .leaseExpiry _ _ | .inkLockExpiry
  | .grdChallengeExpiry => none
  | .combFrame _ _ _ _ | .engFenced _ | .sampleBatch _ _ | .metrologyReplay _ _ _ | .autoFreezeEnd _ | .cycleClose _
  | .freerunEntry | .lsyncEdge _ _ | .lsyncTimeout | .blockClose | .aggregateClose | .tenMinuteTick
  | .frequencyIntervalClose | .demandClose _ | .profileClose | .balanceClose _ => none
  | .modulatorHardFault _ _ | .chSubstituted _ | .spareMove _ _ | .driftCheckPhase _ _ | .chDriftChecked _
  | .chRestored _ _ _ | .suppressionEnd _ | .chClip _ | .isolatedParityError _ | .pulseLeadingEdge _
  | .pulseTrailingEdge _ | .wbSetEnd | .captureFilled _ | .captureKeepExpiry _ | .eventLogWrite _ | .intTimeout _
  | .auxScan _ _ | .accScrub _ | .sramScrub _ => none
  | .xtalFail | .xtalRate _ | .xtalReturn | .powerFail _ _ | .journalEntry | .tailUpdate | .journalErase _
  | .pfSustained | .pfRecovered | .brownout | .por _ _ | .resetnCold | .resetnWarm _ _ | .vaonChangeover _
  | .supplyLossBoth | .crystalAccepted | .startupReady | .configRestore _ _ | .cfgRestoreFail
  | .firstMeteredCycle | .startupFreerunFallback | .anvWdog _ _ | .fwTrialEnd | .calSecondBoundary | .calStopped
  | .grdClock | .grdSource _ _ | .panelPairBoundary | .railStep | .railRead _ | .panelFault _ | .folioSealed _
  | .resetnRelease _ _ | .journalRestored _ | .startUpTest _ _ _ | .portsReady | .xtalStartTimeout | .slewEnd
  | .cellScanPeriod _ _ | .panelFrameBoundary => none

/-- The state in which a served command's own effect begins: a slow-path command other than BANK_ENTER has ended a stay in
Banked (R19). -/
def State.woken (op : Nat) (s : State) : State := if isSlow op && op ≠ 0x0503 then s.wake else s

/-- A command is served: Scribe runs it now (R204, R217, R219), its role may send it (R213), ISOLATE does not close it (R228), and
the running image serves it (R332). -/
def State.served (op : Nat) (r : Req) (s : State) : Bool :=
  s.ready op r && permitted op r.role && !s.closedBy op r.role && (s.anv.slot ≠ 3 || !isSlow op || recoveryServes op)

/-- A command's session can be answered: its queue entry is not that of an ended session, and the device counter is not used up
(R200, R212). -/
def State.answerable (op : Nat) (r : Req) (s : State) : Bool :=
  !((s.entry? op r).map Entry.dead).getD false && ((s.session? r.session).map Session.devSeq).getD 0 < 2 ^ 32

/-- The frame that the bytes of a FRAME_RECEIVE hold: on port C, their COBS decoding (R206). -/
def frameIn (p : Port) (bytes : List Byte) : Option (List Byte) :=
  match p with
  | .c => cobs bytes
  | .a | .b => some bytes

/-- The port is an SPI port (R201). -/
def isSpi : Port → Bool
  | .c => false
  | .a | .b => true

/-- The state in which a received frame is judged: on an SPI port its transfer has shifted out the port status word (R201). -/
def State.onWire (p : Port) (bytes : List Byte) (s : State) : State :=
  match p with
  | .c => s
  | .a | .b => s.transact p (zeros bytes.length)

/-- A PARAM_WRITE of one word is accepted (R233): the address exists, the role may change every field that changes, and the word
breaks no rule of its register. -/
def State.accepts (req : Req) (r : Reg) (w : Word) (s : State) : Bool :=
  rangeOk r.addr 1 && (s.deniedAt req.role [(r.addr, w)]).isNone
    && (s.judgeWord req.port ((s.entry? 0x0202 req).map Entry.order) r (r.judged (s.readLive r) w)).isNone

/-! ### Which rows move what (R63, R100, R127, R132, R333, R397) -/

/-- The rows that may change a metering point: what closes cycles, demand and profile intervals, what the journal restores, a lost
accumulator, the first metered cycle, and a cold reset. -/
def movesPoints : Instr → Bool
  | .cycleClose _ | .demandClose _ | .profileClose | .accScrub _ | .journalRestored _ | .firstMeteredCycle
  | .startupFreerunFallback | .brownout | .por _ _ | .resetnCold => true
  | _ => false

/-- The rows that may change the timebase. -/
def movesTimebase : Instr → Bool
  | .combFrame _ _ _ _ | .startupReady | .sampleBatch _ _ | .cycleClose _ | .freerunEntry | .lsyncEdge _ _ | .lsyncTimeout
  | .blockClose | .aggregateClose
  | .tenMinuteTick | .frequencyIntervalClose | .journalRestored _ | .configRestore _ _ | .firstMeteredCycle
  | .startupFreerunFallback | .brownout | .por _ _ | .resetnCold => true
  | _ => false

/-- The rows that may change the live calibration set: a cycle boundary, and a cold reset, which unloads it. -/
def movesCalibration : Instr → Bool
  | .cycleClose _ | .firstMeteredCycle | .startupFreerunFallback | .brownout | .por _ _ | .resetnCold => true
  | _ => false

/-- The rows that may move the calendar's time. -/
def movesCalendar : Instr → Bool
  | .cldSet _ _ | .cldAdjustStep _ _ _ | .calSecondBoundary | .supplyLossBoth => true
  | _ => false

/-- The rows that may change a parameter word as asked: PARAM_WRITE in all its spellings, PULSE_TEST, a long BREAK, the
journal and configuration restores, and a cold reset. -/
def asksParameters (c : Instr) : Bool :=
  match hostOf c with
  | some (op, _) => op = 0x0202 || op = 0x0405
  | none => match c with
    | .brk true | .journalRestored _ | .configRestore _ _ | .cfgRestoreFail | .brownout | .por _ _ | .resetnCold => true
    | _ => false

/-- The rows that may change a parameter word in force: those, a cycle boundary, and a profile close. -/
def enforcesParameters (c : Instr) : Bool :=
  asksParameters c || (match c with
    | .cycleClose _ | .profileClose | .firstMeteredCycle | .startupFreerunFallback => true
    | _ => false)

/-- Commands that only read; a FOLIO_READ that meets an uncorrectable word does more (R257). -/
def readsOnly : Instr → Bool
  | .folioRead _ _ _ _ errs => errs.isEmpty
  | .nop _ _ | .folioSealGet _ _ | .paramRead _ _ _ | .scRead _ _ _ _ | .eventRead _ _
  | .profileRead _ _ _ | .wbRead _ _ _ _ | .capRead _ _ _ _ | .logRead _ _ _ | .calPendingRead _ _ _ | .blotRead _
  | .auxRead _ _ _ | .idCertRead _ _ _ => true
  | _ => false

/-! ### Interrupt stacks (R285, R288) -/

/-- In-service priorities of every target rise strictly from the bottom to the top of its stack, and lie within 1 to 15. -/
def State.stacksRise (s : State) : Prop :=
  ∀ t : Fin 6, (s.intc.targets[t].stack.map InSvc.prio).Pairwise (· > ·) ∧
    ∀ e ∈ s.intc.targets[t].stack, 1 ≤ e.prio ∧ e.prio ≤ 15

/-! ### The parameter stores (R397, R399) -/

/-- The stores of asked and of live words are in canonical form, and so are the words of the configuration images. -/
def State.storesWf (s : State) : Bool := s.cfg.wf && s.eff.wf && s.anv.images.all fun i => i.words.wf

end Sys2Proof.Machine
end

