-- ==== Sys2Proof/Certificates/Slice0/Obligations.lean ====
section
/-!
DEFINITION. The statements for the provers.
-/

open Sys2Proof Sys2Proof.Machine

/-- A step of a state with a command at the front of its queue is the command on the state with the queue's rest. The
queue is the model's own (log 2). -/
def Obligations.FrontCommandRuns : Prop :=
  ∀ (s : State) (c : Instr) (rest : List Instr),
    step { s with pending := c :: rest } = exec c { s with pending := rest }

/-- On an empty queue one edge of the calendar crystal passes, and restarted cores are up again (the model's choice,
log 2); no measured quantity changes. The model's own: log 2 (DESIGN CHOICE). -/
def Obligations.IdleStepIsOneCrystalEdge : Prop :=
  ∀ s : State, s.pending = [] → ∃ t, step s = .next t ∧ t.now = s.now + 1 ∧ t.pending = [] ∧
    t.cld = (if s.vaon then s.cld.tick else s.cld) ∧
    t.grd = (if s.flt.guardStop || !s.vaon then s.grd else s.grd.period) ∧
    t.scr = (if s.flt.guardStop || !s.vaon then s.scr else s.scr.mark s.grd.inPeriod) ∧
    t.cfg = s.cfg ∧ t.eff = s.eff ∧ t.slots = s.slots ∧ t.chans = s.chans ∧ t.spares = s.spares ∧ t.pts = s.pts ∧
    t.buses = s.buses ∧ t.tb = s.tb ∧ t.engine = s.engine ∧ t.mcal = s.mcal ∧ t.prof = s.prof ∧ t.pq = s.pq ∧ t.wb = s.wb ∧
    t.pulses = s.pulses ∧ t.fol = s.fol ∧ t.pwr = s.pwr ∧ t.flt = s.flt ∧ t.pnl = s.pnl ∧ t.trim = s.trim ∧
    (s.anv.up = true → t.ev = s.ev ∧ t.intc = s.intc ∧ t.dev = s.dev ∧ t.draws = s.draws ∧
      t.anv = if s.powered then { s.anv with auxDue := s.scansDue } else s.anv) ∧
    (s.powered = true → s.dev.startup.configDone = true → t.anv.up = true)

/-- No state and no command stops the block: errors are statuses, events and blot bits (R248, R324). -/
def Obligations.EveryStepAnswers : Prop :=
  ∀ s : State, ∃ t, step s = .next t

/-- No command touches the queue (the model's own, log 10) or the ordering code, and none forgets that a LEGAL key has
been valid (R211). -/
def Obligations.QueueAndOrderingCodeKept : Prop :=
  ∀ (c : Instr) (s t : State), exec c s = .next t →
    t.pending = s.pending ∧ t.dev.variant = s.dev.variant ∧ (s.scr.legalEver = true → t.scr.legalEver = true)

/-- Every step keeps the parameter stores in canonical form: equal parameters are equal data. The model's own: log 3
(DESIGN CHOICE). -/
def Obligations.StoresStayCanonical : Prop :=
  ∀ s t : State, s.storesWf = true → step s = .next t → t.storesWf = true

/-- At reset the parameter stores are canonical, and every word reads its reset value (R399). -/
def Obligations.ResetStoresCanonical : Prop :=
  State.reset.storesWf = true ∧ ∀ r : Reg, State.reset.asked r = resetWord r.addr ∧ State.reset.live r = resetWord r.addr

/-- A stored word reads back as asked, others keep theirs; it is in force at once unless it waits for the boundary
(R397, R402). -/
def Obligations.WordReadsBackAsWritten : Prop :=
  ∀ (s : State) (r q : Reg) (w : Word),
    (s.store r w).asked q = (if q.addr = r.addr then w else s.asked q) ∧
    (r.atBoundary = true → (s.store r w).live q = s.live q) ∧
    (r.atBoundary = false → (s.store r w).live q = if q.addr = r.addr then w else s.live q)

/-- Every word of the parameter map is found at its own address (R395, R396, R400). -/
def Obligations.AddressMapRoundTrip : Prop :=
  ∀ r : Reg, r ≠ .reserved → regOf r.addr = r ∧ r.addr % 4 = 0 ∧ r.addr < 0xF0000

/-- What completing an admitted command of an open session does (R197, R200, R216): its reply waits last on the port,
nothing else moves. The model's own: log 27 (DEDUCED). -/
def Obligations.CompletionWaitsOnItsPort : Prop :=
  ∀ (op : Nat) (r : Req) (st : Status) (payload : List Byte) (s : State),
    s.answerable op r = true → ((s.entry? op r).map Entry.hello).getD (op = 2) = false →
    let t := s.complete op r st payload
    (∃ x : Reply, t.scr.ports[portIdx r.port].done = s.scr.ports[portIdx r.port].done ++ [x] ∧
      x.imm = false ∧ x.hello = false ∧ x.session = r.session.val ∧ x.queue = r.queue.val ∧ x.tag = r.tag.val ∧
      x.opcode = op ∧ x.status = st ∧ x.payload = payload ∧
      x.seq = ((s.session? r.session).map Session.devSeq).getD 0) ∧
    (∀ p, portIdx p ≠ portIdx r.port → t.scr.ports[portIdx p] = s.scr.ports[portIdx p]) ∧
    (∀ x, s.session? r.session = some x → ∃ y, t.session? r.session = some y ∧ y.devSeq = x.devSeq + 1) ∧
    t.cfg = s.cfg ∧ t.eff = s.eff ∧ t.chans = s.chans ∧ t.pts = s.pts ∧ t.buses = s.buses ∧ t.tb = s.tb ∧
    t.mcal = s.mcal ∧ t.fol = s.fol ∧ t.ev = s.ev ∧ t.pwr = s.pwr ∧ t.anv = s.anv ∧ t.cld = s.cld ∧ t.grd = s.grd ∧
    t.pnl = s.pnl ∧ t.trim = s.trim

/-- A host command that cannot run yet leaves the state as it is (R217, R219; log 6). -/
def Obligations.HeldCommandsChangeNothing : Prop :=
  ∀ (c : Instr) (op : Nat) (r : Req) (s : State), hostOf c = some (op, r) → s.ready op r = false → exec c s = .next s

/-- A frame that fails a step of R213 is rejected with that step's status, step by step (R200, R212 to R215). The
model's own: log 26, 27 (DEDUCED). -/
def Obligations.RejectionsComeInOrder : Prop :=
  (∀ (p : Port) (x : Reply) (s : State), let t := s.reject p x
    t.scr.sessions = s.scr.sessions ∧ t.scr.queues = s.scr.queues ∧ t.scr.tags = s.scr.tags ∧ t.scr.admitted = s.scr.admitted ∧
    t.fol = s.fol ∧ t.cfg = s.cfg ∧ t.eff = s.eff ∧ t.ev = s.ev ∧
    t.scr.ports[portIdx p].done = s.scr.ports[portIdx p].done ∧
    (s.scr.ports[portIdx p].imm = none → t.scr.ports[portIdx p].imm = some x) ∧
    (∀ y, s.scr.ports[portIdx p].imm = some y → t.scr.ports[portIdx p].imm = some y ∧
      t.scr.ports[portIdx p].immLost = sat 0xFF (s.scr.ports[portIdx p].immLost + 1))) ∧
  (∀ (h : Header) (st : Status), let x := h.rejection st
    x.imm = true ∧ x.status = st ∧ x.payload = [] ∧ x.opcode = h.opcode ∧ x.tag = h.tag ∧ x.session = h.session ∧
      x.queue = h.queue ∧ x.seq = h.seq) ∧
  (∀ (spi : Bool) (bs : List Byte) (h : Header),
    let size := bs.length < 20 ∨ 4132 < bs.length ∨ h.magic ≠ 0xC5 ∨ (spi = true ∧ bs.length ≠ h.size)
    let crc := crc32c (bs.take (bs.length - 4)) ≠ BitVec.ofNat 32 (field bs (bs.length - 4) 4)
    let form := h.top = true ∨ h.tagTop = true ∨ h.flags / 2 % 4 ≠ 0 ∨ 4096 < h.length ∨ bs.length ≠ h.size
    (size → frameFault spi bs h = some .badFrame) ∧
    (¬size → crc → frameFault spi bs h = some .crcError) ∧
    (¬size → ¬crc → h.version ≠ 1 → frameFault spi bs h = some .badVersion) ∧
    (¬size → ¬crc → h.version = 1 → form → frameFault spi bs h = some .badFrame) ∧
    (¬size → ¬crc → h.version = 1 → ¬form → frameFault spi bs h = none)) ∧
  (∀ (h : Header) (s : State), h.isHello = false →
    let cfg := s.live (.queCfg h.qid)
    let mine := s.scr.tags.filter fun t => !t.hello && t.session = h.sid && !t.dead
    let taken := ∃ t ∈ mine, t.tag = h.tid
    let entries := s.scr.queues[h.qid].entries
    let full := fld cfg 21 16 ≤ (entries.filter fun e => !e.hello && e.session = h.sid && !e.dead).length
    let pool := 128 ≤ s.scr.tags.length ∨ fld (s.live .sesCfg) 15 8 ≤ mine.length
    (taken → s.roomFault h = some .tagInUse) ∧
    (¬taken → full → s.roomFault h = some .noCredit) ∧
    (¬taken → ¬full → fld cfg 6 0 ≤ entries.length → s.roomFault h = some .queueFull) ∧
    (¬taken → ¬full → entries.length < fld cfg 6 0 → pool → s.roomFault h = some .noTag) ∧
    (¬taken → ¬full → entries.length < fld cfg 6 0 → ¬pool → s.roomFault h = none)) ∧
  (∀ (p : Port) (bytes : List Byte) (s : State), s.serving = true →
    let s1 := s.onWire p bytes
    (frameIn p bytes = none → exec (.frameReceive p bytes []) s = .next (s1.reject p ((headerOf []).rejection .badFrame))) ∧
    ∀ bs, frameIn p bytes = some bs →
      let h := headerOf bs
      let ends := fun (st : Status) (t : State) => exec (.frameReceive p bytes []) s = .next (t.reject p (h.rejection st))
      (∀ st, frameFault (isSpi p) bs h = some st → ends st s1) ∧
      (frameFault (isSpi p) bs h = none →
        (h.isHello = true → (h.opcode = 2 && s.queueServes h.qid p && bit (s.live (.queCfg h.qid)) 30) = false →
          ends .queueDenied s1) ∧
        (h.isHello = false → (∀ x, s.session? h.sid = some x → x.port ≠ p) → ends .noSession s1) ∧
        ∀ x, h.isHello = false → s.session? h.sid = some x → x.port = p →
          (h.isSec ≠ x.secured ∨ x.corrupt = true ∨ x.opened h bs = none →
            let s2 := (s1.onSession x.id fun y => { y with authFail := y.authFail + 1 }).reject p (h.rejection .authFail)
            exec (.frameReceive p bytes []) s = .next (if 8 ≤ x.authFail + 1 then (s2.endSession x.id 2).settle else s2)) ∧
          (h.isSec = x.secured → x.corrupt = false → (x.opened h bs).isSome = true →
            let s2 := s1.onSession x.id fun y => { y with authFail := 0 }
            (h.seq ≤ x.hostSeq →
              let s3 := s2.reject p (h.rejection .seqError)
              exec (.frameReceive p bytes []) s = .next
                (if x.hostSeq = 2 ^ 32 - 1 then (s3.endSession x.id 3).settle else s3)) ∧
            (x.hostSeq < h.seq → ∃ s3 : State,
              s3.scr = (s2.onSession x.id fun y => { y with hostSeq := h.seq }).scr ∧
              s3.intc.targets[2 + (portIdx p).val].base = h.prio ∧ s3.fol = s.fol ∧ s3.cfg = s.cfg ∧ s3.eff = s.eff ∧
              s3.ev = s.ev ∧
              ((x.qmask.getLsbD h.queue && s.queueServes h.qid p && s.queueAdmits h.qid x.role) = false →
                ends .queueDenied s3) ∧
              ((x.qmask.getLsbD h.queue && s.queueServes h.qid p && s.queueAdmits h.qid x.role) = true →
                ((opRow? h.opcode).isNone = true → ends .badOpcode s3) ∧
                ((opRow? h.opcode).isSome = true → permitted h.opcode x.role = false → ends .denied s3) ∧
                ((opRow? h.opcode).isSome = true → permitted h.opcode x.role = true →
                  (s.roomFault h = some .tagInUse → ends .tagInUse s3) ∧
                  ∀ st, s.roomFault h = some st → st ≠ .tagInUse →
                    ends st (s3.onQue h.qid fun q => { q with reject := sat 0xFFFF (q.reject + 1) })))))))

/-- While ISOLATE is in force, act commands of OPERATOR and SERVICE complete with ISOLATED (R228, R353). -/
def Obligations.IsolateClosesActCommands : Prop :=
  ∀ (c : Instr) (op : Nat) (r : Req) (s : State), hostOf c = some (op, r) → s.ready op r = true →
    permitted op r.role = true → s.isolated = true → isAct op = true → r.role = .operator ∨ r.role = .service →
    exec c s = .next ((s.woken op).fail op r .isolated)

/-- NOP, SESSION_OPEN, SESSION_CLOSE and SET_PRIORITY, served (R209, R230, R286). The model's own: log 8 (DEDUCED);
log 1 (DESIGN CHOICE); log 11 (PRESUMED). -/
def Obligations.SessionCommandsComplete : Prop :=
  (∀ (r : Req) (payload : List Byte) (s : State), s.served 0x0001 r = true →
    exec (.nop r payload) s = .next (s.ok 0x0001 r payload)) ∧
  (∀ (r : Req) (payload : List Byte) (s : State), s.served 0x0002 r = true →
    (s.woken 0x0002).openFault r (fit 152 payload) = none →
    ∃ x : Session, x.port = r.port ∧ roleCode x.role = field (fit 152 payload) 0 1 ∧
      x.secured = decide (field (fit 152 payload) 1 1 % 2 = 1) ∧ x.qmask = wordAt (fit 152 payload) 4 ∧
      x.hostSeq = 0 ∧ x.devSeq = 0 ∧ x.closing = none ∧
      x.keys = (if x.secured then sessionKeys x.id.val s.draws x.role (fit 152 payload) else ([], [])) ∧
      (∀ y ∈ s.scr.sessions, y.id ≠ x.id) ∧
      let s0 := s.woken 0x0002
      let s1 : State := { s0 with draws := s0.draws + 1, scr := { s0.scr with sessions := s0.scr.sessions ++ [x] } }
      let provisioned := x.secured && s0.provision x.role r.port (((fit 152 payload).drop 88).take 64)
      exec (.sessionOpen r payload) s = .next
        ((if provisioned then s1.raise .sesProvision .device (le 1 (portIdx r.port).val) else s1).ok 0x0002 r
          (openReply x.id.val s0.draws x.secured s0.grd.quenched (fit 152 payload)))) ∧
  (∀ (r : Req) (s : State), s.served 0x0003 r = true →
    exec (.sessionClose r) s = .next
      (((s.woken 0x0003).onSession r.session fun x => { x with closing := some r.tag }).ok 0x0003 r []).settle) ∧
  (∀ (r : Req) (prio : Byte) (s : State), s.served 0x0004 r = true → prio.toNat ≤ 15 →
    exec (.setPriority r prio) s = .next
      ((({ s with intc := { s.intc with
          targets := upd s.intc.targets ⟨2 + (portIdx r.port).val, by omega⟩ fun g => { g with base := prio.toNat } } }).route).ok
        0x0004 r []))

/-- FOLIO_READ, FOLIO_SEAL_GET, PARAM_READ, SC_READ and BLOT_READ, served (R191 to R196, R231, R232, R234, R239). The
model's own: log 50 (DEDUCED). -/
def Obligations.FolioReadsComplete : Prop :=
  (∀ (r : Req) (sel : Selector) (offset length : Nat) (errs : List (Nat × Word)) (f : Folio) (s : State),
    s.served 0x0101 r = true → rangeFits offset length 4088 163840 = true → s.namedFor 0x0101 r sel = .folio f →
    (∀ e ∈ errs, e.1 < offset ∨ offset + length ≤ e.1) →
    exec (.folioRead r sel offset length errs) s = .next
      (if s.broken f offset length then s.fail 0x0101 r .eccError
       else s.ok 0x0101 r (numberBytes f.number ++ (f.bytes.drop offset).take length))) ∧
  (∀ (r : Req) (sel : Selector) (offset length : Nat) (e : Nat × Word) (f : Folio) (s : State), s.served 0x0101 r = true →
    rangeFits offset length 4088 163840 = true → s.namedFor 0x0101 r sel = .folio f →
    offset ≤ e.1 → e.1 < offset + length →
    exec (.folioRead r sel offset length [e]) s = .next
      (((s.spoilFolio f.number e.1 e.2).note .sramUncorr .eccUncorr .device (le 1 0 ++ zeros 3 ++ le 4 e.2.toNat)).fail
        0x0101 r .eccError)) ∧
  (∀ (r : Req) (sel : Selector) (f : Folio) (s : State), s.served 0x0106 r = true →
    let s0 := s.woken 0x0106
    s0.namedFor 0x0106 r sel = .folio f → s.grd.quenched = false → f.flags % 16 < 8 →
    exec (.folioSealGet r sel) s = .next (s0.ok 0x0106 r
      (numberBytes f.number ++ sha256 f.billingSection
        ++ be 32 (sealSign (beNat (sha256 f.billingSection))).1
        ++ be 32 (sealSign (beNat (sha256 f.billingSection))).2))) ∧
  (∀ (r : Req) (addr count : Nat) (s : State), s.served 0x0201 r = true → rangeOk addr count = true →
    (∀ i < count, (regOf (addr + 4 * i)).captured = false) →
    exec (.paramRead r addr count) s = .next
      (s.ok 0x0201 r (numberBytes noNumber ++ wordBytes (s.readRange none addr count)))) ∧
  (∀ (r : Req) (addr count : Nat) (f : Folio) (s : State), s.served 0x0201 r = true → rangeOk addr count = true →
    (∃ i < count, (regOf (addr + 4 * i)).captured = true) → s.namedFor 0x0201 r .latest = .folio f →
    (∀ i < count, (regOf (addr + 4 * i)).captured = true → s.broken f (folioOffset (regOf (addr + 4 * i))) 4 = false) →
    exec (.paramRead r addr count) s = .next
      (s.ok 0x0201 r (numberBytes f.number ++ wordBytes (s.readRange (some f) addr count)))) ∧
  (∀ (r : Req) (sel : Selector) (first count : Nat) (f : Folio) (s : State), s.served 0x0203 r = true →
    0 < count → count ≤ 92 → first + count ≤ 128 → s.namedFor 0x0203 r sel = .folio f →
    exec (.scRead r sel first count) s = .next
      (if s.broken f (0x300 + 256 * first) (256 * count) then s.fail 0x0203 r .eccError
       else s.ok 0x0203 r
        (numberBytes f.number ++ ((span first count).filterMap (idx? 128)).flatMap f.img.shortCounters))) ∧
  (∀ (r : Req) (f : Folio) (s : State), s.served 0x0501 r = true → s.namedFor 0x0501 r .latest = .folio f →
    exec (.blotRead r) s = .next
      (if s.broken f 0x24590 16 then s.fail 0x0501 r .eccError
       else s.ok 0x0501 r (numberBytes f.number ++ le 16 f.img.blots.toNat)))

/-- Leases and the demanded cut, whose number stands after an owed block cut's (log 45) (R182, R183, R188 to R190,
R231). -/
def Obligations.LeaseCommandsComplete : Prop :=
  (∀ (r : Req) (sel : Selector) (duration lease : Nat) (st : Status) (bs : List Byte) (s : State),
    (s.served 0x0102 r = true → s.settled 0x0102 r = some (.reply st bs) →
      exec (.folioLease r sel duration) s = .next (s.complete 0x0102 r st bs)) ∧
    (s.served 0x0103 r = true → s.settled 0x0103 r = some (.reply st bs) →
      exec (.folioRenew r lease duration) s = .next (s.complete 0x0103 r st bs)) ∧
    (s.served 0x0104 r = true → s.settled 0x0104 r = some (.reply st bs) →
      exec (.folioRelease r lease) s = .next (s.complete 0x0104 r st bs)) ∧
    (s.served 0x0105 r = true → s.settled 0x0105 r = some (.reply st bs) →
      exec (.folioCut r) s = .next (s.complete 0x0105 r st bs))) ∧
  (∀ (r : Req) (sel : Selector) (duration d : Nat) (f : Folio) (s : State), s.served 0x0102 r = true →
    s.settled 0x0102 r = none → (∀ id, sel ≠ .lease id) → s.leaseTime duration = some d →
    s.named r.session sel = .folio f → s.fol.leases.length < 1024 →
    f.number ∈ s.fol.held ∨ s.fol.held.length < s.fol.limit →
    ∃ l : Lease, l.session = r.session ∧ l.folio = f.number ∧ l.duration = d ∧
      exec (.folioLease r sel duration) s = .next
        ({ s with
          draws := s.draws + 1
          fol := { s.fol with leases := s.fol.leases ++ [l], used := (r.session, l.id) :: s.fol.used } }.ok 0x0102 r
            (leaseReply l))) ∧
  (∀ (r : Req) (lease duration d : Nat) (l : Lease) (s : State), s.served 0x0103 r = true →
    s.settled 0x0103 r = none → s.leaseTime duration = some d →
    s.fol.leases.find? (Lease.isOf r.session lease) = some l →
    exec (.folioRenew r lease duration) s = .next
      ({ s with fol := { s.fol with
          leases := s.fol.leases.map fun (x : Lease) => if Lease.isOf r.session lease x then { x with duration := d } else x } }.ok
        0x0103 r (leaseReply { l with duration := d }))) ∧
  (∀ (r : Req) (lease : Nat) (s : State), s.served 0x0104 r = true → s.settled 0x0104 r = none →
    (s.fol.leases.any (Lease.isOf r.session lease)) = true →
    exec (.folioRelease r lease) s = .next ((s.endLease r.session lease).ok 0x0104 r [])) ∧
  (∀ (r : Req) (s : State), s.served 0x0105 r = true → s.settled 0x0105 r = none → s.dev.startup.restored = true →
    exec (.folioCut r) s = .next
      ({ s with fol := { s.fol with asked := true } }.ok 0x0105 r
        (numberBytes (if s.blockPending && !s.cutHere then (s.fol.next + 1) % 2 ^ 48 else s.fol.next)
          ++ numberBytes (s.tb.cycle + 1)))) ∧
  (∀ (session : Fin 1024) (lease : Nat) (s : State),
    exec (.leaseExpiry session lease) s = .next
      { s with fol := ({ s.fol with leases := s.fol.leases.filter fun l => !Lease.isOf session lease l }).reclaim })

/-- The commands on records, served (R118, R119, R158, R170, R236, R237, R325). The model's own: log 29, 30, 39, 105
(DEDUCED). -/
def Obligations.RecordCommandsComplete : Prop :=
  (∀ (r : Req) (number : Nat) (s : State), s.served 0x0301 r = true → number < s.ev.next →
    (s.ev.ring.head?.map Event.number).getD s.ev.next ≤ number →
    let out := takeWhole (fun e => e.bytes.length) 4088 (s.ev.ring.filter fun e => number ≤ e.number)
    exec (.eventRead r number) s = .next
      (if out.any fun e => s.ev.bad.contains e.number then s.fail 0x0301 r .eccError
       else s.ok 0x0301 r (le 6 s.ev.newest ++ le 2 (ringUsed out) ++ out.flatMap Event.bytes))) ∧
  (∀ (r : Req) (number : Nat) (s : State), s.served 0x0302 r = true → number < s.ev.next →
    exec (.eventAck r number) s = .next
      (let s0 := s.woken 0x0302
       let ack := max (s.ev.ack.getD 0) number
       let lower := (s.ev.ack.map fun a => decide (number < a)).getD false
       { s0 with ev := { s0.ev with ack := some ack, lossNoted := s0.ev.lossNoted && lower } }.ok 0x0302 r
         (numberBytes ack))) ∧
  (∀ (r : Req) (number count : Nat) (x : ProfRec) (rest : List ProfRec) (s : State), s.served 0x0303 r = true →
    1 ≤ count → count ≤ 3 → number < s.prof.next →
    (consecutive number (s.prof.ring.filter fun x => number ≤ x.number)).take count = x :: rest →
    let out := takeWhole (fun x => x.bytes.length) 4088 (x :: rest)
    exec (.profileRead r number count) s = .next
      (if out.any ProfRec.bad then s.fail 0x0303 r .eccError
       else s.ok 0x0303 r (le 1 out.length ++ zeros 7 ++ out.flatMap ProfRec.bytes))) ∧
  (∀ (r : Req) (number : Nat) (s : State), s.served 0x0304 r = true → s.prof.newest ≠ noNumber → number ≤ s.prof.newest →
    exec (.profileAck r number) s = .next
      (let s0 := s.woken 0x0304
       let ack := max (if s.prof.ack = noNumber then 0 else s.prof.ack) number
       let lower : Bool := s.prof.ack ≠ noNumber && number < s.prof.ack
       { s0 with prof := { s0.prof with
           ack := ack, lossNoted := s0.prof.lossNoted && lower, runs := ackRuns ack s0.prof.runs } }.ok 0x0304 r
         (numberBytes ack))) ∧
  (∀ (r : Req) (number offset length : Nat) (x : WbSet) (s : State), s.served 0x0305 r = true →
    0 < length → rangeFits offset length 4088 11200 = true → number < s.wb.next →
    (s.wb.ring.find? fun x => x.number = number) = some x →
    exec (.wbRead r number offset length) s = .next
      (if badIn x.bad offset length then s.fail 0x0305 r .eccError
       else s.ok 0x0305 r (numberBytes number ++ (x.bytes.drop offset).take length))) ∧
  (∀ (r : Req) (number offset length : Nat) (i : Fin 2) (s : State), s.served 0x0306 r = true →
    rangeFits offset length 4088 524288 = true → number < s.pq.next → s.pq.holds number = some i →
    s.pq.caps[i].st ≠ .filling →
    exec (.capRead r number offset length) s = .next
      (if badIn s.pq.caps[i].bad offset length then s.fail 0x0306 r .eccError
       else s.ok 0x0306 r (numberBytes number ++ (s.pq.caps[i].bytes.drop offset).take length))) ∧
  (∀ (r : Req) (i : Fin 2) (s : State), s.served 0x0307 r = true →
    let s0 := s.woken 0x0307
    let s1 := s0.trigger s0.stampNow 10
    s1.pq.runningAt s0.stampNow = some i →
    exec (.capTrigger r) s = .next (s1.ok 0x0307 r (numberBytes s1.pq.caps[i].number))) ∧
  (∀ (r : Req) (i : Fin 2) (s : State), s.served 0x0307 r = true → s.pq.runningAt s.stampNow = some i →
    s.pwr.pfail = false →
    ∃ t : State, t.pq.caps = upd s.pq.caps i (Capture.list (s.stampNow, 10)) ∧
      exec (.capTrigger r) s = .next (t.ok 0x0307 r (numberBytes s.pq.caps[i].number))) ∧
  (∀ (r : Req) (number : Nat) (i : Fin 2) (s : State), s.served 0x0308 r = true → s.pq.holds number = some i →
    s.pq.caps[i].st ≠ .filling →
    exec (.capRelease r number) s = .next
      (let s0 := s.woken 0x0308
       { s0 with pq := { s0.pq with caps := upd s0.pq.caps i fun _ => .free } }.ok 0x0308 r [])) ∧
  (∀ (r : Req) (number count : Nat) (x : LogRec) (rest : List LogRec) (s : State), s.served 0x0309 r = true →
    1 ≤ count → count ≤ 127 → number < s.anv.logNext →
    (s.anv.log.dropWhile fun x => x.number ≠ number) = x :: rest →
    let out := (x :: rest).take count
    exec (.logRead r number count) s = .next
      (if out.any LogRec.bad then (s.woken 0x0309).fail 0x0309 r .eccError
       else (s.woken 0x0309).ok 0x0309 r (le 6 s.anv.logNewest ++ le 2 out.length ++ out.flatMap LogRec.bytes)))

/-- Commits, resolves, demand resets wait for the boundary; CAL_PENDING_READ and PULSE_TEST act at once (R238). The
model's own: log 29, 32, 33, 44 (DEDUCED). -/
def Obligations.MeteringCommandsComplete : Prop :=
  (∀ (r : Req) (mask : BitVec 128) (s : State), s.served 0x0401 r = true → mask ≠ 0 →
    (s.mcal.resets.any fun x => x.1 = some r) = false →
    exec (.demandReset r mask) s = .next
      (let s0 := s.woken 0x0401
       { s0 with mcal := { s0.mcal with resets := s0.mcal.resets ++ [(some r, mask)] } })) ∧
  (∀ (r : Req) (digest : List Byte) (s : State), s.served 0x0402 r = true →
    (s.mcal.waiting.any fun x => x.req = some r) = false → fit 32 digest = s.mcal.staged.digest →
    exec (.calCommit r digest) s = .next
      (let s0 := s.woken 0x0402
       { s0 with mcal := { s0.mcal with waiting := s0.mcal.waiting ++ [⟨some r, s.mcal.staged.digest⟩] } })) ∧
  (∀ (r : Req) (point : Fin 128) (select : Nat) (s : State), s.served 0x0403 r = true → select ≤ 2 →
    exec (.calPendingRead r point.val select) s = .next
      (let x := s.pts[point]
       (s.woken 0x0403).ok 0x0403 r (le 1 point.val ++ le 1 (x.sumsFor select).1
         ++ le 1 (flag 0 x.pending.any + flag 1 x.unrec.any) ++ zeros 5 ++ (x.sumsFor select).2.bytes))) ∧
  (∀ (r : Req) (mask : BitVec 128) (action : Nat) (s : State), s.served 0x0404 r = true → mask ≠ 0 → action ≤ 1 →
    (s.mcal.resolves.any fun x => x.req = some r) = false →
    exec (.calPendingResolve r mask action) s = .next
      (let s0 := s.woken 0x0404
       { s0 with mcal := { s0.mcal with
           resolves := s0.mcal.resolves ++ [⟨some r, (maskPoints mask).map Fin.val, decide (action = 0)⟩] } })) ∧
  (∀ (r : Req) (mask : BitVec 8) (ten : Bool) (tconst : Word) (s : State), s.served 0x0405 r = true →
    mask = 0 ∨ (0 < tconst.toNat ∧ tconst.toNat ≤ 1000000) →
    exec (.pulseTest r mask ten tconst) s = .next
      (let outs := (List.finRange 8).filter fun n => mask.getLsbD n.val
       let w := word (flag 31 ten + put 19 0 tconst.toNat)
       (chain outs (fun n s => s.store (.pulTest n) w) (s.woken 0x0405)).ok 0x0405 r
         (le 6 (s.woken 0x0405).nextBoundary ++ zeros 2)))

/-- Device management, served (R19, R239, R240, R241, R318, R321). The model's own: log 29, 58, 60 (DEDUCED); log 95
(DESIGN CHOICE). -/
def Obligations.ManagementCommandsComplete : Prop :=
  (∀ (r : Req) (mask : BitVec 128) (s : State), s.served 0x0502 r = true → (blotsOf mask).all (blotRole r.role) = true →
    exec (.blotClear r mask) s = .next
      (let s0 := s.woken 0x0502
       let gone := blotMask ((blotsOf mask).filter fun n => !s0.blotHolds n) &&& s0.anv.blots
       let left := s0.anv.blots &&& ~~~gone
       ({ s0 with anv := { s0.anv with blots := left } }.raise .blotCleared .device (le 16 gone.toNat)).ok 0x0502 r
         (le 16 (left &&& blotMask (blotsOf mask)).toNat))) ∧
  (∀ (r : Req) (s : State), s.served 0x0503 r = true → s.dev.st = .run → s.commitRuns = false →
    exec (.bankEnter r) s = .next
      ({ s with dev := { s.dev with bankAt := true } }.ok 0x0503 r (numberBytes s.nextBoundary))) ∧
  (∀ (r : Req) (s : State), s.served 0x0503 r = true → s.dev.st = .banked →
    exec (.bankEnter r) s = .next (s.ok 0x0503 r (numberBytes s.dev.bankedFrom))) ∧
  (∀ (r : Req) (s : State), s.served 0x0504 r = true →
    exec (.bankExit r) s = .next
      (let s0 := s.woken 0x0504
       { s0 with dev := { s0.dev with bankAt := false } }.ok 0x0504 r [])) ∧
  (∀ (r : Req) (scope : Nat) (s : State), s.served 0x0505 r = true → scope ≤ 2 →
    exec (.softReset r scope) s = .next
      (let s0 := s.woken 0x0505
       ({ s0 with dev := { s0.dev with softReset := s0.dev.softReset ++ [(scope, r.tag, r.session)] } }.ok 0x0505 r []).settle)) ∧
  (∀ (r : Req) (input : Fin 16) (code : BitVec 12) (s : State), s.served 0x0506 r = true →
    exec (.auxRead r input.val code) s = .next
      (let s0 := s.woken 0x0506
       s0.ok 0x0506 r (le 2 code.toNat ++ zeros 2
         ++ le 4 (toF32 (auxValue input s0.pnl.railSel (code.toNat : Rat))).toNat ++ s0.stampNow.bytes))) ∧
  (∀ (r : Req) (s : State), s.served 0x0507 r = true → s.holdsLock r.session = true → s.anv.saveDue = none →
    exec (.cfgSave r) s = .next
      (let s0 := s.woken 0x0507
       { s0 with anv := { s0.anv with saveDue := some (some r) } })) ∧
  (∀ (r : Req) (duration : Nat) (s : State), s.served 0x0508 r = true → 1 ≤ duration → duration ≤ 60 →
    s.scr.inkLock = none ∨ s.holdsLock r.session = true →
    exec (.inkLock r duration) s = .next
      (let s0 := s.woken 0x0508
       { s0 with scr := { s0.scr with inkLock := some (r.session, duration, s0.now) } }.ok 0x0508 r
         (le 2 duration ++ zeros 2))) ∧
  (∀ (r : Req) (s : State), s.served 0x0509 r = true → s.holdsLock r.session = true →
    exec (.inkUnlock r) s = .next
      (let s0 := s.woken 0x0509
       let s1 := s0.keepActivations r.session
       { s1 with scr := { s1.scr with inkLock := none } }.ok 0x0509 r []))

/-- Firmware update for the holder of the Inkwell lock (R240, R242, R328 to R330). The model's own: log 58 (DEDUCED);
log 1, 97 (DESIGN CHOICE); log 25 (PRESUMED). -/
def Obligations.FirmwareCommandsComplete : Prop :=
  (∀ (r : Req) (length : Nat) (s : State), s.served 0x0601 r = true → s.holdsLock r.session = true →
    s.anv.fw ≠ .trial → 1 ≤ length → length ≤ 1048576 →
    exec (.fwBegin r length) s = .next
      (let s0 := s.woken 0x0601
       { s0 with anv := { s0.anv with
           slots := upd s0.anv.slots s0.anv.spareSlot fun _ => ⟨[], length, false, []⟩, fw := .loading } }.ok 0x0601 r [])) ∧
  (∀ (r : Req) (offset : Nat) (data : List Byte) (s : State), s.served 0x0602 r = true → s.holdsLock r.session = true →
    s.anv.fw = .loading → offset % 8 = 0 → data.length ≤ 4088 →
    offset + data.length ≤ s.anv.slots[s.anv.spareSlot].length →
    exec (.fwWrite r offset data) s = .next
      (let s0 := s.woken 0x0602
       let bs := s0.anv.slots[s0.anv.spareSlot].bytes
       { s0 with anv := { s0.anv with slots := upd s0.anv.slots s0.anv.spareSlot fun x =>
           { x with image := bs.take offset ++ data ++ bs.drop (offset + data.length) } } }.ok 0x0602 r [])) ∧
  (∀ (r : Req) (s : State), s.served 0x0603 r = true → s.holdsLock r.session = true → s.anv.fw = .loading →
    let s0 := s.woken 0x0603
    let x := s0.anv.slots[s0.anv.spareSlot]
    (s0.imagePasses x = true → exec (.fwVerify r) s = .next
      ({ s0 with anv := { s0.anv with
          slots := upd s0.anv.slots s0.anv.spareSlot fun x' => { x' with verified := true, hash := sha384 x.bytes }
          fw := .verified } }.ok 0x0603 r
        (le 4 x.version.toNat ++ le 1 (flag 0 (s0.cosigned x)) ++ zeros 3 ++ sha384 x.bytes))) ∧
    (s0.imagePasses x = false → exec (.fwVerify r) s = .next (s0.fail 0x0603 r .sigFail))) ∧
  (∀ (r : Req) (s : State), s.served 0x0604 r = true → s.anv.fw = .verified →
    let s0 := s.woken 0x0604
    let i := s0.anv.spareSlot
    let x := s0.anv.slots[i]
    s0.holdsLock r.session = true ∨ s0.settled 0x0604 r = some (.judged true) →
    x.verified = true → sha384 x.bytes = x.hash →
    let s1 := { s0 with anv := { s0.anv with
        slot := i.val, active := i.val, fallback := s0.anv.running, version := x.version, fw := .trial
        trialLeft := s0.now } }.restartCores.raise .fwActivated .device
      (le 4 s0.anv.version.toNat ++ le 4 x.version.toNat ++ le 1 i.val)
    (Config.freeNat s.draws % 2 = 0 →
      exec (.fwActivate r) s = .next (({ s1 with draws := s.draws + 1 }).ok 0x0604 r (le 4 x.version.toNat))) ∧
    (Config.freeNat s.draws % 2 = 1 → ∃ t : State,
      exec (.fwActivate r) s = .next (t.ok 0x0604 r (le 4 x.version.toNat)) ∧ t.anv.fw = .idle ∧
      t.anv.active = (slotIdx s.anv.running).val ∧ t.anv.slots[i].verified = false ∧
      t.anv.blots &&& blotBit .fwReverted = blotBit .fwReverted)) ∧
  (∀ (r : Req) (s : State), s.served 0x0604 r = true → s.anv.fw = .verified →
    let s0 := s.woken 0x0604
    let x := s0.anv.slots[s0.anv.spareSlot]
    s0.holdsLock r.session = true → (x.verified = false ∨ sha384 x.bytes ≠ x.hash) →
    exec (.fwActivate r) s = .next ({ s0 with anv := { s0.anv with fw := .loading } }.fail 0x0604 r .sigFail)) ∧
  (∀ s : State, s.powered = true → s.anv.fw = .trial → s.pwr.pfail = true →
    exec .fwTrialEnd s = .next { s with anv := { s.anv with trialOver := some (s.anv.trialOver.getD true) } }) ∧
  (∀ s : State, s.powered = true → s.anv.fw = .trial → s.pwr.pfail = false →
    exec .fwTrialEnd s = .next
      (let x := s.anv.slots[slotIdx s.anv.active]
       { s with anv := { s.anv with
           slots := upd s.anv.slots (slotIdx s.anv.fallback) fun y => { y with verified := false }
           fw := .idle, epoch := x.epoch } }.raise .fwCommitted .device (le 4 x.version.toNat ++ le 1 x.epoch)))

/-- Sets, steps, slews and alarm acknowledgements of the calendar, served (R243, R338 to R343). The model's own: log
21, 47 (DEDUCED). -/
def Obligations.CalendarCommandsComplete : Prop :=
  (∀ (r : Req) (f : CldFields) (s : State), s.served 0x0701 r = true → cldOk f = true →
    ∃ s1 : State, exec (.cldSet r f) s = .next (s1.ok 0x0701 r (le 4 s1.cld.adjSeq ++ zeros 4)) ∧
      s1.cld.time = cldTime f ∧ s1.cld.ahead = 0 ∧ s1.cld.dow = ofBcd f.dow ∧ s1.cld.lost = false ∧
      s1.cld.valid = decide (calCounts (cldTime f) + 1 < calEnd) ∧ s1.cld.range = decide (calEnd ≤ calCounts (cldTime f) + 1) ∧
      s1.cld.slew = 0 ∧ s1.cld.adjSeq = (s.cld.adjSeq + 1) % 2 ^ 32 ∧ s1.flt.calStop = false) ∧
  (∀ (r : Req) (amount : Int) (s : State), s.served 0x0702 r = true → s.cld.valid = true → amount ≠ 0 →
    amount.natAbs ≤ 2 ^ 31 → 0 ≤ (s.cld.counts : Int) + amount → (s.cld.counts : Int) + amount < calEnd →
    ∃ s1 : State, exec (.cldAdjustStep r 0 amount) s = .next (s1.ok 0x0702 r (le 4 s1.cld.adjSeq ++ zeros 4)) ∧
      s1.cld.time = calOfCounts ((s.cld.counts : Int) + amount).toNat ∧ s1.cld.ahead = 0 ∧ s1.cld.slew = 0 ∧
      s1.cld.valid = decide (calCounts s1.cld.time + 1 < calEnd) ∧
      s1.cld.adjSeq = (s.cld.adjSeq + 1) % 2 ^ 32) ∧
  (∀ (r : Req) (s : State), s.served 0x0702 r = true → s.cld.valid = true →
    ∃ s1 : State, exec (.cldAdjustStep r 0 0) s = .next (s1.ok 0x0702 r (le 4 s1.cld.adjSeq ++ zeros 4)) ∧
      s1.cld = { s.cld with adjSeq := (s.cld.adjSeq + 1) % 2 ^ 32 }) ∧
  (∀ (r : Req) (amount : Int) (s : State), s.served 0x0702 r = true → s.cld.valid = true → amount.natAbs ≤ 2 ^ 20 →
    ∃ s1 : State, exec (.cldAdjustSlew r 1 amount) s = .next (s1.ok 0x0702 r (le 4 s1.cld.adjSeq ++ zeros 4)) ∧
      s1.cld = { s.cld with slew := amount, slewing := decide (amount ≠ 0), adjSeq := (s.cld.adjSeq + 1) % 2 ^ 32 }) ∧
  (∀ (r : Req) (mask : BitVec 2) (s : State), s.served 0x0703 r = true →
    ∃ s1 : State, exec (.cldAlarmAck r mask) s = .next (s1.ok 0x0703 r []) ∧ s1.cld.wake = false ∧
      ∀ a : Fin 2, s1.cld.alarms[a] = if mask.getLsbD a.val then
        { s.cld.alarms[a] with flagged := false, skipped := false, overrun := false } else s.cld.alarms[a])

/-- The second boundary, the last count, CAL_STOPPED and SLEW_END (R275, R333 to R336, R341). The model's own: log 4,
21 (DEDUCED). -/
def Obligations.CalendarEventsComplete : Prop :=
  (∀ s : State, s.vaon = true → s.cld.range = false → s.cld.ahead ≠ 0 → ∃ t, exec .calSecondBoundary s = .next t ∧
      t.cld.time = calOfCounts ((calSeconds s.cld.time + 1) * 32768 + min 32767 (s.cld.ahead - 1)) ∧
      t.cld.ahead = s.cld.ahead - 1 - min 32767 (s.cld.ahead - 1) ∧ t.cld.valid = s.cld.valid ∧
      t.cld.dow = if (calSeconds s.cld.time + 1) % 86400 = 0 then dowPlus s.cld.dow 1 else s.cld.dow) ∧
  (∀ s : State, s.cld.range = true ∨ s.cld.ahead = 0 → exec .calSecondBoundary s = .next s) ∧
  (∀ c : Calendar, calEnd ≤ calCounts c.tick.time + 1 → c.tick.valid = false ∧ c.tick.range = true) ∧
  (∀ s : State, s.powered = true → ∃ t, exec .calStopped s = .next t ∧ t.flt.calStop = true ∧
    t.cld = { s.cld with valid := false } ∧ t.anv.blots &&& blotBit .calStopped = blotBit .calStopped) ∧
  (∀ s : State, exec .slewEnd s = .next (if s.cld.slew = 0 then { s with cld := { s.cld with slewing := false } } else s))

/-- The calendar's fields and its counts agree over the whole range (R333, R336). -/
def Obligations.CalendarCountsRoundTrip : Prop :=
  ∀ n : Nat, n < calEnd → calOk (calOfCounts n) = true ∧ calCounts (calOfCounts n) = n

/-- The guard and identity commands, served (R244, R245, R355, R356, R359, R365). The model's own: log 16, 46
(DEDUCED); log 1, 7 (DESIGN CHOICE). -/
def Obligations.GuardCommandsComplete : Prop :=
  (∀ (r : Req) (mask : BitVec 16) (s : State), s.served 0x0801 r = true →
    ∃ (c : Challenge) (s1 : State), c.session = r.session ∧ c.mask = mask ∧ c.since = 0 ∧
      s1 = { s.woken 0x0801 with
        draws := s.draws + 1
        scr := { s.scr with challenge := if s.armedAfter r then none else some c } } ∧
      exec (.grdClearArm r mask) s = .next (s1.ok 0x0801 r (le 4 c.value.toNat))) ∧
  (∀ (r : Req) (mask : BitVec 16) (challenge : BitVec 32) (c : Challenge) (s : State), s.served 0x0802 r = true →
    (s.settled 0x0802 r = none ∧ s.scr.challenge = some c ∧ c.session = r.session ∧ c.mask = mask ∧ c.value = challenge) ∨
      s.settled 0x0802 r = some (.confirms c) →
    ∃ s1 : State, exec (.grdClearConfirm r mask challenge) s = .next
        (s1.ok 0x0802 r (le 2 (guardMask (s1.guard.set mask)) ++ zeros 2)) ∧
      (s.settled 0x0802 r = none → s1.scr.challenge = none) ∧
      ∀ i : Fin 16, s1.grd.srcs[i] =
        if mask.getLsbD i.val && s.guard.srcs[i].fired && !c.since.getLsbD i.val then
          if s.grd.srcs[i].again.isSome then { s.grd.srcs[i] with iso := s.grd.srcs[i].mask.getLsbD 2, count := 1 }
          else { s.grd.srcs[i] with fired := false, iso := false, count := 0 }
        else s.grd.srcs[i]) ∧
  (∀ (r : Req) (i : Fin 12) (declares : Bool) (s : State), s.served 0x0803 r = true →
    s.guard.srcs[i.val].fused = false →
    exec (.grdTest r i.val declares) s = .next
      (let result := if declares && (i.val < 10 || s.grd.glitchOn) then 0 else 1
       ((s.woken 0x0803).raise .grdTest .device (le 1 i.val ++ le 1 result)).ok 0x0803 r (le 1 result ++ zeros 3))) ∧
  (∀ (r : Req) (offset length : Nat) (s : State), s.served 0x0804 r = true → 1 ≤ length → length ≤ 4088 →
    exec (.idCertRead r offset length) s = .next ((s.woken 0x0804).ok 0x0804 r
      (le 2 certificate.length ++ zeros 2 ++ (certificate.drop offset).take length))) ∧ certificate.length ≤ 1024 ∧
  (∀ s : State, exec .grdChallengeExpiry s = .next { s with scr := { s.scr with challenge := none } })

/-- Groups of guard declarations (R346, R348, R350 to R353, R358, R365) and a stopped GUARD clock (R274, R277). The
model's own: log 46 (DEDUCED); log 98 (DESIGN CHOICE). -/
def Obligations.GuardDeclarationsComplete : Prop :=
  let declared := fun (l : List (Fin 16)) (s t : State) => ∀ i : Fin 16, t.grd.srcs[i] = if i ∈ l then
        { s.grd.srcs[i] with
          fired := true, iso := s.grd.srcs[i].iso || s.grd.srcs[i].mask.getLsbD 2
          count := min 0xFFFF (s.grd.srcs[i].count + 1)
          again := if s.flt.guardStop then none else some (s.grd.srcs[i].again.getD s.grd.srcs[i].fired) }
      else s.grd.srcs[i]
  let keys := fun (l : List (Fin 16)) (s t : State) =>
    ((∃ i ∈ l, s.grd.srcs[i].mask.getLsbD 3 = true) →
      t.grd.kek = none ∧ t.grd.transport = false ∧ t.grd.quenched = true) ∧
    ((∀ i ∈ l, s.grd.srcs[i].mask.getLsbD 3 = false) →
      t.grd.kek = s.grd.kek ∧ t.grd.transport = s.grd.transport ∧ t.grd.quenched = s.grd.quenched)
  (∀ (g : Guard) (m : BitVec 16) (covers : List (Fin 4 × Bool)),
    (∀ i : Fin 16, i.val < 4 ∨ 8 ≤ i.val → (g.declared m covers).getLsbD i.val = m.getLsbD i.val) ∧
    ∀ k : Fin 4, (g.declared m covers).getLsbD (4 + k.val) = true ↔
      ∃ high, (k, high) ∈ covers ∧ high ≠ g.covpol.getLsbD k.val) ∧
  (∀ (onCell : Bool) (m : BitVec 16) (s : State) (i : Fin 16), i ∈ s.group onCell m ↔
    m.getLsbD i.val = true ∧ s.guard.watches onCell i = true ∧ (i = 8 → s.anv.magScans = 2)) ∧
  (∀ (m : BitVec 16) (cv : List (Fin 4 × Bool)) (s : State), s.powered = true → ∃ t, exec (.grdSource m cv) s = .next t ∧
    declared (s.group false (s.guard.declared m cv)) s t ∧ keys (s.group false (s.guard.declared m cv)) s t) ∧
  (∀ (m : BitVec 16) (cv : List (Fin 4 × Bool)) (s : State), s.powered = false → s.vaon = true → s.pwr.vbatOn = false →
    ∃ t, exec (.grdSource m cv) s = .next t ∧ declared (s.group true (s.guard.declared m cv)) s t ∧
      keys (s.group true (s.guard.declared m cv)) s t ∧ t.ev = s.ev ∧ t.intc = s.intc) ∧
  (∀ (m : BitVec 16) (cv : List (Fin 4 × Bool)) (s : State), s.pwr.vbatOn = true → s.flt.guardStop = false →
    ∃ t, exec (.cellScanPeriod m cv) s = .next t ∧
      t.grd.tick = (s.grd.tick + 1) % 2 ^ 32 ∧ t.ev = s.ev ∧ t.intc = s.intc ∧
      declared (s.group true (s.guard.declared m cv)) s t ∧ keys (s.group true (s.guard.declared m cv)) s t) ∧
  (∀ (m : BitVec 16) (cv : List (Fin 4 × Bool)) (s : State), s.flt.guardStop = true →
    exec (.cellScanPeriod m cv) s = .next s) ∧
  (∀ s : State, s.powered = true → exec .grdClock s = .next
    (({ s with
        flt := { s.flt with guardStop := true }, scr := s.scr.mark s.grd.inPeriod
        grd := { s.grd with srcs := s.grd.srcs.map fun (x : GrdSrc) => { x with next := none, again := none } } }).note
      .grdClock .grdClock .device []))

/-- The panel commands, served (R246, R247, R369, R372, R376, R378). The model's own: log 48 (DEDUCED); log 1, 99
(DESIGN CHOICE). -/
def Obligations.PanelCommandsComplete : Prop :=
  (∀ (r : Req) (t b : Nat) (data : List Byte) (s : State), s.served 0x0901 r = true → t ≤ 7 → b ≤ 7 →
    exec (.pnlTableLoad r t b false 0 data) s = .next
      (let s0 := s.woken 0x0901
       ({ s0 with pnl := { s0.pnl with staging := some (t, b, data) } }).ok 0x0901 r [])) ∧
  (∀ (r : Req) (t b : Nat) (data : List Byte) (s : State), s.served 0x0901 r = true → t ≤ 7 → b ≤ 7 →
    tableFault data = none → ∃ s1 : State, exec (.pnlTableLoad r t b true 0 data) s = .next (s1.ok 0x0901 r []) ∧
      s1.pnl.staging = none ∧ s1.pnl.table? t b = some data ∧
      ∀ t' b', (t', b') ≠ (t, b) → s1.pnl.table? t' b' = s.pnl.table? t' b') ∧
  (∀ (r : Req) (g : Fin 8) (offset : Nat) (data : List Byte) (s : State), s.served 0x0902 r = true →
    4 * (offset + data.length) ≤ regionRows s.live g * cols s.live →
    exec (.pnlImageWrite r g.val offset data) s = .next
      (let s0 := s.woken 0x0902
       ({ s0 with pnl := { s0.pnl with
            next := planePut s.pnl.next (regionStart s.live g * cols s.live + 4 * offset) (data.flatMap pixelsOf) } }).ok
         0x0902 r [])) ∧
  (∀ (r : Req) (g transition : Nat) (urgent : Bool) (st : Status) (bs : List Byte) (s : State), s.served 0x0903 r = true →
    s.settled 0x0903 r = some (.reply st bs) →
    exec (.pnlUpdate r g transition urgent) s = .next ((s.woken 0x0903).complete 0x0903 r st bs)) ∧
  (∀ (r : Req) (g : Fin 8) (transition : Nat) (urgent : Bool) (s : State), s.served 0x0903 r = true →
    s.settled 0x0903 r = none → s.updateFault g.val transition = none → s.pnl.closeout = 0 → s.pnl.regions[g].run = none →
    ∃ (n : Nat) (s1 : State), exec (.pnlUpdate r g.val transition urgent) s = .next (s1.ok 0x0903 r (le 4 n)) ∧
      (s.pnl.regions[g].dirty = false ∨ s.canRefresh = false →
        s1.pnl.regions[g].run = some ⟨⟨n, transition, urgent, false⟩, [], 0, false, false⟩) ∧
      (s.pnl.regions[g].dirty = true → s.canRefresh = true → s.metering = true →
        s1.pnl.regions[g].slot = some ⟨n, transition, urgent, false⟩ ∧
        s1.pnl.regions[g].run = some ⟨⟨0, fld (s.live .pnlCfg) 6 4, false, true⟩, [], 0, false, false⟩) ∧
      s1.pnl.railDown = false ∧
      ∀ h : Fin 8, h ≠ g → s1.pnl.regions[h] = s.pnl.regions[h]) ∧
  (∀ (r : Req) (g : Fin 8) (transition : Nat) (urgent : Bool) (run : PnlRun) (s : State), s.served 0x0903 r = true →
    s.settled 0x0903 r = none → s.updateFault g.val transition = none → s.pnl.closeout = 0 →
    s.pnl.regions[g].run = some run →
    ∃ (n : Nat) (s1 : State), exec (.pnlUpdate r g.val transition urgent) s = .next (s1.ok 0x0903 r (le 4 n)) ∧
      s1.pnl.regions[g].slot = some ⟨n, transition, urgent, false⟩ ∧
      s1.pnl.regions[g].run = some { run with cut := run.cut || (urgent && !run.req.refresh) } ∧
      ∀ h : Fin 8, h ≠ g → s1.pnl.regions[h] = s.pnl.regions[h])

/-- Frame and pair boundaries, rail steps, rail reads and faults of the panel (R138, R367, R374 to R377). The model's
own: log 48 (DEDUCED); log 23, 99 (DESIGN CHOICE). -/
def Obligations.PanelEventsComplete : Prop :=
  let failed := fun (s t : State) => t.pnl.fault = true ∧ t.pnl.railFast = decide (s.pnl.rail ≠ 0) ∧
    ∀ g : Fin 8, t.pnl.regions[g].run = none ∧ t.pnl.regions[g].slot = none ∧
      t.pnl.regions[g].dirty = (s.pnl.regions[g].dirty || s.pnl.regions[g].run.isSome || s.pnl.regions[g].slot.isSome)
  let full := fun (run : PnlRun) => run.started && decide (tableFrames run.table ≤ 2 * (run.pair + 1))
  let ends := fun (s : State) (g : Fin 8) => s.pnl.regions[g].run.filter fun run => full run || run.cut
  let after := fun (s : State) (g : Fin 8) =>
    if (ends s g).isSome then s.pnl.regions[g].slot.map PnlReq.run else s.pnl.regions[g].run
  let starts := fun (s : State) (g : Fin 8) => (after s g).filter fun run =>
    !run.started && decide (s.pnl.rail = 5) && !s.pnl.railDown && (s.pnl.bandFor run.req.transition s.panelBand).isSome
  (∀ s : State, s.panelRuns = true → s.pnl.second = false →
    exec .panelFrameBoundary s = .next ({ s with pnl := { s.pnl with second := true } }).panelOscNow) ∧
  (∀ s : State, s.panelRuns = true → s.pnl.second = true → s.pnl.closeout = 0 →
    ∃ t, exec .panelPairBoundary s = .next t ∧ t.pnl.second = false ∧ t.trim = s.panelOscNow.trim ∧
      (∀ g : Fin 8,
        t.pnl.regions[g].slot = (if (ends s g).isSome then none else s.pnl.regions[g].slot) ∧
        t.pnl.regions[g].dirty = (s.pnl.regions[g].dirty && !((ends s g).any fun run => full run && run.req.refresh)) ∧
        t.pnl.regions[g].run = ((after s g).map fun run =>
          if (starts s g).isSome then
            { run with
              started := true, pair := 0
              table := ((s.pnl.bandFor run.req.transition s.panelBand).bind (s.pnl.table? run.req.transition)).getD [] }
          else if (ends s g).isNone && run.started then { run with pair := run.pair + 1 } else run)) ∧
      t.pnl.next = s.pnl.next ∧
      t.pnl.shown = (allRegions.filter fun g => (ends s g).any PnlRun.started).foldl
        (fun p g => planePut p (regionStart s.live g * cols s.live) (s.regionPixels g s.pnl.work)) s.pnl.shown ∧
      t.pnl.work = (allRegions.filter fun g => (starts s g).isSome).foldl
        (fun p g => planePut p (regionStart s.live g * cols s.live) (s.regionPixels g s.pnl.next)) s.pnl.work ∧
      t.ev = (chain (allRegions.filterMap fun g => ((ends s g).filter fun run => !run.req.refresh).map fun run => (g, run))
        (fun x s => s.raise .pnlDone .device
          (le 4 x.2.req.number ++ le 2 (if full x.2 then Status.ok else Status.cut).code ++ le 1 x.1.val)) s.panelOscNow).ev) ∧
  (∀ s : State, s.panelRuns = true → s.pnl.second = true → s.pnl.closeout = 1 →
    ∃ t, exec .panelPairBoundary s = .next t ∧ t.pnl.closeout = 2 ∧
      ∀ g : Fin 8, s.pnl.regions[g].slot = none → t.pnl.regions[g].run = none) ∧
  (∀ s : State, s.powered = true → s.pnl.closeout = 0 → s.pnl.railDown = false → s.pnl.busy = true → s.pnl.rail < 5 →
    exec .railStep s = .next { s with pnl := { s.pnl with rail := s.pnl.rail + 1, railNew := decide (s.pnl.rail < 4) } }) ∧
  (∀ s : State, s.powered = true → s.pnl.closeout = 0 → s.pnl.railDown = true →
    exec .railStep s = .next { s with pnl := { s.pnl with
      rail := s.pnl.rail - 1, railDown := decide (s.pnl.rail - 1 ≠ 0), railFast := s.pnl.railFast && decide (s.pnl.rail - 1 ≠ 0)
      railNew := false } }) ∧
  (∀ s : State, s.powered = true → s.pnl.closeout = 2 → s.pnl.railDown = true → 1 < s.pnl.rail →
    exec .railStep s = .next { s with pnl := { s.pnl with rail := s.pnl.rail - 1, railNew := false, closeout := 3 } }) ∧
  (∀ (code : BitVec 12) (s : State), s.pnl.rail = 0 → exec (.railRead code) s = .next s) ∧
  (∀ (rail : Fin 4) (code : BitVec 12) (s : State), s.powered = true → s.pnl.railTurn = some rail →
    railBad rail (auxValue 15 rail.val (code.toNat : Rat)) = false →
    exec (.railRead code) s = .next { s with
      pnl := { s.pnl with railSel := rail.val, railNew := false }
      anv := { s.anv with auxRes := upd s.anv.auxRes 15 fun _ => toF32 (auxValue 15 rail.val (code.toNat : Rat)) } }) ∧
  (∀ (clock : Bool) (s : State), s.powered = true → ∃ t, exec (.panelFault clock) s = .next t ∧ failed s t ∧
    t.flt = { s.flt with panelStop := s.flt.panelStop || clock }) ∧
  (∀ (rail : Fin 4) (code : BitVec 12) (s : State), s.powered = true → s.pnl.railTurn = some rail →
    railBad rail (auxValue 15 rail.val (code.toNat : Rat)) = true →
    ∃ t, exec (.railRead code) s = .next t ∧ failed s t ∧ t.flt = s.flt)

/-- The one-register rows, served and accepted (R233 and the rules of the registers). The model's own: log 14, 18, 28,
46, 51, 62, 69 (DEDUCED); log 1, 99 (DESIGN CHOICE). -/
def Obligations.RegisterRowsComplete : Prop :=
  let done := fun (r : Req) (s s1 : State) =>
    Host.Outcome.next (s1.ok 0x0202 r (le 6 (s.woken 0x0202).nextBoundary ++ zeros 2))
  (∀ (r : Req) (k : Fin 136) (s : State), s.served 0x0202 r = true → let s0 := s.woken 0x0202
    (s0.accepts r (.ch k .ctl) 1 = true → exec (.forceSpare r k) s = done r s (s0.forceSpare k)) ∧
    (s0.accepts r (.ch k .ctl) 2 = true → exec (.restore r k) s = done r s (s0.startRestore k)) ∧
    (s0.accepts r (.ch k .ctl) 4 = true → exec (.check r k) s = done r s (s0.check k))) ∧
  (∀ (r : Req) (n : Fin 170) (w : Word) (s : State), s.served 0x0202 r = true → let s0 := s.woken 0x0202
    let q := Reg.trimMod n
    s0.accepts r q w = true → exec (.trimModWrite r n w) s = done r s (s0.askModTrim n (q.merge (s0.readLive q) w))) ∧
  (∀ (r : Req) (w : Word) (s : State), s.served 0x0202 r = true → let s0 := s.woken 0x0202
    (s0.accepts r .trimVref w = true →
      exec (.trimVrefWrite r w) s = done r s (s0.setVref (Reg.trimVref.merge (s0.readLive .trimVref) w))) ∧
    (s0.accepts r .trimOsc w = true →
      exec (.trimOscWrite r w) s = done r s (s0.askOsc (Reg.trimOsc.merge (s0.readLive .trimOsc) w)))) ∧
  (∀ (r : Req) (s : State), s.served 0x0202 r = true → let s0 := s.woken 0x0202
    (s0.accepts r .trimCtl 1 = true → exec (.reload r) s = done r s s0.reloadTrims) ∧
    (∀ comb met, s0.accepts r .fltCtl 2 = true → exec (.rejoin r comb met) s = done r s (s0.rejoin comb met)) ∧
    (s0.accepts r .fltCtl 1 = true → exec (.xreturn r) s = done r s { s0 with flt := { s0.flt with xreturn := true } }) ∧
    (s0.accepts r .grdCtl 0x80000000 = true → exec (.arm r) s = done r s s0.arm) ∧
    (∀ i : Fin 12, s0.accepts r .grdCtl (word (put 23 16 0xD7 + flag 15 true + put 3 0 i.val)) = true →
      exec (.fdis r 0xD7 (BitVec.ofNat 4 i.val)) s = done r s (s0.fdis ⟨i.val, by omega⟩)) ∧
    (∀ ok, s0.accepts r .pnlCtl 1 = true → exec (.recover r ok) s = done r s (s0.recover ok))) ∧
  (∀ (r : Req) (t : Fin 6) (src dtag : Byte) (s : State), s.served 0x0202 r = true → let s0 := s.woken 0x0202
    s0.accepts r (.tgtEoi t) (word (put 15 8 dtag.toNat + put 7 0 src.toNat)) = true →
      exec (.eoi r t src dtag) s = done r s (s0.retire t src.toNat dtag.toNat)) ∧
  (∀ (r : Req) (t : Fin 6) (s : State), s.served 0x0202 r = true → 2 ≤ t.val → let s0 := s.woken 0x0202
    let q := Reg.tgtCfg t
    let w := s.asked q &&& 0x7FFFFFFF
    s0.accepts r q w = true → bit (s.asked q) 31 = true →
      bit (q.merge (s0.readLive q) w) 31 = false ∧
      exec (.intTargetDisable r t) s = done r s ((s0.store q (q.merge (s0.readLive q) w)).disableTarget t)) ∧
  (∀ (n : Fin 170) (w : Word) (s : State), let t := s.askModTrim n w
    t.trimModWord n = w ∧ t.trim = s.trim ∧ ∀ m, m ≠ n → t.trimModWord m = s.trimModWord m) ∧
  (∀ (w : Word) (s : State), (s.setVref w).trim = { s.trim with vref := w, vrefDue := none } ∧
    (w ≠ s.trim.vref → (s.setVref w).anv.blots &&& blotBit .trimChanged = blotBit .trimChanged) ∧
    let t := s.askOsc w
    fld t.trim.oscWord 7 0 = fld w 7 0 ∧ fld t.trim.oscWord 15 8 = fld w 15 8 ∧ fld t.trim.osc 15 8 = fld s.trim.osc 15 8 ∧
    (s.flt.onBackup = true → t.trim.osc = s.trim.osc) ∧
    (s.flt.onBackup = false → s.trim.bkupDue = none → fld t.trim.osc 7 0 = fld w 7 0)) ∧
  (∀ s : State, let t := s.reloadTrims
    (∀ n, t.trimModWord n = fusedMod n) ∧ t.trim.mod = s.trim.mod ∧ t.trim.vref = s.trim.vref ∧
    t.trim.vrefDue.getD t.trim.vref = fusedVref ∧ fld t.trim.oscWord 7 0 = fld fusedOsc 7 0 ∧
    fld t.trim.oscWord 15 8 = fld fusedOsc 15 8) ∧
  (∀ s : State, s.rejoin false false = s ∧
    (∀ c, s.flt.combFenced = some c → s.rejoin true false =
      ({ s with flt := { s.flt with combFenced := none } }).raise .engRejoined .device (le 1 0 ++ le 1 c.val)) ∧
    (∀ c, s.flt.metFenced = some c → s.rejoin false true =
      ({ s with flt := { s.flt with metFenced := none } }).raise .engRejoined .device (le 1 1 ++ le 1 c.val)) ∧
    (s.rejoin true true).flt.combFenced = none ∧ (s.rejoin true true).flt.metFenced = none) ∧
  (∀ s : State, (s.grd.armed = true → s.arm = s) ∧
    (s.grd.armed = false → s.arm = { s with
      draws := s.draws + 1
      grd := { s.grd with
        armed := true, arming := true, kek := some (Config.freeNat s.draws), transport := false
        armStamp := some s.stampNow } }) ∧
    ∀ i : Fin 16, (s.fdis i).grd.srcs[i] =
        { s.grd.srcs[i] with fused := true, fired := false, iso := false, mask := 0, next := none, again := none } ∧
      ∀ j : Fin 16, j ≠ i → (s.fdis i).grd.srcs[j] = s.grd.srcs[j]) ∧
  (∀ s : State, s.recover false = s ∧ (s.pnl.fault = false → s.recover true = s) ∧
    (s.pnl.fault = true → (s.recover true).pnl.fault = false ∧ (s.recover true).flt = { s.flt with panelStop := false } ∧
      (s.panelOn = true → s.pnl.closeout = 0 → s.pnl.hasTable (fld (s.live .pnlCfg) 6 4) = true → ∀ g : Fin 8,
        s.pnl.regions[g].dirty = true → s.pnl.regions[g].run = none → regionRows s.live g ≠ 0 →
        (s.recover true).pnl.regions[g].run =
          some ⟨⟨0, fld (s.live .pnlCfg) 6 4, false, true⟩, [], 0, false, false⟩)))

/-- PARAM_WRITE of accepted words (R225, R233). The model's own: log 28 (DEDUCED); log 1 (DESIGN CHOICE). -/
def Obligations.OneWordIsWritten : Prop :=
  ∀ (r : Req) (s : State), s.served 0x0202 r = true →
    let s0 : State := { s.woken 0x0202 with draws := s.draws + 1 }
    let env : Sensed :=
      ⟨Config.freeNat s.draws % 2 = 1, Config.freeNat s.draws / 2 % 2 = 1, Config.freeNat s.draws / 4 % 2 = 1⟩
    (∀ (addr : Nat) (ws : List Word) (s1 : State), s0.tryWrite r env addr ws = .inr s1 →
      exec (.paramWrite r addr ws) s = .next (s1.ok 0x0202 r (le 6 s0.nextBoundary ++ zeros 2))) ∧
    ∀ (q : Reg) (w : Word), q ≠ .reserved → s0.accepts r q w = true →
      exec (.paramWrite r q.addr [w]) s = .next
        ((s0.applyWord r env q (q.merge (s0.readLive q) w) w).ok 0x0202 r (le 6 s0.nextBoundary ++ zeros 2))

/-- A refused PARAM_WRITE has no effect but its completion (R225, R233). The model's own: log 28 (DEDUCED). -/
def Obligations.BadWriteChangesNothing : Prop :=
  ∀ (r : Req) (addr a : Nat) (ws : List Word) (st : Status) (s : State), s.served 0x0202 r = true →
    let s0 : State := { s.woken 0x0202 with draws := s.draws + 1 }
    let env : Sensed :=
      ⟨Config.freeNat s.draws % 2 = 1, Config.freeNat s.draws / 2 % 2 = 1, Config.freeNat s.draws / 4 % 2 = 1⟩
    s0.tryWrite r env addr ws = .inl (a, st) →
    exec (.paramWrite r addr ws) s = .next (s0.complete 0x0202 r st (le 4 a))

/-- TRIM.VREF is written only with every point OFF (R137). The model's own: log 62 (DEDUCED). -/
def Obligations.VrefNeedsEveryPointOff : Prop :=
  ∀ (r : Req) (w : Word) (s : State), s.served 0x0202 r = true → let s0 := s.woken 0x0202
    s0.deniedAt r.role [(Reg.trimVref.addr, w)] = none →
    ((∃ p : Fin 128, pointOn s.live p = true ∨ pointOn s.asked p = true) →
      exec (.trimVrefWrite r w) s = .next (s0.complete 0x0202 r .pointActive (le 4 0xE0300))) ∧
    ((∀ p : Fin 128, pointOn s.live p = false ∧ pointOn s.asked p = false) →
      exec (.trimVrefWrite r w) s = .next
        ((s0.setVref (Reg.trimVref.merge (s0.readLive .trimVref) w)).ok 0x0202 r (le 6 s0.nextBoundary ++ zeros 2)))

/-- Frames, reads, STATUS and resets of the ports while Scribe serves (R201, R202, R206, R207, R215, R221). The
model's own: log 26 (DEDUCED). -/
def Obligations.PortEventsComplete : Prop :=
  (∀ (p : Port) (bytes : List Byte) (s : State), s.serving = true →
    p ≠ .c ∧ bytes.length < 20 ∨ p = .c ∧ cobs bytes = none → s.scr.ports[portIdx p].imm = none → ∃ (x : Reply) (t : State),
      exec (.frameReceive p bytes []) s = .next t ∧ x.imm = true ∧ x.status = .badFrame ∧
      t.scr.ports[portIdx p].imm = some x ∧ t.scr.sessions = s.scr.sessions ∧ t.scr.queues = s.scr.queues) ∧
  (∀ (p : Port) (bytes : Nat) (s : State), s.serving = true → p ≠ .c →
    let q := s.scr.ports[portIdx p]
    let s1 := s.transact p (q.shifted bytes)
    s1.scr.ports[portIdx p].out =
      wordBytes [s.portWord p] ++ fit bytes ((q.current.map fun y => y.2.frame).getD (zeros 16)) ∧
    (q.current = none → exec (.read p bytes) s = .next s1) ∧
    ∀ (imm : Bool) (x : Reply), q.current = some (imm, x) →
      (x.size ≤ bytes → exec (.read p bytes) s = .next (s1.delivered p imm x)) ∧
      (bytes < x.size → exec (.read p bytes) s = .next
        (if bytes = 0 then s1 else s1.onPort p fun q => { q with partly := some imm }))) ∧
  (∀ (p : Port) (s : State), s.serving = true → p ≠ .c → exec (.status p) s = .next (s.transact p [])) ∧
  (∀ (bytes : Nat) (s : State), exec (.read .c bytes) s = .next s ∧ exec (.status .c) s = .next s) ∧
  (∀ (imm : Bool) (x : Reply) (s : State), s.serving = true → s.scr.ports[2].current = some (imm, x) →
    exec .uartReplySent s = .next
      ((s.onPort .c fun q => { q with out := cobsEncode x.frame ++ [0] }).delivered .c imm x)) ∧
  (∀ (p : Port) (s : State), s.serving = true → p ≠ .c → exec (.spiPortReset p) s = .next
    (((s.onPort p PortState.clear).resetCause (if p = .a then 0x100 else 0x200)).reloadTrims)) ∧
  (∀ s : State, s.serving = true →
    exec (.brk false) s = .next ((((s.onPort .c PortState.clear).start .c).resetCause 0x400).reloadTrims) ∧
    ∃ t, exec (.brk true) s = .next t ∧ t.scr.ports[2].baud = 0 ∧ t.scr.ports[2].imm = none ∧ t.scr.baudDue = [] ∧
      fld (t.asked .scrCfg) 3 0 = 0 ∧ t.pwr.rstCause = (s.pwr.rstCause ||| 0x400))

/-- A port times out (R205). -/
def Obligations.PortTimesOut : Prop :=
  ∀ (p : Port) (s : State), s.serving = true → p ≠ .c →
    exec (.portTimeout p) s = .next
      ((s.onPort p fun q => { q with timeout := true, stalled := true }).raise .portTimeout .device (le 1 (portIdx p).val)) ∧
    ∃ t, exec (.portTimeout p) s = .next t ∧
      t.scr.ports[portIdx p] = { s.scr.ports[portIdx p] with timeout := true, stalled := true } ∧
      (∀ q, portIdx q ≠ portIdx p → t.scr.ports[portIdx q] = s.scr.ports[portIdx q]) ∧
      t.scr.sessions = s.scr.sessions ∧ t.scr.queues = s.scr.queues ∧ t.scr.tags = s.scr.tags ∧
      (t.transact p []).scr.ports[portIdx p].stalled = false ∧ (t.transact p []).scr.ports[portIdx p].timeout = false

/-- Dropped replies, idle sessions, expired locks (R207, R212, R220, R240); an activation goes on past its lock
(R331). The model's own: log 20, 22, 27 (DEDUCED); log 97 (DESIGN CHOICE). -/
def Obligations.SessionEventsComplete : Prop :=
  (∀ s : State, s.serving = true → exec .uartFrameStall s = .next (s.raise .portTimeout .device (le 1 2))) ∧
  (∀ (p : Port) (tag : Fin 128) (i : Nat) (r : Reply) (s : State),
    let q := s.scr.ports[portIdx p]
    q.done[i]? = some r → r.tag = tag.val → ¬ (p = .c ∧ q.partly = some false ∧ i = 0) →
    (∀ j y, j < i → q.done[j]? = some y → y.tag = tag.val → p = .c ∧ q.partly = some false ∧ j = 0) →
    let s1 := s.onPort p fun q => { q with
      done := q.done.eraseIdx i, partly := if i = 0 ∧ q.partly = some false then none else q.partly }
    let s2 := { s1 with scr := { s1.scr with tags := r.free s.scr.tags } }
    exec (.replyDropped p tag.val) s = .next (s2.raise .replyDropped .device (le 2 r.session ++ le 1 tag.val)).settle) ∧
  (∀ (r : Reply) (tags : List TagUse),
    let own : TagUse → Prop := fun u =>
      u.session = Fin.ofNat 1024 r.session ∧ u.tag.val = r.tag ∧ u.queue.val = r.queue ∧ u.hello = r.hello
    (∃ u ∈ tags, own u) → ∃ a u b, tags = a ++ u :: b ∧ own u ∧ r.free tags = a ++ b) ∧
  (∀ s : State, (∀ x ∈ s.scr.sessions, x.closing = none) → s.dev.softReset = [] → s.scr.baudDue = [] → s.settle = s) ∧
  (∀ (id : Fin 1024) (x : Session) (s : State), s.session? id = some x → ∃ t : State,
    exec (.sessionIdleTimeout id) s = .next t.settle ∧
    t.scr.sessions = s.scr.sessions.filter (fun y => y.id ≠ id) ∧
    t.fol.leases = s.fol.leases.filter (fun l => l.session ≠ id) ∧
    t.scr.inkLock = s.scr.inkLock.filter (fun l => l.1 ≠ id) ∧
    t.scr.ports = s.scr.ports.map (dropReplies id) ∧
    (∀ q : Fin 32, t.scr.queues[q].entries.map (fun e => { e with verdict := none }) =
      s.scr.queues[q].entries.map (fun e => { e with dead := e.dead || e.session = id && !e.hello, verdict := none })) ∧
    t.scr.tags.filter (fun u => u.session ≠ id || u.hello) = s.scr.tags.filter (fun u => u.session ≠ id || u.hello) ∧
    (∀ u ∈ t.scr.tags, u.session = id → u.hello = false → u.dead = true) ∧
    t.ev = (s.raise .sessionEnd .device (le 2 id.val ++ le 1 (roleCode x.role) ++ le 1 1)).ev ∧
    t.pts = s.pts ∧ t.mcal = s.mcal ∧ t.chans = s.chans ∧ t.eff = s.eff ∧ t.dev = s.dev) ∧
  (∀ s : State, ∃ t : State, exec .inkLockExpiry s = .next t ∧
    t = { s with scr := { s.scr with inkLock := none, queues := t.scr.queues } } ∧
    (∀ q : Fin 32, t.scr.queues[q].reject = s.scr.queues[q].reject ∧
      t.scr.queues[q].entries.map (fun e => { e with verdict := none }) =
        s.scr.queues[q].entries.map (fun e => { e with verdict := none })) ∧
    ((∀ q : Fin 32, s.activating q = none) → t.scr.queues = s.scr.queues))

/-- The engines' rows in a powered part (R46, R48, R51, R80, R252 to R258); what the newest folio does not carry of a
lost accumulator is free (log 1). The model's own: log 50, 51, 102 (DEDUCED); log 1, 23, 76 (DESIGN CHOICE). -/
def Obligations.EngineRowsComplete : Prop :=
  (∀ (l : List Latch) (d : List Nat) (again : Bool) (x : Fin 2) (s : State), s.powered = true → ∃ t : State,
    exec (.combFrame l d again x) s = .next t ∧ t.flt.frames = s.flt.frames + 1 ∧ t.pts = s.pts ∧ t.mcal = s.mcal ∧
    t.flt.combStop = (s.flt.combStop ||
      (s.flt.combFenced.isNone && !d.isEmpty && (again || decide (45 < d.length)))) ∧
    (∀ n : Fin 170, t.slots[n] =
      (s.slots[n].latch (s.slotOrder n) s.flt.frames (s.latchOf l n)).deliver (s.slotOrder n) t.flt.combStop) ∧
    ((∀ n : Fin 170, t.slots[n].fails = 0 ∧ Slot.hopFault (s.latchOf l n).codes s.slots[n] = false) →
      ((∀ n : Fin 170, s.slots[n].fails = 0) →
        (∀ k : Fin 136, t.chans[k].st = s.chans[k].st ∧ t.chans[k].iperr = s.chans[k].iperr) ∧
        ∀ g : Fin 34, t.spares[g].st = s.spares[g].st) ∧
      ∀ k : Fin 136, (∀ n : Fin 170, s.slots[n].fails = if n.val = k.val then 1 else 0) →
        t.chans[k].iperr = min 0xFFFF (s.chans[k].iperr + 1) ∧ t.chans[k].st = s.chans[k].st)) ∧
  (∀ (failed : Option (Fin 2)) (s : State), s.flt.combStop = true →
    let copy := failed.getD s.flt.combSusp
    ∃ t : State, exec (.engFenced failed) s = .next t ∧
      t.flt = { s.flt with combStop := false, combFenced := some copy } ∧
      t.anv.blots &&& blotBit .engCombSimplex = blotBit .engCombSimplex ∧ t.slots = s.slots ∧ t.pts = s.pts) ∧
  (∀ (i : Fin 512) (s : State), s.powered = true → s.metering = true → i.val ≠ 255 → i.val ≠ 511 →
    ∃ t : State, exec (.sampleBatch i []) s = .next t ∧ t.tb = s.tb ∧ t.pts = s.pts ∧ t.mcal = s.mcal ∧
      (∀ k : Fin 136, t.chans[k].cur = s.udinNow.resample i.val k :: s.chans[k].cur) ∧
      (i.val % 32 ≠ 0 → t.engine.checks = s.engine.checks) ∧
      (i.val % 32 = 0 → t.engine.checks =
        (⟨s.tb.cycle, i.val, s.chans.map Chan.cur, s.pulses.map Pulse.prov⟩ :: s.engine.checks).take 2) ∧
      t.engine.inputs.length ≤ 64) ∧
  (∀ (i : Fin 512) (x : Fin 2) (s : State), s.powered = true → s.flt.metFenced = none →
    let first := tickOf (s.lineInstant (i.val / 32 * 32) + s.edgeDelay)
    let s1 : State := { s with pulses := s.pulses.map fun y =>
      { y with lateBlock := y.lateBlock || y.edges.any fun due => first ≤ due } }
    let s2 := fun n => (s1.raise .engFault .device (le 1 1 ++ le 1 n ++ le 2 i.val)).replayFrom i.val
    exec (.metrologyReplay i false x) s = .next (s2 0) ∧
    exec (.metrologyReplay i true x) s = .next
      ((({ s2 1 with flt := { (s2 1).flt with metFenced := some x } }).replayFrom i.val).note .engMetSimplex .engFenced
        .device (le 1 1 ++ le 1 x.val))) ∧
  (∀ (i : Nat) (s : State), let own := fun (c : EngCheck) => decide (c.cycle = s.tb.cycle) && decide (c.index ≤ i)
    (s.engine.checks.find? own = none → s.replayFrom i = s) ∧
    ∀ c, s.engine.checks.find? own = some c → ∃ t : State, s.replayFrom i = t ∧
      t = { s with chans := t.chans, pulses := t.pulses } ∧
      (∀ k : Fin 136, t.chans[k] = { s.chans[k] with cur :=
        ((s.engine.inputs.filter fun b => b.cycle = c.cycle && c.index ≤ b.index).map fun b => b.samps[k]) ++ c.cur[k] }) ∧
      ∀ n : Fin 8, t.pulses[n] = { s.pulses[n] with prov := t.pulses[n].prov } ∧
        (s.pulseOn n = false → t.pulses[n].prov = c.prov[n])) ∧
  (∀ (b : Fin 2) (s : State), s.buses[b].freezeLeft = some 0 → ∃ t : State, exec (.autoFreezeEnd b) s = .next t ∧
    t.buses[b].freezeLeft = none ∧ t.eff = s.eff ∧
    ∀ k : Fin 136, t.chans[k].autoFrozen = if s.chans[k].autoFrozen = some b then none else s.chans[k].autoFrozen) ∧
  (∀ (w : Nat) (cell : AccCell) (m : Bool) (s : State), s.powered = true → s.flt.bankOut m = false →
    let s1 := s.raise .accFault .device (le 2 w ++ le 1 (if m then 1 else 0))
    let recent := s.flt.accFixed.any fun y => y.1 = m && y.2.1 = w && s.clock ≤ y.2.2 + sysHz * tickParts
    exec (.accScrub [⟨w, cell, m, true⟩]) s = .next s1 ∧
    (s.flt.bankOut (!m) = true → exec (.accScrub [⟨w, cell, m, false⟩]) s = .next (s1.accLost cell)) ∧
    (s.flt.bankOut (!m) = false →
      (recent = false → ∃ t : State, exec (.accScrub [⟨w, cell, m, false⟩]) s = .next t ∧
        t = { s1 with flt := { s1.flt with accFixed := t.flt.accFixed } } ∧ (m, w, s.clock) ∈ t.flt.accFixed) ∧
      (recent = true → ∃ t : State, exec (.accScrub [⟨w, cell, m, false⟩]) s = .next t ∧ t.flt.bankOut m = true ∧
        t.pts = s.pts ∧ t.anv.blots &&& blotBit .accSimplex = blotBit .accSimplex) ∧
      exec (.accScrub [⟨w, cell, false, false⟩, ⟨w, cell, true, false⟩]) s = .next
        (((s.raise .accFault .device (le 2 w ++ le 1 0)).accLost cell).raise .accFault .device (le 2 w ++ le 1 1)))) ∧
  (∀ (p : Fin 128) (a : Fin 22) (s : State),
    let free := Config.lostAccumulator (Config.freeNat s.draws)
    let value := match s.fol.shut.head? with
      | some f => wholeUnits f.img.pts[p].acc[a] * 2 ^ 32 + free % 2 ^ 32
      | none => free % 2 ^ 96
    let t := s.accLost (.total p a)
    t.pts[p] = { s.pts[p] with acc := upd s.pts[p].acc a fun _ => value } ∧ (∀ q, q ≠ p → t.pts[q] = s.pts[q]) ∧
    t.dev.startup.unmeteredDue = true ∧ t.anv.blots &&& blotBit .accLost = blotBit .accLost ∧
    t.anv.blots &&& blotBit .unmetered = blotBit .unmetered) ∧
  (∀ (x : SramRegion × Word) (s : State), s.powered = true → s.pwr.pfail = false → ∃ t : State,
    exec (.sramScrub [x]) s = .next t ∧ t.anv.blots &&& blotBit .sramUncorr = blotBit .sramUncorr ∧
    match x.1 with
    | .folioSlot n off =>
      (∀ f, s.fol.filling = some f → f.number = n → t.fol.filling = none ∧ ∃ g ∈ t.fol.shut, g.number = n ∧
        g.flags = f.flags ||| 8 ∧ g.bad = off :: f.bad ∧ g.img = f.img) ∧
      (s.fol.filling = none → t.fol.shut = s.fol.shut.map fun f =>
        if f.number = n then { f with bad := off :: f.bad } else f) ∧
      (s.fol.filling = none → (∃ f ∈ s.fol.shut, f.number = n) → (∃ y ∈ s.fol.errs, y.1 = x.2 ∧ y.2 ≠ n) →
        t.fol.retireDue = s.fol.retireDue ++ [n])
    | .profileRing n => t.prof.ring = s.prof.ring.map fun r => if r.number = n then { r with bad := true } else r
    | .wbRing n off => t.wb.ring = s.wb.ring.map fun r => if r.number = n then { r with bad := off :: r.bad } else r
    | .capture i off => t.pq.caps[i].bad = off :: s.pq.caps[i].bad
    | .eventRing n => t.ev.bad = insertAsc n s.ev.bad
    | .sessionContext id => t.scr.sessions = s.scr.sessions.map fun y => if y.id = id then { y with corrupt := true } else y
    | .completionSlot id tag hello => ∀ i : Fin 3, t.scr.ports[i].done = s.scr.ports[i].done.map fun r =>
        if r.session = id.val ∧ r.tag = tag.val ∧ r.hello = hello then { r with status := .eccError, payload := [] } else r
    | .anvil => t.anv.up = false)

/-- Cycle closures, FREERUN and LSYNC (R62 to R64, R72, R74, R84). The model's own: log 31 (DEDUCED); log 24 (DESIGN
CHOICE). -/
def Obligations.TimebaseRowsComplete : Prop :=
  (∀ (l : List AccErr) (s : State), s.powered = true → s.metering = true → ∃ t, exec (.cycleClose l) s = .next t ∧
    t.tb.cycle = (s.tb.cycle + 1) % 2 ^ 48 ∧ t.tb.lastCycle = s.tb.cycle ∧ t.tb.prevBoundary = s.tb.boundary ∧
    t.tb.start = s.tb.start + s.tb.period ∧ t.tb.prevStart = s.tb.start ∧
    t.tb.boundary.cycle = (s.tb.cycle + 1) % 2 ^ 48 ∧ t.tb.boundary.angle = 0 ∧
    t.tb.freq = sysHz * 2 ^ 32 / s.tb.period) ∧
  (∀ s : State, s.tb.mode = .holdover → fld (s.live .hold) 15 0 ≤ s.tb.holdRun → ∃ t, exec .freerunEntry s = .next t ∧
    t.tb.mode = .freerun ∧ t.tb.active = 15 ∧ t.tb.period = nominalPeriod s.tb.nomf60 ∧ t.tb.slewing = false ∧
    t.anv.blots &&& blotBit .tbFreerun = blotBit .tbFreerun) ∧
  (∀ (rising : Bool) (tick : Nat) (s : State), s.powered = true →
    (rising = bit (s.live .tbCfg) 2 → exec (.lsyncEdge rising tick) s = .next s) ∧
    (rising ≠ bit (s.live .tbCfg) 2 → exec (.lsyncEdge rising tick) s = .next { s with tb := { s.tb with
      lsync := s.tb.lsync.take tick
        (wrapAngle ((fld (s.live .lsync) 15 0 : Int) - ((s.tb.place (tick * tickParts)).2 : Int))) } })) ∧
  (∀ s : State, exec .lsyncTimeout s = .next
    { s with tb := { s.tb with lsync := { s.tb.lsync with valid := false, periods := [] } } })

/-- The closes of blocks, aggregates and intervals (R82, R113 to R121, R141 to R143, R182, R304). The model's own: log
42, 43, 45, 106, 107 (DEDUCED). -/
def Obligations.IntervalRowsComplete : Prop :=
  let taken := fun (s t : State) => t.fol = { s.fol with filling := s.fol.filling.map fun f =>
    if f.cut.cycle = s.tb.cycle then { f with img := f.img.refill t } else f }
  (∀ s : State, s.powered = true → blockLength s.tb.nomf60 ≤ s.tb.blkCycles →
    let z := s.asEnded.blockDetectors
    ∃ t : State, exec .blockClose s = .next t ∧ t.tb.blkCycles = 0 ∧ t.tb.blkStart = s.tb.boundary ∧
      (∀ b : Fin 2, t.buses[b].blockRms = z.busRms b) ∧
      (∀ k : Fin 136, t.chans[k].blk = [] ∧ t.chans[k].block = z.channelBlock k false) ∧
      (∀ f, s.fol.filling = some f → f.cut.cycle = s.tb.cycle → t.fol.next = s.fol.next ∧ ∃ g, t.fol.filling = some g ∧
        g.number = f.number ∧ g.cut = f.cut ∧ g.cause = f.cause ||| 1 ∧ g.img = f.img.refill t) ∧
      ((∀ f, s.fol.filling = some f → f.cut.cycle ≠ s.tb.cycle) → t.fol.next = (s.fol.next + 1) % 2 ^ 48 ∧
        t.fol.spanStart = s.tb.boundary ∧ t.fol.spanCycles = 0 ∧ ∃ g, t.fol.filling = some g ∧ g.number = s.fol.next ∧
        g.cause = 1 ∧ g.cut = s.tb.boundary ∧ g.start = s.fol.spanStart ∧ g.cycles = min 0xFFFF s.fol.spanCycles ∧
        ∀ i, s.fol.ready = some i → g.img = i.refill t)) ∧
  (∀ s : State, s.powered = true → 15 ≤ s.tb.aggBlocks → ∃ t : State, exec .aggregateClose s = .next t ∧ t.tb.aggBlocks = 0 ∧
    (∀ b : Fin 2, t.buses[b].agg150 = Agg.empty ∧ t.buses[b].out150 = s.buses[b].agg150.close false ∧
      t.buses[b].usr = if s.buses[b].dip.isSome || s.buses[b].swell.isSome then s.buses[b].usr
        else 9967 / 10000 * s.buses[b].usr + 33 / 10000 * meanR (t.buses[b].out150.vals.take 3)) ∧
    (∀ k : Fin 136, t.chans[k].agg150 = Agg.empty ∧ t.chans[k].out150 = s.chans[k].agg150.close false) ∧ taken s t) ∧
  (∀ s : State, s.powered = true → s.metering = true → s.scheduleDue 600 s.tb.tenMin = true →
    let u := if s.tb.blkCycles = 0 then s else s.closeBlock (decide (s.tb.blkCycles < blockLength s.tb.nomf60))
    let v := (if u.tb.aggBlocks = 0 then u else u.close150 (decide (u.tb.aggBlocks < 15))).countedAggs
    ∃ t : State, exec .tenMinuteTick s = .next t ∧ t.tb.blkCycles = 0 ∧ t.tb.aggBlocks = 0 ∧ t.tb.tenMin.since = s.tb.cycle ∧
      (∀ b : Fin 2, t.buses[b].agg10 = Agg.empty ∧ t.buses[b].out10 = v.buses[b].agg10.close false ∧
        t.buses[b].u2out = v.buses[b].u2agg.close false ∧
        (s.scheduleDue 7200 s.tb.twoHours = true → t.buses[b].agg2h = Agg.empty ∧
          t.buses[b].out2h = (Bus.close10 v.buses[b]).agg2h.close (decide ((Bus.close10 v.buses[b]).agg2h.blocks < 12))) ∧
        (s.scheduleDue 7200 s.tb.twoHours = false → t.buses[b].out2h = v.buses[b].out2h)) ∧
      (∀ k : Fin 136, t.chans[k].agg10 = Agg.empty ∧ t.chans[k].out10 = v.chans[k].agg10.close false) ∧
      (s.pwr.pfail = false → s.dev.startup.restored = true → s.pwr.erased ≠ 0 → t.pwr.erased = s.pwr.erased - 1 ∧
        ∃ x, t.pwr.records = x :: s.pwr.records ∧ x.pts = t.pts ∧ x.seq = s.pwr.seqNo)) ∧
  (∀ s : State, s.powered = true → s.metering = true → s.scheduleDue 10 s.tb.tenSec = true →
    ∃ t : State, exec .frequencyIntervalClose s = .next t ∧
      t.tb = { s.tb with fCycles := 0, fTicks := 0, fFlag := false, tenSec := s.opening } ∧ taken s t ∧
      ∀ b : Fin 2, t.buses[b] = { s.buses[b] with
        freqFlag := s.tb.fFlag
        freq := if s.tb.fTicks = 0 then 0
          else (s.tb.fCycles : Rat) * ((65536 * sysHz : Nat) : Rat) / (s.tb.fTicks : Rat) }) ∧
  (∀ (p : Fin 128) (s : State), s.powered = true → s.metering = true → s.demandDue p = true →
    ∃ t : State, exec (.demandClose p) s = .next t ∧
      t.pts[p].dem = { ((s.pts[p].dem.step s.countedOut).close (s.live (.pt p .demand)) s.tb.boundary) with
        sched := s.opening } ∧
      t.pts[p].acc = s.pts[p].acc ∧ (∀ q, q ≠ p → t.pts[q] = s.pts[q]) ∧ taken s t) ∧
  (∀ (p : Fin 128) (s : State), s.demandDue p = false → exec (.demandClose p) s = .next s) ∧
  (∀ s : State, s.powered = true → s.metering = true → s.profileDue = true →
    let u : State := { s with prof := { s.prof with stepped := s.prof.stepped || s.countedOut } }
    let v := if s.prof.running then chain (List.range 4) State.writeGroup u else u
    ∃ t : State, exec .profileClose s = .next t ∧
      t.prof.ring = v.prof.ring ∧ t.prof.next = v.prof.next ∧ t.prof.newest = v.prof.newest ∧ t.prof.hash = v.prof.hash ∧
      t.prof.opened = s.tb.boundary ∧ t.prof.stepped = false ∧ t.prof.part = false ∧ t.prof.commit = false ∧
      t.prof.sched = s.opening ∧ (∀ p : Fin 128, t.live (.pt p .recd) &&& 1 = s.asked (.pt p .recd) &&& 1) ∧
      t.prof.map = (allPts.filter fun p => bit (t.live (.pt p .recd)) 0 && pointOn t.live p).map Fin.val ∧
      ∀ p : Fin 128, t.prof.totals[p] = s.boundaryTotals p) ∧
  (∀ (g : Nat) (s : State),
    let ps := (s.prof.map.filterMap (idx? 128)).filter fun p => p.val / 32 = g
    let body := s.profileBody g ps
    (ps = [] → s.writeGroup g = s) ∧
    (ps ≠ [] → ∃ (gone kept : List ProfRec) (r : ProfRec), s.prof.ring = gone ++ kept ∧
      (s.writeGroup g).prof.ring = kept ++ [r] ∧ r.number = s.prof.next ∧ r.points = ps.map Fin.val ∧
      r.bytes = body ++ sha256 (s.prof.hash ++ body) ∧ r.bad = false ∧
      (kept = [] ∨ ((kept ++ [r]).map fun x => x.bytes.length).sum ≤ profileRing) ∧
      (s.writeGroup g).prof.hash = sha256 (s.prof.hash ++ body) ∧
      (s.writeGroup g).prof.next = (s.prof.next + 1) % 2 ^ 48 ∧ (s.writeGroup g).prof.newest = s.prof.next ∧
      ∃ y : State, s.writeGroup g = y.pendInt 19 ∧ y.intc = s.intc)) ∧
  (∀ (b : Fin 2) (s : State), s.powered = true → s.metering = true → s.balanceDue b = true →
    ∃ t : State, exec (.balanceClose b) s = .next t ∧
      t.buses[b].bal.run = BalAcc.zero ∧ t.buses[b].bal.last = s.buses[b].bal.run ∧
      t.buses[b].bal.lastOpen = s.buses[b].bal.opened ∧ t.buses[b].bal.lastShut = s.tb.boundary ∧
      t.buses[b].bal.opened = s.tb.boundary ∧ taken s t)

/-- Modulators and spares (R25, R34 to R42, R57). The model's own: log 14, 35, 66, 100 (DEDUCED); log 74 (DESIGN
CHOICE). -/
def Obligations.ModulatorRowsComplete : Prop :=
  (∀ (k : Fin 136) (cause : HardCause) (s : State), s.powered = true → s.chans[k].inService = true →
    s.chans[k].splicing = false → s.chans[k].restoring = false → s.chans[k].injected = false →
    s.spares[groupOf k].st = .rotating → ∃ t, exec (.modulatorHardFault ⟨k.val, by omega⟩ cause) s = .next t ∧
      t.chans[k].splicing = true ∧ t.chans[k].cause = causeCode cause ∧ t.spares[groupOf k].st = .substituting ∧
      t.spares[groupOf k].pos = placeOf k) ∧
  (∀ (k : Fin 136) (s : State), s.spliceReady k = true → s.flt.combStop = false →
    ∃ t, exec (.chSubstituted k) s = .next t ∧
    t.chans[k].st = .substituted ∧ t.chans[k].splicing = false ∧ t.anv.blots &&& blotBit .afeSubst = blotBit .afeSubst ∧
    ∀ j, j ≠ k → t.chans[j] = s.chans[j]) ∧
  (∀ (g : Fin 34) (err : BitVec 16) (s : State), s.powered = true → s.spares[g].st = .rotating →
    s.spares[g].parked = false →
    (∀ i : Fin 4, s.drifted g s.spares[g].dwell.sums = false → s.nextEnabled g s.spares[g].pos = some i →
      ∃ t, exec (.spareMove g err) s = .next t ∧
        t.spares[g].pos = i ∧ t.spares[g].st = .rotating ∧ t.spares[g].trimDue = none) ∧
    (s.drifted g s.spares[g].dwell.sums = true → ∃ t, exec (.spareMove g err) s = .next t ∧
      t.spares[g].st = .checking ∧ t.spares[g].phase = 1 ∧ t.chans[groupChan g s.spares[g].pos].drift = true ∧
      t.anv.blots &&& blotBit .afeDrift = blotBit .afeDrift)) ∧
  (∀ (g : Fin 34) (err : BitVec 16) (s : State), s.spares[g].st = .checking →
    let k := groupChan g s.spares[g].pos
    (s.spares[g].phase = 1 → exec (.driftCheckPhase g err) s = .next
      ((s.connectSpare g s.spares[g].pos).onSpare g fun p => { p with serr := err, phase := 2 })) ∧
    (s.spares[g].phase = 2 → ∃ t, exec (.driftCheckPhase g err) s = .next t ∧ t.spares[g].phase = 3 ∧
      t.chans[k].injected = true) ∧
    (s.spares[g].phase = 3 → ∃ t, exec (.driftCheckPhase g err) s = .next t ∧ t.spares[g].phase = 4 ∧
      t.chans[k].werr = err ∧ t.chans[k].wvalid = true ∧
      t.chans[k].wfail = decide (fld (s.live (.driftTh g)) 15 0 < err.toInt.natAbs)) ∧
    (s.spares[g].phase = 4 → s.spares[g].queue = [] → ∃ t, exec (.chDriftChecked g) s = .next t ∧
      t.spares[g].st = .rotating ∧ t.spares[g].phase = 0 ∧ t.chans[k].checking = false ∧ t.chans[k].injected = false)) ∧
  (∀ (k : Fin 136) (err : BitVec 16) (s : State), s.chans[k].restoring = true → s.chans[k].st = .substituted →
    s.spares[groupOf k].queue = [] →
    ∃ t, exec (.chRestored k err none) s = .next t ∧ t.chans[k].restoring = false ∧ t.chans[k].werr = err ∧
      (s.beyond (groupOf k) err = false → t.chans[k].inService = true ∧ t.spares[groupOf k].st = .rotating) ∧
      (s.beyond (groupOf k) err = true → t.chans[k].st = .substituted ∧ t.spares[groupOf k].st = s.spares[groupOf k].st)) ∧
  (∀ (k : Fin 136) (err : BitVec 16) (d : HardCause) (s : State), s.chans[k].restoring = true →
    ∃ t, exec (.chRestored k err (some d)) s = .next t ∧ t.chans[k].restoring = false ∧
      t.chans[k].cause = causeCode d ∧ t.chans[k].st = s.chans[k].st) ∧
  (∀ (k : Fin 136) (s : State), s.chans[k].suppressed = true → s.chans[k].recheck = false →
    exec (.suppressionEnd k) s = .next
      (s.onChan k fun c => { c with suppressed := false, fromFailed := false, recheck := false })) ∧
  (∀ (k : Fin 136) (s : State), s.chans[k].clip = false → exec (.chClip k) s = .next
    ((s.onChan k fun c => { c with clip := true }).raise .chClip (.channel k) [])) ∧
  (∀ (k : Fin 136) (s : State), exec (.isolatedParityError ⟨k.val, by omega⟩) s = .next
    (s.onChan k fun c => { c with perr := min 0xFFFF (c.perr + 1) }))

/-- The edges of the pulse outputs (R173, R176, R177, R180). The model's own: log 44 (DEDUCED). -/
def Obligations.PulseRowsComplete : Prop :=
  (∀ (n : Fin 8) (due : Nat) (rest : List Nat) (s : State), s.powered = true → s.pulseOn n = true →
    s.pulses[n].edges = due :: rest → pulseQuantum ≤ s.pulses[n].g →
    let tick := match s.pulses[n].lastEdge with
      | some t => max due (t + 9831)
      | none => due
    exec (.pulseLeadingEdge n) s = .next { s with pulses := upd s.pulses n fun p =>
      { p with
        n := p.n + 1, g := p.g - pulseQuantum, edges := rest, lastEdge := some tick
        lastFall := some (tick + s.pulses[n].width), high := true, lateBlock := p.lateBlock || decide (due < tick) } }) ∧
  (∀ (n : Fin 8) (s : State), ∃ t : State, exec (.pulseTrailingEdge n) s = .next t ∧
    t.pulses[n] = { s.pulses[n] with high := false, lastFall := t.pulses[n].lastFall } ∧
    (s.pulses[n].high = false → t.pulses[n].lastFall = s.pulses[n].lastFall) ∧
    (∀ fall, s.pulses[n].high = true → s.pulses[n].lastFall = some fall →
      (s.pulses[n].edges = [] → t.pulses[n].lastFall = some fall) ∧
      ∀ due rest, s.pulses[n].edges = due :: rest →
        let next := match s.pulses[n].lastEdge with
          | some u => max due (u + 9831)
          | none => due
        t.pulses[n].lastFall = some (min fall (next - 10 * sysHz / 1000000))) ∧
    (∀ m, m ≠ n → t.pulses[m] = s.pulses[m]) ∧ t = { s with pulses := t.pulses })

/-- Survey sets, captures and the sealing of folios (R157, R158, R164 to R170, R184, R187). The model's own: log 22,
39, 45, 85 (DEDUCED). -/
def Obligations.SurveyAndCaptureRowsComplete : Prop :=
  (∀ s : State, s.powered = true → setFrames ≤ s.wb.frames →
    let opened : Wideband := { s.wb with
      running := s.surveyOn && decide (surveyLag ≤ s.wb.onFor), frames := 0, started := s.stampOf s.surveyInstant
      degr := false, stepped := false, ended := false, slots := Vector.replicate 24 .reset }
    (s.wb.running = true → exec .wbSetEnd s = .next (({ s with wb :=
      { opened with
        ring := ((⟨s.wb.next, s.surveySet, []⟩ : WbSet) :: s.wb.ring).take 8
        next := (s.wb.next + if s.wb.ended then 2 else 1) % 2 ^ 48 } }).pendInt 21)) ∧
    (s.wb.running = false → exec .wbSetEnd s = .next { s with wb := opened })) ∧
  (∀ (i : Fin 2) (s : State), s.pq.caps[i].st = .filling → s.pq.caps[i].left = 0 → exec (.captureFilled i) s = .next
    (({ s with pq := { s.pq with caps := upd s.pq.caps i fun c => { c with st := .kept } } }).pendInt 22)) ∧
  (∀ (i : Fin 2) (s : State), s.pq.caps[i].st = .kept → exec (.captureKeepExpiry i) s = .next
    { s with pq := { s.pq with caps := upd s.pq.caps i fun c => { c with st := .filled } } }) ∧
  (∀ (ecc : Bool) (f : Folio) (s : State), s.fol.filling = some f →
    let sealed : Folio := { f with flags := if ecc then f.flags ||| 8 else f.flags }
    ((s.metering && s.blockDue) = true → exec (.folioSealed ecc) s = .next s) ∧
    ((s.metering && s.blockDue) = false → ∃ y : State, exec (.folioSealed ecc) s = .next (y.pendInt 16) ∧
      y = { s with fol := y.fol } ∧ y.fol.filling = none ∧ y.newest? = some sealed ∧ y.fol.next = s.fol.next ∧
      y.fol.leases = s.fol.leases ∧ (∀ g ∈ y.fol.shut, g = sealed ∨ g ∈ s.fol.shut) ∧
      ∀ g ∈ s.fol.shut, s.fol.leases.any (fun l => l.folio = g.number) = true → g ∈ y.fol.shut))

/-- Log writes and auxiliary scans (R298, R315, R317, R319, R325, R326). The model's own: log 21, 49 (DEDUCED); log
112 (DESIGN CHOICE). -/
def Obligations.LogAndAuxRowsComplete : Prop :=
  (∀ (item : LogItem) (rest : List LogItem) (s : State), s.coresServe = true → s.ev.logQ = item :: rest →
    let s1 : State := { s with ev := { s.ev with logQ := rest }, anv := s.anv.logEvent item.ev }
    exec (.eventLogWrite none) s = .next (if item.ev.code = Ev.code .logGap then s1.blot .logGap else s1)) ∧
  (∀ (g : Nat × Nat) (s : State), s.coresServe = true → s.ev.logQ = [] → s.ev.gap = some g → ∃ t,
    exec (.eventLogWrite none) s = .next t ∧ t.ev = { s.ev with gap := none } ∧
    t.anv.log = (s.anv.logEvent (s.gapItem g).ev).log ∧ t.anv.blots &&& blotBit .logGap = blotBit .logGap) ∧
  (∀ s : State, s.scanCount 9 = 2 ^ fld (s.live (.auxUin 0)) 11 8 ∧ s.scanCount 10 = 2 ^ fld (s.live (.auxUin 1)) 11 8 ∧
    s.scanCount 14 = 256) ∧
  (∀ (i : Fin 16) (codes : List (BitVec 12)) (s : State), s.anv.auxDue.head? ≠ some i.val ∨ codes.length ≠ s.scanCount i →
    exec (.auxScan i codes) s = .next s) ∧
  (∀ (i : Fin 16) (codes : List (BitVec 12)) (rest : List Nat) (s : State), s.powered = true →
    s.anv.auxDue = i.val :: rest → codes.length = s.scanCount i → ∃ t : State, exec (.auxScan i codes) s = .next t ∧
    (∀ j : Fin 16, t.anv.auxRes[j] = if j = i then
      toF32 (auxValue i s.pnl.railSel (meanR (codes.map fun c => (c.toNat : Rat)))) else s.anv.auxRes[j]) ∧
    t.anv.auxDue = rest ∧ (i = 8 → (f32D t.anv.auxRes[i] < 11 / 5 → t.pwr.vbatLow = true ∧
      t.anv.blots &&& blotBit .vbatLow = blotBit .vbatLow) ∧ (23 / 10 ≤ f32D t.anv.auxRes[i] → t.pwr.vbatLow = false)))

/-- An entry that stays on top beyond its time (R290). -/
def Obligations.TimeoutIsOutOfOrder : Prop :=
  ∀ (t : Fin 6) (e : InSvc) (rest : List InSvc) (s : State), s.intc.targets[t].stack = e :: rest →
    let s1 : State := s.flushTarget t
    let counted := upd s1.intc.targets t fun g => { g with timeouts := min 0xFFFF (g.timeouts + 1) }
    let s2 : State := { s1 with intc := { s1.intc with targets := counted } }
    exec (.intTimeout t) s = .next ((s2.note .intcOrder .intcOrder .device
      (le 1 t.val ++ le 1 1 ++ le 1 e.src ++ le 1 e.dtag)).route) ∧
    s1.intc.targets[t].stack = [] ∧ (∀ x ∈ e :: rest, x.src ∈ s1.intc.pend) ∧
    ∀ s' : State, exec (.intTimeout t) s = .next s' →
      s'.intc.targets[t].timeouts = min 0xFFFF (s.intc.targets[t].timeouts + 1) ∧
      s'.intc.targets[t].orders = s.intc.targets[t].orders ∧
      s'.anv.blots &&& blotBit .intcOrder = blotBit .intcOrder ∧
      ∀ q : Fin 6, q ≠ t → s'.intc.targets[q].timeouts = s.intc.targets[q].timeouts ∧
        s'.intc.targets[q].orders = s.intc.targets[q].orders

/-- The SYS crystal (R260, R261, R282). The model's own: log 52 (DEDUCED); log 96 (DESIGN CHOICE). -/
def Obligations.CrystalRowsComplete : Prop :=
  (∀ s : State, s.powered = true → s.flt.onBackup = false → ∃ t, exec .xtalFail s = .next t ∧
    t.flt = { s.flt with
        xtalOk := false, xtalHeld10 := false, onBackup := true, degraded := true, xreturn := false
        relock := (Config.relockFrames s.flt.frames).2 % 16 + 1 } ∧
    (∀ k : Fin 136, t.chans[k].gaps =
      ⟨.clock, s.clock - (Config.relockFrames s.flt.frames).1 % 3 * (frameTicks * tickParts), none⟩ :: s.chans[k].gaps) ∧
    t.anv.blots &&& blotBit .timebaseDegraded = blotBit .timebaseDegraded ∧ t.tb = s.tb ∧ t.pts = s.pts) ∧
  (∀ (ppm : Int) (s : State), s.powered = true → s.flt.degraded = true → exec (.xtalRate ppm) s = .next
    (s.raise .xtalRate .device (le 4 (unsigned 32 ppm)))) ∧
  (∀ s : State, s.powered = true → s.dev.startup.xtalPassed = true → s.flt.onBackup = true →
    (bit (s.live .fltCfg) 0 = true ∨ s.flt.xreturn = true → ∃ t, exec .xtalReturn s = .next t ∧
      t.flt = { s.flt with
        xtalOk := true, xtalHeld10 := false, onBackup := false, degraded := false, xreturn := false
        relock := (Config.relockFrames s.flt.frames).2 % 16 + 1 } ∧
      (∀ k : Fin 136, t.chans[k].gaps = ⟨.clock, s.clock, none⟩ :: s.chans[k].gaps) ∧
      t.trim.bkupDue = none ∧ t.tb = s.tb) ∧
    (bit (s.live .fltCfg) 0 = false → s.flt.xreturn = false → exec .xtalReturn s = .next
      { s with flt := { s.flt with xtalOk := true, xtalHeld10 := true } })) ∧
  (∀ s : State, s.powered = true → s.dev.startup.xtalPassed = false →
    (∃ t, exec .crystalAccepted s = .next t ∧ t.dev.startup.xtalPassed = true ∧
      t.flt = { s.flt with xtalOk := true, onBackup := false }) ∧
    ∃ t, exec .xtalStartTimeout s = .next t ∧ t.dev.startup.xtalPassed = true ∧
      t.flt = { s.flt with degraded := true } ∧ t.anv.blots &&& blotBit .timebaseDegraded = blotBit .timebaseDegraded)

/-- The power-fail sequence (R299 to R308). The model's own: log 53, 54, 57, 115 (DEDUCED); log 111 (DESIGN CHOICE).
-/
def Obligations.PowerFailRowsComplete : Prop :=
  (∀ (vin pfw : Bool) (s : State), s.powered = true → s.pwr.pfail = false →
    (vin || (pfw && bit (s.live .pfcfg) 15)) = true → ∃ t, exec (.powerFail vin pfw) s = .next t ∧
      t.pwr.pfail = true ∧ t.pwr.causeVin = vin ∧ t.pwr.causePfw = (pfw && bit (s.live .pfcfg) 15) ∧
      t.pwr.pfCount = min 0xFF (s.pwr.pfCount + 1) ∧ t.pwr.entryDone = false ∧ t.pwr.entryDue = s.entryOwed ∧
      t.pwr.entryDue.isSome = s.closedOne ∧
      t.pwr.records = s.pwr.records ∧ t.grd.glitchOn = false ∧ t.wb.running = false ∧ t.pts = s.pts) ∧
  (∀ (vin pfw : Bool) (s : State), s.powered = true → s.pwr.pfail = true →
    (vin || (pfw && bit (s.live .pfcfg) 15)) = true → ∃ t, exec (.powerFail vin pfw) s = .next t ∧
      t.pwr = { s.pwr with
        causeVin := s.pwr.causeVin || vin, causePfw := s.pwr.causePfw || (pfw && bit (s.live .pfcfg) 15)
        vinLow := s.pwr.vinLow || vin, pfwLow := s.pwr.pfwLow || (pfw && bit (s.live .pfcfg) 15) } ∧ t.grd = s.grd) ∧
  (∀ (r : JRec) (s : State), s.powered = true → s.pwr.pfail = true → s.pwr.erased ≠ 0 → s.pwr.entryDue = some r →
    ∃ t, exec .journalEntry s = .next t ∧ t.pwr.erased = s.pwr.erased - 1 ∧ t.pwr.seqNo = s.pwr.seqNo + 1 ∧
      t.pwr.entryDue = none ∧ t.pwr.entryDone = true ∧ t.pwr.tails = 0 ∧
      (∃ c, t.pwr.records = { r with ceilings := c, seq := s.pwr.seqNo } :: s.pwr.records ∧ t.pwr.ceil = c) ∧ t.pts = s.pts) ∧
  (∀ (r : JRec) (rest : List JRec) (s : State), s.powered = true → s.pwr.pfail = true → s.pwr.entryDone = true →
    s.pwr.tails < 64 → s.pwr.tailStride ≤ s.pwr.tailDue → s.pwr.records = r :: rest →
    ∃ t, exec .tailUpdate s = .next t ∧ t.pwr.tails = s.pwr.tails + 1 ∧ t.pwr.tailDue = 0 ∧
      ∃ x, t.pwr.records.head? = some x ∧ x.digest = r.digest ∧ ∀ p : Fin 128, x.pts[p].acc = s.pts[p].acc) ∧
  (∀ (ok : Bool) (s : State), s.powered = true →
    (4 ≤ s.pwr.erased → exec (.journalErase ok) s = .next s) ∧
    (s.pwr.erased < 4 →
      let s1 : State := { s with pwr := { s.pwr with
        erased := s.pwr.erased + 1, records := s.pwr.records.filter fun r => r.seq + 8 ≠ s.pwr.seqNo + s.pwr.erased } }
      (s.pwr.ckptDue = false → exec (.journalErase ok) s = .next s1) ∧
      (s.pwr.ckptDue = true → s.pwr.pfail = false → s.dev.startup.restored = true → ∃ t : State,
        exec (.journalErase ok) s = .next t ∧ t = { s1 with pwr := t.pwr } ∧ t.pwr.erased = s.pwr.erased ∧
        t.pwr.ckptDue = false ∧ t.pwr.seqNo = s.pwr.seqNo + 1 ∧
        ∃ x, t.pwr.records = x :: s1.pwr.records ∧ x.pts = s.pts ∧ x.seq = s.pwr.seqNo))) ∧
  (∀ s : State, s.powered = true → s.pwr.pfail = true → s.pwr.sustained = false → exec .pfSustained s = .next
    (({ s with pwr := { s.pwr with sustained := true } }).raise .pfSustained .device
      (le 4 60 ++ le 1 (flag 0 (throttleLimit ≤ s.pwr.susCount))))) ∧
  (∀ s : State, s.powered = true → s.pwr.pfail = true → s.pwr.erased ≠ 0 → ∃ t, exec .pfRecovered s = .next t ∧
    t.pwr.pfail = false ∧ t.pwr.vinLow = false ∧ t.pwr.entryDone = false ∧ t.pwr.tailDue = 0 ∧ t.grd.glitchOn = true)

/-- Resets and the supplies (R276 to R279, R295, R312, R330, R334, R355, R361). The model's own: log 55, 56, 58, 90
(DEDUCED). -/
def Obligations.ResetRowsComplete : Prop :=
  (∀ s : State, s.supplied = true → ∃ t : State, exec .brownout s = .next t ∧ t.dev.st = .cell ∧ t.scr.sessions = [] ∧
    t.fol.leases = [] ∧ t.pwr.rstCause = ((s.pwr.rstCause &&& 7) ||| 2) ∧ t.pwr.records = s.pwr.records ∧
    t.pts = State.reset.pts ∧ t.cld = { s.cld with moves := [] } ∧ (s.grd.arming = false → t.grd.kek = s.grd.kek) ∧
    (∀ i : Fin 16, t.grd.srcs[i] = { s.grd.srcs[i] with next := none, again := none }) ∧
    t.anv.slots = s.anv.slots ∧ t.grd.glitchOn = false) ∧
  (∀ (selfCheck : Bool) (s : State), s.anv.fw ≠ .trial → ∃ t : State, exec (.por [] selfCheck) s = .next t ∧ t.dev.st = .start ∧
    t.dev.startup.inReset = s.dev.startup.inReset ∧ t.scr.sessions = [] ∧
    t.pwr.rstCause = ((s.pwr.rstCause &&& 7) ||| 1) ∧ t.pwr.records = s.pwr.records ∧ t.pts = State.reset.pts ∧
    t.cld = { s.cld with moves := [] } ∧ t.anv.slots = s.anv.slots ∧
    (s.dev.startup.inReset = false → s.grd.arming = false →
      t.grd.quenched = (s.grd.quenched || if s.grd.armed then s.grd.kek.isNone else !s.grd.transport))) ∧
  (∀ s : State, s.dev.startup.inReset = false → s.supplied = false →
    exec .resetnCold s = .next (s.phase fun x => { x with inReset := true })) ∧
  (∀ s : State, s.powered = true → s.pwr.pfail = false → s.closedOne = false → ∃ t : State, exec .resetnCold s = .next t ∧
    t.dev.st = .start ∧ t.dev.startup.inReset = true ∧ t.pwr.rstCause = ((s.pwr.rstCause &&& 7) ||| 4) ∧
    t.pwr.records = s.pwr.records ∧ t.pts = State.reset.pts) ∧
  (∀ s : State, s.powered = true → s.pwr.pfail = false → s.closedOne = true → s.pwr.erased ≠ 0 →
    ∃ (t : State) (x : JRec), exec .resetnCold s = .next t ∧ t.dev.startup.inReset = true ∧ t.pwr.erased = s.pwr.erased - 1 ∧
      t.pwr.records = x :: s.pwr.records ∧ x.pts = s.pts) ∧
  (∀ (selfCheck : Bool) (s : State), s.dev.startup.inReset = true →
    (s.supplied = false → exec (.resetnRelease [] selfCheck) s = .next (s.phase fun x => { x with inReset := false })) ∧
    (s.supplied = true → s.anv.fw ≠ .trial → ∃ t : State,
      exec (.resetnRelease [] selfCheck) s = .next t ∧ t.dev.startup.inReset = false ∧ t.dev.st = s.dev.st ∧ t.pwr = s.pwr)) ∧
  (∀ (bad : List (Fin 2 × Word)) (selfCheck : Bool) (s : State), s.powered = true → ∃ t : State,
    exec (.resetnWarm bad selfCheck) s = .next t ∧ t.scr.sessions = [] ∧ t.pts = s.pts ∧ t.cfg = s.cfg ∧ t.eff = s.eff ∧
    t.mcal.live = s.mcal.live ∧ t.mcal.staged = s.mcal.staged ∧ t.mcal.waiting = [] ∧
    (s.dev.st ≠ .banked → t.dev.st = s.dev.st) ∧ t.anv.up = false ∧
    t.pwr.rstCause = (s.pwr.rstCause ||| 8) ∧ t.dev.startup.metering = s.dev.startup.metering ∧
    (s.metering = false → t.dev.startup.restored = false ∧ t.dev.startup.configDone = false ∧
      t.dev.startup.portsReady = false)) ∧
  (∀ (core : Fin 2) (s : State), s.powered = true → s.dev.startup.configDone = true →
    s.dev.coresAsleep = false → ∃ t : State, exec (.anvWdog core []) s = .next t ∧ t.anv.up = false ∧ t.pts = s.pts ∧
      t.pwr.rstCause = (s.pwr.rstCause ||| 16) ∧ t.anv.blots &&& blotBit .anvWdog = blotBit .anvWdog ∧
      (s.anv.fw = .trial → s.pwr.pfail = false → t.anv.fw = .idle ∧ t.anv.active = (slotIdx s.anv.fallback).val ∧
        t.anv.slots[slotIdx s.anv.active].verified = false ∧ t.anv.blots &&& blotBit .fwReverted = blotBit .fwReverted)) ∧
  (∀ s : State, s.pwr.vbatOn = false → exec (.vaonChangeover true) s = .next
    { s with pwr := { s.pwr with vbatOn := true }, grd := { s.grd with tOff := (s.grd.tick, s.calNow) } }) ∧
  (∀ s : State, s.pwr.vbatOn = true → exec (.vaonChangeover false) s = .next
    { s with pwr := { s.pwr with vbatOn := false }, grd := { s.grd with tOn := (s.grd.tick, s.calNow) },
             cld := { s.cld with wake := false } }) ∧
  (∀ s : State, s.supplied = false → ∃ t : State, exec .supplyLossBoth s = .next t ∧ t.dev = { s.dev with st := .off } ∧
    t.cld = .reset ∧ t.grd.transport = s.grd.transport ∧ t.grd.kek = none ∧ t.grd.list = [] ∧ t.grd.mlock = false ∧
    (∀ i : Fin 16, t.grd.srcs[i].fused = s.grd.srcs[i].fused ∧ t.grd.srcs[i].fired = false ∧ t.grd.srcs[i].iso = false ∧
      t.grd.srcs[i].count = 0 ∧ t.grd.srcs[i].mask = if s.grd.srcs[i].fused then 0 else grdDefault i.val) ∧
    t.pwr = { s.pwr with vbatOn := false } ∧ t.anv = s.anv)

/-- Start-up (R44, R204, R254, R259, R282, R283, R305, R310, R314, R323). The model's own: log 35, 54, 57, 59, 69, 89
(DEDUCED); log 111, 116 (DESIGN CHOICE). -/
def Obligations.StartupRowsComplete : Prop :=
  (∀ (bad : List Word) (r : JRec) (rest : List JRec) (s : State), s.starting = true → s.dev.startup.restored = false →
    s.pwr.records.drop bad.length = r :: rest → ∃ t : State, exec (.journalRestored bad) s = .next t ∧
      t.dev.startup.restored = true ∧ t.tb.cycle = r.ceilings.cycle ∧ t.fol.next = r.ceilings.folio ∧
      t.prof.next = r.ceilings.profile ∧ t.wb.next = (r.ceilings.wb + 7) / 8 * 8 ∧ t.pq.next = r.ceilings.cap ∧
      (r.ceilings.event < 2 ^ 48 → t.ev.next = (r.ceilings.event + s.ev.held.length + bad.length) % 2 ^ 48) ∧
      t.pts = r.points ∧ t.ev.held = [] ∧ t.mcal.everSet = r.everSet ∧ t.anv.blots &&& r.blots = r.blots ∧
      (bad ≠ [] → t.dev.startup.unmeteredWhy = 3 ∧
        t.anv.blots &&& blotBit .journalFallback = blotBit .journalFallback) ∧
      (s.pwr.erased ≠ 0 → ∃ x : JRec, t.pwr.records = x :: s.pwr.records ∧ x.pts = r.points ∧
        x.ceilings.folio = r.ceilings.folio + 131072 ∧ x.ceilings.event = r.ceilings.event + 1048576 ∧
        x.ceilings.profile = r.ceilings.profile + 4096 ∧ x.ceilings.cap = r.ceilings.cap + 256 ∧
        x.ceilings.wb = (r.ceilings.wb + 7) / 8 * 8 + 16384)) ∧
  (∀ s : State, s.starting = true → s.dev.startup.tested = false →
    (∃ t : State, exec (.startUpTest [] none none) s = .next t ∧ t.dev.startup.tested = true ∧ t.chans = s.chans ∧
      t.spares = s.spares) ∧
    (∀ c : Fin 2, ∃ t : State, exec (.startUpTest [] (some c) none) s = .next t ∧ t.dev.startup.tested = true ∧
      t.flt.combFenced = some c ∧ t.anv.blots &&& blotBit .engCombSimplex = blotBit .engCombSimplex) ∧
    ∀ k : Fin 136, s.chans[k].inService = true → s.chans[k].splicing = false → s.spareFree (groupOf k) = true →
      ∃ t : State, exec (.startUpTest [k.val] none none) s = .next t ∧
      t.chans[k].st = .substituted ∧ t.spares[groupOf k].st = .substituting ∧ ∀ j, groupOf j ≠ groupOf k →
        t.chans[j] = s.chans[j]) ∧
  (∀ s : State, s.starting = true →
    exec .portsReady s = .next (({ s with grd := { s.grd with glitchOn := s.grd.glitchOn || !s.pwr.pfail } }).phase fun x =>
      { x with portsReady := true })) ∧
  (∀ s : State, s.starting = true → s.dev.startup.configDone = false →
    (s.pwr.pfail = true → exec (.configRestore none none) s = .next s) ∧
    (∀ i : CfgImage, s.pwr.pfail = false → s.anv.images.find? CfgImage.valid = some i → ∃ t : State,
      exec (.configRestore none none) s = .next t ∧ t.cfg = consistent i.words ∧ t.eff = consistent i.words ∧
      t.pnl.tables = i.tables ∧ t.dev.startup.configDone = true ∧ t.anv.up = true) ∧
    (s.pwr.pfail = false → s.anv.images.find? CfgImage.valid = none → ∃ t : State,
      exec (.configRestore none none) s = .next t ∧ t.cfg = [] ∧ t.eff = [] ∧
      t.dev.startup.configDone = true ∧ t.anv.up = true) ∧
    ∃ t : State, exec .cfgRestoreFail s = .next t ∧ t.cfg = [] ∧ t.eff = [] ∧ t.dev.startup.configDone = true ∧
      t.anv.up = false ∧ t.anv.blots &&& blotBit .cfgRestoreFail = blotBit .cfgRestoreFail) ∧
  (∀ s : State, s.starting = true → s.dev.startup.tested = true → s.dev.startup.configDone = true →
    s.dev.startup.pathReady = false → exec .startupReady s = .next
      (({ s with tb := { s.tb with acq := Vector.replicate 8 .reset } }).phase fun x => { x with pathReady := true })) ∧
  (∀ (x : FirstCycle) (s : State), s.canMeter = true → s.firstCycle = some x →
    ∃ t : State, exec .firstMeteredCycle s = .next t ∧ t.metering = true ∧ t.dev.st = .run ∧ t.tb.mode = .acquire ∧
      t.tb.active = x.ref ∧ t.tb.period = x.period ∧ t.tb.start = x.start ∧ t.tb.cycle = s.tb.cycle ∧
      (s.dev.startup.hadJournal = true → t.dev.startup.unmeteredDue = true ∧
        t.anv.blots &&& blotBit .unmetered = blotBit .unmetered)) ∧
  (∀ s : State, s.canMeter = true → ∃ t : State, exec .startupFreerunFallback s = .next t ∧ t.metering = true ∧
    t.dev.st = .run ∧ t.tb.mode = .freerun ∧ t.tb.active = 15 ∧ t.tb.cycle = s.tb.cycle ∧
    t.anv.blots &&& blotBit .tbFreerun = blotBit .tbFreerun)

/-- Only closures, restores and resets change a metering point; no host command does (R115, R127, R132). -/
def Obligations.PointsMoveOnlyByTheirRows : Prop :=
  ∀ (c : Instr) (s t : State), movesPoints c = false → exec c s = .next t → t.pts = s.pts

/-- Only its own rows change the timebase; no host command does. -/
def Obligations.TimebaseMovesOnlyByItsRows : Prop :=
  ∀ (c : Instr) (s t : State), movesTimebase c = false → exec c s = .next t → t.tb = s.tb

/-- The live calibration set changes only at a cycle boundary or by a cold reset (R127). -/
def Obligations.LiveCalibrationMovesOnlyAtBoundaries : Prop :=
  ∀ (c : Instr) (s t : State), movesCalibration c = false → exec c s = .next t → t.mcal.live = s.mcal.live

/-- Only its own rows move the calendar's time; no reset does (R279, R334). -/
def Obligations.CalendarTimeMovesOnlyByItsRows : Prop :=
  ∀ (c : Instr) (s t : State), movesCalendar c = false → exec c s = .next t → t.cld.time = s.cld.time

/-- Parameter words change only by their writes, the restores and cold resets; those in force also at boundaries. -/
def Obligations.ParametersMoveOnlyByTheirRows : Prop :=
  (∀ (c : Instr) (s t : State), asksParameters c = false → exec c s = .next t → t.cfg = s.cfg) ∧
  (∀ (c : Instr) (s t : State), enforcesParameters c = false → exec c s = .next t → t.eff = s.eff)

/-- Reading a host command from its payload gives that command: no operand bit is dropped or moved (the Request
columns). The model's own: log 5 (DEDUCED). -/
def Obligations.PayloadSpellsItsRow : Prop :=
  ∀ (c : Instr) (op : Nat) (r : Req) (bs : List Byte), hostOf c = some (op, r) → c.wf = true → payloadOf c = some bs →
    requestOf r op bs = some (asRequested c)

/-- Reading commands change nothing but replies, queues and a stay in Banked. The model's own: log 27 (DEDUCED). -/
def Obligations.ReadsOnlyAnswer : Prop :=
  ∀ (c : Instr) (s t : State), readsOnly c = true → exec c s = .next t →
    (∀ op r, hostOf c = some (op, r) → (s.answerable op r = true → t.fol = s.fol) ∧
      (∀ l ∈ s.fol.leases, l.session ≠ r.session → l ∈ t.fol.leases) ∧
      (∀ f ∈ s.fol.shut, (∃ l ∈ s.fol.leases, l.session ≠ r.session ∧ l.folio = f.number) → f ∈ t.fol.shut) ∧
      ∀ id, id ≠ r.session → t.session? id = s.session? id) ∧
    t.cfg = s.cfg ∧ t.eff = s.eff ∧ t.slots = s.slots ∧ t.chans = s.chans ∧ t.spares = s.spares ∧ t.pts = s.pts ∧
    t.buses = s.buses ∧ t.tb = s.tb ∧ t.engine = s.engine ∧ t.mcal = s.mcal ∧ t.prof = s.prof ∧ t.pq = s.pq ∧ t.wb = s.wb ∧
    t.pulses = s.pulses ∧ t.pwr = s.pwr ∧ t.flt = s.flt ∧ t.cld = s.cld ∧ t.grd = s.grd ∧ t.pnl = s.pnl ∧
    t.trim = s.trim ∧ t.draws = s.draws ∧ { t.anv with blots := s.anv.blots } = s.anv

/-- An admissible frame is admitted, of a session or of an open (R192, R199, R213, R214, R216). The model's own: log
26 (DEDUCED). -/
def Obligations.FramesAreAdmitted : Prop :=
  (∀ (p : Port) (bytes bs payload : List Byte) (x : Session) (s : State), frameIn p bytes = some bs →
    let h := headerOf bs
    s.serving = true → frameFault (isSpi p) bs h = none → h.isHello = false → s.session? h.sid = some x → x.port = p →
    h.isSec = x.secured → x.corrupt = false → x.opened h bs = some payload → x.hostSeq < h.seq →
    x.qmask.getLsbD h.queue = true → s.queueServes h.qid p = true → s.queueAdmits h.qid x.role = true →
    (opRow? h.opcode).isSome = true → permitted h.opcode x.role = true → s.roomFault h = none →
    let r : Req := ⟨p, h.sid, x.role, h.qid, h.tid, BitVec.ofNat 32 h.seq, h.isSec⟩
    ∃ (t : State) (v : Option Verdict), exec (.frameReceive p bytes []) s = .next t ∧
      t.scr.queues[h.qid].entries = s.scr.queues[h.qid].entries ++
        [⟨h.sid, false, p, h.tid, h.opcode, payload, s.scr.admitted, false, v⟩] ∧
      (∀ q : Fin 32, q ≠ h.qid → t.scr.queues[q] = s.scr.queues[q]) ∧
      t.scr.tags = s.scr.tags ++ [⟨h.sid, h.tid, false, h.qid, false⟩] ∧
      t.session? h.sid = some { x with authFail := 0, hostSeq := h.seq } ∧
      t.intc.targets[2 + (portIdx p).val].base = h.prio ∧
      ∀ (sel : Selector) (offset length : Nat), requestOf r h.opcode payload = some (.folioRead r sel offset length []) →
        v = some (.named (s.named h.sid sel))) ∧
  (∀ (p : Port) (bytes bs : List Byte) (s : State), frameIn p bytes = some bs →
    let h := headerOf bs
    s.serving = true → frameFault (isSpi p) bs h = none → h.isHello = true → h.opcode = 2 →
    s.queueServes h.qid p = true → bit (s.live (.queCfg h.qid)) 30 = true → s.roomFault h = none →
    ∃ (t : State) (v : Option Verdict), exec (.frameReceive p bytes []) s = .next t ∧
      t.scr.queues[h.qid].entries = s.scr.queues[h.qid].entries ++
        [⟨h.sid, true, p, h.tid, 2, (bs.drop 16).take h.length, s.scr.admitted, false, v⟩] ∧
      (∀ q : Fin 32, q ≠ h.qid → t.scr.queues[q] = s.scr.queues[q]) ∧
      t.scr.tags = s.scr.tags ++ [⟨h.sid, h.tid, true, h.qid, false⟩] ∧ t.scr.sessions = s.scr.sessions)

/-- An event enters the ring, or is held in start-up; nothing else moves (R65, R235, R326). The model's own: log 49
(DEDUCED). -/
def Obligations.EventsEnterTheRing : Prop :=
  ∀ (e : Ev) (u : Subject) (d : List Byte) (s : State),
    let x : Event := ⟨s.ev.next, e.code, s.stampNow, u.code, true, true, s.grd.quenched, s.fpidOf u, d⟩
    let t := s.raise e u d
    (s.dev.startup.restored = true → ringUsed s.ev.ring + entriesOf d.length ≤ 2048 →
      t.ev.ring = s.ev.ring ++ [x] ∧ t.ev.next = (s.ev.next + 1) % 2 ^ 48 ∧ t.ev.lost = s.ev.lost ∧
      (s.ev.logQ.length < 512 → s.ev.gap = none → t.ev.logQ = s.ev.logQ ++ [⟨x, false⟩]) ∧
      (∀ g, s.ev.gap = some g → s.ev.logQ.length + s.ev.logNeed ≤ 512 →
        t.ev.logQ = s.ev.logQ ++ [s.gapItem g, ⟨x, false⟩] ∧ t.ev.gap = none) ∧
      (512 < s.ev.logQ.length + s.ev.logNeed → t.ev.logQ = s.ev.logQ ∧
        t.ev.gap = some ((s.ev.gap.map Prod.fst).getD s.ev.next, s.ev.next))) ∧
    (s.dev.startup.restored = false →
      t.ev = { s.ev with held := s.ev.held ++ [{ x with number := 0 }] }) ∧
    t.cfg = s.cfg ∧ t.eff = s.eff ∧ t.chans = s.chans ∧ t.spares = s.spares ∧ t.pts = s.pts ∧ t.buses = s.buses ∧
    t.tb = s.tb ∧ t.mcal = s.mcal ∧ t.prof = s.prof ∧ t.pq = s.pq ∧ t.wb = s.wb ∧ t.pulses = s.pulses ∧ t.fol = s.fol ∧
    t.scr = s.scr ∧ t.pwr = s.pwr ∧ t.flt = s.flt ∧ t.cld = s.cld ∧ t.grd = s.grd ∧ t.pnl = s.pnl ∧ t.trim = s.trim

/-- A delivery is strictly above the running priority (R285), and the target with the lowest takes it (R287). -/
def Obligations.DeliveryIsStrictlyAbove : Prop :=
  ∀ (s : State) (n : Fin 192) (t : Fin 6), s.firstSource = some (n, t) →
    n.val ∈ s.intc.pend ∧ s.sourceTargets n t = true ∧ s.targetOn t = true ∧ s.runPrio t < s.sourcePrio n ∧
    s.sourcePrio n ≠ 0 ∧
    ∀ q : Fin 6, s.sourceTargets n q = true → s.targetOn q = true → s.runPrio q < s.sourcePrio n → s.runPrio t ≤ s.runPrio q

/-- Steps, routing and retirement keep the in-service stacks strictly rising, at most 15 high (R285, R288). The
model's own: log 2 (DESIGN CHOICE). -/
def Obligations.RoutingKeepsStacksRising : Prop :=
  (∀ s t : State, s.stacksRise → step s = .next t → t.stacksRise) ∧
  ∀ s : State, s.stacksRise → s.route.stacksRise ∧ (∀ n, (s.pendInt n).stacksRise) ∧
    (∀ (t : Fin 6) (src dtag : Nat), (s.retire t src dtag).stacksRise) ∧ (∀ t : Fin 6, (s.disableTarget t).stacksRise) ∧
    (∀ (t : Fin 6) (b : Bool) (src dtag : Nat), (s.outOfOrder t b src dtag).stacksRise) ∧
    ∀ t : Fin 6, s.intc.targets[t].stack.length ≤ 15

/-- The three outcomes of an EOI (R289). -/
def Obligations.RetirementHasThreeOutcomes : Prop :=
  ∀ (t : Fin 6) (src dtag : Nat) (s : State),
    let g := s.intc.targets[t]
    (∀ e rest, g.stack = e :: rest → e.src = src → e.dtag = dtag → s.retire t src dtag =
      ({ s with intc := { s.intc with targets := upd s.intc.targets t fun g =>
          { g with stack := rest, retired := ((src, dtag) :: g.retired).take 16 } } }).route) ∧
    ((∀ e, g.stack.head? = some e → ¬(e.src = src ∧ e.dtag = dtag)) → (src, dtag) ∈ g.retired →
      s.retire t src dtag = s) ∧
    ((∀ e, g.stack.head? = some e → ¬(e.src = src ∧ e.dtag = dtag)) → (src, dtag) ∉ g.retired →
      let s1 : State := s.flushTarget t
      let counted := upd s1.intc.targets t fun g => { g with orders := min 0xFFFF (g.orders + 1) }
      let s2 : State := { s1 with intc := { s1.intc with targets := counted } }
      s.retire t src dtag = (s2.note .intcOrder .intcOrder .device
        (le 1 t.val ++ le 1 0 ++ le 1 src ++ le 1 dtag)).route ∧
      s1.intc.targets[t].stack = [] ∧ (∀ x ∈ g.stack, x.src ∈ s1.intc.pend) ∧
      (s.retire t src dtag).intc.targets[t].orders = min 0xFFFF (g.orders + 1) ∧
      (s.retire t src dtag).intc.targets[t].timeouts = g.timeouts ∧
      (s.retire t src dtag).anv.blots &&& blotBit .intcOrder = blotBit .intcOrder ∧
      ∀ q : Fin 6, q ≠ t → (s.retire t src dtag).intc.targets[q].orders = s.intc.targets[q].orders ∧
        (s.retire t src dtag).intc.targets[q].timeouts = s.intc.targets[q].timeouts)

/-- The control bits of a channel (R36, R41, R42). The model's own: log 100 (DEDUCED); log 74 (DESIGN CHOICE). -/
def Obligations.ChannelControlsAct : Prop :=
  ∀ (k : Fin 136) (s : State),
    (s.chans[k].inService = true → s.chans[k].splicing = false → s.spareFree (groupOf k) = true →
      (s.forceSpare k).chans[k].st = .substituted ∧ (s.forceSpare k).spares[groupOf k].st = .substituting ∧
      (s.forceSpare k).spares[groupOf k].pos = placeOf k ∧
      (s.forceSpare k).anv.blots &&& blotBit .afeSubst = blotBit .afeSubst) ∧
    ((s.chans[k].inService && !s.chans[k].splicing && s.spareFree (groupOf k)) = false → s.forceSpare k = s) ∧
    s.startRestore k = { s with chans := upd s.chans k fun c => { c with restoring := true } } ∧
    (s.spares[groupOf k].st = .rotating → (s.check k).spares[groupOf k].st = .checking ∧
      (s.check k).spares[groupOf k].phase = 1 ∧ (s.check k).chans[k].checking = true) ∧
    (∀ x, s.checked (groupOf k) = some x → x ≠ k →
      (s.check k).spares[groupOf k].queue = insertAsc k.val s.spares[groupOf k].queue ∧ (s.check k).chans = s.chans) ∧
    ∀ j, groupOf j ≠ groupOf k → (s.forceSpare k).chans[j] = s.chans[j] ∧ (s.startRestore k).chans[j] = s.chans[j] ∧
      (s.check k).chans[j] = s.chans[j]

/-- Registered energy enters the accumulators modulo 2^96 (R92, R107, R108), and a cycle closure registers its cycle
(R84, R101). The model's own: log 13, 33, 61 (DEDUCED); log 80 (DESIGN CHOICE). -/
def Obligations.BookedEnergyIsAdded : Prop :=
  (∀ (p : Fin 128) (at_ : Stamp) (l : List Nat) (s : State),
    (∀ i : Fin 22, (s.book p at_ l).pts[p].acc[i] = (s.pts[p].acc[i] + nth l i.val 0) % 2 ^ 96) ∧
    ((∃ i : Fin 22, 2 ^ 96 ≤ s.pts[p].acc[i] + nth l i.val 0) → (s.book p at_ l).pts[p].wrapped = true ∧
      (s.book p at_ l).anv.blots &&& blotBit .totalWrap = blotBit .totalWrap) ∧
    ((∀ i : Fin 22, s.pts[p].acc[i] + nth l i.val 0 < 2 ^ 96) →
      (s.book p at_ l).pts[p].wrapped = s.pts[p].wrapped ∧ (s.book p at_ l).anv = s.anv) ∧
    ∀ q, q ≠ p → (s.book p at_ l).pts[q] = s.pts[q]) ∧
  (∀ (errs : List AccErr) (p : Fin 128) (s : State), s.powered = true → s.metering = true →
    let z := (s.noteCommit.dropOldWindows.markSteps).accErrors errs
    let x := chain (allPts.take p.val) State.closePoint z
    let c := x.pointCycle p
    let b := if c.st.counts && x.mcal.loaded then x.bookingOf p c else .nothing
    ∃ t : State, exec (.cycleClose errs) s = .next t ∧
      (s.pwr.pfail = true ∨ (s.mcal.waiting = [] ∧ s.mcal.resolves = []) →
        (∀ i : Fin 22, t.pts[p].acc[i] = (z.pts[p].acc[i] + nth b.all i.val 0) % 2 ^ 96) ∧
        (s.settingsDue = [] → t.pts[p].q = c.q ∧ t.pts[p].st = c.st ∧ t.pts[p].brdg = c.brdg ∧
          t.pts[p].pend = (!x.mcal.loaded && pointOn s.live p))))

/-- The state after a power-on reset (R279, R282, R399). The model's own: log 3 (DESIGN CHOICE). -/
def Obligations.ResetIsStartUp : Prop :=
  let s := State.reset
  s.dev.st = .start ∧ s.flt.onBackup = true ∧ s.metering = false ∧ s.dev.startup.restored = false ∧
  (∀ k : Fin 136, s.chans[k].st = .active) ∧ (∀ g : Fin 34, s.spares[g].st = .rotating) ∧
  (∀ (p : Fin 128) (i : Fin 22), s.pts[p].acc[i] = 0) ∧ s.scr.sessions = [] ∧ s.scr.tags = [] ∧
  (∀ q : Fin 32, s.scr.queues[q].entries = []) ∧ (∀ p : Fin 3, s.scr.ports[p].done = [] ∧ s.scr.ports[p].imm = none) ∧
  s.fol.shut = [] ∧ s.fol.leases = [] ∧ s.ev.ring = [] ∧ s.anv.slot = 3 ∧ s.anv.blots = blotBit .fwRecovery ∧
  s.pwr.pfail = false ∧
  s.stacksRise ∧ ∀ t : Fin 6, s.intc.targets[t].stack = []
end

