-- ==== Sys2Proof/Laws/State.lean ====
section
/-!
SUPPORT. What each update of one part of the state leaves: one lemma per field, true by `rfl`. A name is the update's, then the
field's.
-/
namespace Sys2Proof.Laws

open Sys2Proof.Machine

/-! ### `State.onChan` -/

@[simp] theorem onChan_pending (k : Fin 136) (f : Chan → Chan) (s : State) : (State.onChan k f s).pending = s.pending := (rfl)
@[simp] theorem onChan_draws (k : Fin 136) (f : Chan → Chan) (s : State) : (State.onChan k f s).draws = s.draws := (rfl)
@[simp] theorem onChan_now (k : Fin 136) (f : Chan → Chan) (s : State) : (State.onChan k f s).now = s.now := (rfl)
@[simp] theorem onChan_dev (k : Fin 136) (f : Chan → Chan) (s : State) : (State.onChan k f s).dev = s.dev := (rfl)
@[simp] theorem onChan_cfg (k : Fin 136) (f : Chan → Chan) (s : State) : (State.onChan k f s).cfg = s.cfg := (rfl)
@[simp] theorem onChan_eff (k : Fin 136) (f : Chan → Chan) (s : State) : (State.onChan k f s).eff = s.eff := (rfl)
@[simp] theorem onChan_slots (k : Fin 136) (f : Chan → Chan) (s : State) : (State.onChan k f s).slots = s.slots := (rfl)
@[simp] theorem onChan_spares (k : Fin 136) (f : Chan → Chan) (s : State) : (State.onChan k f s).spares = s.spares := (rfl)
@[simp] theorem onChan_pts (k : Fin 136) (f : Chan → Chan) (s : State) : (State.onChan k f s).pts = s.pts := (rfl)
@[simp] theorem onChan_buses (k : Fin 136) (f : Chan → Chan) (s : State) : (State.onChan k f s).buses = s.buses := (rfl)
@[simp] theorem onChan_tb (k : Fin 136) (f : Chan → Chan) (s : State) : (State.onChan k f s).tb = s.tb := (rfl)
@[simp] theorem onChan_engine (k : Fin 136) (f : Chan → Chan) (s : State) : (State.onChan k f s).engine = s.engine := (rfl)
@[simp] theorem onChan_mcal (k : Fin 136) (f : Chan → Chan) (s : State) : (State.onChan k f s).mcal = s.mcal := (rfl)
@[simp] theorem onChan_prof (k : Fin 136) (f : Chan → Chan) (s : State) : (State.onChan k f s).prof = s.prof := (rfl)
@[simp] theorem onChan_pq (k : Fin 136) (f : Chan → Chan) (s : State) : (State.onChan k f s).pq = s.pq := (rfl)
@[simp] theorem onChan_wb (k : Fin 136) (f : Chan → Chan) (s : State) : (State.onChan k f s).wb = s.wb := (rfl)
@[simp] theorem onChan_pulses (k : Fin 136) (f : Chan → Chan) (s : State) : (State.onChan k f s).pulses = s.pulses := (rfl)
@[simp] theorem onChan_fol (k : Fin 136) (f : Chan → Chan) (s : State) : (State.onChan k f s).fol = s.fol := (rfl)
@[simp] theorem onChan_scr (k : Fin 136) (f : Chan → Chan) (s : State) : (State.onChan k f s).scr = s.scr := (rfl)
@[simp] theorem onChan_ev (k : Fin 136) (f : Chan → Chan) (s : State) : (State.onChan k f s).ev = s.ev := (rfl)
@[simp] theorem onChan_intc (k : Fin 136) (f : Chan → Chan) (s : State) : (State.onChan k f s).intc = s.intc := (rfl)
@[simp] theorem onChan_pwr (k : Fin 136) (f : Chan → Chan) (s : State) : (State.onChan k f s).pwr = s.pwr := (rfl)
@[simp] theorem onChan_flt (k : Fin 136) (f : Chan → Chan) (s : State) : (State.onChan k f s).flt = s.flt := (rfl)
@[simp] theorem onChan_anv (k : Fin 136) (f : Chan → Chan) (s : State) : (State.onChan k f s).anv = s.anv := (rfl)
@[simp] theorem onChan_cld (k : Fin 136) (f : Chan → Chan) (s : State) : (State.onChan k f s).cld = s.cld := (rfl)
@[simp] theorem onChan_grd (k : Fin 136) (f : Chan → Chan) (s : State) : (State.onChan k f s).grd = s.grd := (rfl)
@[simp] theorem onChan_pnl (k : Fin 136) (f : Chan → Chan) (s : State) : (State.onChan k f s).pnl = s.pnl := (rfl)
@[simp] theorem onChan_trim (k : Fin 136) (f : Chan → Chan) (s : State) : (State.onChan k f s).trim = s.trim := (rfl)

/-! ### `State.onSpare` -/

@[simp] theorem onSpare_pending (g : Fin 34) (f : Spare → Spare) (s : State) : (State.onSpare g f s).pending = s.pending := (rfl)
@[simp] theorem onSpare_draws (g : Fin 34) (f : Spare → Spare) (s : State) : (State.onSpare g f s).draws = s.draws := (rfl)
@[simp] theorem onSpare_now (g : Fin 34) (f : Spare → Spare) (s : State) : (State.onSpare g f s).now = s.now := (rfl)
@[simp] theorem onSpare_dev (g : Fin 34) (f : Spare → Spare) (s : State) : (State.onSpare g f s).dev = s.dev := (rfl)
@[simp] theorem onSpare_cfg (g : Fin 34) (f : Spare → Spare) (s : State) : (State.onSpare g f s).cfg = s.cfg := (rfl)
@[simp] theorem onSpare_eff (g : Fin 34) (f : Spare → Spare) (s : State) : (State.onSpare g f s).eff = s.eff := (rfl)
@[simp] theorem onSpare_slots (g : Fin 34) (f : Spare → Spare) (s : State) : (State.onSpare g f s).slots = s.slots := (rfl)
@[simp] theorem onSpare_chans (g : Fin 34) (f : Spare → Spare) (s : State) : (State.onSpare g f s).chans = s.chans := (rfl)
@[simp] theorem onSpare_pts (g : Fin 34) (f : Spare → Spare) (s : State) : (State.onSpare g f s).pts = s.pts := (rfl)
@[simp] theorem onSpare_buses (g : Fin 34) (f : Spare → Spare) (s : State) : (State.onSpare g f s).buses = s.buses := (rfl)
@[simp] theorem onSpare_tb (g : Fin 34) (f : Spare → Spare) (s : State) : (State.onSpare g f s).tb = s.tb := (rfl)
@[simp] theorem onSpare_engine (g : Fin 34) (f : Spare → Spare) (s : State) : (State.onSpare g f s).engine = s.engine := (rfl)
@[simp] theorem onSpare_mcal (g : Fin 34) (f : Spare → Spare) (s : State) : (State.onSpare g f s).mcal = s.mcal := (rfl)
@[simp] theorem onSpare_prof (g : Fin 34) (f : Spare → Spare) (s : State) : (State.onSpare g f s).prof = s.prof := (rfl)
@[simp] theorem onSpare_pq (g : Fin 34) (f : Spare → Spare) (s : State) : (State.onSpare g f s).pq = s.pq := (rfl)
@[simp] theorem onSpare_wb (g : Fin 34) (f : Spare → Spare) (s : State) : (State.onSpare g f s).wb = s.wb := (rfl)
@[simp] theorem onSpare_pulses (g : Fin 34) (f : Spare → Spare) (s : State) : (State.onSpare g f s).pulses = s.pulses := (rfl)
@[simp] theorem onSpare_fol (g : Fin 34) (f : Spare → Spare) (s : State) : (State.onSpare g f s).fol = s.fol := (rfl)
@[simp] theorem onSpare_scr (g : Fin 34) (f : Spare → Spare) (s : State) : (State.onSpare g f s).scr = s.scr := (rfl)
@[simp] theorem onSpare_ev (g : Fin 34) (f : Spare → Spare) (s : State) : (State.onSpare g f s).ev = s.ev := (rfl)
@[simp] theorem onSpare_intc (g : Fin 34) (f : Spare → Spare) (s : State) : (State.onSpare g f s).intc = s.intc := (rfl)
@[simp] theorem onSpare_pwr (g : Fin 34) (f : Spare → Spare) (s : State) : (State.onSpare g f s).pwr = s.pwr := (rfl)
@[simp] theorem onSpare_flt (g : Fin 34) (f : Spare → Spare) (s : State) : (State.onSpare g f s).flt = s.flt := (rfl)
@[simp] theorem onSpare_anv (g : Fin 34) (f : Spare → Spare) (s : State) : (State.onSpare g f s).anv = s.anv := (rfl)
@[simp] theorem onSpare_cld (g : Fin 34) (f : Spare → Spare) (s : State) : (State.onSpare g f s).cld = s.cld := (rfl)
@[simp] theorem onSpare_grd (g : Fin 34) (f : Spare → Spare) (s : State) : (State.onSpare g f s).grd = s.grd := (rfl)
@[simp] theorem onSpare_pnl (g : Fin 34) (f : Spare → Spare) (s : State) : (State.onSpare g f s).pnl = s.pnl := (rfl)
@[simp] theorem onSpare_trim (g : Fin 34) (f : Spare → Spare) (s : State) : (State.onSpare g f s).trim = s.trim := (rfl)

/-! ### `State.onPt` -/

@[simp] theorem onPt_pending (p : Fin 128) (f : Point → Point) (s : State) : (State.onPt p f s).pending = s.pending := (rfl)
@[simp] theorem onPt_draws (p : Fin 128) (f : Point → Point) (s : State) : (State.onPt p f s).draws = s.draws := (rfl)
@[simp] theorem onPt_now (p : Fin 128) (f : Point → Point) (s : State) : (State.onPt p f s).now = s.now := (rfl)
@[simp] theorem onPt_dev (p : Fin 128) (f : Point → Point) (s : State) : (State.onPt p f s).dev = s.dev := (rfl)
@[simp] theorem onPt_cfg (p : Fin 128) (f : Point → Point) (s : State) : (State.onPt p f s).cfg = s.cfg := (rfl)
@[simp] theorem onPt_eff (p : Fin 128) (f : Point → Point) (s : State) : (State.onPt p f s).eff = s.eff := (rfl)
@[simp] theorem onPt_slots (p : Fin 128) (f : Point → Point) (s : State) : (State.onPt p f s).slots = s.slots := (rfl)
@[simp] theorem onPt_chans (p : Fin 128) (f : Point → Point) (s : State) : (State.onPt p f s).chans = s.chans := (rfl)
@[simp] theorem onPt_spares (p : Fin 128) (f : Point → Point) (s : State) : (State.onPt p f s).spares = s.spares := (rfl)
@[simp] theorem onPt_buses (p : Fin 128) (f : Point → Point) (s : State) : (State.onPt p f s).buses = s.buses := (rfl)
@[simp] theorem onPt_tb (p : Fin 128) (f : Point → Point) (s : State) : (State.onPt p f s).tb = s.tb := (rfl)
@[simp] theorem onPt_engine (p : Fin 128) (f : Point → Point) (s : State) : (State.onPt p f s).engine = s.engine := (rfl)
@[simp] theorem onPt_mcal (p : Fin 128) (f : Point → Point) (s : State) : (State.onPt p f s).mcal = s.mcal := (rfl)
@[simp] theorem onPt_prof (p : Fin 128) (f : Point → Point) (s : State) : (State.onPt p f s).prof = s.prof := (rfl)
@[simp] theorem onPt_pq (p : Fin 128) (f : Point → Point) (s : State) : (State.onPt p f s).pq = s.pq := (rfl)
@[simp] theorem onPt_wb (p : Fin 128) (f : Point → Point) (s : State) : (State.onPt p f s).wb = s.wb := (rfl)
@[simp] theorem onPt_pulses (p : Fin 128) (f : Point → Point) (s : State) : (State.onPt p f s).pulses = s.pulses := (rfl)
@[simp] theorem onPt_fol (p : Fin 128) (f : Point → Point) (s : State) : (State.onPt p f s).fol = s.fol := (rfl)
@[simp] theorem onPt_scr (p : Fin 128) (f : Point → Point) (s : State) : (State.onPt p f s).scr = s.scr := (rfl)
@[simp] theorem onPt_ev (p : Fin 128) (f : Point → Point) (s : State) : (State.onPt p f s).ev = s.ev := (rfl)
@[simp] theorem onPt_intc (p : Fin 128) (f : Point → Point) (s : State) : (State.onPt p f s).intc = s.intc := (rfl)
@[simp] theorem onPt_pwr (p : Fin 128) (f : Point → Point) (s : State) : (State.onPt p f s).pwr = s.pwr := (rfl)
@[simp] theorem onPt_flt (p : Fin 128) (f : Point → Point) (s : State) : (State.onPt p f s).flt = s.flt := (rfl)
@[simp] theorem onPt_anv (p : Fin 128) (f : Point → Point) (s : State) : (State.onPt p f s).anv = s.anv := (rfl)
@[simp] theorem onPt_cld (p : Fin 128) (f : Point → Point) (s : State) : (State.onPt p f s).cld = s.cld := (rfl)
@[simp] theorem onPt_grd (p : Fin 128) (f : Point → Point) (s : State) : (State.onPt p f s).grd = s.grd := (rfl)
@[simp] theorem onPt_pnl (p : Fin 128) (f : Point → Point) (s : State) : (State.onPt p f s).pnl = s.pnl := (rfl)
@[simp] theorem onPt_trim (p : Fin 128) (f : Point → Point) (s : State) : (State.onPt p f s).trim = s.trim := (rfl)

/-! ### `State.onBus` -/

@[simp] theorem onBus_pending (b : Fin 2) (f : Bus → Bus) (s : State) : (State.onBus b f s).pending = s.pending := (rfl)
@[simp] theorem onBus_draws (b : Fin 2) (f : Bus → Bus) (s : State) : (State.onBus b f s).draws = s.draws := (rfl)
@[simp] theorem onBus_now (b : Fin 2) (f : Bus → Bus) (s : State) : (State.onBus b f s).now = s.now := (rfl)
@[simp] theorem onBus_dev (b : Fin 2) (f : Bus → Bus) (s : State) : (State.onBus b f s).dev = s.dev := (rfl)
@[simp] theorem onBus_cfg (b : Fin 2) (f : Bus → Bus) (s : State) : (State.onBus b f s).cfg = s.cfg := (rfl)
@[simp] theorem onBus_eff (b : Fin 2) (f : Bus → Bus) (s : State) : (State.onBus b f s).eff = s.eff := (rfl)
@[simp] theorem onBus_slots (b : Fin 2) (f : Bus → Bus) (s : State) : (State.onBus b f s).slots = s.slots := (rfl)
@[simp] theorem onBus_chans (b : Fin 2) (f : Bus → Bus) (s : State) : (State.onBus b f s).chans = s.chans := (rfl)
@[simp] theorem onBus_spares (b : Fin 2) (f : Bus → Bus) (s : State) : (State.onBus b f s).spares = s.spares := (rfl)
@[simp] theorem onBus_pts (b : Fin 2) (f : Bus → Bus) (s : State) : (State.onBus b f s).pts = s.pts := (rfl)
@[simp] theorem onBus_tb (b : Fin 2) (f : Bus → Bus) (s : State) : (State.onBus b f s).tb = s.tb := (rfl)
@[simp] theorem onBus_engine (b : Fin 2) (f : Bus → Bus) (s : State) : (State.onBus b f s).engine = s.engine := (rfl)
@[simp] theorem onBus_mcal (b : Fin 2) (f : Bus → Bus) (s : State) : (State.onBus b f s).mcal = s.mcal := (rfl)
@[simp] theorem onBus_prof (b : Fin 2) (f : Bus → Bus) (s : State) : (State.onBus b f s).prof = s.prof := (rfl)
@[simp] theorem onBus_pq (b : Fin 2) (f : Bus → Bus) (s : State) : (State.onBus b f s).pq = s.pq := (rfl)
@[simp] theorem onBus_wb (b : Fin 2) (f : Bus → Bus) (s : State) : (State.onBus b f s).wb = s.wb := (rfl)
@[simp] theorem onBus_pulses (b : Fin 2) (f : Bus → Bus) (s : State) : (State.onBus b f s).pulses = s.pulses := (rfl)
@[simp] theorem onBus_fol (b : Fin 2) (f : Bus → Bus) (s : State) : (State.onBus b f s).fol = s.fol := (rfl)
@[simp] theorem onBus_scr (b : Fin 2) (f : Bus → Bus) (s : State) : (State.onBus b f s).scr = s.scr := (rfl)
@[simp] theorem onBus_ev (b : Fin 2) (f : Bus → Bus) (s : State) : (State.onBus b f s).ev = s.ev := (rfl)
@[simp] theorem onBus_intc (b : Fin 2) (f : Bus → Bus) (s : State) : (State.onBus b f s).intc = s.intc := (rfl)
@[simp] theorem onBus_pwr (b : Fin 2) (f : Bus → Bus) (s : State) : (State.onBus b f s).pwr = s.pwr := (rfl)
@[simp] theorem onBus_flt (b : Fin 2) (f : Bus → Bus) (s : State) : (State.onBus b f s).flt = s.flt := (rfl)
@[simp] theorem onBus_anv (b : Fin 2) (f : Bus → Bus) (s : State) : (State.onBus b f s).anv = s.anv := (rfl)
@[simp] theorem onBus_cld (b : Fin 2) (f : Bus → Bus) (s : State) : (State.onBus b f s).cld = s.cld := (rfl)
@[simp] theorem onBus_grd (b : Fin 2) (f : Bus → Bus) (s : State) : (State.onBus b f s).grd = s.grd := (rfl)
@[simp] theorem onBus_pnl (b : Fin 2) (f : Bus → Bus) (s : State) : (State.onBus b f s).pnl = s.pnl := (rfl)
@[simp] theorem onBus_trim (b : Fin 2) (f : Bus → Bus) (s : State) : (State.onBus b f s).trim = s.trim := (rfl)

/-! ### `State.onPulse` -/

@[simp] theorem onPulse_pending (n : Fin 8) (f : Pulse → Pulse) (s : State) : (State.onPulse n f s).pending = s.pending := (rfl)
@[simp] theorem onPulse_draws (n : Fin 8) (f : Pulse → Pulse) (s : State) : (State.onPulse n f s).draws = s.draws := (rfl)
@[simp] theorem onPulse_now (n : Fin 8) (f : Pulse → Pulse) (s : State) : (State.onPulse n f s).now = s.now := (rfl)
@[simp] theorem onPulse_dev (n : Fin 8) (f : Pulse → Pulse) (s : State) : (State.onPulse n f s).dev = s.dev := (rfl)
@[simp] theorem onPulse_cfg (n : Fin 8) (f : Pulse → Pulse) (s : State) : (State.onPulse n f s).cfg = s.cfg := (rfl)
@[simp] theorem onPulse_eff (n : Fin 8) (f : Pulse → Pulse) (s : State) : (State.onPulse n f s).eff = s.eff := (rfl)
@[simp] theorem onPulse_slots (n : Fin 8) (f : Pulse → Pulse) (s : State) : (State.onPulse n f s).slots = s.slots := (rfl)
@[simp] theorem onPulse_chans (n : Fin 8) (f : Pulse → Pulse) (s : State) : (State.onPulse n f s).chans = s.chans := (rfl)
@[simp] theorem onPulse_spares (n : Fin 8) (f : Pulse → Pulse) (s : State) : (State.onPulse n f s).spares = s.spares := (rfl)
@[simp] theorem onPulse_pts (n : Fin 8) (f : Pulse → Pulse) (s : State) : (State.onPulse n f s).pts = s.pts := (rfl)
@[simp] theorem onPulse_buses (n : Fin 8) (f : Pulse → Pulse) (s : State) : (State.onPulse n f s).buses = s.buses := (rfl)
@[simp] theorem onPulse_tb (n : Fin 8) (f : Pulse → Pulse) (s : State) : (State.onPulse n f s).tb = s.tb := (rfl)
@[simp] theorem onPulse_engine (n : Fin 8) (f : Pulse → Pulse) (s : State) : (State.onPulse n f s).engine = s.engine := (rfl)
@[simp] theorem onPulse_mcal (n : Fin 8) (f : Pulse → Pulse) (s : State) : (State.onPulse n f s).mcal = s.mcal := (rfl)
@[simp] theorem onPulse_prof (n : Fin 8) (f : Pulse → Pulse) (s : State) : (State.onPulse n f s).prof = s.prof := (rfl)
@[simp] theorem onPulse_pq (n : Fin 8) (f : Pulse → Pulse) (s : State) : (State.onPulse n f s).pq = s.pq := (rfl)
@[simp] theorem onPulse_wb (n : Fin 8) (f : Pulse → Pulse) (s : State) : (State.onPulse n f s).wb = s.wb := (rfl)
@[simp] theorem onPulse_fol (n : Fin 8) (f : Pulse → Pulse) (s : State) : (State.onPulse n f s).fol = s.fol := (rfl)
@[simp] theorem onPulse_scr (n : Fin 8) (f : Pulse → Pulse) (s : State) : (State.onPulse n f s).scr = s.scr := (rfl)
@[simp] theorem onPulse_ev (n : Fin 8) (f : Pulse → Pulse) (s : State) : (State.onPulse n f s).ev = s.ev := (rfl)
@[simp] theorem onPulse_intc (n : Fin 8) (f : Pulse → Pulse) (s : State) : (State.onPulse n f s).intc = s.intc := (rfl)
@[simp] theorem onPulse_pwr (n : Fin 8) (f : Pulse → Pulse) (s : State) : (State.onPulse n f s).pwr = s.pwr := (rfl)
@[simp] theorem onPulse_flt (n : Fin 8) (f : Pulse → Pulse) (s : State) : (State.onPulse n f s).flt = s.flt := (rfl)
@[simp] theorem onPulse_anv (n : Fin 8) (f : Pulse → Pulse) (s : State) : (State.onPulse n f s).anv = s.anv := (rfl)
@[simp] theorem onPulse_cld (n : Fin 8) (f : Pulse → Pulse) (s : State) : (State.onPulse n f s).cld = s.cld := (rfl)
@[simp] theorem onPulse_grd (n : Fin 8) (f : Pulse → Pulse) (s : State) : (State.onPulse n f s).grd = s.grd := (rfl)
@[simp] theorem onPulse_pnl (n : Fin 8) (f : Pulse → Pulse) (s : State) : (State.onPulse n f s).pnl = s.pnl := (rfl)
@[simp] theorem onPulse_trim (n : Fin 8) (f : Pulse → Pulse) (s : State) : (State.onPulse n f s).trim = s.trim := (rfl)

/-! ### `State.onAlarm` -/

@[simp] theorem onAlarm_pending (a : Fin 2) (f : Alarm → Alarm) (s : State) : (State.onAlarm a f s).pending = s.pending := (rfl)
@[simp] theorem onAlarm_draws (a : Fin 2) (f : Alarm → Alarm) (s : State) : (State.onAlarm a f s).draws = s.draws := (rfl)
@[simp] theorem onAlarm_now (a : Fin 2) (f : Alarm → Alarm) (s : State) : (State.onAlarm a f s).now = s.now := (rfl)
@[simp] theorem onAlarm_dev (a : Fin 2) (f : Alarm → Alarm) (s : State) : (State.onAlarm a f s).dev = s.dev := (rfl)
@[simp] theorem onAlarm_cfg (a : Fin 2) (f : Alarm → Alarm) (s : State) : (State.onAlarm a f s).cfg = s.cfg := (rfl)
@[simp] theorem onAlarm_eff (a : Fin 2) (f : Alarm → Alarm) (s : State) : (State.onAlarm a f s).eff = s.eff := (rfl)
@[simp] theorem onAlarm_slots (a : Fin 2) (f : Alarm → Alarm) (s : State) : (State.onAlarm a f s).slots = s.slots := (rfl)
@[simp] theorem onAlarm_chans (a : Fin 2) (f : Alarm → Alarm) (s : State) : (State.onAlarm a f s).chans = s.chans := (rfl)
@[simp] theorem onAlarm_spares (a : Fin 2) (f : Alarm → Alarm) (s : State) : (State.onAlarm a f s).spares = s.spares := (rfl)
@[simp] theorem onAlarm_pts (a : Fin 2) (f : Alarm → Alarm) (s : State) : (State.onAlarm a f s).pts = s.pts := (rfl)
@[simp] theorem onAlarm_buses (a : Fin 2) (f : Alarm → Alarm) (s : State) : (State.onAlarm a f s).buses = s.buses := (rfl)
@[simp] theorem onAlarm_tb (a : Fin 2) (f : Alarm → Alarm) (s : State) : (State.onAlarm a f s).tb = s.tb := (rfl)
@[simp] theorem onAlarm_engine (a : Fin 2) (f : Alarm → Alarm) (s : State) : (State.onAlarm a f s).engine = s.engine := (rfl)
@[simp] theorem onAlarm_mcal (a : Fin 2) (f : Alarm → Alarm) (s : State) : (State.onAlarm a f s).mcal = s.mcal := (rfl)
@[simp] theorem onAlarm_prof (a : Fin 2) (f : Alarm → Alarm) (s : State) : (State.onAlarm a f s).prof = s.prof := (rfl)
@[simp] theorem onAlarm_pq (a : Fin 2) (f : Alarm → Alarm) (s : State) : (State.onAlarm a f s).pq = s.pq := (rfl)
@[simp] theorem onAlarm_wb (a : Fin 2) (f : Alarm → Alarm) (s : State) : (State.onAlarm a f s).wb = s.wb := (rfl)
@[simp] theorem onAlarm_pulses (a : Fin 2) (f : Alarm → Alarm) (s : State) : (State.onAlarm a f s).pulses = s.pulses := (rfl)
@[simp] theorem onAlarm_fol (a : Fin 2) (f : Alarm → Alarm) (s : State) : (State.onAlarm a f s).fol = s.fol := (rfl)
@[simp] theorem onAlarm_scr (a : Fin 2) (f : Alarm → Alarm) (s : State) : (State.onAlarm a f s).scr = s.scr := (rfl)
@[simp] theorem onAlarm_ev (a : Fin 2) (f : Alarm → Alarm) (s : State) : (State.onAlarm a f s).ev = s.ev := (rfl)
@[simp] theorem onAlarm_intc (a : Fin 2) (f : Alarm → Alarm) (s : State) : (State.onAlarm a f s).intc = s.intc := (rfl)
@[simp] theorem onAlarm_pwr (a : Fin 2) (f : Alarm → Alarm) (s : State) : (State.onAlarm a f s).pwr = s.pwr := (rfl)
@[simp] theorem onAlarm_flt (a : Fin 2) (f : Alarm → Alarm) (s : State) : (State.onAlarm a f s).flt = s.flt := (rfl)
@[simp] theorem onAlarm_anv (a : Fin 2) (f : Alarm → Alarm) (s : State) : (State.onAlarm a f s).anv = s.anv := (rfl)
@[simp] theorem onAlarm_cld_time (a : Fin 2) (f : Alarm → Alarm) (s : State) : (State.onAlarm a f s).cld.time = s.cld.time := (rfl)
@[simp] theorem onAlarm_cld_dow (a : Fin 2) (f : Alarm → Alarm) (s : State) : (State.onAlarm a f s).cld.dow = s.cld.dow := (rfl)
@[simp] theorem onAlarm_cld_valid (a : Fin 2) (f : Alarm → Alarm) (s : State) : (State.onAlarm a f s).cld.valid = s.cld.valid := (rfl)
@[simp] theorem onAlarm_cld_lost (a : Fin 2) (f : Alarm → Alarm) (s : State) : (State.onAlarm a f s).cld.lost = s.cld.lost := (rfl)
@[simp] theorem onAlarm_cld_range (a : Fin 2) (f : Alarm → Alarm) (s : State) : (State.onAlarm a f s).cld.range = s.cld.range := (rfl)
@[simp] theorem onAlarm_cld_trim (a : Fin 2) (f : Alarm → Alarm) (s : State) : (State.onAlarm a f s).cld.trim = s.cld.trim := (rfl)
@[simp] theorem onAlarm_cld_trimNew (a : Fin 2) (f : Alarm → Alarm) (s : State) : (State.onAlarm a f s).cld.trimNew = s.cld.trimNew := (rfl)
@[simp] theorem onAlarm_cld_edge (a : Fin 2) (f : Alarm → Alarm) (s : State) : (State.onAlarm a f s).cld.edge = s.cld.edge := (rfl)
@[simp] theorem onAlarm_cld_ahead (a : Fin 2) (f : Alarm → Alarm) (s : State) : (State.onAlarm a f s).cld.ahead = s.cld.ahead := (rfl)
@[simp] theorem onAlarm_cld_slew (a : Fin 2) (f : Alarm → Alarm) (s : State) : (State.onAlarm a f s).cld.slew = s.cld.slew := (rfl)
@[simp] theorem onAlarm_cld_slewing (a : Fin 2) (f : Alarm → Alarm) (s : State) : (State.onAlarm a f s).cld.slewing = s.cld.slewing := (rfl)
@[simp] theorem onAlarm_cld_adjSeq (a : Fin 2) (f : Alarm → Alarm) (s : State) : (State.onAlarm a f s).cld.adjSeq = s.cld.adjSeq := (rfl)
@[simp] theorem onAlarm_cld_wake (a : Fin 2) (f : Alarm → Alarm) (s : State) : (State.onAlarm a f s).cld.wake = s.cld.wake := (rfl)
@[simp] theorem onAlarm_cld_moves (a : Fin 2) (f : Alarm → Alarm) (s : State) : (State.onAlarm a f s).cld.moves = s.cld.moves := (rfl)
@[simp] theorem onAlarm_grd (a : Fin 2) (f : Alarm → Alarm) (s : State) : (State.onAlarm a f s).grd = s.grd := (rfl)
@[simp] theorem onAlarm_pnl (a : Fin 2) (f : Alarm → Alarm) (s : State) : (State.onAlarm a f s).pnl = s.pnl := (rfl)
@[simp] theorem onAlarm_trim (a : Fin 2) (f : Alarm → Alarm) (s : State) : (State.onAlarm a f s).trim = s.trim := (rfl)

/-! ### `State.onGuard` -/

@[simp] theorem onGuard_pending (i : Fin 16) (f : GrdSrc → GrdSrc) (s : State) : (State.onGuard i f s).pending = s.pending := (rfl)
@[simp] theorem onGuard_draws (i : Fin 16) (f : GrdSrc → GrdSrc) (s : State) : (State.onGuard i f s).draws = s.draws := (rfl)
@[simp] theorem onGuard_now (i : Fin 16) (f : GrdSrc → GrdSrc) (s : State) : (State.onGuard i f s).now = s.now := (rfl)
@[simp] theorem onGuard_dev (i : Fin 16) (f : GrdSrc → GrdSrc) (s : State) : (State.onGuard i f s).dev = s.dev := (rfl)
@[simp] theorem onGuard_cfg (i : Fin 16) (f : GrdSrc → GrdSrc) (s : State) : (State.onGuard i f s).cfg = s.cfg := (rfl)
@[simp] theorem onGuard_eff (i : Fin 16) (f : GrdSrc → GrdSrc) (s : State) : (State.onGuard i f s).eff = s.eff := (rfl)
@[simp] theorem onGuard_slots (i : Fin 16) (f : GrdSrc → GrdSrc) (s : State) : (State.onGuard i f s).slots = s.slots := (rfl)
@[simp] theorem onGuard_chans (i : Fin 16) (f : GrdSrc → GrdSrc) (s : State) : (State.onGuard i f s).chans = s.chans := (rfl)
@[simp] theorem onGuard_spares (i : Fin 16) (f : GrdSrc → GrdSrc) (s : State) : (State.onGuard i f s).spares = s.spares := (rfl)
@[simp] theorem onGuard_pts (i : Fin 16) (f : GrdSrc → GrdSrc) (s : State) : (State.onGuard i f s).pts = s.pts := (rfl)
@[simp] theorem onGuard_buses (i : Fin 16) (f : GrdSrc → GrdSrc) (s : State) : (State.onGuard i f s).buses = s.buses := (rfl)
@[simp] theorem onGuard_tb (i : Fin 16) (f : GrdSrc → GrdSrc) (s : State) : (State.onGuard i f s).tb = s.tb := (rfl)
@[simp] theorem onGuard_engine (i : Fin 16) (f : GrdSrc → GrdSrc) (s : State) : (State.onGuard i f s).engine = s.engine := (rfl)
@[simp] theorem onGuard_mcal (i : Fin 16) (f : GrdSrc → GrdSrc) (s : State) : (State.onGuard i f s).mcal = s.mcal := (rfl)
@[simp] theorem onGuard_prof (i : Fin 16) (f : GrdSrc → GrdSrc) (s : State) : (State.onGuard i f s).prof = s.prof := (rfl)
@[simp] theorem onGuard_pq (i : Fin 16) (f : GrdSrc → GrdSrc) (s : State) : (State.onGuard i f s).pq = s.pq := (rfl)
@[simp] theorem onGuard_wb (i : Fin 16) (f : GrdSrc → GrdSrc) (s : State) : (State.onGuard i f s).wb = s.wb := (rfl)
@[simp] theorem onGuard_pulses (i : Fin 16) (f : GrdSrc → GrdSrc) (s : State) : (State.onGuard i f s).pulses = s.pulses := (rfl)
@[simp] theorem onGuard_fol (i : Fin 16) (f : GrdSrc → GrdSrc) (s : State) : (State.onGuard i f s).fol = s.fol := (rfl)
@[simp] theorem onGuard_scr (i : Fin 16) (f : GrdSrc → GrdSrc) (s : State) : (State.onGuard i f s).scr = s.scr := (rfl)
@[simp] theorem onGuard_ev (i : Fin 16) (f : GrdSrc → GrdSrc) (s : State) : (State.onGuard i f s).ev = s.ev := (rfl)
@[simp] theorem onGuard_intc (i : Fin 16) (f : GrdSrc → GrdSrc) (s : State) : (State.onGuard i f s).intc = s.intc := (rfl)
@[simp] theorem onGuard_pwr (i : Fin 16) (f : GrdSrc → GrdSrc) (s : State) : (State.onGuard i f s).pwr = s.pwr := (rfl)
@[simp] theorem onGuard_flt (i : Fin 16) (f : GrdSrc → GrdSrc) (s : State) : (State.onGuard i f s).flt = s.flt := (rfl)
@[simp] theorem onGuard_anv (i : Fin 16) (f : GrdSrc → GrdSrc) (s : State) : (State.onGuard i f s).anv = s.anv := (rfl)
@[simp] theorem onGuard_cld (i : Fin 16) (f : GrdSrc → GrdSrc) (s : State) : (State.onGuard i f s).cld = s.cld := (rfl)
@[simp] theorem onGuard_grd_mlock (i : Fin 16) (f : GrdSrc → GrdSrc) (s : State) : (State.onGuard i f s).grd.mlock = s.grd.mlock := (rfl)
@[simp] theorem onGuard_grd_covpol (i : Fin 16) (f : GrdSrc → GrdSrc) (s : State) : (State.onGuard i f s).grd.covpol = s.grd.covpol := (rfl)
@[simp] theorem onGuard_grd_magth (i : Fin 16) (f : GrdSrc → GrdSrc) (s : State) : (State.onGuard i f s).grd.magth = s.grd.magth := (rfl)
@[simp] theorem onGuard_grd_armed (i : Fin 16) (f : GrdSrc → GrdSrc) (s : State) : (State.onGuard i f s).grd.armed = s.grd.armed := (rfl)
@[simp] theorem onGuard_grd_arming (i : Fin 16) (f : GrdSrc → GrdSrc) (s : State) : (State.onGuard i f s).grd.arming = s.grd.arming := (rfl)
@[simp] theorem onGuard_grd_kek (i : Fin 16) (f : GrdSrc → GrdSrc) (s : State) : (State.onGuard i f s).grd.kek = s.grd.kek := (rfl)
@[simp] theorem onGuard_grd_transport (i : Fin 16) (f : GrdSrc → GrdSrc) (s : State) : (State.onGuard i f s).grd.transport = s.grd.transport := (rfl)
@[simp] theorem onGuard_grd_quenched (i : Fin 16) (f : GrdSrc → GrdSrc) (s : State) : (State.onGuard i f s).grd.quenched = s.grd.quenched := (rfl)
@[simp] theorem onGuard_grd_qcause (i : Fin 16) (f : GrdSrc → GrdSrc) (s : State) : (State.onGuard i f s).grd.qcause = s.grd.qcause := (rfl)
@[simp] theorem onGuard_grd_glitchOn (i : Fin 16) (f : GrdSrc → GrdSrc) (s : State) : (State.onGuard i f s).grd.glitchOn = s.grd.glitchOn := (rfl)
@[simp] theorem onGuard_grd_tick (i : Fin 16) (f : GrdSrc → GrdSrc) (s : State) : (State.onGuard i f s).grd.tick = s.grd.tick := (rfl)
@[simp] theorem onGuard_grd_list (i : Fin 16) (f : GrdSrc → GrdSrc) (s : State) : (State.onGuard i f s).grd.list = s.grd.list := (rfl)
@[simp] theorem onGuard_grd_cellov (i : Fin 16) (f : GrdSrc → GrdSrc) (s : State) : (State.onGuard i f s).grd.cellov = s.grd.cellov := (rfl)
@[simp] theorem onGuard_grd_tOff (i : Fin 16) (f : GrdSrc → GrdSrc) (s : State) : (State.onGuard i f s).grd.tOff = s.grd.tOff := (rfl)
@[simp] theorem onGuard_grd_tOn (i : Fin 16) (f : GrdSrc → GrdSrc) (s : State) : (State.onGuard i f s).grd.tOn = s.grd.tOn := (rfl)
@[simp] theorem onGuard_grd_armStamp (i : Fin 16) (f : GrdSrc → GrdSrc) (s : State) : (State.onGuard i f s).grd.armStamp = s.grd.armStamp := (rfl)
@[simp] theorem onGuard_pnl (i : Fin 16) (f : GrdSrc → GrdSrc) (s : State) : (State.onGuard i f s).pnl = s.pnl := (rfl)
@[simp] theorem onGuard_trim (i : Fin 16) (f : GrdSrc → GrdSrc) (s : State) : (State.onGuard i f s).trim = s.trim := (rfl)

/-! ### `State.onRegion` -/

@[simp] theorem onRegion_pending (g : Fin 8) (f : Region → Region) (s : State) : (State.onRegion g f s).pending = s.pending := (rfl)
@[simp] theorem onRegion_draws (g : Fin 8) (f : Region → Region) (s : State) : (State.onRegion g f s).draws = s.draws := (rfl)
@[simp] theorem onRegion_now (g : Fin 8) (f : Region → Region) (s : State) : (State.onRegion g f s).now = s.now := (rfl)
@[simp] theorem onRegion_dev (g : Fin 8) (f : Region → Region) (s : State) : (State.onRegion g f s).dev = s.dev := (rfl)
@[simp] theorem onRegion_cfg (g : Fin 8) (f : Region → Region) (s : State) : (State.onRegion g f s).cfg = s.cfg := (rfl)
@[simp] theorem onRegion_eff (g : Fin 8) (f : Region → Region) (s : State) : (State.onRegion g f s).eff = s.eff := (rfl)
@[simp] theorem onRegion_slots (g : Fin 8) (f : Region → Region) (s : State) : (State.onRegion g f s).slots = s.slots := (rfl)
@[simp] theorem onRegion_chans (g : Fin 8) (f : Region → Region) (s : State) : (State.onRegion g f s).chans = s.chans := (rfl)
@[simp] theorem onRegion_spares (g : Fin 8) (f : Region → Region) (s : State) : (State.onRegion g f s).spares = s.spares := (rfl)
@[simp] theorem onRegion_pts (g : Fin 8) (f : Region → Region) (s : State) : (State.onRegion g f s).pts = s.pts := (rfl)
@[simp] theorem onRegion_buses (g : Fin 8) (f : Region → Region) (s : State) : (State.onRegion g f s).buses = s.buses := (rfl)
@[simp] theorem onRegion_tb (g : Fin 8) (f : Region → Region) (s : State) : (State.onRegion g f s).tb = s.tb := (rfl)
@[simp] theorem onRegion_engine (g : Fin 8) (f : Region → Region) (s : State) : (State.onRegion g f s).engine = s.engine := (rfl)
@[simp] theorem onRegion_mcal (g : Fin 8) (f : Region → Region) (s : State) : (State.onRegion g f s).mcal = s.mcal := (rfl)
@[simp] theorem onRegion_prof (g : Fin 8) (f : Region → Region) (s : State) : (State.onRegion g f s).prof = s.prof := (rfl)
@[simp] theorem onRegion_pq (g : Fin 8) (f : Region → Region) (s : State) : (State.onRegion g f s).pq = s.pq := (rfl)
@[simp] theorem onRegion_wb (g : Fin 8) (f : Region → Region) (s : State) : (State.onRegion g f s).wb = s.wb := (rfl)
@[simp] theorem onRegion_pulses (g : Fin 8) (f : Region → Region) (s : State) : (State.onRegion g f s).pulses = s.pulses := (rfl)
@[simp] theorem onRegion_fol (g : Fin 8) (f : Region → Region) (s : State) : (State.onRegion g f s).fol = s.fol := (rfl)
@[simp] theorem onRegion_scr (g : Fin 8) (f : Region → Region) (s : State) : (State.onRegion g f s).scr = s.scr := (rfl)
@[simp] theorem onRegion_ev (g : Fin 8) (f : Region → Region) (s : State) : (State.onRegion g f s).ev = s.ev := (rfl)
@[simp] theorem onRegion_intc (g : Fin 8) (f : Region → Region) (s : State) : (State.onRegion g f s).intc = s.intc := (rfl)
@[simp] theorem onRegion_pwr (g : Fin 8) (f : Region → Region) (s : State) : (State.onRegion g f s).pwr = s.pwr := (rfl)
@[simp] theorem onRegion_flt (g : Fin 8) (f : Region → Region) (s : State) : (State.onRegion g f s).flt = s.flt := (rfl)
@[simp] theorem onRegion_anv (g : Fin 8) (f : Region → Region) (s : State) : (State.onRegion g f s).anv = s.anv := (rfl)
@[simp] theorem onRegion_cld (g : Fin 8) (f : Region → Region) (s : State) : (State.onRegion g f s).cld = s.cld := (rfl)
@[simp] theorem onRegion_grd (g : Fin 8) (f : Region → Region) (s : State) : (State.onRegion g f s).grd = s.grd := (rfl)
@[simp] theorem onRegion_pnl_next (g : Fin 8) (f : Region → Region) (s : State) : (State.onRegion g f s).pnl.next = s.pnl.next := (rfl)
@[simp] theorem onRegion_pnl_work (g : Fin 8) (f : Region → Region) (s : State) : (State.onRegion g f s).pnl.work = s.pnl.work := (rfl)
@[simp] theorem onRegion_pnl_shown (g : Fin 8) (f : Region → Region) (s : State) : (State.onRegion g f s).pnl.shown = s.pnl.shown := (rfl)
@[simp] theorem onRegion_pnl_tables (g : Fin 8) (f : Region → Region) (s : State) : (State.onRegion g f s).pnl.tables = s.pnl.tables := (rfl)
@[simp] theorem onRegion_pnl_staging (g : Fin 8) (f : Region → Region) (s : State) : (State.onRegion g f s).pnl.staging = s.pnl.staging := (rfl)
@[simp] theorem onRegion_pnl_rail (g : Fin 8) (f : Region → Region) (s : State) : (State.onRegion g f s).pnl.rail = s.pnl.rail := (rfl)
@[simp] theorem onRegion_pnl_railDown (g : Fin 8) (f : Region → Region) (s : State) : (State.onRegion g f s).pnl.railDown = s.pnl.railDown := (rfl)
@[simp] theorem onRegion_pnl_railFast (g : Fin 8) (f : Region → Region) (s : State) : (State.onRegion g f s).pnl.railFast = s.pnl.railFast := (rfl)
@[simp] theorem onRegion_pnl_railSel (g : Fin 8) (f : Region → Region) (s : State) : (State.onRegion g f s).pnl.railSel = s.pnl.railSel := (rfl)
@[simp] theorem onRegion_pnl_railNew (g : Fin 8) (f : Region → Region) (s : State) : (State.onRegion g f s).pnl.railNew = s.pnl.railNew := (rfl)
@[simp] theorem onRegion_pnl_fault (g : Fin 8) (f : Region → Region) (s : State) : (State.onRegion g f s).pnl.fault = s.pnl.fault := (rfl)
@[simp] theorem onRegion_pnl_second (g : Fin 8) (f : Region → Region) (s : State) : (State.onRegion g f s).pnl.second = s.pnl.second := (rfl)
@[simp] theorem onRegion_pnl_closeout (g : Fin 8) (f : Region → Region) (s : State) : (State.onRegion g f s).pnl.closeout = s.pnl.closeout := (rfl)
@[simp] theorem onRegion_pnl_band (g : Fin 8) (f : Region → Region) (s : State) : (State.onRegion g f s).pnl.band = s.pnl.band := (rfl)
@[simp] theorem onRegion_trim (g : Fin 8) (f : Region → Region) (s : State) : (State.onRegion g f s).trim = s.trim := (rfl)

/-! ### `State.blot` -/

@[simp] theorem blot_pending (b : Blot) (s : State) : (State.blot b s).pending = s.pending := (rfl)
@[simp] theorem blot_draws (b : Blot) (s : State) : (State.blot b s).draws = s.draws := (rfl)
@[simp] theorem blot_now (b : Blot) (s : State) : (State.blot b s).now = s.now := (rfl)
@[simp] theorem blot_dev (b : Blot) (s : State) : (State.blot b s).dev = s.dev := (rfl)
@[simp] theorem blot_cfg (b : Blot) (s : State) : (State.blot b s).cfg = s.cfg := (rfl)
@[simp] theorem blot_eff (b : Blot) (s : State) : (State.blot b s).eff = s.eff := (rfl)
@[simp] theorem blot_slots (b : Blot) (s : State) : (State.blot b s).slots = s.slots := (rfl)
@[simp] theorem blot_chans (b : Blot) (s : State) : (State.blot b s).chans = s.chans := (rfl)
@[simp] theorem blot_spares (b : Blot) (s : State) : (State.blot b s).spares = s.spares := (rfl)
@[simp] theorem blot_pts (b : Blot) (s : State) : (State.blot b s).pts = s.pts := (rfl)
@[simp] theorem blot_buses (b : Blot) (s : State) : (State.blot b s).buses = s.buses := (rfl)
@[simp] theorem blot_tb (b : Blot) (s : State) : (State.blot b s).tb = s.tb := (rfl)
@[simp] theorem blot_engine (b : Blot) (s : State) : (State.blot b s).engine = s.engine := (rfl)
@[simp] theorem blot_mcal (b : Blot) (s : State) : (State.blot b s).mcal = s.mcal := (rfl)
@[simp] theorem blot_prof (b : Blot) (s : State) : (State.blot b s).prof = s.prof := (rfl)
@[simp] theorem blot_pq (b : Blot) (s : State) : (State.blot b s).pq = s.pq := (rfl)
@[simp] theorem blot_wb (b : Blot) (s : State) : (State.blot b s).wb = s.wb := (rfl)
@[simp] theorem blot_pulses (b : Blot) (s : State) : (State.blot b s).pulses = s.pulses := (rfl)
@[simp] theorem blot_fol (b : Blot) (s : State) : (State.blot b s).fol = s.fol := (rfl)
@[simp] theorem blot_scr (b : Blot) (s : State) : (State.blot b s).scr = s.scr := (rfl)
@[simp] theorem blot_ev (b : Blot) (s : State) : (State.blot b s).ev = s.ev := (rfl)
@[simp] theorem blot_intc (b : Blot) (s : State) : (State.blot b s).intc = s.intc := (rfl)
@[simp] theorem blot_pwr (b : Blot) (s : State) : (State.blot b s).pwr = s.pwr := (rfl)
@[simp] theorem blot_flt (b : Blot) (s : State) : (State.blot b s).flt = s.flt := (rfl)
@[simp] theorem blot_anv_up (b : Blot) (s : State) : (State.blot b s).anv.up = s.anv.up := (rfl)
@[simp] theorem blot_anv_slot (b : Blot) (s : State) : (State.blot b s).anv.slot = s.anv.slot := (rfl)
@[simp] theorem blot_anv_active (b : Blot) (s : State) : (State.blot b s).anv.active = s.anv.active := (rfl)
@[simp] theorem blot_anv_fallback (b : Blot) (s : State) : (State.blot b s).anv.fallback = s.anv.fallback := (rfl)
@[simp] theorem blot_anv_fw (b : Blot) (s : State) : (State.blot b s).anv.fw = s.anv.fw := (rfl)
@[simp] theorem blot_anv_epoch (b : Blot) (s : State) : (State.blot b s).anv.epoch = s.anv.epoch := (rfl)
@[simp] theorem blot_anv_version (b : Blot) (s : State) : (State.blot b s).anv.version = s.anv.version := (rfl)
@[simp] theorem blot_anv_slots (b : Blot) (s : State) : (State.blot b s).anv.slots = s.anv.slots := (rfl)
@[simp] theorem blot_anv_trialLeft (b : Blot) (s : State) : (State.blot b s).anv.trialLeft = s.anv.trialLeft := (rfl)
@[simp] theorem blot_anv_trialOver (b : Blot) (s : State) : (State.blot b s).anv.trialOver = s.anv.trialOver := (rfl)
@[simp] theorem blot_anv_checkDue (b : Blot) (s : State) : (State.blot b s).anv.checkDue = s.anv.checkDue := (rfl)
@[simp] theorem blot_anv_fillDue (b : Blot) (s : State) : (State.blot b s).anv.fillDue = s.anv.fillDue := (rfl)
@[simp] theorem blot_anv_auxRes (b : Blot) (s : State) : (State.blot b s).anv.auxRes = s.anv.auxRes := (rfl)
@[simp] theorem blot_anv_auxDue (b : Blot) (s : State) : (State.blot b s).anv.auxDue = s.anv.auxDue := (rfl)
@[simp] theorem blot_anv_hall (b : Blot) (s : State) : (State.blot b s).anv.hall = s.anv.hall := (rfl)
@[simp] theorem blot_anv_hallLast (b : Blot) (s : State) : (State.blot b s).anv.hallLast = s.anv.hallLast := (rfl)
@[simp] theorem blot_anv_magScans (b : Blot) (s : State) : (State.blot b s).anv.magScans = s.anv.magScans := (rfl)
@[simp] theorem blot_anv_refActive (b : Blot) (s : State) : (State.blot b s).anv.refActive = s.anv.refActive := (rfl)
@[simp] theorem blot_anv_refClear (b : Blot) (s : State) : (State.blot b s).anv.refClear = s.anv.refClear := (rfl)
@[simp] theorem blot_anv_tempActive (b : Blot) (s : State) : (State.blot b s).anv.tempActive = s.anv.tempActive := (rfl)
@[simp] theorem blot_anv_images (b : Blot) (s : State) : (State.blot b s).anv.images = s.anv.images := (rfl)
@[simp] theorem blot_anv_saveDue (b : Blot) (s : State) : (State.blot b s).anv.saveDue = s.anv.saveDue := (rfl)
@[simp] theorem blot_anv_log (b : Blot) (s : State) : (State.blot b s).anv.log = s.anv.log := (rfl)
@[simp] theorem blot_anv_logNext (b : Blot) (s : State) : (State.blot b s).anv.logNext = s.anv.logNext := (rfl)
@[simp] theorem blot_anv_logLink (b : Blot) (s : State) : (State.blot b s).anv.logLink = s.anv.logLink := (rfl)
@[simp] theorem blot_cld (b : Blot) (s : State) : (State.blot b s).cld = s.cld := (rfl)
@[simp] theorem blot_grd (b : Blot) (s : State) : (State.blot b s).grd = s.grd := (rfl)
@[simp] theorem blot_pnl (b : Blot) (s : State) : (State.blot b s).pnl = s.pnl := (rfl)
@[simp] theorem blot_trim (b : Blot) (s : State) : (State.blot b s).trim = s.trim := (rfl)

/-! ### `State.onPort` -/

@[simp] theorem onPort_pending (p : Port) (f : PortState → PortState) (s : State) : (State.onPort p f s).pending = s.pending := (rfl)
@[simp] theorem onPort_draws (p : Port) (f : PortState → PortState) (s : State) : (State.onPort p f s).draws = s.draws := (rfl)
@[simp] theorem onPort_now (p : Port) (f : PortState → PortState) (s : State) : (State.onPort p f s).now = s.now := (rfl)
@[simp] theorem onPort_dev (p : Port) (f : PortState → PortState) (s : State) : (State.onPort p f s).dev = s.dev := (rfl)
@[simp] theorem onPort_cfg (p : Port) (f : PortState → PortState) (s : State) : (State.onPort p f s).cfg = s.cfg := (rfl)
@[simp] theorem onPort_eff (p : Port) (f : PortState → PortState) (s : State) : (State.onPort p f s).eff = s.eff := (rfl)
@[simp] theorem onPort_slots (p : Port) (f : PortState → PortState) (s : State) : (State.onPort p f s).slots = s.slots := (rfl)
@[simp] theorem onPort_chans (p : Port) (f : PortState → PortState) (s : State) : (State.onPort p f s).chans = s.chans := (rfl)
@[simp] theorem onPort_spares (p : Port) (f : PortState → PortState) (s : State) : (State.onPort p f s).spares = s.spares := (rfl)
@[simp] theorem onPort_pts (p : Port) (f : PortState → PortState) (s : State) : (State.onPort p f s).pts = s.pts := (rfl)
@[simp] theorem onPort_buses (p : Port) (f : PortState → PortState) (s : State) : (State.onPort p f s).buses = s.buses := (rfl)
@[simp] theorem onPort_tb (p : Port) (f : PortState → PortState) (s : State) : (State.onPort p f s).tb = s.tb := (rfl)
@[simp] theorem onPort_engine (p : Port) (f : PortState → PortState) (s : State) : (State.onPort p f s).engine = s.engine := (rfl)
@[simp] theorem onPort_mcal (p : Port) (f : PortState → PortState) (s : State) : (State.onPort p f s).mcal = s.mcal := (rfl)
@[simp] theorem onPort_prof (p : Port) (f : PortState → PortState) (s : State) : (State.onPort p f s).prof = s.prof := (rfl)
@[simp] theorem onPort_pq (p : Port) (f : PortState → PortState) (s : State) : (State.onPort p f s).pq = s.pq := (rfl)
@[simp] theorem onPort_wb (p : Port) (f : PortState → PortState) (s : State) : (State.onPort p f s).wb = s.wb := (rfl)
@[simp] theorem onPort_pulses (p : Port) (f : PortState → PortState) (s : State) : (State.onPort p f s).pulses = s.pulses := (rfl)
@[simp] theorem onPort_fol (p : Port) (f : PortState → PortState) (s : State) : (State.onPort p f s).fol = s.fol := (rfl)
@[simp] theorem onPort_scr_sessions (p : Port) (f : PortState → PortState) (s : State) : (State.onPort p f s).scr.sessions = s.scr.sessions := (rfl)
@[simp] theorem onPort_scr_queues (p : Port) (f : PortState → PortState) (s : State) : (State.onPort p f s).scr.queues = s.scr.queues := (rfl)
@[simp] theorem onPort_scr_tags (p : Port) (f : PortState → PortState) (s : State) : (State.onPort p f s).scr.tags = s.scr.tags := (rfl)
@[simp] theorem onPort_scr_admitted (p : Port) (f : PortState → PortState) (s : State) : (State.onPort p f s).scr.admitted = s.scr.admitted := (rfl)
@[simp] theorem onPort_scr_legalEver (p : Port) (f : PortState → PortState) (s : State) : (State.onPort p f s).scr.legalEver = s.scr.legalEver := (rfl)
@[simp] theorem onPort_scr_challenge (p : Port) (f : PortState → PortState) (s : State) : (State.onPort p f s).scr.challenge = s.scr.challenge := (rfl)
@[simp] theorem onPort_scr_baudDue (p : Port) (f : PortState → PortState) (s : State) : (State.onPort p f s).scr.baudDue = s.scr.baudDue := (rfl)
@[simp] theorem onPort_scr_inkLock (p : Port) (f : PortState → PortState) (s : State) : (State.onPort p f s).scr.inkLock = s.scr.inkLock := (rfl)
@[simp] theorem onPort_ev (p : Port) (f : PortState → PortState) (s : State) : (State.onPort p f s).ev = s.ev := (rfl)
@[simp] theorem onPort_intc (p : Port) (f : PortState → PortState) (s : State) : (State.onPort p f s).intc = s.intc := (rfl)
@[simp] theorem onPort_pwr (p : Port) (f : PortState → PortState) (s : State) : (State.onPort p f s).pwr = s.pwr := (rfl)
@[simp] theorem onPort_flt (p : Port) (f : PortState → PortState) (s : State) : (State.onPort p f s).flt = s.flt := (rfl)
@[simp] theorem onPort_anv (p : Port) (f : PortState → PortState) (s : State) : (State.onPort p f s).anv = s.anv := (rfl)
@[simp] theorem onPort_cld (p : Port) (f : PortState → PortState) (s : State) : (State.onPort p f s).cld = s.cld := (rfl)
@[simp] theorem onPort_grd (p : Port) (f : PortState → PortState) (s : State) : (State.onPort p f s).grd = s.grd := (rfl)
@[simp] theorem onPort_pnl (p : Port) (f : PortState → PortState) (s : State) : (State.onPort p f s).pnl = s.pnl := (rfl)
@[simp] theorem onPort_trim (p : Port) (f : PortState → PortState) (s : State) : (State.onPort p f s).trim = s.trim := (rfl)

/-! ### `State.onQue` -/

@[simp] theorem onQue_pending (q : Fin 32) (f : Que → Que) (s : State) : (State.onQue q f s).pending = s.pending := (rfl)
@[simp] theorem onQue_draws (q : Fin 32) (f : Que → Que) (s : State) : (State.onQue q f s).draws = s.draws := (rfl)
@[simp] theorem onQue_now (q : Fin 32) (f : Que → Que) (s : State) : (State.onQue q f s).now = s.now := (rfl)
@[simp] theorem onQue_dev (q : Fin 32) (f : Que → Que) (s : State) : (State.onQue q f s).dev = s.dev := (rfl)
@[simp] theorem onQue_cfg (q : Fin 32) (f : Que → Que) (s : State) : (State.onQue q f s).cfg = s.cfg := (rfl)
@[simp] theorem onQue_eff (q : Fin 32) (f : Que → Que) (s : State) : (State.onQue q f s).eff = s.eff := (rfl)
@[simp] theorem onQue_slots (q : Fin 32) (f : Que → Que) (s : State) : (State.onQue q f s).slots = s.slots := (rfl)
@[simp] theorem onQue_chans (q : Fin 32) (f : Que → Que) (s : State) : (State.onQue q f s).chans = s.chans := (rfl)
@[simp] theorem onQue_spares (q : Fin 32) (f : Que → Que) (s : State) : (State.onQue q f s).spares = s.spares := (rfl)
@[simp] theorem onQue_pts (q : Fin 32) (f : Que → Que) (s : State) : (State.onQue q f s).pts = s.pts := (rfl)
@[simp] theorem onQue_buses (q : Fin 32) (f : Que → Que) (s : State) : (State.onQue q f s).buses = s.buses := (rfl)
@[simp] theorem onQue_tb (q : Fin 32) (f : Que → Que) (s : State) : (State.onQue q f s).tb = s.tb := (rfl)
@[simp] theorem onQue_engine (q : Fin 32) (f : Que → Que) (s : State) : (State.onQue q f s).engine = s.engine := (rfl)
@[simp] theorem onQue_mcal (q : Fin 32) (f : Que → Que) (s : State) : (State.onQue q f s).mcal = s.mcal := (rfl)
@[simp] theorem onQue_prof (q : Fin 32) (f : Que → Que) (s : State) : (State.onQue q f s).prof = s.prof := (rfl)
@[simp] theorem onQue_pq (q : Fin 32) (f : Que → Que) (s : State) : (State.onQue q f s).pq = s.pq := (rfl)
@[simp] theorem onQue_wb (q : Fin 32) (f : Que → Que) (s : State) : (State.onQue q f s).wb = s.wb := (rfl)
@[simp] theorem onQue_pulses (q : Fin 32) (f : Que → Que) (s : State) : (State.onQue q f s).pulses = s.pulses := (rfl)
@[simp] theorem onQue_fol (q : Fin 32) (f : Que → Que) (s : State) : (State.onQue q f s).fol = s.fol := (rfl)
@[simp] theorem onQue_scr_ports (q : Fin 32) (f : Que → Que) (s : State) : (State.onQue q f s).scr.ports = s.scr.ports := (rfl)
@[simp] theorem onQue_scr_sessions (q : Fin 32) (f : Que → Que) (s : State) : (State.onQue q f s).scr.sessions = s.scr.sessions := (rfl)
@[simp] theorem onQue_scr_tags (q : Fin 32) (f : Que → Que) (s : State) : (State.onQue q f s).scr.tags = s.scr.tags := (rfl)
@[simp] theorem onQue_scr_admitted (q : Fin 32) (f : Que → Que) (s : State) : (State.onQue q f s).scr.admitted = s.scr.admitted := (rfl)
@[simp] theorem onQue_scr_legalEver (q : Fin 32) (f : Que → Que) (s : State) : (State.onQue q f s).scr.legalEver = s.scr.legalEver := (rfl)
@[simp] theorem onQue_scr_challenge (q : Fin 32) (f : Que → Que) (s : State) : (State.onQue q f s).scr.challenge = s.scr.challenge := (rfl)
@[simp] theorem onQue_scr_baudDue (q : Fin 32) (f : Que → Que) (s : State) : (State.onQue q f s).scr.baudDue = s.scr.baudDue := (rfl)
@[simp] theorem onQue_scr_inkLock (q : Fin 32) (f : Que → Que) (s : State) : (State.onQue q f s).scr.inkLock = s.scr.inkLock := (rfl)
@[simp] theorem onQue_ev (q : Fin 32) (f : Que → Que) (s : State) : (State.onQue q f s).ev = s.ev := (rfl)
@[simp] theorem onQue_intc (q : Fin 32) (f : Que → Que) (s : State) : (State.onQue q f s).intc = s.intc := (rfl)
@[simp] theorem onQue_pwr (q : Fin 32) (f : Que → Que) (s : State) : (State.onQue q f s).pwr = s.pwr := (rfl)
@[simp] theorem onQue_flt (q : Fin 32) (f : Que → Que) (s : State) : (State.onQue q f s).flt = s.flt := (rfl)
@[simp] theorem onQue_anv (q : Fin 32) (f : Que → Que) (s : State) : (State.onQue q f s).anv = s.anv := (rfl)
@[simp] theorem onQue_cld (q : Fin 32) (f : Que → Que) (s : State) : (State.onQue q f s).cld = s.cld := (rfl)
@[simp] theorem onQue_grd (q : Fin 32) (f : Que → Que) (s : State) : (State.onQue q f s).grd = s.grd := (rfl)
@[simp] theorem onQue_pnl (q : Fin 32) (f : Que → Que) (s : State) : (State.onQue q f s).pnl = s.pnl := (rfl)
@[simp] theorem onQue_trim (q : Fin 32) (f : Que → Que) (s : State) : (State.onQue q f s).trim = s.trim := (rfl)

/-! ### `State.onSession` -/

@[simp] theorem onSession_pending (i : Fin 1024) (f : Session → Session) (s : State) : (State.onSession i f s).pending = s.pending := (rfl)
@[simp] theorem onSession_draws (i : Fin 1024) (f : Session → Session) (s : State) : (State.onSession i f s).draws = s.draws := (rfl)
@[simp] theorem onSession_now (i : Fin 1024) (f : Session → Session) (s : State) : (State.onSession i f s).now = s.now := (rfl)
@[simp] theorem onSession_dev (i : Fin 1024) (f : Session → Session) (s : State) : (State.onSession i f s).dev = s.dev := (rfl)
@[simp] theorem onSession_cfg (i : Fin 1024) (f : Session → Session) (s : State) : (State.onSession i f s).cfg = s.cfg := (rfl)
@[simp] theorem onSession_eff (i : Fin 1024) (f : Session → Session) (s : State) : (State.onSession i f s).eff = s.eff := (rfl)
@[simp] theorem onSession_slots (i : Fin 1024) (f : Session → Session) (s : State) : (State.onSession i f s).slots = s.slots := (rfl)
@[simp] theorem onSession_chans (i : Fin 1024) (f : Session → Session) (s : State) : (State.onSession i f s).chans = s.chans := (rfl)
@[simp] theorem onSession_spares (i : Fin 1024) (f : Session → Session) (s : State) : (State.onSession i f s).spares = s.spares := (rfl)
@[simp] theorem onSession_pts (i : Fin 1024) (f : Session → Session) (s : State) : (State.onSession i f s).pts = s.pts := (rfl)
@[simp] theorem onSession_buses (i : Fin 1024) (f : Session → Session) (s : State) : (State.onSession i f s).buses = s.buses := (rfl)
@[simp] theorem onSession_tb (i : Fin 1024) (f : Session → Session) (s : State) : (State.onSession i f s).tb = s.tb := (rfl)
@[simp] theorem onSession_engine (i : Fin 1024) (f : Session → Session) (s : State) : (State.onSession i f s).engine = s.engine := (rfl)
@[simp] theorem onSession_mcal (i : Fin 1024) (f : Session → Session) (s : State) : (State.onSession i f s).mcal = s.mcal := (rfl)
@[simp] theorem onSession_prof (i : Fin 1024) (f : Session → Session) (s : State) : (State.onSession i f s).prof = s.prof := (rfl)
@[simp] theorem onSession_pq (i : Fin 1024) (f : Session → Session) (s : State) : (State.onSession i f s).pq = s.pq := (rfl)
@[simp] theorem onSession_wb (i : Fin 1024) (f : Session → Session) (s : State) : (State.onSession i f s).wb = s.wb := (rfl)
@[simp] theorem onSession_pulses (i : Fin 1024) (f : Session → Session) (s : State) : (State.onSession i f s).pulses = s.pulses := (rfl)
@[simp] theorem onSession_fol (i : Fin 1024) (f : Session → Session) (s : State) : (State.onSession i f s).fol = s.fol := (rfl)
@[simp] theorem onSession_scr_ports (i : Fin 1024) (f : Session → Session) (s : State) : (State.onSession i f s).scr.ports = s.scr.ports := (rfl)
@[simp] theorem onSession_scr_queues (i : Fin 1024) (f : Session → Session) (s : State) : (State.onSession i f s).scr.queues = s.scr.queues := (rfl)
@[simp] theorem onSession_scr_tags (i : Fin 1024) (f : Session → Session) (s : State) : (State.onSession i f s).scr.tags = s.scr.tags := (rfl)
@[simp] theorem onSession_scr_admitted (i : Fin 1024) (f : Session → Session) (s : State) : (State.onSession i f s).scr.admitted = s.scr.admitted := (rfl)
@[simp] theorem onSession_scr_legalEver (i : Fin 1024) (f : Session → Session) (s : State) : (State.onSession i f s).scr.legalEver = s.scr.legalEver := (rfl)
@[simp] theorem onSession_scr_challenge (i : Fin 1024) (f : Session → Session) (s : State) : (State.onSession i f s).scr.challenge = s.scr.challenge := (rfl)
@[simp] theorem onSession_scr_baudDue (i : Fin 1024) (f : Session → Session) (s : State) : (State.onSession i f s).scr.baudDue = s.scr.baudDue := (rfl)
@[simp] theorem onSession_scr_inkLock (i : Fin 1024) (f : Session → Session) (s : State) : (State.onSession i f s).scr.inkLock = s.scr.inkLock := (rfl)
@[simp] theorem onSession_ev (i : Fin 1024) (f : Session → Session) (s : State) : (State.onSession i f s).ev = s.ev := (rfl)
@[simp] theorem onSession_intc (i : Fin 1024) (f : Session → Session) (s : State) : (State.onSession i f s).intc = s.intc := (rfl)
@[simp] theorem onSession_pwr (i : Fin 1024) (f : Session → Session) (s : State) : (State.onSession i f s).pwr = s.pwr := (rfl)
@[simp] theorem onSession_flt (i : Fin 1024) (f : Session → Session) (s : State) : (State.onSession i f s).flt = s.flt := (rfl)
@[simp] theorem onSession_anv (i : Fin 1024) (f : Session → Session) (s : State) : (State.onSession i f s).anv = s.anv := (rfl)
@[simp] theorem onSession_cld (i : Fin 1024) (f : Session → Session) (s : State) : (State.onSession i f s).cld = s.cld := (rfl)
@[simp] theorem onSession_grd (i : Fin 1024) (f : Session → Session) (s : State) : (State.onSession i f s).grd = s.grd := (rfl)
@[simp] theorem onSession_pnl (i : Fin 1024) (f : Session → Session) (s : State) : (State.onSession i f s).pnl = s.pnl := (rfl)
@[simp] theorem onSession_trim (i : Fin 1024) (f : Session → Session) (s : State) : (State.onSession i f s).trim = s.trim := (rfl)

/-! ### `State.phase` -/

@[simp] theorem phase_pending (f : Startup → Startup) (s : State) : (State.phase f s).pending = s.pending := (rfl)
@[simp] theorem phase_draws (f : Startup → Startup) (s : State) : (State.phase f s).draws = s.draws := (rfl)
@[simp] theorem phase_now (f : Startup → Startup) (s : State) : (State.phase f s).now = s.now := (rfl)
@[simp] theorem phase_dev_variant (f : Startup → Startup) (s : State) : (State.phase f s).dev.variant = s.dev.variant := (rfl)
@[simp] theorem phase_dev_st (f : Startup → Startup) (s : State) : (State.phase f s).dev.st = s.dev.st := (rfl)
@[simp] theorem phase_dev_bankAt (f : Startup → Startup) (s : State) : (State.phase f s).dev.bankAt = s.dev.bankAt := (rfl)
@[simp] theorem phase_dev_bankedFrom (f : Startup → Startup) (s : State) : (State.phase f s).dev.bankedFrom = s.dev.bankedFrom := (rfl)
@[simp] theorem phase_dev_coresAsleep (f : Startup → Startup) (s : State) : (State.phase f s).dev.coresAsleep = s.dev.coresAsleep := (rfl)
@[simp] theorem phase_dev_softReset (f : Startup → Startup) (s : State) : (State.phase f s).dev.softReset = s.dev.softReset := (rfl)
@[simp] theorem phase_cfg (f : Startup → Startup) (s : State) : (State.phase f s).cfg = s.cfg := (rfl)
@[simp] theorem phase_eff (f : Startup → Startup) (s : State) : (State.phase f s).eff = s.eff := (rfl)
@[simp] theorem phase_slots (f : Startup → Startup) (s : State) : (State.phase f s).slots = s.slots := (rfl)
@[simp] theorem phase_chans (f : Startup → Startup) (s : State) : (State.phase f s).chans = s.chans := (rfl)
@[simp] theorem phase_spares (f : Startup → Startup) (s : State) : (State.phase f s).spares = s.spares := (rfl)
@[simp] theorem phase_pts (f : Startup → Startup) (s : State) : (State.phase f s).pts = s.pts := (rfl)
@[simp] theorem phase_buses (f : Startup → Startup) (s : State) : (State.phase f s).buses = s.buses := (rfl)
@[simp] theorem phase_tb (f : Startup → Startup) (s : State) : (State.phase f s).tb = s.tb := (rfl)
@[simp] theorem phase_engine (f : Startup → Startup) (s : State) : (State.phase f s).engine = s.engine := (rfl)
@[simp] theorem phase_mcal (f : Startup → Startup) (s : State) : (State.phase f s).mcal = s.mcal := (rfl)
@[simp] theorem phase_prof (f : Startup → Startup) (s : State) : (State.phase f s).prof = s.prof := (rfl)
@[simp] theorem phase_pq (f : Startup → Startup) (s : State) : (State.phase f s).pq = s.pq := (rfl)
@[simp] theorem phase_wb (f : Startup → Startup) (s : State) : (State.phase f s).wb = s.wb := (rfl)
@[simp] theorem phase_pulses (f : Startup → Startup) (s : State) : (State.phase f s).pulses = s.pulses := (rfl)
@[simp] theorem phase_fol (f : Startup → Startup) (s : State) : (State.phase f s).fol = s.fol := (rfl)
@[simp] theorem phase_scr (f : Startup → Startup) (s : State) : (State.phase f s).scr = s.scr := (rfl)
@[simp] theorem phase_ev (f : Startup → Startup) (s : State) : (State.phase f s).ev = s.ev := (rfl)
@[simp] theorem phase_intc (f : Startup → Startup) (s : State) : (State.phase f s).intc = s.intc := (rfl)
@[simp] theorem phase_pwr (f : Startup → Startup) (s : State) : (State.phase f s).pwr = s.pwr := (rfl)
@[simp] theorem phase_flt (f : Startup → Startup) (s : State) : (State.phase f s).flt = s.flt := (rfl)
@[simp] theorem phase_anv (f : Startup → Startup) (s : State) : (State.phase f s).anv = s.anv := (rfl)
@[simp] theorem phase_cld (f : Startup → Startup) (s : State) : (State.phase f s).cld = s.cld := (rfl)
@[simp] theorem phase_grd (f : Startup → Startup) (s : State) : (State.phase f s).grd = s.grd := (rfl)
@[simp] theorem phase_pnl (f : Startup → Startup) (s : State) : (State.phase f s).pnl = s.pnl := (rfl)
@[simp] theorem phase_trim (f : Startup → Startup) (s : State) : (State.phase f s).trim = s.trim := (rfl)

/-! ### `State.onSlot` -/

@[simp] theorem onSlot_pending (i : Fin 2) (f : FwSlot → FwSlot) (s : State) : (State.onSlot i f s).pending = s.pending := (rfl)
@[simp] theorem onSlot_draws (i : Fin 2) (f : FwSlot → FwSlot) (s : State) : (State.onSlot i f s).draws = s.draws := (rfl)
@[simp] theorem onSlot_now (i : Fin 2) (f : FwSlot → FwSlot) (s : State) : (State.onSlot i f s).now = s.now := (rfl)
@[simp] theorem onSlot_dev (i : Fin 2) (f : FwSlot → FwSlot) (s : State) : (State.onSlot i f s).dev = s.dev := (rfl)
@[simp] theorem onSlot_cfg (i : Fin 2) (f : FwSlot → FwSlot) (s : State) : (State.onSlot i f s).cfg = s.cfg := (rfl)
@[simp] theorem onSlot_eff (i : Fin 2) (f : FwSlot → FwSlot) (s : State) : (State.onSlot i f s).eff = s.eff := (rfl)
@[simp] theorem onSlot_slots (i : Fin 2) (f : FwSlot → FwSlot) (s : State) : (State.onSlot i f s).slots = s.slots := (rfl)
@[simp] theorem onSlot_chans (i : Fin 2) (f : FwSlot → FwSlot) (s : State) : (State.onSlot i f s).chans = s.chans := (rfl)
@[simp] theorem onSlot_spares (i : Fin 2) (f : FwSlot → FwSlot) (s : State) : (State.onSlot i f s).spares = s.spares := (rfl)
@[simp] theorem onSlot_pts (i : Fin 2) (f : FwSlot → FwSlot) (s : State) : (State.onSlot i f s).pts = s.pts := (rfl)
@[simp] theorem onSlot_buses (i : Fin 2) (f : FwSlot → FwSlot) (s : State) : (State.onSlot i f s).buses = s.buses := (rfl)
@[simp] theorem onSlot_tb (i : Fin 2) (f : FwSlot → FwSlot) (s : State) : (State.onSlot i f s).tb = s.tb := (rfl)
@[simp] theorem onSlot_engine (i : Fin 2) (f : FwSlot → FwSlot) (s : State) : (State.onSlot i f s).engine = s.engine := (rfl)
@[simp] theorem onSlot_mcal (i : Fin 2) (f : FwSlot → FwSlot) (s : State) : (State.onSlot i f s).mcal = s.mcal := (rfl)
@[simp] theorem onSlot_prof (i : Fin 2) (f : FwSlot → FwSlot) (s : State) : (State.onSlot i f s).prof = s.prof := (rfl)
@[simp] theorem onSlot_pq (i : Fin 2) (f : FwSlot → FwSlot) (s : State) : (State.onSlot i f s).pq = s.pq := (rfl)
@[simp] theorem onSlot_wb (i : Fin 2) (f : FwSlot → FwSlot) (s : State) : (State.onSlot i f s).wb = s.wb := (rfl)
@[simp] theorem onSlot_pulses (i : Fin 2) (f : FwSlot → FwSlot) (s : State) : (State.onSlot i f s).pulses = s.pulses := (rfl)
@[simp] theorem onSlot_fol (i : Fin 2) (f : FwSlot → FwSlot) (s : State) : (State.onSlot i f s).fol = s.fol := (rfl)
@[simp] theorem onSlot_scr (i : Fin 2) (f : FwSlot → FwSlot) (s : State) : (State.onSlot i f s).scr = s.scr := (rfl)
@[simp] theorem onSlot_ev (i : Fin 2) (f : FwSlot → FwSlot) (s : State) : (State.onSlot i f s).ev = s.ev := (rfl)
@[simp] theorem onSlot_intc (i : Fin 2) (f : FwSlot → FwSlot) (s : State) : (State.onSlot i f s).intc = s.intc := (rfl)
@[simp] theorem onSlot_pwr (i : Fin 2) (f : FwSlot → FwSlot) (s : State) : (State.onSlot i f s).pwr = s.pwr := (rfl)
@[simp] theorem onSlot_flt (i : Fin 2) (f : FwSlot → FwSlot) (s : State) : (State.onSlot i f s).flt = s.flt := (rfl)
@[simp] theorem onSlot_anv_up (i : Fin 2) (f : FwSlot → FwSlot) (s : State) : (State.onSlot i f s).anv.up = s.anv.up := (rfl)
@[simp] theorem onSlot_anv_slot (i : Fin 2) (f : FwSlot → FwSlot) (s : State) : (State.onSlot i f s).anv.slot = s.anv.slot := (rfl)
@[simp] theorem onSlot_anv_active (i : Fin 2) (f : FwSlot → FwSlot) (s : State) : (State.onSlot i f s).anv.active = s.anv.active := (rfl)
@[simp] theorem onSlot_anv_fallback (i : Fin 2) (f : FwSlot → FwSlot) (s : State) : (State.onSlot i f s).anv.fallback = s.anv.fallback := (rfl)
@[simp] theorem onSlot_anv_fw (i : Fin 2) (f : FwSlot → FwSlot) (s : State) : (State.onSlot i f s).anv.fw = s.anv.fw := (rfl)
@[simp] theorem onSlot_anv_epoch (i : Fin 2) (f : FwSlot → FwSlot) (s : State) : (State.onSlot i f s).anv.epoch = s.anv.epoch := (rfl)
@[simp] theorem onSlot_anv_version (i : Fin 2) (f : FwSlot → FwSlot) (s : State) : (State.onSlot i f s).anv.version = s.anv.version := (rfl)
@[simp] theorem onSlot_anv_trialLeft (i : Fin 2) (f : FwSlot → FwSlot) (s : State) : (State.onSlot i f s).anv.trialLeft = s.anv.trialLeft := (rfl)
@[simp] theorem onSlot_anv_trialOver (i : Fin 2) (f : FwSlot → FwSlot) (s : State) : (State.onSlot i f s).anv.trialOver = s.anv.trialOver := (rfl)
@[simp] theorem onSlot_anv_checkDue (i : Fin 2) (f : FwSlot → FwSlot) (s : State) : (State.onSlot i f s).anv.checkDue = s.anv.checkDue := (rfl)
@[simp] theorem onSlot_anv_fillDue (i : Fin 2) (f : FwSlot → FwSlot) (s : State) : (State.onSlot i f s).anv.fillDue = s.anv.fillDue := (rfl)
@[simp] theorem onSlot_anv_blots (i : Fin 2) (f : FwSlot → FwSlot) (s : State) : (State.onSlot i f s).anv.blots = s.anv.blots := (rfl)
@[simp] theorem onSlot_anv_auxRes (i : Fin 2) (f : FwSlot → FwSlot) (s : State) : (State.onSlot i f s).anv.auxRes = s.anv.auxRes := (rfl)
@[simp] theorem onSlot_anv_auxDue (i : Fin 2) (f : FwSlot → FwSlot) (s : State) : (State.onSlot i f s).anv.auxDue = s.anv.auxDue := (rfl)
@[simp] theorem onSlot_anv_hall (i : Fin 2) (f : FwSlot → FwSlot) (s : State) : (State.onSlot i f s).anv.hall = s.anv.hall := (rfl)
@[simp] theorem onSlot_anv_hallLast (i : Fin 2) (f : FwSlot → FwSlot) (s : State) : (State.onSlot i f s).anv.hallLast = s.anv.hallLast := (rfl)
@[simp] theorem onSlot_anv_magScans (i : Fin 2) (f : FwSlot → FwSlot) (s : State) : (State.onSlot i f s).anv.magScans = s.anv.magScans := (rfl)
@[simp] theorem onSlot_anv_refActive (i : Fin 2) (f : FwSlot → FwSlot) (s : State) : (State.onSlot i f s).anv.refActive = s.anv.refActive := (rfl)
@[simp] theorem onSlot_anv_refClear (i : Fin 2) (f : FwSlot → FwSlot) (s : State) : (State.onSlot i f s).anv.refClear = s.anv.refClear := (rfl)
@[simp] theorem onSlot_anv_tempActive (i : Fin 2) (f : FwSlot → FwSlot) (s : State) : (State.onSlot i f s).anv.tempActive = s.anv.tempActive := (rfl)
@[simp] theorem onSlot_anv_images (i : Fin 2) (f : FwSlot → FwSlot) (s : State) : (State.onSlot i f s).anv.images = s.anv.images := (rfl)
@[simp] theorem onSlot_anv_saveDue (i : Fin 2) (f : FwSlot → FwSlot) (s : State) : (State.onSlot i f s).anv.saveDue = s.anv.saveDue := (rfl)
@[simp] theorem onSlot_anv_log (i : Fin 2) (f : FwSlot → FwSlot) (s : State) : (State.onSlot i f s).anv.log = s.anv.log := (rfl)
@[simp] theorem onSlot_anv_logNext (i : Fin 2) (f : FwSlot → FwSlot) (s : State) : (State.onSlot i f s).anv.logNext = s.anv.logNext := (rfl)
@[simp] theorem onSlot_anv_logLink (i : Fin 2) (f : FwSlot → FwSlot) (s : State) : (State.onSlot i f s).anv.logLink = s.anv.logLink := (rfl)
@[simp] theorem onSlot_cld (i : Fin 2) (f : FwSlot → FwSlot) (s : State) : (State.onSlot i f s).cld = s.cld := (rfl)
@[simp] theorem onSlot_grd (i : Fin 2) (f : FwSlot → FwSlot) (s : State) : (State.onSlot i f s).grd = s.grd := (rfl)
@[simp] theorem onSlot_pnl (i : Fin 2) (f : FwSlot → FwSlot) (s : State) : (State.onSlot i f s).pnl = s.pnl := (rfl)
@[simp] theorem onSlot_trim (i : Fin 2) (f : FwSlot → FwSlot) (s : State) : (State.onSlot i f s).trim = s.trim := (rfl)

/-! ### `State.resetCause` -/

@[simp] theorem resetCause_pending (b : BitVec 11) (s : State) : (State.resetCause b s).pending = s.pending := (rfl)
@[simp] theorem resetCause_draws (b : BitVec 11) (s : State) : (State.resetCause b s).draws = s.draws := (rfl)
@[simp] theorem resetCause_now (b : BitVec 11) (s : State) : (State.resetCause b s).now = s.now := (rfl)
@[simp] theorem resetCause_dev (b : BitVec 11) (s : State) : (State.resetCause b s).dev = s.dev := (rfl)
@[simp] theorem resetCause_cfg (b : BitVec 11) (s : State) : (State.resetCause b s).cfg = s.cfg := (rfl)
@[simp] theorem resetCause_eff (b : BitVec 11) (s : State) : (State.resetCause b s).eff = s.eff := (rfl)
@[simp] theorem resetCause_slots (b : BitVec 11) (s : State) : (State.resetCause b s).slots = s.slots := (rfl)
@[simp] theorem resetCause_chans (b : BitVec 11) (s : State) : (State.resetCause b s).chans = s.chans := (rfl)
@[simp] theorem resetCause_spares (b : BitVec 11) (s : State) : (State.resetCause b s).spares = s.spares := (rfl)
@[simp] theorem resetCause_pts (b : BitVec 11) (s : State) : (State.resetCause b s).pts = s.pts := (rfl)
@[simp] theorem resetCause_buses (b : BitVec 11) (s : State) : (State.resetCause b s).buses = s.buses := (rfl)
@[simp] theorem resetCause_tb (b : BitVec 11) (s : State) : (State.resetCause b s).tb = s.tb := (rfl)
@[simp] theorem resetCause_engine (b : BitVec 11) (s : State) : (State.resetCause b s).engine = s.engine := (rfl)
@[simp] theorem resetCause_mcal (b : BitVec 11) (s : State) : (State.resetCause b s).mcal = s.mcal := (rfl)
@[simp] theorem resetCause_prof (b : BitVec 11) (s : State) : (State.resetCause b s).prof = s.prof := (rfl)
@[simp] theorem resetCause_pq (b : BitVec 11) (s : State) : (State.resetCause b s).pq = s.pq := (rfl)
@[simp] theorem resetCause_wb (b : BitVec 11) (s : State) : (State.resetCause b s).wb = s.wb := (rfl)
@[simp] theorem resetCause_pulses (b : BitVec 11) (s : State) : (State.resetCause b s).pulses = s.pulses := (rfl)
@[simp] theorem resetCause_fol (b : BitVec 11) (s : State) : (State.resetCause b s).fol = s.fol := (rfl)
@[simp] theorem resetCause_scr (b : BitVec 11) (s : State) : (State.resetCause b s).scr = s.scr := (rfl)
@[simp] theorem resetCause_ev (b : BitVec 11) (s : State) : (State.resetCause b s).ev = s.ev := (rfl)
@[simp] theorem resetCause_intc (b : BitVec 11) (s : State) : (State.resetCause b s).intc = s.intc := (rfl)
@[simp] theorem resetCause_flt (b : BitVec 11) (s : State) : (State.resetCause b s).flt = s.flt := (rfl)
@[simp] theorem resetCause_anv (b : BitVec 11) (s : State) : (State.resetCause b s).anv = s.anv := (rfl)
@[simp] theorem resetCause_cld (b : BitVec 11) (s : State) : (State.resetCause b s).cld = s.cld := (rfl)
@[simp] theorem resetCause_grd (b : BitVec 11) (s : State) : (State.resetCause b s).grd = s.grd := (rfl)
@[simp] theorem resetCause_pnl (b : BitVec 11) (s : State) : (State.resetCause b s).pnl = s.pnl := (rfl)
@[simp] theorem resetCause_trim (b : BitVec 11) (s : State) : (State.resetCause b s).trim = s.trim := (rfl)

/-! ### `State.deliver` -/

@[simp] theorem deliver_pending (s : State) (n : Fin 192) (t : Fin 6) : (State.deliver s n t).pending = s.pending := (rfl)
@[simp] theorem deliver_draws (s : State) (n : Fin 192) (t : Fin 6) : (State.deliver s n t).draws = s.draws := (rfl)
@[simp] theorem deliver_now (s : State) (n : Fin 192) (t : Fin 6) : (State.deliver s n t).now = s.now := (rfl)
@[simp] theorem deliver_dev (s : State) (n : Fin 192) (t : Fin 6) : (State.deliver s n t).dev = s.dev := (rfl)
@[simp] theorem deliver_cfg (s : State) (n : Fin 192) (t : Fin 6) : (State.deliver s n t).cfg = s.cfg := (rfl)
@[simp] theorem deliver_eff (s : State) (n : Fin 192) (t : Fin 6) : (State.deliver s n t).eff = s.eff := (rfl)
@[simp] theorem deliver_slots (s : State) (n : Fin 192) (t : Fin 6) : (State.deliver s n t).slots = s.slots := (rfl)
@[simp] theorem deliver_chans (s : State) (n : Fin 192) (t : Fin 6) : (State.deliver s n t).chans = s.chans := (rfl)
@[simp] theorem deliver_spares (s : State) (n : Fin 192) (t : Fin 6) : (State.deliver s n t).spares = s.spares := (rfl)
@[simp] theorem deliver_pts (s : State) (n : Fin 192) (t : Fin 6) : (State.deliver s n t).pts = s.pts := (rfl)
@[simp] theorem deliver_buses (s : State) (n : Fin 192) (t : Fin 6) : (State.deliver s n t).buses = s.buses := (rfl)
@[simp] theorem deliver_tb (s : State) (n : Fin 192) (t : Fin 6) : (State.deliver s n t).tb = s.tb := (rfl)
@[simp] theorem deliver_engine (s : State) (n : Fin 192) (t : Fin 6) : (State.deliver s n t).engine = s.engine := (rfl)
@[simp] theorem deliver_mcal (s : State) (n : Fin 192) (t : Fin 6) : (State.deliver s n t).mcal = s.mcal := (rfl)
@[simp] theorem deliver_prof (s : State) (n : Fin 192) (t : Fin 6) : (State.deliver s n t).prof = s.prof := (rfl)
@[simp] theorem deliver_pq (s : State) (n : Fin 192) (t : Fin 6) : (State.deliver s n t).pq = s.pq := (rfl)
@[simp] theorem deliver_wb (s : State) (n : Fin 192) (t : Fin 6) : (State.deliver s n t).wb = s.wb := (rfl)
@[simp] theorem deliver_pulses (s : State) (n : Fin 192) (t : Fin 6) : (State.deliver s n t).pulses = s.pulses := (rfl)
@[simp] theorem deliver_fol (s : State) (n : Fin 192) (t : Fin 6) : (State.deliver s n t).fol = s.fol := (rfl)
@[simp] theorem deliver_scr (s : State) (n : Fin 192) (t : Fin 6) : (State.deliver s n t).scr = s.scr := (rfl)
@[simp] theorem deliver_ev (s : State) (n : Fin 192) (t : Fin 6) : (State.deliver s n t).ev = s.ev := (rfl)
@[simp] theorem deliver_pwr (s : State) (n : Fin 192) (t : Fin 6) : (State.deliver s n t).pwr = s.pwr := (rfl)
@[simp] theorem deliver_flt (s : State) (n : Fin 192) (t : Fin 6) : (State.deliver s n t).flt = s.flt := (rfl)
@[simp] theorem deliver_anv (s : State) (n : Fin 192) (t : Fin 6) : (State.deliver s n t).anv = s.anv := (rfl)
@[simp] theorem deliver_cld (s : State) (n : Fin 192) (t : Fin 6) : (State.deliver s n t).cld = s.cld := (rfl)
@[simp] theorem deliver_grd (s : State) (n : Fin 192) (t : Fin 6) : (State.deliver s n t).grd = s.grd := (rfl)
@[simp] theorem deliver_pnl (s : State) (n : Fin 192) (t : Fin 6) : (State.deliver s n t).pnl = s.pnl := (rfl)
@[simp] theorem deliver_trim (s : State) (n : Fin 192) (t : Fin 6) : (State.deliver s n t).trim = s.trim := (rfl)

/-! ### What an update leaves in its own part -/

/-- An updated place of a vector. -/
@[simp] theorem upd_same {α : Type} {n : Nat} (v : Vector α n) (i : Fin n) (f : α → α) : (upd v i f)[i] = f v[i] := by simp [upd]

/-- Another place of an updated vector. -/
theorem upd_other {α : Type} {n : Nat} (v : Vector α n) (i j : Fin n) (f : α → α) (h : j ≠ i) : (upd v i f)[j] = v[j] := by
  have : i.val ≠ j.val := fun e => h (Fin.ext e.symm)
  simp [upd, this]

end Sys2Proof.Laws
end

