-- ==== Sys2Proof/Laws/Frames.lean ====
section
/-!
SUPPORT. What the shared operations leave as it was: routing and raising of interrupts, blot bits, events, completions and the end
of sessions. One lemma per operation and field; a name is the operation's, then the field's.
-/
namespace Sys2Proof.Laws

open Sys2Proof.Machine

/-- Effects one after another keep what each keeps. -/
theorem chain_keeps {α β : Type} (g : State → β) (l : List α) (f : α → State → State) (h : ∀ a s, g (f a s) = g s) (s : State) :
    g (chain l f s) = g s := by
  unfold chain
  induction l generalizing s with
  | nil => rfl
  | cons a l ih => rw [List.foldl_cons, ih, h]

/-! ### `State.latch` -/

@[simp] theorem latch_pending (n : Nat) (s : State) : (State.latch n s).pending = s.pending := by unfold State.latch; split <;> rfl
@[simp] theorem latch_draws (n : Nat) (s : State) : (State.latch n s).draws = s.draws := by unfold State.latch; split <;> rfl
@[simp] theorem latch_now (n : Nat) (s : State) : (State.latch n s).now = s.now := by unfold State.latch; split <;> rfl
@[simp] theorem latch_dev (n : Nat) (s : State) : (State.latch n s).dev = s.dev := by unfold State.latch; split <;> rfl
@[simp] theorem latch_cfg (n : Nat) (s : State) : (State.latch n s).cfg = s.cfg := by unfold State.latch; split <;> rfl
@[simp] theorem latch_eff (n : Nat) (s : State) : (State.latch n s).eff = s.eff := by unfold State.latch; split <;> rfl
@[simp] theorem latch_slots (n : Nat) (s : State) : (State.latch n s).slots = s.slots := by unfold State.latch; split <;> rfl
@[simp] theorem latch_chans (n : Nat) (s : State) : (State.latch n s).chans = s.chans := by unfold State.latch; split <;> rfl
@[simp] theorem latch_spares (n : Nat) (s : State) : (State.latch n s).spares = s.spares := by unfold State.latch; split <;> rfl
@[simp] theorem latch_pts (n : Nat) (s : State) : (State.latch n s).pts = s.pts := by unfold State.latch; split <;> rfl
@[simp] theorem latch_buses (n : Nat) (s : State) : (State.latch n s).buses = s.buses := by unfold State.latch; split <;> rfl
@[simp] theorem latch_tb (n : Nat) (s : State) : (State.latch n s).tb = s.tb := by unfold State.latch; split <;> rfl
@[simp] theorem latch_engine (n : Nat) (s : State) : (State.latch n s).engine = s.engine := by unfold State.latch; split <;> rfl
@[simp] theorem latch_mcal (n : Nat) (s : State) : (State.latch n s).mcal = s.mcal := by unfold State.latch; split <;> rfl
@[simp] theorem latch_prof (n : Nat) (s : State) : (State.latch n s).prof = s.prof := by unfold State.latch; split <;> rfl
@[simp] theorem latch_pq (n : Nat) (s : State) : (State.latch n s).pq = s.pq := by unfold State.latch; split <;> rfl
@[simp] theorem latch_wb (n : Nat) (s : State) : (State.latch n s).wb = s.wb := by unfold State.latch; split <;> rfl
@[simp] theorem latch_pulses (n : Nat) (s : State) : (State.latch n s).pulses = s.pulses := by unfold State.latch; split <;> rfl
@[simp] theorem latch_fol (n : Nat) (s : State) : (State.latch n s).fol = s.fol := by unfold State.latch; split <;> rfl
@[simp] theorem latch_scr (n : Nat) (s : State) : (State.latch n s).scr = s.scr := by unfold State.latch; split <;> rfl
@[simp] theorem latch_ev (n : Nat) (s : State) : (State.latch n s).ev = s.ev := by unfold State.latch; split <;> rfl
@[simp] theorem latch_pwr (n : Nat) (s : State) : (State.latch n s).pwr = s.pwr := by unfold State.latch; split <;> rfl
@[simp] theorem latch_flt (n : Nat) (s : State) : (State.latch n s).flt = s.flt := by unfold State.latch; split <;> rfl
@[simp] theorem latch_anv (n : Nat) (s : State) : (State.latch n s).anv = s.anv := by unfold State.latch; split <;> rfl
@[simp] theorem latch_cld (n : Nat) (s : State) : (State.latch n s).cld = s.cld := by unfold State.latch; split <;> rfl
@[simp] theorem latch_grd (n : Nat) (s : State) : (State.latch n s).grd = s.grd := by unfold State.latch; split <;> rfl
@[simp] theorem latch_pnl (n : Nat) (s : State) : (State.latch n s).pnl = s.pnl := by unfold State.latch; split <;> rfl
@[simp] theorem latch_trim (n : Nat) (s : State) : (State.latch n s).trim = s.trim := by unfold State.latch; split <;> rfl

/-! ### `State.routeN` -/

@[simp] theorem routeN_pending (k : Nat) (s : State) : (State.routeN k s).pending = s.pending := by
  induction k generalizing s with
  | zero => rfl
  | succ k ih => unfold State.routeN; split <;> simp [*]
@[simp] theorem routeN_draws (k : Nat) (s : State) : (State.routeN k s).draws = s.draws := by
  induction k generalizing s with
  | zero => rfl
  | succ k ih => unfold State.routeN; split <;> simp [*]
@[simp] theorem routeN_now (k : Nat) (s : State) : (State.routeN k s).now = s.now := by
  induction k generalizing s with
  | zero => rfl
  | succ k ih => unfold State.routeN; split <;> simp [*]
@[simp] theorem routeN_dev (k : Nat) (s : State) : (State.routeN k s).dev = s.dev := by
  induction k generalizing s with
  | zero => rfl
  | succ k ih => unfold State.routeN; split <;> simp [*]
@[simp] theorem routeN_cfg (k : Nat) (s : State) : (State.routeN k s).cfg = s.cfg := by
  induction k generalizing s with
  | zero => rfl
  | succ k ih => unfold State.routeN; split <;> simp [*]
@[simp] theorem routeN_eff (k : Nat) (s : State) : (State.routeN k s).eff = s.eff := by
  induction k generalizing s with
  | zero => rfl
  | succ k ih => unfold State.routeN; split <;> simp [*]
@[simp] theorem routeN_slots (k : Nat) (s : State) : (State.routeN k s).slots = s.slots := by
  induction k generalizing s with
  | zero => rfl
  | succ k ih => unfold State.routeN; split <;> simp [*]
@[simp] theorem routeN_chans (k : Nat) (s : State) : (State.routeN k s).chans = s.chans := by
  induction k generalizing s with
  | zero => rfl
  | succ k ih => unfold State.routeN; split <;> simp [*]
@[simp] theorem routeN_spares (k : Nat) (s : State) : (State.routeN k s).spares = s.spares := by
  induction k generalizing s with
  | zero => rfl
  | succ k ih => unfold State.routeN; split <;> simp [*]
@[simp] theorem routeN_pts (k : Nat) (s : State) : (State.routeN k s).pts = s.pts := by
  induction k generalizing s with
  | zero => rfl
  | succ k ih => unfold State.routeN; split <;> simp [*]
@[simp] theorem routeN_buses (k : Nat) (s : State) : (State.routeN k s).buses = s.buses := by
  induction k generalizing s with
  | zero => rfl
  | succ k ih => unfold State.routeN; split <;> simp [*]
@[simp] theorem routeN_tb (k : Nat) (s : State) : (State.routeN k s).tb = s.tb := by
  induction k generalizing s with
  | zero => rfl
  | succ k ih => unfold State.routeN; split <;> simp [*]
@[simp] theorem routeN_engine (k : Nat) (s : State) : (State.routeN k s).engine = s.engine := by
  induction k generalizing s with
  | zero => rfl
  | succ k ih => unfold State.routeN; split <;> simp [*]
@[simp] theorem routeN_mcal (k : Nat) (s : State) : (State.routeN k s).mcal = s.mcal := by
  induction k generalizing s with
  | zero => rfl
  | succ k ih => unfold State.routeN; split <;> simp [*]
@[simp] theorem routeN_prof (k : Nat) (s : State) : (State.routeN k s).prof = s.prof := by
  induction k generalizing s with
  | zero => rfl
  | succ k ih => unfold State.routeN; split <;> simp [*]
@[simp] theorem routeN_pq (k : Nat) (s : State) : (State.routeN k s).pq = s.pq := by
  induction k generalizing s with
  | zero => rfl
  | succ k ih => unfold State.routeN; split <;> simp [*]
@[simp] theorem routeN_wb (k : Nat) (s : State) : (State.routeN k s).wb = s.wb := by
  induction k generalizing s with
  | zero => rfl
  | succ k ih => unfold State.routeN; split <;> simp [*]
@[simp] theorem routeN_pulses (k : Nat) (s : State) : (State.routeN k s).pulses = s.pulses := by
  induction k generalizing s with
  | zero => rfl
  | succ k ih => unfold State.routeN; split <;> simp [*]
@[simp] theorem routeN_fol (k : Nat) (s : State) : (State.routeN k s).fol = s.fol := by
  induction k generalizing s with
  | zero => rfl
  | succ k ih => unfold State.routeN; split <;> simp [*]
@[simp] theorem routeN_scr (k : Nat) (s : State) : (State.routeN k s).scr = s.scr := by
  induction k generalizing s with
  | zero => rfl
  | succ k ih => unfold State.routeN; split <;> simp [*]
@[simp] theorem routeN_ev (k : Nat) (s : State) : (State.routeN k s).ev = s.ev := by
  induction k generalizing s with
  | zero => rfl
  | succ k ih => unfold State.routeN; split <;> simp [*]
@[simp] theorem routeN_pwr (k : Nat) (s : State) : (State.routeN k s).pwr = s.pwr := by
  induction k generalizing s with
  | zero => rfl
  | succ k ih => unfold State.routeN; split <;> simp [*]
@[simp] theorem routeN_flt (k : Nat) (s : State) : (State.routeN k s).flt = s.flt := by
  induction k generalizing s with
  | zero => rfl
  | succ k ih => unfold State.routeN; split <;> simp [*]
@[simp] theorem routeN_anv (k : Nat) (s : State) : (State.routeN k s).anv = s.anv := by
  induction k generalizing s with
  | zero => rfl
  | succ k ih => unfold State.routeN; split <;> simp [*]
@[simp] theorem routeN_cld (k : Nat) (s : State) : (State.routeN k s).cld = s.cld := by
  induction k generalizing s with
  | zero => rfl
  | succ k ih => unfold State.routeN; split <;> simp [*]
@[simp] theorem routeN_grd (k : Nat) (s : State) : (State.routeN k s).grd = s.grd := by
  induction k generalizing s with
  | zero => rfl
  | succ k ih => unfold State.routeN; split <;> simp [*]
@[simp] theorem routeN_pnl (k : Nat) (s : State) : (State.routeN k s).pnl = s.pnl := by
  induction k generalizing s with
  | zero => rfl
  | succ k ih => unfold State.routeN; split <;> simp [*]
@[simp] theorem routeN_trim (k : Nat) (s : State) : (State.routeN k s).trim = s.trim := by
  induction k generalizing s with
  | zero => rfl
  | succ k ih => unfold State.routeN; split <;> simp [*]

/-! ### `State.route` -/

@[simp] theorem route_pending (s : State) : (State.route s).pending = s.pending := by simp [State.route]
@[simp] theorem route_draws (s : State) : (State.route s).draws = s.draws := by simp [State.route]
@[simp] theorem route_now (s : State) : (State.route s).now = s.now := by simp [State.route]
@[simp] theorem route_dev (s : State) : (State.route s).dev = s.dev := by simp [State.route]
@[simp] theorem route_cfg (s : State) : (State.route s).cfg = s.cfg := by simp [State.route]
@[simp] theorem route_eff (s : State) : (State.route s).eff = s.eff := by simp [State.route]
@[simp] theorem route_slots (s : State) : (State.route s).slots = s.slots := by simp [State.route]
@[simp] theorem route_chans (s : State) : (State.route s).chans = s.chans := by simp [State.route]
@[simp] theorem route_spares (s : State) : (State.route s).spares = s.spares := by simp [State.route]
@[simp] theorem route_pts (s : State) : (State.route s).pts = s.pts := by simp [State.route]
@[simp] theorem route_buses (s : State) : (State.route s).buses = s.buses := by simp [State.route]
@[simp] theorem route_tb (s : State) : (State.route s).tb = s.tb := by simp [State.route]
@[simp] theorem route_engine (s : State) : (State.route s).engine = s.engine := by simp [State.route]
@[simp] theorem route_mcal (s : State) : (State.route s).mcal = s.mcal := by simp [State.route]
@[simp] theorem route_prof (s : State) : (State.route s).prof = s.prof := by simp [State.route]
@[simp] theorem route_pq (s : State) : (State.route s).pq = s.pq := by simp [State.route]
@[simp] theorem route_wb (s : State) : (State.route s).wb = s.wb := by simp [State.route]
@[simp] theorem route_pulses (s : State) : (State.route s).pulses = s.pulses := by simp [State.route]
@[simp] theorem route_fol (s : State) : (State.route s).fol = s.fol := by simp [State.route]
@[simp] theorem route_scr (s : State) : (State.route s).scr = s.scr := by simp [State.route]
@[simp] theorem route_ev (s : State) : (State.route s).ev = s.ev := by simp [State.route]
@[simp] theorem route_pwr (s : State) : (State.route s).pwr = s.pwr := by simp [State.route]
@[simp] theorem route_flt (s : State) : (State.route s).flt = s.flt := by simp [State.route]
@[simp] theorem route_anv (s : State) : (State.route s).anv = s.anv := by simp [State.route]
@[simp] theorem route_cld (s : State) : (State.route s).cld = s.cld := by simp [State.route]
@[simp] theorem route_grd (s : State) : (State.route s).grd = s.grd := by simp [State.route]
@[simp] theorem route_pnl (s : State) : (State.route s).pnl = s.pnl := by simp [State.route]
@[simp] theorem route_trim (s : State) : (State.route s).trim = s.trim := by simp [State.route]

/-! ### `State.unbank` -/

@[simp] theorem unbank_pending (s : State) : (State.unbank s).pending = s.pending := by unfold State.unbank; split <;> simp
@[simp] theorem unbank_draws (s : State) : (State.unbank s).draws = s.draws := by unfold State.unbank; split <;> simp
@[simp] theorem unbank_now (s : State) : (State.unbank s).now = s.now := by unfold State.unbank; split <;> simp
@[simp] theorem unbank_dev_variant (s : State) : (State.unbank s).dev.variant = s.dev.variant := by unfold State.unbank; split <;> simp
@[simp] theorem unbank_dev_startup (s : State) : (State.unbank s).dev.startup = s.dev.startup := by unfold State.unbank; split <;> simp
@[simp] theorem unbank_dev_bankAt (s : State) : (State.unbank s).dev.bankAt = s.dev.bankAt := by unfold State.unbank; split <;> simp
@[simp] theorem unbank_dev_bankedFrom (s : State) : (State.unbank s).dev.bankedFrom = s.dev.bankedFrom := by unfold State.unbank; split <;> simp
@[simp] theorem unbank_dev_softReset (s : State) : (State.unbank s).dev.softReset = s.dev.softReset := by unfold State.unbank; split <;> simp
@[simp] theorem unbank_cfg (s : State) : (State.unbank s).cfg = s.cfg := by unfold State.unbank; split <;> simp
@[simp] theorem unbank_eff (s : State) : (State.unbank s).eff = s.eff := by unfold State.unbank; split <;> simp
@[simp] theorem unbank_slots (s : State) : (State.unbank s).slots = s.slots := by unfold State.unbank; split <;> simp
@[simp] theorem unbank_chans (s : State) : (State.unbank s).chans = s.chans := by unfold State.unbank; split <;> simp
@[simp] theorem unbank_spares (s : State) : (State.unbank s).spares = s.spares := by unfold State.unbank; split <;> simp
@[simp] theorem unbank_pts (s : State) : (State.unbank s).pts = s.pts := by unfold State.unbank; split <;> simp
@[simp] theorem unbank_buses (s : State) : (State.unbank s).buses = s.buses := by unfold State.unbank; split <;> simp
@[simp] theorem unbank_tb (s : State) : (State.unbank s).tb = s.tb := by unfold State.unbank; split <;> simp
@[simp] theorem unbank_engine (s : State) : (State.unbank s).engine = s.engine := by unfold State.unbank; split <;> simp
@[simp] theorem unbank_mcal (s : State) : (State.unbank s).mcal = s.mcal := by unfold State.unbank; split <;> simp
@[simp] theorem unbank_prof (s : State) : (State.unbank s).prof = s.prof := by unfold State.unbank; split <;> simp
@[simp] theorem unbank_pq (s : State) : (State.unbank s).pq = s.pq := by unfold State.unbank; split <;> simp
@[simp] theorem unbank_wb (s : State) : (State.unbank s).wb = s.wb := by unfold State.unbank; split <;> simp
@[simp] theorem unbank_pulses (s : State) : (State.unbank s).pulses = s.pulses := by unfold State.unbank; split <;> simp
@[simp] theorem unbank_fol (s : State) : (State.unbank s).fol = s.fol := by unfold State.unbank; split <;> simp
@[simp] theorem unbank_scr (s : State) : (State.unbank s).scr = s.scr := by unfold State.unbank; split <;> simp
@[simp] theorem unbank_ev (s : State) : (State.unbank s).ev = s.ev := by unfold State.unbank; split <;> simp
@[simp] theorem unbank_pwr (s : State) : (State.unbank s).pwr = s.pwr := by unfold State.unbank; split <;> simp
@[simp] theorem unbank_flt (s : State) : (State.unbank s).flt = s.flt := by unfold State.unbank; split <;> simp
@[simp] theorem unbank_anv (s : State) : (State.unbank s).anv = s.anv := by unfold State.unbank; split <;> simp
@[simp] theorem unbank_cld (s : State) : (State.unbank s).cld = s.cld := by unfold State.unbank; split <;> simp
@[simp] theorem unbank_grd (s : State) : (State.unbank s).grd = s.grd := by unfold State.unbank; split <;> simp
@[simp] theorem unbank_pnl (s : State) : (State.unbank s).pnl = s.pnl := by unfold State.unbank; split <;> simp
@[simp] theorem unbank_trim (s : State) : (State.unbank s).trim = s.trim := by unfold State.unbank; split <;> simp

/-! ### `State.wake` -/

@[simp] theorem wake_pending (s : State) : (State.wake s).pending = s.pending := by unfold State.wake; split <;> simp
@[simp] theorem wake_draws (s : State) : (State.wake s).draws = s.draws := by unfold State.wake; split <;> simp
@[simp] theorem wake_now (s : State) : (State.wake s).now = s.now := by unfold State.wake; split <;> simp
@[simp] theorem wake_dev_variant (s : State) : (State.wake s).dev.variant = s.dev.variant := by unfold State.wake; split <;> simp
@[simp] theorem wake_dev_startup (s : State) : (State.wake s).dev.startup = s.dev.startup := by unfold State.wake; split <;> simp
@[simp] theorem wake_dev_bankAt (s : State) : (State.wake s).dev.bankAt = s.dev.bankAt := by unfold State.wake; split <;> simp
@[simp] theorem wake_dev_bankedFrom (s : State) : (State.wake s).dev.bankedFrom = s.dev.bankedFrom := by unfold State.wake; split <;> simp
@[simp] theorem wake_dev_softReset (s : State) : (State.wake s).dev.softReset = s.dev.softReset := by unfold State.wake; split <;> simp
@[simp] theorem wake_cfg (s : State) : (State.wake s).cfg = s.cfg := by unfold State.wake; split <;> simp
@[simp] theorem wake_eff (s : State) : (State.wake s).eff = s.eff := by unfold State.wake; split <;> simp
@[simp] theorem wake_slots (s : State) : (State.wake s).slots = s.slots := by unfold State.wake; split <;> simp
@[simp] theorem wake_chans (s : State) : (State.wake s).chans = s.chans := by unfold State.wake; split <;> simp
@[simp] theorem wake_spares (s : State) : (State.wake s).spares = s.spares := by unfold State.wake; split <;> simp
@[simp] theorem wake_pts (s : State) : (State.wake s).pts = s.pts := by unfold State.wake; split <;> simp
@[simp] theorem wake_buses (s : State) : (State.wake s).buses = s.buses := by unfold State.wake; split <;> simp
@[simp] theorem wake_tb (s : State) : (State.wake s).tb = s.tb := by unfold State.wake; split <;> simp
@[simp] theorem wake_engine (s : State) : (State.wake s).engine = s.engine := by unfold State.wake; split <;> simp
@[simp] theorem wake_mcal (s : State) : (State.wake s).mcal = s.mcal := by unfold State.wake; split <;> simp
@[simp] theorem wake_prof (s : State) : (State.wake s).prof = s.prof := by unfold State.wake; split <;> simp
@[simp] theorem wake_pq (s : State) : (State.wake s).pq = s.pq := by unfold State.wake; split <;> simp
@[simp] theorem wake_wb (s : State) : (State.wake s).wb = s.wb := by unfold State.wake; split <;> simp
@[simp] theorem wake_pulses (s : State) : (State.wake s).pulses = s.pulses := by unfold State.wake; split <;> simp
@[simp] theorem wake_fol (s : State) : (State.wake s).fol = s.fol := by unfold State.wake; split <;> simp
@[simp] theorem wake_scr (s : State) : (State.wake s).scr = s.scr := by unfold State.wake; split <;> simp
@[simp] theorem wake_ev (s : State) : (State.wake s).ev = s.ev := by unfold State.wake; split <;> simp
@[simp] theorem wake_pwr (s : State) : (State.wake s).pwr = s.pwr := by unfold State.wake; split <;> simp
@[simp] theorem wake_flt (s : State) : (State.wake s).flt = s.flt := by unfold State.wake; split <;> simp
@[simp] theorem wake_anv (s : State) : (State.wake s).anv = s.anv := by unfold State.wake; split <;> simp
@[simp] theorem wake_cld (s : State) : (State.wake s).cld = s.cld := by unfold State.wake; split <;> simp
@[simp] theorem wake_grd (s : State) : (State.wake s).grd = s.grd := by unfold State.wake; split <;> simp
@[simp] theorem wake_pnl (s : State) : (State.wake s).pnl = s.pnl := by unfold State.wake; split <;> simp
@[simp] theorem wake_trim (s : State) : (State.wake s).trim = s.trim := by unfold State.wake; split <;> simp

/-! ### `State.toLog` -/

@[simp] theorem toLog_pending (x : LogItem) (s : State) : (State.toLog x s).pending = s.pending := (rfl)
@[simp] theorem toLog_draws (x : LogItem) (s : State) : (State.toLog x s).draws = s.draws := (rfl)
@[simp] theorem toLog_now (x : LogItem) (s : State) : (State.toLog x s).now = s.now := (rfl)
@[simp] theorem toLog_dev (x : LogItem) (s : State) : (State.toLog x s).dev = s.dev := (rfl)
@[simp] theorem toLog_cfg (x : LogItem) (s : State) : (State.toLog x s).cfg = s.cfg := (rfl)
@[simp] theorem toLog_eff (x : LogItem) (s : State) : (State.toLog x s).eff = s.eff := (rfl)
@[simp] theorem toLog_slots (x : LogItem) (s : State) : (State.toLog x s).slots = s.slots := (rfl)
@[simp] theorem toLog_chans (x : LogItem) (s : State) : (State.toLog x s).chans = s.chans := (rfl)
@[simp] theorem toLog_spares (x : LogItem) (s : State) : (State.toLog x s).spares = s.spares := (rfl)
@[simp] theorem toLog_pts (x : LogItem) (s : State) : (State.toLog x s).pts = s.pts := (rfl)
@[simp] theorem toLog_buses (x : LogItem) (s : State) : (State.toLog x s).buses = s.buses := (rfl)
@[simp] theorem toLog_tb (x : LogItem) (s : State) : (State.toLog x s).tb = s.tb := (rfl)
@[simp] theorem toLog_engine (x : LogItem) (s : State) : (State.toLog x s).engine = s.engine := (rfl)
@[simp] theorem toLog_mcal (x : LogItem) (s : State) : (State.toLog x s).mcal = s.mcal := (rfl)
@[simp] theorem toLog_prof (x : LogItem) (s : State) : (State.toLog x s).prof = s.prof := (rfl)
@[simp] theorem toLog_pq (x : LogItem) (s : State) : (State.toLog x s).pq = s.pq := (rfl)
@[simp] theorem toLog_wb (x : LogItem) (s : State) : (State.toLog x s).wb = s.wb := (rfl)
@[simp] theorem toLog_pulses (x : LogItem) (s : State) : (State.toLog x s).pulses = s.pulses := (rfl)
@[simp] theorem toLog_fol (x : LogItem) (s : State) : (State.toLog x s).fol = s.fol := (rfl)
@[simp] theorem toLog_scr (x : LogItem) (s : State) : (State.toLog x s).scr = s.scr := (rfl)
@[simp] theorem toLog_intc (x : LogItem) (s : State) : (State.toLog x s).intc = s.intc := (rfl)
@[simp] theorem toLog_pwr (x : LogItem) (s : State) : (State.toLog x s).pwr = s.pwr := (rfl)
@[simp] theorem toLog_flt (x : LogItem) (s : State) : (State.toLog x s).flt = s.flt := (rfl)
@[simp] theorem toLog_anv (x : LogItem) (s : State) : (State.toLog x s).anv = s.anv := (rfl)
@[simp] theorem toLog_cld (x : LogItem) (s : State) : (State.toLog x s).cld = s.cld := (rfl)
@[simp] theorem toLog_grd (x : LogItem) (s : State) : (State.toLog x s).grd = s.grd := (rfl)
@[simp] theorem toLog_pnl (x : LogItem) (s : State) : (State.toLog x s).pnl = s.pnl := (rfl)
@[simp] theorem toLog_trim (x : LogItem) (s : State) : (State.toLog x s).trim = s.trim := (rfl)

/-! ### `State.wakeFor` -/

@[simp] theorem wakeFor_pending (l : List Nat) (s : State) : (State.wakeFor l s).pending = s.pending := by unfold State.wakeFor; split <;> simp
@[simp] theorem wakeFor_draws (l : List Nat) (s : State) : (State.wakeFor l s).draws = s.draws := by unfold State.wakeFor; split <;> simp
@[simp] theorem wakeFor_now (l : List Nat) (s : State) : (State.wakeFor l s).now = s.now := by unfold State.wakeFor; split <;> simp
@[simp] theorem wakeFor_dev_variant (l : List Nat) (s : State) : (State.wakeFor l s).dev.variant = s.dev.variant := by unfold State.wakeFor; split <;> simp
@[simp] theorem wakeFor_dev_startup (l : List Nat) (s : State) : (State.wakeFor l s).dev.startup = s.dev.startup := by unfold State.wakeFor; split <;> simp
@[simp] theorem wakeFor_dev_bankAt (l : List Nat) (s : State) : (State.wakeFor l s).dev.bankAt = s.dev.bankAt := by unfold State.wakeFor; split <;> simp
@[simp] theorem wakeFor_dev_bankedFrom (l : List Nat) (s : State) : (State.wakeFor l s).dev.bankedFrom = s.dev.bankedFrom := by unfold State.wakeFor; split <;> simp
@[simp] theorem wakeFor_dev_softReset (l : List Nat) (s : State) : (State.wakeFor l s).dev.softReset = s.dev.softReset := by unfold State.wakeFor; split <;> simp
@[simp] theorem wakeFor_cfg (l : List Nat) (s : State) : (State.wakeFor l s).cfg = s.cfg := by unfold State.wakeFor; split <;> simp
@[simp] theorem wakeFor_eff (l : List Nat) (s : State) : (State.wakeFor l s).eff = s.eff := by unfold State.wakeFor; split <;> simp
@[simp] theorem wakeFor_slots (l : List Nat) (s : State) : (State.wakeFor l s).slots = s.slots := by unfold State.wakeFor; split <;> simp
@[simp] theorem wakeFor_chans (l : List Nat) (s : State) : (State.wakeFor l s).chans = s.chans := by unfold State.wakeFor; split <;> simp
@[simp] theorem wakeFor_spares (l : List Nat) (s : State) : (State.wakeFor l s).spares = s.spares := by unfold State.wakeFor; split <;> simp
@[simp] theorem wakeFor_pts (l : List Nat) (s : State) : (State.wakeFor l s).pts = s.pts := by unfold State.wakeFor; split <;> simp
@[simp] theorem wakeFor_buses (l : List Nat) (s : State) : (State.wakeFor l s).buses = s.buses := by unfold State.wakeFor; split <;> simp
@[simp] theorem wakeFor_tb (l : List Nat) (s : State) : (State.wakeFor l s).tb = s.tb := by unfold State.wakeFor; split <;> simp
@[simp] theorem wakeFor_engine (l : List Nat) (s : State) : (State.wakeFor l s).engine = s.engine := by unfold State.wakeFor; split <;> simp
@[simp] theorem wakeFor_mcal (l : List Nat) (s : State) : (State.wakeFor l s).mcal = s.mcal := by unfold State.wakeFor; split <;> simp
@[simp] theorem wakeFor_prof (l : List Nat) (s : State) : (State.wakeFor l s).prof = s.prof := by unfold State.wakeFor; split <;> simp
@[simp] theorem wakeFor_pq (l : List Nat) (s : State) : (State.wakeFor l s).pq = s.pq := by unfold State.wakeFor; split <;> simp
@[simp] theorem wakeFor_wb (l : List Nat) (s : State) : (State.wakeFor l s).wb = s.wb := by unfold State.wakeFor; split <;> simp
@[simp] theorem wakeFor_pulses (l : List Nat) (s : State) : (State.wakeFor l s).pulses = s.pulses := by unfold State.wakeFor; split <;> simp
@[simp] theorem wakeFor_fol (l : List Nat) (s : State) : (State.wakeFor l s).fol = s.fol := by unfold State.wakeFor; split <;> simp
@[simp] theorem wakeFor_scr (l : List Nat) (s : State) : (State.wakeFor l s).scr = s.scr := by unfold State.wakeFor; split <;> simp
@[simp] theorem wakeFor_ev (l : List Nat) (s : State) : (State.wakeFor l s).ev = s.ev := by unfold State.wakeFor; split <;> simp
@[simp] theorem wakeFor_pwr (l : List Nat) (s : State) : (State.wakeFor l s).pwr = s.pwr := by unfold State.wakeFor; split <;> simp
@[simp] theorem wakeFor_flt (l : List Nat) (s : State) : (State.wakeFor l s).flt = s.flt := by unfold State.wakeFor; split <;> simp
@[simp] theorem wakeFor_anv (l : List Nat) (s : State) : (State.wakeFor l s).anv = s.anv := by unfold State.wakeFor; split <;> simp
@[simp] theorem wakeFor_cld (l : List Nat) (s : State) : (State.wakeFor l s).cld = s.cld := by unfold State.wakeFor; split <;> simp
@[simp] theorem wakeFor_grd (l : List Nat) (s : State) : (State.wakeFor l s).grd = s.grd := by unfold State.wakeFor; split <;> simp
@[simp] theorem wakeFor_pnl (l : List Nat) (s : State) : (State.wakeFor l s).pnl = s.pnl := by unfold State.wakeFor; split <;> simp
@[simp] theorem wakeFor_trim (l : List Nat) (s : State) : (State.wakeFor l s).trim = s.trim := by unfold State.wakeFor; split <;> simp

/-! ### `State.flushTarget` -/

@[simp] theorem flushTarget_pending (t : Fin 6) (s : State) : (State.flushTarget t s).pending = s.pending := by simp [State.flushTarget]
@[simp] theorem flushTarget_draws (t : Fin 6) (s : State) : (State.flushTarget t s).draws = s.draws := by simp [State.flushTarget]
@[simp] theorem flushTarget_now (t : Fin 6) (s : State) : (State.flushTarget t s).now = s.now := by simp [State.flushTarget]
@[simp] theorem flushTarget_dev_variant (t : Fin 6) (s : State) : (State.flushTarget t s).dev.variant = s.dev.variant := by simp [State.flushTarget]
@[simp] theorem flushTarget_dev_startup (t : Fin 6) (s : State) : (State.flushTarget t s).dev.startup = s.dev.startup := by simp [State.flushTarget]
@[simp] theorem flushTarget_dev_bankAt (t : Fin 6) (s : State) : (State.flushTarget t s).dev.bankAt = s.dev.bankAt := by simp [State.flushTarget]
@[simp] theorem flushTarget_dev_bankedFrom (t : Fin 6) (s : State) : (State.flushTarget t s).dev.bankedFrom = s.dev.bankedFrom := by simp [State.flushTarget]
@[simp] theorem flushTarget_dev_softReset (t : Fin 6) (s : State) : (State.flushTarget t s).dev.softReset = s.dev.softReset := by simp [State.flushTarget]
@[simp] theorem flushTarget_cfg (t : Fin 6) (s : State) : (State.flushTarget t s).cfg = s.cfg := by simp [State.flushTarget]
@[simp] theorem flushTarget_eff (t : Fin 6) (s : State) : (State.flushTarget t s).eff = s.eff := by simp [State.flushTarget]
@[simp] theorem flushTarget_slots (t : Fin 6) (s : State) : (State.flushTarget t s).slots = s.slots := by simp [State.flushTarget]
@[simp] theorem flushTarget_chans (t : Fin 6) (s : State) : (State.flushTarget t s).chans = s.chans := by simp [State.flushTarget]
@[simp] theorem flushTarget_spares (t : Fin 6) (s : State) : (State.flushTarget t s).spares = s.spares := by simp [State.flushTarget]
@[simp] theorem flushTarget_pts (t : Fin 6) (s : State) : (State.flushTarget t s).pts = s.pts := by simp [State.flushTarget]
@[simp] theorem flushTarget_buses (t : Fin 6) (s : State) : (State.flushTarget t s).buses = s.buses := by simp [State.flushTarget]
@[simp] theorem flushTarget_tb (t : Fin 6) (s : State) : (State.flushTarget t s).tb = s.tb := by simp [State.flushTarget]
@[simp] theorem flushTarget_engine (t : Fin 6) (s : State) : (State.flushTarget t s).engine = s.engine := by simp [State.flushTarget]
@[simp] theorem flushTarget_mcal (t : Fin 6) (s : State) : (State.flushTarget t s).mcal = s.mcal := by simp [State.flushTarget]
@[simp] theorem flushTarget_prof (t : Fin 6) (s : State) : (State.flushTarget t s).prof = s.prof := by simp [State.flushTarget]
@[simp] theorem flushTarget_pq (t : Fin 6) (s : State) : (State.flushTarget t s).pq = s.pq := by simp [State.flushTarget]
@[simp] theorem flushTarget_wb (t : Fin 6) (s : State) : (State.flushTarget t s).wb = s.wb := by simp [State.flushTarget]
@[simp] theorem flushTarget_pulses (t : Fin 6) (s : State) : (State.flushTarget t s).pulses = s.pulses := by simp [State.flushTarget]
@[simp] theorem flushTarget_fol (t : Fin 6) (s : State) : (State.flushTarget t s).fol = s.fol := by simp [State.flushTarget]
@[simp] theorem flushTarget_scr (t : Fin 6) (s : State) : (State.flushTarget t s).scr = s.scr := by simp [State.flushTarget]
@[simp] theorem flushTarget_ev (t : Fin 6) (s : State) : (State.flushTarget t s).ev = s.ev := by simp [State.flushTarget]
@[simp] theorem flushTarget_pwr (t : Fin 6) (s : State) : (State.flushTarget t s).pwr = s.pwr := by simp [State.flushTarget]
@[simp] theorem flushTarget_flt (t : Fin 6) (s : State) : (State.flushTarget t s).flt = s.flt := by simp [State.flushTarget]
@[simp] theorem flushTarget_anv (t : Fin 6) (s : State) : (State.flushTarget t s).anv = s.anv := by simp [State.flushTarget]
@[simp] theorem flushTarget_cld (t : Fin 6) (s : State) : (State.flushTarget t s).cld = s.cld := by simp [State.flushTarget]
@[simp] theorem flushTarget_grd (t : Fin 6) (s : State) : (State.flushTarget t s).grd = s.grd := by simp [State.flushTarget]
@[simp] theorem flushTarget_pnl (t : Fin 6) (s : State) : (State.flushTarget t s).pnl = s.pnl := by simp [State.flushTarget]
@[simp] theorem flushTarget_trim (t : Fin 6) (s : State) : (State.flushTarget t s).trim = s.trim := by simp [State.flushTarget]

/-! ### `State.woken` -/

@[simp] theorem woken_pending (op : Nat) (s : State) : (State.woken op s).pending = s.pending := by unfold State.woken; split <;> simp
@[simp] theorem woken_draws (op : Nat) (s : State) : (State.woken op s).draws = s.draws := by unfold State.woken; split <;> simp
@[simp] theorem woken_now (op : Nat) (s : State) : (State.woken op s).now = s.now := by unfold State.woken; split <;> simp
@[simp] theorem woken_dev_variant (op : Nat) (s : State) : (State.woken op s).dev.variant = s.dev.variant := by unfold State.woken; split <;> simp
@[simp] theorem woken_dev_startup (op : Nat) (s : State) : (State.woken op s).dev.startup = s.dev.startup := by unfold State.woken; split <;> simp
@[simp] theorem woken_dev_bankAt (op : Nat) (s : State) : (State.woken op s).dev.bankAt = s.dev.bankAt := by unfold State.woken; split <;> simp
@[simp] theorem woken_dev_bankedFrom (op : Nat) (s : State) : (State.woken op s).dev.bankedFrom = s.dev.bankedFrom := by unfold State.woken; split <;> simp
@[simp] theorem woken_dev_softReset (op : Nat) (s : State) : (State.woken op s).dev.softReset = s.dev.softReset := by unfold State.woken; split <;> simp
@[simp] theorem woken_cfg (op : Nat) (s : State) : (State.woken op s).cfg = s.cfg := by unfold State.woken; split <;> simp
@[simp] theorem woken_eff (op : Nat) (s : State) : (State.woken op s).eff = s.eff := by unfold State.woken; split <;> simp
@[simp] theorem woken_slots (op : Nat) (s : State) : (State.woken op s).slots = s.slots := by unfold State.woken; split <;> simp
@[simp] theorem woken_chans (op : Nat) (s : State) : (State.woken op s).chans = s.chans := by unfold State.woken; split <;> simp
@[simp] theorem woken_spares (op : Nat) (s : State) : (State.woken op s).spares = s.spares := by unfold State.woken; split <;> simp
@[simp] theorem woken_pts (op : Nat) (s : State) : (State.woken op s).pts = s.pts := by unfold State.woken; split <;> simp
@[simp] theorem woken_buses (op : Nat) (s : State) : (State.woken op s).buses = s.buses := by unfold State.woken; split <;> simp
@[simp] theorem woken_tb (op : Nat) (s : State) : (State.woken op s).tb = s.tb := by unfold State.woken; split <;> simp
@[simp] theorem woken_engine (op : Nat) (s : State) : (State.woken op s).engine = s.engine := by unfold State.woken; split <;> simp
@[simp] theorem woken_mcal (op : Nat) (s : State) : (State.woken op s).mcal = s.mcal := by unfold State.woken; split <;> simp
@[simp] theorem woken_prof (op : Nat) (s : State) : (State.woken op s).prof = s.prof := by unfold State.woken; split <;> simp
@[simp] theorem woken_pq (op : Nat) (s : State) : (State.woken op s).pq = s.pq := by unfold State.woken; split <;> simp
@[simp] theorem woken_wb (op : Nat) (s : State) : (State.woken op s).wb = s.wb := by unfold State.woken; split <;> simp
@[simp] theorem woken_pulses (op : Nat) (s : State) : (State.woken op s).pulses = s.pulses := by unfold State.woken; split <;> simp
@[simp] theorem woken_fol (op : Nat) (s : State) : (State.woken op s).fol = s.fol := by unfold State.woken; split <;> simp
@[simp] theorem woken_scr (op : Nat) (s : State) : (State.woken op s).scr = s.scr := by unfold State.woken; split <;> simp
@[simp] theorem woken_ev (op : Nat) (s : State) : (State.woken op s).ev = s.ev := by unfold State.woken; split <;> simp
@[simp] theorem woken_pwr (op : Nat) (s : State) : (State.woken op s).pwr = s.pwr := by unfold State.woken; split <;> simp
@[simp] theorem woken_flt (op : Nat) (s : State) : (State.woken op s).flt = s.flt := by unfold State.woken; split <;> simp
@[simp] theorem woken_anv (op : Nat) (s : State) : (State.woken op s).anv = s.anv := by unfold State.woken; split <;> simp
@[simp] theorem woken_cld (op : Nat) (s : State) : (State.woken op s).cld = s.cld := by unfold State.woken; split <;> simp
@[simp] theorem woken_grd (op : Nat) (s : State) : (State.woken op s).grd = s.grd := by unfold State.woken; split <;> simp
@[simp] theorem woken_pnl (op : Nat) (s : State) : (State.woken op s).pnl = s.pnl := by unfold State.woken; split <;> simp
@[simp] theorem woken_trim (op : Nat) (s : State) : (State.woken op s).trim = s.trim := by unfold State.woken; split <;> simp

/-! ### `State.pendInt` -/

@[simp] theorem pendInt_pending (n : Nat) (s : State) : (State.pendInt n s).pending = s.pending := by simp [State.pendInt]
@[simp] theorem pendInt_draws (n : Nat) (s : State) : (State.pendInt n s).draws = s.draws := by simp [State.pendInt]
@[simp] theorem pendInt_now (n : Nat) (s : State) : (State.pendInt n s).now = s.now := by simp [State.pendInt]
@[simp] theorem pendInt_dev_variant (n : Nat) (s : State) : (State.pendInt n s).dev.variant = s.dev.variant := by simp [State.pendInt]
@[simp] theorem pendInt_dev_startup (n : Nat) (s : State) : (State.pendInt n s).dev.startup = s.dev.startup := by simp [State.pendInt]
@[simp] theorem pendInt_dev_bankAt (n : Nat) (s : State) : (State.pendInt n s).dev.bankAt = s.dev.bankAt := by simp [State.pendInt]
@[simp] theorem pendInt_dev_bankedFrom (n : Nat) (s : State) : (State.pendInt n s).dev.bankedFrom = s.dev.bankedFrom := by simp [State.pendInt]
@[simp] theorem pendInt_dev_softReset (n : Nat) (s : State) : (State.pendInt n s).dev.softReset = s.dev.softReset := by simp [State.pendInt]
@[simp] theorem pendInt_cfg (n : Nat) (s : State) : (State.pendInt n s).cfg = s.cfg := by simp [State.pendInt]
@[simp] theorem pendInt_eff (n : Nat) (s : State) : (State.pendInt n s).eff = s.eff := by simp [State.pendInt]
@[simp] theorem pendInt_slots (n : Nat) (s : State) : (State.pendInt n s).slots = s.slots := by simp [State.pendInt]
@[simp] theorem pendInt_chans (n : Nat) (s : State) : (State.pendInt n s).chans = s.chans := by simp [State.pendInt]
@[simp] theorem pendInt_spares (n : Nat) (s : State) : (State.pendInt n s).spares = s.spares := by simp [State.pendInt]
@[simp] theorem pendInt_pts (n : Nat) (s : State) : (State.pendInt n s).pts = s.pts := by simp [State.pendInt]
@[simp] theorem pendInt_buses (n : Nat) (s : State) : (State.pendInt n s).buses = s.buses := by simp [State.pendInt]
@[simp] theorem pendInt_tb (n : Nat) (s : State) : (State.pendInt n s).tb = s.tb := by simp [State.pendInt]
@[simp] theorem pendInt_engine (n : Nat) (s : State) : (State.pendInt n s).engine = s.engine := by simp [State.pendInt]
@[simp] theorem pendInt_mcal (n : Nat) (s : State) : (State.pendInt n s).mcal = s.mcal := by simp [State.pendInt]
@[simp] theorem pendInt_prof (n : Nat) (s : State) : (State.pendInt n s).prof = s.prof := by simp [State.pendInt]
@[simp] theorem pendInt_pq (n : Nat) (s : State) : (State.pendInt n s).pq = s.pq := by simp [State.pendInt]
@[simp] theorem pendInt_wb (n : Nat) (s : State) : (State.pendInt n s).wb = s.wb := by simp [State.pendInt]
@[simp] theorem pendInt_pulses (n : Nat) (s : State) : (State.pendInt n s).pulses = s.pulses := by simp [State.pendInt]
@[simp] theorem pendInt_fol (n : Nat) (s : State) : (State.pendInt n s).fol = s.fol := by simp [State.pendInt]
@[simp] theorem pendInt_scr (n : Nat) (s : State) : (State.pendInt n s).scr = s.scr := by simp [State.pendInt]
@[simp] theorem pendInt_ev (n : Nat) (s : State) : (State.pendInt n s).ev = s.ev := by simp [State.pendInt]
@[simp] theorem pendInt_pwr (n : Nat) (s : State) : (State.pendInt n s).pwr = s.pwr := by simp [State.pendInt]
@[simp] theorem pendInt_flt (n : Nat) (s : State) : (State.pendInt n s).flt = s.flt := by simp [State.pendInt]
@[simp] theorem pendInt_anv (n : Nat) (s : State) : (State.pendInt n s).anv = s.anv := by simp [State.pendInt]
@[simp] theorem pendInt_cld (n : Nat) (s : State) : (State.pendInt n s).cld = s.cld := by simp [State.pendInt]
@[simp] theorem pendInt_grd (n : Nat) (s : State) : (State.pendInt n s).grd = s.grd := by simp [State.pendInt]
@[simp] theorem pendInt_pnl (n : Nat) (s : State) : (State.pendInt n s).pnl = s.pnl := by simp [State.pendInt]
@[simp] theorem pendInt_trim (n : Nat) (s : State) : (State.pendInt n s).trim = s.trim := by simp [State.pendInt]

/-! ### `State.enter` -/

@[simp] theorem enter_pending (e : Event) (s : State) : (State.enter e s).pending = s.pending := by unfold State.enter; dsimp only; (repeat' split) <;> simp
@[simp] theorem enter_draws (e : Event) (s : State) : (State.enter e s).draws = s.draws := by unfold State.enter; dsimp only; (repeat' split) <;> simp
@[simp] theorem enter_now (e : Event) (s : State) : (State.enter e s).now = s.now := by unfold State.enter; dsimp only; (repeat' split) <;> simp
@[simp] theorem enter_dev_variant (e : Event) (s : State) : (State.enter e s).dev.variant = s.dev.variant := by unfold State.enter; dsimp only; (repeat' split) <;> simp
@[simp] theorem enter_dev_startup (e : Event) (s : State) : (State.enter e s).dev.startup = s.dev.startup := by unfold State.enter; dsimp only; (repeat' split) <;> simp
@[simp] theorem enter_dev_bankAt (e : Event) (s : State) : (State.enter e s).dev.bankAt = s.dev.bankAt := by unfold State.enter; dsimp only; (repeat' split) <;> simp
@[simp] theorem enter_dev_bankedFrom (e : Event) (s : State) : (State.enter e s).dev.bankedFrom = s.dev.bankedFrom := by unfold State.enter; dsimp only; (repeat' split) <;> simp
@[simp] theorem enter_dev_softReset (e : Event) (s : State) : (State.enter e s).dev.softReset = s.dev.softReset := by unfold State.enter; dsimp only; (repeat' split) <;> simp
@[simp] theorem enter_cfg (e : Event) (s : State) : (State.enter e s).cfg = s.cfg := by unfold State.enter; dsimp only; (repeat' split) <;> simp
@[simp] theorem enter_eff (e : Event) (s : State) : (State.enter e s).eff = s.eff := by unfold State.enter; dsimp only; (repeat' split) <;> simp
@[simp] theorem enter_slots (e : Event) (s : State) : (State.enter e s).slots = s.slots := by unfold State.enter; dsimp only; (repeat' split) <;> simp
@[simp] theorem enter_chans (e : Event) (s : State) : (State.enter e s).chans = s.chans := by unfold State.enter; dsimp only; (repeat' split) <;> simp
@[simp] theorem enter_spares (e : Event) (s : State) : (State.enter e s).spares = s.spares := by unfold State.enter; dsimp only; (repeat' split) <;> simp
@[simp] theorem enter_pts (e : Event) (s : State) : (State.enter e s).pts = s.pts := by unfold State.enter; dsimp only; (repeat' split) <;> simp
@[simp] theorem enter_buses (e : Event) (s : State) : (State.enter e s).buses = s.buses := by unfold State.enter; dsimp only; (repeat' split) <;> simp
@[simp] theorem enter_tb (e : Event) (s : State) : (State.enter e s).tb = s.tb := by unfold State.enter; dsimp only; (repeat' split) <;> simp
@[simp] theorem enter_engine (e : Event) (s : State) : (State.enter e s).engine = s.engine := by unfold State.enter; dsimp only; (repeat' split) <;> simp
@[simp] theorem enter_mcal (e : Event) (s : State) : (State.enter e s).mcal = s.mcal := by unfold State.enter; dsimp only; (repeat' split) <;> simp
@[simp] theorem enter_prof (e : Event) (s : State) : (State.enter e s).prof = s.prof := by unfold State.enter; dsimp only; (repeat' split) <;> simp
@[simp] theorem enter_pq (e : Event) (s : State) : (State.enter e s).pq = s.pq := by unfold State.enter; dsimp only; (repeat' split) <;> simp
@[simp] theorem enter_wb (e : Event) (s : State) : (State.enter e s).wb = s.wb := by unfold State.enter; dsimp only; (repeat' split) <;> simp
@[simp] theorem enter_pulses (e : Event) (s : State) : (State.enter e s).pulses = s.pulses := by unfold State.enter; dsimp only; (repeat' split) <;> simp
@[simp] theorem enter_fol (e : Event) (s : State) : (State.enter e s).fol = s.fol := by unfold State.enter; dsimp only; (repeat' split) <;> simp
@[simp] theorem enter_scr (e : Event) (s : State) : (State.enter e s).scr = s.scr := by unfold State.enter; dsimp only; (repeat' split) <;> simp
@[simp] theorem enter_pwr (e : Event) (s : State) : (State.enter e s).pwr = s.pwr := by unfold State.enter; dsimp only; (repeat' split) <;> simp
@[simp] theorem enter_flt (e : Event) (s : State) : (State.enter e s).flt = s.flt := by unfold State.enter; dsimp only; (repeat' split) <;> simp
@[simp] theorem enter_anv_up (e : Event) (s : State) : (State.enter e s).anv.up = s.anv.up := by unfold State.enter; dsimp only; (repeat' split) <;> simp
@[simp] theorem enter_anv_slot (e : Event) (s : State) : (State.enter e s).anv.slot = s.anv.slot := by unfold State.enter; dsimp only; (repeat' split) <;> simp
@[simp] theorem enter_anv_active (e : Event) (s : State) : (State.enter e s).anv.active = s.anv.active := by unfold State.enter; dsimp only; (repeat' split) <;> simp
@[simp] theorem enter_anv_fallback (e : Event) (s : State) : (State.enter e s).anv.fallback = s.anv.fallback := by unfold State.enter; dsimp only; (repeat' split) <;> simp
@[simp] theorem enter_anv_fw (e : Event) (s : State) : (State.enter e s).anv.fw = s.anv.fw := by unfold State.enter; dsimp only; (repeat' split) <;> simp
@[simp] theorem enter_anv_epoch (e : Event) (s : State) : (State.enter e s).anv.epoch = s.anv.epoch := by unfold State.enter; dsimp only; (repeat' split) <;> simp
@[simp] theorem enter_anv_version (e : Event) (s : State) : (State.enter e s).anv.version = s.anv.version := by unfold State.enter; dsimp only; (repeat' split) <;> simp
@[simp] theorem enter_anv_slots (e : Event) (s : State) : (State.enter e s).anv.slots = s.anv.slots := by unfold State.enter; dsimp only; (repeat' split) <;> simp
@[simp] theorem enter_anv_trialLeft (e : Event) (s : State) : (State.enter e s).anv.trialLeft = s.anv.trialLeft := by unfold State.enter; dsimp only; (repeat' split) <;> simp
@[simp] theorem enter_anv_trialOver (e : Event) (s : State) : (State.enter e s).anv.trialOver = s.anv.trialOver := by unfold State.enter; dsimp only; (repeat' split) <;> simp
@[simp] theorem enter_anv_checkDue (e : Event) (s : State) : (State.enter e s).anv.checkDue = s.anv.checkDue := by unfold State.enter; dsimp only; (repeat' split) <;> simp
@[simp] theorem enter_anv_fillDue (e : Event) (s : State) : (State.enter e s).anv.fillDue = s.anv.fillDue := by unfold State.enter; dsimp only; (repeat' split) <;> simp
@[simp] theorem enter_anv_auxRes (e : Event) (s : State) : (State.enter e s).anv.auxRes = s.anv.auxRes := by unfold State.enter; dsimp only; (repeat' split) <;> simp
@[simp] theorem enter_anv_auxDue (e : Event) (s : State) : (State.enter e s).anv.auxDue = s.anv.auxDue := by unfold State.enter; dsimp only; (repeat' split) <;> simp
@[simp] theorem enter_anv_hall (e : Event) (s : State) : (State.enter e s).anv.hall = s.anv.hall := by unfold State.enter; dsimp only; (repeat' split) <;> simp
@[simp] theorem enter_anv_hallLast (e : Event) (s : State) : (State.enter e s).anv.hallLast = s.anv.hallLast := by unfold State.enter; dsimp only; (repeat' split) <;> simp
@[simp] theorem enter_anv_magScans (e : Event) (s : State) : (State.enter e s).anv.magScans = s.anv.magScans := by unfold State.enter; dsimp only; (repeat' split) <;> simp
@[simp] theorem enter_anv_refActive (e : Event) (s : State) : (State.enter e s).anv.refActive = s.anv.refActive := by unfold State.enter; dsimp only; (repeat' split) <;> simp
@[simp] theorem enter_anv_refClear (e : Event) (s : State) : (State.enter e s).anv.refClear = s.anv.refClear := by unfold State.enter; dsimp only; (repeat' split) <;> simp
@[simp] theorem enter_anv_tempActive (e : Event) (s : State) : (State.enter e s).anv.tempActive = s.anv.tempActive := by unfold State.enter; dsimp only; (repeat' split) <;> simp
@[simp] theorem enter_anv_images (e : Event) (s : State) : (State.enter e s).anv.images = s.anv.images := by unfold State.enter; dsimp only; (repeat' split) <;> simp
@[simp] theorem enter_anv_saveDue (e : Event) (s : State) : (State.enter e s).anv.saveDue = s.anv.saveDue := by unfold State.enter; dsimp only; (repeat' split) <;> simp
@[simp] theorem enter_anv_log (e : Event) (s : State) : (State.enter e s).anv.log = s.anv.log := by unfold State.enter; dsimp only; (repeat' split) <;> simp
@[simp] theorem enter_anv_logNext (e : Event) (s : State) : (State.enter e s).anv.logNext = s.anv.logNext := by unfold State.enter; dsimp only; (repeat' split) <;> simp
@[simp] theorem enter_anv_logLink (e : Event) (s : State) : (State.enter e s).anv.logLink = s.anv.logLink := by unfold State.enter; dsimp only; (repeat' split) <;> simp
@[simp] theorem enter_cld (e : Event) (s : State) : (State.enter e s).cld = s.cld := by unfold State.enter; dsimp only; (repeat' split) <;> simp
@[simp] theorem enter_grd (e : Event) (s : State) : (State.enter e s).grd = s.grd := by unfold State.enter; dsimp only; (repeat' split) <;> simp
@[simp] theorem enter_pnl (e : Event) (s : State) : (State.enter e s).pnl = s.pnl := by unfold State.enter; dsimp only; (repeat' split) <;> simp
@[simp] theorem enter_trim (e : Event) (s : State) : (State.enter e s).trim = s.trim := by unfold State.enter; dsimp only; (repeat' split) <;> simp

/-! ### `State.raiseAs` -/

@[simp] theorem raiseAs_pending (w : Word) (e : Ev) (u : Subject) (a : Stamp) (b c : Bool) (d : List Byte) (s : State) : (State.raiseAs w e u a b c d s).pending = s.pending := by
  unfold State.raiseAs; dsimp only; (repeat' split) <;> simp
@[simp] theorem raiseAs_draws (w : Word) (e : Ev) (u : Subject) (a : Stamp) (b c : Bool) (d : List Byte) (s : State) : (State.raiseAs w e u a b c d s).draws = s.draws := by
  unfold State.raiseAs; dsimp only; (repeat' split) <;> simp
@[simp] theorem raiseAs_now (w : Word) (e : Ev) (u : Subject) (a : Stamp) (b c : Bool) (d : List Byte) (s : State) : (State.raiseAs w e u a b c d s).now = s.now := by
  unfold State.raiseAs; dsimp only; (repeat' split) <;> simp
@[simp] theorem raiseAs_dev_variant (w : Word) (e : Ev) (u : Subject) (a : Stamp) (b c : Bool) (d : List Byte) (s : State) : (State.raiseAs w e u a b c d s).dev.variant = s.dev.variant := by
  unfold State.raiseAs; dsimp only; (repeat' split) <;> simp
@[simp] theorem raiseAs_dev_startup (w : Word) (e : Ev) (u : Subject) (a : Stamp) (b c : Bool) (d : List Byte) (s : State) : (State.raiseAs w e u a b c d s).dev.startup = s.dev.startup := by
  unfold State.raiseAs; dsimp only; (repeat' split) <;> simp
@[simp] theorem raiseAs_dev_bankAt (w : Word) (e : Ev) (u : Subject) (a : Stamp) (b c : Bool) (d : List Byte) (s : State) : (State.raiseAs w e u a b c d s).dev.bankAt = s.dev.bankAt := by
  unfold State.raiseAs; dsimp only; (repeat' split) <;> simp
@[simp] theorem raiseAs_dev_bankedFrom (w : Word) (e : Ev) (u : Subject) (a : Stamp) (b c : Bool) (d : List Byte) (s : State) : (State.raiseAs w e u a b c d s).dev.bankedFrom = s.dev.bankedFrom := by
  unfold State.raiseAs; dsimp only; (repeat' split) <;> simp
@[simp] theorem raiseAs_dev_softReset (w : Word) (e : Ev) (u : Subject) (a : Stamp) (b c : Bool) (d : List Byte) (s : State) : (State.raiseAs w e u a b c d s).dev.softReset = s.dev.softReset := by
  unfold State.raiseAs; dsimp only; (repeat' split) <;> simp
@[simp] theorem raiseAs_cfg (w : Word) (e : Ev) (u : Subject) (a : Stamp) (b c : Bool) (d : List Byte) (s : State) : (State.raiseAs w e u a b c d s).cfg = s.cfg := by
  unfold State.raiseAs; dsimp only; (repeat' split) <;> simp
@[simp] theorem raiseAs_eff (w : Word) (e : Ev) (u : Subject) (a : Stamp) (b c : Bool) (d : List Byte) (s : State) : (State.raiseAs w e u a b c d s).eff = s.eff := by
  unfold State.raiseAs; dsimp only; (repeat' split) <;> simp
@[simp] theorem raiseAs_slots (w : Word) (e : Ev) (u : Subject) (a : Stamp) (b c : Bool) (d : List Byte) (s : State) : (State.raiseAs w e u a b c d s).slots = s.slots := by
  unfold State.raiseAs; dsimp only; (repeat' split) <;> simp
@[simp] theorem raiseAs_chans (w : Word) (e : Ev) (u : Subject) (a : Stamp) (b c : Bool) (d : List Byte) (s : State) : (State.raiseAs w e u a b c d s).chans = s.chans := by
  unfold State.raiseAs; dsimp only; (repeat' split) <;> simp
@[simp] theorem raiseAs_spares (w : Word) (e : Ev) (u : Subject) (a : Stamp) (b c : Bool) (d : List Byte) (s : State) : (State.raiseAs w e u a b c d s).spares = s.spares := by
  unfold State.raiseAs; dsimp only; (repeat' split) <;> simp
@[simp] theorem raiseAs_pts (w : Word) (e : Ev) (u : Subject) (a : Stamp) (b c : Bool) (d : List Byte) (s : State) : (State.raiseAs w e u a b c d s).pts = s.pts := by
  unfold State.raiseAs; dsimp only; (repeat' split) <;> simp
@[simp] theorem raiseAs_buses (w : Word) (e : Ev) (u : Subject) (a : Stamp) (b c : Bool) (d : List Byte) (s : State) : (State.raiseAs w e u a b c d s).buses = s.buses := by
  unfold State.raiseAs; dsimp only; (repeat' split) <;> simp
@[simp] theorem raiseAs_tb (w : Word) (e : Ev) (u : Subject) (a : Stamp) (b c : Bool) (d : List Byte) (s : State) : (State.raiseAs w e u a b c d s).tb = s.tb := by
  unfold State.raiseAs; dsimp only; (repeat' split) <;> simp
@[simp] theorem raiseAs_engine (w : Word) (e : Ev) (u : Subject) (a : Stamp) (b c : Bool) (d : List Byte) (s : State) : (State.raiseAs w e u a b c d s).engine = s.engine := by
  unfold State.raiseAs; dsimp only; (repeat' split) <;> simp
@[simp] theorem raiseAs_mcal (w : Word) (e : Ev) (u : Subject) (a : Stamp) (b c : Bool) (d : List Byte) (s : State) : (State.raiseAs w e u a b c d s).mcal = s.mcal := by
  unfold State.raiseAs; dsimp only; (repeat' split) <;> simp
@[simp] theorem raiseAs_prof (w : Word) (e : Ev) (u : Subject) (a : Stamp) (b c : Bool) (d : List Byte) (s : State) : (State.raiseAs w e u a b c d s).prof = s.prof := by
  unfold State.raiseAs; dsimp only; (repeat' split) <;> simp
@[simp] theorem raiseAs_pq (w : Word) (e : Ev) (u : Subject) (a : Stamp) (b c : Bool) (d : List Byte) (s : State) : (State.raiseAs w e u a b c d s).pq = s.pq := by
  unfold State.raiseAs; dsimp only; (repeat' split) <;> simp
@[simp] theorem raiseAs_wb (w : Word) (e : Ev) (u : Subject) (a : Stamp) (b c : Bool) (d : List Byte) (s : State) : (State.raiseAs w e u a b c d s).wb = s.wb := by
  unfold State.raiseAs; dsimp only; (repeat' split) <;> simp
@[simp] theorem raiseAs_pulses (w : Word) (e : Ev) (u : Subject) (a : Stamp) (b c : Bool) (d : List Byte) (s : State) : (State.raiseAs w e u a b c d s).pulses = s.pulses := by
  unfold State.raiseAs; dsimp only; (repeat' split) <;> simp
@[simp] theorem raiseAs_fol (w : Word) (e : Ev) (u : Subject) (a : Stamp) (b c : Bool) (d : List Byte) (s : State) : (State.raiseAs w e u a b c d s).fol = s.fol := by
  unfold State.raiseAs; dsimp only; (repeat' split) <;> simp
@[simp] theorem raiseAs_scr (w : Word) (e : Ev) (u : Subject) (a : Stamp) (b c : Bool) (d : List Byte) (s : State) : (State.raiseAs w e u a b c d s).scr = s.scr := by
  unfold State.raiseAs; dsimp only; (repeat' split) <;> simp
@[simp] theorem raiseAs_pwr (w : Word) (e : Ev) (u : Subject) (a : Stamp) (b c : Bool) (d : List Byte) (s : State) : (State.raiseAs w e u a b c d s).pwr = s.pwr := by
  unfold State.raiseAs; dsimp only; (repeat' split) <;> simp
@[simp] theorem raiseAs_flt (w : Word) (e : Ev) (u : Subject) (a : Stamp) (b c : Bool) (d : List Byte) (s : State) : (State.raiseAs w e u a b c d s).flt = s.flt := by
  unfold State.raiseAs; dsimp only; (repeat' split) <;> simp
@[simp] theorem raiseAs_anv_up (w : Word) (e : Ev) (u : Subject) (a : Stamp) (b c : Bool) (d : List Byte) (s : State) : (State.raiseAs w e u a b c d s).anv.up = s.anv.up := by
  unfold State.raiseAs; dsimp only; (repeat' split) <;> simp
@[simp] theorem raiseAs_anv_slot (w : Word) (e : Ev) (u : Subject) (a : Stamp) (b c : Bool) (d : List Byte) (s : State) : (State.raiseAs w e u a b c d s).anv.slot = s.anv.slot := by
  unfold State.raiseAs; dsimp only; (repeat' split) <;> simp
@[simp] theorem raiseAs_anv_active (w : Word) (e : Ev) (u : Subject) (a : Stamp) (b c : Bool) (d : List Byte) (s : State) : (State.raiseAs w e u a b c d s).anv.active = s.anv.active := by
  unfold State.raiseAs; dsimp only; (repeat' split) <;> simp
@[simp] theorem raiseAs_anv_fallback (w : Word) (e : Ev) (u : Subject) (a : Stamp) (b c : Bool) (d : List Byte) (s : State) : (State.raiseAs w e u a b c d s).anv.fallback = s.anv.fallback := by
  unfold State.raiseAs; dsimp only; (repeat' split) <;> simp
@[simp] theorem raiseAs_anv_fw (w : Word) (e : Ev) (u : Subject) (a : Stamp) (b c : Bool) (d : List Byte) (s : State) : (State.raiseAs w e u a b c d s).anv.fw = s.anv.fw := by
  unfold State.raiseAs; dsimp only; (repeat' split) <;> simp
@[simp] theorem raiseAs_anv_epoch (w : Word) (e : Ev) (u : Subject) (a : Stamp) (b c : Bool) (d : List Byte) (s : State) : (State.raiseAs w e u a b c d s).anv.epoch = s.anv.epoch := by
  unfold State.raiseAs; dsimp only; (repeat' split) <;> simp
@[simp] theorem raiseAs_anv_version (w : Word) (e : Ev) (u : Subject) (a : Stamp) (b c : Bool) (d : List Byte) (s : State) : (State.raiseAs w e u a b c d s).anv.version = s.anv.version := by
  unfold State.raiseAs; dsimp only; (repeat' split) <;> simp
@[simp] theorem raiseAs_anv_slots (w : Word) (e : Ev) (u : Subject) (a : Stamp) (b c : Bool) (d : List Byte) (s : State) : (State.raiseAs w e u a b c d s).anv.slots = s.anv.slots := by
  unfold State.raiseAs; dsimp only; (repeat' split) <;> simp
@[simp] theorem raiseAs_anv_trialLeft (w : Word) (e : Ev) (u : Subject) (a : Stamp) (b c : Bool) (d : List Byte) (s : State) : (State.raiseAs w e u a b c d s).anv.trialLeft = s.anv.trialLeft := by
  unfold State.raiseAs; dsimp only; (repeat' split) <;> simp
@[simp] theorem raiseAs_anv_trialOver (w : Word) (e : Ev) (u : Subject) (a : Stamp) (b c : Bool) (d : List Byte) (s : State) : (State.raiseAs w e u a b c d s).anv.trialOver = s.anv.trialOver := by
  unfold State.raiseAs; dsimp only; (repeat' split) <;> simp
@[simp] theorem raiseAs_anv_checkDue (w : Word) (e : Ev) (u : Subject) (a : Stamp) (b c : Bool) (d : List Byte) (s : State) : (State.raiseAs w e u a b c d s).anv.checkDue = s.anv.checkDue := by
  unfold State.raiseAs; dsimp only; (repeat' split) <;> simp
@[simp] theorem raiseAs_anv_fillDue (w : Word) (e : Ev) (u : Subject) (a : Stamp) (b c : Bool) (d : List Byte) (s : State) : (State.raiseAs w e u a b c d s).anv.fillDue = s.anv.fillDue := by
  unfold State.raiseAs; dsimp only; (repeat' split) <;> simp
@[simp] theorem raiseAs_anv_auxRes (w : Word) (e : Ev) (u : Subject) (a : Stamp) (b c : Bool) (d : List Byte) (s : State) : (State.raiseAs w e u a b c d s).anv.auxRes = s.anv.auxRes := by
  unfold State.raiseAs; dsimp only; (repeat' split) <;> simp
@[simp] theorem raiseAs_anv_auxDue (w : Word) (e : Ev) (u : Subject) (a : Stamp) (b c : Bool) (d : List Byte) (s : State) : (State.raiseAs w e u a b c d s).anv.auxDue = s.anv.auxDue := by
  unfold State.raiseAs; dsimp only; (repeat' split) <;> simp
@[simp] theorem raiseAs_anv_hall (w : Word) (e : Ev) (u : Subject) (a : Stamp) (b c : Bool) (d : List Byte) (s : State) : (State.raiseAs w e u a b c d s).anv.hall = s.anv.hall := by
  unfold State.raiseAs; dsimp only; (repeat' split) <;> simp
@[simp] theorem raiseAs_anv_hallLast (w : Word) (e : Ev) (u : Subject) (a : Stamp) (b c : Bool) (d : List Byte) (s : State) : (State.raiseAs w e u a b c d s).anv.hallLast = s.anv.hallLast := by
  unfold State.raiseAs; dsimp only; (repeat' split) <;> simp
@[simp] theorem raiseAs_anv_magScans (w : Word) (e : Ev) (u : Subject) (a : Stamp) (b c : Bool) (d : List Byte) (s : State) : (State.raiseAs w e u a b c d s).anv.magScans = s.anv.magScans := by
  unfold State.raiseAs; dsimp only; (repeat' split) <;> simp
@[simp] theorem raiseAs_anv_refActive (w : Word) (e : Ev) (u : Subject) (a : Stamp) (b c : Bool) (d : List Byte) (s : State) : (State.raiseAs w e u a b c d s).anv.refActive = s.anv.refActive := by
  unfold State.raiseAs; dsimp only; (repeat' split) <;> simp
@[simp] theorem raiseAs_anv_refClear (w : Word) (e : Ev) (u : Subject) (a : Stamp) (b c : Bool) (d : List Byte) (s : State) : (State.raiseAs w e u a b c d s).anv.refClear = s.anv.refClear := by
  unfold State.raiseAs; dsimp only; (repeat' split) <;> simp
@[simp] theorem raiseAs_anv_tempActive (w : Word) (e : Ev) (u : Subject) (a : Stamp) (b c : Bool) (d : List Byte) (s : State) : (State.raiseAs w e u a b c d s).anv.tempActive = s.anv.tempActive := by
  unfold State.raiseAs; dsimp only; (repeat' split) <;> simp
@[simp] theorem raiseAs_anv_images (w : Word) (e : Ev) (u : Subject) (a : Stamp) (b c : Bool) (d : List Byte) (s : State) : (State.raiseAs w e u a b c d s).anv.images = s.anv.images := by
  unfold State.raiseAs; dsimp only; (repeat' split) <;> simp
@[simp] theorem raiseAs_anv_saveDue (w : Word) (e : Ev) (u : Subject) (a : Stamp) (b c : Bool) (d : List Byte) (s : State) : (State.raiseAs w e u a b c d s).anv.saveDue = s.anv.saveDue := by
  unfold State.raiseAs; dsimp only; (repeat' split) <;> simp
@[simp] theorem raiseAs_anv_log (w : Word) (e : Ev) (u : Subject) (a : Stamp) (b c : Bool) (d : List Byte) (s : State) : (State.raiseAs w e u a b c d s).anv.log = s.anv.log := by
  unfold State.raiseAs; dsimp only; (repeat' split) <;> simp
@[simp] theorem raiseAs_anv_logNext (w : Word) (e : Ev) (u : Subject) (a : Stamp) (b c : Bool) (d : List Byte) (s : State) : (State.raiseAs w e u a b c d s).anv.logNext = s.anv.logNext := by
  unfold State.raiseAs; dsimp only; (repeat' split) <;> simp
@[simp] theorem raiseAs_anv_logLink (w : Word) (e : Ev) (u : Subject) (a : Stamp) (b c : Bool) (d : List Byte) (s : State) : (State.raiseAs w e u a b c d s).anv.logLink = s.anv.logLink := by
  unfold State.raiseAs; dsimp only; (repeat' split) <;> simp
@[simp] theorem raiseAs_cld (w : Word) (e : Ev) (u : Subject) (a : Stamp) (b c : Bool) (d : List Byte) (s : State) : (State.raiseAs w e u a b c d s).cld = s.cld := by
  unfold State.raiseAs; dsimp only; (repeat' split) <;> simp
@[simp] theorem raiseAs_grd (w : Word) (e : Ev) (u : Subject) (a : Stamp) (b c : Bool) (d : List Byte) (s : State) : (State.raiseAs w e u a b c d s).grd = s.grd := by
  unfold State.raiseAs; dsimp only; (repeat' split) <;> simp
@[simp] theorem raiseAs_pnl (w : Word) (e : Ev) (u : Subject) (a : Stamp) (b c : Bool) (d : List Byte) (s : State) : (State.raiseAs w e u a b c d s).pnl = s.pnl := by
  unfold State.raiseAs; dsimp only; (repeat' split) <;> simp
@[simp] theorem raiseAs_trim (w : Word) (e : Ev) (u : Subject) (a : Stamp) (b c : Bool) (d : List Byte) (s : State) : (State.raiseAs w e u a b c d s).trim = s.trim := by
  unfold State.raiseAs; dsimp only; (repeat' split) <;> simp

/-! ### `State.raiseWith` -/

@[simp] theorem raiseWith_pending (e : Ev) (u : Subject) (a : Stamp) (b c : Bool) (d : List Byte) (s : State) : (State.raiseWith e u a b c d s).pending = s.pending := by simp [State.raiseWith]
@[simp] theorem raiseWith_draws (e : Ev) (u : Subject) (a : Stamp) (b c : Bool) (d : List Byte) (s : State) : (State.raiseWith e u a b c d s).draws = s.draws := by simp [State.raiseWith]
@[simp] theorem raiseWith_now (e : Ev) (u : Subject) (a : Stamp) (b c : Bool) (d : List Byte) (s : State) : (State.raiseWith e u a b c d s).now = s.now := by simp [State.raiseWith]
@[simp] theorem raiseWith_dev_variant (e : Ev) (u : Subject) (a : Stamp) (b c : Bool) (d : List Byte) (s : State) : (State.raiseWith e u a b c d s).dev.variant = s.dev.variant := by simp [State.raiseWith]
@[simp] theorem raiseWith_dev_startup (e : Ev) (u : Subject) (a : Stamp) (b c : Bool) (d : List Byte) (s : State) : (State.raiseWith e u a b c d s).dev.startup = s.dev.startup := by simp [State.raiseWith]
@[simp] theorem raiseWith_dev_bankAt (e : Ev) (u : Subject) (a : Stamp) (b c : Bool) (d : List Byte) (s : State) : (State.raiseWith e u a b c d s).dev.bankAt = s.dev.bankAt := by simp [State.raiseWith]
@[simp] theorem raiseWith_dev_bankedFrom (e : Ev) (u : Subject) (a : Stamp) (b c : Bool) (d : List Byte) (s : State) : (State.raiseWith e u a b c d s).dev.bankedFrom = s.dev.bankedFrom := by simp [State.raiseWith]
@[simp] theorem raiseWith_dev_softReset (e : Ev) (u : Subject) (a : Stamp) (b c : Bool) (d : List Byte) (s : State) : (State.raiseWith e u a b c d s).dev.softReset = s.dev.softReset := by simp [State.raiseWith]
@[simp] theorem raiseWith_cfg (e : Ev) (u : Subject) (a : Stamp) (b c : Bool) (d : List Byte) (s : State) : (State.raiseWith e u a b c d s).cfg = s.cfg := by simp [State.raiseWith]
@[simp] theorem raiseWith_eff (e : Ev) (u : Subject) (a : Stamp) (b c : Bool) (d : List Byte) (s : State) : (State.raiseWith e u a b c d s).eff = s.eff := by simp [State.raiseWith]
@[simp] theorem raiseWith_slots (e : Ev) (u : Subject) (a : Stamp) (b c : Bool) (d : List Byte) (s : State) : (State.raiseWith e u a b c d s).slots = s.slots := by simp [State.raiseWith]
@[simp] theorem raiseWith_chans (e : Ev) (u : Subject) (a : Stamp) (b c : Bool) (d : List Byte) (s : State) : (State.raiseWith e u a b c d s).chans = s.chans := by simp [State.raiseWith]
@[simp] theorem raiseWith_spares (e : Ev) (u : Subject) (a : Stamp) (b c : Bool) (d : List Byte) (s : State) : (State.raiseWith e u a b c d s).spares = s.spares := by simp [State.raiseWith]
@[simp] theorem raiseWith_pts (e : Ev) (u : Subject) (a : Stamp) (b c : Bool) (d : List Byte) (s : State) : (State.raiseWith e u a b c d s).pts = s.pts := by simp [State.raiseWith]
@[simp] theorem raiseWith_buses (e : Ev) (u : Subject) (a : Stamp) (b c : Bool) (d : List Byte) (s : State) : (State.raiseWith e u a b c d s).buses = s.buses := by simp [State.raiseWith]
@[simp] theorem raiseWith_tb (e : Ev) (u : Subject) (a : Stamp) (b c : Bool) (d : List Byte) (s : State) : (State.raiseWith e u a b c d s).tb = s.tb := by simp [State.raiseWith]
@[simp] theorem raiseWith_engine (e : Ev) (u : Subject) (a : Stamp) (b c : Bool) (d : List Byte) (s : State) : (State.raiseWith e u a b c d s).engine = s.engine := by simp [State.raiseWith]
@[simp] theorem raiseWith_mcal (e : Ev) (u : Subject) (a : Stamp) (b c : Bool) (d : List Byte) (s : State) : (State.raiseWith e u a b c d s).mcal = s.mcal := by simp [State.raiseWith]
@[simp] theorem raiseWith_prof (e : Ev) (u : Subject) (a : Stamp) (b c : Bool) (d : List Byte) (s : State) : (State.raiseWith e u a b c d s).prof = s.prof := by simp [State.raiseWith]
@[simp] theorem raiseWith_pq (e : Ev) (u : Subject) (a : Stamp) (b c : Bool) (d : List Byte) (s : State) : (State.raiseWith e u a b c d s).pq = s.pq := by simp [State.raiseWith]
@[simp] theorem raiseWith_wb (e : Ev) (u : Subject) (a : Stamp) (b c : Bool) (d : List Byte) (s : State) : (State.raiseWith e u a b c d s).wb = s.wb := by simp [State.raiseWith]
@[simp] theorem raiseWith_pulses (e : Ev) (u : Subject) (a : Stamp) (b c : Bool) (d : List Byte) (s : State) : (State.raiseWith e u a b c d s).pulses = s.pulses := by simp [State.raiseWith]
@[simp] theorem raiseWith_fol (e : Ev) (u : Subject) (a : Stamp) (b c : Bool) (d : List Byte) (s : State) : (State.raiseWith e u a b c d s).fol = s.fol := by simp [State.raiseWith]
@[simp] theorem raiseWith_scr (e : Ev) (u : Subject) (a : Stamp) (b c : Bool) (d : List Byte) (s : State) : (State.raiseWith e u a b c d s).scr = s.scr := by simp [State.raiseWith]
@[simp] theorem raiseWith_pwr (e : Ev) (u : Subject) (a : Stamp) (b c : Bool) (d : List Byte) (s : State) : (State.raiseWith e u a b c d s).pwr = s.pwr := by simp [State.raiseWith]
@[simp] theorem raiseWith_flt (e : Ev) (u : Subject) (a : Stamp) (b c : Bool) (d : List Byte) (s : State) : (State.raiseWith e u a b c d s).flt = s.flt := by simp [State.raiseWith]
@[simp] theorem raiseWith_anv_up (e : Ev) (u : Subject) (a : Stamp) (b c : Bool) (d : List Byte) (s : State) : (State.raiseWith e u a b c d s).anv.up = s.anv.up := by simp [State.raiseWith]
@[simp] theorem raiseWith_anv_slot (e : Ev) (u : Subject) (a : Stamp) (b c : Bool) (d : List Byte) (s : State) : (State.raiseWith e u a b c d s).anv.slot = s.anv.slot := by simp [State.raiseWith]
@[simp] theorem raiseWith_anv_active (e : Ev) (u : Subject) (a : Stamp) (b c : Bool) (d : List Byte) (s : State) : (State.raiseWith e u a b c d s).anv.active = s.anv.active := by simp [State.raiseWith]
@[simp] theorem raiseWith_anv_fallback (e : Ev) (u : Subject) (a : Stamp) (b c : Bool) (d : List Byte) (s : State) : (State.raiseWith e u a b c d s).anv.fallback = s.anv.fallback := by simp [State.raiseWith]
@[simp] theorem raiseWith_anv_fw (e : Ev) (u : Subject) (a : Stamp) (b c : Bool) (d : List Byte) (s : State) : (State.raiseWith e u a b c d s).anv.fw = s.anv.fw := by simp [State.raiseWith]
@[simp] theorem raiseWith_anv_epoch (e : Ev) (u : Subject) (a : Stamp) (b c : Bool) (d : List Byte) (s : State) : (State.raiseWith e u a b c d s).anv.epoch = s.anv.epoch := by simp [State.raiseWith]
@[simp] theorem raiseWith_anv_version (e : Ev) (u : Subject) (a : Stamp) (b c : Bool) (d : List Byte) (s : State) : (State.raiseWith e u a b c d s).anv.version = s.anv.version := by simp [State.raiseWith]
@[simp] theorem raiseWith_anv_slots (e : Ev) (u : Subject) (a : Stamp) (b c : Bool) (d : List Byte) (s : State) : (State.raiseWith e u a b c d s).anv.slots = s.anv.slots := by simp [State.raiseWith]
@[simp] theorem raiseWith_anv_trialLeft (e : Ev) (u : Subject) (a : Stamp) (b c : Bool) (d : List Byte) (s : State) : (State.raiseWith e u a b c d s).anv.trialLeft = s.anv.trialLeft := by simp [State.raiseWith]
@[simp] theorem raiseWith_anv_trialOver (e : Ev) (u : Subject) (a : Stamp) (b c : Bool) (d : List Byte) (s : State) : (State.raiseWith e u a b c d s).anv.trialOver = s.anv.trialOver := by simp [State.raiseWith]
@[simp] theorem raiseWith_anv_checkDue (e : Ev) (u : Subject) (a : Stamp) (b c : Bool) (d : List Byte) (s : State) : (State.raiseWith e u a b c d s).anv.checkDue = s.anv.checkDue := by simp [State.raiseWith]
@[simp] theorem raiseWith_anv_fillDue (e : Ev) (u : Subject) (a : Stamp) (b c : Bool) (d : List Byte) (s : State) : (State.raiseWith e u a b c d s).anv.fillDue = s.anv.fillDue := by simp [State.raiseWith]
@[simp] theorem raiseWith_anv_auxRes (e : Ev) (u : Subject) (a : Stamp) (b c : Bool) (d : List Byte) (s : State) : (State.raiseWith e u a b c d s).anv.auxRes = s.anv.auxRes := by simp [State.raiseWith]
@[simp] theorem raiseWith_anv_auxDue (e : Ev) (u : Subject) (a : Stamp) (b c : Bool) (d : List Byte) (s : State) : (State.raiseWith e u a b c d s).anv.auxDue = s.anv.auxDue := by simp [State.raiseWith]
@[simp] theorem raiseWith_anv_hall (e : Ev) (u : Subject) (a : Stamp) (b c : Bool) (d : List Byte) (s : State) : (State.raiseWith e u a b c d s).anv.hall = s.anv.hall := by simp [State.raiseWith]
@[simp] theorem raiseWith_anv_hallLast (e : Ev) (u : Subject) (a : Stamp) (b c : Bool) (d : List Byte) (s : State) : (State.raiseWith e u a b c d s).anv.hallLast = s.anv.hallLast := by simp [State.raiseWith]
@[simp] theorem raiseWith_anv_magScans (e : Ev) (u : Subject) (a : Stamp) (b c : Bool) (d : List Byte) (s : State) : (State.raiseWith e u a b c d s).anv.magScans = s.anv.magScans := by simp [State.raiseWith]
@[simp] theorem raiseWith_anv_refActive (e : Ev) (u : Subject) (a : Stamp) (b c : Bool) (d : List Byte) (s : State) : (State.raiseWith e u a b c d s).anv.refActive = s.anv.refActive := by simp [State.raiseWith]
@[simp] theorem raiseWith_anv_refClear (e : Ev) (u : Subject) (a : Stamp) (b c : Bool) (d : List Byte) (s : State) : (State.raiseWith e u a b c d s).anv.refClear = s.anv.refClear := by simp [State.raiseWith]
@[simp] theorem raiseWith_anv_tempActive (e : Ev) (u : Subject) (a : Stamp) (b c : Bool) (d : List Byte) (s : State) : (State.raiseWith e u a b c d s).anv.tempActive = s.anv.tempActive := by simp [State.raiseWith]
@[simp] theorem raiseWith_anv_images (e : Ev) (u : Subject) (a : Stamp) (b c : Bool) (d : List Byte) (s : State) : (State.raiseWith e u a b c d s).anv.images = s.anv.images := by simp [State.raiseWith]
@[simp] theorem raiseWith_anv_saveDue (e : Ev) (u : Subject) (a : Stamp) (b c : Bool) (d : List Byte) (s : State) : (State.raiseWith e u a b c d s).anv.saveDue = s.anv.saveDue := by simp [State.raiseWith]
@[simp] theorem raiseWith_anv_log (e : Ev) (u : Subject) (a : Stamp) (b c : Bool) (d : List Byte) (s : State) : (State.raiseWith e u a b c d s).anv.log = s.anv.log := by simp [State.raiseWith]
@[simp] theorem raiseWith_anv_logNext (e : Ev) (u : Subject) (a : Stamp) (b c : Bool) (d : List Byte) (s : State) : (State.raiseWith e u a b c d s).anv.logNext = s.anv.logNext := by simp [State.raiseWith]
@[simp] theorem raiseWith_anv_logLink (e : Ev) (u : Subject) (a : Stamp) (b c : Bool) (d : List Byte) (s : State) : (State.raiseWith e u a b c d s).anv.logLink = s.anv.logLink := by simp [State.raiseWith]
@[simp] theorem raiseWith_cld (e : Ev) (u : Subject) (a : Stamp) (b c : Bool) (d : List Byte) (s : State) : (State.raiseWith e u a b c d s).cld = s.cld := by simp [State.raiseWith]
@[simp] theorem raiseWith_grd (e : Ev) (u : Subject) (a : Stamp) (b c : Bool) (d : List Byte) (s : State) : (State.raiseWith e u a b c d s).grd = s.grd := by simp [State.raiseWith]
@[simp] theorem raiseWith_pnl (e : Ev) (u : Subject) (a : Stamp) (b c : Bool) (d : List Byte) (s : State) : (State.raiseWith e u a b c d s).pnl = s.pnl := by simp [State.raiseWith]
@[simp] theorem raiseWith_trim (e : Ev) (u : Subject) (a : Stamp) (b c : Bool) (d : List Byte) (s : State) : (State.raiseWith e u a b c d s).trim = s.trim := by simp [State.raiseWith]

/-! ### `State.raise` -/

@[simp] theorem raise_pending (e : Ev) (u : Subject) (d : List Byte) (s : State) : (State.raise e u d s).pending = s.pending := by simp [State.raise]
@[simp] theorem raise_draws (e : Ev) (u : Subject) (d : List Byte) (s : State) : (State.raise e u d s).draws = s.draws := by simp [State.raise]
@[simp] theorem raise_now (e : Ev) (u : Subject) (d : List Byte) (s : State) : (State.raise e u d s).now = s.now := by simp [State.raise]
@[simp] theorem raise_dev_variant (e : Ev) (u : Subject) (d : List Byte) (s : State) : (State.raise e u d s).dev.variant = s.dev.variant := by simp [State.raise]
@[simp] theorem raise_dev_startup (e : Ev) (u : Subject) (d : List Byte) (s : State) : (State.raise e u d s).dev.startup = s.dev.startup := by simp [State.raise]
@[simp] theorem raise_dev_bankAt (e : Ev) (u : Subject) (d : List Byte) (s : State) : (State.raise e u d s).dev.bankAt = s.dev.bankAt := by simp [State.raise]
@[simp] theorem raise_dev_bankedFrom (e : Ev) (u : Subject) (d : List Byte) (s : State) : (State.raise e u d s).dev.bankedFrom = s.dev.bankedFrom := by simp [State.raise]
@[simp] theorem raise_dev_softReset (e : Ev) (u : Subject) (d : List Byte) (s : State) : (State.raise e u d s).dev.softReset = s.dev.softReset := by simp [State.raise]
@[simp] theorem raise_cfg (e : Ev) (u : Subject) (d : List Byte) (s : State) : (State.raise e u d s).cfg = s.cfg := by simp [State.raise]
@[simp] theorem raise_eff (e : Ev) (u : Subject) (d : List Byte) (s : State) : (State.raise e u d s).eff = s.eff := by simp [State.raise]
@[simp] theorem raise_slots (e : Ev) (u : Subject) (d : List Byte) (s : State) : (State.raise e u d s).slots = s.slots := by simp [State.raise]
@[simp] theorem raise_chans (e : Ev) (u : Subject) (d : List Byte) (s : State) : (State.raise e u d s).chans = s.chans := by simp [State.raise]
@[simp] theorem raise_spares (e : Ev) (u : Subject) (d : List Byte) (s : State) : (State.raise e u d s).spares = s.spares := by simp [State.raise]
@[simp] theorem raise_pts (e : Ev) (u : Subject) (d : List Byte) (s : State) : (State.raise e u d s).pts = s.pts := by simp [State.raise]
@[simp] theorem raise_buses (e : Ev) (u : Subject) (d : List Byte) (s : State) : (State.raise e u d s).buses = s.buses := by simp [State.raise]
@[simp] theorem raise_tb (e : Ev) (u : Subject) (d : List Byte) (s : State) : (State.raise e u d s).tb = s.tb := by simp [State.raise]
@[simp] theorem raise_engine (e : Ev) (u : Subject) (d : List Byte) (s : State) : (State.raise e u d s).engine = s.engine := by simp [State.raise]
@[simp] theorem raise_mcal (e : Ev) (u : Subject) (d : List Byte) (s : State) : (State.raise e u d s).mcal = s.mcal := by simp [State.raise]
@[simp] theorem raise_prof (e : Ev) (u : Subject) (d : List Byte) (s : State) : (State.raise e u d s).prof = s.prof := by simp [State.raise]
@[simp] theorem raise_pq (e : Ev) (u : Subject) (d : List Byte) (s : State) : (State.raise e u d s).pq = s.pq := by simp [State.raise]
@[simp] theorem raise_wb (e : Ev) (u : Subject) (d : List Byte) (s : State) : (State.raise e u d s).wb = s.wb := by simp [State.raise]
@[simp] theorem raise_pulses (e : Ev) (u : Subject) (d : List Byte) (s : State) : (State.raise e u d s).pulses = s.pulses := by simp [State.raise]
@[simp] theorem raise_fol (e : Ev) (u : Subject) (d : List Byte) (s : State) : (State.raise e u d s).fol = s.fol := by simp [State.raise]
@[simp] theorem raise_scr (e : Ev) (u : Subject) (d : List Byte) (s : State) : (State.raise e u d s).scr = s.scr := by simp [State.raise]
@[simp] theorem raise_pwr (e : Ev) (u : Subject) (d : List Byte) (s : State) : (State.raise e u d s).pwr = s.pwr := by simp [State.raise]
@[simp] theorem raise_flt (e : Ev) (u : Subject) (d : List Byte) (s : State) : (State.raise e u d s).flt = s.flt := by simp [State.raise]
@[simp] theorem raise_anv_up (e : Ev) (u : Subject) (d : List Byte) (s : State) : (State.raise e u d s).anv.up = s.anv.up := by simp [State.raise]
@[simp] theorem raise_anv_slot (e : Ev) (u : Subject) (d : List Byte) (s : State) : (State.raise e u d s).anv.slot = s.anv.slot := by simp [State.raise]
@[simp] theorem raise_anv_active (e : Ev) (u : Subject) (d : List Byte) (s : State) : (State.raise e u d s).anv.active = s.anv.active := by simp [State.raise]
@[simp] theorem raise_anv_fallback (e : Ev) (u : Subject) (d : List Byte) (s : State) : (State.raise e u d s).anv.fallback = s.anv.fallback := by simp [State.raise]
@[simp] theorem raise_anv_fw (e : Ev) (u : Subject) (d : List Byte) (s : State) : (State.raise e u d s).anv.fw = s.anv.fw := by simp [State.raise]
@[simp] theorem raise_anv_epoch (e : Ev) (u : Subject) (d : List Byte) (s : State) : (State.raise e u d s).anv.epoch = s.anv.epoch := by simp [State.raise]
@[simp] theorem raise_anv_version (e : Ev) (u : Subject) (d : List Byte) (s : State) : (State.raise e u d s).anv.version = s.anv.version := by simp [State.raise]
@[simp] theorem raise_anv_slots (e : Ev) (u : Subject) (d : List Byte) (s : State) : (State.raise e u d s).anv.slots = s.anv.slots := by simp [State.raise]
@[simp] theorem raise_anv_trialLeft (e : Ev) (u : Subject) (d : List Byte) (s : State) : (State.raise e u d s).anv.trialLeft = s.anv.trialLeft := by simp [State.raise]
@[simp] theorem raise_anv_trialOver (e : Ev) (u : Subject) (d : List Byte) (s : State) : (State.raise e u d s).anv.trialOver = s.anv.trialOver := by simp [State.raise]
@[simp] theorem raise_anv_checkDue (e : Ev) (u : Subject) (d : List Byte) (s : State) : (State.raise e u d s).anv.checkDue = s.anv.checkDue := by simp [State.raise]
@[simp] theorem raise_anv_fillDue (e : Ev) (u : Subject) (d : List Byte) (s : State) : (State.raise e u d s).anv.fillDue = s.anv.fillDue := by simp [State.raise]
@[simp] theorem raise_anv_auxRes (e : Ev) (u : Subject) (d : List Byte) (s : State) : (State.raise e u d s).anv.auxRes = s.anv.auxRes := by simp [State.raise]
@[simp] theorem raise_anv_auxDue (e : Ev) (u : Subject) (d : List Byte) (s : State) : (State.raise e u d s).anv.auxDue = s.anv.auxDue := by simp [State.raise]
@[simp] theorem raise_anv_hall (e : Ev) (u : Subject) (d : List Byte) (s : State) : (State.raise e u d s).anv.hall = s.anv.hall := by simp [State.raise]
@[simp] theorem raise_anv_hallLast (e : Ev) (u : Subject) (d : List Byte) (s : State) : (State.raise e u d s).anv.hallLast = s.anv.hallLast := by simp [State.raise]
@[simp] theorem raise_anv_magScans (e : Ev) (u : Subject) (d : List Byte) (s : State) : (State.raise e u d s).anv.magScans = s.anv.magScans := by simp [State.raise]
@[simp] theorem raise_anv_refActive (e : Ev) (u : Subject) (d : List Byte) (s : State) : (State.raise e u d s).anv.refActive = s.anv.refActive := by simp [State.raise]
@[simp] theorem raise_anv_refClear (e : Ev) (u : Subject) (d : List Byte) (s : State) : (State.raise e u d s).anv.refClear = s.anv.refClear := by simp [State.raise]
@[simp] theorem raise_anv_tempActive (e : Ev) (u : Subject) (d : List Byte) (s : State) : (State.raise e u d s).anv.tempActive = s.anv.tempActive := by simp [State.raise]
@[simp] theorem raise_anv_images (e : Ev) (u : Subject) (d : List Byte) (s : State) : (State.raise e u d s).anv.images = s.anv.images := by simp [State.raise]
@[simp] theorem raise_anv_saveDue (e : Ev) (u : Subject) (d : List Byte) (s : State) : (State.raise e u d s).anv.saveDue = s.anv.saveDue := by simp [State.raise]
@[simp] theorem raise_anv_log (e : Ev) (u : Subject) (d : List Byte) (s : State) : (State.raise e u d s).anv.log = s.anv.log := by simp [State.raise]
@[simp] theorem raise_anv_logNext (e : Ev) (u : Subject) (d : List Byte) (s : State) : (State.raise e u d s).anv.logNext = s.anv.logNext := by simp [State.raise]
@[simp] theorem raise_anv_logLink (e : Ev) (u : Subject) (d : List Byte) (s : State) : (State.raise e u d s).anv.logLink = s.anv.logLink := by simp [State.raise]
@[simp] theorem raise_cld (e : Ev) (u : Subject) (d : List Byte) (s : State) : (State.raise e u d s).cld = s.cld := by simp [State.raise]
@[simp] theorem raise_grd (e : Ev) (u : Subject) (d : List Byte) (s : State) : (State.raise e u d s).grd = s.grd := by simp [State.raise]
@[simp] theorem raise_pnl (e : Ev) (u : Subject) (d : List Byte) (s : State) : (State.raise e u d s).pnl = s.pnl := by simp [State.raise]
@[simp] theorem raise_trim (e : Ev) (u : Subject) (d : List Byte) (s : State) : (State.raise e u d s).trim = s.trim := by simp [State.raise]

/-! ### `State.note` -/

@[simp] theorem note_pending (b : Blot) (e : Ev) (u : Subject) (d : List Byte) (s : State) : (State.note b e u d s).pending = s.pending := by simp [State.note]
@[simp] theorem note_draws (b : Blot) (e : Ev) (u : Subject) (d : List Byte) (s : State) : (State.note b e u d s).draws = s.draws := by simp [State.note]
@[simp] theorem note_now (b : Blot) (e : Ev) (u : Subject) (d : List Byte) (s : State) : (State.note b e u d s).now = s.now := by simp [State.note]
@[simp] theorem note_dev_variant (b : Blot) (e : Ev) (u : Subject) (d : List Byte) (s : State) : (State.note b e u d s).dev.variant = s.dev.variant := by simp [State.note]
@[simp] theorem note_dev_startup (b : Blot) (e : Ev) (u : Subject) (d : List Byte) (s : State) : (State.note b e u d s).dev.startup = s.dev.startup := by simp [State.note]
@[simp] theorem note_dev_bankAt (b : Blot) (e : Ev) (u : Subject) (d : List Byte) (s : State) : (State.note b e u d s).dev.bankAt = s.dev.bankAt := by simp [State.note]
@[simp] theorem note_dev_bankedFrom (b : Blot) (e : Ev) (u : Subject) (d : List Byte) (s : State) : (State.note b e u d s).dev.bankedFrom = s.dev.bankedFrom := by simp [State.note]
@[simp] theorem note_dev_softReset (b : Blot) (e : Ev) (u : Subject) (d : List Byte) (s : State) : (State.note b e u d s).dev.softReset = s.dev.softReset := by simp [State.note]
@[simp] theorem note_cfg (b : Blot) (e : Ev) (u : Subject) (d : List Byte) (s : State) : (State.note b e u d s).cfg = s.cfg := by simp [State.note]
@[simp] theorem note_eff (b : Blot) (e : Ev) (u : Subject) (d : List Byte) (s : State) : (State.note b e u d s).eff = s.eff := by simp [State.note]
@[simp] theorem note_slots (b : Blot) (e : Ev) (u : Subject) (d : List Byte) (s : State) : (State.note b e u d s).slots = s.slots := by simp [State.note]
@[simp] theorem note_chans (b : Blot) (e : Ev) (u : Subject) (d : List Byte) (s : State) : (State.note b e u d s).chans = s.chans := by simp [State.note]
@[simp] theorem note_spares (b : Blot) (e : Ev) (u : Subject) (d : List Byte) (s : State) : (State.note b e u d s).spares = s.spares := by simp [State.note]
@[simp] theorem note_pts (b : Blot) (e : Ev) (u : Subject) (d : List Byte) (s : State) : (State.note b e u d s).pts = s.pts := by simp [State.note]
@[simp] theorem note_buses (b : Blot) (e : Ev) (u : Subject) (d : List Byte) (s : State) : (State.note b e u d s).buses = s.buses := by simp [State.note]
@[simp] theorem note_tb (b : Blot) (e : Ev) (u : Subject) (d : List Byte) (s : State) : (State.note b e u d s).tb = s.tb := by simp [State.note]
@[simp] theorem note_engine (b : Blot) (e : Ev) (u : Subject) (d : List Byte) (s : State) : (State.note b e u d s).engine = s.engine := by simp [State.note]
@[simp] theorem note_mcal (b : Blot) (e : Ev) (u : Subject) (d : List Byte) (s : State) : (State.note b e u d s).mcal = s.mcal := by simp [State.note]
@[simp] theorem note_prof (b : Blot) (e : Ev) (u : Subject) (d : List Byte) (s : State) : (State.note b e u d s).prof = s.prof := by simp [State.note]
@[simp] theorem note_pq (b : Blot) (e : Ev) (u : Subject) (d : List Byte) (s : State) : (State.note b e u d s).pq = s.pq := by simp [State.note]
@[simp] theorem note_wb (b : Blot) (e : Ev) (u : Subject) (d : List Byte) (s : State) : (State.note b e u d s).wb = s.wb := by simp [State.note]
@[simp] theorem note_pulses (b : Blot) (e : Ev) (u : Subject) (d : List Byte) (s : State) : (State.note b e u d s).pulses = s.pulses := by simp [State.note]
@[simp] theorem note_fol (b : Blot) (e : Ev) (u : Subject) (d : List Byte) (s : State) : (State.note b e u d s).fol = s.fol := by simp [State.note]
@[simp] theorem note_scr (b : Blot) (e : Ev) (u : Subject) (d : List Byte) (s : State) : (State.note b e u d s).scr = s.scr := by simp [State.note]
@[simp] theorem note_pwr (b : Blot) (e : Ev) (u : Subject) (d : List Byte) (s : State) : (State.note b e u d s).pwr = s.pwr := by simp [State.note]
@[simp] theorem note_flt (b : Blot) (e : Ev) (u : Subject) (d : List Byte) (s : State) : (State.note b e u d s).flt = s.flt := by simp [State.note]
@[simp] theorem note_anv_up (b : Blot) (e : Ev) (u : Subject) (d : List Byte) (s : State) : (State.note b e u d s).anv.up = s.anv.up := by simp [State.note]
@[simp] theorem note_anv_slot (b : Blot) (e : Ev) (u : Subject) (d : List Byte) (s : State) : (State.note b e u d s).anv.slot = s.anv.slot := by simp [State.note]
@[simp] theorem note_anv_active (b : Blot) (e : Ev) (u : Subject) (d : List Byte) (s : State) : (State.note b e u d s).anv.active = s.anv.active := by simp [State.note]
@[simp] theorem note_anv_fallback (b : Blot) (e : Ev) (u : Subject) (d : List Byte) (s : State) : (State.note b e u d s).anv.fallback = s.anv.fallback := by simp [State.note]
@[simp] theorem note_anv_fw (b : Blot) (e : Ev) (u : Subject) (d : List Byte) (s : State) : (State.note b e u d s).anv.fw = s.anv.fw := by simp [State.note]
@[simp] theorem note_anv_epoch (b : Blot) (e : Ev) (u : Subject) (d : List Byte) (s : State) : (State.note b e u d s).anv.epoch = s.anv.epoch := by simp [State.note]
@[simp] theorem note_anv_version (b : Blot) (e : Ev) (u : Subject) (d : List Byte) (s : State) : (State.note b e u d s).anv.version = s.anv.version := by simp [State.note]
@[simp] theorem note_anv_slots (b : Blot) (e : Ev) (u : Subject) (d : List Byte) (s : State) : (State.note b e u d s).anv.slots = s.anv.slots := by simp [State.note]
@[simp] theorem note_anv_trialLeft (b : Blot) (e : Ev) (u : Subject) (d : List Byte) (s : State) : (State.note b e u d s).anv.trialLeft = s.anv.trialLeft := by simp [State.note]
@[simp] theorem note_anv_trialOver (b : Blot) (e : Ev) (u : Subject) (d : List Byte) (s : State) : (State.note b e u d s).anv.trialOver = s.anv.trialOver := by simp [State.note]
@[simp] theorem note_anv_checkDue (b : Blot) (e : Ev) (u : Subject) (d : List Byte) (s : State) : (State.note b e u d s).anv.checkDue = s.anv.checkDue := by simp [State.note]
@[simp] theorem note_anv_fillDue (b : Blot) (e : Ev) (u : Subject) (d : List Byte) (s : State) : (State.note b e u d s).anv.fillDue = s.anv.fillDue := by simp [State.note]
@[simp] theorem note_anv_auxRes (b : Blot) (e : Ev) (u : Subject) (d : List Byte) (s : State) : (State.note b e u d s).anv.auxRes = s.anv.auxRes := by simp [State.note]
@[simp] theorem note_anv_auxDue (b : Blot) (e : Ev) (u : Subject) (d : List Byte) (s : State) : (State.note b e u d s).anv.auxDue = s.anv.auxDue := by simp [State.note]
@[simp] theorem note_anv_hall (b : Blot) (e : Ev) (u : Subject) (d : List Byte) (s : State) : (State.note b e u d s).anv.hall = s.anv.hall := by simp [State.note]
@[simp] theorem note_anv_hallLast (b : Blot) (e : Ev) (u : Subject) (d : List Byte) (s : State) : (State.note b e u d s).anv.hallLast = s.anv.hallLast := by simp [State.note]
@[simp] theorem note_anv_magScans (b : Blot) (e : Ev) (u : Subject) (d : List Byte) (s : State) : (State.note b e u d s).anv.magScans = s.anv.magScans := by simp [State.note]
@[simp] theorem note_anv_refActive (b : Blot) (e : Ev) (u : Subject) (d : List Byte) (s : State) : (State.note b e u d s).anv.refActive = s.anv.refActive := by simp [State.note]
@[simp] theorem note_anv_refClear (b : Blot) (e : Ev) (u : Subject) (d : List Byte) (s : State) : (State.note b e u d s).anv.refClear = s.anv.refClear := by simp [State.note]
@[simp] theorem note_anv_tempActive (b : Blot) (e : Ev) (u : Subject) (d : List Byte) (s : State) : (State.note b e u d s).anv.tempActive = s.anv.tempActive := by simp [State.note]
@[simp] theorem note_anv_images (b : Blot) (e : Ev) (u : Subject) (d : List Byte) (s : State) : (State.note b e u d s).anv.images = s.anv.images := by simp [State.note]
@[simp] theorem note_anv_saveDue (b : Blot) (e : Ev) (u : Subject) (d : List Byte) (s : State) : (State.note b e u d s).anv.saveDue = s.anv.saveDue := by simp [State.note]
@[simp] theorem note_anv_log (b : Blot) (e : Ev) (u : Subject) (d : List Byte) (s : State) : (State.note b e u d s).anv.log = s.anv.log := by simp [State.note]
@[simp] theorem note_anv_logNext (b : Blot) (e : Ev) (u : Subject) (d : List Byte) (s : State) : (State.note b e u d s).anv.logNext = s.anv.logNext := by simp [State.note]
@[simp] theorem note_anv_logLink (b : Blot) (e : Ev) (u : Subject) (d : List Byte) (s : State) : (State.note b e u d s).anv.logLink = s.anv.logLink := by simp [State.note]
@[simp] theorem note_cld (b : Blot) (e : Ev) (u : Subject) (d : List Byte) (s : State) : (State.note b e u d s).cld = s.cld := by simp [State.note]
@[simp] theorem note_grd (b : Blot) (e : Ev) (u : Subject) (d : List Byte) (s : State) : (State.note b e u d s).grd = s.grd := by simp [State.note]
@[simp] theorem note_pnl (b : Blot) (e : Ev) (u : Subject) (d : List Byte) (s : State) : (State.note b e u d s).pnl = s.pnl := by simp [State.note]
@[simp] theorem note_trim (b : Blot) (e : Ev) (u : Subject) (d : List Byte) (s : State) : (State.note b e u d s).trim = s.trim := by simp [State.note]

/-! ### `State.logOnly` -/

@[simp] theorem logOnly_pending (e : Ev) (u : Subject) (d : List Byte) (s : State) : (State.logOnly e u d s).pending = s.pending := by unfold State.logOnly; dsimp only; split <;> simp
@[simp] theorem logOnly_draws (e : Ev) (u : Subject) (d : List Byte) (s : State) : (State.logOnly e u d s).draws = s.draws := by unfold State.logOnly; dsimp only; split <;> simp
@[simp] theorem logOnly_now (e : Ev) (u : Subject) (d : List Byte) (s : State) : (State.logOnly e u d s).now = s.now := by unfold State.logOnly; dsimp only; split <;> simp
@[simp] theorem logOnly_dev_variant (e : Ev) (u : Subject) (d : List Byte) (s : State) : (State.logOnly e u d s).dev.variant = s.dev.variant := by unfold State.logOnly; dsimp only; split <;> simp
@[simp] theorem logOnly_dev_startup (e : Ev) (u : Subject) (d : List Byte) (s : State) : (State.logOnly e u d s).dev.startup = s.dev.startup := by unfold State.logOnly; dsimp only; split <;> simp
@[simp] theorem logOnly_dev_bankAt (e : Ev) (u : Subject) (d : List Byte) (s : State) : (State.logOnly e u d s).dev.bankAt = s.dev.bankAt := by unfold State.logOnly; dsimp only; split <;> simp
@[simp] theorem logOnly_dev_bankedFrom (e : Ev) (u : Subject) (d : List Byte) (s : State) : (State.logOnly e u d s).dev.bankedFrom = s.dev.bankedFrom := by unfold State.logOnly; dsimp only; split <;> simp
@[simp] theorem logOnly_dev_softReset (e : Ev) (u : Subject) (d : List Byte) (s : State) : (State.logOnly e u d s).dev.softReset = s.dev.softReset := by unfold State.logOnly; dsimp only; split <;> simp
@[simp] theorem logOnly_cfg (e : Ev) (u : Subject) (d : List Byte) (s : State) : (State.logOnly e u d s).cfg = s.cfg := by unfold State.logOnly; dsimp only; split <;> simp
@[simp] theorem logOnly_eff (e : Ev) (u : Subject) (d : List Byte) (s : State) : (State.logOnly e u d s).eff = s.eff := by unfold State.logOnly; dsimp only; split <;> simp
@[simp] theorem logOnly_slots (e : Ev) (u : Subject) (d : List Byte) (s : State) : (State.logOnly e u d s).slots = s.slots := by unfold State.logOnly; dsimp only; split <;> simp
@[simp] theorem logOnly_chans (e : Ev) (u : Subject) (d : List Byte) (s : State) : (State.logOnly e u d s).chans = s.chans := by unfold State.logOnly; dsimp only; split <;> simp
@[simp] theorem logOnly_spares (e : Ev) (u : Subject) (d : List Byte) (s : State) : (State.logOnly e u d s).spares = s.spares := by unfold State.logOnly; dsimp only; split <;> simp
@[simp] theorem logOnly_pts (e : Ev) (u : Subject) (d : List Byte) (s : State) : (State.logOnly e u d s).pts = s.pts := by unfold State.logOnly; dsimp only; split <;> simp
@[simp] theorem logOnly_buses (e : Ev) (u : Subject) (d : List Byte) (s : State) : (State.logOnly e u d s).buses = s.buses := by unfold State.logOnly; dsimp only; split <;> simp
@[simp] theorem logOnly_tb (e : Ev) (u : Subject) (d : List Byte) (s : State) : (State.logOnly e u d s).tb = s.tb := by unfold State.logOnly; dsimp only; split <;> simp
@[simp] theorem logOnly_engine (e : Ev) (u : Subject) (d : List Byte) (s : State) : (State.logOnly e u d s).engine = s.engine := by unfold State.logOnly; dsimp only; split <;> simp
@[simp] theorem logOnly_mcal (e : Ev) (u : Subject) (d : List Byte) (s : State) : (State.logOnly e u d s).mcal = s.mcal := by unfold State.logOnly; dsimp only; split <;> simp
@[simp] theorem logOnly_prof (e : Ev) (u : Subject) (d : List Byte) (s : State) : (State.logOnly e u d s).prof = s.prof := by unfold State.logOnly; dsimp only; split <;> simp
@[simp] theorem logOnly_pq (e : Ev) (u : Subject) (d : List Byte) (s : State) : (State.logOnly e u d s).pq = s.pq := by unfold State.logOnly; dsimp only; split <;> simp
@[simp] theorem logOnly_wb (e : Ev) (u : Subject) (d : List Byte) (s : State) : (State.logOnly e u d s).wb = s.wb := by unfold State.logOnly; dsimp only; split <;> simp
@[simp] theorem logOnly_pulses (e : Ev) (u : Subject) (d : List Byte) (s : State) : (State.logOnly e u d s).pulses = s.pulses := by unfold State.logOnly; dsimp only; split <;> simp
@[simp] theorem logOnly_fol (e : Ev) (u : Subject) (d : List Byte) (s : State) : (State.logOnly e u d s).fol = s.fol := by unfold State.logOnly; dsimp only; split <;> simp
@[simp] theorem logOnly_scr (e : Ev) (u : Subject) (d : List Byte) (s : State) : (State.logOnly e u d s).scr = s.scr := by unfold State.logOnly; dsimp only; split <;> simp
@[simp] theorem logOnly_pwr (e : Ev) (u : Subject) (d : List Byte) (s : State) : (State.logOnly e u d s).pwr = s.pwr := by unfold State.logOnly; dsimp only; split <;> simp
@[simp] theorem logOnly_flt (e : Ev) (u : Subject) (d : List Byte) (s : State) : (State.logOnly e u d s).flt = s.flt := by unfold State.logOnly; dsimp only; split <;> simp
@[simp] theorem logOnly_anv (e : Ev) (u : Subject) (d : List Byte) (s : State) : (State.logOnly e u d s).anv = s.anv := by unfold State.logOnly; dsimp only; split <;> simp
@[simp] theorem logOnly_cld (e : Ev) (u : Subject) (d : List Byte) (s : State) : (State.logOnly e u d s).cld = s.cld := by unfold State.logOnly; dsimp only; split <;> simp
@[simp] theorem logOnly_grd (e : Ev) (u : Subject) (d : List Byte) (s : State) : (State.logOnly e u d s).grd = s.grd := by unfold State.logOnly; dsimp only; split <;> simp
@[simp] theorem logOnly_pnl (e : Ev) (u : Subject) (d : List Byte) (s : State) : (State.logOnly e u d s).pnl = s.pnl := by unfold State.logOnly; dsimp only; split <;> simp
@[simp] theorem logOnly_trim (e : Ev) (u : Subject) (d : List Byte) (s : State) : (State.logOnly e u d s).trim = s.trim := by unfold State.logOnly; dsimp only; split <;> simp

/-! ### `State.wbDiscard` -/

@[simp] theorem wbDiscard_pending (x : Bool) (s : State) : (State.wbDiscard x s).pending = s.pending := by unfold State.wbDiscard; dsimp only; split <;> rfl
@[simp] theorem wbDiscard_draws (x : Bool) (s : State) : (State.wbDiscard x s).draws = s.draws := by unfold State.wbDiscard; dsimp only; split <;> rfl
@[simp] theorem wbDiscard_now (x : Bool) (s : State) : (State.wbDiscard x s).now = s.now := by unfold State.wbDiscard; dsimp only; split <;> rfl
@[simp] theorem wbDiscard_dev (x : Bool) (s : State) : (State.wbDiscard x s).dev = s.dev := by unfold State.wbDiscard; dsimp only; split <;> rfl
@[simp] theorem wbDiscard_cfg (x : Bool) (s : State) : (State.wbDiscard x s).cfg = s.cfg := by unfold State.wbDiscard; dsimp only; split <;> rfl
@[simp] theorem wbDiscard_eff (x : Bool) (s : State) : (State.wbDiscard x s).eff = s.eff := by unfold State.wbDiscard; dsimp only; split <;> rfl
@[simp] theorem wbDiscard_slots (x : Bool) (s : State) : (State.wbDiscard x s).slots = s.slots := by unfold State.wbDiscard; dsimp only; split <;> rfl
@[simp] theorem wbDiscard_chans (x : Bool) (s : State) : (State.wbDiscard x s).chans = s.chans := by unfold State.wbDiscard; dsimp only; split <;> rfl
@[simp] theorem wbDiscard_spares (x : Bool) (s : State) : (State.wbDiscard x s).spares = s.spares := by unfold State.wbDiscard; dsimp only; split <;> rfl
@[simp] theorem wbDiscard_pts (x : Bool) (s : State) : (State.wbDiscard x s).pts = s.pts := by unfold State.wbDiscard; dsimp only; split <;> rfl
@[simp] theorem wbDiscard_buses (x : Bool) (s : State) : (State.wbDiscard x s).buses = s.buses := by unfold State.wbDiscard; dsimp only; split <;> rfl
@[simp] theorem wbDiscard_tb (x : Bool) (s : State) : (State.wbDiscard x s).tb = s.tb := by unfold State.wbDiscard; dsimp only; split <;> rfl
@[simp] theorem wbDiscard_engine (x : Bool) (s : State) : (State.wbDiscard x s).engine = s.engine := by unfold State.wbDiscard; dsimp only; split <;> rfl
@[simp] theorem wbDiscard_mcal (x : Bool) (s : State) : (State.wbDiscard x s).mcal = s.mcal := by unfold State.wbDiscard; dsimp only; split <;> rfl
@[simp] theorem wbDiscard_prof (x : Bool) (s : State) : (State.wbDiscard x s).prof = s.prof := by unfold State.wbDiscard; dsimp only; split <;> rfl
@[simp] theorem wbDiscard_pq (x : Bool) (s : State) : (State.wbDiscard x s).pq = s.pq := by unfold State.wbDiscard; dsimp only; split <;> rfl
@[simp] theorem wbDiscard_pulses (x : Bool) (s : State) : (State.wbDiscard x s).pulses = s.pulses := by unfold State.wbDiscard; dsimp only; split <;> rfl
@[simp] theorem wbDiscard_fol (x : Bool) (s : State) : (State.wbDiscard x s).fol = s.fol := by unfold State.wbDiscard; dsimp only; split <;> rfl
@[simp] theorem wbDiscard_scr (x : Bool) (s : State) : (State.wbDiscard x s).scr = s.scr := by unfold State.wbDiscard; dsimp only; split <;> rfl
@[simp] theorem wbDiscard_ev (x : Bool) (s : State) : (State.wbDiscard x s).ev = s.ev := by unfold State.wbDiscard; dsimp only; split <;> rfl
@[simp] theorem wbDiscard_intc (x : Bool) (s : State) : (State.wbDiscard x s).intc = s.intc := by unfold State.wbDiscard; dsimp only; split <;> rfl
@[simp] theorem wbDiscard_pwr (x : Bool) (s : State) : (State.wbDiscard x s).pwr = s.pwr := by unfold State.wbDiscard; dsimp only; split <;> rfl
@[simp] theorem wbDiscard_flt (x : Bool) (s : State) : (State.wbDiscard x s).flt = s.flt := by unfold State.wbDiscard; dsimp only; split <;> rfl
@[simp] theorem wbDiscard_anv (x : Bool) (s : State) : (State.wbDiscard x s).anv = s.anv := by unfold State.wbDiscard; dsimp only; split <;> rfl
@[simp] theorem wbDiscard_cld (x : Bool) (s : State) : (State.wbDiscard x s).cld = s.cld := by unfold State.wbDiscard; dsimp only; split <;> rfl
@[simp] theorem wbDiscard_grd (x : Bool) (s : State) : (State.wbDiscard x s).grd = s.grd := by unfold State.wbDiscard; dsimp only; split <;> rfl
@[simp] theorem wbDiscard_pnl (x : Bool) (s : State) : (State.wbDiscard x s).pnl = s.pnl := by unfold State.wbDiscard; dsimp only; split <;> rfl
@[simp] theorem wbDiscard_trim (x : Bool) (s : State) : (State.wbDiscard x s).trim = s.trim := by unfold State.wbDiscard; dsimp only; split <;> rfl

/-! ### `State.start` -/

@[simp] theorem start_pending (p : Port) (s : State) : (State.start p s).pending = s.pending := by unfold State.start; split <;> rfl
@[simp] theorem start_draws (p : Port) (s : State) : (State.start p s).draws = s.draws := by unfold State.start; split <;> rfl
@[simp] theorem start_now (p : Port) (s : State) : (State.start p s).now = s.now := by unfold State.start; split <;> rfl
@[simp] theorem start_dev (p : Port) (s : State) : (State.start p s).dev = s.dev := by unfold State.start; split <;> rfl
@[simp] theorem start_cfg (p : Port) (s : State) : (State.start p s).cfg = s.cfg := by unfold State.start; split <;> rfl
@[simp] theorem start_eff (p : Port) (s : State) : (State.start p s).eff = s.eff := by unfold State.start; split <;> rfl
@[simp] theorem start_slots (p : Port) (s : State) : (State.start p s).slots = s.slots := by unfold State.start; split <;> rfl
@[simp] theorem start_chans (p : Port) (s : State) : (State.start p s).chans = s.chans := by unfold State.start; split <;> rfl
@[simp] theorem start_spares (p : Port) (s : State) : (State.start p s).spares = s.spares := by unfold State.start; split <;> rfl
@[simp] theorem start_pts (p : Port) (s : State) : (State.start p s).pts = s.pts := by unfold State.start; split <;> rfl
@[simp] theorem start_buses (p : Port) (s : State) : (State.start p s).buses = s.buses := by unfold State.start; split <;> rfl
@[simp] theorem start_tb (p : Port) (s : State) : (State.start p s).tb = s.tb := by unfold State.start; split <;> rfl
@[simp] theorem start_engine (p : Port) (s : State) : (State.start p s).engine = s.engine := by unfold State.start; split <;> rfl
@[simp] theorem start_mcal (p : Port) (s : State) : (State.start p s).mcal = s.mcal := by unfold State.start; split <;> rfl
@[simp] theorem start_prof (p : Port) (s : State) : (State.start p s).prof = s.prof := by unfold State.start; split <;> rfl
@[simp] theorem start_pq (p : Port) (s : State) : (State.start p s).pq = s.pq := by unfold State.start; split <;> rfl
@[simp] theorem start_wb (p : Port) (s : State) : (State.start p s).wb = s.wb := by unfold State.start; split <;> rfl
@[simp] theorem start_pulses (p : Port) (s : State) : (State.start p s).pulses = s.pulses := by unfold State.start; split <;> rfl
@[simp] theorem start_fol (p : Port) (s : State) : (State.start p s).fol = s.fol := by unfold State.start; split <;> rfl
@[simp] theorem start_scr_sessions (p : Port) (s : State) : (State.start p s).scr.sessions = s.scr.sessions := by unfold State.start; split <;> rfl
@[simp] theorem start_scr_queues (p : Port) (s : State) : (State.start p s).scr.queues = s.scr.queues := by unfold State.start; split <;> rfl
@[simp] theorem start_scr_tags (p : Port) (s : State) : (State.start p s).scr.tags = s.scr.tags := by unfold State.start; split <;> rfl
@[simp] theorem start_scr_admitted (p : Port) (s : State) : (State.start p s).scr.admitted = s.scr.admitted := by unfold State.start; split <;> rfl
@[simp] theorem start_scr_legalEver (p : Port) (s : State) : (State.start p s).scr.legalEver = s.scr.legalEver := by unfold State.start; split <;> rfl
@[simp] theorem start_scr_challenge (p : Port) (s : State) : (State.start p s).scr.challenge = s.scr.challenge := by unfold State.start; split <;> rfl
@[simp] theorem start_scr_baudDue (p : Port) (s : State) : (State.start p s).scr.baudDue = s.scr.baudDue := by unfold State.start; split <;> rfl
@[simp] theorem start_scr_inkLock (p : Port) (s : State) : (State.start p s).scr.inkLock = s.scr.inkLock := by unfold State.start; split <;> rfl
@[simp] theorem start_ev (p : Port) (s : State) : (State.start p s).ev = s.ev := by unfold State.start; split <;> rfl
@[simp] theorem start_intc (p : Port) (s : State) : (State.start p s).intc = s.intc := by unfold State.start; split <;> rfl
@[simp] theorem start_pwr (p : Port) (s : State) : (State.start p s).pwr = s.pwr := by unfold State.start; split <;> rfl
@[simp] theorem start_flt (p : Port) (s : State) : (State.start p s).flt = s.flt := by unfold State.start; split <;> rfl
@[simp] theorem start_anv (p : Port) (s : State) : (State.start p s).anv = s.anv := by unfold State.start; split <;> rfl
@[simp] theorem start_cld (p : Port) (s : State) : (State.start p s).cld = s.cld := by unfold State.start; split <;> rfl
@[simp] theorem start_grd (p : Port) (s : State) : (State.start p s).grd = s.grd := by unfold State.start; split <;> rfl
@[simp] theorem start_pnl (p : Port) (s : State) : (State.start p s).pnl = s.pnl := by unfold State.start; split <;> rfl
@[simp] theorem start_trim (p : Port) (s : State) : (State.start p s).trim = s.trim := by unfold State.start; split <;> rfl

/-! ### `State.keepActivations` -/

@[simp] theorem keepActivations_pending (i : Fin 1024) (s : State) : (State.keepActivations i s).pending = s.pending := by unfold State.keepActivations; (repeat' split) <;> rfl
@[simp] theorem keepActivations_draws (i : Fin 1024) (s : State) : (State.keepActivations i s).draws = s.draws := by unfold State.keepActivations; (repeat' split) <;> rfl
@[simp] theorem keepActivations_now (i : Fin 1024) (s : State) : (State.keepActivations i s).now = s.now := by unfold State.keepActivations; (repeat' split) <;> rfl
@[simp] theorem keepActivations_dev (i : Fin 1024) (s : State) : (State.keepActivations i s).dev = s.dev := by unfold State.keepActivations; (repeat' split) <;> rfl
@[simp] theorem keepActivations_cfg (i : Fin 1024) (s : State) : (State.keepActivations i s).cfg = s.cfg := by unfold State.keepActivations; (repeat' split) <;> rfl
@[simp] theorem keepActivations_eff (i : Fin 1024) (s : State) : (State.keepActivations i s).eff = s.eff := by unfold State.keepActivations; (repeat' split) <;> rfl
@[simp] theorem keepActivations_slots (i : Fin 1024) (s : State) : (State.keepActivations i s).slots = s.slots := by unfold State.keepActivations; (repeat' split) <;> rfl
@[simp] theorem keepActivations_chans (i : Fin 1024) (s : State) : (State.keepActivations i s).chans = s.chans := by unfold State.keepActivations; (repeat' split) <;> rfl
@[simp] theorem keepActivations_spares (i : Fin 1024) (s : State) : (State.keepActivations i s).spares = s.spares := by unfold State.keepActivations; (repeat' split) <;> rfl
@[simp] theorem keepActivations_pts (i : Fin 1024) (s : State) : (State.keepActivations i s).pts = s.pts := by unfold State.keepActivations; (repeat' split) <;> rfl
@[simp] theorem keepActivations_buses (i : Fin 1024) (s : State) : (State.keepActivations i s).buses = s.buses := by unfold State.keepActivations; (repeat' split) <;> rfl
@[simp] theorem keepActivations_tb (i : Fin 1024) (s : State) : (State.keepActivations i s).tb = s.tb := by unfold State.keepActivations; (repeat' split) <;> rfl
@[simp] theorem keepActivations_engine (i : Fin 1024) (s : State) : (State.keepActivations i s).engine = s.engine := by unfold State.keepActivations; (repeat' split) <;> rfl
@[simp] theorem keepActivations_mcal (i : Fin 1024) (s : State) : (State.keepActivations i s).mcal = s.mcal := by unfold State.keepActivations; (repeat' split) <;> rfl
@[simp] theorem keepActivations_prof (i : Fin 1024) (s : State) : (State.keepActivations i s).prof = s.prof := by unfold State.keepActivations; (repeat' split) <;> rfl
@[simp] theorem keepActivations_pq (i : Fin 1024) (s : State) : (State.keepActivations i s).pq = s.pq := by unfold State.keepActivations; (repeat' split) <;> rfl
@[simp] theorem keepActivations_wb (i : Fin 1024) (s : State) : (State.keepActivations i s).wb = s.wb := by unfold State.keepActivations; (repeat' split) <;> rfl
@[simp] theorem keepActivations_pulses (i : Fin 1024) (s : State) : (State.keepActivations i s).pulses = s.pulses := by unfold State.keepActivations; (repeat' split) <;> rfl
@[simp] theorem keepActivations_fol (i : Fin 1024) (s : State) : (State.keepActivations i s).fol = s.fol := by unfold State.keepActivations; (repeat' split) <;> rfl
@[simp] theorem keepActivations_scr_ports (i : Fin 1024) (s : State) : (State.keepActivations i s).scr.ports = s.scr.ports := by unfold State.keepActivations; (repeat' split) <;> rfl
@[simp] theorem keepActivations_scr_sessions (i : Fin 1024) (s : State) : (State.keepActivations i s).scr.sessions = s.scr.sessions := by unfold State.keepActivations; (repeat' split) <;> rfl
@[simp] theorem keepActivations_scr_tags (i : Fin 1024) (s : State) : (State.keepActivations i s).scr.tags = s.scr.tags := by unfold State.keepActivations; (repeat' split) <;> rfl
@[simp] theorem keepActivations_scr_admitted (i : Fin 1024) (s : State) : (State.keepActivations i s).scr.admitted = s.scr.admitted := by unfold State.keepActivations; (repeat' split) <;> rfl
@[simp] theorem keepActivations_scr_legalEver (i : Fin 1024) (s : State) : (State.keepActivations i s).scr.legalEver = s.scr.legalEver := by unfold State.keepActivations; (repeat' split) <;> rfl
@[simp] theorem keepActivations_scr_challenge (i : Fin 1024) (s : State) : (State.keepActivations i s).scr.challenge = s.scr.challenge := by unfold State.keepActivations; (repeat' split) <;> rfl
@[simp] theorem keepActivations_scr_baudDue (i : Fin 1024) (s : State) : (State.keepActivations i s).scr.baudDue = s.scr.baudDue := by unfold State.keepActivations; (repeat' split) <;> rfl
@[simp] theorem keepActivations_scr_inkLock (i : Fin 1024) (s : State) : (State.keepActivations i s).scr.inkLock = s.scr.inkLock := by unfold State.keepActivations; (repeat' split) <;> rfl
@[simp] theorem keepActivations_ev (i : Fin 1024) (s : State) : (State.keepActivations i s).ev = s.ev := by unfold State.keepActivations; (repeat' split) <;> rfl
@[simp] theorem keepActivations_intc (i : Fin 1024) (s : State) : (State.keepActivations i s).intc = s.intc := by unfold State.keepActivations; (repeat' split) <;> rfl
@[simp] theorem keepActivations_pwr (i : Fin 1024) (s : State) : (State.keepActivations i s).pwr = s.pwr := by unfold State.keepActivations; (repeat' split) <;> rfl
@[simp] theorem keepActivations_flt (i : Fin 1024) (s : State) : (State.keepActivations i s).flt = s.flt := by unfold State.keepActivations; (repeat' split) <;> rfl
@[simp] theorem keepActivations_anv (i : Fin 1024) (s : State) : (State.keepActivations i s).anv = s.anv := by unfold State.keepActivations; (repeat' split) <;> rfl
@[simp] theorem keepActivations_cld (i : Fin 1024) (s : State) : (State.keepActivations i s).cld = s.cld := by unfold State.keepActivations; (repeat' split) <;> rfl
@[simp] theorem keepActivations_grd (i : Fin 1024) (s : State) : (State.keepActivations i s).grd = s.grd := by unfold State.keepActivations; (repeat' split) <;> rfl
@[simp] theorem keepActivations_pnl (i : Fin 1024) (s : State) : (State.keepActivations i s).pnl = s.pnl := by unfold State.keepActivations; (repeat' split) <;> rfl
@[simp] theorem keepActivations_trim (i : Fin 1024) (s : State) : (State.keepActivations i s).trim = s.trim := by unfold State.keepActivations; (repeat' split) <;> rfl

/-! ### `State.endSession` -/

@[simp] theorem endSession_pending (i : Fin 1024) (c : Nat) (s : State) : (State.endSession i c s).pending = s.pending := by unfold State.endSession; dsimp only; split <;> simp
@[simp] theorem endSession_draws (i : Fin 1024) (c : Nat) (s : State) : (State.endSession i c s).draws = s.draws := by unfold State.endSession; dsimp only; split <;> simp
@[simp] theorem endSession_now (i : Fin 1024) (c : Nat) (s : State) : (State.endSession i c s).now = s.now := by unfold State.endSession; dsimp only; split <;> simp
@[simp] theorem endSession_dev_variant (i : Fin 1024) (c : Nat) (s : State) : (State.endSession i c s).dev.variant = s.dev.variant := by unfold State.endSession; dsimp only; split <;> simp
@[simp] theorem endSession_dev_startup (i : Fin 1024) (c : Nat) (s : State) : (State.endSession i c s).dev.startup = s.dev.startup := by unfold State.endSession; dsimp only; split <;> simp
@[simp] theorem endSession_dev_bankAt (i : Fin 1024) (c : Nat) (s : State) : (State.endSession i c s).dev.bankAt = s.dev.bankAt := by unfold State.endSession; dsimp only; split <;> simp
@[simp] theorem endSession_dev_bankedFrom (i : Fin 1024) (c : Nat) (s : State) : (State.endSession i c s).dev.bankedFrom = s.dev.bankedFrom := by unfold State.endSession; dsimp only; split <;> simp
@[simp] theorem endSession_dev_softReset (i : Fin 1024) (c : Nat) (s : State) : (State.endSession i c s).dev.softReset = s.dev.softReset := by unfold State.endSession; dsimp only; split <;> simp
@[simp] theorem endSession_cfg (i : Fin 1024) (c : Nat) (s : State) : (State.endSession i c s).cfg = s.cfg := by unfold State.endSession; dsimp only; split <;> simp
@[simp] theorem endSession_eff (i : Fin 1024) (c : Nat) (s : State) : (State.endSession i c s).eff = s.eff := by unfold State.endSession; dsimp only; split <;> simp
@[simp] theorem endSession_slots (i : Fin 1024) (c : Nat) (s : State) : (State.endSession i c s).slots = s.slots := by unfold State.endSession; dsimp only; split <;> simp
@[simp] theorem endSession_chans (i : Fin 1024) (c : Nat) (s : State) : (State.endSession i c s).chans = s.chans := by unfold State.endSession; dsimp only; split <;> simp
@[simp] theorem endSession_spares (i : Fin 1024) (c : Nat) (s : State) : (State.endSession i c s).spares = s.spares := by unfold State.endSession; dsimp only; split <;> simp
@[simp] theorem endSession_pts (i : Fin 1024) (c : Nat) (s : State) : (State.endSession i c s).pts = s.pts := by unfold State.endSession; dsimp only; split <;> simp
@[simp] theorem endSession_buses (i : Fin 1024) (c : Nat) (s : State) : (State.endSession i c s).buses = s.buses := by unfold State.endSession; dsimp only; split <;> simp
@[simp] theorem endSession_tb (i : Fin 1024) (c : Nat) (s : State) : (State.endSession i c s).tb = s.tb := by unfold State.endSession; dsimp only; split <;> simp
@[simp] theorem endSession_engine (i : Fin 1024) (c : Nat) (s : State) : (State.endSession i c s).engine = s.engine := by unfold State.endSession; dsimp only; split <;> simp
@[simp] theorem endSession_mcal (i : Fin 1024) (c : Nat) (s : State) : (State.endSession i c s).mcal = s.mcal := by unfold State.endSession; dsimp only; split <;> simp
@[simp] theorem endSession_prof (i : Fin 1024) (c : Nat) (s : State) : (State.endSession i c s).prof = s.prof := by unfold State.endSession; dsimp only; split <;> simp
@[simp] theorem endSession_pq (i : Fin 1024) (c : Nat) (s : State) : (State.endSession i c s).pq = s.pq := by unfold State.endSession; dsimp only; split <;> simp
@[simp] theorem endSession_wb (i : Fin 1024) (c : Nat) (s : State) : (State.endSession i c s).wb = s.wb := by unfold State.endSession; dsimp only; split <;> simp
@[simp] theorem endSession_pulses (i : Fin 1024) (c : Nat) (s : State) : (State.endSession i c s).pulses = s.pulses := by unfold State.endSession; dsimp only; split <;> simp
@[simp] theorem endSession_pwr (i : Fin 1024) (c : Nat) (s : State) : (State.endSession i c s).pwr = s.pwr := by unfold State.endSession; dsimp only; split <;> simp
@[simp] theorem endSession_flt (i : Fin 1024) (c : Nat) (s : State) : (State.endSession i c s).flt = s.flt := by unfold State.endSession; dsimp only; split <;> simp
@[simp] theorem endSession_anv_up (i : Fin 1024) (c : Nat) (s : State) : (State.endSession i c s).anv.up = s.anv.up := by unfold State.endSession; dsimp only; split <;> simp
@[simp] theorem endSession_anv_slot (i : Fin 1024) (c : Nat) (s : State) : (State.endSession i c s).anv.slot = s.anv.slot := by unfold State.endSession; dsimp only; split <;> simp
@[simp] theorem endSession_anv_active (i : Fin 1024) (c : Nat) (s : State) : (State.endSession i c s).anv.active = s.anv.active := by unfold State.endSession; dsimp only; split <;> simp
@[simp] theorem endSession_anv_fallback (i : Fin 1024) (c : Nat) (s : State) : (State.endSession i c s).anv.fallback = s.anv.fallback := by unfold State.endSession; dsimp only; split <;> simp
@[simp] theorem endSession_anv_fw (i : Fin 1024) (c : Nat) (s : State) : (State.endSession i c s).anv.fw = s.anv.fw := by unfold State.endSession; dsimp only; split <;> simp
@[simp] theorem endSession_anv_epoch (i : Fin 1024) (c : Nat) (s : State) : (State.endSession i c s).anv.epoch = s.anv.epoch := by unfold State.endSession; dsimp only; split <;> simp
@[simp] theorem endSession_anv_version (i : Fin 1024) (c : Nat) (s : State) : (State.endSession i c s).anv.version = s.anv.version := by unfold State.endSession; dsimp only; split <;> simp
@[simp] theorem endSession_anv_slots (i : Fin 1024) (c : Nat) (s : State) : (State.endSession i c s).anv.slots = s.anv.slots := by unfold State.endSession; dsimp only; split <;> simp
@[simp] theorem endSession_anv_trialLeft (i : Fin 1024) (c : Nat) (s : State) : (State.endSession i c s).anv.trialLeft = s.anv.trialLeft := by unfold State.endSession; dsimp only; split <;> simp
@[simp] theorem endSession_anv_trialOver (i : Fin 1024) (c : Nat) (s : State) : (State.endSession i c s).anv.trialOver = s.anv.trialOver := by unfold State.endSession; dsimp only; split <;> simp
@[simp] theorem endSession_anv_checkDue (i : Fin 1024) (c : Nat) (s : State) : (State.endSession i c s).anv.checkDue = s.anv.checkDue := by unfold State.endSession; dsimp only; split <;> simp
@[simp] theorem endSession_anv_fillDue (i : Fin 1024) (c : Nat) (s : State) : (State.endSession i c s).anv.fillDue = s.anv.fillDue := by unfold State.endSession; dsimp only; split <;> simp
@[simp] theorem endSession_anv_auxRes (i : Fin 1024) (c : Nat) (s : State) : (State.endSession i c s).anv.auxRes = s.anv.auxRes := by unfold State.endSession; dsimp only; split <;> simp
@[simp] theorem endSession_anv_auxDue (i : Fin 1024) (c : Nat) (s : State) : (State.endSession i c s).anv.auxDue = s.anv.auxDue := by unfold State.endSession; dsimp only; split <;> simp
@[simp] theorem endSession_anv_hall (i : Fin 1024) (c : Nat) (s : State) : (State.endSession i c s).anv.hall = s.anv.hall := by unfold State.endSession; dsimp only; split <;> simp
@[simp] theorem endSession_anv_hallLast (i : Fin 1024) (c : Nat) (s : State) : (State.endSession i c s).anv.hallLast = s.anv.hallLast := by unfold State.endSession; dsimp only; split <;> simp
@[simp] theorem endSession_anv_magScans (i : Fin 1024) (c : Nat) (s : State) : (State.endSession i c s).anv.magScans = s.anv.magScans := by unfold State.endSession; dsimp only; split <;> simp
@[simp] theorem endSession_anv_refActive (i : Fin 1024) (c : Nat) (s : State) : (State.endSession i c s).anv.refActive = s.anv.refActive := by unfold State.endSession; dsimp only; split <;> simp
@[simp] theorem endSession_anv_refClear (i : Fin 1024) (c : Nat) (s : State) : (State.endSession i c s).anv.refClear = s.anv.refClear := by unfold State.endSession; dsimp only; split <;> simp
@[simp] theorem endSession_anv_tempActive (i : Fin 1024) (c : Nat) (s : State) : (State.endSession i c s).anv.tempActive = s.anv.tempActive := by unfold State.endSession; dsimp only; split <;> simp
@[simp] theorem endSession_anv_images (i : Fin 1024) (c : Nat) (s : State) : (State.endSession i c s).anv.images = s.anv.images := by unfold State.endSession; dsimp only; split <;> simp
@[simp] theorem endSession_anv_saveDue (i : Fin 1024) (c : Nat) (s : State) : (State.endSession i c s).anv.saveDue = s.anv.saveDue := by unfold State.endSession; dsimp only; split <;> simp
@[simp] theorem endSession_anv_log (i : Fin 1024) (c : Nat) (s : State) : (State.endSession i c s).anv.log = s.anv.log := by unfold State.endSession; dsimp only; split <;> simp
@[simp] theorem endSession_anv_logNext (i : Fin 1024) (c : Nat) (s : State) : (State.endSession i c s).anv.logNext = s.anv.logNext := by unfold State.endSession; dsimp only; split <;> simp
@[simp] theorem endSession_anv_logLink (i : Fin 1024) (c : Nat) (s : State) : (State.endSession i c s).anv.logLink = s.anv.logLink := by unfold State.endSession; dsimp only; split <;> simp
@[simp] theorem endSession_cld (i : Fin 1024) (c : Nat) (s : State) : (State.endSession i c s).cld = s.cld := by unfold State.endSession; dsimp only; split <;> simp
@[simp] theorem endSession_grd (i : Fin 1024) (c : Nat) (s : State) : (State.endSession i c s).grd = s.grd := by unfold State.endSession; dsimp only; split <;> simp
@[simp] theorem endSession_pnl (i : Fin 1024) (c : Nat) (s : State) : (State.endSession i c s).pnl = s.pnl := by unfold State.endSession; dsimp only; split <;> simp
@[simp] theorem endSession_trim (i : Fin 1024) (c : Nat) (s : State) : (State.endSession i c s).trim = s.trim := by unfold State.endSession; dsimp only; split <;> simp

/-! ### `State.endSessions` -/

@[simp] theorem endSessions_pending (c : Nat) (s : State) : (State.endSessions c s).pending = s.pending := by
  unfold State.endSessions; exact chain_keeps (fun s => s.pending) _ _ (by simp) s
@[simp] theorem endSessions_draws (c : Nat) (s : State) : (State.endSessions c s).draws = s.draws := by
  unfold State.endSessions; exact chain_keeps (fun s => s.draws) _ _ (by simp) s
@[simp] theorem endSessions_now (c : Nat) (s : State) : (State.endSessions c s).now = s.now := by
  unfold State.endSessions; exact chain_keeps (fun s => s.now) _ _ (by simp) s
@[simp] theorem endSessions_dev_variant (c : Nat) (s : State) : (State.endSessions c s).dev.variant = s.dev.variant := by
  unfold State.endSessions; exact chain_keeps (fun s => s.dev.variant) _ _ (by simp) s
@[simp] theorem endSessions_dev_startup (c : Nat) (s : State) : (State.endSessions c s).dev.startup = s.dev.startup := by
  unfold State.endSessions; exact chain_keeps (fun s => s.dev.startup) _ _ (by simp) s
@[simp] theorem endSessions_dev_bankAt (c : Nat) (s : State) : (State.endSessions c s).dev.bankAt = s.dev.bankAt := by
  unfold State.endSessions; exact chain_keeps (fun s => s.dev.bankAt) _ _ (by simp) s
@[simp] theorem endSessions_dev_bankedFrom (c : Nat) (s : State) : (State.endSessions c s).dev.bankedFrom = s.dev.bankedFrom := by
  unfold State.endSessions; exact chain_keeps (fun s => s.dev.bankedFrom) _ _ (by simp) s
@[simp] theorem endSessions_dev_softReset (c : Nat) (s : State) : (State.endSessions c s).dev.softReset = s.dev.softReset := by
  unfold State.endSessions; exact chain_keeps (fun s => s.dev.softReset) _ _ (by simp) s
@[simp] theorem endSessions_cfg (c : Nat) (s : State) : (State.endSessions c s).cfg = s.cfg := by
  unfold State.endSessions; exact chain_keeps (fun s => s.cfg) _ _ (by simp) s
@[simp] theorem endSessions_eff (c : Nat) (s : State) : (State.endSessions c s).eff = s.eff := by
  unfold State.endSessions; exact chain_keeps (fun s => s.eff) _ _ (by simp) s
@[simp] theorem endSessions_slots (c : Nat) (s : State) : (State.endSessions c s).slots = s.slots := by
  unfold State.endSessions; exact chain_keeps (fun s => s.slots) _ _ (by simp) s
@[simp] theorem endSessions_chans (c : Nat) (s : State) : (State.endSessions c s).chans = s.chans := by
  unfold State.endSessions; exact chain_keeps (fun s => s.chans) _ _ (by simp) s
@[simp] theorem endSessions_spares (c : Nat) (s : State) : (State.endSessions c s).spares = s.spares := by
  unfold State.endSessions; exact chain_keeps (fun s => s.spares) _ _ (by simp) s
@[simp] theorem endSessions_pts (c : Nat) (s : State) : (State.endSessions c s).pts = s.pts := by
  unfold State.endSessions; exact chain_keeps (fun s => s.pts) _ _ (by simp) s
@[simp] theorem endSessions_buses (c : Nat) (s : State) : (State.endSessions c s).buses = s.buses := by
  unfold State.endSessions; exact chain_keeps (fun s => s.buses) _ _ (by simp) s
@[simp] theorem endSessions_tb (c : Nat) (s : State) : (State.endSessions c s).tb = s.tb := by
  unfold State.endSessions; exact chain_keeps (fun s => s.tb) _ _ (by simp) s
@[simp] theorem endSessions_engine (c : Nat) (s : State) : (State.endSessions c s).engine = s.engine := by
  unfold State.endSessions; exact chain_keeps (fun s => s.engine) _ _ (by simp) s
@[simp] theorem endSessions_mcal (c : Nat) (s : State) : (State.endSessions c s).mcal = s.mcal := by
  unfold State.endSessions; exact chain_keeps (fun s => s.mcal) _ _ (by simp) s
@[simp] theorem endSessions_prof (c : Nat) (s : State) : (State.endSessions c s).prof = s.prof := by
  unfold State.endSessions; exact chain_keeps (fun s => s.prof) _ _ (by simp) s
@[simp] theorem endSessions_pq (c : Nat) (s : State) : (State.endSessions c s).pq = s.pq := by
  unfold State.endSessions; exact chain_keeps (fun s => s.pq) _ _ (by simp) s
@[simp] theorem endSessions_wb (c : Nat) (s : State) : (State.endSessions c s).wb = s.wb := by
  unfold State.endSessions; exact chain_keeps (fun s => s.wb) _ _ (by simp) s
@[simp] theorem endSessions_pulses (c : Nat) (s : State) : (State.endSessions c s).pulses = s.pulses := by
  unfold State.endSessions; exact chain_keeps (fun s => s.pulses) _ _ (by simp) s
@[simp] theorem endSessions_pwr (c : Nat) (s : State) : (State.endSessions c s).pwr = s.pwr := by
  unfold State.endSessions; exact chain_keeps (fun s => s.pwr) _ _ (by simp) s
@[simp] theorem endSessions_flt (c : Nat) (s : State) : (State.endSessions c s).flt = s.flt := by
  unfold State.endSessions; exact chain_keeps (fun s => s.flt) _ _ (by simp) s
@[simp] theorem endSessions_anv_up (c : Nat) (s : State) : (State.endSessions c s).anv.up = s.anv.up := by
  unfold State.endSessions; exact chain_keeps (fun s => s.anv.up) _ _ (by simp) s
@[simp] theorem endSessions_anv_slot (c : Nat) (s : State) : (State.endSessions c s).anv.slot = s.anv.slot := by
  unfold State.endSessions; exact chain_keeps (fun s => s.anv.slot) _ _ (by simp) s
@[simp] theorem endSessions_anv_active (c : Nat) (s : State) : (State.endSessions c s).anv.active = s.anv.active := by
  unfold State.endSessions; exact chain_keeps (fun s => s.anv.active) _ _ (by simp) s
@[simp] theorem endSessions_anv_fallback (c : Nat) (s : State) : (State.endSessions c s).anv.fallback = s.anv.fallback := by
  unfold State.endSessions; exact chain_keeps (fun s => s.anv.fallback) _ _ (by simp) s
@[simp] theorem endSessions_anv_fw (c : Nat) (s : State) : (State.endSessions c s).anv.fw = s.anv.fw := by
  unfold State.endSessions; exact chain_keeps (fun s => s.anv.fw) _ _ (by simp) s
@[simp] theorem endSessions_anv_epoch (c : Nat) (s : State) : (State.endSessions c s).anv.epoch = s.anv.epoch := by
  unfold State.endSessions; exact chain_keeps (fun s => s.anv.epoch) _ _ (by simp) s
@[simp] theorem endSessions_anv_version (c : Nat) (s : State) : (State.endSessions c s).anv.version = s.anv.version := by
  unfold State.endSessions; exact chain_keeps (fun s => s.anv.version) _ _ (by simp) s
@[simp] theorem endSessions_anv_slots (c : Nat) (s : State) : (State.endSessions c s).anv.slots = s.anv.slots := by
  unfold State.endSessions; exact chain_keeps (fun s => s.anv.slots) _ _ (by simp) s
@[simp] theorem endSessions_anv_trialLeft (c : Nat) (s : State) : (State.endSessions c s).anv.trialLeft = s.anv.trialLeft := by
  unfold State.endSessions; exact chain_keeps (fun s => s.anv.trialLeft) _ _ (by simp) s
@[simp] theorem endSessions_anv_trialOver (c : Nat) (s : State) : (State.endSessions c s).anv.trialOver = s.anv.trialOver := by
  unfold State.endSessions; exact chain_keeps (fun s => s.anv.trialOver) _ _ (by simp) s
@[simp] theorem endSessions_anv_checkDue (c : Nat) (s : State) : (State.endSessions c s).anv.checkDue = s.anv.checkDue := by
  unfold State.endSessions; exact chain_keeps (fun s => s.anv.checkDue) _ _ (by simp) s
@[simp] theorem endSessions_anv_fillDue (c : Nat) (s : State) : (State.endSessions c s).anv.fillDue = s.anv.fillDue := by
  unfold State.endSessions; exact chain_keeps (fun s => s.anv.fillDue) _ _ (by simp) s
@[simp] theorem endSessions_anv_auxRes (c : Nat) (s : State) : (State.endSessions c s).anv.auxRes = s.anv.auxRes := by
  unfold State.endSessions; exact chain_keeps (fun s => s.anv.auxRes) _ _ (by simp) s
@[simp] theorem endSessions_anv_auxDue (c : Nat) (s : State) : (State.endSessions c s).anv.auxDue = s.anv.auxDue := by
  unfold State.endSessions; exact chain_keeps (fun s => s.anv.auxDue) _ _ (by simp) s
@[simp] theorem endSessions_anv_hall (c : Nat) (s : State) : (State.endSessions c s).anv.hall = s.anv.hall := by
  unfold State.endSessions; exact chain_keeps (fun s => s.anv.hall) _ _ (by simp) s
@[simp] theorem endSessions_anv_hallLast (c : Nat) (s : State) : (State.endSessions c s).anv.hallLast = s.anv.hallLast := by
  unfold State.endSessions; exact chain_keeps (fun s => s.anv.hallLast) _ _ (by simp) s
@[simp] theorem endSessions_anv_magScans (c : Nat) (s : State) : (State.endSessions c s).anv.magScans = s.anv.magScans := by
  unfold State.endSessions; exact chain_keeps (fun s => s.anv.magScans) _ _ (by simp) s
@[simp] theorem endSessions_anv_refActive (c : Nat) (s : State) : (State.endSessions c s).anv.refActive = s.anv.refActive := by
  unfold State.endSessions; exact chain_keeps (fun s => s.anv.refActive) _ _ (by simp) s
@[simp] theorem endSessions_anv_refClear (c : Nat) (s : State) : (State.endSessions c s).anv.refClear = s.anv.refClear := by
  unfold State.endSessions; exact chain_keeps (fun s => s.anv.refClear) _ _ (by simp) s
@[simp] theorem endSessions_anv_tempActive (c : Nat) (s : State) : (State.endSessions c s).anv.tempActive = s.anv.tempActive := by
  unfold State.endSessions; exact chain_keeps (fun s => s.anv.tempActive) _ _ (by simp) s
@[simp] theorem endSessions_anv_images (c : Nat) (s : State) : (State.endSessions c s).anv.images = s.anv.images := by
  unfold State.endSessions; exact chain_keeps (fun s => s.anv.images) _ _ (by simp) s
@[simp] theorem endSessions_anv_saveDue (c : Nat) (s : State) : (State.endSessions c s).anv.saveDue = s.anv.saveDue := by
  unfold State.endSessions; exact chain_keeps (fun s => s.anv.saveDue) _ _ (by simp) s
@[simp] theorem endSessions_anv_log (c : Nat) (s : State) : (State.endSessions c s).anv.log = s.anv.log := by
  unfold State.endSessions; exact chain_keeps (fun s => s.anv.log) _ _ (by simp) s
@[simp] theorem endSessions_anv_logNext (c : Nat) (s : State) : (State.endSessions c s).anv.logNext = s.anv.logNext := by
  unfold State.endSessions; exact chain_keeps (fun s => s.anv.logNext) _ _ (by simp) s
@[simp] theorem endSessions_anv_logLink (c : Nat) (s : State) : (State.endSessions c s).anv.logLink = s.anv.logLink := by
  unfold State.endSessions; exact chain_keeps (fun s => s.anv.logLink) _ _ (by simp) s
@[simp] theorem endSessions_cld (c : Nat) (s : State) : (State.endSessions c s).cld = s.cld := by
  unfold State.endSessions; exact chain_keeps (fun s => s.cld) _ _ (by simp) s
@[simp] theorem endSessions_grd (c : Nat) (s : State) : (State.endSessions c s).grd = s.grd := by
  unfold State.endSessions; exact chain_keeps (fun s => s.grd) _ _ (by simp) s
@[simp] theorem endSessions_pnl (c : Nat) (s : State) : (State.endSessions c s).pnl = s.pnl := by
  unfold State.endSessions; exact chain_keeps (fun s => s.pnl) _ _ (by simp) s
@[simp] theorem endSessions_trim (c : Nat) (s : State) : (State.endSessions c s).trim = s.trim := by
  unfold State.endSessions; exact chain_keeps (fun s => s.trim) _ _ (by simp) s

/-! ### `State.coresDown` -/

@[simp] theorem coresDown_pending (s : State) : (State.coresDown s).pending = s.pending := by simp [State.coresDown]
@[simp] theorem coresDown_draws (s : State) : (State.coresDown s).draws = s.draws := by simp [State.coresDown]
@[simp] theorem coresDown_now (s : State) : (State.coresDown s).now = s.now := by simp [State.coresDown]
@[simp] theorem coresDown_dev_variant (s : State) : (State.coresDown s).dev.variant = s.dev.variant := by simp [State.coresDown]
@[simp] theorem coresDown_dev_startup (s : State) : (State.coresDown s).dev.startup = s.dev.startup := by simp [State.coresDown]
@[simp] theorem coresDown_dev_bankAt (s : State) : (State.coresDown s).dev.bankAt = s.dev.bankAt := by simp [State.coresDown]
@[simp] theorem coresDown_dev_bankedFrom (s : State) : (State.coresDown s).dev.bankedFrom = s.dev.bankedFrom := by simp [State.coresDown]
@[simp] theorem coresDown_dev_softReset (s : State) : (State.coresDown s).dev.softReset = s.dev.softReset := by simp [State.coresDown]
@[simp] theorem coresDown_cfg (s : State) : (State.coresDown s).cfg = s.cfg := by simp [State.coresDown]
@[simp] theorem coresDown_eff (s : State) : (State.coresDown s).eff = s.eff := by simp [State.coresDown]
@[simp] theorem coresDown_slots (s : State) : (State.coresDown s).slots = s.slots := by simp [State.coresDown]
@[simp] theorem coresDown_chans (s : State) : (State.coresDown s).chans = s.chans := by simp [State.coresDown]
@[simp] theorem coresDown_spares (s : State) : (State.coresDown s).spares = s.spares := by simp [State.coresDown]
@[simp] theorem coresDown_pts (s : State) : (State.coresDown s).pts = s.pts := by simp [State.coresDown]
@[simp] theorem coresDown_buses (s : State) : (State.coresDown s).buses = s.buses := by simp [State.coresDown]
@[simp] theorem coresDown_tb (s : State) : (State.coresDown s).tb = s.tb := by simp [State.coresDown]
@[simp] theorem coresDown_engine (s : State) : (State.coresDown s).engine = s.engine := by simp [State.coresDown]
@[simp] theorem coresDown_mcal (s : State) : (State.coresDown s).mcal = s.mcal := by simp [State.coresDown]
@[simp] theorem coresDown_prof (s : State) : (State.coresDown s).prof = s.prof := by simp [State.coresDown]
@[simp] theorem coresDown_pq (s : State) : (State.coresDown s).pq = s.pq := by simp [State.coresDown]
@[simp] theorem coresDown_wb (s : State) : (State.coresDown s).wb = s.wb := by simp [State.coresDown]
@[simp] theorem coresDown_pulses (s : State) : (State.coresDown s).pulses = s.pulses := by simp [State.coresDown]
@[simp] theorem coresDown_fol (s : State) : (State.coresDown s).fol = s.fol := by simp [State.coresDown]
@[simp] theorem coresDown_scr (s : State) : (State.coresDown s).scr = s.scr := by simp [State.coresDown]
@[simp] theorem coresDown_ev (s : State) : (State.coresDown s).ev = s.ev := by simp [State.coresDown]
@[simp] theorem coresDown_pwr (s : State) : (State.coresDown s).pwr = s.pwr := by simp [State.coresDown]
@[simp] theorem coresDown_flt (s : State) : (State.coresDown s).flt = s.flt := by simp [State.coresDown]
@[simp] theorem coresDown_anv_slot (s : State) : (State.coresDown s).anv.slot = s.anv.slot := by simp [State.coresDown]
@[simp] theorem coresDown_anv_active (s : State) : (State.coresDown s).anv.active = s.anv.active := by simp [State.coresDown]
@[simp] theorem coresDown_anv_fallback (s : State) : (State.coresDown s).anv.fallback = s.anv.fallback := by simp [State.coresDown]
@[simp] theorem coresDown_anv_fw (s : State) : (State.coresDown s).anv.fw = s.anv.fw := by simp [State.coresDown]
@[simp] theorem coresDown_anv_epoch (s : State) : (State.coresDown s).anv.epoch = s.anv.epoch := by simp [State.coresDown]
@[simp] theorem coresDown_anv_version (s : State) : (State.coresDown s).anv.version = s.anv.version := by simp [State.coresDown]
@[simp] theorem coresDown_anv_slots (s : State) : (State.coresDown s).anv.slots = s.anv.slots := by simp [State.coresDown]
@[simp] theorem coresDown_anv_trialLeft (s : State) : (State.coresDown s).anv.trialLeft = s.anv.trialLeft := by simp [State.coresDown]
@[simp] theorem coresDown_anv_trialOver (s : State) : (State.coresDown s).anv.trialOver = s.anv.trialOver := by simp [State.coresDown]
@[simp] theorem coresDown_anv_checkDue (s : State) : (State.coresDown s).anv.checkDue = s.anv.checkDue := by simp [State.coresDown]
@[simp] theorem coresDown_anv_fillDue (s : State) : (State.coresDown s).anv.fillDue = s.anv.fillDue := by simp [State.coresDown]
@[simp] theorem coresDown_anv_blots (s : State) : (State.coresDown s).anv.blots = s.anv.blots := by simp [State.coresDown]
@[simp] theorem coresDown_anv_auxRes (s : State) : (State.coresDown s).anv.auxRes = s.anv.auxRes := by simp [State.coresDown]
@[simp] theorem coresDown_anv_auxDue (s : State) : (State.coresDown s).anv.auxDue = s.anv.auxDue := by simp [State.coresDown]
@[simp] theorem coresDown_anv_hall (s : State) : (State.coresDown s).anv.hall = s.anv.hall := by simp [State.coresDown]
@[simp] theorem coresDown_anv_hallLast (s : State) : (State.coresDown s).anv.hallLast = s.anv.hallLast := by simp [State.coresDown]
@[simp] theorem coresDown_anv_magScans (s : State) : (State.coresDown s).anv.magScans = s.anv.magScans := by simp [State.coresDown]
@[simp] theorem coresDown_anv_refActive (s : State) : (State.coresDown s).anv.refActive = s.anv.refActive := by simp [State.coresDown]
@[simp] theorem coresDown_anv_refClear (s : State) : (State.coresDown s).anv.refClear = s.anv.refClear := by simp [State.coresDown]
@[simp] theorem coresDown_anv_tempActive (s : State) : (State.coresDown s).anv.tempActive = s.anv.tempActive := by simp [State.coresDown]
@[simp] theorem coresDown_anv_images (s : State) : (State.coresDown s).anv.images = s.anv.images := by simp [State.coresDown]
@[simp] theorem coresDown_anv_saveDue (s : State) : (State.coresDown s).anv.saveDue = s.anv.saveDue := by simp [State.coresDown]
@[simp] theorem coresDown_anv_log (s : State) : (State.coresDown s).anv.log = s.anv.log := by simp [State.coresDown]
@[simp] theorem coresDown_anv_logNext (s : State) : (State.coresDown s).anv.logNext = s.anv.logNext := by simp [State.coresDown]
@[simp] theorem coresDown_anv_logLink (s : State) : (State.coresDown s).anv.logLink = s.anv.logLink := by simp [State.coresDown]
@[simp] theorem coresDown_cld (s : State) : (State.coresDown s).cld = s.cld := by simp [State.coresDown]
@[simp] theorem coresDown_grd (s : State) : (State.coresDown s).grd = s.grd := by simp [State.coresDown]
@[simp] theorem coresDown_pnl (s : State) : (State.coresDown s).pnl = s.pnl := by simp [State.coresDown]
@[simp] theorem coresDown_trim (s : State) : (State.coresDown s).trim = s.trim := by simp [State.coresDown]

/-! ### `State.popEntry` -/

@[simp] theorem popEntry_pending (op : Nat) (r : Req) (s : State) : (State.popEntry op r s).pending = s.pending := (rfl)
@[simp] theorem popEntry_draws (op : Nat) (r : Req) (s : State) : (State.popEntry op r s).draws = s.draws := (rfl)
@[simp] theorem popEntry_now (op : Nat) (r : Req) (s : State) : (State.popEntry op r s).now = s.now := (rfl)
@[simp] theorem popEntry_dev (op : Nat) (r : Req) (s : State) : (State.popEntry op r s).dev = s.dev := (rfl)
@[simp] theorem popEntry_cfg (op : Nat) (r : Req) (s : State) : (State.popEntry op r s).cfg = s.cfg := (rfl)
@[simp] theorem popEntry_eff (op : Nat) (r : Req) (s : State) : (State.popEntry op r s).eff = s.eff := (rfl)
@[simp] theorem popEntry_slots (op : Nat) (r : Req) (s : State) : (State.popEntry op r s).slots = s.slots := (rfl)
@[simp] theorem popEntry_chans (op : Nat) (r : Req) (s : State) : (State.popEntry op r s).chans = s.chans := (rfl)
@[simp] theorem popEntry_spares (op : Nat) (r : Req) (s : State) : (State.popEntry op r s).spares = s.spares := (rfl)
@[simp] theorem popEntry_pts (op : Nat) (r : Req) (s : State) : (State.popEntry op r s).pts = s.pts := (rfl)
@[simp] theorem popEntry_buses (op : Nat) (r : Req) (s : State) : (State.popEntry op r s).buses = s.buses := (rfl)
@[simp] theorem popEntry_tb (op : Nat) (r : Req) (s : State) : (State.popEntry op r s).tb = s.tb := (rfl)
@[simp] theorem popEntry_engine (op : Nat) (r : Req) (s : State) : (State.popEntry op r s).engine = s.engine := (rfl)
@[simp] theorem popEntry_mcal (op : Nat) (r : Req) (s : State) : (State.popEntry op r s).mcal = s.mcal := (rfl)
@[simp] theorem popEntry_prof (op : Nat) (r : Req) (s : State) : (State.popEntry op r s).prof = s.prof := (rfl)
@[simp] theorem popEntry_pq (op : Nat) (r : Req) (s : State) : (State.popEntry op r s).pq = s.pq := (rfl)
@[simp] theorem popEntry_wb (op : Nat) (r : Req) (s : State) : (State.popEntry op r s).wb = s.wb := (rfl)
@[simp] theorem popEntry_pulses (op : Nat) (r : Req) (s : State) : (State.popEntry op r s).pulses = s.pulses := (rfl)
@[simp] theorem popEntry_fol (op : Nat) (r : Req) (s : State) : (State.popEntry op r s).fol = s.fol := (rfl)
@[simp] theorem popEntry_scr_ports (op : Nat) (r : Req) (s : State) : (State.popEntry op r s).scr.ports = s.scr.ports := (rfl)
@[simp] theorem popEntry_scr_sessions (op : Nat) (r : Req) (s : State) : (State.popEntry op r s).scr.sessions = s.scr.sessions := (rfl)
@[simp] theorem popEntry_scr_tags (op : Nat) (r : Req) (s : State) : (State.popEntry op r s).scr.tags = s.scr.tags := (rfl)
@[simp] theorem popEntry_scr_admitted (op : Nat) (r : Req) (s : State) : (State.popEntry op r s).scr.admitted = s.scr.admitted := (rfl)
@[simp] theorem popEntry_scr_legalEver (op : Nat) (r : Req) (s : State) : (State.popEntry op r s).scr.legalEver = s.scr.legalEver := (rfl)
@[simp] theorem popEntry_scr_challenge (op : Nat) (r : Req) (s : State) : (State.popEntry op r s).scr.challenge = s.scr.challenge := (rfl)
@[simp] theorem popEntry_scr_baudDue (op : Nat) (r : Req) (s : State) : (State.popEntry op r s).scr.baudDue = s.scr.baudDue := (rfl)
@[simp] theorem popEntry_scr_inkLock (op : Nat) (r : Req) (s : State) : (State.popEntry op r s).scr.inkLock = s.scr.inkLock := (rfl)
@[simp] theorem popEntry_ev (op : Nat) (r : Req) (s : State) : (State.popEntry op r s).ev = s.ev := (rfl)
@[simp] theorem popEntry_intc (op : Nat) (r : Req) (s : State) : (State.popEntry op r s).intc = s.intc := (rfl)
@[simp] theorem popEntry_pwr (op : Nat) (r : Req) (s : State) : (State.popEntry op r s).pwr = s.pwr := (rfl)
@[simp] theorem popEntry_flt (op : Nat) (r : Req) (s : State) : (State.popEntry op r s).flt = s.flt := (rfl)
@[simp] theorem popEntry_anv (op : Nat) (r : Req) (s : State) : (State.popEntry op r s).anv = s.anv := (rfl)
@[simp] theorem popEntry_cld (op : Nat) (r : Req) (s : State) : (State.popEntry op r s).cld = s.cld := (rfl)
@[simp] theorem popEntry_grd (op : Nat) (r : Req) (s : State) : (State.popEntry op r s).grd = s.grd := (rfl)
@[simp] theorem popEntry_pnl (op : Nat) (r : Req) (s : State) : (State.popEntry op r s).pnl = s.pnl := (rfl)
@[simp] theorem popEntry_trim (op : Nat) (r : Req) (s : State) : (State.popEntry op r s).trim = s.trim := (rfl)

/-! ### `State.complete` -/

@[simp] theorem complete_pending (op : Nat) (r : Req) (st : Status) (d : List Byte) (s : State) : (State.complete op r st d s).pending = s.pending := by
  unfold State.complete; dsimp only; (repeat' split) <;> simp
@[simp] theorem complete_draws (op : Nat) (r : Req) (st : Status) (d : List Byte) (s : State) : (State.complete op r st d s).draws = s.draws := by
  unfold State.complete; dsimp only; (repeat' split) <;> simp
@[simp] theorem complete_now (op : Nat) (r : Req) (st : Status) (d : List Byte) (s : State) : (State.complete op r st d s).now = s.now := by
  unfold State.complete; dsimp only; (repeat' split) <;> simp
@[simp] theorem complete_dev_variant (op : Nat) (r : Req) (st : Status) (d : List Byte) (s : State) : (State.complete op r st d s).dev.variant = s.dev.variant := by
  unfold State.complete; dsimp only; (repeat' split) <;> simp
@[simp] theorem complete_dev_startup (op : Nat) (r : Req) (st : Status) (d : List Byte) (s : State) : (State.complete op r st d s).dev.startup = s.dev.startup := by
  unfold State.complete; dsimp only; (repeat' split) <;> simp
@[simp] theorem complete_dev_bankAt (op : Nat) (r : Req) (st : Status) (d : List Byte) (s : State) : (State.complete op r st d s).dev.bankAt = s.dev.bankAt := by
  unfold State.complete; dsimp only; (repeat' split) <;> simp
@[simp] theorem complete_dev_bankedFrom (op : Nat) (r : Req) (st : Status) (d : List Byte) (s : State) : (State.complete op r st d s).dev.bankedFrom = s.dev.bankedFrom := by
  unfold State.complete; dsimp only; (repeat' split) <;> simp
@[simp] theorem complete_dev_softReset (op : Nat) (r : Req) (st : Status) (d : List Byte) (s : State) : (State.complete op r st d s).dev.softReset = s.dev.softReset := by
  unfold State.complete; dsimp only; (repeat' split) <;> simp
@[simp] theorem complete_cfg (op : Nat) (r : Req) (st : Status) (d : List Byte) (s : State) : (State.complete op r st d s).cfg = s.cfg := by
  unfold State.complete; dsimp only; (repeat' split) <;> simp
@[simp] theorem complete_eff (op : Nat) (r : Req) (st : Status) (d : List Byte) (s : State) : (State.complete op r st d s).eff = s.eff := by
  unfold State.complete; dsimp only; (repeat' split) <;> simp
@[simp] theorem complete_slots (op : Nat) (r : Req) (st : Status) (d : List Byte) (s : State) : (State.complete op r st d s).slots = s.slots := by
  unfold State.complete; dsimp only; (repeat' split) <;> simp
@[simp] theorem complete_chans (op : Nat) (r : Req) (st : Status) (d : List Byte) (s : State) : (State.complete op r st d s).chans = s.chans := by
  unfold State.complete; dsimp only; (repeat' split) <;> simp
@[simp] theorem complete_spares (op : Nat) (r : Req) (st : Status) (d : List Byte) (s : State) : (State.complete op r st d s).spares = s.spares := by
  unfold State.complete; dsimp only; (repeat' split) <;> simp
@[simp] theorem complete_pts (op : Nat) (r : Req) (st : Status) (d : List Byte) (s : State) : (State.complete op r st d s).pts = s.pts := by
  unfold State.complete; dsimp only; (repeat' split) <;> simp
@[simp] theorem complete_buses (op : Nat) (r : Req) (st : Status) (d : List Byte) (s : State) : (State.complete op r st d s).buses = s.buses := by
  unfold State.complete; dsimp only; (repeat' split) <;> simp
@[simp] theorem complete_tb (op : Nat) (r : Req) (st : Status) (d : List Byte) (s : State) : (State.complete op r st d s).tb = s.tb := by
  unfold State.complete; dsimp only; (repeat' split) <;> simp
@[simp] theorem complete_engine (op : Nat) (r : Req) (st : Status) (d : List Byte) (s : State) : (State.complete op r st d s).engine = s.engine := by
  unfold State.complete; dsimp only; (repeat' split) <;> simp
@[simp] theorem complete_mcal (op : Nat) (r : Req) (st : Status) (d : List Byte) (s : State) : (State.complete op r st d s).mcal = s.mcal := by
  unfold State.complete; dsimp only; (repeat' split) <;> simp
@[simp] theorem complete_prof (op : Nat) (r : Req) (st : Status) (d : List Byte) (s : State) : (State.complete op r st d s).prof = s.prof := by
  unfold State.complete; dsimp only; (repeat' split) <;> simp
@[simp] theorem complete_pq (op : Nat) (r : Req) (st : Status) (d : List Byte) (s : State) : (State.complete op r st d s).pq = s.pq := by
  unfold State.complete; dsimp only; (repeat' split) <;> simp
@[simp] theorem complete_wb (op : Nat) (r : Req) (st : Status) (d : List Byte) (s : State) : (State.complete op r st d s).wb = s.wb := by
  unfold State.complete; dsimp only; (repeat' split) <;> simp
@[simp] theorem complete_pulses (op : Nat) (r : Req) (st : Status) (d : List Byte) (s : State) : (State.complete op r st d s).pulses = s.pulses := by
  unfold State.complete; dsimp only; (repeat' split) <;> simp
@[simp] theorem complete_pwr (op : Nat) (r : Req) (st : Status) (d : List Byte) (s : State) : (State.complete op r st d s).pwr = s.pwr := by
  unfold State.complete; dsimp only; (repeat' split) <;> simp
@[simp] theorem complete_flt (op : Nat) (r : Req) (st : Status) (d : List Byte) (s : State) : (State.complete op r st d s).flt = s.flt := by
  unfold State.complete; dsimp only; (repeat' split) <;> simp
@[simp] theorem complete_anv_up (op : Nat) (r : Req) (st : Status) (d : List Byte) (s : State) : (State.complete op r st d s).anv.up = s.anv.up := by
  unfold State.complete; dsimp only; (repeat' split) <;> simp
@[simp] theorem complete_anv_slot (op : Nat) (r : Req) (st : Status) (d : List Byte) (s : State) : (State.complete op r st d s).anv.slot = s.anv.slot := by
  unfold State.complete; dsimp only; (repeat' split) <;> simp
@[simp] theorem complete_anv_active (op : Nat) (r : Req) (st : Status) (d : List Byte) (s : State) : (State.complete op r st d s).anv.active = s.anv.active := by
  unfold State.complete; dsimp only; (repeat' split) <;> simp
@[simp] theorem complete_anv_fallback (op : Nat) (r : Req) (st : Status) (d : List Byte) (s : State) : (State.complete op r st d s).anv.fallback = s.anv.fallback := by
  unfold State.complete; dsimp only; (repeat' split) <;> simp
@[simp] theorem complete_anv_fw (op : Nat) (r : Req) (st : Status) (d : List Byte) (s : State) : (State.complete op r st d s).anv.fw = s.anv.fw := by
  unfold State.complete; dsimp only; (repeat' split) <;> simp
@[simp] theorem complete_anv_epoch (op : Nat) (r : Req) (st : Status) (d : List Byte) (s : State) : (State.complete op r st d s).anv.epoch = s.anv.epoch := by
  unfold State.complete; dsimp only; (repeat' split) <;> simp
@[simp] theorem complete_anv_version (op : Nat) (r : Req) (st : Status) (d : List Byte) (s : State) : (State.complete op r st d s).anv.version = s.anv.version := by
  unfold State.complete; dsimp only; (repeat' split) <;> simp
@[simp] theorem complete_anv_slots (op : Nat) (r : Req) (st : Status) (d : List Byte) (s : State) : (State.complete op r st d s).anv.slots = s.anv.slots := by
  unfold State.complete; dsimp only; (repeat' split) <;> simp
@[simp] theorem complete_anv_trialLeft (op : Nat) (r : Req) (st : Status) (d : List Byte) (s : State) : (State.complete op r st d s).anv.trialLeft = s.anv.trialLeft := by
  unfold State.complete; dsimp only; (repeat' split) <;> simp
@[simp] theorem complete_anv_trialOver (op : Nat) (r : Req) (st : Status) (d : List Byte) (s : State) : (State.complete op r st d s).anv.trialOver = s.anv.trialOver := by
  unfold State.complete; dsimp only; (repeat' split) <;> simp
@[simp] theorem complete_anv_checkDue (op : Nat) (r : Req) (st : Status) (d : List Byte) (s : State) : (State.complete op r st d s).anv.checkDue = s.anv.checkDue := by
  unfold State.complete; dsimp only; (repeat' split) <;> simp
@[simp] theorem complete_anv_fillDue (op : Nat) (r : Req) (st : Status) (d : List Byte) (s : State) : (State.complete op r st d s).anv.fillDue = s.anv.fillDue := by
  unfold State.complete; dsimp only; (repeat' split) <;> simp
@[simp] theorem complete_anv_auxRes (op : Nat) (r : Req) (st : Status) (d : List Byte) (s : State) : (State.complete op r st d s).anv.auxRes = s.anv.auxRes := by
  unfold State.complete; dsimp only; (repeat' split) <;> simp
@[simp] theorem complete_anv_auxDue (op : Nat) (r : Req) (st : Status) (d : List Byte) (s : State) : (State.complete op r st d s).anv.auxDue = s.anv.auxDue := by
  unfold State.complete; dsimp only; (repeat' split) <;> simp
@[simp] theorem complete_anv_hall (op : Nat) (r : Req) (st : Status) (d : List Byte) (s : State) : (State.complete op r st d s).anv.hall = s.anv.hall := by
  unfold State.complete; dsimp only; (repeat' split) <;> simp
@[simp] theorem complete_anv_hallLast (op : Nat) (r : Req) (st : Status) (d : List Byte) (s : State) : (State.complete op r st d s).anv.hallLast = s.anv.hallLast := by
  unfold State.complete; dsimp only; (repeat' split) <;> simp
@[simp] theorem complete_anv_magScans (op : Nat) (r : Req) (st : Status) (d : List Byte) (s : State) : (State.complete op r st d s).anv.magScans = s.anv.magScans := by
  unfold State.complete; dsimp only; (repeat' split) <;> simp
@[simp] theorem complete_anv_refActive (op : Nat) (r : Req) (st : Status) (d : List Byte) (s : State) : (State.complete op r st d s).anv.refActive = s.anv.refActive := by
  unfold State.complete; dsimp only; (repeat' split) <;> simp
@[simp] theorem complete_anv_refClear (op : Nat) (r : Req) (st : Status) (d : List Byte) (s : State) : (State.complete op r st d s).anv.refClear = s.anv.refClear := by
  unfold State.complete; dsimp only; (repeat' split) <;> simp
@[simp] theorem complete_anv_tempActive (op : Nat) (r : Req) (st : Status) (d : List Byte) (s : State) : (State.complete op r st d s).anv.tempActive = s.anv.tempActive := by
  unfold State.complete; dsimp only; (repeat' split) <;> simp
@[simp] theorem complete_anv_images (op : Nat) (r : Req) (st : Status) (d : List Byte) (s : State) : (State.complete op r st d s).anv.images = s.anv.images := by
  unfold State.complete; dsimp only; (repeat' split) <;> simp
@[simp] theorem complete_anv_saveDue (op : Nat) (r : Req) (st : Status) (d : List Byte) (s : State) : (State.complete op r st d s).anv.saveDue = s.anv.saveDue := by
  unfold State.complete; dsimp only; (repeat' split) <;> simp
@[simp] theorem complete_anv_log (op : Nat) (r : Req) (st : Status) (d : List Byte) (s : State) : (State.complete op r st d s).anv.log = s.anv.log := by
  unfold State.complete; dsimp only; (repeat' split) <;> simp
@[simp] theorem complete_anv_logNext (op : Nat) (r : Req) (st : Status) (d : List Byte) (s : State) : (State.complete op r st d s).anv.logNext = s.anv.logNext := by
  unfold State.complete; dsimp only; (repeat' split) <;> simp
@[simp] theorem complete_anv_logLink (op : Nat) (r : Req) (st : Status) (d : List Byte) (s : State) : (State.complete op r st d s).anv.logLink = s.anv.logLink := by
  unfold State.complete; dsimp only; (repeat' split) <;> simp
@[simp] theorem complete_cld (op : Nat) (r : Req) (st : Status) (d : List Byte) (s : State) : (State.complete op r st d s).cld = s.cld := by
  unfold State.complete; dsimp only; (repeat' split) <;> simp
@[simp] theorem complete_grd (op : Nat) (r : Req) (st : Status) (d : List Byte) (s : State) : (State.complete op r st d s).grd = s.grd := by
  unfold State.complete; dsimp only; (repeat' split) <;> simp
@[simp] theorem complete_pnl (op : Nat) (r : Req) (st : Status) (d : List Byte) (s : State) : (State.complete op r st d s).pnl = s.pnl := by
  unfold State.complete; dsimp only; (repeat' split) <;> simp
@[simp] theorem complete_trim (op : Nat) (r : Req) (st : Status) (d : List Byte) (s : State) : (State.complete op r st d s).trim = s.trim := by
  unfold State.complete; dsimp only; (repeat' split) <;> simp

/-! ### `State.ok` -/

@[simp] theorem ok_pending (op : Nat) (r : Req) (d : List Byte) (s : State) : (State.ok op r d s).pending = s.pending := by simp [State.ok]
@[simp] theorem ok_draws (op : Nat) (r : Req) (d : List Byte) (s : State) : (State.ok op r d s).draws = s.draws := by simp [State.ok]
@[simp] theorem ok_now (op : Nat) (r : Req) (d : List Byte) (s : State) : (State.ok op r d s).now = s.now := by simp [State.ok]
@[simp] theorem ok_dev_variant (op : Nat) (r : Req) (d : List Byte) (s : State) : (State.ok op r d s).dev.variant = s.dev.variant := by simp [State.ok]
@[simp] theorem ok_dev_startup (op : Nat) (r : Req) (d : List Byte) (s : State) : (State.ok op r d s).dev.startup = s.dev.startup := by simp [State.ok]
@[simp] theorem ok_dev_bankAt (op : Nat) (r : Req) (d : List Byte) (s : State) : (State.ok op r d s).dev.bankAt = s.dev.bankAt := by simp [State.ok]
@[simp] theorem ok_dev_bankedFrom (op : Nat) (r : Req) (d : List Byte) (s : State) : (State.ok op r d s).dev.bankedFrom = s.dev.bankedFrom := by simp [State.ok]
@[simp] theorem ok_dev_softReset (op : Nat) (r : Req) (d : List Byte) (s : State) : (State.ok op r d s).dev.softReset = s.dev.softReset := by simp [State.ok]
@[simp] theorem ok_cfg (op : Nat) (r : Req) (d : List Byte) (s : State) : (State.ok op r d s).cfg = s.cfg := by simp [State.ok]
@[simp] theorem ok_eff (op : Nat) (r : Req) (d : List Byte) (s : State) : (State.ok op r d s).eff = s.eff := by simp [State.ok]
@[simp] theorem ok_slots (op : Nat) (r : Req) (d : List Byte) (s : State) : (State.ok op r d s).slots = s.slots := by simp [State.ok]
@[simp] theorem ok_chans (op : Nat) (r : Req) (d : List Byte) (s : State) : (State.ok op r d s).chans = s.chans := by simp [State.ok]
@[simp] theorem ok_spares (op : Nat) (r : Req) (d : List Byte) (s : State) : (State.ok op r d s).spares = s.spares := by simp [State.ok]
@[simp] theorem ok_pts (op : Nat) (r : Req) (d : List Byte) (s : State) : (State.ok op r d s).pts = s.pts := by simp [State.ok]
@[simp] theorem ok_buses (op : Nat) (r : Req) (d : List Byte) (s : State) : (State.ok op r d s).buses = s.buses := by simp [State.ok]
@[simp] theorem ok_tb (op : Nat) (r : Req) (d : List Byte) (s : State) : (State.ok op r d s).tb = s.tb := by simp [State.ok]
@[simp] theorem ok_engine (op : Nat) (r : Req) (d : List Byte) (s : State) : (State.ok op r d s).engine = s.engine := by simp [State.ok]
@[simp] theorem ok_mcal (op : Nat) (r : Req) (d : List Byte) (s : State) : (State.ok op r d s).mcal = s.mcal := by simp [State.ok]
@[simp] theorem ok_prof (op : Nat) (r : Req) (d : List Byte) (s : State) : (State.ok op r d s).prof = s.prof := by simp [State.ok]
@[simp] theorem ok_pq (op : Nat) (r : Req) (d : List Byte) (s : State) : (State.ok op r d s).pq = s.pq := by simp [State.ok]
@[simp] theorem ok_wb (op : Nat) (r : Req) (d : List Byte) (s : State) : (State.ok op r d s).wb = s.wb := by simp [State.ok]
@[simp] theorem ok_pulses (op : Nat) (r : Req) (d : List Byte) (s : State) : (State.ok op r d s).pulses = s.pulses := by simp [State.ok]
@[simp] theorem ok_pwr (op : Nat) (r : Req) (d : List Byte) (s : State) : (State.ok op r d s).pwr = s.pwr := by simp [State.ok]
@[simp] theorem ok_flt (op : Nat) (r : Req) (d : List Byte) (s : State) : (State.ok op r d s).flt = s.flt := by simp [State.ok]
@[simp] theorem ok_anv_up (op : Nat) (r : Req) (d : List Byte) (s : State) : (State.ok op r d s).anv.up = s.anv.up := by simp [State.ok]
@[simp] theorem ok_anv_slot (op : Nat) (r : Req) (d : List Byte) (s : State) : (State.ok op r d s).anv.slot = s.anv.slot := by simp [State.ok]
@[simp] theorem ok_anv_active (op : Nat) (r : Req) (d : List Byte) (s : State) : (State.ok op r d s).anv.active = s.anv.active := by simp [State.ok]
@[simp] theorem ok_anv_fallback (op : Nat) (r : Req) (d : List Byte) (s : State) : (State.ok op r d s).anv.fallback = s.anv.fallback := by simp [State.ok]
@[simp] theorem ok_anv_fw (op : Nat) (r : Req) (d : List Byte) (s : State) : (State.ok op r d s).anv.fw = s.anv.fw := by simp [State.ok]
@[simp] theorem ok_anv_epoch (op : Nat) (r : Req) (d : List Byte) (s : State) : (State.ok op r d s).anv.epoch = s.anv.epoch := by simp [State.ok]
@[simp] theorem ok_anv_version (op : Nat) (r : Req) (d : List Byte) (s : State) : (State.ok op r d s).anv.version = s.anv.version := by simp [State.ok]
@[simp] theorem ok_anv_slots (op : Nat) (r : Req) (d : List Byte) (s : State) : (State.ok op r d s).anv.slots = s.anv.slots := by simp [State.ok]
@[simp] theorem ok_anv_trialLeft (op : Nat) (r : Req) (d : List Byte) (s : State) : (State.ok op r d s).anv.trialLeft = s.anv.trialLeft := by simp [State.ok]
@[simp] theorem ok_anv_trialOver (op : Nat) (r : Req) (d : List Byte) (s : State) : (State.ok op r d s).anv.trialOver = s.anv.trialOver := by simp [State.ok]
@[simp] theorem ok_anv_checkDue (op : Nat) (r : Req) (d : List Byte) (s : State) : (State.ok op r d s).anv.checkDue = s.anv.checkDue := by simp [State.ok]
@[simp] theorem ok_anv_fillDue (op : Nat) (r : Req) (d : List Byte) (s : State) : (State.ok op r d s).anv.fillDue = s.anv.fillDue := by simp [State.ok]
@[simp] theorem ok_anv_auxRes (op : Nat) (r : Req) (d : List Byte) (s : State) : (State.ok op r d s).anv.auxRes = s.anv.auxRes := by simp [State.ok]
@[simp] theorem ok_anv_auxDue (op : Nat) (r : Req) (d : List Byte) (s : State) : (State.ok op r d s).anv.auxDue = s.anv.auxDue := by simp [State.ok]
@[simp] theorem ok_anv_hall (op : Nat) (r : Req) (d : List Byte) (s : State) : (State.ok op r d s).anv.hall = s.anv.hall := by simp [State.ok]
@[simp] theorem ok_anv_hallLast (op : Nat) (r : Req) (d : List Byte) (s : State) : (State.ok op r d s).anv.hallLast = s.anv.hallLast := by simp [State.ok]
@[simp] theorem ok_anv_magScans (op : Nat) (r : Req) (d : List Byte) (s : State) : (State.ok op r d s).anv.magScans = s.anv.magScans := by simp [State.ok]
@[simp] theorem ok_anv_refActive (op : Nat) (r : Req) (d : List Byte) (s : State) : (State.ok op r d s).anv.refActive = s.anv.refActive := by simp [State.ok]
@[simp] theorem ok_anv_refClear (op : Nat) (r : Req) (d : List Byte) (s : State) : (State.ok op r d s).anv.refClear = s.anv.refClear := by simp [State.ok]
@[simp] theorem ok_anv_tempActive (op : Nat) (r : Req) (d : List Byte) (s : State) : (State.ok op r d s).anv.tempActive = s.anv.tempActive := by simp [State.ok]
@[simp] theorem ok_anv_images (op : Nat) (r : Req) (d : List Byte) (s : State) : (State.ok op r d s).anv.images = s.anv.images := by simp [State.ok]
@[simp] theorem ok_anv_saveDue (op : Nat) (r : Req) (d : List Byte) (s : State) : (State.ok op r d s).anv.saveDue = s.anv.saveDue := by simp [State.ok]
@[simp] theorem ok_anv_log (op : Nat) (r : Req) (d : List Byte) (s : State) : (State.ok op r d s).anv.log = s.anv.log := by simp [State.ok]
@[simp] theorem ok_anv_logNext (op : Nat) (r : Req) (d : List Byte) (s : State) : (State.ok op r d s).anv.logNext = s.anv.logNext := by simp [State.ok]
@[simp] theorem ok_anv_logLink (op : Nat) (r : Req) (d : List Byte) (s : State) : (State.ok op r d s).anv.logLink = s.anv.logLink := by simp [State.ok]
@[simp] theorem ok_cld (op : Nat) (r : Req) (d : List Byte) (s : State) : (State.ok op r d s).cld = s.cld := by simp [State.ok]
@[simp] theorem ok_grd (op : Nat) (r : Req) (d : List Byte) (s : State) : (State.ok op r d s).grd = s.grd := by simp [State.ok]
@[simp] theorem ok_pnl (op : Nat) (r : Req) (d : List Byte) (s : State) : (State.ok op r d s).pnl = s.pnl := by simp [State.ok]
@[simp] theorem ok_trim (op : Nat) (r : Req) (d : List Byte) (s : State) : (State.ok op r d s).trim = s.trim := by simp [State.ok]

/-! ### `State.okTo` -/

@[simp] theorem okTo_pending (op : Nat) (r : Option Req) (d : List Byte) (s : State) : (State.okTo op r d s).pending = s.pending := by unfold State.okTo; split <;> simp
@[simp] theorem okTo_draws (op : Nat) (r : Option Req) (d : List Byte) (s : State) : (State.okTo op r d s).draws = s.draws := by unfold State.okTo; split <;> simp
@[simp] theorem okTo_now (op : Nat) (r : Option Req) (d : List Byte) (s : State) : (State.okTo op r d s).now = s.now := by unfold State.okTo; split <;> simp
@[simp] theorem okTo_dev_variant (op : Nat) (r : Option Req) (d : List Byte) (s : State) : (State.okTo op r d s).dev.variant = s.dev.variant := by unfold State.okTo; split <;> simp
@[simp] theorem okTo_dev_startup (op : Nat) (r : Option Req) (d : List Byte) (s : State) : (State.okTo op r d s).dev.startup = s.dev.startup := by unfold State.okTo; split <;> simp
@[simp] theorem okTo_dev_bankAt (op : Nat) (r : Option Req) (d : List Byte) (s : State) : (State.okTo op r d s).dev.bankAt = s.dev.bankAt := by unfold State.okTo; split <;> simp
@[simp] theorem okTo_dev_bankedFrom (op : Nat) (r : Option Req) (d : List Byte) (s : State) : (State.okTo op r d s).dev.bankedFrom = s.dev.bankedFrom := by unfold State.okTo; split <;> simp
@[simp] theorem okTo_dev_softReset (op : Nat) (r : Option Req) (d : List Byte) (s : State) : (State.okTo op r d s).dev.softReset = s.dev.softReset := by unfold State.okTo; split <;> simp
@[simp] theorem okTo_cfg (op : Nat) (r : Option Req) (d : List Byte) (s : State) : (State.okTo op r d s).cfg = s.cfg := by unfold State.okTo; split <;> simp
@[simp] theorem okTo_eff (op : Nat) (r : Option Req) (d : List Byte) (s : State) : (State.okTo op r d s).eff = s.eff := by unfold State.okTo; split <;> simp
@[simp] theorem okTo_slots (op : Nat) (r : Option Req) (d : List Byte) (s : State) : (State.okTo op r d s).slots = s.slots := by unfold State.okTo; split <;> simp
@[simp] theorem okTo_chans (op : Nat) (r : Option Req) (d : List Byte) (s : State) : (State.okTo op r d s).chans = s.chans := by unfold State.okTo; split <;> simp
@[simp] theorem okTo_spares (op : Nat) (r : Option Req) (d : List Byte) (s : State) : (State.okTo op r d s).spares = s.spares := by unfold State.okTo; split <;> simp
@[simp] theorem okTo_pts (op : Nat) (r : Option Req) (d : List Byte) (s : State) : (State.okTo op r d s).pts = s.pts := by unfold State.okTo; split <;> simp
@[simp] theorem okTo_buses (op : Nat) (r : Option Req) (d : List Byte) (s : State) : (State.okTo op r d s).buses = s.buses := by unfold State.okTo; split <;> simp
@[simp] theorem okTo_tb (op : Nat) (r : Option Req) (d : List Byte) (s : State) : (State.okTo op r d s).tb = s.tb := by unfold State.okTo; split <;> simp
@[simp] theorem okTo_engine (op : Nat) (r : Option Req) (d : List Byte) (s : State) : (State.okTo op r d s).engine = s.engine := by unfold State.okTo; split <;> simp
@[simp] theorem okTo_mcal (op : Nat) (r : Option Req) (d : List Byte) (s : State) : (State.okTo op r d s).mcal = s.mcal := by unfold State.okTo; split <;> simp
@[simp] theorem okTo_prof (op : Nat) (r : Option Req) (d : List Byte) (s : State) : (State.okTo op r d s).prof = s.prof := by unfold State.okTo; split <;> simp
@[simp] theorem okTo_pq (op : Nat) (r : Option Req) (d : List Byte) (s : State) : (State.okTo op r d s).pq = s.pq := by unfold State.okTo; split <;> simp
@[simp] theorem okTo_wb (op : Nat) (r : Option Req) (d : List Byte) (s : State) : (State.okTo op r d s).wb = s.wb := by unfold State.okTo; split <;> simp
@[simp] theorem okTo_pulses (op : Nat) (r : Option Req) (d : List Byte) (s : State) : (State.okTo op r d s).pulses = s.pulses := by unfold State.okTo; split <;> simp
@[simp] theorem okTo_pwr (op : Nat) (r : Option Req) (d : List Byte) (s : State) : (State.okTo op r d s).pwr = s.pwr := by unfold State.okTo; split <;> simp
@[simp] theorem okTo_flt (op : Nat) (r : Option Req) (d : List Byte) (s : State) : (State.okTo op r d s).flt = s.flt := by unfold State.okTo; split <;> simp
@[simp] theorem okTo_anv_up (op : Nat) (r : Option Req) (d : List Byte) (s : State) : (State.okTo op r d s).anv.up = s.anv.up := by unfold State.okTo; split <;> simp
@[simp] theorem okTo_anv_slot (op : Nat) (r : Option Req) (d : List Byte) (s : State) : (State.okTo op r d s).anv.slot = s.anv.slot := by unfold State.okTo; split <;> simp
@[simp] theorem okTo_anv_active (op : Nat) (r : Option Req) (d : List Byte) (s : State) : (State.okTo op r d s).anv.active = s.anv.active := by unfold State.okTo; split <;> simp
@[simp] theorem okTo_anv_fallback (op : Nat) (r : Option Req) (d : List Byte) (s : State) : (State.okTo op r d s).anv.fallback = s.anv.fallback := by unfold State.okTo; split <;> simp
@[simp] theorem okTo_anv_fw (op : Nat) (r : Option Req) (d : List Byte) (s : State) : (State.okTo op r d s).anv.fw = s.anv.fw := by unfold State.okTo; split <;> simp
@[simp] theorem okTo_anv_epoch (op : Nat) (r : Option Req) (d : List Byte) (s : State) : (State.okTo op r d s).anv.epoch = s.anv.epoch := by unfold State.okTo; split <;> simp
@[simp] theorem okTo_anv_version (op : Nat) (r : Option Req) (d : List Byte) (s : State) : (State.okTo op r d s).anv.version = s.anv.version := by unfold State.okTo; split <;> simp
@[simp] theorem okTo_anv_slots (op : Nat) (r : Option Req) (d : List Byte) (s : State) : (State.okTo op r d s).anv.slots = s.anv.slots := by unfold State.okTo; split <;> simp
@[simp] theorem okTo_anv_trialLeft (op : Nat) (r : Option Req) (d : List Byte) (s : State) : (State.okTo op r d s).anv.trialLeft = s.anv.trialLeft := by unfold State.okTo; split <;> simp
@[simp] theorem okTo_anv_trialOver (op : Nat) (r : Option Req) (d : List Byte) (s : State) : (State.okTo op r d s).anv.trialOver = s.anv.trialOver := by unfold State.okTo; split <;> simp
@[simp] theorem okTo_anv_checkDue (op : Nat) (r : Option Req) (d : List Byte) (s : State) : (State.okTo op r d s).anv.checkDue = s.anv.checkDue := by unfold State.okTo; split <;> simp
@[simp] theorem okTo_anv_fillDue (op : Nat) (r : Option Req) (d : List Byte) (s : State) : (State.okTo op r d s).anv.fillDue = s.anv.fillDue := by unfold State.okTo; split <;> simp
@[simp] theorem okTo_anv_auxRes (op : Nat) (r : Option Req) (d : List Byte) (s : State) : (State.okTo op r d s).anv.auxRes = s.anv.auxRes := by unfold State.okTo; split <;> simp
@[simp] theorem okTo_anv_auxDue (op : Nat) (r : Option Req) (d : List Byte) (s : State) : (State.okTo op r d s).anv.auxDue = s.anv.auxDue := by unfold State.okTo; split <;> simp
@[simp] theorem okTo_anv_hall (op : Nat) (r : Option Req) (d : List Byte) (s : State) : (State.okTo op r d s).anv.hall = s.anv.hall := by unfold State.okTo; split <;> simp
@[simp] theorem okTo_anv_hallLast (op : Nat) (r : Option Req) (d : List Byte) (s : State) : (State.okTo op r d s).anv.hallLast = s.anv.hallLast := by unfold State.okTo; split <;> simp
@[simp] theorem okTo_anv_magScans (op : Nat) (r : Option Req) (d : List Byte) (s : State) : (State.okTo op r d s).anv.magScans = s.anv.magScans := by unfold State.okTo; split <;> simp
@[simp] theorem okTo_anv_refActive (op : Nat) (r : Option Req) (d : List Byte) (s : State) : (State.okTo op r d s).anv.refActive = s.anv.refActive := by unfold State.okTo; split <;> simp
@[simp] theorem okTo_anv_refClear (op : Nat) (r : Option Req) (d : List Byte) (s : State) : (State.okTo op r d s).anv.refClear = s.anv.refClear := by unfold State.okTo; split <;> simp
@[simp] theorem okTo_anv_tempActive (op : Nat) (r : Option Req) (d : List Byte) (s : State) : (State.okTo op r d s).anv.tempActive = s.anv.tempActive := by unfold State.okTo; split <;> simp
@[simp] theorem okTo_anv_images (op : Nat) (r : Option Req) (d : List Byte) (s : State) : (State.okTo op r d s).anv.images = s.anv.images := by unfold State.okTo; split <;> simp
@[simp] theorem okTo_anv_saveDue (op : Nat) (r : Option Req) (d : List Byte) (s : State) : (State.okTo op r d s).anv.saveDue = s.anv.saveDue := by unfold State.okTo; split <;> simp
@[simp] theorem okTo_anv_log (op : Nat) (r : Option Req) (d : List Byte) (s : State) : (State.okTo op r d s).anv.log = s.anv.log := by unfold State.okTo; split <;> simp
@[simp] theorem okTo_anv_logNext (op : Nat) (r : Option Req) (d : List Byte) (s : State) : (State.okTo op r d s).anv.logNext = s.anv.logNext := by unfold State.okTo; split <;> simp
@[simp] theorem okTo_anv_logLink (op : Nat) (r : Option Req) (d : List Byte) (s : State) : (State.okTo op r d s).anv.logLink = s.anv.logLink := by unfold State.okTo; split <;> simp
@[simp] theorem okTo_cld (op : Nat) (r : Option Req) (d : List Byte) (s : State) : (State.okTo op r d s).cld = s.cld := by unfold State.okTo; split <;> simp
@[simp] theorem okTo_grd (op : Nat) (r : Option Req) (d : List Byte) (s : State) : (State.okTo op r d s).grd = s.grd := by unfold State.okTo; split <;> simp
@[simp] theorem okTo_pnl (op : Nat) (r : Option Req) (d : List Byte) (s : State) : (State.okTo op r d s).pnl = s.pnl := by unfold State.okTo; split <;> simp
@[simp] theorem okTo_trim (op : Nat) (r : Option Req) (d : List Byte) (s : State) : (State.okTo op r d s).trim = s.trim := by unfold State.okTo; split <;> simp

/-! ### `State.fail` -/

@[simp] theorem fail_pending (op : Nat) (r : Req) (st : Status) (s : State) : (State.fail op r st s).pending = s.pending := by simp [State.fail]
@[simp] theorem fail_draws (op : Nat) (r : Req) (st : Status) (s : State) : (State.fail op r st s).draws = s.draws := by simp [State.fail]
@[simp] theorem fail_now (op : Nat) (r : Req) (st : Status) (s : State) : (State.fail op r st s).now = s.now := by simp [State.fail]
@[simp] theorem fail_dev_variant (op : Nat) (r : Req) (st : Status) (s : State) : (State.fail op r st s).dev.variant = s.dev.variant := by simp [State.fail]
@[simp] theorem fail_dev_startup (op : Nat) (r : Req) (st : Status) (s : State) : (State.fail op r st s).dev.startup = s.dev.startup := by simp [State.fail]
@[simp] theorem fail_dev_bankAt (op : Nat) (r : Req) (st : Status) (s : State) : (State.fail op r st s).dev.bankAt = s.dev.bankAt := by simp [State.fail]
@[simp] theorem fail_dev_bankedFrom (op : Nat) (r : Req) (st : Status) (s : State) : (State.fail op r st s).dev.bankedFrom = s.dev.bankedFrom := by simp [State.fail]
@[simp] theorem fail_dev_softReset (op : Nat) (r : Req) (st : Status) (s : State) : (State.fail op r st s).dev.softReset = s.dev.softReset := by simp [State.fail]
@[simp] theorem fail_cfg (op : Nat) (r : Req) (st : Status) (s : State) : (State.fail op r st s).cfg = s.cfg := by simp [State.fail]
@[simp] theorem fail_eff (op : Nat) (r : Req) (st : Status) (s : State) : (State.fail op r st s).eff = s.eff := by simp [State.fail]
@[simp] theorem fail_slots (op : Nat) (r : Req) (st : Status) (s : State) : (State.fail op r st s).slots = s.slots := by simp [State.fail]
@[simp] theorem fail_chans (op : Nat) (r : Req) (st : Status) (s : State) : (State.fail op r st s).chans = s.chans := by simp [State.fail]
@[simp] theorem fail_spares (op : Nat) (r : Req) (st : Status) (s : State) : (State.fail op r st s).spares = s.spares := by simp [State.fail]
@[simp] theorem fail_pts (op : Nat) (r : Req) (st : Status) (s : State) : (State.fail op r st s).pts = s.pts := by simp [State.fail]
@[simp] theorem fail_buses (op : Nat) (r : Req) (st : Status) (s : State) : (State.fail op r st s).buses = s.buses := by simp [State.fail]
@[simp] theorem fail_tb (op : Nat) (r : Req) (st : Status) (s : State) : (State.fail op r st s).tb = s.tb := by simp [State.fail]
@[simp] theorem fail_engine (op : Nat) (r : Req) (st : Status) (s : State) : (State.fail op r st s).engine = s.engine := by simp [State.fail]
@[simp] theorem fail_mcal (op : Nat) (r : Req) (st : Status) (s : State) : (State.fail op r st s).mcal = s.mcal := by simp [State.fail]
@[simp] theorem fail_prof (op : Nat) (r : Req) (st : Status) (s : State) : (State.fail op r st s).prof = s.prof := by simp [State.fail]
@[simp] theorem fail_pq (op : Nat) (r : Req) (st : Status) (s : State) : (State.fail op r st s).pq = s.pq := by simp [State.fail]
@[simp] theorem fail_wb (op : Nat) (r : Req) (st : Status) (s : State) : (State.fail op r st s).wb = s.wb := by simp [State.fail]
@[simp] theorem fail_pulses (op : Nat) (r : Req) (st : Status) (s : State) : (State.fail op r st s).pulses = s.pulses := by simp [State.fail]
@[simp] theorem fail_pwr (op : Nat) (r : Req) (st : Status) (s : State) : (State.fail op r st s).pwr = s.pwr := by simp [State.fail]
@[simp] theorem fail_flt (op : Nat) (r : Req) (st : Status) (s : State) : (State.fail op r st s).flt = s.flt := by simp [State.fail]
@[simp] theorem fail_anv_up (op : Nat) (r : Req) (st : Status) (s : State) : (State.fail op r st s).anv.up = s.anv.up := by simp [State.fail]
@[simp] theorem fail_anv_slot (op : Nat) (r : Req) (st : Status) (s : State) : (State.fail op r st s).anv.slot = s.anv.slot := by simp [State.fail]
@[simp] theorem fail_anv_active (op : Nat) (r : Req) (st : Status) (s : State) : (State.fail op r st s).anv.active = s.anv.active := by simp [State.fail]
@[simp] theorem fail_anv_fallback (op : Nat) (r : Req) (st : Status) (s : State) : (State.fail op r st s).anv.fallback = s.anv.fallback := by simp [State.fail]
@[simp] theorem fail_anv_fw (op : Nat) (r : Req) (st : Status) (s : State) : (State.fail op r st s).anv.fw = s.anv.fw := by simp [State.fail]
@[simp] theorem fail_anv_epoch (op : Nat) (r : Req) (st : Status) (s : State) : (State.fail op r st s).anv.epoch = s.anv.epoch := by simp [State.fail]
@[simp] theorem fail_anv_version (op : Nat) (r : Req) (st : Status) (s : State) : (State.fail op r st s).anv.version = s.anv.version := by simp [State.fail]
@[simp] theorem fail_anv_slots (op : Nat) (r : Req) (st : Status) (s : State) : (State.fail op r st s).anv.slots = s.anv.slots := by simp [State.fail]
@[simp] theorem fail_anv_trialLeft (op : Nat) (r : Req) (st : Status) (s : State) : (State.fail op r st s).anv.trialLeft = s.anv.trialLeft := by simp [State.fail]
@[simp] theorem fail_anv_trialOver (op : Nat) (r : Req) (st : Status) (s : State) : (State.fail op r st s).anv.trialOver = s.anv.trialOver := by simp [State.fail]
@[simp] theorem fail_anv_checkDue (op : Nat) (r : Req) (st : Status) (s : State) : (State.fail op r st s).anv.checkDue = s.anv.checkDue := by simp [State.fail]
@[simp] theorem fail_anv_fillDue (op : Nat) (r : Req) (st : Status) (s : State) : (State.fail op r st s).anv.fillDue = s.anv.fillDue := by simp [State.fail]
@[simp] theorem fail_anv_auxRes (op : Nat) (r : Req) (st : Status) (s : State) : (State.fail op r st s).anv.auxRes = s.anv.auxRes := by simp [State.fail]
@[simp] theorem fail_anv_auxDue (op : Nat) (r : Req) (st : Status) (s : State) : (State.fail op r st s).anv.auxDue = s.anv.auxDue := by simp [State.fail]
@[simp] theorem fail_anv_hall (op : Nat) (r : Req) (st : Status) (s : State) : (State.fail op r st s).anv.hall = s.anv.hall := by simp [State.fail]
@[simp] theorem fail_anv_hallLast (op : Nat) (r : Req) (st : Status) (s : State) : (State.fail op r st s).anv.hallLast = s.anv.hallLast := by simp [State.fail]
@[simp] theorem fail_anv_magScans (op : Nat) (r : Req) (st : Status) (s : State) : (State.fail op r st s).anv.magScans = s.anv.magScans := by simp [State.fail]
@[simp] theorem fail_anv_refActive (op : Nat) (r : Req) (st : Status) (s : State) : (State.fail op r st s).anv.refActive = s.anv.refActive := by simp [State.fail]
@[simp] theorem fail_anv_refClear (op : Nat) (r : Req) (st : Status) (s : State) : (State.fail op r st s).anv.refClear = s.anv.refClear := by simp [State.fail]
@[simp] theorem fail_anv_tempActive (op : Nat) (r : Req) (st : Status) (s : State) : (State.fail op r st s).anv.tempActive = s.anv.tempActive := by simp [State.fail]
@[simp] theorem fail_anv_images (op : Nat) (r : Req) (st : Status) (s : State) : (State.fail op r st s).anv.images = s.anv.images := by simp [State.fail]
@[simp] theorem fail_anv_saveDue (op : Nat) (r : Req) (st : Status) (s : State) : (State.fail op r st s).anv.saveDue = s.anv.saveDue := by simp [State.fail]
@[simp] theorem fail_anv_log (op : Nat) (r : Req) (st : Status) (s : State) : (State.fail op r st s).anv.log = s.anv.log := by simp [State.fail]
@[simp] theorem fail_anv_logNext (op : Nat) (r : Req) (st : Status) (s : State) : (State.fail op r st s).anv.logNext = s.anv.logNext := by simp [State.fail]
@[simp] theorem fail_anv_logLink (op : Nat) (r : Req) (st : Status) (s : State) : (State.fail op r st s).anv.logLink = s.anv.logLink := by simp [State.fail]
@[simp] theorem fail_cld (op : Nat) (r : Req) (st : Status) (s : State) : (State.fail op r st s).cld = s.cld := by simp [State.fail]
@[simp] theorem fail_grd (op : Nat) (r : Req) (st : Status) (s : State) : (State.fail op r st s).grd = s.grd := by simp [State.fail]
@[simp] theorem fail_pnl (op : Nat) (r : Req) (st : Status) (s : State) : (State.fail op r st s).pnl = s.pnl := by simp [State.fail]
@[simp] theorem fail_trim (op : Nat) (r : Req) (st : Status) (s : State) : (State.fail op r st s).trim = s.trim := by simp [State.fail]

/-! ### `State.notReady` -/

@[simp] theorem notReady_pending (op : Nat) (r : Req) (c : Nat) (s : State) : (State.notReady op r c s).pending = s.pending := by simp [State.notReady]
@[simp] theorem notReady_draws (op : Nat) (r : Req) (c : Nat) (s : State) : (State.notReady op r c s).draws = s.draws := by simp [State.notReady]
@[simp] theorem notReady_now (op : Nat) (r : Req) (c : Nat) (s : State) : (State.notReady op r c s).now = s.now := by simp [State.notReady]
@[simp] theorem notReady_dev_variant (op : Nat) (r : Req) (c : Nat) (s : State) : (State.notReady op r c s).dev.variant = s.dev.variant := by simp [State.notReady]
@[simp] theorem notReady_dev_startup (op : Nat) (r : Req) (c : Nat) (s : State) : (State.notReady op r c s).dev.startup = s.dev.startup := by simp [State.notReady]
@[simp] theorem notReady_dev_bankAt (op : Nat) (r : Req) (c : Nat) (s : State) : (State.notReady op r c s).dev.bankAt = s.dev.bankAt := by simp [State.notReady]
@[simp] theorem notReady_dev_bankedFrom (op : Nat) (r : Req) (c : Nat) (s : State) : (State.notReady op r c s).dev.bankedFrom = s.dev.bankedFrom := by simp [State.notReady]
@[simp] theorem notReady_dev_softReset (op : Nat) (r : Req) (c : Nat) (s : State) : (State.notReady op r c s).dev.softReset = s.dev.softReset := by simp [State.notReady]
@[simp] theorem notReady_cfg (op : Nat) (r : Req) (c : Nat) (s : State) : (State.notReady op r c s).cfg = s.cfg := by simp [State.notReady]
@[simp] theorem notReady_eff (op : Nat) (r : Req) (c : Nat) (s : State) : (State.notReady op r c s).eff = s.eff := by simp [State.notReady]
@[simp] theorem notReady_slots (op : Nat) (r : Req) (c : Nat) (s : State) : (State.notReady op r c s).slots = s.slots := by simp [State.notReady]
@[simp] theorem notReady_chans (op : Nat) (r : Req) (c : Nat) (s : State) : (State.notReady op r c s).chans = s.chans := by simp [State.notReady]
@[simp] theorem notReady_spares (op : Nat) (r : Req) (c : Nat) (s : State) : (State.notReady op r c s).spares = s.spares := by simp [State.notReady]
@[simp] theorem notReady_pts (op : Nat) (r : Req) (c : Nat) (s : State) : (State.notReady op r c s).pts = s.pts := by simp [State.notReady]
@[simp] theorem notReady_buses (op : Nat) (r : Req) (c : Nat) (s : State) : (State.notReady op r c s).buses = s.buses := by simp [State.notReady]
@[simp] theorem notReady_tb (op : Nat) (r : Req) (c : Nat) (s : State) : (State.notReady op r c s).tb = s.tb := by simp [State.notReady]
@[simp] theorem notReady_engine (op : Nat) (r : Req) (c : Nat) (s : State) : (State.notReady op r c s).engine = s.engine := by simp [State.notReady]
@[simp] theorem notReady_mcal (op : Nat) (r : Req) (c : Nat) (s : State) : (State.notReady op r c s).mcal = s.mcal := by simp [State.notReady]
@[simp] theorem notReady_prof (op : Nat) (r : Req) (c : Nat) (s : State) : (State.notReady op r c s).prof = s.prof := by simp [State.notReady]
@[simp] theorem notReady_pq (op : Nat) (r : Req) (c : Nat) (s : State) : (State.notReady op r c s).pq = s.pq := by simp [State.notReady]
@[simp] theorem notReady_wb (op : Nat) (r : Req) (c : Nat) (s : State) : (State.notReady op r c s).wb = s.wb := by simp [State.notReady]
@[simp] theorem notReady_pulses (op : Nat) (r : Req) (c : Nat) (s : State) : (State.notReady op r c s).pulses = s.pulses := by simp [State.notReady]
@[simp] theorem notReady_pwr (op : Nat) (r : Req) (c : Nat) (s : State) : (State.notReady op r c s).pwr = s.pwr := by simp [State.notReady]
@[simp] theorem notReady_flt (op : Nat) (r : Req) (c : Nat) (s : State) : (State.notReady op r c s).flt = s.flt := by simp [State.notReady]
@[simp] theorem notReady_anv_up (op : Nat) (r : Req) (c : Nat) (s : State) : (State.notReady op r c s).anv.up = s.anv.up := by simp [State.notReady]
@[simp] theorem notReady_anv_slot (op : Nat) (r : Req) (c : Nat) (s : State) : (State.notReady op r c s).anv.slot = s.anv.slot := by simp [State.notReady]
@[simp] theorem notReady_anv_active (op : Nat) (r : Req) (c : Nat) (s : State) : (State.notReady op r c s).anv.active = s.anv.active := by simp [State.notReady]
@[simp] theorem notReady_anv_fallback (op : Nat) (r : Req) (c : Nat) (s : State) : (State.notReady op r c s).anv.fallback = s.anv.fallback := by simp [State.notReady]
@[simp] theorem notReady_anv_fw (op : Nat) (r : Req) (c : Nat) (s : State) : (State.notReady op r c s).anv.fw = s.anv.fw := by simp [State.notReady]
@[simp] theorem notReady_anv_epoch (op : Nat) (r : Req) (c : Nat) (s : State) : (State.notReady op r c s).anv.epoch = s.anv.epoch := by simp [State.notReady]
@[simp] theorem notReady_anv_version (op : Nat) (r : Req) (c : Nat) (s : State) : (State.notReady op r c s).anv.version = s.anv.version := by simp [State.notReady]
@[simp] theorem notReady_anv_slots (op : Nat) (r : Req) (c : Nat) (s : State) : (State.notReady op r c s).anv.slots = s.anv.slots := by simp [State.notReady]
@[simp] theorem notReady_anv_trialLeft (op : Nat) (r : Req) (c : Nat) (s : State) : (State.notReady op r c s).anv.trialLeft = s.anv.trialLeft := by simp [State.notReady]
@[simp] theorem notReady_anv_trialOver (op : Nat) (r : Req) (c : Nat) (s : State) : (State.notReady op r c s).anv.trialOver = s.anv.trialOver := by simp [State.notReady]
@[simp] theorem notReady_anv_checkDue (op : Nat) (r : Req) (c : Nat) (s : State) : (State.notReady op r c s).anv.checkDue = s.anv.checkDue := by simp [State.notReady]
@[simp] theorem notReady_anv_fillDue (op : Nat) (r : Req) (c : Nat) (s : State) : (State.notReady op r c s).anv.fillDue = s.anv.fillDue := by simp [State.notReady]
@[simp] theorem notReady_anv_auxRes (op : Nat) (r : Req) (c : Nat) (s : State) : (State.notReady op r c s).anv.auxRes = s.anv.auxRes := by simp [State.notReady]
@[simp] theorem notReady_anv_auxDue (op : Nat) (r : Req) (c : Nat) (s : State) : (State.notReady op r c s).anv.auxDue = s.anv.auxDue := by simp [State.notReady]
@[simp] theorem notReady_anv_hall (op : Nat) (r : Req) (c : Nat) (s : State) : (State.notReady op r c s).anv.hall = s.anv.hall := by simp [State.notReady]
@[simp] theorem notReady_anv_hallLast (op : Nat) (r : Req) (c : Nat) (s : State) : (State.notReady op r c s).anv.hallLast = s.anv.hallLast := by simp [State.notReady]
@[simp] theorem notReady_anv_magScans (op : Nat) (r : Req) (c : Nat) (s : State) : (State.notReady op r c s).anv.magScans = s.anv.magScans := by simp [State.notReady]
@[simp] theorem notReady_anv_refActive (op : Nat) (r : Req) (c : Nat) (s : State) : (State.notReady op r c s).anv.refActive = s.anv.refActive := by simp [State.notReady]
@[simp] theorem notReady_anv_refClear (op : Nat) (r : Req) (c : Nat) (s : State) : (State.notReady op r c s).anv.refClear = s.anv.refClear := by simp [State.notReady]
@[simp] theorem notReady_anv_tempActive (op : Nat) (r : Req) (c : Nat) (s : State) : (State.notReady op r c s).anv.tempActive = s.anv.tempActive := by simp [State.notReady]
@[simp] theorem notReady_anv_images (op : Nat) (r : Req) (c : Nat) (s : State) : (State.notReady op r c s).anv.images = s.anv.images := by simp [State.notReady]
@[simp] theorem notReady_anv_saveDue (op : Nat) (r : Req) (c : Nat) (s : State) : (State.notReady op r c s).anv.saveDue = s.anv.saveDue := by simp [State.notReady]
@[simp] theorem notReady_anv_log (op : Nat) (r : Req) (c : Nat) (s : State) : (State.notReady op r c s).anv.log = s.anv.log := by simp [State.notReady]
@[simp] theorem notReady_anv_logNext (op : Nat) (r : Req) (c : Nat) (s : State) : (State.notReady op r c s).anv.logNext = s.anv.logNext := by simp [State.notReady]
@[simp] theorem notReady_anv_logLink (op : Nat) (r : Req) (c : Nat) (s : State) : (State.notReady op r c s).anv.logLink = s.anv.logLink := by simp [State.notReady]
@[simp] theorem notReady_cld (op : Nat) (r : Req) (c : Nat) (s : State) : (State.notReady op r c s).cld = s.cld := by simp [State.notReady]
@[simp] theorem notReady_grd (op : Nat) (r : Req) (c : Nat) (s : State) : (State.notReady op r c s).grd = s.grd := by simp [State.notReady]
@[simp] theorem notReady_pnl (op : Nat) (r : Req) (c : Nat) (s : State) : (State.notReady op r c s).pnl = s.pnl := by simp [State.notReady]
@[simp] theorem notReady_trim (op : Nat) (r : Req) (c : Nat) (s : State) : (State.notReady op r c s).trim = s.trim := by simp [State.notReady]

/-! ### `State.reject` -/

@[simp] theorem reject_pending (p : Port) (x : Reply) (s : State) : (State.reject p x s).pending = s.pending := by unfold State.reject; split <;> simp
@[simp] theorem reject_draws (p : Port) (x : Reply) (s : State) : (State.reject p x s).draws = s.draws := by unfold State.reject; split <;> simp
@[simp] theorem reject_now (p : Port) (x : Reply) (s : State) : (State.reject p x s).now = s.now := by unfold State.reject; split <;> simp
@[simp] theorem reject_dev_variant (p : Port) (x : Reply) (s : State) : (State.reject p x s).dev.variant = s.dev.variant := by unfold State.reject; split <;> simp
@[simp] theorem reject_dev_startup (p : Port) (x : Reply) (s : State) : (State.reject p x s).dev.startup = s.dev.startup := by unfold State.reject; split <;> simp
@[simp] theorem reject_dev_bankAt (p : Port) (x : Reply) (s : State) : (State.reject p x s).dev.bankAt = s.dev.bankAt := by unfold State.reject; split <;> simp
@[simp] theorem reject_dev_bankedFrom (p : Port) (x : Reply) (s : State) : (State.reject p x s).dev.bankedFrom = s.dev.bankedFrom := by unfold State.reject; split <;> simp
@[simp] theorem reject_dev_softReset (p : Port) (x : Reply) (s : State) : (State.reject p x s).dev.softReset = s.dev.softReset := by unfold State.reject; split <;> simp
@[simp] theorem reject_cfg (p : Port) (x : Reply) (s : State) : (State.reject p x s).cfg = s.cfg := by unfold State.reject; split <;> simp
@[simp] theorem reject_eff (p : Port) (x : Reply) (s : State) : (State.reject p x s).eff = s.eff := by unfold State.reject; split <;> simp
@[simp] theorem reject_slots (p : Port) (x : Reply) (s : State) : (State.reject p x s).slots = s.slots := by unfold State.reject; split <;> simp
@[simp] theorem reject_chans (p : Port) (x : Reply) (s : State) : (State.reject p x s).chans = s.chans := by unfold State.reject; split <;> simp
@[simp] theorem reject_spares (p : Port) (x : Reply) (s : State) : (State.reject p x s).spares = s.spares := by unfold State.reject; split <;> simp
@[simp] theorem reject_pts (p : Port) (x : Reply) (s : State) : (State.reject p x s).pts = s.pts := by unfold State.reject; split <;> simp
@[simp] theorem reject_buses (p : Port) (x : Reply) (s : State) : (State.reject p x s).buses = s.buses := by unfold State.reject; split <;> simp
@[simp] theorem reject_tb (p : Port) (x : Reply) (s : State) : (State.reject p x s).tb = s.tb := by unfold State.reject; split <;> simp
@[simp] theorem reject_engine (p : Port) (x : Reply) (s : State) : (State.reject p x s).engine = s.engine := by unfold State.reject; split <;> simp
@[simp] theorem reject_mcal (p : Port) (x : Reply) (s : State) : (State.reject p x s).mcal = s.mcal := by unfold State.reject; split <;> simp
@[simp] theorem reject_prof (p : Port) (x : Reply) (s : State) : (State.reject p x s).prof = s.prof := by unfold State.reject; split <;> simp
@[simp] theorem reject_pq (p : Port) (x : Reply) (s : State) : (State.reject p x s).pq = s.pq := by unfold State.reject; split <;> simp
@[simp] theorem reject_wb (p : Port) (x : Reply) (s : State) : (State.reject p x s).wb = s.wb := by unfold State.reject; split <;> simp
@[simp] theorem reject_pulses (p : Port) (x : Reply) (s : State) : (State.reject p x s).pulses = s.pulses := by unfold State.reject; split <;> simp
@[simp] theorem reject_fol (p : Port) (x : Reply) (s : State) : (State.reject p x s).fol = s.fol := by unfold State.reject; split <;> simp
@[simp] theorem reject_scr_sessions (p : Port) (x : Reply) (s : State) : (State.reject p x s).scr.sessions = s.scr.sessions := by unfold State.reject; split <;> simp
@[simp] theorem reject_scr_queues (p : Port) (x : Reply) (s : State) : (State.reject p x s).scr.queues = s.scr.queues := by unfold State.reject; split <;> simp
@[simp] theorem reject_scr_tags (p : Port) (x : Reply) (s : State) : (State.reject p x s).scr.tags = s.scr.tags := by unfold State.reject; split <;> simp
@[simp] theorem reject_scr_admitted (p : Port) (x : Reply) (s : State) : (State.reject p x s).scr.admitted = s.scr.admitted := by unfold State.reject; split <;> simp
@[simp] theorem reject_scr_legalEver (p : Port) (x : Reply) (s : State) : (State.reject p x s).scr.legalEver = s.scr.legalEver := by unfold State.reject; split <;> simp
@[simp] theorem reject_scr_challenge (p : Port) (x : Reply) (s : State) : (State.reject p x s).scr.challenge = s.scr.challenge := by unfold State.reject; split <;> simp
@[simp] theorem reject_scr_baudDue (p : Port) (x : Reply) (s : State) : (State.reject p x s).scr.baudDue = s.scr.baudDue := by unfold State.reject; split <;> simp
@[simp] theorem reject_scr_inkLock (p : Port) (x : Reply) (s : State) : (State.reject p x s).scr.inkLock = s.scr.inkLock := by unfold State.reject; split <;> simp
@[simp] theorem reject_ev (p : Port) (x : Reply) (s : State) : (State.reject p x s).ev = s.ev := by unfold State.reject; split <;> simp
@[simp] theorem reject_pwr (p : Port) (x : Reply) (s : State) : (State.reject p x s).pwr = s.pwr := by unfold State.reject; split <;> simp
@[simp] theorem reject_flt (p : Port) (x : Reply) (s : State) : (State.reject p x s).flt = s.flt := by unfold State.reject; split <;> simp
@[simp] theorem reject_anv (p : Port) (x : Reply) (s : State) : (State.reject p x s).anv = s.anv := by unfold State.reject; split <;> simp
@[simp] theorem reject_cld (p : Port) (x : Reply) (s : State) : (State.reject p x s).cld = s.cld := by unfold State.reject; split <;> simp
@[simp] theorem reject_grd (p : Port) (x : Reply) (s : State) : (State.reject p x s).grd = s.grd := by unfold State.reject; split <;> simp
@[simp] theorem reject_pnl (p : Port) (x : Reply) (s : State) : (State.reject p x s).pnl = s.pnl := by unfold State.reject; split <;> simp
@[simp] theorem reject_trim (p : Port) (x : Reply) (s : State) : (State.reject p x s).trim = s.trim := by unfold State.reject; split <;> simp

end Sys2Proof.Laws
end

