-- ==== Sys2Proof/Laws/Served.lean ====
section
/-!
SUPPORT. What a served host command comes to, and the blot bits that shared operations set and keep.
-/
namespace Sys2Proof.Laws

open Sys2Proof.Machine

/-- A fast-path command wakes nothing. -/
theorem woken_fast {op : Nat} (h : isSlow op = false) (s : State) : s.woken op = s := by simp [State.woken, h]

/-- BANK_ENTER does not end a stay in Banked. -/
theorem woken_bank (s : State) : s.woken 0x0503 = s := by simp [State.woken]

/-- Waking changes no word in force, so that ISOLATE closes what it closed before. -/
@[simp] theorem woken_closedBy (op n : Nat) (x : Role) (s : State) : (s.woken op).closedBy n x = s.closedBy n x := by
  simp [State.closedBy, State.isolated, State.guard]

/-- A served command is its own effect, on the state that it wakes (R204, R213, R217, R219, R228, R332). -/
theorem command_served {op : Nat} {r : Req} {s : State} (body : State → State) (h : s.served op r = true) :
    s.command op r body = body (s.woken op) := by
  unfold State.served at h
  simp only [Bool.and_eq_true, Bool.not_eq_true', Bool.or_eq_true, decide_eq_true_eq, ne_eq] at h
  obtain ⟨⟨⟨h1, h2⟩, h3⟩, h4⟩ := h
  have hw : (if isSlow op && decide (op ≠ 0x0503) then s.wake else s) = s.woken op := rfl
  unfold State.command
  simp only [h1, Bool.not_true, Bool.false_eq_true, if_false, hw, h2]
  have h5 : (decide ((s.woken op).anv.slot = 3) && isSlow op && !recoveryServes op) = false := by
    rw [woken_anv]
    rcases h4 with (h4 | h4) | h4 <;> simp [h4]
  rw [woken_closedBy, h3, h5]
  simp

/-- A command that cannot run is held (log 6). -/
theorem command_held {op : Nat} {r : Req} {s : State} (body : State → State) (h : s.ready op r = false) :
    s.command op r body = s := by simp [State.command, h]

/-- What a command keeps, when its own effect keeps it. -/
theorem command_keeps {β : Type} (g : State → β) {op : Nat} {r : Req} (body : State → State) (s : State)
    (hu : ∀ s : State, g s.wake = g s) (hf : ∀ (st : Status) (s : State), g (s.fail op r st) = g s)
    (hb : ∀ s : State, g (body s) = g s) : g (s.command op r body) = g s := by
  unfold State.command
  split
  · rfl
  split
  · exact hf _ _
  · dsimp only
    have hw : g (if isSlow op && decide (op ≠ 0x0503) then s.wake else s) = g s := by split <;> simp [hu]
    refine Eq.trans ?_ hw
    generalize (if isSlow op && decide (op ≠ 0x0503) then s.wake else s) = s0
    repeat' split
    all_goals first | exact hf _ _ | exact hb _

/-! ### What an admission settled (R183, R189, R190, R192) -/

/-- A command that acted at its admission answers what came of it, and nothing else. -/
theorem acted_settled {op : Nat} {r : Req} {st : Status} {bs : List Byte} {s : State} (act : State → State × Status × List Byte)
    (h : s.settled op r = some (.reply st bs)) : s.acted op r act = s.complete op r st bs := by
  simp [State.acted, h]

/-- A command whose admission settled nothing acts now. -/
theorem acted_now {op : Nat} {r : Req} {s : State} (act : State → State × Status × List Byte) (h : s.settled op r = none) :
    s.acted op r act = (act s).1.complete op r (act s).2.1 (act s).2.2 := by
  simp [State.acted, h]

/-- What a selector named at the admission stands, whatever has been sealed, leased or reclaimed since. -/
theorem namedFor_settled {op : Nat} {r : Req} {x : Named} {s : State} (sel : Selector) (h : s.settled op r = some (.named x)) :
    s.namedFor op r sel = x := by
  simp [State.namedFor, h]

/-- A command without an entry names its folio now. -/
theorem namedFor_now {op : Nat} {r : Req} {s : State} (sel : Selector) (h : s.settled op r = none) :
    s.namedFor op r sel = s.named r.session sel := by
  simp [State.namedFor, h]

/-- A command on the folio that its selector names is its effect on that folio. -/
theorem onFolio_folio {op : Nat} {r : Req} {sel : Selector} {f : Folio} {s : State} (body : Folio → State)
    (h : s.namedFor op r sel = .folio f) : s.onFolio op r sel body = body f := by
  simp [State.onFolio, h]

/-! ### Blot bits (R320) -/

/-- A mask that is set in the blot bits. -/
def Blotted (m : BitVec 128) (s : State) : Prop := s.anv.blots &&& m = m

theorem or_and_self (x m : BitVec 128) : (x ||| m) &&& m = m := by
  ext i; simp only [BitVec.getElem_and, BitVec.getElem_or]; cases x[i] <;> cases m[i] <;> rfl

theorem or_and_keep (x y m : BitVec 128) (h : x &&& m = m) : (x ||| y) &&& m = m := by
  ext i
  have hi := congrArg (fun v : BitVec 128 => v.getLsbD i) h
  simp only [BitVec.getLsbD_and] at hi
  simp only [BitVec.getElem_and, BitVec.getElem_or]
  rw [← BitVec.getLsbD_eq_getElem, ← BitVec.getLsbD_eq_getElem, ← BitVec.getLsbD_eq_getElem]
  revert hi
  cases x.getLsbD i <;> cases y.getLsbD i <;> cases m.getLsbD i <;> simp

theorem blot_self (b : Blot) (s : State) : Blotted (blotBit b) (s.blot b) := or_and_self _ _

theorem blot_keeps {m : BitVec 128} (b : Blot) {s : State} (h : Blotted m s) : Blotted m (s.blot b) := or_and_keep _ _ _ h

theorem pendInt_blotted {m : BitVec 128} (n : Nat) {s : State} (h : Blotted m s) : Blotted m (s.pendInt n) := by
  simpa [Blotted] using h

theorem enter_blotted {m : BitVec 128} (e : Event) {s : State} (h : Blotted m s) : Blotted m (s.enter e) := by
  unfold State.enter
  dsimp only
  repeat' split
  · exact pendInt_blotted _ h
  · exact h
  · exact pendInt_blotted _ (blot_keeps _ h)

theorem entered_blotted {m : BitVec 128} (x : Event) {s : State} (h : Blotted m s) :
    Blotted m (if s.dev.startup.restored then s.enter x else { s with ev := { s.ev with held := s.ev.held ++ [x] } }) := by
  split
  · exact enter_blotted _ h
  · exact h

theorem raiseWith_blotted {m : BitVec 128} (e : Ev) (u : Subject) (a : Stamp) (b c : Bool) (d : List Byte) {s : State}
    (h : Blotted m s) : Blotted m (s.raiseWith e u a b c d) := by
  have h1 := entered_blotted (⟨0, e.code, a, u.code, b, c, s.grd.quenched, s.fpidOf u, d⟩ : Event) h
  unfold State.raiseWith State.raiseAs
  dsimp only
  split
  · split
    · exact pendInt_blotted _ h1
    · exact h1
  · exact h1

theorem raise_blotted {m : BitVec 128} (e : Ev) (u : Subject) (d : List Byte) {s : State} (h : Blotted m s) :
    Blotted m (s.raise e u d) := raiseWith_blotted _ _ _ _ _ _ h

/-- A note sets its blot bit and keeps those that are set. -/
theorem note_self (b : Blot) (e : Ev) (u : Subject) (d : List Byte) (s : State) : Blotted (blotBit b) (s.note b e u d) :=
  raise_blotted _ _ _ (blot_self b s)

theorem note_blotted {m : BitVec 128} (b : Blot) (e : Ev) (u : Subject) (d : List Byte) {s : State} (h : Blotted m s) :
    Blotted m (s.note b e u d) := raise_blotted _ _ _ (blot_keeps b h)

end Sys2Proof.Laws
end

