-- ==== Sys2Proof/Laws/KeepsCalendar.lean ====
section
/-!
SUPPORT. What the operations and the rows that do not touch `cld.time` leave: that.
-/
namespace Sys2Proof.Laws

open Sys2Proof.Machine

@[simp] theorem ite_cld_time (c : Prop) [Decidable c] (a b : State) : (if c then a else b).cld.time = if c then a.cld.time else b.cld.time := by
  split <;> rfl

@[simp] theorem chain_cld_time {α : Type} (l : List α) (f : α → State → State) (s : State) (h : ∀ a s, (f a s).cld.time = s.cld.time) :
    (chain l f s).cld.time = s.cld.time := chain_keeps (fun s => s.cld.time) l f h s

@[simp] theorem fresh_cld_time : ∀ s, (State.fresh s).2.cld.time = s.cld.time := by intros; simp [State.fresh]

@[simp] theorem settingTook_cld_time : ∀ s, (State.settingTook s).cld.time = s.cld.time := by intros; simp [State.settingTook]

@[simp] theorem blot_cld_time : ∀ k s, (State.blot k s).cld.time = s.cld.time := by intros; simp [State.blot]

@[simp] theorem deliver_cld_time : ∀ s m n, (State.deliver s m n).cld.time = s.cld.time := by intros; simp [State.deliver]

@[simp] theorem routeN_cld_time : ∀ k s, (State.routeN k s).cld.time = s.cld.time := by
  intro k s
  induction k generalizing s with
  | zero => rfl
  | succ k ih => unfold State.routeN; split <;> simp [*]

@[simp] theorem route_cld_time : ∀ s, (State.route s).cld.time = s.cld.time := by intros; simp [State.route]

@[simp] theorem latch_cld_time : ∀ k s, (State.latch k s).cld.time = s.cld.time := by intros; simp [State.latch]

@[simp] theorem unbank_cld_time : ∀ s, (State.unbank s).cld.time = s.cld.time := by intros; unfold State.unbank; split <;> simp

@[simp] theorem wake_cld_time : ∀ s, (State.wake s).cld.time = s.cld.time := by intros; simp [State.wake]

@[simp] theorem wakeFor_cld_time : ∀ k s, (State.wakeFor k s).cld.time = s.cld.time := by intros; simp [State.wakeFor]

@[simp] theorem pendInt_cld_time : ∀ k s, (State.pendInt k s).cld.time = s.cld.time := by intros; simp [State.pendInt]

@[simp] theorem flushTarget_cld_time : ∀ k s, (State.flushTarget k s).cld.time = s.cld.time := by intros; simp [State.flushTarget]

@[simp] theorem toLog_cld_time : ∀ k s, (State.toLog k s).cld.time = s.cld.time := by intros; simp [State.toLog]

@[simp] theorem enter_cld_time : ∀ k s, (State.enter k s).cld.time = s.cld.time := by intros; simp [State.enter]

@[simp] theorem raiseAs_cld_time : ∀ k m n p q r u s, (State.raiseAs k m n p q r u s).cld.time = s.cld.time := by
  intros; unfold State.raiseAs; dsimp only; (repeat' split) <;> simp

@[simp] theorem raiseWith_cld_time : ∀ k m n p q r s, (State.raiseWith k m n p q r s).cld.time = s.cld.time := by
  intros; simp [State.raiseWith]

@[simp] theorem raise_cld_time : ∀ k m n s, (State.raise k m n s).cld.time = s.cld.time := by intros; simp [State.raise]

@[simp] theorem logOnly_cld_time : ∀ k m n s, (State.logOnly k m n s).cld.time = s.cld.time := by
  intros; unfold State.logOnly; split <;> simp

@[simp] theorem note_cld_time : ∀ k m n p s, (State.note k m n p s).cld.time = s.cld.time := by intros; simp [State.note]

@[simp] theorem phase_cld_time : ∀ k s, (State.phase k s).cld.time = s.cld.time := by intros; simp [State.phase]

@[simp] theorem phaseEnds_cld_time : ∀ k s, (State.phaseEnds k s).cld.time = s.cld.time := by intros; simp [State.phaseEnds]

@[simp] theorem onChan_cld_time : ∀ k m s, (State.onChan k m s).cld.time = s.cld.time := by intros; simp [State.onChan]

@[simp] theorem onSpare_cld_time : ∀ k m s, (State.onSpare k m s).cld.time = s.cld.time := by intros; simp [State.onSpare]

@[simp] theorem onPt_cld_time : ∀ k m s, (State.onPt k m s).cld.time = s.cld.time := by intros; simp [State.onPt]

@[simp] theorem onBus_cld_time : ∀ k m s, (State.onBus k m s).cld.time = s.cld.time := by intros; simp [State.onBus]

@[simp] theorem onPulse_cld_time : ∀ k m s, (State.onPulse k m s).cld.time = s.cld.time := by intros; simp [State.onPulse]

@[simp] theorem onGuard_cld_time : ∀ k m s, (State.onGuard k m s).cld.time = s.cld.time := by intros; simp [State.onGuard]

@[simp] theorem onRegion_cld_time : ∀ k m s, (State.onRegion k m s).cld.time = s.cld.time := by intros; simp [State.onRegion]

@[simp] theorem wbDiscard_cld_time : ∀ k s, (State.wbDiscard k s).cld.time = s.cld.time := by intros; simp [State.wbDiscard]

@[simp] theorem reshade_cld_time : ∀ k s, (State.reshade k s).cld.time = s.cld.time := by intros; simp [State.reshade]

@[simp] theorem connectSpare_cld_time : ∀ k m s, (State.connectSpare k m s).cld.time = s.cld.time := by
  intros; simp [State.connectSpare]

@[simp] theorem advanceSpare_cld_time : ∀ k s, (State.advanceSpare k s).cld.time = s.cld.time := by
  intros; unfold State.advanceSpare; split <;> simp

@[simp] theorem startCheck_cld_time : ∀ k m s, (State.startCheck k m s).cld.time = s.cld.time := by
  intros; simp [State.startCheck]

@[simp] theorem nextCheck_cld_time : ∀ k s, (State.nextCheck k s).cld.time = s.cld.time := by
  intros; unfold State.nextCheck; (repeat' split) <;> simp

@[simp] theorem endCheck_cld_time : ∀ k s, (State.endCheck k s).cld.time = s.cld.time := by
  intros; unfold State.endCheck; split <;> simp

@[simp] theorem abortCheck_cld_time : ∀ k s, (State.abortCheck k s).cld.time = s.cld.time := by
  intros; unfold State.abortCheck; split <;> simp

@[simp] theorem queueCheck_cld_time : ∀ k m s, (State.queueCheck k m s).cld.time = s.cld.time := by
  intros; simp [State.queueCheck]

@[simp] theorem failChan_cld_time : ∀ k m s, (State.failChan k m s).cld.time = s.cld.time := by intros; simp [State.failChan]

@[simp] theorem substituted_cld_time : ∀ k m n p s, (State.substituted k m n p s).cld.time = s.cld.time := by
  intros; simp [State.substituted]

@[simp] theorem takeSpare_cld_time : ∀ k s, (State.takeSpare k s).cld.time = s.cld.time := by
  intros; unfold State.takeSpare; dsimp only; (repeat' split) <;> simp

@[simp] theorem forceSpare_cld_time : ∀ k s, (State.forceSpare k s).cld.time = s.cld.time := by intros; simp [State.forceSpare]

@[simp] theorem startRestore_cld_time : ∀ k s, (State.startRestore k s).cld.time = s.cld.time := by
  intros; simp [State.startRestore]

@[simp] theorem check_cld_time : ∀ k s, (State.check k s).cld.time = s.cld.time := by
  intros; unfold State.check; dsimp only; (repeat' split) <;> simp

@[simp] theorem restoreFailed_cld_time : ∀ k s, (State.restoreFailed k s).cld.time = s.cld.time := by
  intros; simp [State.restoreFailed]

@[simp] theorem workingFault_cld_time : ∀ k m s, (State.workingFault k m s).cld.time = s.cld.time := by
  intros; simp [State.workingFault]

@[simp] theorem spareDown_cld_time : ∀ k s, (State.spareDown k s).cld.time = s.cld.time := by
  intros; unfold State.spareDown; split <;> simp

@[simp] theorem spareFault_cld_time : ∀ k s, (State.spareFault k s).cld.time = s.cld.time := by
  intros; unfold State.spareFault; split <;> simp

@[simp] theorem modFault_cld_time : ∀ k m s, (State.modFault k m s).cld.time = s.cld.time := by
  intros; unfold State.modFault; split <;> simp

theorem execModulatorHardFault_cld_time : ∀ k m s, ∃ t, execModulatorHardFault k m s = .next t ∧ t.cld.time = s.cld.time := by
  intros; refine ⟨_, rfl, ?_⟩; simp

@[simp] theorem splice_cld_time : ∀ k s, (State.splice k s).cld.time = s.cld.time := by intros; simp [State.splice]

theorem execChSubstituted_cld_time : ∀ k s, ∃ t, execChSubstituted k s = .next t ∧ t.cld.time = s.cld.time := by
  intros; refine ⟨_, rfl, ?_⟩; simp

@[simp] theorem lateSplice_cld_time : ∀ k s, (State.lateSplice k s).cld.time = s.cld.time := by intros; simp [State.lateSplice]

theorem execIsolatedParityError_cld_time : ∀ k s, ∃ t, execIsolatedParityError k s = .next t ∧ t.cld.time = s.cld.time := by
  intros
  refine ⟨_, rfl, ?_⟩
  dsimp only
  split
  · simp
  · split <;> simp

@[simp] theorem trimNote_cld_time : ∀ k m n s, (State.trimNote k m n s).cld.time = s.cld.time := by intros; simp [State.trimNote]

@[simp] theorem setModTrim_cld_time : ∀ k m s, (State.setModTrim k m s).cld.time = s.cld.time := by
  intros; simp [State.setModTrim]

@[simp] theorem askModTrim_cld_time : ∀ k m s, (State.askModTrim k m s).cld.time = s.cld.time := by
  intros; unfold State.askModTrim; split <;> simp

@[simp] theorem trimBoundary_cld_time : ∀ k s, (State.trimBoundary k s).cld.time = s.cld.time := by
  intros; unfold State.trimBoundary; split <;> simp

@[simp] theorem spareTrim_cld_time : ∀ k s, (State.spareTrim k s).cld.time = s.cld.time := by
  intros; unfold State.spareTrim; split <;> simp

@[simp] theorem setVref_cld_time : ∀ k s, (State.setVref k s).cld.time = s.cld.time := by intros; simp [State.setVref]

@[simp] theorem setOsc_cld_time : ∀ k s, (State.setOsc k s).cld.time = s.cld.time := by intros; simp [State.setOsc]

@[simp] theorem askBkup_cld_time : ∀ k s, (State.askBkup k s).cld.time = s.cld.time := by intros; simp [State.askBkup]

@[simp] theorem bkupDueNow_cld_time : ∀ s, (State.bkupDueNow s).cld.time = s.cld.time := by
  intros; unfold State.bkupDueNow; split <;> simp

@[simp] theorem askPanelOsc_cld_time : ∀ k s, (State.askPanelOsc k s).cld.time = s.cld.time := by intros; simp [State.askPanelOsc]

@[simp] theorem panelOscNow_cld_time : ∀ s, (State.panelOscNow s).cld.time = s.cld.time := by
  intros; unfold State.panelOscNow; split <;> simp

@[simp] theorem dropModTrim_cld_time : ∀ k s, (State.dropModTrim k s).cld.time = s.cld.time := by
  intros; unfold State.dropModTrim; split <;> simp

@[simp] theorem reloadTrims_cld_time : ∀ s, (State.reloadTrims s).cld.time = s.cld.time := by intros; simp [State.reloadTrims]

@[simp] theorem chDrift_cld_time : ∀ k m s, (State.chDrift k m s).cld.time = s.cld.time := by intros; simp [State.chDrift]

@[simp] theorem dwellChecked_cld_time : ∀ k s, (State.dwellChecked k s).cld.time = s.cld.time := by
  intros; simp [State.dwellChecked]

@[simp] theorem spareMove_cld_time : ∀ k m s, (State.spareMove k m s).cld.time = s.cld.time := by
  intros; unfold State.spareMove; dsimp only; (repeat' split) <;> simp

theorem execSpareMove_cld_time : ∀ k m s, ∃ t, execSpareMove k m s = .next t ∧ t.cld.time = s.cld.time := by
  intros; refine ⟨_, rfl, ?_⟩; simp

theorem execDriftCheckPhase_cld_time : ∀ k m s, ∃ t, execDriftCheckPhase k m s = .next t ∧ t.cld.time = s.cld.time := by
  intros; refine ⟨_, rfl, ?_⟩; (repeat' split) <;> simp

theorem execChDriftChecked_cld_time : ∀ k s, ∃ t, execChDriftChecked k s = .next t ∧ t.cld.time = s.cld.time := by
  intros; refine ⟨_, rfl, ?_⟩; split <;> simp

@[simp] theorem restoreEnd_cld_time : ∀ k m n s, (State.restoreEnd k m n s).cld.time = s.cld.time := by
  intros; unfold State.restoreEnd; dsimp only; (repeat' split) <;> simp

theorem execChRestored_cld_time : ∀ k m n s, ∃ t, execChRestored k m n s = .next t ∧ t.cld.time = s.cld.time := by
  intros; refine ⟨_, rfl, ?_⟩; simp

theorem execSuppressionEnd_cld_time : ∀ k s, ∃ t, execSuppressionEnd k s = .next t ∧ t.cld.time = s.cld.time := by
  intros; refine ⟨_, rfl, ?_⟩; simp

theorem execChClip_cld_time : ∀ k s, ∃ t, execChClip k s = .next t ∧ t.cld.time = s.cld.time := by
  intros; refine ⟨_, rfl, ?_⟩; simp

@[simp] theorem channelBoundary_cld_time : ∀ k s, (State.channelBoundary k s).cld.time = s.cld.time := by
  intros; simp [State.channelBoundary]

@[simp] theorem spareBoundary_cld_time : ∀ k s, (State.spareBoundary k s).cld.time = s.cld.time := by
  intros; unfold State.spareBoundary; dsimp only; (repeat' split) <;> simp

@[simp] theorem onPort_cld_time : ∀ k m s, (State.onPort k m s).cld.time = s.cld.time := by intros; simp [State.onPort]

@[simp] theorem onQue_cld_time : ∀ k m s, (State.onQue k m s).cld.time = s.cld.time := by intros; simp [State.onQue]

@[simp] theorem onSession_cld_time : ∀ k m s, (State.onSession k m s).cld.time = s.cld.time := by intros; simp [State.onSession]

@[simp] theorem start_cld_time : ∀ k s, (State.start k s).cld.time = s.cld.time := by intros; unfold State.start; split <;> simp

@[simp] theorem keepActivations_cld_time : ∀ k s, (State.keepActivations k s).cld.time = s.cld.time := by
  intros; simp [State.keepActivations]

@[simp] theorem endSession_cld_time : ∀ k m s, (State.endSession k m s).cld.time = s.cld.time := by
  intros; unfold State.endSession; split <;> simp

@[simp] theorem endSessions_cld_time : ∀ k s, (State.endSessions k s).cld.time = s.cld.time := by intros; simp [State.endSessions]

@[simp] theorem coresDown_cld_time : ∀ s, (State.coresDown s).cld.time = s.cld.time := by intros; simp [State.coresDown]

@[simp] theorem popEntry_cld_time : ∀ k m s, (State.popEntry k m s).cld.time = s.cld.time := by intros; simp [State.popEntry]

@[simp] theorem complete_cld_time : ∀ k m n p s, (State.complete k m n p s).cld.time = s.cld.time := by
  intros; simp [State.complete]

@[simp] theorem ok_cld_time : ∀ k m n s, (State.ok k m n s).cld.time = s.cld.time := by intros; simp [State.ok]

@[simp] theorem okTo_cld_time : ∀ k m n s, (State.okTo k m n s).cld.time = s.cld.time := by
  intros; unfold State.okTo; split <;> simp

@[simp] theorem fail_cld_time : ∀ k m n s, (State.fail k m n s).cld.time = s.cld.time := by intros; simp [State.fail]

@[simp] theorem acted_cld_time : ∀ k m s p, (∀ x, (p x).1.cld.time = x.cld.time) → (State.acted k m s p).cld.time = s.cld.time := by
  intros; unfold State.acted; dsimp only; (repeat' split) <;> simp [*]

@[simp] theorem abandonActivation_cld_time : ∀ s, (State.abandonActivation s).cld.time = s.cld.time := by
  intros; simp [State.abandonActivation]

@[simp] theorem notReady_cld_time : ∀ k m n s, (State.notReady k m n s).cld.time = s.cld.time := by intros; simp [State.notReady]

@[simp] theorem command_cld_time : ∀ k m s p, (∀ x, (p x).cld.time = x.cld.time) → (State.command k m s p).cld.time = s.cld.time := by
  intros; unfold State.command; dsimp only; (repeat' split) <;> simp [*]

@[simp] theorem softScope_cld_time : ∀ k s, (State.softScope k s).cld.time = s.cld.time := by
  intros; unfold State.softScope; split <;> simp

@[simp] theorem settleN_cld_time : ∀ k s, (State.settleN k s).cld.time = s.cld.time := by
  intro k s
  induction k generalizing s with
  | zero => rfl
  | succ k ih =>
    unfold State.settleN
    split
    · simp [*]
    · split <;> simp [*]

@[simp] theorem settleBaud_cld_time : ∀ s, (State.settleBaud s).cld.time = s.cld.time := by
  intros; unfold State.settleBaud; dsimp only; (repeat' split) <;> simp

@[simp] theorem settle_cld_time : ∀ s, (State.settle s).cld.time = s.cld.time := by intros; simp [State.settle]

@[simp] theorem transact_cld_time : ∀ k m s, (State.transact k m s).cld.time = s.cld.time := by intros; simp [State.transact]

@[simp] theorem delivered_cld_time : ∀ k m n s, (State.delivered k m n s).cld.time = s.cld.time := by
  intros; simp [State.delivered]

@[simp] theorem readPort_cld_time : ∀ k m s, (State.readPort k m s).cld.time = s.cld.time := by
  intros; unfold State.readPort; dsimp only; (repeat' split) <;> simp

theorem execRead_cld_time : ∀ k m s, ∃ t, execRead k m s = .next t ∧ t.cld.time = s.cld.time := by
  intros; refine ⟨_, rfl, ?_⟩; split <;> simp

theorem execStatus_cld_time : ∀ k s, ∃ t, execStatus k s = .next t ∧ t.cld.time = s.cld.time := by
  intros; refine ⟨_, rfl, ?_⟩; split <;> simp

theorem execUartReplySent_cld_time : ∀ s, ∃ t, execUartReplySent s = .next t ∧ t.cld.time = s.cld.time := by
  intros; refine ⟨_, rfl, ?_⟩; (repeat' split) <;> simp

theorem execPortTimeout_cld_time : ∀ k s, ∃ t, execPortTimeout k s = .next t ∧ t.cld.time = s.cld.time := by
  intros; refine ⟨_, rfl, ?_⟩; split <;> simp

theorem execUartFrameStall_cld_time : ∀ s, ∃ t, execUartFrameStall s = .next t ∧ t.cld.time = s.cld.time := by
  intros; refine ⟨_, rfl, ?_⟩; simp

@[simp] theorem replyDropped_cld_time : ∀ k m s, (State.replyDropped k m s).cld.time = s.cld.time := by
  intros; unfold State.replyDropped; dsimp only; (repeat' split) <;> simp

theorem execReplyDropped_cld_time : ∀ k m s, ∃ t, execReplyDropped k m s = .next t ∧ t.cld.time = s.cld.time := by
  intros; refine ⟨_, rfl, ?_⟩; simp

theorem execSessionIdleTimeout_cld_time : ∀ k s, ∃ t, execSessionIdleTimeout k s = .next t ∧ t.cld.time = s.cld.time := by
  intros; refine ⟨_, rfl, ?_⟩; simp

theorem execNop_cld_time : ∀ k m s, ∃ t, execNop k m s = .next t ∧ t.cld.time = s.cld.time := by intros; refine ⟨_, rfl, ?_⟩; simp

theorem execSessionClose_cld_time : ∀ k s, ∃ t, execSessionClose k s = .next t ∧ t.cld.time = s.cld.time := by
  intros; refine ⟨_, rfl, ?_⟩; simp

theorem execSetPriority_cld_time : ∀ k m s, ∃ t, execSetPriority k m s = .next t ∧ t.cld.time = s.cld.time := by
  intros; refine ⟨_, rfl, ?_⟩; simp

@[simp] theorem sessionOpen_cld_time : ∀ k m s, (State.sessionOpen k m s).cld.time = s.cld.time := by
  intros; unfold State.sessionOpen; dsimp only; (repeat' split) <;> simp

theorem execSessionOpen_cld_time : ∀ k m s, ∃ t, execSessionOpen k m s = .next t ∧ t.cld.time = s.cld.time := by
  intros; refine ⟨_, rfl, ?_⟩; simp

@[simp] theorem grdNotify_cld_time : ∀ k s, (State.grdNotify k s).cld.time = s.cld.time := by intros; simp [State.grdNotify]

@[simp] theorem declareGroup_cld_time : ∀ k m s, (State.declareGroup k m s).cld.time = s.cld.time := by
  intros; simp [State.declareGroup]

theorem execGrdSource_cld_time : ∀ k m s, ∃ t, execGrdSource k m s = .next t ∧ t.cld.time = s.cld.time := by
  intros; refine ⟨_, rfl, ?_⟩; simp

theorem execCellScanPeriod_cld_time : ∀ k m s, ∃ t, execCellScanPeriod k m s = .next t ∧ t.cld.time = s.cld.time := by
  intros; refine ⟨_, rfl, ?_⟩; simp

theorem execGrdClock_cld_time : ∀ s, ∃ t, execGrdClock s = .next t ∧ t.cld.time = s.cld.time := by
  intros; refine ⟨_, rfl, ?_⟩; simp

@[simp] theorem cellReplay_cld_time : ∀ s, (State.cellReplay s).cld.time = s.cld.time := by intros; simp [State.cellReplay]

@[simp] theorem arm_cld_time : ∀ s, (State.arm s).cld.time = s.cld.time := by intros; simp [State.arm]

@[simp] theorem fdis_cld_time : ∀ k s, (State.fdis k s).cld.time = s.cld.time := by intros; simp [State.fdis]

theorem execGrdClearArm_cld_time : ∀ k m s, ∃ t, execGrdClearArm k m s = .next t ∧ t.cld.time = s.cld.time := by
  intros; refine ⟨_, rfl, ?_⟩; simp

@[simp] theorem clearGuards_cld_time : ∀ k m s, (State.clearGuards k m s).cld.time = s.cld.time := by
  intros; simp [State.clearGuards]

theorem execGrdClearConfirm_cld_time : ∀ k m n s, ∃ t, execGrdClearConfirm k m n s = .next t ∧ t.cld.time = s.cld.time := by
  intros; refine ⟨_, rfl, ?_⟩; refine command_keeps (fun s => s.cld.time) _ _ (by simp) (by simp) ?_; intro s; dsimp only; (repeat' split) <;> simp

theorem execGrdChallengeExpiry_cld_time : ∀ s, ∃ t, execGrdChallengeExpiry s = .next t ∧ t.cld.time = s.cld.time := by
  intros; refine ⟨_, rfl, ?_⟩; simp

theorem execGrdTest_cld_time : ∀ k m n s, ∃ t, execGrdTest k m n s = .next t ∧ t.cld.time = s.cld.time := by
  intros; refine ⟨_, rfl, ?_⟩; split <;> simp

theorem execIdCertRead_cld_time : ∀ k m n s, ∃ t, execIdCertRead k m n s = .next t ∧ t.cld.time = s.cld.time := by
  intros; refine ⟨_, rfl, ?_⟩; simp

@[simp] theorem outOfOrder_cld_time : ∀ k m n p s, (State.outOfOrder k m n p s).cld.time = s.cld.time := by
  intros; simp [State.outOfOrder]

@[simp] theorem retire_cld_time : ∀ k m n s, (State.retire k m n s).cld.time = s.cld.time := by
  intros; unfold State.retire; dsimp only; (repeat' split) <;> simp

@[simp] theorem disableTarget_cld_time : ∀ k s, (State.disableTarget k s).cld.time = s.cld.time := by
  intros; simp [State.disableTarget]

theorem execIntTimeout_cld_time : ∀ k s, ∃ t, execIntTimeout k s = .next t ∧ t.cld.time = s.cld.time := by
  intros; refine ⟨_, rfl, ?_⟩; split <;> simp

@[simp] theorem refCheck_cld_time : ∀ s, (State.refCheck s).cld.time = s.cld.time := by intros; simp [State.refCheck]

@[simp] theorem tempCheck_cld_time : ∀ s, (State.tempCheck s).cld.time = s.cld.time := by intros; simp [State.tempCheck]

@[simp] theorem vbatReading_cld_time : ∀ s, (State.vbatReading s).cld.time = s.cld.time := by intros; simp [State.vbatReading]

@[simp] theorem hallReading_cld_time : ∀ k s, (State.hallReading k s).cld.time = s.cld.time := by
  intros; unfold State.hallReading; dsimp only; (repeat' split) <;> simp

@[simp] theorem auxScan_cld_time : ∀ k m s, (State.auxScan k m s).cld.time = s.cld.time := by
  intros; unfold State.auxScan; split <;> simp

theorem execAuxScan_cld_time : ∀ k m s, ∃ t, execAuxScan k m s = .next t ∧ t.cld.time = s.cld.time := by
  intros; refine ⟨_, rfl, ?_⟩; simp

theorem execAuxRead_cld_time : ∀ k m n s, ∃ t, execAuxRead k m n s = .next t ∧ t.cld.time = s.cld.time := by
  intros; refine ⟨_, rfl, ?_⟩; split <;> simp

@[simp] theorem tableLoad_cld_time : ∀ k m n p q r s, (State.tableLoad k m n p q r s).cld.time = s.cld.time := by
  intros; unfold State.tableLoad; dsimp only; (repeat' split) <;> simp

theorem execPnlTableLoad_cld_time : ∀ k m n p q r s, ∃ t, execPnlTableLoad k m n p q r s = .next t ∧ t.cld.time = s.cld.time := by
  intros; refine ⟨_, rfl, ?_⟩; simp

theorem execPnlImageWrite_cld_time : ∀ k m n p s, ∃ t, execPnlImageWrite k m n p s = .next t ∧ t.cld.time = s.cld.time := by
  intros; refine ⟨_, rfl, ?_⟩; split <;> simp

@[simp] theorem steer_cld_time : ∀ s, (State.steer s).cld.time = s.cld.time := by intros; simp [State.steer]

@[simp] theorem pnlDone_cld_time : ∀ k m n s, (State.pnlDone k m n s).cld.time = s.cld.time := by intros; simp [State.pnlDone]

@[simp] theorem slotReq_cld_time : ∀ k m s, (State.slotReq k m s).cld.time = s.cld.time := by
  intros; unfold State.slotReq; split <;> simp

@[simp] theorem placeReq_cld_time : ∀ k m s, (State.placeReq k m s).cld.time = s.cld.time := by
  intros; unfold State.placeReq; split <;> simp

@[simp] theorem supersede_cld_time : ∀ k m s, (State.supersede k m s).cld.time = s.cld.time := by intros; simp [State.supersede]

@[simp] theorem panelUpdate_cld_time : ∀ k m n s, (State.panelUpdate k m n s).1.cld.time = s.cld.time := by
  intros; unfold State.panelUpdate; split <;> simp

@[simp] theorem pnlUpdate_cld_time : ∀ k m n p s, (State.pnlUpdate k m n p s).cld.time = s.cld.time := by
  intros; simp [State.pnlUpdate]

theorem execPnlUpdate_cld_time : ∀ k m n p s, ∃ t, execPnlUpdate k m n p s = .next t ∧ t.cld.time = s.cld.time := by
  intros; refine ⟨_, rfl, ?_⟩; simp

@[simp] theorem refreshDirty_cld_time : ∀ s, (State.refreshDirty s).cld.time = s.cld.time := by intros; simp [State.refreshDirty]

@[simp] theorem startWaiting_cld_time : ∀ s, (State.startWaiting s).cld.time = s.cld.time := by intros; simp [State.startWaiting]

@[simp] theorem endRun_cld_time : ∀ k m n s, (State.endRun k m n s).cld.time = s.cld.time := by intros; simp [State.endRun]

@[simp] theorem startRun_cld_time : ∀ k m s, (State.startRun k m s).cld.time = s.cld.time := by
  intros; unfold State.startRun; split <;> simp

@[simp] theorem pairEnd_cld_time : ∀ k s, (State.pairEnd k s).cld.time = s.cld.time := by
  intros; unfold State.pairEnd; split <;> simp

@[simp] theorem pairStart_cld_time : ∀ k s, (State.pairStart k s).cld.time = s.cld.time := by
  intros; unfold State.pairStart; split <;> simp

@[simp] theorem dropPending_cld_time : ∀ k s, (State.dropPending k s).cld.time = s.cld.time := by
  intros; unfold State.dropPending; dsimp only; (repeat' split) <;> simp

@[simp] theorem pairBoundary_cld_time : ∀ s, (State.pairBoundary s).cld.time = s.cld.time := by intros; simp [State.pairBoundary]

theorem execPanelPairBoundary_cld_time : ∀ s, ∃ t, execPanelPairBoundary s = .next t ∧ t.cld.time = s.cld.time := by
  intros; refine ⟨_, rfl, ?_⟩; simp

theorem execPanelFrameBoundary_cld_time : ∀ s, ∃ t, execPanelFrameBoundary s = .next t ∧ t.cld.time = s.cld.time := by
  intros; refine ⟨_, rfl, ?_⟩; simp

@[simp] theorem faultRegion_cld_time : ∀ k s, (State.faultRegion k s).cld.time = s.cld.time := by
  intros; unfold State.faultRegion; dsimp only; (repeat' split) <;> simp

@[simp] theorem panelFault_cld_time : ∀ s, (State.panelFault s).cld.time = s.cld.time := by intros; simp [State.panelFault]

theorem execPanelFault_cld_time : ∀ k s, ∃ t, execPanelFault k s = .next t ∧ t.cld.time = s.cld.time := by
  intros; refine ⟨_, rfl, ?_⟩; simp

theorem execRailRead_cld_time : ∀ k s, ∃ t, execRailRead k s = .next t ∧ t.cld.time = s.cld.time := by
  intros; refine ⟨_, rfl, ?_⟩; dsimp only; (repeat' split) <;> simp

theorem execRailStep_cld_time : ∀ s, ∃ t, execRailStep s = .next t ∧ t.cld.time = s.cld.time := by
  intros; refine ⟨_, rfl, ?_⟩; simp

@[simp] theorem closeout_cld_time : ∀ s, (State.closeout s).cld.time = s.cld.time := by intros; simp [State.closeout]

@[simp] theorem recover_cld_time : ∀ k s, (State.recover k s).cld.time = s.cld.time := by intros; simp [State.recover]

@[simp] theorem store_cld_time : ∀ k m s, (State.store k m s).cld.time = s.cld.time := by intros; simp [State.store]

@[simp] theorem stage_cld_time : ∀ k m s, (State.stage k m s).cld.time = s.cld.time := by intros; simp [State.stage]

@[simp] theorem noteRejoined_cld_time : ∀ k m s, (State.noteRejoined k m s).cld.time = s.cld.time := by
  intros; simp [State.noteRejoined]

@[simp] theorem rejoinComb_cld_time : ∀ s, (State.rejoinComb s).cld.time = s.cld.time := by
  intros; unfold State.rejoinComb; split <;> simp

@[simp] theorem rejoinMet_cld_time : ∀ s, (State.rejoinMet s).cld.time = s.cld.time := by
  intros; unfold State.rejoinMet; split <;> simp

@[simp] theorem rejoin_cld_time : ∀ k m s, (State.rejoin k m s).cld.time = s.cld.time := by
  intros; unfold State.rejoin; dsimp only; (repeat' split) <;> simp

@[simp] theorem control_cld_time : ∀ k m s, (State.control k m s).cld.time = s.cld.time := by
  intros; unfold State.control; split <;> simp

@[simp] theorem guardControl_cld_time : ∀ k s, (State.guardControl k s).cld.time = s.cld.time := by
  intros; simp [State.guardControl]

@[simp] theorem askOsc_cld_time : ∀ k s, (State.askOsc k s).cld.time = s.cld.time := by intros; simp [State.askOsc]

@[simp] theorem noteKey_cld_time : ∀ k s, (State.noteKey k s).cld.time = s.cld.time := by intros; simp [State.noteKey]

@[simp] theorem applyWord_cld_time : ∀ k m n p q s, (State.applyWord k m n p q s).cld.time = s.cld.time := by
  intro a0 a1 r a3 a4 s
  cases r with
  | ch k x => cases x <;> (unfold State.applyWord; first | rfl | (simp; done) | (dsimp only; split <;> simp))
  | _ => unfold State.applyWord; first | rfl | (simp; done) | (dsimp only; split <;> first | rfl | (simp; done) | (split <;> simp))

@[simp] theorem paramWrite_cld_time : ∀ k m n p s, (State.paramWrite k m n p s).cld.time = s.cld.time := by
  intro req env addr ws s
  have hw : ∀ order l s s1, State.writeWords req env order l s = .inr s1 → s1.cld.time = s.cld.time := by
    intro order l
    induction l with
    | nil => intro s s1 h; simp only [State.writeWords, Sum.inr.injEq] at h; rw [← h]
    | cons x l ih =>
      intro s s1 h
      obtain ⟨a, w⟩ := x
      simp only [State.writeWords] at h
      split at h
      · simp at h
      · rw [ih _ _ h]; simp
  unfold State.paramWrite
  split
  · simp
  · next s1 h =>
    have : s1.cld.time = s.cld.time := by
      unfold State.tryWrite at h
      dsimp only at h
      split at h
      · simp at h
      · split at h
        · simp at h
        · exact hw _ _ _ _ h
    simp [this]

@[simp] theorem write_cld_time : ∀ k m n p s, (State.write k m n p s).cld.time = s.cld.time := by intros; simp [State.write]

theorem execParamWrite_cld_time : ∀ k m n s, ∃ t, execParamWrite k m n s = .next t ∧ t.cld.time = s.cld.time := by
  intros; refine ⟨_, rfl, ?_⟩; simp

theorem execForceSpare_cld_time : ∀ k m s, ∃ t, execForceSpare k m s = .next t ∧ t.cld.time = s.cld.time := by
  intros; refine ⟨_, rfl, ?_⟩; simp

theorem execRestore_cld_time : ∀ k m s, ∃ t, execRestore k m s = .next t ∧ t.cld.time = s.cld.time := by
  intros; refine ⟨_, rfl, ?_⟩; simp

theorem execCheck_cld_time : ∀ k m s, ∃ t, execCheck k m s = .next t ∧ t.cld.time = s.cld.time := by
  intros; refine ⟨_, rfl, ?_⟩; simp

theorem execTrimModWrite_cld_time : ∀ k m n s, ∃ t, execTrimModWrite k m n s = .next t ∧ t.cld.time = s.cld.time := by
  intros; refine ⟨_, rfl, ?_⟩; simp

theorem execTrimVrefWrite_cld_time : ∀ k m s, ∃ t, execTrimVrefWrite k m s = .next t ∧ t.cld.time = s.cld.time := by
  intros; refine ⟨_, rfl, ?_⟩; simp

theorem execTrimOscWrite_cld_time : ∀ k m s, ∃ t, execTrimOscWrite k m s = .next t ∧ t.cld.time = s.cld.time := by
  intros; refine ⟨_, rfl, ?_⟩; simp

theorem execReload_cld_time : ∀ k s, ∃ t, execReload k s = .next t ∧ t.cld.time = s.cld.time := by
  intros; refine ⟨_, rfl, ?_⟩; simp

theorem execRejoin_cld_time : ∀ k m n s, ∃ t, execRejoin k m n s = .next t ∧ t.cld.time = s.cld.time := by
  intros; refine ⟨_, rfl, ?_⟩; simp

theorem execXreturn_cld_time : ∀ k s, ∃ t, execXreturn k s = .next t ∧ t.cld.time = s.cld.time := by
  intros; refine ⟨_, rfl, ?_⟩; simp

theorem execEoi_cld_time : ∀ k m n p s, ∃ t, execEoi k m n p s = .next t ∧ t.cld.time = s.cld.time := by
  intros; refine ⟨_, rfl, ?_⟩; simp

theorem execIntTargetDisable_cld_time : ∀ k m s, ∃ t, execIntTargetDisable k m s = .next t ∧ t.cld.time = s.cld.time := by
  intros; refine ⟨_, rfl, ?_⟩; simp

theorem execArm_cld_time : ∀ k s, ∃ t, execArm k s = .next t ∧ t.cld.time = s.cld.time := by intros; refine ⟨_, rfl, ?_⟩; simp

theorem execFdis_cld_time : ∀ k m n s, ∃ t, execFdis k m n s = .next t ∧ t.cld.time = s.cld.time := by
  intros; refine ⟨_, rfl, ?_⟩; simp

theorem execRecover_cld_time : ∀ k m s, ∃ t, execRecover k m s = .next t ∧ t.cld.time = s.cld.time := by
  intros; refine ⟨_, rfl, ?_⟩; simp

@[simp] theorem slotCheck_cld_time : ∀ k m s, (State.slotCheck k m s).cld.time = s.cld.time := by intros; simp [State.slotCheck]

@[simp] theorem latchSlots_cld_time : ∀ k s, (State.latchSlots k s).cld.time = s.cld.time := by intros; simp [State.latchSlots]

@[simp] theorem deliverSlots_cld_time : ∀ s, (State.deliverSlots s).cld.time = s.cld.time := by intros; simp [State.deliverSlots]

@[simp] theorem combCompare_cld_time : ∀ k m n s, (State.combCompare k m n s).cld.time = s.cld.time := by
  intros; simp [State.combCompare]

@[simp] theorem frameLines_cld_time : ∀ s, (State.frameLines s).cld.time = s.cld.time := by intros; simp [State.frameLines]

@[simp] theorem acquire_cld_time : ∀ k s, (State.acquire k s).cld.time = s.cld.time := by intros; simp [State.acquire]

@[simp] theorem survey_cld_time : ∀ s, (State.survey s).cld.time = s.cld.time := by intros; simp [State.survey]

@[simp] theorem relockFrame_cld_time : ∀ s, (State.relockFrame s).cld.time = s.cld.time := by intros; simp [State.relockFrame]

@[simp] theorem handOffFrame_cld_time : ∀ s, (State.handOffFrame s).cld.time = s.cld.time := by intros; simp [State.handOffFrame]

@[simp] theorem takePins_cld_time : ∀ s, (State.takePins s).cld.time = s.cld.time := by intros; simp [State.takePins]

@[simp] theorem combFrame_cld_time : ∀ k m n p s, (State.combFrame k m n p s).cld.time = s.cld.time := by
  intros; simp [State.combFrame]

theorem execCombFrame_cld_time : ∀ k m n p s, ∃ t, execCombFrame k m n p s = .next t ∧ t.cld.time = s.cld.time := by
  intros; refine ⟨_, rfl, ?_⟩; simp

theorem execEngFenced_cld_time : ∀ k s, ∃ t, execEngFenced k s = .next t ∧ t.cld.time = s.cld.time := by
  intros; refine ⟨_, rfl, ?_⟩; simp

@[simp] theorem book_cld_time : ∀ k m n s, (State.book k m n s).cld.time = s.cld.time := by intros; simp [State.book]

@[simp] theorem closePoint_cld_time : ∀ k s, (State.closePoint k s).cld.time = s.cld.time := by
  intros; unfold State.closePoint; split <;> simp

@[simp] theorem closeBalance_cld_time : ∀ k s, (State.closeBalance k s).cld.time = s.cld.time := by
  intros; unfold State.closeBalance; split <;> simp

@[simp] theorem closeDc_cld_time : ∀ k s, (State.closeDc k s).cld.time = s.cld.time := by intros; simp [State.closeDc]

@[simp] theorem startCapture_cld_time : ∀ k m n s, (State.startCapture k m n s).cld.time = s.cld.time := by
  intros; simp [State.startCapture]

@[simp] theorem trigger_cld_time : ∀ k m s, (State.trigger k m s).cld.time = s.cld.time := by
  intros; unfold State.trigger; dsimp only; (repeat' split) <;> simp

@[simp] theorem triggerBy_cld_time : ∀ k m s, (State.triggerBy k m s).cld.time = s.cld.time := by
  intros; unfold State.triggerBy; split <;> simp

@[simp] theorem dueTrigger_cld_time : ∀ k s, (State.dueTrigger k s).cld.time = s.cld.time := by
  intros; unfold State.dueTrigger; split <;> simp

@[simp] theorem enterDue_cld_time : ∀ k s, (State.enterDue k s).cld.time = s.cld.time := by
  intros; unfold State.enterDue; split <;> simp

@[simp] theorem due_cld_time : ∀ k m n p q r u s, (State.due k m n p q r u s).cld.time = s.cld.time := by intros; simp [State.due]

@[simp] theorem flushDue_cld_time : ∀ s, (State.flushDue s).cld.time = s.cld.time := by intros; simp [State.flushDue]

theorem execCaptureFilled_cld_time : ∀ k s, ∃ t, execCaptureFilled k s = .next t ∧ t.cld.time = s.cld.time := by
  intros; refine ⟨_, rfl, ?_⟩; simp

theorem execCaptureKeepExpiry_cld_time : ∀ k s, ∃ t, execCaptureKeepExpiry k s = .next t ∧ t.cld.time = s.cld.time := by
  intros; refine ⟨_, rfl, ?_⟩; simp

@[simp] theorem completeEvent_cld_time : ∀ k m n p q r u s, (State.completeEvent k m n p q r u s).cld.time = s.cld.time := by
  intros; simp [State.completeEvent]

@[simp] theorem autoFreeze_cld_time : ∀ k s, (State.autoFreeze k s).cld.time = s.cld.time := by intros; simp [State.autoFreeze]

@[simp] theorem freezeCount_cld_time : ∀ k m s, (State.freezeCount k m s).cld.time = s.cld.time := by
  intros; simp [State.freezeCount]

theorem execAutoFreezeEnd_cld_time : ∀ k s, ∃ t, execAutoFreezeEnd k s = .next t ∧ t.cld.time = s.cld.time := by
  intros; refine ⟨_, rfl, ?_⟩; simp

@[simp] theorem rvcValue_cld_time : ∀ k m n p s, (State.rvcValue k m n p s).cld.time = s.cld.time := by
  intros; unfold State.rvcValue; split <;> simp

@[simp] theorem startEvent_cld_time : ∀ k m n p q s, (State.startEvent k m n p q s).cld.time = s.cld.time := by
  intros; unfold State.startEvent; split <;> simp

@[simp] theorem eventStep_cld_time : ∀ k m n p s, (State.eventStep k m n p s).cld.time = s.cld.time := by
  intros; unfold State.eventStep; dsimp only; (repeat' split) <;> simp

@[simp] theorem flagBefore_cld_time : ∀ k s, (State.flagBefore k s).cld.time = s.cld.time := by intros; simp [State.flagBefore]

@[simp] theorem halfCycle_cld_time : ∀ k m s, (State.halfCycle k m s).cld.time = s.cld.time := by
  intros
  unfold State.halfCycle
  dsimp only
  simp only [onBus_cld_time, flagBefore_cld_time, ite_cld_time]
  split
  · rw [chain_cld_time _ _ _ (by intro x s; simp)]; simp
  · simp

@[simp] theorem powerFailEvents_cld_time : ∀ s, (State.powerFailEvents s).cld.time = s.cld.time := by
  intros
  unfold State.powerFailEvents
  dsimp only
  simp only [flushDue_cld_time]
  exact chain_cld_time _ _ _ (by intro x s; exact chain_cld_time _ _ _ (by intro x s; (repeat' split) <;> simp))

@[simp] theorem detected_cld_time : ∀ k m n p q r s, (State.detected k m n p q r s).cld.time = s.cld.time := by
  intros; simp [State.detected]

@[simp] theorem neutralLost_cld_time : ∀ k s, (State.neutralLost k s).cld.time = s.cld.time := by intros; simp [State.neutralLost]

@[simp] theorem neutralBypass_cld_time : ∀ k s, (State.neutralBypass k s).cld.time = s.cld.time := by
  intros; unfold State.neutralBypass; split <;> simp

@[simp] theorem reverseFlow_cld_time : ∀ k s, (State.reverseFlow k s).cld.time = s.cld.time := by intros; simp [State.reverseFlow]

@[simp] theorem cycleDetectors_cld_time : ∀ s, (State.cycleDetectors s).cld.time = s.cld.time := by
  intros; simp [State.cycleDetectors]

@[simp] theorem wrongSequence_cld_time : ∀ k s, (State.wrongSequence k s).cld.time = s.cld.time := by
  intros; simp [State.wrongSequence]

@[simp] theorem dcPresent_cld_time : ∀ k s, (State.dcPresent k s).cld.time = s.cld.time := by intros; simp [State.dcPresent]

@[simp] theorem magnet_cld_time : ∀ s, (State.magnet s).cld.time = s.cld.time := by intros; simp [State.magnet]

@[simp] theorem blockDetectors_cld_time : ∀ s, (State.blockDetectors s).cld.time = s.cld.time := by
  intros; simp [State.blockDetectors]

@[simp] theorem startSet_cld_time : ∀ s, (State.startSet s).cld.time = s.cld.time := by intros; simp [State.startSet]

@[simp] theorem publishSet_cld_time : ∀ s, (State.publishSet s).cld.time = s.cld.time := by intros; simp [State.publishSet]

theorem execWbSetEnd_cld_time : ∀ s, ∃ t, execWbSetEnd s = .next t ∧ t.cld.time = s.cld.time := by
  intros; refine ⟨_, rfl, ?_⟩; simp

@[simp] theorem refill_cld_time : ∀ s, (State.refill s).cld.time = s.cld.time := by intros; unfold State.refill; split <;> simp

@[simp] theorem seal_cld_time : ∀ k s, (State.seal k s).cld.time = s.cld.time := by intros; unfold State.seal; split <;> simp

@[simp] theorem cut_cld_time : ∀ k m s, (State.cut k m s).cld.time = s.cld.time := by intros; simp [State.cut]

theorem execFolioSealed_cld_time : ∀ k s, ∃ t, execFolioSealed k s = .next t ∧ t.cld.time = s.cld.time := by
  intros; refine ⟨_, rfl, ?_⟩; simp

@[simp] theorem writeRecord_cld_time : ∀ k s, (State.writeRecord k s).cld.time = s.cld.time := by intros; simp [State.writeRecord]

@[simp] theorem writeCheckpoint_cld_time : ∀ s, (State.writeCheckpoint s).cld.time = s.cld.time := by
  intros; simp [State.writeCheckpoint]

@[simp] theorem checkpoint_cld_time : ∀ s, (State.checkpoint s).cld.time = s.cld.time := by intros; simp [State.checkpoint]

@[simp] theorem extraCheckpoint_cld_time : ∀ s, (State.extraCheckpoint s).cld.time = s.cld.time := by
  intros; simp [State.extraCheckpoint]

@[simp] theorem reloadCell_cld_time : ∀ k m s, (State.reloadCell k m s).cld.time = s.cld.time := by
  intros; unfold State.reloadCell; split <;> simp

@[simp] theorem lostInterval_cld_time : ∀ s, (State.lostInterval s).cld.time = s.cld.time := by intros; simp [State.lostInterval]

@[simp] theorem accLost_cld_time : ∀ k s, (State.accLost k s).cld.time = s.cld.time := by
  intros; unfold State.accLost; dsimp only; (repeat' split) <;> simp

@[simp] theorem fenceBank_cld_time : ∀ k s, (State.fenceBank k s).cld.time = s.cld.time := by intros; simp [State.fenceBank]

@[simp] theorem rewrite_cld_time : ∀ k m s, (State.rewrite k m s).cld.time = s.cld.time := by intros; simp [State.rewrite]

@[simp] theorem accError_cld_time : ∀ k m s, (State.accError k m s).cld.time = s.cld.time := by intros; simp [State.accError]

@[simp] theorem accErrors_cld_time : ∀ k s, (State.accErrors k s).cld.time = s.cld.time := by intros; simp [State.accErrors]

theorem execAccScrub_cld_time : ∀ k s, ∃ t, execAccScrub k s = .next t ∧ t.cld.time = s.cld.time := by
  intros; refine ⟨_, rfl, ?_⟩; simp

@[simp] theorem closeChannel_cld_time : ∀ k z n s, (State.closeChannel k z n s).cld.time = s.cld.time := by
  intros; simp [State.closeChannel]

@[simp] theorem closeBus_cld_time : ∀ k z n s, (State.closeBus k z n s).cld.time = s.cld.time := by intros; simp [State.closeBus]

@[simp] theorem close150_cld_time : ∀ k s, (State.close150 k s).cld.time = s.cld.time := by intros; simp [State.close150]

theorem execAggregateClose_cld_time : ∀ s, ∃ t, execAggregateClose s = .next t ∧ t.cld.time = s.cld.time := by
  intros; refine ⟨_, rfl, ?_⟩; simp

@[simp] theorem applyNomf_cld_time : ∀ s, (State.applyNomf s).cld.time = s.cld.time := by intros; simp [State.applyNomf]

@[simp] theorem asEnded_cld_time : ∀ s, (State.asEnded s).cld.time = s.cld.time := by intros; simp [State.asEnded]

@[simp] theorem closeBlock_cld_time : ∀ k s, (State.closeBlock k s).cld.time = s.cld.time := by intros; simp [State.closeBlock]

theorem execBlockClose_cld_time : ∀ s, ∃ t, execBlockClose s = .next t ∧ t.cld.time = s.cld.time := by
  intros; refine ⟨_, rfl, ?_⟩; simp

@[simp] theorem countedAggs_cld_time : ∀ s, (State.countedAggs s).cld.time = s.cld.time := by intros; simp [State.countedAggs]

@[simp] theorem tenMinuteTick_cld_time : ∀ s, (State.tenMinuteTick s).cld.time = s.cld.time := by
  intros; simp [State.tenMinuteTick]

theorem execTenMinuteTick_cld_time : ∀ s, ∃ t, execTenMinuteTick s = .next t ∧ t.cld.time = s.cld.time := by
  intros; refine ⟨_, rfl, ?_⟩; simp

@[simp] theorem frequencyClose_cld_time : ∀ s, (State.frequencyClose s).cld.time = s.cld.time := by
  intros; simp [State.frequencyClose]

theorem execFrequencyIntervalClose_cld_time : ∀ s, ∃ t, execFrequencyIntervalClose s = .next t ∧ t.cld.time = s.cld.time := by
  intros; refine ⟨_, rfl, ?_⟩; simp

@[simp] theorem changeUdin_cld_time : ∀ k s, (State.changeUdin k s).cld.time = s.cld.time := by intros; simp [State.changeUdin]

@[simp] theorem udinNow_cld_time : ∀ s, (State.udinNow s).cld.time = s.cld.time := by intros; simp [State.udinNow]

@[simp] theorem spoilFolio_cld_time : ∀ k m n s, (State.spoilFolio k m n s).cld.time = s.cld.time := by
  intros; simp [State.spoilFolio]

@[simp] theorem spoilRead_cld_time : ∀ k s, (State.spoilRead k s).cld.time = s.cld.time := by
  intros; unfold State.spoilRead; split <;> simp

@[simp] theorem noteUncorr_cld_time : ∀ k s, (State.noteUncorr k s).cld.time = s.cld.time := by intros; simp [State.noteUncorr]

@[simp] theorem readError_cld_time : ∀ k s, (State.readError k s).cld.time = s.cld.time := by intros; simp [State.readError]

@[simp] theorem onFolio_cld_time : ∀ k m n s q, (∀ x, (q x).cld.time = s.cld.time) → (State.onFolio k m n s q).cld.time = s.cld.time := by
  intros; unfold State.onFolio; (repeat' split) <;> simp [*]

theorem execFolioRead_cld_time : ∀ k m n p q s, ∃ t, execFolioRead k m n p q s = .next t ∧ t.cld.time = s.cld.time := by
  intros; refine ⟨_, rfl, ?_⟩; refine command_keeps (fun s => s.cld.time) _ _ (by simp) (by simp) ?_; intro s; simp

@[simp] theorem grant_cld_time : ∀ k m n s, (State.grant k m n s).1.cld.time = s.cld.time := by
  intros; unfold State.grant; dsimp only; (repeat' split) <;> simp

@[simp] theorem lease_cld_time : ∀ k m n s, (State.lease k m n s).1.cld.time = s.cld.time := by
  intros; unfold State.lease; (repeat' split) <;> simp

theorem execFolioLease_cld_time : ∀ k m n s, ∃ t, execFolioLease k m n s = .next t ∧ t.cld.time = s.cld.time := by
  intros; refine ⟨_, rfl, ?_⟩; simp

@[simp] theorem endLease_cld_time : ∀ k m s, (State.endLease k m s).cld.time = s.cld.time := by intros; simp [State.endLease]

@[simp] theorem renew_cld_time : ∀ k m n s, (State.renew k m n s).1.cld.time = s.cld.time := by
  intros; unfold State.renew; split <;> simp

theorem execFolioRenew_cld_time : ∀ k m n s, ∃ t, execFolioRenew k m n s = .next t ∧ t.cld.time = s.cld.time := by
  intros; refine ⟨_, rfl, ?_⟩; simp

@[simp] theorem release_cld_time : ∀ k m s, (State.release k m s).1.cld.time = s.cld.time := by
  intros; unfold State.release; split <;> simp

theorem execFolioRelease_cld_time : ∀ k m s, ∃ t, execFolioRelease k m s = .next t ∧ t.cld.time = s.cld.time := by
  intros; refine ⟨_, rfl, ?_⟩; simp

theorem execLeaseExpiry_cld_time : ∀ k m s, ∃ t, execLeaseExpiry k m s = .next t ∧ t.cld.time = s.cld.time := by
  intros; refine ⟨_, rfl, ?_⟩; simp

@[simp] theorem demandCut_cld_time : ∀ s, (State.demandCut s).1.cld.time = s.cld.time := by
  intros; unfold State.demandCut; split <;> simp

theorem execFolioCut_cld_time : ∀ k s, ∃ t, execFolioCut k s = .next t ∧ t.cld.time = s.cld.time := by
  intros; refine ⟨_, rfl, ?_⟩; simp

theorem execFolioSealGet_cld_time : ∀ k m s, ∃ t, execFolioSealGet k m s = .next t ∧ t.cld.time = s.cld.time := by
  intros; refine ⟨_, rfl, ?_⟩; simp

theorem execParamRead_cld_time : ∀ k m n s, ∃ t, execParamRead k m n s = .next t ∧ t.cld.time = s.cld.time := by
  intros; refine ⟨_, rfl, ?_⟩; simp

theorem execScRead_cld_time : ∀ k m n p s, ∃ t, execScRead k m n p s = .next t ∧ t.cld.time = s.cld.time := by
  intros; refine ⟨_, rfl, ?_⟩; simp

theorem execBlotRead_cld_time : ∀ k s, ∃ t, execBlotRead k s = .next t ∧ t.cld.time = s.cld.time := by
  intros; refine ⟨_, rfl, ?_⟩; simp

@[simp] theorem reject_cld_time : ∀ k m s, (State.reject k m s).cld.time = s.cld.time := by
  intros; unfold State.reject; split <;> simp

@[simp] theorem judgeAdmitted_cld_time : ∀ k s, (State.judgeAdmitted k s).1.cld.time = s.cld.time := by
  intros; unfold State.judgeAdmitted; dsimp only; (repeat' split) <;> simp

@[simp] theorem admitFrame_cld_time : ∀ k m n p s, (State.admitFrame k m n p s).cld.time = s.cld.time := by
  intros; unfold State.admitFrame; dsimp only; (repeat' split) <;> simp

@[simp] theorem judgeOpcode_cld_time : ∀ k m n p s, (State.judgeOpcode k m n p s).cld.time = s.cld.time := by
  intros; unfold State.judgeOpcode; (repeat' split) <;> simp

@[simp] theorem authFailure_cld_time : ∀ k m n s, (State.authFailure k m n s).cld.time = s.cld.time := by
  intros; simp [State.authFailure]

@[simp] theorem judgeSequence_cld_time : ∀ k m n p s, (State.judgeSequence k m n p s).cld.time = s.cld.time := by
  intros; simp [State.judgeSequence]

@[simp] theorem judgeSession_cld_time : ∀ k m n p s, (State.judgeSession k m n p s).cld.time = s.cld.time := by
  intros; unfold State.judgeSession; (repeat' split) <;> simp

@[simp] theorem judgeFrame_cld_time : ∀ k m s, (State.judgeFrame k m s).cld.time = s.cld.time := by
  intros; unfold State.judgeFrame; dsimp only; (repeat' split) <;> simp

@[simp] theorem frameReceive_cld_time : ∀ k m s, (State.frameReceive k m s).cld.time = s.cld.time := by
  intros; unfold State.frameReceive; (repeat' split) <;> simp

theorem execFrameReceive_cld_time : ∀ k m n s, ∃ t, execFrameReceive k m n s = .next t ∧ t.cld.time = s.cld.time := by
  intros; refine ⟨_, rfl, ?_⟩; simp

@[simp] theorem alarmEvent_cld_time : ∀ k m s, (State.alarmEvent k m s).cld.time = s.cld.time := by
  intros; simp [State.alarmEvent]

@[simp] theorem alarmFire_cld_time : ∀ k m n p s, (State.alarmFire k m n p s).cld.time = s.cld.time := by
  intros; simp [State.alarmFire]

@[simp] theorem alarmForward_cld_time : ∀ k m n p s, (State.alarmForward k m n p s).cld.time = s.cld.time := by
  intros; unfold State.alarmForward; dsimp only; (repeat' split) <;> simp

@[simp] theorem alarmsAtStep_cld_time : ∀ k m n s, (State.alarmsAtStep k m n s).cld.time = s.cld.time := by
  intros; simp [State.alarmsAtStep]

@[simp] theorem badSet_cld_time : ∀ s, (State.badSet s).cld.time = s.cld.time := by intros; simp [State.badSet]

@[simp] theorem cldAdjusted_cld_time : ∀ k m n s, (State.cldAdjusted k m n s).cld.time = s.cld.time := by
  intros; simp [State.cldAdjusted]

@[simp] theorem adjustSlew_cld_time : ∀ k m n s, (State.adjustSlew k m n s).cld.time = s.cld.time := by
  intros; simp [State.adjustSlew]

theorem execCldAdjustSlew_cld_time : ∀ k m n s, ∃ t, execCldAdjustSlew k m n s = .next t ∧ t.cld.time = s.cld.time := by
  intros; refine ⟨_, rfl, ?_⟩; simp

theorem execCldAlarmAck_cld_time : ∀ k m s, ∃ t, execCldAlarmAck k m s = .next t ∧ t.cld.time = s.cld.time := by
  intros; refine ⟨_, rfl, ?_⟩; simp

theorem execCalStopped_cld_time : ∀ s, ∃ t, execCalStopped s = .next t ∧ t.cld.time = s.cld.time := by
  intros; refine ⟨_, rfl, ?_⟩; simp

theorem execSlewEnd_cld_time : ∀ s, ∃ t, execSlewEnd s = .next t ∧ t.cld.time = s.cld.time := by intros; refine ⟨_, rfl, ?_⟩; simp

@[simp] theorem demandClose_cld_time : ∀ k s, (State.demandClose k s).cld.time = s.cld.time := by intros; simp [State.demandClose]

theorem execDemandClose_cld_time : ∀ k s, ∃ t, execDemandClose k s = .next t ∧ t.cld.time = s.cld.time := by
  intros; refine ⟨_, rfl, ?_⟩; simp

@[simp] theorem applyProfEn_cld_time : ∀ s, (State.applyProfEn s).cld.time = s.cld.time := by intros; simp [State.applyProfEn]

@[simp] theorem openProfile_cld_time : ∀ k s, (State.openProfile k s).cld.time = s.cld.time := by intros; simp [State.openProfile]

@[simp] theorem countLost_cld_time : ∀ k s, (State.countLost k s).cld.time = s.cld.time := by
  intros; unfold State.countLost; split <;> simp

@[simp] theorem loseRecords_cld_time : ∀ k s, (State.loseRecords k s).cld.time = s.cld.time := by
  intros; unfold State.loseRecords; split <;> simp

@[simp] theorem writeGroup_cld_time : ∀ k s, (State.writeGroup k s).cld.time = s.cld.time := by intros; simp [State.writeGroup]

@[simp] theorem profileClose_cld_time : ∀ k s, (State.profileClose k s).cld.time = s.cld.time := by
  intros; simp [State.profileClose]

theorem execProfileClose_cld_time : ∀ s, ∃ t, execProfileClose s = .next t ∧ t.cld.time = s.cld.time := by
  intros; refine ⟨_, rfl, ?_⟩; simp

@[simp] theorem residual_cld_time : ∀ k m n p q s, (State.residual k m n p q s).cld.time = s.cld.time := by
  intros; simp [State.residual]

@[simp] theorem balanceClose_cld_time : ∀ k m s, (State.balanceClose k m s).cld.time = s.cld.time := by
  intros; simp [State.balanceClose]

theorem execBalanceClose_cld_time : ∀ k s, ∃ t, execBalanceClose k s = .next t ∧ t.cld.time = s.cld.time := by
  intros; refine ⟨_, rfl, ?_⟩; simp

@[simp] theorem switchRef_cld_time : ∀ k m s, (State.switchRef k m s).cld.time = s.cld.time := by intros; simp [State.switchRef]

@[simp] theorem enterFreerun_cld_time : ∀ s, (State.enterFreerun s).cld.time = s.cld.time := by intros; simp [State.enterFreerun]

@[simp] theorem enterHoldover_cld_time : ∀ k s, (State.enterHoldover k s).cld.time = s.cld.time := by
  intros; simp [State.enterHoldover]

@[simp] theorem chooseRef_cld_time : ∀ k m n s, (State.chooseRef k m n s).cld.time = s.cld.time := by
  intros; unfold State.chooseRef; dsimp only; (repeat' split) <;> simp

@[simp] theorem judgeLock_cld_time : ∀ s, (State.judgeLock s).cld.time = s.cld.time := by
  intros; unfold State.judgeLock; dsimp only; (repeat' split) <;> simp

@[simp] theorem closeTimebase_cld_time : ∀ s, (State.closeTimebase s).cld.time = s.cld.time := by
  intros; simp [State.closeTimebase]

@[simp] theorem absorbDelay_cld_time : ∀ k m s, (State.absorbDelay k m s).cld.time = s.cld.time := by
  intros; unfold State.absorbDelay; split <;> simp

theorem execFreerunEntry_cld_time : ∀ s, ∃ t, execFreerunEntry s = .next t ∧ t.cld.time = s.cld.time := by
  intros; refine ⟨_, rfl, ?_⟩; split <;> simp

theorem execLsyncEdge_cld_time : ∀ k m s, ∃ t, execLsyncEdge k m s = .next t ∧ t.cld.time = s.cld.time := by
  intros; refine ⟨_, rfl, ?_⟩; simp

theorem execLsyncTimeout_cld_time : ∀ s, ∃ t, execLsyncTimeout s = .next t ∧ t.cld.time = s.cld.time := by
  intros; refine ⟨_, rfl, ?_⟩; simp

@[simp] theorem convert_cld_time : ∀ k m s, (State.convert k m s).cld.time = s.cld.time := by intros; simp [State.convert]

@[simp] theorem reconcile_cld_time : ∀ k s, (State.reconcile k s).cld.time = s.cld.time := by intros; simp [State.reconcile]

@[simp] theorem firstCommit_cld_time : ∀ k s, (State.firstCommit k s).cld.time = s.cld.time := by intros; simp [State.firstCommit]

@[simp] theorem commitSet_cld_time : ∀ k s, (State.commitSet k s).cld.time = s.cld.time := by intros; simp [State.commitSet]

@[simp] theorem commitBoundary_cld_time : ∀ s, (State.commitBoundary s).cld.time = s.cld.time := by
  intros; unfold State.commitBoundary; split <;> simp

@[simp] theorem reloadCal_cld_time : ∀ s, (State.reloadCal s).cld.time = s.cld.time := by intros; simp [State.reloadCal]

@[simp] theorem calParity_cld_time : ∀ k s, (State.calParity k s).cld.time = s.cld.time := by intros; simp [State.calParity]

@[simp] theorem resolvePoint_cld_time : ∀ k m s, (State.resolvePoint k m s).cld.time = s.cld.time := by
  intros; simp [State.resolvePoint]

@[simp] theorem resolveOne_cld_time : ∀ k s, (State.resolveOne k s).cld.time = s.cld.time := by intros; simp [State.resolveOne]

@[simp] theorem resolveBoundary_cld_time : ∀ s, (State.resolveBoundary s).cld.time = s.cld.time := by
  intros; simp [State.resolveBoundary]

@[simp] theorem resetDemand_cld_time : ∀ k s, (State.resetDemand k s).cld.time = s.cld.time := by intros; simp [State.resetDemand]

@[simp] theorem resetReply_cld_time : ∀ k s, (State.resetReply k s).cld.time = s.cld.time := by intros; simp [State.resetReply]

@[simp] theorem resetBoundary_cld_time : ∀ s, (State.resetBoundary s).cld.time = s.cld.time := by
  intros; simp [State.resetBoundary]

@[simp] theorem dropOldWindows_cld_time : ∀ s, (State.dropOldWindows s).cld.time = s.cld.time := by
  intros; simp [State.dropOldWindows]

theorem execDemandReset_cld_time : ∀ k m s, ∃ t, execDemandReset k m s = .next t ∧ t.cld.time = s.cld.time := by
  intros; refine ⟨_, rfl, ?_⟩; simp

theorem execCalCommit_cld_time : ∀ k m s, ∃ t, execCalCommit k m s = .next t ∧ t.cld.time = s.cld.time := by
  intros; refine ⟨_, rfl, ?_⟩; simp

theorem execCalPendingRead_cld_time : ∀ k m n s, ∃ t, execCalPendingRead k m n s = .next t ∧ t.cld.time = s.cld.time := by
  intros; refine ⟨_, rfl, ?_⟩; split <;> simp

theorem execCalPendingResolve_cld_time : ∀ k m n s, ∃ t, execCalPendingResolve k m n s = .next t ∧ t.cld.time = s.cld.time := by
  intros; refine ⟨_, rfl, ?_⟩; simp

theorem execPulseTest_cld_time : ∀ k m n p s, ∃ t, execPulseTest k m n p s = .next t ∧ t.cld.time = s.cld.time := by
  intros; refine ⟨_, rfl, ?_⟩; simp

@[simp] theorem pulseSample_cld_time : ∀ k m s, (State.pulseSample k m s).cld.time = s.cld.time := by
  intros; simp [State.pulseSample]

@[simp] theorem pulseClose_cld_time : ∀ k s, (State.pulseClose k s).cld.time = s.cld.time := by intros; simp [State.pulseClose]

@[simp] theorem rebase_cld_time : ∀ k s, (State.rebase k s).cld.time = s.cld.time := by intros; simp [State.rebase]

theorem execPulseLeadingEdge_cld_time : ∀ k s, ∃ t, execPulseLeadingEdge k s = .next t ∧ t.cld.time = s.cld.time := by
  intros; refine ⟨_, rfl, ?_⟩; split <;> simp

theorem execPulseTrailingEdge_cld_time : ∀ k s, ∃ t, execPulseTrailingEdge k s = .next t ∧ t.cld.time = s.cld.time := by
  intros; refine ⟨_, rfl, ?_⟩; simp

@[simp] theorem halfEnd_cld_time : ∀ k s, (State.halfEnd k s).cld.time = s.cld.time := by intros; simp [State.halfEnd]

@[simp] theorem keepBatch_cld_time : ∀ k m s, (State.keepBatch k m s).cld.time = s.cld.time := by intros; simp [State.keepBatch]

@[simp] theorem takeBatch_cld_time : ∀ k s, (State.takeBatch k s).cld.time = s.cld.time := by intros; simp [State.takeBatch]

@[simp] theorem sampleBatch_cld_time : ∀ k m s, (State.sampleBatch k m s).cld.time = s.cld.time := by
  intros; simp [State.sampleBatch]

theorem execSampleBatch_cld_time : ∀ k m s, ∃ t, execSampleBatch k m s = .next t ∧ t.cld.time = s.cld.time := by
  intros; refine ⟨_, rfl, ?_⟩; simp

@[simp] theorem replayBatch_cld_time : ∀ k s, (State.replayBatch k s).cld.time = s.cld.time := by intros; simp [State.replayBatch]

@[simp] theorem replayFrom_cld_time : ∀ k s, (State.replayFrom k s).cld.time = s.cld.time := by
  intros; unfold State.replayFrom; split <;> simp

@[simp] theorem metrologyReplay_cld_time : ∀ k m n s, (State.metrologyReplay k m n s).cld.time = s.cld.time := by
  intros; simp [State.metrologyReplay]

theorem execMetrologyReplay_cld_time : ∀ k m n s, ∃ t, execMetrologyReplay k m n s = .next t ∧ t.cld.time = s.cld.time := by
  intros; refine ⟨_, rfl, ?_⟩; simp

@[simp] theorem noteCommit_cld_time : ∀ s, (State.noteCommit s).cld.time = s.cld.time := by intros; simp [State.noteCommit]

@[simp] theorem markSteps_cld_time : ∀ s, (State.markSteps s).cld.time = s.cld.time := by intros; simp [State.markSteps]

@[simp] theorem channelsToBlock_cld_time : ∀ s, (State.channelsToBlock s).cld.time = s.cld.time := by
  intros; simp [State.channelsToBlock]

@[simp] theorem closeQuantities_cld_time : ∀ k s, (State.closeQuantities k s).cld.time = s.cld.time := by
  intros; simp [State.closeQuantities]

@[simp] theorem boundaryImage_cld_time : ∀ k s, (State.boundaryImage k s).cld.time = s.cld.time := by
  intros; simp [State.boundaryImage]

@[simp] theorem turnCycle_cld_time : ∀ s, (State.turnCycle s).cld.time = s.cld.time := by intros; simp [State.turnCycle]

@[simp] theorem enforce_cld_time : ∀ k s, (State.enforce k s).cld.time = s.cld.time := by intros; simp [State.enforce]

@[simp] theorem changeDemand_cld_time : ∀ k s, (State.changeDemand k s).cld.time = s.cld.time := by
  intros; simp [State.changeDemand]

@[simp] theorem closeChanged_cld_time : ∀ k s, (State.closeChanged k s).cld.time = s.cld.time := by
  intros
  unfold State.closeChanged
  exact chain_cld_time _ _ _ (by intro x s; dsimp only; split <;> simp)

@[simp] theorem afterSettings_cld_time : ∀ k m n s, (State.afterSettings k m n s).cld.time = s.cld.time := by
  intros
  unfold State.afterSettings
  dsimp only
  rw [chain_cld_time _ _ _ (by intro x s; simp), chain_cld_time _ _ _ (by intro x s; split <;> simp)]

@[simp] theorem applySettings_cld_time : ∀ s, (State.applySettings s).cld.time = s.cld.time := by
  intros; simp [State.applySettings]

@[simp] theorem trimsBoundary_cld_time : ∀ s, (State.trimsBoundary s).cld.time = s.cld.time := by
  intros; unfold State.trimsBoundary; dsimp only; split <;> simp

@[simp] theorem saveBoundary_cld_time : ∀ s, (State.saveBoundary s).cld.time = s.cld.time := by
  intros; unfold State.saveBoundary; split <;> simp

@[simp] theorem bankBoundary_cld_time : ∀ s, (State.bankBoundary s).cld.time = s.cld.time := by intros; simp [State.bankBoundary]

@[simp] theorem boundaryEffects_cld_time : ∀ s, (State.boundaryEffects s).cld.time = s.cld.time := by
  intros; simp [State.boundaryEffects]

@[simp] theorem closeSteps_cld_time : ∀ k s, (State.closeSteps k s).cld.time = s.cld.time := by intros; simp [State.closeSteps]

@[simp] theorem cutAsked_cld_time : ∀ s, (State.cutAsked s).cld.time = s.cld.time := by intros; simp [State.cutAsked]

@[simp] theorem closureRecord_cld_time : ∀ s, (State.closureRecord s).cld.time = s.cld.time := by
  intros; simp [State.closureRecord]

@[simp] theorem openNext_cld_time : ∀ s, (State.openNext s).cld.time = s.cld.time := by intros; simp [State.openNext]

@[simp] theorem cycleClose_cld_time : ∀ k s, (State.cycleClose k s).cld.time = s.cld.time := by intros; simp [State.cycleClose]

theorem execCycleClose_cld_time : ∀ k s, ∃ t, execCycleClose k s = .next t ∧ t.cld.time = s.cld.time := by
  intros; refine ⟨_, rfl, ?_⟩; simp

theorem execBlotClear_cld_time : ∀ k m s, ∃ t, execBlotClear k m s = .next t ∧ t.cld.time = s.cld.time := by
  intros; refine ⟨_, rfl, ?_⟩; simp

theorem execBankEnter_cld_time : ∀ k s, ∃ t, execBankEnter k s = .next t ∧ t.cld.time = s.cld.time := by
  intros; refine ⟨_, rfl, ?_⟩; refine command_keeps (fun s => s.cld.time) _ _ (by simp) (by simp) ?_; intro s; dsimp only; (repeat' split) <;> simp

theorem execBankExit_cld_time : ∀ k s, ∃ t, execBankExit k s = .next t ∧ t.cld.time = s.cld.time := by
  intros; refine ⟨_, rfl, ?_⟩; simp

theorem execSoftReset_cld_time : ∀ k m s, ∃ t, execSoftReset k m s = .next t ∧ t.cld.time = s.cld.time := by
  intros; refine ⟨_, rfl, ?_⟩; simp

theorem execCfgSave_cld_time : ∀ k s, ∃ t, execCfgSave k s = .next t ∧ t.cld.time = s.cld.time := by
  intros; refine ⟨_, rfl, ?_⟩; simp

theorem execInkLock_cld_time : ∀ k m s, ∃ t, execInkLock k m s = .next t ∧ t.cld.time = s.cld.time := by
  intros; refine ⟨_, rfl, ?_⟩; simp

@[simp] theorem endLock_cld_time : ∀ s, (State.endLock s).cld.time = s.cld.time := by intros; unfold State.endLock; split <;> simp

theorem execInkUnlock_cld_time : ∀ k s, ∃ t, execInkUnlock k s = .next t ∧ t.cld.time = s.cld.time := by
  intros; refine ⟨_, rfl, ?_⟩; simp

theorem execInkLockExpiry_cld_time : ∀ s, ∃ t, execInkLockExpiry s = .next t ∧ t.cld.time = s.cld.time := by
  intros; refine ⟨_, rfl, ?_⟩; simp

@[simp] theorem eventRead_cld_time : ∀ k m s, (State.eventRead k m s).cld.time = s.cld.time := by intros; simp [State.eventRead]

theorem execEventRead_cld_time : ∀ k m s, ∃ t, execEventRead k m s = .next t ∧ t.cld.time = s.cld.time := by
  intros; refine ⟨_, rfl, ?_⟩; simp

theorem execEventAck_cld_time : ∀ k m s, ∃ t, execEventAck k m s = .next t ∧ t.cld.time = s.cld.time := by
  intros; refine ⟨_, rfl, ?_⟩; simp

@[simp] theorem profileRead_cld_time : ∀ k m n s, (State.profileRead k m n s).cld.time = s.cld.time := by
  intros; simp [State.profileRead]

theorem execProfileRead_cld_time : ∀ k m n s, ∃ t, execProfileRead k m n s = .next t ∧ t.cld.time = s.cld.time := by
  intros; refine ⟨_, rfl, ?_⟩; simp

theorem execProfileAck_cld_time : ∀ k m s, ∃ t, execProfileAck k m s = .next t ∧ t.cld.time = s.cld.time := by
  intros; refine ⟨_, rfl, ?_⟩; simp

theorem execWbRead_cld_time : ∀ k m n p s, ∃ t, execWbRead k m n p s = .next t ∧ t.cld.time = s.cld.time := by
  intros; refine ⟨_, rfl, ?_⟩; refine command_keeps (fun s => s.cld.time) _ _ (by simp) (by simp) ?_; intro s; (repeat' split) <;> simp

theorem execCapRead_cld_time : ∀ k m n p s, ∃ t, execCapRead k m n p s = .next t ∧ t.cld.time = s.cld.time := by
  intros; refine ⟨_, rfl, ?_⟩; refine command_keeps (fun s => s.cld.time) _ _ (by simp) (by simp) ?_; intro s; dsimp only; (repeat' split) <;> simp

theorem execCapTrigger_cld_time : ∀ k s, ∃ t, execCapTrigger k s = .next t ∧ t.cld.time = s.cld.time := by
  intros; refine ⟨_, rfl, ?_⟩; refine command_keeps (fun s => s.cld.time) _ _ (by simp) (by simp) ?_; intro s; dsimp only; (repeat' split) <;> simp

theorem execCapRelease_cld_time : ∀ k m s, ∃ t, execCapRelease k m s = .next t ∧ t.cld.time = s.cld.time := by
  intros; refine ⟨_, rfl, ?_⟩; refine command_keeps (fun s => s.cld.time) _ _ (by simp) (by simp) ?_; intro s; dsimp only; (repeat' split) <;> simp

@[simp] theorem logRead_cld_time : ∀ k m n s, (State.logRead k m n s).cld.time = s.cld.time := by intros; simp [State.logRead]

theorem execLogRead_cld_time : ∀ k m n s, ∃ t, execLogRead k m n s = .next t ∧ t.cld.time = s.cld.time := by
  intros; refine ⟨_, rfl, ?_⟩; simp

@[simp] theorem writeLog_cld_time : ∀ s, (State.writeLog s).cld.time = s.cld.time := by
  intros; unfold State.writeLog; dsimp only; (repeat' split) <;> simp

@[simp] theorem fillLog_cld_time : ∀ k s, (State.fillLog k s).cld.time = s.cld.time := by
  intro k s
  induction k generalizing s with
  | zero => rfl
  | succ k ih => unfold State.fillLog; split <;> simp [*]

@[simp] theorem logEcc_cld_time : ∀ k s, (State.logEcc k s).cld.time = s.cld.time := by intros; simp [State.logEcc]

theorem execEventLogWrite_cld_time : ∀ k s, ∃ t, execEventLogWrite k s = .next t ∧ t.cld.time = s.cld.time := by
  intros; refine ⟨_, rfl, ?_⟩; (repeat' split) <;> simp

@[simp] theorem onSlot_cld_time : ∀ k m s, (State.onSlot k m s).cld.time = s.cld.time := by intros; simp [State.onSlot]

@[simp] theorem fwCommand_cld_time : ∀ k m s p, (∀ x, (p x).cld.time = x.cld.time) → (State.fwCommand k m s p).cld.time = s.cld.time := by
  intros; unfold State.fwCommand; (repeat' split) <;> simp [*]

@[simp] theorem fwState_cld_time : ∀ k s, (State.fwState k s).cld.time = s.cld.time := by intros; simp [State.fwState]

theorem execFwBegin_cld_time : ∀ k m s, ∃ t, execFwBegin k m s = .next t ∧ t.cld.time = s.cld.time := by
  intros; refine ⟨_, rfl, ?_⟩; simp

theorem execFwWrite_cld_time : ∀ k m n s, ∃ t, execFwWrite k m n s = .next t ∧ t.cld.time = s.cld.time := by
  intros; refine ⟨_, rfl, ?_⟩; simp

theorem execFwVerify_cld_time : ∀ k s, ∃ t, execFwVerify k s = .next t ∧ t.cld.time = s.cld.time := by
  intros; refine ⟨_, rfl, ?_⟩; simp

@[simp] theorem restartCores_cld_time : ∀ s, (State.restartCores s).cld.time = s.cld.time := by intros; simp [State.restartCores]

@[simp] theorem noteRecovery_cld_time : ∀ s, (State.noteRecovery s).cld.time = s.cld.time := by intros; simp [State.noteRecovery]

@[simp] theorem revert_cld_time : ∀ k s, (State.revert k s).cld.time = s.cld.time := by intros; simp [State.revert]

@[simp] theorem revertOrHold_cld_time : ∀ k s, (State.revertOrHold k s).cld.time = s.cld.time := by
  intros; simp [State.revertOrHold]

@[simp] theorem bootSlot_cld_time : ∀ s, (State.bootSlot s).cld.time = s.cld.time := by intros; simp [State.bootSlot]

@[simp] theorem spoilSlot_cld_time : ∀ k s, (State.spoilSlot k s).cld.time = s.cld.time := by intros; simp [State.spoilSlot]

@[simp] theorem loadCores_cld_time : ∀ k m s, (State.loadCores k m s).cld.time = s.cld.time := by intros; simp [State.loadCores]

@[simp] theorem restartAnvil_cld_time : ∀ k s, (State.restartAnvil k s).cld.time = s.cld.time := by
  intros; simp [State.restartAnvil]

@[simp] theorem selfCheck_cld_time : ∀ s, (State.selfCheck s).cld.time = s.cld.time := by intros; simp [State.selfCheck]

@[simp] theorem switchSlot_cld_time : ∀ k s, (State.switchSlot k s).cld.time = s.cld.time := by intros; simp [State.switchSlot]

theorem execFwActivate_cld_time : ∀ k s, ∃ t, execFwActivate k s = .next t ∧ t.cld.time = s.cld.time := by
  intros; refine ⟨_, rfl, ?_⟩; simp

@[simp] theorem commitTrial_cld_time : ∀ s, (State.commitTrial s).cld.time = s.cld.time := by intros; simp [State.commitTrial]

theorem execFwTrialEnd_cld_time : ∀ s, ∃ t, execFwTrialEnd s = .next t ∧ t.cld.time = s.cld.time := by
  intros; refine ⟨_, rfl, ?_⟩; simp

@[simp] theorem heldWrites_cld_time : ∀ s, (State.heldWrites s).cld.time = s.cld.time := by
  intros; unfold State.heldWrites; split <;> simp

@[simp] theorem sramError_cld_time : ∀ k s, (State.sramError k s).cld.time = s.cld.time := by
  intros; unfold State.sramError; split <;> simp

theorem execSramScrub_cld_time : ∀ k s, ∃ t, execSramScrub k s = .next t ∧ t.cld.time = s.cld.time := by
  intros; refine ⟨_, rfl, ?_⟩; simp

@[simp] theorem changeRef_cld_time : ∀ k s, (State.changeRef k s).cld.time = s.cld.time := by intros; simp [State.changeRef]

@[simp] theorem xtalFail_cld_time : ∀ s, (State.xtalFail s).cld.time = s.cld.time := by intros; simp [State.xtalFail]

theorem execXtalFail_cld_time : ∀ s, ∃ t, execXtalFail s = .next t ∧ t.cld.time = s.cld.time := by
  intros; refine ⟨_, rfl, ?_⟩; simp

theorem execXtalRate_cld_time : ∀ k s, ∃ t, execXtalRate k s = .next t ∧ t.cld.time = s.cld.time := by
  intros; refine ⟨_, rfl, ?_⟩; simp

@[simp] theorem xtalReturn_cld_time : ∀ s, (State.xtalReturn s).cld.time = s.cld.time := by intros; simp [State.xtalReturn]

theorem execXtalReturn_cld_time : ∀ s, ∃ t, execXtalReturn s = .next t ∧ t.cld.time = s.cld.time := by
  intros; refine ⟨_, rfl, ?_⟩; simp

theorem execCrystalAccepted_cld_time : ∀ s, ∃ t, execCrystalAccepted s = .next t ∧ t.cld.time = s.cld.time := by
  intros; refine ⟨_, rfl, ?_⟩; simp

theorem execXtalStartTimeout_cld_time : ∀ s, ∃ t, execXtalStartTimeout s = .next t ∧ t.cld.time = s.cld.time := by
  intros; refine ⟨_, rfl, ?_⟩; simp

@[simp] theorem addCause_cld_time : ∀ k s, (State.addCause k s).cld.time = s.cld.time := by intros; simp [State.addCause]

@[simp] theorem shed_cld_time : ∀ s, (State.shed s).cld.time = s.cld.time := by intros; simp [State.shed]

@[simp] theorem warn_cld_time : ∀ k m s, (State.warn k m s).cld.time = s.cld.time := by intros; simp [State.warn]

@[simp] theorem warnAgain_cld_time : ∀ k m s, (State.warnAgain k m s).cld.time = s.cld.time := by intros; simp [State.warnAgain]

theorem execPowerFail_cld_time : ∀ k m s, ∃ t, execPowerFail k m s = .next t ∧ t.cld.time = s.cld.time := by
  intros; refine ⟨_, rfl, ?_⟩; simp

@[simp] theorem writeEntry_cld_time : ∀ k s, (State.writeEntry k s).cld.time = s.cld.time := by intros; simp [State.writeEntry]

@[simp] theorem presentEntry_cld_time : ∀ s, (State.presentEntry s).cld.time = s.cld.time := by intros; simp [State.presentEntry]

@[simp] theorem journalEntry_cld_time : ∀ s, (State.journalEntry s).cld.time = s.cld.time := by
  intros; unfold State.journalEntry; (repeat' split) <;> simp

theorem execJournalEntry_cld_time : ∀ s, ∃ t, execJournalEntry s = .next t ∧ t.cld.time = s.cld.time := by
  intros; refine ⟨_, rfl, ?_⟩; simp

@[simp] theorem tailUpdate_cld_time : ∀ s, (State.tailUpdate s).cld.time = s.cld.time := by
  intros; unfold State.tailUpdate; split <;> simp

theorem execTailUpdate_cld_time : ∀ s, ∃ t, execTailUpdate s = .next t ∧ t.cld.time = s.cld.time := by
  intros; refine ⟨_, rfl, ?_⟩; simp

theorem execJournalErase_cld_time : ∀ k s, ∃ t, execJournalErase k s = .next t ∧ t.cld.time = s.cld.time := by
  intros; refine ⟨_, rfl, ?_⟩; simp

theorem execPfSustained_cld_time : ∀ s, ∃ t, execPfSustained s = .next t ∧ t.cld.time = s.cld.time := by
  intros; refine ⟨_, rfl, ?_⟩; simp

@[simp] theorem pfRecovered_cld_time : ∀ s, (State.pfRecovered s).cld.time = s.cld.time := by intros; simp [State.pfRecovered]

theorem execPfRecovered_cld_time : ∀ s, ∃ t, execPfRecovered s = .next t ∧ t.cld.time = s.cld.time := by
  intros; refine ⟨_, rfl, ?_⟩; simp

@[simp] theorem resetCause_cld_time : ∀ k s, (State.resetCause k s).cld.time = s.cld.time := by intros; simp [State.resetCause]

@[simp] theorem coldReset_cld_time : ∀ k m s, (State.coldReset k m s).cld.time = s.cld.time := by intros; simp [State.coldReset]

@[simp] theorem coldTrims_cld_time : ∀ k s, (State.coldTrims k s).cld.time = s.cld.time := by intros; simp [State.coldTrims]

theorem execBrownout_cld_time : ∀ s, ∃ t, execBrownout s = .next t ∧ t.cld.time = s.cld.time := by
  intros; refine ⟨_, rfl, ?_⟩; simp

@[simp] theorem begin_cld_time : ∀ k m s, (State.begin_ k m s).cld.time = s.cld.time := by intros; simp [State.begin_]

theorem execPor_cld_time : ∀ k m s, ∃ t, execPor k m s = .next t ∧ t.cld.time = s.cld.time := by intros; refine ⟨_, rfl, ?_⟩; simp

@[simp] theorem resetEntry_cld_time : ∀ s, (State.resetEntry s).cld.time = s.cld.time := by intros; simp [State.resetEntry]

theorem execResetnCold_cld_time : ∀ s, ∃ t, execResetnCold s = .next t ∧ t.cld.time = s.cld.time := by
  intros; refine ⟨_, rfl, ?_⟩; simp

theorem execResetnRelease_cld_time : ∀ k m s, ∃ t, execResetnRelease k m s = .next t ∧ t.cld.time = s.cld.time := by
  intros; refine ⟨_, rfl, ?_⟩; simp

@[simp] theorem flushAll_cld_time : ∀ s, (State.flushAll s).cld.time = s.cld.time := by intros; simp [State.flushAll]

@[simp] theorem loseWaiting_cld_time : ∀ s, (State.loseWaiting s).cld.time = s.cld.time := by intros; simp [State.loseWaiting]

@[simp] theorem warmReset_cld_time : ∀ s, (State.warmReset s).cld.time = s.cld.time := by intros; simp [State.warmReset]

@[simp] theorem restartStartup_cld_time : ∀ s, (State.restartStartup s).cld.time = s.cld.time := by
  intros; simp [State.restartStartup]

theorem execResetnWarm_cld_time : ∀ k m s, ∃ t, execResetnWarm k m s = .next t ∧ t.cld.time = s.cld.time := by
  intros; refine ⟨_, rfl, ?_⟩; simp

@[simp] theorem anvWdog_cld_time : ∀ k m s, (State.anvWdog k m s).cld.time = s.cld.time := by intros; simp [State.anvWdog]

theorem execAnvWdog_cld_time : ∀ k m s, ∃ t, execAnvWdog k m s = .next t ∧ t.cld.time = s.cld.time := by
  intros; refine ⟨_, rfl, ?_⟩; simp

theorem execSpiPortReset_cld_time : ∀ k s, ∃ t, execSpiPortReset k s = .next t ∧ t.cld.time = s.cld.time := by
  intros; refine ⟨_, rfl, ?_⟩; split <;> simp

theorem execBrk_cld_time : ∀ k s, ∃ t, execBrk k s = .next t ∧ t.cld.time = s.cld.time := by intros; refine ⟨_, rfl, ?_⟩; simp

theorem execVaonChangeover_cld_time : ∀ k s, ∃ t, execVaonChangeover k s = .next t ∧ t.cld.time = s.cld.time := by
  intros; refine ⟨_, rfl, ?_⟩; simp

@[simp] theorem resume_cld_time : ∀ k s, (State.resume k s).cld.time = s.cld.time := by intros; simp [State.resume]

@[simp] theorem restoreRecord_cld_time : ∀ k s, (State.restoreRecord k s).cld.time = s.cld.time := by
  intros; simp [State.restoreRecord]

@[simp] theorem fallBack_cld_time : ∀ k s, (State.fallBack k s).cld.time = s.cld.time := by intros; simp [State.fallBack]

@[simp] theorem enterHeld_cld_time : ∀ s, (State.enterHeld s).cld.time = s.cld.time := by intros; simp [State.enterHeld]

@[simp] theorem journalRestored_cld_time : ∀ k s, (State.journalRestored k s).cld.time = s.cld.time := by
  intros; unfold State.journalRestored; dsimp only; (repeat' split) <;> simp

theorem execJournalRestored_cld_time : ∀ k s, ∃ t, execJournalRestored k s = .next t ∧ t.cld.time = s.cld.time := by
  intros; refine ⟨_, rfl, ?_⟩; simp

@[simp] theorem testSpare_cld_time : ∀ k m s, (State.testSpare k m s).cld.time = s.cld.time := by intros; simp [State.testSpare]

@[simp] theorem testChan_cld_time : ∀ k m s, (State.testChan k m s).cld.time = s.cld.time := by intros; simp [State.testChan]

@[simp] theorem testEngines_cld_time : ∀ k m s, (State.testEngines k m s).cld.time = s.cld.time := by
  intros; unfold State.testEngines; dsimp only; (repeat' split) <;> simp

theorem execStartUpTest_cld_time : ∀ k m n s, ∃ t, execStartUpTest k m n s = .next t ∧ t.cld.time = s.cld.time := by
  intros; refine ⟨_, rfl, ?_⟩; simp

theorem execPortsReady_cld_time : ∀ s, ∃ t, execPortsReady s = .next t ∧ t.cld.time = s.cld.time := by
  intros; refine ⟨_, rfl, ?_⟩; simp

@[simp] theorem checkImage_cld_time : ∀ k m s, (State.checkImage k m s).cld.time = s.cld.time := by
  intros; unfold State.checkImage; split <;> simp

@[simp] theorem applyImage_cld_time : ∀ k m s, (State.applyImage k m s).cld.time = s.cld.time := by
  intros; simp [State.applyImage]

@[simp] theorem configured_cld_time : ∀ k s, (State.configured k s).cld.time = s.cld.time := by intros; simp [State.configured]

@[simp] theorem configRestore_cld_time : ∀ k m s, (State.configRestore k m s).cld.time = s.cld.time := by
  intros; unfold State.configRestore; dsimp only; (repeat' split) <;> simp

theorem execConfigRestore_cld_time : ∀ k m s, ∃ t, execConfigRestore k m s = .next t ∧ t.cld.time = s.cld.time := by
  intros; refine ⟨_, rfl, ?_⟩; simp

theorem execCfgRestoreFail_cld_time : ∀ s, ∃ t, execCfgRestoreFail s = .next t ∧ t.cld.time = s.cld.time := by
  intros; refine ⟨_, rfl, ?_⟩; simp

theorem execStartupReady_cld_time : ∀ s, ∃ t, execStartupReady s = .next t ∧ t.cld.time = s.cld.time := by
  intros; refine ⟨_, rfl, ?_⟩; simp

@[simp] theorem firstCommands_cld_time : ∀ s, (State.firstCommands s).cld.time = s.cld.time := by
  intros; simp [State.firstCommands]

@[simp] theorem firstSettings_cld_time : ∀ s, (State.firstSettings s).cld.time = s.cld.time := by
  intros; simp [State.firstSettings]

@[simp] theorem openAll_cld_time : ∀ s, (State.openAll s).cld.time = s.cld.time := by intros; simp [State.openAll]

@[simp] theorem raiseUnmetered_cld_time : ∀ s, (State.raiseUnmetered s).cld.time = s.cld.time := by
  intros; simp [State.raiseUnmetered]

@[simp] theorem cellAlarm_cld_time : ∀ k s, (State.cellAlarm k s).cld.time = s.cld.time := by intros; simp [State.cellAlarm]

@[simp] theorem startMetering_cld_time : ∀ k m s, (State.startMetering k m s).cld.time = s.cld.time := by
  intros; simp [State.startMetering]

theorem execFirstMeteredCycle_cld_time : ∀ s, ∃ t, execFirstMeteredCycle s = .next t ∧ t.cld.time = s.cld.time := by
  intros; refine ⟨_, rfl, ?_⟩; dsimp only; (repeat' split) <;> simp

theorem execStartupFreerunFallback_cld_time : ∀ s, ∃ t, execStartupFreerunFallback s = .next t ∧ t.cld.time = s.cld.time := by
  intros; refine ⟨_, rfl, ?_⟩; simp

end Sys2Proof.Laws
end

