-- ==== Sys2Proof/Laws/KeepsCalibration.lean ====
section
/-!
SUPPORT. What the operations and the rows that do not touch `mcal.live` leave: that.
-/
namespace Sys2Proof.Laws

open Sys2Proof.Machine

@[simp] theorem ite_mcal_live (c : Prop) [Decidable c] (a b : State) : (if c then a else b).mcal.live = if c then a.mcal.live else b.mcal.live := by
  split <;> rfl

@[simp] theorem chain_mcal_live {α : Type} (l : List α) (f : α → State → State) (s : State) (h : ∀ a s, (f a s).mcal.live = s.mcal.live) :
    (chain l f s).mcal.live = s.mcal.live := chain_keeps (fun s => s.mcal.live) l f h s

@[simp] theorem fresh_mcal_live : ∀ s, (State.fresh s).2.mcal.live = s.mcal.live := by intros; simp [State.fresh]

@[simp] theorem settingTook_mcal_live : ∀ s, (State.settingTook s).mcal.live = s.mcal.live := by intros; simp [State.settingTook]

@[simp] theorem blot_mcal_live : ∀ k s, (State.blot k s).mcal.live = s.mcal.live := by intros; simp [State.blot]

@[simp] theorem deliver_mcal_live : ∀ s m n, (State.deliver s m n).mcal.live = s.mcal.live := by intros; simp [State.deliver]

@[simp] theorem routeN_mcal_live : ∀ k s, (State.routeN k s).mcal.live = s.mcal.live := by
  intro k s
  induction k generalizing s with
  | zero => rfl
  | succ k ih => unfold State.routeN; split <;> simp [*]

@[simp] theorem route_mcal_live : ∀ s, (State.route s).mcal.live = s.mcal.live := by intros; simp [State.route]

@[simp] theorem latch_mcal_live : ∀ k s, (State.latch k s).mcal.live = s.mcal.live := by intros; simp [State.latch]

@[simp] theorem unbank_mcal_live : ∀ s, (State.unbank s).mcal.live = s.mcal.live := by intros; unfold State.unbank; split <;> simp

@[simp] theorem wake_mcal_live : ∀ s, (State.wake s).mcal.live = s.mcal.live := by intros; simp [State.wake]

@[simp] theorem wakeFor_mcal_live : ∀ k s, (State.wakeFor k s).mcal.live = s.mcal.live := by intros; simp [State.wakeFor]

@[simp] theorem pendInt_mcal_live : ∀ k s, (State.pendInt k s).mcal.live = s.mcal.live := by intros; simp [State.pendInt]

@[simp] theorem flushTarget_mcal_live : ∀ k s, (State.flushTarget k s).mcal.live = s.mcal.live := by
  intros; simp [State.flushTarget]

@[simp] theorem toLog_mcal_live : ∀ k s, (State.toLog k s).mcal.live = s.mcal.live := by intros; simp [State.toLog]

@[simp] theorem enter_mcal_live : ∀ k s, (State.enter k s).mcal.live = s.mcal.live := by intros; simp [State.enter]

@[simp] theorem raiseAs_mcal_live : ∀ k m n p q r u s, (State.raiseAs k m n p q r u s).mcal.live = s.mcal.live := by
  intros; unfold State.raiseAs; dsimp only; (repeat' split) <;> simp

@[simp] theorem raiseWith_mcal_live : ∀ k m n p q r s, (State.raiseWith k m n p q r s).mcal.live = s.mcal.live := by
  intros; simp [State.raiseWith]

@[simp] theorem raise_mcal_live : ∀ k m n s, (State.raise k m n s).mcal.live = s.mcal.live := by intros; simp [State.raise]

@[simp] theorem logOnly_mcal_live : ∀ k m n s, (State.logOnly k m n s).mcal.live = s.mcal.live := by
  intros; unfold State.logOnly; split <;> simp

@[simp] theorem note_mcal_live : ∀ k m n p s, (State.note k m n p s).mcal.live = s.mcal.live := by intros; simp [State.note]

@[simp] theorem phase_mcal_live : ∀ k s, (State.phase k s).mcal.live = s.mcal.live := by intros; simp [State.phase]

@[simp] theorem phaseEnds_mcal_live : ∀ k s, (State.phaseEnds k s).mcal.live = s.mcal.live := by intros; simp [State.phaseEnds]

@[simp] theorem onChan_mcal_live : ∀ k m s, (State.onChan k m s).mcal.live = s.mcal.live := by intros; simp [State.onChan]

@[simp] theorem onSpare_mcal_live : ∀ k m s, (State.onSpare k m s).mcal.live = s.mcal.live := by intros; simp [State.onSpare]

@[simp] theorem onPt_mcal_live : ∀ k m s, (State.onPt k m s).mcal.live = s.mcal.live := by intros; simp [State.onPt]

@[simp] theorem onBus_mcal_live : ∀ k m s, (State.onBus k m s).mcal.live = s.mcal.live := by intros; simp [State.onBus]

@[simp] theorem onPulse_mcal_live : ∀ k m s, (State.onPulse k m s).mcal.live = s.mcal.live := by intros; simp [State.onPulse]

@[simp] theorem onAlarm_mcal_live : ∀ k m s, (State.onAlarm k m s).mcal.live = s.mcal.live := by intros; simp [State.onAlarm]

@[simp] theorem onGuard_mcal_live : ∀ k m s, (State.onGuard k m s).mcal.live = s.mcal.live := by intros; simp [State.onGuard]

@[simp] theorem onRegion_mcal_live : ∀ k m s, (State.onRegion k m s).mcal.live = s.mcal.live := by intros; simp [State.onRegion]

@[simp] theorem wbDiscard_mcal_live : ∀ k s, (State.wbDiscard k s).mcal.live = s.mcal.live := by intros; simp [State.wbDiscard]

@[simp] theorem reshade_mcal_live : ∀ k s, (State.reshade k s).mcal.live = s.mcal.live := by intros; simp [State.reshade]

@[simp] theorem connectSpare_mcal_live : ∀ k m s, (State.connectSpare k m s).mcal.live = s.mcal.live := by
  intros; simp [State.connectSpare]

@[simp] theorem advanceSpare_mcal_live : ∀ k s, (State.advanceSpare k s).mcal.live = s.mcal.live := by
  intros; unfold State.advanceSpare; split <;> simp

@[simp] theorem startCheck_mcal_live : ∀ k m s, (State.startCheck k m s).mcal.live = s.mcal.live := by
  intros; simp [State.startCheck]

@[simp] theorem nextCheck_mcal_live : ∀ k s, (State.nextCheck k s).mcal.live = s.mcal.live := by
  intros; unfold State.nextCheck; (repeat' split) <;> simp

@[simp] theorem endCheck_mcal_live : ∀ k s, (State.endCheck k s).mcal.live = s.mcal.live := by
  intros; unfold State.endCheck; split <;> simp

@[simp] theorem abortCheck_mcal_live : ∀ k s, (State.abortCheck k s).mcal.live = s.mcal.live := by
  intros; unfold State.abortCheck; split <;> simp

@[simp] theorem queueCheck_mcal_live : ∀ k m s, (State.queueCheck k m s).mcal.live = s.mcal.live := by
  intros; simp [State.queueCheck]

@[simp] theorem failChan_mcal_live : ∀ k m s, (State.failChan k m s).mcal.live = s.mcal.live := by intros; simp [State.failChan]

@[simp] theorem substituted_mcal_live : ∀ k m n p s, (State.substituted k m n p s).mcal.live = s.mcal.live := by
  intros; simp [State.substituted]

@[simp] theorem takeSpare_mcal_live : ∀ k s, (State.takeSpare k s).mcal.live = s.mcal.live := by
  intros; unfold State.takeSpare; dsimp only; (repeat' split) <;> simp

@[simp] theorem forceSpare_mcal_live : ∀ k s, (State.forceSpare k s).mcal.live = s.mcal.live := by intros; simp [State.forceSpare]

@[simp] theorem startRestore_mcal_live : ∀ k s, (State.startRestore k s).mcal.live = s.mcal.live := by
  intros; simp [State.startRestore]

@[simp] theorem check_mcal_live : ∀ k s, (State.check k s).mcal.live = s.mcal.live := by
  intros; unfold State.check; dsimp only; (repeat' split) <;> simp

@[simp] theorem restoreFailed_mcal_live : ∀ k s, (State.restoreFailed k s).mcal.live = s.mcal.live := by
  intros; simp [State.restoreFailed]

@[simp] theorem workingFault_mcal_live : ∀ k m s, (State.workingFault k m s).mcal.live = s.mcal.live := by
  intros; simp [State.workingFault]

@[simp] theorem spareDown_mcal_live : ∀ k s, (State.spareDown k s).mcal.live = s.mcal.live := by
  intros; unfold State.spareDown; split <;> simp

@[simp] theorem spareFault_mcal_live : ∀ k s, (State.spareFault k s).mcal.live = s.mcal.live := by
  intros; unfold State.spareFault; split <;> simp

@[simp] theorem modFault_mcal_live : ∀ k m s, (State.modFault k m s).mcal.live = s.mcal.live := by
  intros; unfold State.modFault; split <;> simp

theorem execModulatorHardFault_mcal_live : ∀ k m s, ∃ t, execModulatorHardFault k m s = .next t ∧ t.mcal.live = s.mcal.live := by
  intros; refine ⟨_, rfl, ?_⟩; simp

@[simp] theorem splice_mcal_live : ∀ k s, (State.splice k s).mcal.live = s.mcal.live := by intros; simp [State.splice]

theorem execChSubstituted_mcal_live : ∀ k s, ∃ t, execChSubstituted k s = .next t ∧ t.mcal.live = s.mcal.live := by
  intros; refine ⟨_, rfl, ?_⟩; simp

@[simp] theorem lateSplice_mcal_live : ∀ k s, (State.lateSplice k s).mcal.live = s.mcal.live := by intros; simp [State.lateSplice]

theorem execIsolatedParityError_mcal_live : ∀ k s, ∃ t, execIsolatedParityError k s = .next t ∧ t.mcal.live = s.mcal.live := by
  intros
  refine ⟨_, rfl, ?_⟩
  dsimp only
  split
  · simp
  · split <;> simp

@[simp] theorem trimNote_mcal_live : ∀ k m n s, (State.trimNote k m n s).mcal.live = s.mcal.live := by
  intros; simp [State.trimNote]

@[simp] theorem setModTrim_mcal_live : ∀ k m s, (State.setModTrim k m s).mcal.live = s.mcal.live := by
  intros; simp [State.setModTrim]

@[simp] theorem askModTrim_mcal_live : ∀ k m s, (State.askModTrim k m s).mcal.live = s.mcal.live := by
  intros; unfold State.askModTrim; split <;> simp

@[simp] theorem trimBoundary_mcal_live : ∀ k s, (State.trimBoundary k s).mcal.live = s.mcal.live := by
  intros; unfold State.trimBoundary; split <;> simp

@[simp] theorem spareTrim_mcal_live : ∀ k s, (State.spareTrim k s).mcal.live = s.mcal.live := by
  intros; unfold State.spareTrim; split <;> simp

@[simp] theorem setVref_mcal_live : ∀ k s, (State.setVref k s).mcal.live = s.mcal.live := by intros; simp [State.setVref]

@[simp] theorem setOsc_mcal_live : ∀ k s, (State.setOsc k s).mcal.live = s.mcal.live := by intros; simp [State.setOsc]

@[simp] theorem askBkup_mcal_live : ∀ k s, (State.askBkup k s).mcal.live = s.mcal.live := by intros; simp [State.askBkup]

@[simp] theorem bkupDueNow_mcal_live : ∀ s, (State.bkupDueNow s).mcal.live = s.mcal.live := by
  intros; unfold State.bkupDueNow; split <;> simp

@[simp] theorem askPanelOsc_mcal_live : ∀ k s, (State.askPanelOsc k s).mcal.live = s.mcal.live := by
  intros; simp [State.askPanelOsc]

@[simp] theorem panelOscNow_mcal_live : ∀ s, (State.panelOscNow s).mcal.live = s.mcal.live := by
  intros; unfold State.panelOscNow; split <;> simp

@[simp] theorem dropModTrim_mcal_live : ∀ k s, (State.dropModTrim k s).mcal.live = s.mcal.live := by
  intros; unfold State.dropModTrim; split <;> simp

@[simp] theorem reloadTrims_mcal_live : ∀ s, (State.reloadTrims s).mcal.live = s.mcal.live := by intros; simp [State.reloadTrims]

@[simp] theorem chDrift_mcal_live : ∀ k m s, (State.chDrift k m s).mcal.live = s.mcal.live := by intros; simp [State.chDrift]

@[simp] theorem dwellChecked_mcal_live : ∀ k s, (State.dwellChecked k s).mcal.live = s.mcal.live := by
  intros; simp [State.dwellChecked]

@[simp] theorem spareMove_mcal_live : ∀ k m s, (State.spareMove k m s).mcal.live = s.mcal.live := by
  intros; unfold State.spareMove; dsimp only; (repeat' split) <;> simp

theorem execSpareMove_mcal_live : ∀ k m s, ∃ t, execSpareMove k m s = .next t ∧ t.mcal.live = s.mcal.live := by
  intros; refine ⟨_, rfl, ?_⟩; simp

theorem execDriftCheckPhase_mcal_live : ∀ k m s, ∃ t, execDriftCheckPhase k m s = .next t ∧ t.mcal.live = s.mcal.live := by
  intros; refine ⟨_, rfl, ?_⟩; (repeat' split) <;> simp

theorem execChDriftChecked_mcal_live : ∀ k s, ∃ t, execChDriftChecked k s = .next t ∧ t.mcal.live = s.mcal.live := by
  intros; refine ⟨_, rfl, ?_⟩; split <;> simp

@[simp] theorem restoreEnd_mcal_live : ∀ k m n s, (State.restoreEnd k m n s).mcal.live = s.mcal.live := by
  intros; unfold State.restoreEnd; dsimp only; (repeat' split) <;> simp

theorem execChRestored_mcal_live : ∀ k m n s, ∃ t, execChRestored k m n s = .next t ∧ t.mcal.live = s.mcal.live := by
  intros; refine ⟨_, rfl, ?_⟩; simp

theorem execSuppressionEnd_mcal_live : ∀ k s, ∃ t, execSuppressionEnd k s = .next t ∧ t.mcal.live = s.mcal.live := by
  intros; refine ⟨_, rfl, ?_⟩; simp

theorem execChClip_mcal_live : ∀ k s, ∃ t, execChClip k s = .next t ∧ t.mcal.live = s.mcal.live := by
  intros; refine ⟨_, rfl, ?_⟩; simp

@[simp] theorem channelBoundary_mcal_live : ∀ k s, (State.channelBoundary k s).mcal.live = s.mcal.live := by
  intros; simp [State.channelBoundary]

@[simp] theorem spareBoundary_mcal_live : ∀ k s, (State.spareBoundary k s).mcal.live = s.mcal.live := by
  intros; unfold State.spareBoundary; dsimp only; (repeat' split) <;> simp

@[simp] theorem onPort_mcal_live : ∀ k m s, (State.onPort k m s).mcal.live = s.mcal.live := by intros; simp [State.onPort]

@[simp] theorem onQue_mcal_live : ∀ k m s, (State.onQue k m s).mcal.live = s.mcal.live := by intros; simp [State.onQue]

@[simp] theorem onSession_mcal_live : ∀ k m s, (State.onSession k m s).mcal.live = s.mcal.live := by
  intros; simp [State.onSession]

@[simp] theorem start_mcal_live : ∀ k s, (State.start k s).mcal.live = s.mcal.live := by
  intros; unfold State.start; split <;> simp

@[simp] theorem keepActivations_mcal_live : ∀ k s, (State.keepActivations k s).mcal.live = s.mcal.live := by
  intros; simp [State.keepActivations]

@[simp] theorem endSession_mcal_live : ∀ k m s, (State.endSession k m s).mcal.live = s.mcal.live := by
  intros; unfold State.endSession; split <;> simp

@[simp] theorem endSessions_mcal_live : ∀ k s, (State.endSessions k s).mcal.live = s.mcal.live := by
  intros; simp [State.endSessions]

@[simp] theorem coresDown_mcal_live : ∀ s, (State.coresDown s).mcal.live = s.mcal.live := by intros; simp [State.coresDown]

@[simp] theorem popEntry_mcal_live : ∀ k m s, (State.popEntry k m s).mcal.live = s.mcal.live := by intros; simp [State.popEntry]

@[simp] theorem complete_mcal_live : ∀ k m n p s, (State.complete k m n p s).mcal.live = s.mcal.live := by
  intros; simp [State.complete]

@[simp] theorem ok_mcal_live : ∀ k m n s, (State.ok k m n s).mcal.live = s.mcal.live := by intros; simp [State.ok]

@[simp] theorem okTo_mcal_live : ∀ k m n s, (State.okTo k m n s).mcal.live = s.mcal.live := by
  intros; unfold State.okTo; split <;> simp

@[simp] theorem fail_mcal_live : ∀ k m n s, (State.fail k m n s).mcal.live = s.mcal.live := by intros; simp [State.fail]

@[simp] theorem acted_mcal_live : ∀ k m s p, (∀ x, (p x).1.mcal.live = x.mcal.live) → (State.acted k m s p).mcal.live = s.mcal.live := by
  intros; unfold State.acted; dsimp only; (repeat' split) <;> simp [*]

@[simp] theorem abandonActivation_mcal_live : ∀ s, (State.abandonActivation s).mcal.live = s.mcal.live := by
  intros; simp [State.abandonActivation]

@[simp] theorem notReady_mcal_live : ∀ k m n s, (State.notReady k m n s).mcal.live = s.mcal.live := by
  intros; simp [State.notReady]

@[simp] theorem command_mcal_live : ∀ k m s p, (∀ x, (p x).mcal.live = x.mcal.live) → (State.command k m s p).mcal.live = s.mcal.live := by
  intros; unfold State.command; dsimp only; (repeat' split) <;> simp [*]

@[simp] theorem softScope_mcal_live : ∀ k s, (State.softScope k s).mcal.live = s.mcal.live := by
  intros; unfold State.softScope; split <;> simp

@[simp] theorem settleN_mcal_live : ∀ k s, (State.settleN k s).mcal.live = s.mcal.live := by
  intro k s
  induction k generalizing s with
  | zero => rfl
  | succ k ih =>
    unfold State.settleN
    split
    · simp [*]
    · split <;> simp [*]

@[simp] theorem settleBaud_mcal_live : ∀ s, (State.settleBaud s).mcal.live = s.mcal.live := by
  intros; unfold State.settleBaud; dsimp only; (repeat' split) <;> simp

@[simp] theorem settle_mcal_live : ∀ s, (State.settle s).mcal.live = s.mcal.live := by intros; simp [State.settle]

@[simp] theorem transact_mcal_live : ∀ k m s, (State.transact k m s).mcal.live = s.mcal.live := by intros; simp [State.transact]

@[simp] theorem delivered_mcal_live : ∀ k m n s, (State.delivered k m n s).mcal.live = s.mcal.live := by
  intros; simp [State.delivered]

@[simp] theorem readPort_mcal_live : ∀ k m s, (State.readPort k m s).mcal.live = s.mcal.live := by
  intros; unfold State.readPort; dsimp only; (repeat' split) <;> simp

theorem execRead_mcal_live : ∀ k m s, ∃ t, execRead k m s = .next t ∧ t.mcal.live = s.mcal.live := by
  intros; refine ⟨_, rfl, ?_⟩; split <;> simp

theorem execStatus_mcal_live : ∀ k s, ∃ t, execStatus k s = .next t ∧ t.mcal.live = s.mcal.live := by
  intros; refine ⟨_, rfl, ?_⟩; split <;> simp

theorem execUartReplySent_mcal_live : ∀ s, ∃ t, execUartReplySent s = .next t ∧ t.mcal.live = s.mcal.live := by
  intros; refine ⟨_, rfl, ?_⟩; (repeat' split) <;> simp

theorem execPortTimeout_mcal_live : ∀ k s, ∃ t, execPortTimeout k s = .next t ∧ t.mcal.live = s.mcal.live := by
  intros; refine ⟨_, rfl, ?_⟩; split <;> simp

theorem execUartFrameStall_mcal_live : ∀ s, ∃ t, execUartFrameStall s = .next t ∧ t.mcal.live = s.mcal.live := by
  intros; refine ⟨_, rfl, ?_⟩; simp

@[simp] theorem replyDropped_mcal_live : ∀ k m s, (State.replyDropped k m s).mcal.live = s.mcal.live := by
  intros; unfold State.replyDropped; dsimp only; (repeat' split) <;> simp

theorem execReplyDropped_mcal_live : ∀ k m s, ∃ t, execReplyDropped k m s = .next t ∧ t.mcal.live = s.mcal.live := by
  intros; refine ⟨_, rfl, ?_⟩; simp

theorem execSessionIdleTimeout_mcal_live : ∀ k s, ∃ t, execSessionIdleTimeout k s = .next t ∧ t.mcal.live = s.mcal.live := by
  intros; refine ⟨_, rfl, ?_⟩; simp

theorem execNop_mcal_live : ∀ k m s, ∃ t, execNop k m s = .next t ∧ t.mcal.live = s.mcal.live := by
  intros; refine ⟨_, rfl, ?_⟩; simp

theorem execSessionClose_mcal_live : ∀ k s, ∃ t, execSessionClose k s = .next t ∧ t.mcal.live = s.mcal.live := by
  intros; refine ⟨_, rfl, ?_⟩; simp

theorem execSetPriority_mcal_live : ∀ k m s, ∃ t, execSetPriority k m s = .next t ∧ t.mcal.live = s.mcal.live := by
  intros; refine ⟨_, rfl, ?_⟩; simp

@[simp] theorem sessionOpen_mcal_live : ∀ k m s, (State.sessionOpen k m s).mcal.live = s.mcal.live := by
  intros; unfold State.sessionOpen; dsimp only; (repeat' split) <;> simp

theorem execSessionOpen_mcal_live : ∀ k m s, ∃ t, execSessionOpen k m s = .next t ∧ t.mcal.live = s.mcal.live := by
  intros; refine ⟨_, rfl, ?_⟩; simp

@[simp] theorem grdNotify_mcal_live : ∀ k s, (State.grdNotify k s).mcal.live = s.mcal.live := by intros; simp [State.grdNotify]

@[simp] theorem declareGroup_mcal_live : ∀ k m s, (State.declareGroup k m s).mcal.live = s.mcal.live := by
  intros; simp [State.declareGroup]

theorem execGrdSource_mcal_live : ∀ k m s, ∃ t, execGrdSource k m s = .next t ∧ t.mcal.live = s.mcal.live := by
  intros; refine ⟨_, rfl, ?_⟩; simp

theorem execCellScanPeriod_mcal_live : ∀ k m s, ∃ t, execCellScanPeriod k m s = .next t ∧ t.mcal.live = s.mcal.live := by
  intros; refine ⟨_, rfl, ?_⟩; simp

theorem execGrdClock_mcal_live : ∀ s, ∃ t, execGrdClock s = .next t ∧ t.mcal.live = s.mcal.live := by
  intros; refine ⟨_, rfl, ?_⟩; simp

@[simp] theorem cellReplay_mcal_live : ∀ s, (State.cellReplay s).mcal.live = s.mcal.live := by intros; simp [State.cellReplay]

@[simp] theorem arm_mcal_live : ∀ s, (State.arm s).mcal.live = s.mcal.live := by intros; simp [State.arm]

@[simp] theorem fdis_mcal_live : ∀ k s, (State.fdis k s).mcal.live = s.mcal.live := by intros; simp [State.fdis]

theorem execGrdClearArm_mcal_live : ∀ k m s, ∃ t, execGrdClearArm k m s = .next t ∧ t.mcal.live = s.mcal.live := by
  intros; refine ⟨_, rfl, ?_⟩; simp

@[simp] theorem clearGuards_mcal_live : ∀ k m s, (State.clearGuards k m s).mcal.live = s.mcal.live := by
  intros; simp [State.clearGuards]

theorem execGrdClearConfirm_mcal_live : ∀ k m n s, ∃ t, execGrdClearConfirm k m n s = .next t ∧ t.mcal.live = s.mcal.live := by
  intros; refine ⟨_, rfl, ?_⟩; refine command_keeps (fun s => s.mcal.live) _ _ (by simp) (by simp) ?_; intro s; dsimp only; (repeat' split) <;> simp

theorem execGrdChallengeExpiry_mcal_live : ∀ s, ∃ t, execGrdChallengeExpiry s = .next t ∧ t.mcal.live = s.mcal.live := by
  intros; refine ⟨_, rfl, ?_⟩; simp

theorem execGrdTest_mcal_live : ∀ k m n s, ∃ t, execGrdTest k m n s = .next t ∧ t.mcal.live = s.mcal.live := by
  intros; refine ⟨_, rfl, ?_⟩; split <;> simp

theorem execIdCertRead_mcal_live : ∀ k m n s, ∃ t, execIdCertRead k m n s = .next t ∧ t.mcal.live = s.mcal.live := by
  intros; refine ⟨_, rfl, ?_⟩; simp

@[simp] theorem outOfOrder_mcal_live : ∀ k m n p s, (State.outOfOrder k m n p s).mcal.live = s.mcal.live := by
  intros; simp [State.outOfOrder]

@[simp] theorem retire_mcal_live : ∀ k m n s, (State.retire k m n s).mcal.live = s.mcal.live := by
  intros; unfold State.retire; dsimp only; (repeat' split) <;> simp

@[simp] theorem disableTarget_mcal_live : ∀ k s, (State.disableTarget k s).mcal.live = s.mcal.live := by
  intros; simp [State.disableTarget]

theorem execIntTimeout_mcal_live : ∀ k s, ∃ t, execIntTimeout k s = .next t ∧ t.mcal.live = s.mcal.live := by
  intros; refine ⟨_, rfl, ?_⟩; split <;> simp

@[simp] theorem refCheck_mcal_live : ∀ s, (State.refCheck s).mcal.live = s.mcal.live := by intros; simp [State.refCheck]

@[simp] theorem tempCheck_mcal_live : ∀ s, (State.tempCheck s).mcal.live = s.mcal.live := by intros; simp [State.tempCheck]

@[simp] theorem vbatReading_mcal_live : ∀ s, (State.vbatReading s).mcal.live = s.mcal.live := by intros; simp [State.vbatReading]

@[simp] theorem hallReading_mcal_live : ∀ k s, (State.hallReading k s).mcal.live = s.mcal.live := by
  intros; unfold State.hallReading; dsimp only; (repeat' split) <;> simp

@[simp] theorem auxScan_mcal_live : ∀ k m s, (State.auxScan k m s).mcal.live = s.mcal.live := by
  intros; unfold State.auxScan; split <;> simp

theorem execAuxScan_mcal_live : ∀ k m s, ∃ t, execAuxScan k m s = .next t ∧ t.mcal.live = s.mcal.live := by
  intros; refine ⟨_, rfl, ?_⟩; simp

theorem execAuxRead_mcal_live : ∀ k m n s, ∃ t, execAuxRead k m n s = .next t ∧ t.mcal.live = s.mcal.live := by
  intros; refine ⟨_, rfl, ?_⟩; split <;> simp

@[simp] theorem tableLoad_mcal_live : ∀ k m n p q r s, (State.tableLoad k m n p q r s).mcal.live = s.mcal.live := by
  intros; unfold State.tableLoad; dsimp only; (repeat' split) <;> simp

theorem execPnlTableLoad_mcal_live : ∀ k m n p q r s, ∃ t, execPnlTableLoad k m n p q r s = .next t ∧ t.mcal.live = s.mcal.live := by
  intros; refine ⟨_, rfl, ?_⟩; simp

theorem execPnlImageWrite_mcal_live : ∀ k m n p s, ∃ t, execPnlImageWrite k m n p s = .next t ∧ t.mcal.live = s.mcal.live := by
  intros; refine ⟨_, rfl, ?_⟩; split <;> simp

@[simp] theorem steer_mcal_live : ∀ s, (State.steer s).mcal.live = s.mcal.live := by intros; simp [State.steer]

@[simp] theorem pnlDone_mcal_live : ∀ k m n s, (State.pnlDone k m n s).mcal.live = s.mcal.live := by intros; simp [State.pnlDone]

@[simp] theorem slotReq_mcal_live : ∀ k m s, (State.slotReq k m s).mcal.live = s.mcal.live := by
  intros; unfold State.slotReq; split <;> simp

@[simp] theorem placeReq_mcal_live : ∀ k m s, (State.placeReq k m s).mcal.live = s.mcal.live := by
  intros; unfold State.placeReq; split <;> simp

@[simp] theorem supersede_mcal_live : ∀ k m s, (State.supersede k m s).mcal.live = s.mcal.live := by
  intros; simp [State.supersede]

@[simp] theorem panelUpdate_mcal_live : ∀ k m n s, (State.panelUpdate k m n s).1.mcal.live = s.mcal.live := by
  intros; unfold State.panelUpdate; split <;> simp

@[simp] theorem pnlUpdate_mcal_live : ∀ k m n p s, (State.pnlUpdate k m n p s).mcal.live = s.mcal.live := by
  intros; simp [State.pnlUpdate]

theorem execPnlUpdate_mcal_live : ∀ k m n p s, ∃ t, execPnlUpdate k m n p s = .next t ∧ t.mcal.live = s.mcal.live := by
  intros; refine ⟨_, rfl, ?_⟩; simp

@[simp] theorem refreshDirty_mcal_live : ∀ s, (State.refreshDirty s).mcal.live = s.mcal.live := by
  intros; simp [State.refreshDirty]

@[simp] theorem startWaiting_mcal_live : ∀ s, (State.startWaiting s).mcal.live = s.mcal.live := by
  intros; simp [State.startWaiting]

@[simp] theorem endRun_mcal_live : ∀ k m n s, (State.endRun k m n s).mcal.live = s.mcal.live := by intros; simp [State.endRun]

@[simp] theorem startRun_mcal_live : ∀ k m s, (State.startRun k m s).mcal.live = s.mcal.live := by
  intros; unfold State.startRun; split <;> simp

@[simp] theorem pairEnd_mcal_live : ∀ k s, (State.pairEnd k s).mcal.live = s.mcal.live := by
  intros; unfold State.pairEnd; split <;> simp

@[simp] theorem pairStart_mcal_live : ∀ k s, (State.pairStart k s).mcal.live = s.mcal.live := by
  intros; unfold State.pairStart; split <;> simp

@[simp] theorem dropPending_mcal_live : ∀ k s, (State.dropPending k s).mcal.live = s.mcal.live := by
  intros; unfold State.dropPending; dsimp only; (repeat' split) <;> simp

@[simp] theorem pairBoundary_mcal_live : ∀ s, (State.pairBoundary s).mcal.live = s.mcal.live := by
  intros; simp [State.pairBoundary]

theorem execPanelPairBoundary_mcal_live : ∀ s, ∃ t, execPanelPairBoundary s = .next t ∧ t.mcal.live = s.mcal.live := by
  intros; refine ⟨_, rfl, ?_⟩; simp

theorem execPanelFrameBoundary_mcal_live : ∀ s, ∃ t, execPanelFrameBoundary s = .next t ∧ t.mcal.live = s.mcal.live := by
  intros; refine ⟨_, rfl, ?_⟩; simp

@[simp] theorem faultRegion_mcal_live : ∀ k s, (State.faultRegion k s).mcal.live = s.mcal.live := by
  intros; unfold State.faultRegion; dsimp only; (repeat' split) <;> simp

@[simp] theorem panelFault_mcal_live : ∀ s, (State.panelFault s).mcal.live = s.mcal.live := by intros; simp [State.panelFault]

theorem execPanelFault_mcal_live : ∀ k s, ∃ t, execPanelFault k s = .next t ∧ t.mcal.live = s.mcal.live := by
  intros; refine ⟨_, rfl, ?_⟩; simp

theorem execRailRead_mcal_live : ∀ k s, ∃ t, execRailRead k s = .next t ∧ t.mcal.live = s.mcal.live := by
  intros; refine ⟨_, rfl, ?_⟩; dsimp only; (repeat' split) <;> simp

theorem execRailStep_mcal_live : ∀ s, ∃ t, execRailStep s = .next t ∧ t.mcal.live = s.mcal.live := by
  intros; refine ⟨_, rfl, ?_⟩; simp

@[simp] theorem closeout_mcal_live : ∀ s, (State.closeout s).mcal.live = s.mcal.live := by intros; simp [State.closeout]

@[simp] theorem recover_mcal_live : ∀ k s, (State.recover k s).mcal.live = s.mcal.live := by intros; simp [State.recover]

@[simp] theorem store_mcal_live : ∀ k m s, (State.store k m s).mcal.live = s.mcal.live := by intros; simp [State.store]

@[simp] theorem stage_mcal_live : ∀ k m s, (State.stage k m s).mcal.live = s.mcal.live := by intros; simp [State.stage]

@[simp] theorem noteRejoined_mcal_live : ∀ k m s, (State.noteRejoined k m s).mcal.live = s.mcal.live := by
  intros; simp [State.noteRejoined]

@[simp] theorem rejoinComb_mcal_live : ∀ s, (State.rejoinComb s).mcal.live = s.mcal.live := by
  intros; unfold State.rejoinComb; split <;> simp

@[simp] theorem rejoinMet_mcal_live : ∀ s, (State.rejoinMet s).mcal.live = s.mcal.live := by
  intros; unfold State.rejoinMet; split <;> simp

@[simp] theorem rejoin_mcal_live : ∀ k m s, (State.rejoin k m s).mcal.live = s.mcal.live := by
  intros; unfold State.rejoin; dsimp only; (repeat' split) <;> simp

@[simp] theorem control_mcal_live : ∀ k m s, (State.control k m s).mcal.live = s.mcal.live := by
  intros; unfold State.control; split <;> simp

@[simp] theorem guardControl_mcal_live : ∀ k s, (State.guardControl k s).mcal.live = s.mcal.live := by
  intros; simp [State.guardControl]

@[simp] theorem askOsc_mcal_live : ∀ k s, (State.askOsc k s).mcal.live = s.mcal.live := by intros; simp [State.askOsc]

@[simp] theorem noteKey_mcal_live : ∀ k s, (State.noteKey k s).mcal.live = s.mcal.live := by intros; simp [State.noteKey]

@[simp] theorem applyWord_mcal_live : ∀ k m n p q s, (State.applyWord k m n p q s).mcal.live = s.mcal.live := by
  intro a0 a1 r a3 a4 s
  cases r with
  | ch k x => cases x <;> (unfold State.applyWord; first | rfl | (simp; done) | (dsimp only; split <;> simp))
  | _ => unfold State.applyWord; first | rfl | (simp; done) | (dsimp only; split <;> first | rfl | (simp; done) | (split <;> simp))

@[simp] theorem paramWrite_mcal_live : ∀ k m n p s, (State.paramWrite k m n p s).mcal.live = s.mcal.live := by
  intro req env addr ws s
  have hw : ∀ order l s s1, State.writeWords req env order l s = .inr s1 → s1.mcal.live = s.mcal.live := by
    intro order l
    induction l with
    | nil => intro s s1 h; simp only [State.writeWords, Sum.inr.injEq] at h; rw [← h]
    | cons x l ih =>
      intro s s1 h
      obtain ⟨a, w⟩ := x
      simp only [State.writeWords] at h
      split at h
      · simp at h
      · rw [ih _ _ h]; simp
  unfold State.paramWrite
  split
  · simp
  · next s1 h =>
    have : s1.mcal.live = s.mcal.live := by
      unfold State.tryWrite at h
      dsimp only at h
      split at h
      · simp at h
      · split at h
        · simp at h
        · exact hw _ _ _ _ h
    simp [this]

@[simp] theorem write_mcal_live : ∀ k m n p s, (State.write k m n p s).mcal.live = s.mcal.live := by intros; simp [State.write]

theorem execParamWrite_mcal_live : ∀ k m n s, ∃ t, execParamWrite k m n s = .next t ∧ t.mcal.live = s.mcal.live := by
  intros; refine ⟨_, rfl, ?_⟩; simp

theorem execForceSpare_mcal_live : ∀ k m s, ∃ t, execForceSpare k m s = .next t ∧ t.mcal.live = s.mcal.live := by
  intros; refine ⟨_, rfl, ?_⟩; simp

theorem execRestore_mcal_live : ∀ k m s, ∃ t, execRestore k m s = .next t ∧ t.mcal.live = s.mcal.live := by
  intros; refine ⟨_, rfl, ?_⟩; simp

theorem execCheck_mcal_live : ∀ k m s, ∃ t, execCheck k m s = .next t ∧ t.mcal.live = s.mcal.live := by
  intros; refine ⟨_, rfl, ?_⟩; simp

theorem execTrimModWrite_mcal_live : ∀ k m n s, ∃ t, execTrimModWrite k m n s = .next t ∧ t.mcal.live = s.mcal.live := by
  intros; refine ⟨_, rfl, ?_⟩; simp

theorem execTrimVrefWrite_mcal_live : ∀ k m s, ∃ t, execTrimVrefWrite k m s = .next t ∧ t.mcal.live = s.mcal.live := by
  intros; refine ⟨_, rfl, ?_⟩; simp

theorem execTrimOscWrite_mcal_live : ∀ k m s, ∃ t, execTrimOscWrite k m s = .next t ∧ t.mcal.live = s.mcal.live := by
  intros; refine ⟨_, rfl, ?_⟩; simp

theorem execReload_mcal_live : ∀ k s, ∃ t, execReload k s = .next t ∧ t.mcal.live = s.mcal.live := by
  intros; refine ⟨_, rfl, ?_⟩; simp

theorem execRejoin_mcal_live : ∀ k m n s, ∃ t, execRejoin k m n s = .next t ∧ t.mcal.live = s.mcal.live := by
  intros; refine ⟨_, rfl, ?_⟩; simp

theorem execXreturn_mcal_live : ∀ k s, ∃ t, execXreturn k s = .next t ∧ t.mcal.live = s.mcal.live := by
  intros; refine ⟨_, rfl, ?_⟩; simp

theorem execEoi_mcal_live : ∀ k m n p s, ∃ t, execEoi k m n p s = .next t ∧ t.mcal.live = s.mcal.live := by
  intros; refine ⟨_, rfl, ?_⟩; simp

theorem execIntTargetDisable_mcal_live : ∀ k m s, ∃ t, execIntTargetDisable k m s = .next t ∧ t.mcal.live = s.mcal.live := by
  intros; refine ⟨_, rfl, ?_⟩; simp

theorem execArm_mcal_live : ∀ k s, ∃ t, execArm k s = .next t ∧ t.mcal.live = s.mcal.live := by intros; refine ⟨_, rfl, ?_⟩; simp

theorem execFdis_mcal_live : ∀ k m n s, ∃ t, execFdis k m n s = .next t ∧ t.mcal.live = s.mcal.live := by
  intros; refine ⟨_, rfl, ?_⟩; simp

theorem execRecover_mcal_live : ∀ k m s, ∃ t, execRecover k m s = .next t ∧ t.mcal.live = s.mcal.live := by
  intros; refine ⟨_, rfl, ?_⟩; simp

@[simp] theorem slotCheck_mcal_live : ∀ k m s, (State.slotCheck k m s).mcal.live = s.mcal.live := by
  intros; simp [State.slotCheck]

@[simp] theorem latchSlots_mcal_live : ∀ k s, (State.latchSlots k s).mcal.live = s.mcal.live := by intros; simp [State.latchSlots]

@[simp] theorem deliverSlots_mcal_live : ∀ s, (State.deliverSlots s).mcal.live = s.mcal.live := by
  intros; simp [State.deliverSlots]

@[simp] theorem combCompare_mcal_live : ∀ k m n s, (State.combCompare k m n s).mcal.live = s.mcal.live := by
  intros; simp [State.combCompare]

@[simp] theorem frameLines_mcal_live : ∀ s, (State.frameLines s).mcal.live = s.mcal.live := by intros; simp [State.frameLines]

@[simp] theorem acquire_mcal_live : ∀ k s, (State.acquire k s).mcal.live = s.mcal.live := by intros; simp [State.acquire]

@[simp] theorem survey_mcal_live : ∀ s, (State.survey s).mcal.live = s.mcal.live := by intros; simp [State.survey]

@[simp] theorem relockFrame_mcal_live : ∀ s, (State.relockFrame s).mcal.live = s.mcal.live := by intros; simp [State.relockFrame]

@[simp] theorem handOffFrame_mcal_live : ∀ s, (State.handOffFrame s).mcal.live = s.mcal.live := by
  intros; simp [State.handOffFrame]

@[simp] theorem takePins_mcal_live : ∀ s, (State.takePins s).mcal.live = s.mcal.live := by intros; simp [State.takePins]

@[simp] theorem combFrame_mcal_live : ∀ k m n p s, (State.combFrame k m n p s).mcal.live = s.mcal.live := by
  intros; simp [State.combFrame]

theorem execCombFrame_mcal_live : ∀ k m n p s, ∃ t, execCombFrame k m n p s = .next t ∧ t.mcal.live = s.mcal.live := by
  intros; refine ⟨_, rfl, ?_⟩; simp

theorem execEngFenced_mcal_live : ∀ k s, ∃ t, execEngFenced k s = .next t ∧ t.mcal.live = s.mcal.live := by
  intros; refine ⟨_, rfl, ?_⟩; simp

@[simp] theorem book_mcal_live : ∀ k m n s, (State.book k m n s).mcal.live = s.mcal.live := by intros; simp [State.book]

@[simp] theorem closePoint_mcal_live : ∀ k s, (State.closePoint k s).mcal.live = s.mcal.live := by
  intros; unfold State.closePoint; split <;> simp

@[simp] theorem closeBalance_mcal_live : ∀ k s, (State.closeBalance k s).mcal.live = s.mcal.live := by
  intros; unfold State.closeBalance; split <;> simp

@[simp] theorem closeDc_mcal_live : ∀ k s, (State.closeDc k s).mcal.live = s.mcal.live := by intros; simp [State.closeDc]

@[simp] theorem startCapture_mcal_live : ∀ k m n s, (State.startCapture k m n s).mcal.live = s.mcal.live := by
  intros; simp [State.startCapture]

@[simp] theorem trigger_mcal_live : ∀ k m s, (State.trigger k m s).mcal.live = s.mcal.live := by
  intros; unfold State.trigger; dsimp only; (repeat' split) <;> simp

@[simp] theorem triggerBy_mcal_live : ∀ k m s, (State.triggerBy k m s).mcal.live = s.mcal.live := by
  intros; unfold State.triggerBy; split <;> simp

@[simp] theorem dueTrigger_mcal_live : ∀ k s, (State.dueTrigger k s).mcal.live = s.mcal.live := by
  intros; unfold State.dueTrigger; split <;> simp

@[simp] theorem enterDue_mcal_live : ∀ k s, (State.enterDue k s).mcal.live = s.mcal.live := by
  intros; unfold State.enterDue; split <;> simp

@[simp] theorem due_mcal_live : ∀ k m n p q r u s, (State.due k m n p q r u s).mcal.live = s.mcal.live := by
  intros; simp [State.due]

@[simp] theorem flushDue_mcal_live : ∀ s, (State.flushDue s).mcal.live = s.mcal.live := by intros; simp [State.flushDue]

theorem execCaptureFilled_mcal_live : ∀ k s, ∃ t, execCaptureFilled k s = .next t ∧ t.mcal.live = s.mcal.live := by
  intros; refine ⟨_, rfl, ?_⟩; simp

theorem execCaptureKeepExpiry_mcal_live : ∀ k s, ∃ t, execCaptureKeepExpiry k s = .next t ∧ t.mcal.live = s.mcal.live := by
  intros; refine ⟨_, rfl, ?_⟩; simp

@[simp] theorem completeEvent_mcal_live : ∀ k m n p q r u s, (State.completeEvent k m n p q r u s).mcal.live = s.mcal.live := by
  intros; simp [State.completeEvent]

@[simp] theorem autoFreeze_mcal_live : ∀ k s, (State.autoFreeze k s).mcal.live = s.mcal.live := by intros; simp [State.autoFreeze]

@[simp] theorem freezeCount_mcal_live : ∀ k m s, (State.freezeCount k m s).mcal.live = s.mcal.live := by
  intros; simp [State.freezeCount]

theorem execAutoFreezeEnd_mcal_live : ∀ k s, ∃ t, execAutoFreezeEnd k s = .next t ∧ t.mcal.live = s.mcal.live := by
  intros; refine ⟨_, rfl, ?_⟩; simp

@[simp] theorem rvcValue_mcal_live : ∀ k m n p s, (State.rvcValue k m n p s).mcal.live = s.mcal.live := by
  intros; unfold State.rvcValue; split <;> simp

@[simp] theorem startEvent_mcal_live : ∀ k m n p q s, (State.startEvent k m n p q s).mcal.live = s.mcal.live := by
  intros; unfold State.startEvent; split <;> simp

@[simp] theorem eventStep_mcal_live : ∀ k m n p s, (State.eventStep k m n p s).mcal.live = s.mcal.live := by
  intros; unfold State.eventStep; dsimp only; (repeat' split) <;> simp

@[simp] theorem flagBefore_mcal_live : ∀ k s, (State.flagBefore k s).mcal.live = s.mcal.live := by intros; simp [State.flagBefore]

@[simp] theorem halfCycle_mcal_live : ∀ k m s, (State.halfCycle k m s).mcal.live = s.mcal.live := by
  intros
  unfold State.halfCycle
  dsimp only
  simp only [onBus_mcal_live, flagBefore_mcal_live, ite_mcal_live]
  split
  · rw [chain_mcal_live _ _ _ (by intro x s; simp)]; simp
  · simp

@[simp] theorem powerFailEvents_mcal_live : ∀ s, (State.powerFailEvents s).mcal.live = s.mcal.live := by
  intros
  unfold State.powerFailEvents
  dsimp only
  simp only [flushDue_mcal_live]
  exact chain_mcal_live _ _ _ (by intro x s; exact chain_mcal_live _ _ _ (by intro x s; (repeat' split) <;> simp))

@[simp] theorem detected_mcal_live : ∀ k m n p q r s, (State.detected k m n p q r s).mcal.live = s.mcal.live := by
  intros; simp [State.detected]

@[simp] theorem neutralLost_mcal_live : ∀ k s, (State.neutralLost k s).mcal.live = s.mcal.live := by
  intros; simp [State.neutralLost]

@[simp] theorem neutralBypass_mcal_live : ∀ k s, (State.neutralBypass k s).mcal.live = s.mcal.live := by
  intros; unfold State.neutralBypass; split <;> simp

@[simp] theorem reverseFlow_mcal_live : ∀ k s, (State.reverseFlow k s).mcal.live = s.mcal.live := by
  intros; simp [State.reverseFlow]

@[simp] theorem cycleDetectors_mcal_live : ∀ s, (State.cycleDetectors s).mcal.live = s.mcal.live := by
  intros; simp [State.cycleDetectors]

@[simp] theorem wrongSequence_mcal_live : ∀ k s, (State.wrongSequence k s).mcal.live = s.mcal.live := by
  intros; simp [State.wrongSequence]

@[simp] theorem dcPresent_mcal_live : ∀ k s, (State.dcPresent k s).mcal.live = s.mcal.live := by intros; simp [State.dcPresent]

@[simp] theorem magnet_mcal_live : ∀ s, (State.magnet s).mcal.live = s.mcal.live := by intros; simp [State.magnet]

@[simp] theorem blockDetectors_mcal_live : ∀ s, (State.blockDetectors s).mcal.live = s.mcal.live := by
  intros; simp [State.blockDetectors]

@[simp] theorem startSet_mcal_live : ∀ s, (State.startSet s).mcal.live = s.mcal.live := by intros; simp [State.startSet]

@[simp] theorem publishSet_mcal_live : ∀ s, (State.publishSet s).mcal.live = s.mcal.live := by intros; simp [State.publishSet]

theorem execWbSetEnd_mcal_live : ∀ s, ∃ t, execWbSetEnd s = .next t ∧ t.mcal.live = s.mcal.live := by
  intros; refine ⟨_, rfl, ?_⟩; simp

@[simp] theorem refill_mcal_live : ∀ s, (State.refill s).mcal.live = s.mcal.live := by intros; unfold State.refill; split <;> simp

@[simp] theorem seal_mcal_live : ∀ k s, (State.seal k s).mcal.live = s.mcal.live := by intros; unfold State.seal; split <;> simp

@[simp] theorem cut_mcal_live : ∀ k m s, (State.cut k m s).mcal.live = s.mcal.live := by intros; simp [State.cut]

theorem execFolioSealed_mcal_live : ∀ k s, ∃ t, execFolioSealed k s = .next t ∧ t.mcal.live = s.mcal.live := by
  intros; refine ⟨_, rfl, ?_⟩; simp

@[simp] theorem writeRecord_mcal_live : ∀ k s, (State.writeRecord k s).mcal.live = s.mcal.live := by
  intros; simp [State.writeRecord]

@[simp] theorem writeCheckpoint_mcal_live : ∀ s, (State.writeCheckpoint s).mcal.live = s.mcal.live := by
  intros; simp [State.writeCheckpoint]

@[simp] theorem checkpoint_mcal_live : ∀ s, (State.checkpoint s).mcal.live = s.mcal.live := by intros; simp [State.checkpoint]

@[simp] theorem extraCheckpoint_mcal_live : ∀ s, (State.extraCheckpoint s).mcal.live = s.mcal.live := by
  intros; simp [State.extraCheckpoint]

@[simp] theorem reloadCell_mcal_live : ∀ k m s, (State.reloadCell k m s).mcal.live = s.mcal.live := by
  intros; unfold State.reloadCell; split <;> simp

@[simp] theorem lostInterval_mcal_live : ∀ s, (State.lostInterval s).mcal.live = s.mcal.live := by
  intros; simp [State.lostInterval]

@[simp] theorem accLost_mcal_live : ∀ k s, (State.accLost k s).mcal.live = s.mcal.live := by
  intros; unfold State.accLost; dsimp only; (repeat' split) <;> simp

@[simp] theorem fenceBank_mcal_live : ∀ k s, (State.fenceBank k s).mcal.live = s.mcal.live := by intros; simp [State.fenceBank]

@[simp] theorem rewrite_mcal_live : ∀ k m s, (State.rewrite k m s).mcal.live = s.mcal.live := by intros; simp [State.rewrite]

@[simp] theorem accError_mcal_live : ∀ k m s, (State.accError k m s).mcal.live = s.mcal.live := by intros; simp [State.accError]

@[simp] theorem accErrors_mcal_live : ∀ k s, (State.accErrors k s).mcal.live = s.mcal.live := by intros; simp [State.accErrors]

theorem execAccScrub_mcal_live : ∀ k s, ∃ t, execAccScrub k s = .next t ∧ t.mcal.live = s.mcal.live := by
  intros; refine ⟨_, rfl, ?_⟩; simp

@[simp] theorem closeChannel_mcal_live : ∀ k z n s, (State.closeChannel k z n s).mcal.live = s.mcal.live := by
  intros; simp [State.closeChannel]

@[simp] theorem closeBus_mcal_live : ∀ k z n s, (State.closeBus k z n s).mcal.live = s.mcal.live := by
  intros; simp [State.closeBus]

@[simp] theorem close150_mcal_live : ∀ k s, (State.close150 k s).mcal.live = s.mcal.live := by intros; simp [State.close150]

theorem execAggregateClose_mcal_live : ∀ s, ∃ t, execAggregateClose s = .next t ∧ t.mcal.live = s.mcal.live := by
  intros; refine ⟨_, rfl, ?_⟩; simp

@[simp] theorem applyNomf_mcal_live : ∀ s, (State.applyNomf s).mcal.live = s.mcal.live := by intros; simp [State.applyNomf]

@[simp] theorem asEnded_mcal_live : ∀ s, (State.asEnded s).mcal.live = s.mcal.live := by intros; simp [State.asEnded]

@[simp] theorem closeBlock_mcal_live : ∀ k s, (State.closeBlock k s).mcal.live = s.mcal.live := by intros; simp [State.closeBlock]

theorem execBlockClose_mcal_live : ∀ s, ∃ t, execBlockClose s = .next t ∧ t.mcal.live = s.mcal.live := by
  intros; refine ⟨_, rfl, ?_⟩; simp

@[simp] theorem countedAggs_mcal_live : ∀ s, (State.countedAggs s).mcal.live = s.mcal.live := by intros; simp [State.countedAggs]

@[simp] theorem tenMinuteTick_mcal_live : ∀ s, (State.tenMinuteTick s).mcal.live = s.mcal.live := by
  intros; simp [State.tenMinuteTick]

theorem execTenMinuteTick_mcal_live : ∀ s, ∃ t, execTenMinuteTick s = .next t ∧ t.mcal.live = s.mcal.live := by
  intros; refine ⟨_, rfl, ?_⟩; simp

@[simp] theorem frequencyClose_mcal_live : ∀ s, (State.frequencyClose s).mcal.live = s.mcal.live := by
  intros; simp [State.frequencyClose]

theorem execFrequencyIntervalClose_mcal_live : ∀ s, ∃ t, execFrequencyIntervalClose s = .next t ∧ t.mcal.live = s.mcal.live := by
  intros; refine ⟨_, rfl, ?_⟩; simp

@[simp] theorem changeUdin_mcal_live : ∀ k s, (State.changeUdin k s).mcal.live = s.mcal.live := by intros; simp [State.changeUdin]

@[simp] theorem udinNow_mcal_live : ∀ s, (State.udinNow s).mcal.live = s.mcal.live := by intros; simp [State.udinNow]

@[simp] theorem spoilFolio_mcal_live : ∀ k m n s, (State.spoilFolio k m n s).mcal.live = s.mcal.live := by
  intros; simp [State.spoilFolio]

@[simp] theorem spoilRead_mcal_live : ∀ k s, (State.spoilRead k s).mcal.live = s.mcal.live := by
  intros; unfold State.spoilRead; split <;> simp

@[simp] theorem noteUncorr_mcal_live : ∀ k s, (State.noteUncorr k s).mcal.live = s.mcal.live := by intros; simp [State.noteUncorr]

@[simp] theorem readError_mcal_live : ∀ k s, (State.readError k s).mcal.live = s.mcal.live := by intros; simp [State.readError]

@[simp] theorem onFolio_mcal_live : ∀ k m n s q, (∀ x, (q x).mcal.live = s.mcal.live) → (State.onFolio k m n s q).mcal.live = s.mcal.live := by
  intros; unfold State.onFolio; (repeat' split) <;> simp [*]

theorem execFolioRead_mcal_live : ∀ k m n p q s, ∃ t, execFolioRead k m n p q s = .next t ∧ t.mcal.live = s.mcal.live := by
  intros; refine ⟨_, rfl, ?_⟩; refine command_keeps (fun s => s.mcal.live) _ _ (by simp) (by simp) ?_; intro s; simp

@[simp] theorem grant_mcal_live : ∀ k m n s, (State.grant k m n s).1.mcal.live = s.mcal.live := by
  intros; unfold State.grant; dsimp only; (repeat' split) <;> simp

@[simp] theorem lease_mcal_live : ∀ k m n s, (State.lease k m n s).1.mcal.live = s.mcal.live := by
  intros; unfold State.lease; (repeat' split) <;> simp

theorem execFolioLease_mcal_live : ∀ k m n s, ∃ t, execFolioLease k m n s = .next t ∧ t.mcal.live = s.mcal.live := by
  intros; refine ⟨_, rfl, ?_⟩; simp

@[simp] theorem endLease_mcal_live : ∀ k m s, (State.endLease k m s).mcal.live = s.mcal.live := by intros; simp [State.endLease]

@[simp] theorem renew_mcal_live : ∀ k m n s, (State.renew k m n s).1.mcal.live = s.mcal.live := by
  intros; unfold State.renew; split <;> simp

theorem execFolioRenew_mcal_live : ∀ k m n s, ∃ t, execFolioRenew k m n s = .next t ∧ t.mcal.live = s.mcal.live := by
  intros; refine ⟨_, rfl, ?_⟩; simp

@[simp] theorem release_mcal_live : ∀ k m s, (State.release k m s).1.mcal.live = s.mcal.live := by
  intros; unfold State.release; split <;> simp

theorem execFolioRelease_mcal_live : ∀ k m s, ∃ t, execFolioRelease k m s = .next t ∧ t.mcal.live = s.mcal.live := by
  intros; refine ⟨_, rfl, ?_⟩; simp

theorem execLeaseExpiry_mcal_live : ∀ k m s, ∃ t, execLeaseExpiry k m s = .next t ∧ t.mcal.live = s.mcal.live := by
  intros; refine ⟨_, rfl, ?_⟩; simp

@[simp] theorem demandCut_mcal_live : ∀ s, (State.demandCut s).1.mcal.live = s.mcal.live := by
  intros; unfold State.demandCut; split <;> simp

theorem execFolioCut_mcal_live : ∀ k s, ∃ t, execFolioCut k s = .next t ∧ t.mcal.live = s.mcal.live := by
  intros; refine ⟨_, rfl, ?_⟩; simp

theorem execFolioSealGet_mcal_live : ∀ k m s, ∃ t, execFolioSealGet k m s = .next t ∧ t.mcal.live = s.mcal.live := by
  intros; refine ⟨_, rfl, ?_⟩; simp

theorem execParamRead_mcal_live : ∀ k m n s, ∃ t, execParamRead k m n s = .next t ∧ t.mcal.live = s.mcal.live := by
  intros; refine ⟨_, rfl, ?_⟩; simp

theorem execScRead_mcal_live : ∀ k m n p s, ∃ t, execScRead k m n p s = .next t ∧ t.mcal.live = s.mcal.live := by
  intros; refine ⟨_, rfl, ?_⟩; simp

theorem execBlotRead_mcal_live : ∀ k s, ∃ t, execBlotRead k s = .next t ∧ t.mcal.live = s.mcal.live := by
  intros; refine ⟨_, rfl, ?_⟩; simp

@[simp] theorem reject_mcal_live : ∀ k m s, (State.reject k m s).mcal.live = s.mcal.live := by
  intros; unfold State.reject; split <;> simp

@[simp] theorem judgeAdmitted_mcal_live : ∀ k s, (State.judgeAdmitted k s).1.mcal.live = s.mcal.live := by
  intros; unfold State.judgeAdmitted; dsimp only; (repeat' split) <;> simp

@[simp] theorem admitFrame_mcal_live : ∀ k m n p s, (State.admitFrame k m n p s).mcal.live = s.mcal.live := by
  intros; unfold State.admitFrame; dsimp only; (repeat' split) <;> simp

@[simp] theorem judgeOpcode_mcal_live : ∀ k m n p s, (State.judgeOpcode k m n p s).mcal.live = s.mcal.live := by
  intros; unfold State.judgeOpcode; (repeat' split) <;> simp

@[simp] theorem authFailure_mcal_live : ∀ k m n s, (State.authFailure k m n s).mcal.live = s.mcal.live := by
  intros; simp [State.authFailure]

@[simp] theorem judgeSequence_mcal_live : ∀ k m n p s, (State.judgeSequence k m n p s).mcal.live = s.mcal.live := by
  intros; simp [State.judgeSequence]

@[simp] theorem judgeSession_mcal_live : ∀ k m n p s, (State.judgeSession k m n p s).mcal.live = s.mcal.live := by
  intros; unfold State.judgeSession; (repeat' split) <;> simp

@[simp] theorem judgeFrame_mcal_live : ∀ k m s, (State.judgeFrame k m s).mcal.live = s.mcal.live := by
  intros; unfold State.judgeFrame; dsimp only; (repeat' split) <;> simp

@[simp] theorem frameReceive_mcal_live : ∀ k m s, (State.frameReceive k m s).mcal.live = s.mcal.live := by
  intros; unfold State.frameReceive; (repeat' split) <;> simp

theorem execFrameReceive_mcal_live : ∀ k m n s, ∃ t, execFrameReceive k m n s = .next t ∧ t.mcal.live = s.mcal.live := by
  intros; refine ⟨_, rfl, ?_⟩; simp

@[simp] theorem alarmEvent_mcal_live : ∀ k m s, (State.alarmEvent k m s).mcal.live = s.mcal.live := by
  intros; simp [State.alarmEvent]

@[simp] theorem alarmFire_mcal_live : ∀ k m n p s, (State.alarmFire k m n p s).mcal.live = s.mcal.live := by
  intros; simp [State.alarmFire]

@[simp] theorem alarmForward_mcal_live : ∀ k m n p s, (State.alarmForward k m n p s).mcal.live = s.mcal.live := by
  intros; unfold State.alarmForward; dsimp only; (repeat' split) <;> simp

@[simp] theorem alarmsAtStep_mcal_live : ∀ k m n s, (State.alarmsAtStep k m n s).mcal.live = s.mcal.live := by
  intros; simp [State.alarmsAtStep]

@[simp] theorem badSet_mcal_live : ∀ s, (State.badSet s).mcal.live = s.mcal.live := by intros; simp [State.badSet]

@[simp] theorem calStep_mcal_live : ∀ k m s, (State.calStep k m s).mcal.live = s.mcal.live := by intros; simp [State.calStep]

@[simp] theorem calFirstSet_mcal_live : ∀ k m s, (State.calFirstSet k m s).mcal.live = s.mcal.live := by
  intros; simp [State.calFirstSet]

@[simp] theorem cldSet_mcal_live : ∀ k m s, (State.cldSet k m s).mcal.live = s.mcal.live := by intros; simp [State.cldSet]

theorem execCldSet_mcal_live : ∀ k m s, ∃ t, execCldSet k m s = .next t ∧ t.mcal.live = s.mcal.live := by
  intros; refine ⟨_, rfl, ?_⟩; simp

@[simp] theorem cldAdjusted_mcal_live : ∀ k m n s, (State.cldAdjusted k m n s).mcal.live = s.mcal.live := by
  intros; simp [State.cldAdjusted]

@[simp] theorem adjustStep_mcal_live : ∀ k m n s, (State.adjustStep k m n s).mcal.live = s.mcal.live := by
  intros; simp [State.adjustStep]

theorem execCldAdjustStep_mcal_live : ∀ k m n s, ∃ t, execCldAdjustStep k m n s = .next t ∧ t.mcal.live = s.mcal.live := by
  intros; refine ⟨_, rfl, ?_⟩; simp

@[simp] theorem adjustSlew_mcal_live : ∀ k m n s, (State.adjustSlew k m n s).mcal.live = s.mcal.live := by
  intros; simp [State.adjustSlew]

theorem execCldAdjustSlew_mcal_live : ∀ k m n s, ∃ t, execCldAdjustSlew k m n s = .next t ∧ t.mcal.live = s.mcal.live := by
  intros; refine ⟨_, rfl, ?_⟩; simp

theorem execCldAlarmAck_mcal_live : ∀ k m s, ∃ t, execCldAlarmAck k m s = .next t ∧ t.mcal.live = s.mcal.live := by
  intros; refine ⟨_, rfl, ?_⟩; simp

@[simp] theorem secondBoundary_mcal_live : ∀ s, (State.secondBoundary s).mcal.live = s.mcal.live := by
  intros; simp [State.secondBoundary]

theorem execCalSecondBoundary_mcal_live : ∀ s, ∃ t, execCalSecondBoundary s = .next t ∧ t.mcal.live = s.mcal.live := by
  intros; refine ⟨_, rfl, ?_⟩; simp

theorem execCalStopped_mcal_live : ∀ s, ∃ t, execCalStopped s = .next t ∧ t.mcal.live = s.mcal.live := by
  intros; refine ⟨_, rfl, ?_⟩; simp

theorem execSlewEnd_mcal_live : ∀ s, ∃ t, execSlewEnd s = .next t ∧ t.mcal.live = s.mcal.live := by
  intros; refine ⟨_, rfl, ?_⟩; simp

@[simp] theorem demandClose_mcal_live : ∀ k s, (State.demandClose k s).mcal.live = s.mcal.live := by
  intros; simp [State.demandClose]

theorem execDemandClose_mcal_live : ∀ k s, ∃ t, execDemandClose k s = .next t ∧ t.mcal.live = s.mcal.live := by
  intros; refine ⟨_, rfl, ?_⟩; simp

@[simp] theorem applyProfEn_mcal_live : ∀ s, (State.applyProfEn s).mcal.live = s.mcal.live := by intros; simp [State.applyProfEn]

@[simp] theorem openProfile_mcal_live : ∀ k s, (State.openProfile k s).mcal.live = s.mcal.live := by
  intros; simp [State.openProfile]

@[simp] theorem countLost_mcal_live : ∀ k s, (State.countLost k s).mcal.live = s.mcal.live := by
  intros; unfold State.countLost; split <;> simp

@[simp] theorem loseRecords_mcal_live : ∀ k s, (State.loseRecords k s).mcal.live = s.mcal.live := by
  intros; unfold State.loseRecords; split <;> simp

@[simp] theorem writeGroup_mcal_live : ∀ k s, (State.writeGroup k s).mcal.live = s.mcal.live := by intros; simp [State.writeGroup]

@[simp] theorem profileClose_mcal_live : ∀ k s, (State.profileClose k s).mcal.live = s.mcal.live := by
  intros; simp [State.profileClose]

theorem execProfileClose_mcal_live : ∀ s, ∃ t, execProfileClose s = .next t ∧ t.mcal.live = s.mcal.live := by
  intros; refine ⟨_, rfl, ?_⟩; simp

@[simp] theorem residual_mcal_live : ∀ k m n p q s, (State.residual k m n p q s).mcal.live = s.mcal.live := by
  intros; simp [State.residual]

@[simp] theorem balanceClose_mcal_live : ∀ k m s, (State.balanceClose k m s).mcal.live = s.mcal.live := by
  intros; simp [State.balanceClose]

theorem execBalanceClose_mcal_live : ∀ k s, ∃ t, execBalanceClose k s = .next t ∧ t.mcal.live = s.mcal.live := by
  intros; refine ⟨_, rfl, ?_⟩; simp

@[simp] theorem switchRef_mcal_live : ∀ k m s, (State.switchRef k m s).mcal.live = s.mcal.live := by
  intros; simp [State.switchRef]

@[simp] theorem enterFreerun_mcal_live : ∀ s, (State.enterFreerun s).mcal.live = s.mcal.live := by
  intros; simp [State.enterFreerun]

@[simp] theorem enterHoldover_mcal_live : ∀ k s, (State.enterHoldover k s).mcal.live = s.mcal.live := by
  intros; simp [State.enterHoldover]

@[simp] theorem chooseRef_mcal_live : ∀ k m n s, (State.chooseRef k m n s).mcal.live = s.mcal.live := by
  intros; unfold State.chooseRef; dsimp only; (repeat' split) <;> simp

@[simp] theorem judgeLock_mcal_live : ∀ s, (State.judgeLock s).mcal.live = s.mcal.live := by
  intros; unfold State.judgeLock; dsimp only; (repeat' split) <;> simp

@[simp] theorem closeTimebase_mcal_live : ∀ s, (State.closeTimebase s).mcal.live = s.mcal.live := by
  intros; simp [State.closeTimebase]

@[simp] theorem absorbDelay_mcal_live : ∀ k m s, (State.absorbDelay k m s).mcal.live = s.mcal.live := by
  intros; unfold State.absorbDelay; split <;> simp

theorem execFreerunEntry_mcal_live : ∀ s, ∃ t, execFreerunEntry s = .next t ∧ t.mcal.live = s.mcal.live := by
  intros; refine ⟨_, rfl, ?_⟩; split <;> simp

theorem execLsyncEdge_mcal_live : ∀ k m s, ∃ t, execLsyncEdge k m s = .next t ∧ t.mcal.live = s.mcal.live := by
  intros; refine ⟨_, rfl, ?_⟩; simp

theorem execLsyncTimeout_mcal_live : ∀ s, ∃ t, execLsyncTimeout s = .next t ∧ t.mcal.live = s.mcal.live := by
  intros; refine ⟨_, rfl, ?_⟩; simp

@[simp] theorem convert_mcal_live : ∀ k m s, (State.convert k m s).mcal.live = s.mcal.live := by intros; simp [State.convert]

@[simp] theorem reconcile_mcal_live : ∀ k s, (State.reconcile k s).mcal.live = s.mcal.live := by intros; simp [State.reconcile]

@[simp] theorem firstCommit_mcal_live : ∀ k s, (State.firstCommit k s).mcal.live = s.mcal.live := by
  intros; simp [State.firstCommit]

@[simp] theorem calParity_mcal_live : ∀ k s, (State.calParity k s).mcal.live = s.mcal.live := by intros; simp [State.calParity]

@[simp] theorem resolvePoint_mcal_live : ∀ k m s, (State.resolvePoint k m s).mcal.live = s.mcal.live := by
  intros; simp [State.resolvePoint]

@[simp] theorem resolveOne_mcal_live : ∀ k s, (State.resolveOne k s).mcal.live = s.mcal.live := by intros; simp [State.resolveOne]

@[simp] theorem resolveBoundary_mcal_live : ∀ s, (State.resolveBoundary s).mcal.live = s.mcal.live := by
  intros; simp [State.resolveBoundary]

@[simp] theorem resetDemand_mcal_live : ∀ k s, (State.resetDemand k s).mcal.live = s.mcal.live := by
  intros; simp [State.resetDemand]

@[simp] theorem resetReply_mcal_live : ∀ k s, (State.resetReply k s).mcal.live = s.mcal.live := by intros; simp [State.resetReply]

@[simp] theorem resetBoundary_mcal_live : ∀ s, (State.resetBoundary s).mcal.live = s.mcal.live := by
  intros; simp [State.resetBoundary]

@[simp] theorem dropOldWindows_mcal_live : ∀ s, (State.dropOldWindows s).mcal.live = s.mcal.live := by
  intros; simp [State.dropOldWindows]

theorem execDemandReset_mcal_live : ∀ k m s, ∃ t, execDemandReset k m s = .next t ∧ t.mcal.live = s.mcal.live := by
  intros; refine ⟨_, rfl, ?_⟩; simp

theorem execCalCommit_mcal_live : ∀ k m s, ∃ t, execCalCommit k m s = .next t ∧ t.mcal.live = s.mcal.live := by
  intros; refine ⟨_, rfl, ?_⟩; simp

theorem execCalPendingRead_mcal_live : ∀ k m n s, ∃ t, execCalPendingRead k m n s = .next t ∧ t.mcal.live = s.mcal.live := by
  intros; refine ⟨_, rfl, ?_⟩; split <;> simp

theorem execCalPendingResolve_mcal_live : ∀ k m n s, ∃ t, execCalPendingResolve k m n s = .next t ∧ t.mcal.live = s.mcal.live := by
  intros; refine ⟨_, rfl, ?_⟩; simp

theorem execPulseTest_mcal_live : ∀ k m n p s, ∃ t, execPulseTest k m n p s = .next t ∧ t.mcal.live = s.mcal.live := by
  intros; refine ⟨_, rfl, ?_⟩; simp

@[simp] theorem pulseSample_mcal_live : ∀ k m s, (State.pulseSample k m s).mcal.live = s.mcal.live := by
  intros; simp [State.pulseSample]

@[simp] theorem pulseClose_mcal_live : ∀ k s, (State.pulseClose k s).mcal.live = s.mcal.live := by intros; simp [State.pulseClose]

@[simp] theorem rebase_mcal_live : ∀ k s, (State.rebase k s).mcal.live = s.mcal.live := by intros; simp [State.rebase]

theorem execPulseLeadingEdge_mcal_live : ∀ k s, ∃ t, execPulseLeadingEdge k s = .next t ∧ t.mcal.live = s.mcal.live := by
  intros; refine ⟨_, rfl, ?_⟩; split <;> simp

theorem execPulseTrailingEdge_mcal_live : ∀ k s, ∃ t, execPulseTrailingEdge k s = .next t ∧ t.mcal.live = s.mcal.live := by
  intros; refine ⟨_, rfl, ?_⟩; simp

@[simp] theorem halfEnd_mcal_live : ∀ k s, (State.halfEnd k s).mcal.live = s.mcal.live := by intros; simp [State.halfEnd]

@[simp] theorem keepBatch_mcal_live : ∀ k m s, (State.keepBatch k m s).mcal.live = s.mcal.live := by
  intros; simp [State.keepBatch]

@[simp] theorem takeBatch_mcal_live : ∀ k s, (State.takeBatch k s).mcal.live = s.mcal.live := by intros; simp [State.takeBatch]

@[simp] theorem sampleBatch_mcal_live : ∀ k m s, (State.sampleBatch k m s).mcal.live = s.mcal.live := by
  intros; simp [State.sampleBatch]

theorem execSampleBatch_mcal_live : ∀ k m s, ∃ t, execSampleBatch k m s = .next t ∧ t.mcal.live = s.mcal.live := by
  intros; refine ⟨_, rfl, ?_⟩; simp

@[simp] theorem replayBatch_mcal_live : ∀ k s, (State.replayBatch k s).mcal.live = s.mcal.live := by
  intros; simp [State.replayBatch]

@[simp] theorem replayFrom_mcal_live : ∀ k s, (State.replayFrom k s).mcal.live = s.mcal.live := by
  intros; unfold State.replayFrom; split <;> simp

@[simp] theorem metrologyReplay_mcal_live : ∀ k m n s, (State.metrologyReplay k m n s).mcal.live = s.mcal.live := by
  intros; simp [State.metrologyReplay]

theorem execMetrologyReplay_mcal_live : ∀ k m n s, ∃ t, execMetrologyReplay k m n s = .next t ∧ t.mcal.live = s.mcal.live := by
  intros; refine ⟨_, rfl, ?_⟩; simp

@[simp] theorem noteCommit_mcal_live : ∀ s, (State.noteCommit s).mcal.live = s.mcal.live := by intros; simp [State.noteCommit]

@[simp] theorem markSteps_mcal_live : ∀ s, (State.markSteps s).mcal.live = s.mcal.live := by intros; simp [State.markSteps]

@[simp] theorem channelsToBlock_mcal_live : ∀ s, (State.channelsToBlock s).mcal.live = s.mcal.live := by
  intros; simp [State.channelsToBlock]

@[simp] theorem closeQuantities_mcal_live : ∀ k s, (State.closeQuantities k s).mcal.live = s.mcal.live := by
  intros; simp [State.closeQuantities]

@[simp] theorem boundaryImage_mcal_live : ∀ k s, (State.boundaryImage k s).mcal.live = s.mcal.live := by
  intros; simp [State.boundaryImage]

@[simp] theorem turnCycle_mcal_live : ∀ s, (State.turnCycle s).mcal.live = s.mcal.live := by intros; simp [State.turnCycle]

@[simp] theorem enforce_mcal_live : ∀ k s, (State.enforce k s).mcal.live = s.mcal.live := by intros; simp [State.enforce]

@[simp] theorem changeDemand_mcal_live : ∀ k s, (State.changeDemand k s).mcal.live = s.mcal.live := by
  intros; simp [State.changeDemand]

@[simp] theorem closeChanged_mcal_live : ∀ k s, (State.closeChanged k s).mcal.live = s.mcal.live := by
  intros
  unfold State.closeChanged
  exact chain_mcal_live _ _ _ (by intro x s; dsimp only; split <;> simp)

@[simp] theorem afterSettings_mcal_live : ∀ k m n s, (State.afterSettings k m n s).mcal.live = s.mcal.live := by
  intros
  unfold State.afterSettings
  dsimp only
  rw [chain_mcal_live _ _ _ (by intro x s; simp), chain_mcal_live _ _ _ (by intro x s; split <;> simp)]

@[simp] theorem applySettings_mcal_live : ∀ s, (State.applySettings s).mcal.live = s.mcal.live := by
  intros; simp [State.applySettings]

@[simp] theorem trimsBoundary_mcal_live : ∀ s, (State.trimsBoundary s).mcal.live = s.mcal.live := by
  intros; unfold State.trimsBoundary; dsimp only; split <;> simp

@[simp] theorem saveBoundary_mcal_live : ∀ s, (State.saveBoundary s).mcal.live = s.mcal.live := by
  intros; unfold State.saveBoundary; split <;> simp

@[simp] theorem bankBoundary_mcal_live : ∀ s, (State.bankBoundary s).mcal.live = s.mcal.live := by
  intros; simp [State.bankBoundary]

@[simp] theorem closeSteps_mcal_live : ∀ k s, (State.closeSteps k s).mcal.live = s.mcal.live := by intros; simp [State.closeSteps]

@[simp] theorem cutAsked_mcal_live : ∀ s, (State.cutAsked s).mcal.live = s.mcal.live := by intros; simp [State.cutAsked]

@[simp] theorem closureRecord_mcal_live : ∀ s, (State.closureRecord s).mcal.live = s.mcal.live := by
  intros; simp [State.closureRecord]

@[simp] theorem openNext_mcal_live : ∀ s, (State.openNext s).mcal.live = s.mcal.live := by intros; simp [State.openNext]

theorem execBlotClear_mcal_live : ∀ k m s, ∃ t, execBlotClear k m s = .next t ∧ t.mcal.live = s.mcal.live := by
  intros; refine ⟨_, rfl, ?_⟩; simp

theorem execBankEnter_mcal_live : ∀ k s, ∃ t, execBankEnter k s = .next t ∧ t.mcal.live = s.mcal.live := by
  intros; refine ⟨_, rfl, ?_⟩; refine command_keeps (fun s => s.mcal.live) _ _ (by simp) (by simp) ?_; intro s; dsimp only; (repeat' split) <;> simp

theorem execBankExit_mcal_live : ∀ k s, ∃ t, execBankExit k s = .next t ∧ t.mcal.live = s.mcal.live := by
  intros; refine ⟨_, rfl, ?_⟩; simp

theorem execSoftReset_mcal_live : ∀ k m s, ∃ t, execSoftReset k m s = .next t ∧ t.mcal.live = s.mcal.live := by
  intros; refine ⟨_, rfl, ?_⟩; simp

theorem execCfgSave_mcal_live : ∀ k s, ∃ t, execCfgSave k s = .next t ∧ t.mcal.live = s.mcal.live := by
  intros; refine ⟨_, rfl, ?_⟩; simp

theorem execInkLock_mcal_live : ∀ k m s, ∃ t, execInkLock k m s = .next t ∧ t.mcal.live = s.mcal.live := by
  intros; refine ⟨_, rfl, ?_⟩; simp

@[simp] theorem endLock_mcal_live : ∀ s, (State.endLock s).mcal.live = s.mcal.live := by
  intros; unfold State.endLock; split <;> simp

theorem execInkUnlock_mcal_live : ∀ k s, ∃ t, execInkUnlock k s = .next t ∧ t.mcal.live = s.mcal.live := by
  intros; refine ⟨_, rfl, ?_⟩; simp

theorem execInkLockExpiry_mcal_live : ∀ s, ∃ t, execInkLockExpiry s = .next t ∧ t.mcal.live = s.mcal.live := by
  intros; refine ⟨_, rfl, ?_⟩; simp

@[simp] theorem eventRead_mcal_live : ∀ k m s, (State.eventRead k m s).mcal.live = s.mcal.live := by
  intros; simp [State.eventRead]

theorem execEventRead_mcal_live : ∀ k m s, ∃ t, execEventRead k m s = .next t ∧ t.mcal.live = s.mcal.live := by
  intros; refine ⟨_, rfl, ?_⟩; simp

theorem execEventAck_mcal_live : ∀ k m s, ∃ t, execEventAck k m s = .next t ∧ t.mcal.live = s.mcal.live := by
  intros; refine ⟨_, rfl, ?_⟩; simp

@[simp] theorem profileRead_mcal_live : ∀ k m n s, (State.profileRead k m n s).mcal.live = s.mcal.live := by
  intros; simp [State.profileRead]

theorem execProfileRead_mcal_live : ∀ k m n s, ∃ t, execProfileRead k m n s = .next t ∧ t.mcal.live = s.mcal.live := by
  intros; refine ⟨_, rfl, ?_⟩; simp

theorem execProfileAck_mcal_live : ∀ k m s, ∃ t, execProfileAck k m s = .next t ∧ t.mcal.live = s.mcal.live := by
  intros; refine ⟨_, rfl, ?_⟩; simp

theorem execWbRead_mcal_live : ∀ k m n p s, ∃ t, execWbRead k m n p s = .next t ∧ t.mcal.live = s.mcal.live := by
  intros; refine ⟨_, rfl, ?_⟩; refine command_keeps (fun s => s.mcal.live) _ _ (by simp) (by simp) ?_; intro s; (repeat' split) <;> simp

theorem execCapRead_mcal_live : ∀ k m n p s, ∃ t, execCapRead k m n p s = .next t ∧ t.mcal.live = s.mcal.live := by
  intros; refine ⟨_, rfl, ?_⟩; refine command_keeps (fun s => s.mcal.live) _ _ (by simp) (by simp) ?_; intro s; dsimp only; (repeat' split) <;> simp

theorem execCapTrigger_mcal_live : ∀ k s, ∃ t, execCapTrigger k s = .next t ∧ t.mcal.live = s.mcal.live := by
  intros; refine ⟨_, rfl, ?_⟩; refine command_keeps (fun s => s.mcal.live) _ _ (by simp) (by simp) ?_; intro s; dsimp only; (repeat' split) <;> simp

theorem execCapRelease_mcal_live : ∀ k m s, ∃ t, execCapRelease k m s = .next t ∧ t.mcal.live = s.mcal.live := by
  intros; refine ⟨_, rfl, ?_⟩; refine command_keeps (fun s => s.mcal.live) _ _ (by simp) (by simp) ?_; intro s; dsimp only; (repeat' split) <;> simp

@[simp] theorem logRead_mcal_live : ∀ k m n s, (State.logRead k m n s).mcal.live = s.mcal.live := by intros; simp [State.logRead]

theorem execLogRead_mcal_live : ∀ k m n s, ∃ t, execLogRead k m n s = .next t ∧ t.mcal.live = s.mcal.live := by
  intros; refine ⟨_, rfl, ?_⟩; simp

@[simp] theorem writeLog_mcal_live : ∀ s, (State.writeLog s).mcal.live = s.mcal.live := by
  intros; unfold State.writeLog; dsimp only; (repeat' split) <;> simp

@[simp] theorem fillLog_mcal_live : ∀ k s, (State.fillLog k s).mcal.live = s.mcal.live := by
  intro k s
  induction k generalizing s with
  | zero => rfl
  | succ k ih => unfold State.fillLog; split <;> simp [*]

@[simp] theorem logEcc_mcal_live : ∀ k s, (State.logEcc k s).mcal.live = s.mcal.live := by intros; simp [State.logEcc]

theorem execEventLogWrite_mcal_live : ∀ k s, ∃ t, execEventLogWrite k s = .next t ∧ t.mcal.live = s.mcal.live := by
  intros; refine ⟨_, rfl, ?_⟩; (repeat' split) <;> simp

@[simp] theorem onSlot_mcal_live : ∀ k m s, (State.onSlot k m s).mcal.live = s.mcal.live := by intros; simp [State.onSlot]

@[simp] theorem fwCommand_mcal_live : ∀ k m s p, (∀ x, (p x).mcal.live = x.mcal.live) → (State.fwCommand k m s p).mcal.live = s.mcal.live := by
  intros; unfold State.fwCommand; (repeat' split) <;> simp [*]

@[simp] theorem fwState_mcal_live : ∀ k s, (State.fwState k s).mcal.live = s.mcal.live := by intros; simp [State.fwState]

theorem execFwBegin_mcal_live : ∀ k m s, ∃ t, execFwBegin k m s = .next t ∧ t.mcal.live = s.mcal.live := by
  intros; refine ⟨_, rfl, ?_⟩; simp

theorem execFwWrite_mcal_live : ∀ k m n s, ∃ t, execFwWrite k m n s = .next t ∧ t.mcal.live = s.mcal.live := by
  intros; refine ⟨_, rfl, ?_⟩; simp

theorem execFwVerify_mcal_live : ∀ k s, ∃ t, execFwVerify k s = .next t ∧ t.mcal.live = s.mcal.live := by
  intros; refine ⟨_, rfl, ?_⟩; simp

@[simp] theorem restartCores_mcal_live : ∀ s, (State.restartCores s).mcal.live = s.mcal.live := by
  intros; simp [State.restartCores]

@[simp] theorem noteRecovery_mcal_live : ∀ s, (State.noteRecovery s).mcal.live = s.mcal.live := by
  intros; simp [State.noteRecovery]

@[simp] theorem revert_mcal_live : ∀ k s, (State.revert k s).mcal.live = s.mcal.live := by intros; simp [State.revert]

@[simp] theorem revertOrHold_mcal_live : ∀ k s, (State.revertOrHold k s).mcal.live = s.mcal.live := by
  intros; simp [State.revertOrHold]

@[simp] theorem bootSlot_mcal_live : ∀ s, (State.bootSlot s).mcal.live = s.mcal.live := by intros; simp [State.bootSlot]

@[simp] theorem spoilSlot_mcal_live : ∀ k s, (State.spoilSlot k s).mcal.live = s.mcal.live := by intros; simp [State.spoilSlot]

@[simp] theorem loadCores_mcal_live : ∀ k m s, (State.loadCores k m s).mcal.live = s.mcal.live := by
  intros; simp [State.loadCores]

@[simp] theorem restartAnvil_mcal_live : ∀ k s, (State.restartAnvil k s).mcal.live = s.mcal.live := by
  intros; simp [State.restartAnvil]

@[simp] theorem selfCheck_mcal_live : ∀ s, (State.selfCheck s).mcal.live = s.mcal.live := by intros; simp [State.selfCheck]

@[simp] theorem switchSlot_mcal_live : ∀ k s, (State.switchSlot k s).mcal.live = s.mcal.live := by intros; simp [State.switchSlot]

theorem execFwActivate_mcal_live : ∀ k s, ∃ t, execFwActivate k s = .next t ∧ t.mcal.live = s.mcal.live := by
  intros; refine ⟨_, rfl, ?_⟩; simp

@[simp] theorem commitTrial_mcal_live : ∀ s, (State.commitTrial s).mcal.live = s.mcal.live := by intros; simp [State.commitTrial]

theorem execFwTrialEnd_mcal_live : ∀ s, ∃ t, execFwTrialEnd s = .next t ∧ t.mcal.live = s.mcal.live := by
  intros; refine ⟨_, rfl, ?_⟩; simp

@[simp] theorem heldWrites_mcal_live : ∀ s, (State.heldWrites s).mcal.live = s.mcal.live := by
  intros; unfold State.heldWrites; split <;> simp

@[simp] theorem sramError_mcal_live : ∀ k s, (State.sramError k s).mcal.live = s.mcal.live := by
  intros; unfold State.sramError; split <;> simp

theorem execSramScrub_mcal_live : ∀ k s, ∃ t, execSramScrub k s = .next t ∧ t.mcal.live = s.mcal.live := by
  intros; refine ⟨_, rfl, ?_⟩; simp

@[simp] theorem changeRef_mcal_live : ∀ k s, (State.changeRef k s).mcal.live = s.mcal.live := by intros; simp [State.changeRef]

@[simp] theorem xtalFail_mcal_live : ∀ s, (State.xtalFail s).mcal.live = s.mcal.live := by intros; simp [State.xtalFail]

theorem execXtalFail_mcal_live : ∀ s, ∃ t, execXtalFail s = .next t ∧ t.mcal.live = s.mcal.live := by
  intros; refine ⟨_, rfl, ?_⟩; simp

theorem execXtalRate_mcal_live : ∀ k s, ∃ t, execXtalRate k s = .next t ∧ t.mcal.live = s.mcal.live := by
  intros; refine ⟨_, rfl, ?_⟩; simp

@[simp] theorem xtalReturn_mcal_live : ∀ s, (State.xtalReturn s).mcal.live = s.mcal.live := by intros; simp [State.xtalReturn]

theorem execXtalReturn_mcal_live : ∀ s, ∃ t, execXtalReturn s = .next t ∧ t.mcal.live = s.mcal.live := by
  intros; refine ⟨_, rfl, ?_⟩; simp

theorem execCrystalAccepted_mcal_live : ∀ s, ∃ t, execCrystalAccepted s = .next t ∧ t.mcal.live = s.mcal.live := by
  intros; refine ⟨_, rfl, ?_⟩; simp

theorem execXtalStartTimeout_mcal_live : ∀ s, ∃ t, execXtalStartTimeout s = .next t ∧ t.mcal.live = s.mcal.live := by
  intros; refine ⟨_, rfl, ?_⟩; simp

@[simp] theorem addCause_mcal_live : ∀ k s, (State.addCause k s).mcal.live = s.mcal.live := by intros; simp [State.addCause]

@[simp] theorem shed_mcal_live : ∀ s, (State.shed s).mcal.live = s.mcal.live := by intros; simp [State.shed]

@[simp] theorem warn_mcal_live : ∀ k m s, (State.warn k m s).mcal.live = s.mcal.live := by intros; simp [State.warn]

@[simp] theorem warnAgain_mcal_live : ∀ k m s, (State.warnAgain k m s).mcal.live = s.mcal.live := by
  intros; simp [State.warnAgain]

theorem execPowerFail_mcal_live : ∀ k m s, ∃ t, execPowerFail k m s = .next t ∧ t.mcal.live = s.mcal.live := by
  intros; refine ⟨_, rfl, ?_⟩; simp

@[simp] theorem writeEntry_mcal_live : ∀ k s, (State.writeEntry k s).mcal.live = s.mcal.live := by intros; simp [State.writeEntry]

@[simp] theorem presentEntry_mcal_live : ∀ s, (State.presentEntry s).mcal.live = s.mcal.live := by
  intros; simp [State.presentEntry]

@[simp] theorem journalEntry_mcal_live : ∀ s, (State.journalEntry s).mcal.live = s.mcal.live := by
  intros; unfold State.journalEntry; (repeat' split) <;> simp

theorem execJournalEntry_mcal_live : ∀ s, ∃ t, execJournalEntry s = .next t ∧ t.mcal.live = s.mcal.live := by
  intros; refine ⟨_, rfl, ?_⟩; simp

@[simp] theorem tailUpdate_mcal_live : ∀ s, (State.tailUpdate s).mcal.live = s.mcal.live := by
  intros; unfold State.tailUpdate; split <;> simp

theorem execTailUpdate_mcal_live : ∀ s, ∃ t, execTailUpdate s = .next t ∧ t.mcal.live = s.mcal.live := by
  intros; refine ⟨_, rfl, ?_⟩; simp

theorem execJournalErase_mcal_live : ∀ k s, ∃ t, execJournalErase k s = .next t ∧ t.mcal.live = s.mcal.live := by
  intros; refine ⟨_, rfl, ?_⟩; simp

theorem execPfSustained_mcal_live : ∀ s, ∃ t, execPfSustained s = .next t ∧ t.mcal.live = s.mcal.live := by
  intros; refine ⟨_, rfl, ?_⟩; simp

@[simp] theorem pfRecovered_mcal_live : ∀ s, (State.pfRecovered s).mcal.live = s.mcal.live := by intros; simp [State.pfRecovered]

theorem execPfRecovered_mcal_live : ∀ s, ∃ t, execPfRecovered s = .next t ∧ t.mcal.live = s.mcal.live := by
  intros; refine ⟨_, rfl, ?_⟩; simp

@[simp] theorem resetCause_mcal_live : ∀ k s, (State.resetCause k s).mcal.live = s.mcal.live := by intros; simp [State.resetCause]

@[simp] theorem coldTrims_mcal_live : ∀ k s, (State.coldTrims k s).mcal.live = s.mcal.live := by intros; simp [State.coldTrims]

@[simp] theorem begin_mcal_live : ∀ k m s, (State.begin_ k m s).mcal.live = s.mcal.live := by intros; simp [State.begin_]

@[simp] theorem resetEntry_mcal_live : ∀ s, (State.resetEntry s).mcal.live = s.mcal.live := by intros; simp [State.resetEntry]

theorem execResetnRelease_mcal_live : ∀ k m s, ∃ t, execResetnRelease k m s = .next t ∧ t.mcal.live = s.mcal.live := by
  intros; refine ⟨_, rfl, ?_⟩; simp

@[simp] theorem flushAll_mcal_live : ∀ s, (State.flushAll s).mcal.live = s.mcal.live := by intros; simp [State.flushAll]

@[simp] theorem loseWaiting_mcal_live : ∀ s, (State.loseWaiting s).mcal.live = s.mcal.live := by intros; simp [State.loseWaiting]

@[simp] theorem warmReset_mcal_live : ∀ s, (State.warmReset s).mcal.live = s.mcal.live := by intros; simp [State.warmReset]

@[simp] theorem restartStartup_mcal_live : ∀ s, (State.restartStartup s).mcal.live = s.mcal.live := by
  intros; simp [State.restartStartup]

theorem execResetnWarm_mcal_live : ∀ k m s, ∃ t, execResetnWarm k m s = .next t ∧ t.mcal.live = s.mcal.live := by
  intros; refine ⟨_, rfl, ?_⟩; simp

@[simp] theorem anvWdog_mcal_live : ∀ k m s, (State.anvWdog k m s).mcal.live = s.mcal.live := by intros; simp [State.anvWdog]

theorem execAnvWdog_mcal_live : ∀ k m s, ∃ t, execAnvWdog k m s = .next t ∧ t.mcal.live = s.mcal.live := by
  intros; refine ⟨_, rfl, ?_⟩; simp

theorem execSpiPortReset_mcal_live : ∀ k s, ∃ t, execSpiPortReset k s = .next t ∧ t.mcal.live = s.mcal.live := by
  intros; refine ⟨_, rfl, ?_⟩; split <;> simp

theorem execBrk_mcal_live : ∀ k s, ∃ t, execBrk k s = .next t ∧ t.mcal.live = s.mcal.live := by intros; refine ⟨_, rfl, ?_⟩; simp

theorem execVaonChangeover_mcal_live : ∀ k s, ∃ t, execVaonChangeover k s = .next t ∧ t.mcal.live = s.mcal.live := by
  intros; refine ⟨_, rfl, ?_⟩; simp

theorem execSupplyLossBoth_mcal_live : ∀ s, ∃ t, execSupplyLossBoth s = .next t ∧ t.mcal.live = s.mcal.live := by
  intros; refine ⟨_, rfl, ?_⟩; simp

@[simp] theorem resume_mcal_live : ∀ k s, (State.resume k s).mcal.live = s.mcal.live := by intros; simp [State.resume]

@[simp] theorem restoreRecord_mcal_live : ∀ k s, (State.restoreRecord k s).mcal.live = s.mcal.live := by
  intros; simp [State.restoreRecord]

@[simp] theorem fallBack_mcal_live : ∀ k s, (State.fallBack k s).mcal.live = s.mcal.live := by intros; simp [State.fallBack]

@[simp] theorem enterHeld_mcal_live : ∀ s, (State.enterHeld s).mcal.live = s.mcal.live := by intros; simp [State.enterHeld]

@[simp] theorem journalRestored_mcal_live : ∀ k s, (State.journalRestored k s).mcal.live = s.mcal.live := by
  intros; unfold State.journalRestored; dsimp only; (repeat' split) <;> simp

theorem execJournalRestored_mcal_live : ∀ k s, ∃ t, execJournalRestored k s = .next t ∧ t.mcal.live = s.mcal.live := by
  intros; refine ⟨_, rfl, ?_⟩; simp

@[simp] theorem testSpare_mcal_live : ∀ k m s, (State.testSpare k m s).mcal.live = s.mcal.live := by
  intros; simp [State.testSpare]

@[simp] theorem testChan_mcal_live : ∀ k m s, (State.testChan k m s).mcal.live = s.mcal.live := by intros; simp [State.testChan]

@[simp] theorem testEngines_mcal_live : ∀ k m s, (State.testEngines k m s).mcal.live = s.mcal.live := by
  intros; unfold State.testEngines; dsimp only; (repeat' split) <;> simp

theorem execStartUpTest_mcal_live : ∀ k m n s, ∃ t, execStartUpTest k m n s = .next t ∧ t.mcal.live = s.mcal.live := by
  intros; refine ⟨_, rfl, ?_⟩; simp

theorem execPortsReady_mcal_live : ∀ s, ∃ t, execPortsReady s = .next t ∧ t.mcal.live = s.mcal.live := by
  intros; refine ⟨_, rfl, ?_⟩; simp

@[simp] theorem checkImage_mcal_live : ∀ k m s, (State.checkImage k m s).mcal.live = s.mcal.live := by
  intros; unfold State.checkImage; split <;> simp

@[simp] theorem applyImage_mcal_live : ∀ k m s, (State.applyImage k m s).mcal.live = s.mcal.live := by
  intros; simp [State.applyImage]

@[simp] theorem configured_mcal_live : ∀ k s, (State.configured k s).mcal.live = s.mcal.live := by intros; simp [State.configured]

@[simp] theorem configRestore_mcal_live : ∀ k m s, (State.configRestore k m s).mcal.live = s.mcal.live := by
  intros; unfold State.configRestore; dsimp only; (repeat' split) <;> simp

theorem execConfigRestore_mcal_live : ∀ k m s, ∃ t, execConfigRestore k m s = .next t ∧ t.mcal.live = s.mcal.live := by
  intros; refine ⟨_, rfl, ?_⟩; simp

theorem execCfgRestoreFail_mcal_live : ∀ s, ∃ t, execCfgRestoreFail s = .next t ∧ t.mcal.live = s.mcal.live := by
  intros; refine ⟨_, rfl, ?_⟩; simp

theorem execStartupReady_mcal_live : ∀ s, ∃ t, execStartupReady s = .next t ∧ t.mcal.live = s.mcal.live := by
  intros; refine ⟨_, rfl, ?_⟩; simp

@[simp] theorem openAll_mcal_live : ∀ s, (State.openAll s).mcal.live = s.mcal.live := by intros; simp [State.openAll]

@[simp] theorem raiseUnmetered_mcal_live : ∀ s, (State.raiseUnmetered s).mcal.live = s.mcal.live := by
  intros; simp [State.raiseUnmetered]

@[simp] theorem cellAlarm_mcal_live : ∀ k s, (State.cellAlarm k s).mcal.live = s.mcal.live := by intros; simp [State.cellAlarm]

end Sys2Proof.Laws
end

