-- ==== Sys2Proof/Laws/KeepsEffective.lean ====
section
/-!
SUPPORT. What the operations and the rows that do not touch `eff` leave: that.
-/
namespace Sys2Proof.Laws

open Sys2Proof.Machine

@[simp] theorem ite_eff (c : Prop) [Decidable c] (a b : State) : (if c then a else b).eff = if c then a.eff else b.eff := by
  split <;> rfl

@[simp] theorem chain_eff {α : Type} (l : List α) (f : α → State → State) (s : State) (h : ∀ a s, (f a s).eff = s.eff) :
    (chain l f s).eff = s.eff := chain_keeps (fun s => s.eff) l f h s

@[simp] theorem fresh_eff : ∀ s, (State.fresh s).2.eff = s.eff := by intros; simp [State.fresh]

@[simp] theorem settingTook_eff : ∀ s, (State.settingTook s).eff = s.eff := by intros; simp [State.settingTook]

@[simp] theorem phaseEnds_eff : ∀ k s, (State.phaseEnds k s).eff = s.eff := by intros; simp [State.phaseEnds]

@[simp] theorem reshade_eff : ∀ k s, (State.reshade k s).eff = s.eff := by intros; simp [State.reshade]

@[simp] theorem connectSpare_eff : ∀ k m s, (State.connectSpare k m s).eff = s.eff := by intros; simp [State.connectSpare]

@[simp] theorem advanceSpare_eff : ∀ k s, (State.advanceSpare k s).eff = s.eff := by
  intros; unfold State.advanceSpare; split <;> simp

@[simp] theorem startCheck_eff : ∀ k m s, (State.startCheck k m s).eff = s.eff := by intros; simp [State.startCheck]

@[simp] theorem nextCheck_eff : ∀ k s, (State.nextCheck k s).eff = s.eff := by
  intros; unfold State.nextCheck; (repeat' split) <;> simp

@[simp] theorem endCheck_eff : ∀ k s, (State.endCheck k s).eff = s.eff := by intros; unfold State.endCheck; split <;> simp

@[simp] theorem abortCheck_eff : ∀ k s, (State.abortCheck k s).eff = s.eff := by intros; unfold State.abortCheck; split <;> simp

@[simp] theorem queueCheck_eff : ∀ k m s, (State.queueCheck k m s).eff = s.eff := by intros; simp [State.queueCheck]

@[simp] theorem failChan_eff : ∀ k m s, (State.failChan k m s).eff = s.eff := by intros; simp [State.failChan]

@[simp] theorem substituted_eff : ∀ k m n p s, (State.substituted k m n p s).eff = s.eff := by intros; simp [State.substituted]

@[simp] theorem takeSpare_eff : ∀ k s, (State.takeSpare k s).eff = s.eff := by
  intros; unfold State.takeSpare; dsimp only; (repeat' split) <;> simp

@[simp] theorem forceSpare_eff : ∀ k s, (State.forceSpare k s).eff = s.eff := by intros; simp [State.forceSpare]

@[simp] theorem startRestore_eff : ∀ k s, (State.startRestore k s).eff = s.eff := by intros; simp [State.startRestore]

@[simp] theorem check_eff : ∀ k s, (State.check k s).eff = s.eff := by
  intros; unfold State.check; dsimp only; (repeat' split) <;> simp

@[simp] theorem restoreFailed_eff : ∀ k s, (State.restoreFailed k s).eff = s.eff := by intros; simp [State.restoreFailed]

@[simp] theorem workingFault_eff : ∀ k m s, (State.workingFault k m s).eff = s.eff := by intros; simp [State.workingFault]

@[simp] theorem spareDown_eff : ∀ k s, (State.spareDown k s).eff = s.eff := by intros; unfold State.spareDown; split <;> simp

@[simp] theorem spareFault_eff : ∀ k s, (State.spareFault k s).eff = s.eff := by intros; unfold State.spareFault; split <;> simp

@[simp] theorem modFault_eff : ∀ k m s, (State.modFault k m s).eff = s.eff := by intros; unfold State.modFault; split <;> simp

theorem execModulatorHardFault_eff : ∀ k m s, ∃ t, execModulatorHardFault k m s = .next t ∧ t.eff = s.eff := by
  intros; refine ⟨_, rfl, ?_⟩; simp

@[simp] theorem splice_eff : ∀ k s, (State.splice k s).eff = s.eff := by intros; simp [State.splice]

theorem execChSubstituted_eff : ∀ k s, ∃ t, execChSubstituted k s = .next t ∧ t.eff = s.eff := by
  intros; refine ⟨_, rfl, ?_⟩; simp

@[simp] theorem lateSplice_eff : ∀ k s, (State.lateSplice k s).eff = s.eff := by intros; simp [State.lateSplice]

theorem execIsolatedParityError_eff : ∀ k s, ∃ t, execIsolatedParityError k s = .next t ∧ t.eff = s.eff := by
  intros
  refine ⟨_, rfl, ?_⟩
  dsimp only
  split
  · simp
  · split <;> simp

@[simp] theorem trimNote_eff : ∀ k m n s, (State.trimNote k m n s).eff = s.eff := by intros; simp [State.trimNote]

@[simp] theorem setModTrim_eff : ∀ k m s, (State.setModTrim k m s).eff = s.eff := by intros; simp [State.setModTrim]

@[simp] theorem askModTrim_eff : ∀ k m s, (State.askModTrim k m s).eff = s.eff := by
  intros; unfold State.askModTrim; split <;> simp

@[simp] theorem trimBoundary_eff : ∀ k s, (State.trimBoundary k s).eff = s.eff := by
  intros; unfold State.trimBoundary; split <;> simp

@[simp] theorem spareTrim_eff : ∀ k s, (State.spareTrim k s).eff = s.eff := by intros; unfold State.spareTrim; split <;> simp

@[simp] theorem setVref_eff : ∀ k s, (State.setVref k s).eff = s.eff := by intros; simp [State.setVref]

@[simp] theorem setOsc_eff : ∀ k s, (State.setOsc k s).eff = s.eff := by intros; simp [State.setOsc]

@[simp] theorem askBkup_eff : ∀ k s, (State.askBkup k s).eff = s.eff := by intros; simp [State.askBkup]

@[simp] theorem bkupDueNow_eff : ∀ s, (State.bkupDueNow s).eff = s.eff := by intros; unfold State.bkupDueNow; split <;> simp

@[simp] theorem askPanelOsc_eff : ∀ k s, (State.askPanelOsc k s).eff = s.eff := by intros; simp [State.askPanelOsc]

@[simp] theorem panelOscNow_eff : ∀ s, (State.panelOscNow s).eff = s.eff := by intros; unfold State.panelOscNow; split <;> simp

@[simp] theorem dropModTrim_eff : ∀ k s, (State.dropModTrim k s).eff = s.eff := by
  intros; unfold State.dropModTrim; split <;> simp

@[simp] theorem reloadTrims_eff : ∀ s, (State.reloadTrims s).eff = s.eff := by intros; simp [State.reloadTrims]

@[simp] theorem chDrift_eff : ∀ k m s, (State.chDrift k m s).eff = s.eff := by intros; simp [State.chDrift]

@[simp] theorem dwellChecked_eff : ∀ k s, (State.dwellChecked k s).eff = s.eff := by intros; simp [State.dwellChecked]

@[simp] theorem spareMove_eff : ∀ k m s, (State.spareMove k m s).eff = s.eff := by
  intros; unfold State.spareMove; dsimp only; (repeat' split) <;> simp

theorem execSpareMove_eff : ∀ k m s, ∃ t, execSpareMove k m s = .next t ∧ t.eff = s.eff := by intros; refine ⟨_, rfl, ?_⟩; simp

theorem execDriftCheckPhase_eff : ∀ k m s, ∃ t, execDriftCheckPhase k m s = .next t ∧ t.eff = s.eff := by
  intros; refine ⟨_, rfl, ?_⟩; (repeat' split) <;> simp

theorem execChDriftChecked_eff : ∀ k s, ∃ t, execChDriftChecked k s = .next t ∧ t.eff = s.eff := by
  intros; refine ⟨_, rfl, ?_⟩; split <;> simp

@[simp] theorem restoreEnd_eff : ∀ k m n s, (State.restoreEnd k m n s).eff = s.eff := by
  intros; unfold State.restoreEnd; dsimp only; (repeat' split) <;> simp

theorem execChRestored_eff : ∀ k m n s, ∃ t, execChRestored k m n s = .next t ∧ t.eff = s.eff := by
  intros; refine ⟨_, rfl, ?_⟩; simp

theorem execSuppressionEnd_eff : ∀ k s, ∃ t, execSuppressionEnd k s = .next t ∧ t.eff = s.eff := by
  intros; refine ⟨_, rfl, ?_⟩; simp

theorem execChClip_eff : ∀ k s, ∃ t, execChClip k s = .next t ∧ t.eff = s.eff := by intros; refine ⟨_, rfl, ?_⟩; simp

@[simp] theorem spareBoundary_eff : ∀ k s, (State.spareBoundary k s).eff = s.eff := by
  intros; unfold State.spareBoundary; dsimp only; (repeat' split) <;> simp

@[simp] theorem acted_eff : ∀ k m s p, (∀ x, (p x).1.eff = x.eff) → (State.acted k m s p).eff = s.eff := by
  intros; unfold State.acted; dsimp only; (repeat' split) <;> simp [*]

@[simp] theorem abandonActivation_eff : ∀ s, (State.abandonActivation s).eff = s.eff := by intros; simp [State.abandonActivation]

@[simp] theorem command_eff : ∀ k m s p, (∀ x, (p x).eff = x.eff) → (State.command k m s p).eff = s.eff := by
  intros; unfold State.command; dsimp only; (repeat' split) <;> simp [*]

@[simp] theorem softScope_eff : ∀ k s, (State.softScope k s).eff = s.eff := by intros; unfold State.softScope; split <;> simp

@[simp] theorem settleN_eff : ∀ k s, (State.settleN k s).eff = s.eff := by
  intro k s
  induction k generalizing s with
  | zero => rfl
  | succ k ih =>
    unfold State.settleN
    split
    · simp [*]
    · split <;> simp [*]

@[simp] theorem settleBaud_eff : ∀ s, (State.settleBaud s).eff = s.eff := by
  intros; unfold State.settleBaud; dsimp only; (repeat' split) <;> simp

@[simp] theorem settle_eff : ∀ s, (State.settle s).eff = s.eff := by intros; simp [State.settle]

@[simp] theorem transact_eff : ∀ k m s, (State.transact k m s).eff = s.eff := by intros; simp [State.transact]

@[simp] theorem delivered_eff : ∀ k m n s, (State.delivered k m n s).eff = s.eff := by intros; simp [State.delivered]

@[simp] theorem readPort_eff : ∀ k m s, (State.readPort k m s).eff = s.eff := by
  intros; unfold State.readPort; dsimp only; (repeat' split) <;> simp

theorem execRead_eff : ∀ k m s, ∃ t, execRead k m s = .next t ∧ t.eff = s.eff := by intros; refine ⟨_, rfl, ?_⟩; split <;> simp

theorem execStatus_eff : ∀ k s, ∃ t, execStatus k s = .next t ∧ t.eff = s.eff := by intros; refine ⟨_, rfl, ?_⟩; split <;> simp

theorem execUartReplySent_eff : ∀ s, ∃ t, execUartReplySent s = .next t ∧ t.eff = s.eff := by
  intros; refine ⟨_, rfl, ?_⟩; (repeat' split) <;> simp

theorem execPortTimeout_eff : ∀ k s, ∃ t, execPortTimeout k s = .next t ∧ t.eff = s.eff := by
  intros; refine ⟨_, rfl, ?_⟩; split <;> simp

theorem execUartFrameStall_eff : ∀ s, ∃ t, execUartFrameStall s = .next t ∧ t.eff = s.eff := by intros; refine ⟨_, rfl, ?_⟩; simp

@[simp] theorem replyDropped_eff : ∀ k m s, (State.replyDropped k m s).eff = s.eff := by
  intros; unfold State.replyDropped; dsimp only; (repeat' split) <;> simp

theorem execReplyDropped_eff : ∀ k m s, ∃ t, execReplyDropped k m s = .next t ∧ t.eff = s.eff := by
  intros; refine ⟨_, rfl, ?_⟩; simp

theorem execSessionIdleTimeout_eff : ∀ k s, ∃ t, execSessionIdleTimeout k s = .next t ∧ t.eff = s.eff := by
  intros; refine ⟨_, rfl, ?_⟩; simp

theorem execNop_eff : ∀ k m s, ∃ t, execNop k m s = .next t ∧ t.eff = s.eff := by intros; refine ⟨_, rfl, ?_⟩; simp

theorem execSessionClose_eff : ∀ k s, ∃ t, execSessionClose k s = .next t ∧ t.eff = s.eff := by intros; refine ⟨_, rfl, ?_⟩; simp

theorem execSetPriority_eff : ∀ k m s, ∃ t, execSetPriority k m s = .next t ∧ t.eff = s.eff := by
  intros; refine ⟨_, rfl, ?_⟩; simp

@[simp] theorem sessionOpen_eff : ∀ k m s, (State.sessionOpen k m s).eff = s.eff := by
  intros; unfold State.sessionOpen; dsimp only; (repeat' split) <;> simp

theorem execSessionOpen_eff : ∀ k m s, ∃ t, execSessionOpen k m s = .next t ∧ t.eff = s.eff := by
  intros; refine ⟨_, rfl, ?_⟩; simp

@[simp] theorem grdNotify_eff : ∀ k s, (State.grdNotify k s).eff = s.eff := by intros; simp [State.grdNotify]

@[simp] theorem declareGroup_eff : ∀ k m s, (State.declareGroup k m s).eff = s.eff := by intros; simp [State.declareGroup]

theorem execGrdSource_eff : ∀ k m s, ∃ t, execGrdSource k m s = .next t ∧ t.eff = s.eff := by intros; refine ⟨_, rfl, ?_⟩; simp

theorem execCellScanPeriod_eff : ∀ k m s, ∃ t, execCellScanPeriod k m s = .next t ∧ t.eff = s.eff := by
  intros; refine ⟨_, rfl, ?_⟩; simp

theorem execGrdClock_eff : ∀ s, ∃ t, execGrdClock s = .next t ∧ t.eff = s.eff := by intros; refine ⟨_, rfl, ?_⟩; simp

@[simp] theorem cellReplay_eff : ∀ s, (State.cellReplay s).eff = s.eff := by intros; simp [State.cellReplay]

@[simp] theorem arm_eff : ∀ s, (State.arm s).eff = s.eff := by intros; simp [State.arm]

@[simp] theorem fdis_eff : ∀ k s, (State.fdis k s).eff = s.eff := by intros; simp [State.fdis]

theorem execGrdClearArm_eff : ∀ k m s, ∃ t, execGrdClearArm k m s = .next t ∧ t.eff = s.eff := by
  intros; refine ⟨_, rfl, ?_⟩; simp

@[simp] theorem clearGuards_eff : ∀ k m s, (State.clearGuards k m s).eff = s.eff := by intros; simp [State.clearGuards]

theorem execGrdClearConfirm_eff : ∀ k m n s, ∃ t, execGrdClearConfirm k m n s = .next t ∧ t.eff = s.eff := by
  intros; refine ⟨_, rfl, ?_⟩; refine command_keeps (fun s => s.eff) _ _ (by simp) (by simp) ?_; intro s; dsimp only; (repeat' split) <;> simp

theorem execGrdChallengeExpiry_eff : ∀ s, ∃ t, execGrdChallengeExpiry s = .next t ∧ t.eff = s.eff := by
  intros; refine ⟨_, rfl, ?_⟩; simp

theorem execGrdTest_eff : ∀ k m n s, ∃ t, execGrdTest k m n s = .next t ∧ t.eff = s.eff := by
  intros; refine ⟨_, rfl, ?_⟩; split <;> simp

theorem execIdCertRead_eff : ∀ k m n s, ∃ t, execIdCertRead k m n s = .next t ∧ t.eff = s.eff := by
  intros; refine ⟨_, rfl, ?_⟩; simp

@[simp] theorem outOfOrder_eff : ∀ k m n p s, (State.outOfOrder k m n p s).eff = s.eff := by intros; simp [State.outOfOrder]

@[simp] theorem retire_eff : ∀ k m n s, (State.retire k m n s).eff = s.eff := by
  intros; unfold State.retire; dsimp only; (repeat' split) <;> simp

@[simp] theorem disableTarget_eff : ∀ k s, (State.disableTarget k s).eff = s.eff := by intros; simp [State.disableTarget]

theorem execIntTimeout_eff : ∀ k s, ∃ t, execIntTimeout k s = .next t ∧ t.eff = s.eff := by
  intros; refine ⟨_, rfl, ?_⟩; split <;> simp

@[simp] theorem refCheck_eff : ∀ s, (State.refCheck s).eff = s.eff := by intros; simp [State.refCheck]

@[simp] theorem tempCheck_eff : ∀ s, (State.tempCheck s).eff = s.eff := by intros; simp [State.tempCheck]

@[simp] theorem vbatReading_eff : ∀ s, (State.vbatReading s).eff = s.eff := by intros; simp [State.vbatReading]

@[simp] theorem hallReading_eff : ∀ k s, (State.hallReading k s).eff = s.eff := by
  intros; unfold State.hallReading; dsimp only; (repeat' split) <;> simp

@[simp] theorem auxScan_eff : ∀ k m s, (State.auxScan k m s).eff = s.eff := by intros; unfold State.auxScan; split <;> simp

theorem execAuxScan_eff : ∀ k m s, ∃ t, execAuxScan k m s = .next t ∧ t.eff = s.eff := by intros; refine ⟨_, rfl, ?_⟩; simp

theorem execAuxRead_eff : ∀ k m n s, ∃ t, execAuxRead k m n s = .next t ∧ t.eff = s.eff := by
  intros; refine ⟨_, rfl, ?_⟩; split <;> simp

@[simp] theorem tableLoad_eff : ∀ k m n p q r s, (State.tableLoad k m n p q r s).eff = s.eff := by
  intros; unfold State.tableLoad; dsimp only; (repeat' split) <;> simp

theorem execPnlTableLoad_eff : ∀ k m n p q r s, ∃ t, execPnlTableLoad k m n p q r s = .next t ∧ t.eff = s.eff := by
  intros; refine ⟨_, rfl, ?_⟩; simp

theorem execPnlImageWrite_eff : ∀ k m n p s, ∃ t, execPnlImageWrite k m n p s = .next t ∧ t.eff = s.eff := by
  intros; refine ⟨_, rfl, ?_⟩; split <;> simp

@[simp] theorem steer_eff : ∀ s, (State.steer s).eff = s.eff := by intros; simp [State.steer]

@[simp] theorem pnlDone_eff : ∀ k m n s, (State.pnlDone k m n s).eff = s.eff := by intros; simp [State.pnlDone]

@[simp] theorem slotReq_eff : ∀ k m s, (State.slotReq k m s).eff = s.eff := by intros; unfold State.slotReq; split <;> simp

@[simp] theorem placeReq_eff : ∀ k m s, (State.placeReq k m s).eff = s.eff := by intros; unfold State.placeReq; split <;> simp

@[simp] theorem supersede_eff : ∀ k m s, (State.supersede k m s).eff = s.eff := by intros; simp [State.supersede]

@[simp] theorem panelUpdate_eff : ∀ k m n s, (State.panelUpdate k m n s).1.eff = s.eff := by
  intros; unfold State.panelUpdate; split <;> simp

@[simp] theorem pnlUpdate_eff : ∀ k m n p s, (State.pnlUpdate k m n p s).eff = s.eff := by intros; simp [State.pnlUpdate]

theorem execPnlUpdate_eff : ∀ k m n p s, ∃ t, execPnlUpdate k m n p s = .next t ∧ t.eff = s.eff := by
  intros; refine ⟨_, rfl, ?_⟩; simp

@[simp] theorem refreshDirty_eff : ∀ s, (State.refreshDirty s).eff = s.eff := by intros; simp [State.refreshDirty]

@[simp] theorem startWaiting_eff : ∀ s, (State.startWaiting s).eff = s.eff := by intros; simp [State.startWaiting]

@[simp] theorem endRun_eff : ∀ k m n s, (State.endRun k m n s).eff = s.eff := by intros; simp [State.endRun]

@[simp] theorem startRun_eff : ∀ k m s, (State.startRun k m s).eff = s.eff := by intros; unfold State.startRun; split <;> simp

@[simp] theorem pairEnd_eff : ∀ k s, (State.pairEnd k s).eff = s.eff := by intros; unfold State.pairEnd; split <;> simp

@[simp] theorem pairStart_eff : ∀ k s, (State.pairStart k s).eff = s.eff := by intros; unfold State.pairStart; split <;> simp

@[simp] theorem dropPending_eff : ∀ k s, (State.dropPending k s).eff = s.eff := by
  intros; unfold State.dropPending; dsimp only; (repeat' split) <;> simp

@[simp] theorem pairBoundary_eff : ∀ s, (State.pairBoundary s).eff = s.eff := by intros; simp [State.pairBoundary]

theorem execPanelPairBoundary_eff : ∀ s, ∃ t, execPanelPairBoundary s = .next t ∧ t.eff = s.eff := by
  intros; refine ⟨_, rfl, ?_⟩; simp

theorem execPanelFrameBoundary_eff : ∀ s, ∃ t, execPanelFrameBoundary s = .next t ∧ t.eff = s.eff := by
  intros; refine ⟨_, rfl, ?_⟩; simp

@[simp] theorem faultRegion_eff : ∀ k s, (State.faultRegion k s).eff = s.eff := by
  intros; unfold State.faultRegion; dsimp only; (repeat' split) <;> simp

@[simp] theorem panelFault_eff : ∀ s, (State.panelFault s).eff = s.eff := by intros; simp [State.panelFault]

theorem execPanelFault_eff : ∀ k s, ∃ t, execPanelFault k s = .next t ∧ t.eff = s.eff := by intros; refine ⟨_, rfl, ?_⟩; simp

theorem execRailRead_eff : ∀ k s, ∃ t, execRailRead k s = .next t ∧ t.eff = s.eff := by
  intros; refine ⟨_, rfl, ?_⟩; dsimp only; (repeat' split) <;> simp

theorem execRailStep_eff : ∀ s, ∃ t, execRailStep s = .next t ∧ t.eff = s.eff := by intros; refine ⟨_, rfl, ?_⟩; simp

@[simp] theorem closeout_eff : ∀ s, (State.closeout s).eff = s.eff := by intros; simp [State.closeout]

@[simp] theorem recover_eff : ∀ k s, (State.recover k s).eff = s.eff := by intros; simp [State.recover]

@[simp] theorem stage_eff : ∀ k m s, (State.stage k m s).eff = s.eff := by intros; simp [State.stage]

@[simp] theorem noteRejoined_eff : ∀ k m s, (State.noteRejoined k m s).eff = s.eff := by intros; simp [State.noteRejoined]

@[simp] theorem rejoinComb_eff : ∀ s, (State.rejoinComb s).eff = s.eff := by intros; unfold State.rejoinComb; split <;> simp

@[simp] theorem rejoinMet_eff : ∀ s, (State.rejoinMet s).eff = s.eff := by intros; unfold State.rejoinMet; split <;> simp

@[simp] theorem rejoin_eff : ∀ k m s, (State.rejoin k m s).eff = s.eff := by
  intros; unfold State.rejoin; dsimp only; (repeat' split) <;> simp

@[simp] theorem control_eff : ∀ k m s, (State.control k m s).eff = s.eff := by intros; unfold State.control; split <;> simp

@[simp] theorem guardControl_eff : ∀ k s, (State.guardControl k s).eff = s.eff := by intros; simp [State.guardControl]

@[simp] theorem askOsc_eff : ∀ k s, (State.askOsc k s).eff = s.eff := by intros; simp [State.askOsc]

@[simp] theorem noteKey_eff : ∀ k s, (State.noteKey k s).eff = s.eff := by intros; simp [State.noteKey]

@[simp] theorem slotCheck_eff : ∀ k m s, (State.slotCheck k m s).eff = s.eff := by intros; simp [State.slotCheck]

@[simp] theorem latchSlots_eff : ∀ k s, (State.latchSlots k s).eff = s.eff := by intros; simp [State.latchSlots]

@[simp] theorem deliverSlots_eff : ∀ s, (State.deliverSlots s).eff = s.eff := by intros; simp [State.deliverSlots]

@[simp] theorem combCompare_eff : ∀ k m n s, (State.combCompare k m n s).eff = s.eff := by intros; simp [State.combCompare]

@[simp] theorem frameLines_eff : ∀ s, (State.frameLines s).eff = s.eff := by intros; simp [State.frameLines]

@[simp] theorem acquire_eff : ∀ k s, (State.acquire k s).eff = s.eff := by intros; simp [State.acquire]

@[simp] theorem survey_eff : ∀ s, (State.survey s).eff = s.eff := by intros; simp [State.survey]

@[simp] theorem relockFrame_eff : ∀ s, (State.relockFrame s).eff = s.eff := by intros; simp [State.relockFrame]

@[simp] theorem handOffFrame_eff : ∀ s, (State.handOffFrame s).eff = s.eff := by intros; simp [State.handOffFrame]

@[simp] theorem takePins_eff : ∀ s, (State.takePins s).eff = s.eff := by intros; simp [State.takePins]

@[simp] theorem combFrame_eff : ∀ k m n p s, (State.combFrame k m n p s).eff = s.eff := by intros; simp [State.combFrame]

theorem execCombFrame_eff : ∀ k m n p s, ∃ t, execCombFrame k m n p s = .next t ∧ t.eff = s.eff := by
  intros; refine ⟨_, rfl, ?_⟩; simp

theorem execEngFenced_eff : ∀ k s, ∃ t, execEngFenced k s = .next t ∧ t.eff = s.eff := by intros; refine ⟨_, rfl, ?_⟩; simp

@[simp] theorem book_eff : ∀ k m n s, (State.book k m n s).eff = s.eff := by intros; simp [State.book]

@[simp] theorem closePoint_eff : ∀ k s, (State.closePoint k s).eff = s.eff := by intros; unfold State.closePoint; split <;> simp

@[simp] theorem closeBalance_eff : ∀ k s, (State.closeBalance k s).eff = s.eff := by
  intros; unfold State.closeBalance; split <;> simp

@[simp] theorem closeDc_eff : ∀ k s, (State.closeDc k s).eff = s.eff := by intros; simp [State.closeDc]

@[simp] theorem startCapture_eff : ∀ k m n s, (State.startCapture k m n s).eff = s.eff := by intros; simp [State.startCapture]

@[simp] theorem trigger_eff : ∀ k m s, (State.trigger k m s).eff = s.eff := by
  intros; unfold State.trigger; dsimp only; (repeat' split) <;> simp

@[simp] theorem triggerBy_eff : ∀ k m s, (State.triggerBy k m s).eff = s.eff := by intros; unfold State.triggerBy; split <;> simp

@[simp] theorem dueTrigger_eff : ∀ k s, (State.dueTrigger k s).eff = s.eff := by intros; unfold State.dueTrigger; split <;> simp

@[simp] theorem enterDue_eff : ∀ k s, (State.enterDue k s).eff = s.eff := by intros; unfold State.enterDue; split <;> simp

@[simp] theorem due_eff : ∀ k m n p q r u s, (State.due k m n p q r u s).eff = s.eff := by intros; simp [State.due]

@[simp] theorem flushDue_eff : ∀ s, (State.flushDue s).eff = s.eff := by intros; simp [State.flushDue]

theorem execCaptureFilled_eff : ∀ k s, ∃ t, execCaptureFilled k s = .next t ∧ t.eff = s.eff := by
  intros; refine ⟨_, rfl, ?_⟩; simp

theorem execCaptureKeepExpiry_eff : ∀ k s, ∃ t, execCaptureKeepExpiry k s = .next t ∧ t.eff = s.eff := by
  intros; refine ⟨_, rfl, ?_⟩; simp

@[simp] theorem completeEvent_eff : ∀ k m n p q r u s, (State.completeEvent k m n p q r u s).eff = s.eff := by
  intros; simp [State.completeEvent]

@[simp] theorem autoFreeze_eff : ∀ k s, (State.autoFreeze k s).eff = s.eff := by intros; simp [State.autoFreeze]

@[simp] theorem freezeCount_eff : ∀ k m s, (State.freezeCount k m s).eff = s.eff := by intros; simp [State.freezeCount]

theorem execAutoFreezeEnd_eff : ∀ k s, ∃ t, execAutoFreezeEnd k s = .next t ∧ t.eff = s.eff := by
  intros; refine ⟨_, rfl, ?_⟩; simp

@[simp] theorem rvcValue_eff : ∀ k m n p s, (State.rvcValue k m n p s).eff = s.eff := by
  intros; unfold State.rvcValue; split <;> simp

@[simp] theorem startEvent_eff : ∀ k m n p q s, (State.startEvent k m n p q s).eff = s.eff := by
  intros; unfold State.startEvent; split <;> simp

@[simp] theorem eventStep_eff : ∀ k m n p s, (State.eventStep k m n p s).eff = s.eff := by
  intros; unfold State.eventStep; dsimp only; (repeat' split) <;> simp

@[simp] theorem flagBefore_eff : ∀ k s, (State.flagBefore k s).eff = s.eff := by intros; simp [State.flagBefore]

@[simp] theorem halfCycle_eff : ∀ k m s, (State.halfCycle k m s).eff = s.eff := by
  intros
  unfold State.halfCycle
  dsimp only
  simp only [onBus_eff, flagBefore_eff, ite_eff]
  split
  · rw [chain_eff _ _ _ (by intro x s; simp)]; simp
  · simp

@[simp] theorem powerFailEvents_eff : ∀ s, (State.powerFailEvents s).eff = s.eff := by
  intros
  unfold State.powerFailEvents
  dsimp only
  simp only [flushDue_eff]
  exact chain_eff _ _ _ (by intro x s; exact chain_eff _ _ _ (by intro x s; (repeat' split) <;> simp))

@[simp] theorem detected_eff : ∀ k m n p q r s, (State.detected k m n p q r s).eff = s.eff := by intros; simp [State.detected]

@[simp] theorem neutralLost_eff : ∀ k s, (State.neutralLost k s).eff = s.eff := by intros; simp [State.neutralLost]

@[simp] theorem neutralBypass_eff : ∀ k s, (State.neutralBypass k s).eff = s.eff := by
  intros; unfold State.neutralBypass; split <;> simp

@[simp] theorem reverseFlow_eff : ∀ k s, (State.reverseFlow k s).eff = s.eff := by intros; simp [State.reverseFlow]

@[simp] theorem cycleDetectors_eff : ∀ s, (State.cycleDetectors s).eff = s.eff := by intros; simp [State.cycleDetectors]

@[simp] theorem wrongSequence_eff : ∀ k s, (State.wrongSequence k s).eff = s.eff := by intros; simp [State.wrongSequence]

@[simp] theorem dcPresent_eff : ∀ k s, (State.dcPresent k s).eff = s.eff := by intros; simp [State.dcPresent]

@[simp] theorem magnet_eff : ∀ s, (State.magnet s).eff = s.eff := by intros; simp [State.magnet]

@[simp] theorem blockDetectors_eff : ∀ s, (State.blockDetectors s).eff = s.eff := by intros; simp [State.blockDetectors]

@[simp] theorem startSet_eff : ∀ s, (State.startSet s).eff = s.eff := by intros; simp [State.startSet]

@[simp] theorem publishSet_eff : ∀ s, (State.publishSet s).eff = s.eff := by intros; simp [State.publishSet]

theorem execWbSetEnd_eff : ∀ s, ∃ t, execWbSetEnd s = .next t ∧ t.eff = s.eff := by intros; refine ⟨_, rfl, ?_⟩; simp

@[simp] theorem refill_eff : ∀ s, (State.refill s).eff = s.eff := by intros; unfold State.refill; split <;> simp

@[simp] theorem seal_eff : ∀ k s, (State.seal k s).eff = s.eff := by intros; unfold State.seal; split <;> simp

@[simp] theorem cut_eff : ∀ k m s, (State.cut k m s).eff = s.eff := by intros; simp [State.cut]

theorem execFolioSealed_eff : ∀ k s, ∃ t, execFolioSealed k s = .next t ∧ t.eff = s.eff := by intros; refine ⟨_, rfl, ?_⟩; simp

@[simp] theorem writeRecord_eff : ∀ k s, (State.writeRecord k s).eff = s.eff := by intros; simp [State.writeRecord]

@[simp] theorem writeCheckpoint_eff : ∀ s, (State.writeCheckpoint s).eff = s.eff := by intros; simp [State.writeCheckpoint]

@[simp] theorem checkpoint_eff : ∀ s, (State.checkpoint s).eff = s.eff := by intros; simp [State.checkpoint]

@[simp] theorem extraCheckpoint_eff : ∀ s, (State.extraCheckpoint s).eff = s.eff := by intros; simp [State.extraCheckpoint]

@[simp] theorem reloadCell_eff : ∀ k m s, (State.reloadCell k m s).eff = s.eff := by
  intros; unfold State.reloadCell; split <;> simp

@[simp] theorem lostInterval_eff : ∀ s, (State.lostInterval s).eff = s.eff := by intros; simp [State.lostInterval]

@[simp] theorem accLost_eff : ∀ k s, (State.accLost k s).eff = s.eff := by
  intros; unfold State.accLost; dsimp only; (repeat' split) <;> simp

@[simp] theorem fenceBank_eff : ∀ k s, (State.fenceBank k s).eff = s.eff := by intros; simp [State.fenceBank]

@[simp] theorem rewrite_eff : ∀ k m s, (State.rewrite k m s).eff = s.eff := by intros; simp [State.rewrite]

@[simp] theorem accError_eff : ∀ k m s, (State.accError k m s).eff = s.eff := by intros; simp [State.accError]

@[simp] theorem accErrors_eff : ∀ k s, (State.accErrors k s).eff = s.eff := by intros; simp [State.accErrors]

theorem execAccScrub_eff : ∀ k s, ∃ t, execAccScrub k s = .next t ∧ t.eff = s.eff := by intros; refine ⟨_, rfl, ?_⟩; simp

@[simp] theorem closeChannel_eff : ∀ k z n s, (State.closeChannel k z n s).eff = s.eff := by intros; simp [State.closeChannel]

@[simp] theorem closeBus_eff : ∀ k z n s, (State.closeBus k z n s).eff = s.eff := by intros; simp [State.closeBus]

@[simp] theorem close150_eff : ∀ k s, (State.close150 k s).eff = s.eff := by intros; simp [State.close150]

theorem execAggregateClose_eff : ∀ s, ∃ t, execAggregateClose s = .next t ∧ t.eff = s.eff := by intros; refine ⟨_, rfl, ?_⟩; simp

@[simp] theorem applyNomf_eff : ∀ s, (State.applyNomf s).eff = s.eff := by intros; simp [State.applyNomf]

@[simp] theorem closeBlock_eff : ∀ k s, (State.closeBlock k s).eff = s.eff := by intros; simp [State.closeBlock]

theorem execBlockClose_eff : ∀ s, ∃ t, execBlockClose s = .next t ∧ t.eff = s.eff := by intros; refine ⟨_, rfl, ?_⟩; simp

@[simp] theorem countedAggs_eff : ∀ s, (State.countedAggs s).eff = s.eff := by intros; simp [State.countedAggs]

@[simp] theorem tenMinuteTick_eff : ∀ s, (State.tenMinuteTick s).eff = s.eff := by intros; simp [State.tenMinuteTick]

theorem execTenMinuteTick_eff : ∀ s, ∃ t, execTenMinuteTick s = .next t ∧ t.eff = s.eff := by intros; refine ⟨_, rfl, ?_⟩; simp

@[simp] theorem frequencyClose_eff : ∀ s, (State.frequencyClose s).eff = s.eff := by intros; simp [State.frequencyClose]

theorem execFrequencyIntervalClose_eff : ∀ s, ∃ t, execFrequencyIntervalClose s = .next t ∧ t.eff = s.eff := by
  intros; refine ⟨_, rfl, ?_⟩; simp

@[simp] theorem changeUdin_eff : ∀ k s, (State.changeUdin k s).eff = s.eff := by intros; simp [State.changeUdin]

@[simp] theorem udinNow_eff : ∀ s, (State.udinNow s).eff = s.eff := by intros; simp [State.udinNow]

@[simp] theorem spoilFolio_eff : ∀ k m n s, (State.spoilFolio k m n s).eff = s.eff := by intros; simp [State.spoilFolio]

@[simp] theorem spoilRead_eff : ∀ k s, (State.spoilRead k s).eff = s.eff := by intros; unfold State.spoilRead; split <;> simp

@[simp] theorem noteUncorr_eff : ∀ k s, (State.noteUncorr k s).eff = s.eff := by intros; simp [State.noteUncorr]

@[simp] theorem readError_eff : ∀ k s, (State.readError k s).eff = s.eff := by intros; simp [State.readError]

@[simp] theorem onFolio_eff : ∀ k m n s q, (∀ x, (q x).eff = s.eff) → (State.onFolio k m n s q).eff = s.eff := by
  intros; unfold State.onFolio; (repeat' split) <;> simp [*]

theorem execFolioRead_eff : ∀ k m n p q s, ∃ t, execFolioRead k m n p q s = .next t ∧ t.eff = s.eff := by
  intros; refine ⟨_, rfl, ?_⟩; refine command_keeps (fun s => s.eff) _ _ (by simp) (by simp) ?_; intro s; simp

@[simp] theorem grant_eff : ∀ k m n s, (State.grant k m n s).1.eff = s.eff := by
  intros; unfold State.grant; dsimp only; (repeat' split) <;> simp

@[simp] theorem lease_eff : ∀ k m n s, (State.lease k m n s).1.eff = s.eff := by
  intros; unfold State.lease; (repeat' split) <;> simp

theorem execFolioLease_eff : ∀ k m n s, ∃ t, execFolioLease k m n s = .next t ∧ t.eff = s.eff := by
  intros; refine ⟨_, rfl, ?_⟩; simp

@[simp] theorem endLease_eff : ∀ k m s, (State.endLease k m s).eff = s.eff := by intros; simp [State.endLease]

@[simp] theorem renew_eff : ∀ k m n s, (State.renew k m n s).1.eff = s.eff := by intros; unfold State.renew; split <;> simp

theorem execFolioRenew_eff : ∀ k m n s, ∃ t, execFolioRenew k m n s = .next t ∧ t.eff = s.eff := by
  intros; refine ⟨_, rfl, ?_⟩; simp

@[simp] theorem release_eff : ∀ k m s, (State.release k m s).1.eff = s.eff := by intros; unfold State.release; split <;> simp

theorem execFolioRelease_eff : ∀ k m s, ∃ t, execFolioRelease k m s = .next t ∧ t.eff = s.eff := by
  intros; refine ⟨_, rfl, ?_⟩; simp

theorem execLeaseExpiry_eff : ∀ k m s, ∃ t, execLeaseExpiry k m s = .next t ∧ t.eff = s.eff := by
  intros; refine ⟨_, rfl, ?_⟩; simp

@[simp] theorem demandCut_eff : ∀ s, (State.demandCut s).1.eff = s.eff := by intros; unfold State.demandCut; split <;> simp

theorem execFolioCut_eff : ∀ k s, ∃ t, execFolioCut k s = .next t ∧ t.eff = s.eff := by intros; refine ⟨_, rfl, ?_⟩; simp

theorem execFolioSealGet_eff : ∀ k m s, ∃ t, execFolioSealGet k m s = .next t ∧ t.eff = s.eff := by
  intros; refine ⟨_, rfl, ?_⟩; simp

theorem execParamRead_eff : ∀ k m n s, ∃ t, execParamRead k m n s = .next t ∧ t.eff = s.eff := by
  intros; refine ⟨_, rfl, ?_⟩; simp

theorem execScRead_eff : ∀ k m n p s, ∃ t, execScRead k m n p s = .next t ∧ t.eff = s.eff := by intros; refine ⟨_, rfl, ?_⟩; simp

theorem execBlotRead_eff : ∀ k s, ∃ t, execBlotRead k s = .next t ∧ t.eff = s.eff := by intros; refine ⟨_, rfl, ?_⟩; simp

@[simp] theorem judgeAdmitted_eff : ∀ k s, (State.judgeAdmitted k s).1.eff = s.eff := by
  intros; unfold State.judgeAdmitted; dsimp only; (repeat' split) <;> simp

@[simp] theorem admitFrame_eff : ∀ k m n p s, (State.admitFrame k m n p s).eff = s.eff := by
  intros; unfold State.admitFrame; dsimp only; (repeat' split) <;> simp

@[simp] theorem judgeOpcode_eff : ∀ k m n p s, (State.judgeOpcode k m n p s).eff = s.eff := by
  intros; unfold State.judgeOpcode; (repeat' split) <;> simp

@[simp] theorem authFailure_eff : ∀ k m n s, (State.authFailure k m n s).eff = s.eff := by intros; simp [State.authFailure]

@[simp] theorem judgeSequence_eff : ∀ k m n p s, (State.judgeSequence k m n p s).eff = s.eff := by
  intros; simp [State.judgeSequence]

@[simp] theorem judgeSession_eff : ∀ k m n p s, (State.judgeSession k m n p s).eff = s.eff := by
  intros; unfold State.judgeSession; (repeat' split) <;> simp

@[simp] theorem judgeFrame_eff : ∀ k m s, (State.judgeFrame k m s).eff = s.eff := by
  intros; unfold State.judgeFrame; dsimp only; (repeat' split) <;> simp

@[simp] theorem frameReceive_eff : ∀ k m s, (State.frameReceive k m s).eff = s.eff := by
  intros; unfold State.frameReceive; (repeat' split) <;> simp

theorem execFrameReceive_eff : ∀ k m n s, ∃ t, execFrameReceive k m n s = .next t ∧ t.eff = s.eff := by
  intros; refine ⟨_, rfl, ?_⟩; simp

@[simp] theorem alarmEvent_eff : ∀ k m s, (State.alarmEvent k m s).eff = s.eff := by intros; simp [State.alarmEvent]

@[simp] theorem alarmFire_eff : ∀ k m n p s, (State.alarmFire k m n p s).eff = s.eff := by intros; simp [State.alarmFire]

@[simp] theorem alarmForward_eff : ∀ k m n p s, (State.alarmForward k m n p s).eff = s.eff := by
  intros; unfold State.alarmForward; dsimp only; (repeat' split) <;> simp

@[simp] theorem alarmsAtStep_eff : ∀ k m n s, (State.alarmsAtStep k m n s).eff = s.eff := by intros; simp [State.alarmsAtStep]

@[simp] theorem badSet_eff : ∀ s, (State.badSet s).eff = s.eff := by intros; simp [State.badSet]

@[simp] theorem calStep_eff : ∀ k m s, (State.calStep k m s).eff = s.eff := by intros; simp [State.calStep]

@[simp] theorem calFirstSet_eff : ∀ k m s, (State.calFirstSet k m s).eff = s.eff := by intros; simp [State.calFirstSet]

@[simp] theorem cldSet_eff : ∀ k m s, (State.cldSet k m s).eff = s.eff := by intros; simp [State.cldSet]

theorem execCldSet_eff : ∀ k m s, ∃ t, execCldSet k m s = .next t ∧ t.eff = s.eff := by intros; refine ⟨_, rfl, ?_⟩; simp

@[simp] theorem cldAdjusted_eff : ∀ k m n s, (State.cldAdjusted k m n s).eff = s.eff := by intros; simp [State.cldAdjusted]

@[simp] theorem adjustStep_eff : ∀ k m n s, (State.adjustStep k m n s).eff = s.eff := by intros; simp [State.adjustStep]

theorem execCldAdjustStep_eff : ∀ k m n s, ∃ t, execCldAdjustStep k m n s = .next t ∧ t.eff = s.eff := by
  intros; refine ⟨_, rfl, ?_⟩; simp

@[simp] theorem adjustSlew_eff : ∀ k m n s, (State.adjustSlew k m n s).eff = s.eff := by intros; simp [State.adjustSlew]

theorem execCldAdjustSlew_eff : ∀ k m n s, ∃ t, execCldAdjustSlew k m n s = .next t ∧ t.eff = s.eff := by
  intros; refine ⟨_, rfl, ?_⟩; simp

theorem execCldAlarmAck_eff : ∀ k m s, ∃ t, execCldAlarmAck k m s = .next t ∧ t.eff = s.eff := by
  intros; refine ⟨_, rfl, ?_⟩; simp

@[simp] theorem secondBoundary_eff : ∀ s, (State.secondBoundary s).eff = s.eff := by intros; simp [State.secondBoundary]

theorem execCalSecondBoundary_eff : ∀ s, ∃ t, execCalSecondBoundary s = .next t ∧ t.eff = s.eff := by
  intros; refine ⟨_, rfl, ?_⟩; simp

theorem execCalStopped_eff : ∀ s, ∃ t, execCalStopped s = .next t ∧ t.eff = s.eff := by intros; refine ⟨_, rfl, ?_⟩; simp

theorem execSlewEnd_eff : ∀ s, ∃ t, execSlewEnd s = .next t ∧ t.eff = s.eff := by intros; refine ⟨_, rfl, ?_⟩; simp

@[simp] theorem demandClose_eff : ∀ k s, (State.demandClose k s).eff = s.eff := by intros; simp [State.demandClose]

theorem execDemandClose_eff : ∀ k s, ∃ t, execDemandClose k s = .next t ∧ t.eff = s.eff := by intros; refine ⟨_, rfl, ?_⟩; simp

@[simp] theorem countLost_eff : ∀ k s, (State.countLost k s).eff = s.eff := by intros; unfold State.countLost; split <;> simp

@[simp] theorem loseRecords_eff : ∀ k s, (State.loseRecords k s).eff = s.eff := by
  intros; unfold State.loseRecords; split <;> simp

@[simp] theorem writeGroup_eff : ∀ k s, (State.writeGroup k s).eff = s.eff := by intros; simp [State.writeGroup]

@[simp] theorem residual_eff : ∀ k m n p q s, (State.residual k m n p q s).eff = s.eff := by intros; simp [State.residual]

@[simp] theorem balanceClose_eff : ∀ k m s, (State.balanceClose k m s).eff = s.eff := by intros; simp [State.balanceClose]

theorem execBalanceClose_eff : ∀ k s, ∃ t, execBalanceClose k s = .next t ∧ t.eff = s.eff := by intros; refine ⟨_, rfl, ?_⟩; simp

@[simp] theorem switchRef_eff : ∀ k m s, (State.switchRef k m s).eff = s.eff := by intros; simp [State.switchRef]

@[simp] theorem enterFreerun_eff : ∀ s, (State.enterFreerun s).eff = s.eff := by intros; simp [State.enterFreerun]

@[simp] theorem enterHoldover_eff : ∀ k s, (State.enterHoldover k s).eff = s.eff := by intros; simp [State.enterHoldover]

@[simp] theorem chooseRef_eff : ∀ k m n s, (State.chooseRef k m n s).eff = s.eff := by
  intros; unfold State.chooseRef; dsimp only; (repeat' split) <;> simp

@[simp] theorem judgeLock_eff : ∀ s, (State.judgeLock s).eff = s.eff := by
  intros; unfold State.judgeLock; dsimp only; (repeat' split) <;> simp

@[simp] theorem closeTimebase_eff : ∀ s, (State.closeTimebase s).eff = s.eff := by intros; simp [State.closeTimebase]

@[simp] theorem absorbDelay_eff : ∀ k m s, (State.absorbDelay k m s).eff = s.eff := by
  intros; unfold State.absorbDelay; split <;> simp

theorem execFreerunEntry_eff : ∀ s, ∃ t, execFreerunEntry s = .next t ∧ t.eff = s.eff := by
  intros; refine ⟨_, rfl, ?_⟩; split <;> simp

theorem execLsyncEdge_eff : ∀ k m s, ∃ t, execLsyncEdge k m s = .next t ∧ t.eff = s.eff := by intros; refine ⟨_, rfl, ?_⟩; simp

theorem execLsyncTimeout_eff : ∀ s, ∃ t, execLsyncTimeout s = .next t ∧ t.eff = s.eff := by intros; refine ⟨_, rfl, ?_⟩; simp

@[simp] theorem convert_eff : ∀ k m s, (State.convert k m s).eff = s.eff := by intros; simp [State.convert]

@[simp] theorem reconcile_eff : ∀ k s, (State.reconcile k s).eff = s.eff := by intros; simp [State.reconcile]

@[simp] theorem firstCommit_eff : ∀ k s, (State.firstCommit k s).eff = s.eff := by intros; simp [State.firstCommit]

@[simp] theorem commitSet_eff : ∀ k s, (State.commitSet k s).eff = s.eff := by intros; simp [State.commitSet]

@[simp] theorem commitBoundary_eff : ∀ s, (State.commitBoundary s).eff = s.eff := by
  intros; unfold State.commitBoundary; split <;> simp

@[simp] theorem reloadCal_eff : ∀ s, (State.reloadCal s).eff = s.eff := by intros; simp [State.reloadCal]

@[simp] theorem calParity_eff : ∀ k s, (State.calParity k s).eff = s.eff := by intros; simp [State.calParity]

@[simp] theorem resolvePoint_eff : ∀ k m s, (State.resolvePoint k m s).eff = s.eff := by intros; simp [State.resolvePoint]

@[simp] theorem resolveOne_eff : ∀ k s, (State.resolveOne k s).eff = s.eff := by intros; simp [State.resolveOne]

@[simp] theorem resolveBoundary_eff : ∀ s, (State.resolveBoundary s).eff = s.eff := by intros; simp [State.resolveBoundary]

@[simp] theorem resetDemand_eff : ∀ k s, (State.resetDemand k s).eff = s.eff := by intros; simp [State.resetDemand]

@[simp] theorem resetReply_eff : ∀ k s, (State.resetReply k s).eff = s.eff := by intros; simp [State.resetReply]

@[simp] theorem resetBoundary_eff : ∀ s, (State.resetBoundary s).eff = s.eff := by intros; simp [State.resetBoundary]

@[simp] theorem dropOldWindows_eff : ∀ s, (State.dropOldWindows s).eff = s.eff := by intros; simp [State.dropOldWindows]

theorem execDemandReset_eff : ∀ k m s, ∃ t, execDemandReset k m s = .next t ∧ t.eff = s.eff := by
  intros; refine ⟨_, rfl, ?_⟩; simp

theorem execCalCommit_eff : ∀ k m s, ∃ t, execCalCommit k m s = .next t ∧ t.eff = s.eff := by intros; refine ⟨_, rfl, ?_⟩; simp

theorem execCalPendingRead_eff : ∀ k m n s, ∃ t, execCalPendingRead k m n s = .next t ∧ t.eff = s.eff := by
  intros; refine ⟨_, rfl, ?_⟩; split <;> simp

theorem execCalPendingResolve_eff : ∀ k m n s, ∃ t, execCalPendingResolve k m n s = .next t ∧ t.eff = s.eff := by
  intros; refine ⟨_, rfl, ?_⟩; simp

@[simp] theorem pulseSample_eff : ∀ k m s, (State.pulseSample k m s).eff = s.eff := by intros; simp [State.pulseSample]

@[simp] theorem pulseClose_eff : ∀ k s, (State.pulseClose k s).eff = s.eff := by intros; simp [State.pulseClose]

@[simp] theorem rebase_eff : ∀ k s, (State.rebase k s).eff = s.eff := by intros; simp [State.rebase]

theorem execPulseLeadingEdge_eff : ∀ k s, ∃ t, execPulseLeadingEdge k s = .next t ∧ t.eff = s.eff := by
  intros; refine ⟨_, rfl, ?_⟩; split <;> simp

theorem execPulseTrailingEdge_eff : ∀ k s, ∃ t, execPulseTrailingEdge k s = .next t ∧ t.eff = s.eff := by
  intros; refine ⟨_, rfl, ?_⟩; simp

@[simp] theorem halfEnd_eff : ∀ k s, (State.halfEnd k s).eff = s.eff := by intros; simp [State.halfEnd]

@[simp] theorem keepBatch_eff : ∀ k m s, (State.keepBatch k m s).eff = s.eff := by intros; simp [State.keepBatch]

@[simp] theorem takeBatch_eff : ∀ k s, (State.takeBatch k s).eff = s.eff := by intros; simp [State.takeBatch]

@[simp] theorem sampleBatch_eff : ∀ k m s, (State.sampleBatch k m s).eff = s.eff := by intros; simp [State.sampleBatch]

theorem execSampleBatch_eff : ∀ k m s, ∃ t, execSampleBatch k m s = .next t ∧ t.eff = s.eff := by
  intros; refine ⟨_, rfl, ?_⟩; simp

@[simp] theorem replayBatch_eff : ∀ k s, (State.replayBatch k s).eff = s.eff := by intros; simp [State.replayBatch]

@[simp] theorem replayFrom_eff : ∀ k s, (State.replayFrom k s).eff = s.eff := by intros; unfold State.replayFrom; split <;> simp

@[simp] theorem metrologyReplay_eff : ∀ k m n s, (State.metrologyReplay k m n s).eff = s.eff := by
  intros; simp [State.metrologyReplay]

theorem execMetrologyReplay_eff : ∀ k m n s, ∃ t, execMetrologyReplay k m n s = .next t ∧ t.eff = s.eff := by
  intros; refine ⟨_, rfl, ?_⟩; simp

@[simp] theorem noteCommit_eff : ∀ s, (State.noteCommit s).eff = s.eff := by intros; simp [State.noteCommit]

@[simp] theorem markSteps_eff : ∀ s, (State.markSteps s).eff = s.eff := by intros; simp [State.markSteps]

@[simp] theorem channelsToBlock_eff : ∀ s, (State.channelsToBlock s).eff = s.eff := by intros; simp [State.channelsToBlock]

@[simp] theorem closeQuantities_eff : ∀ k s, (State.closeQuantities k s).eff = s.eff := by intros; simp [State.closeQuantities]

@[simp] theorem boundaryImage_eff : ∀ k s, (State.boundaryImage k s).eff = s.eff := by intros; simp [State.boundaryImage]

@[simp] theorem turnCycle_eff : ∀ s, (State.turnCycle s).eff = s.eff := by intros; simp [State.turnCycle]

@[simp] theorem changeDemand_eff : ∀ k s, (State.changeDemand k s).eff = s.eff := by intros; simp [State.changeDemand]

@[simp] theorem trimsBoundary_eff : ∀ s, (State.trimsBoundary s).eff = s.eff := by
  intros; unfold State.trimsBoundary; dsimp only; split <;> simp

@[simp] theorem saveBoundary_eff : ∀ s, (State.saveBoundary s).eff = s.eff := by intros; unfold State.saveBoundary; split <;> simp

@[simp] theorem bankBoundary_eff : ∀ s, (State.bankBoundary s).eff = s.eff := by intros; simp [State.bankBoundary]

@[simp] theorem cutAsked_eff : ∀ s, (State.cutAsked s).eff = s.eff := by intros; simp [State.cutAsked]

@[simp] theorem closureRecord_eff : ∀ s, (State.closureRecord s).eff = s.eff := by intros; simp [State.closureRecord]

@[simp] theorem openNext_eff : ∀ s, (State.openNext s).eff = s.eff := by intros; simp [State.openNext]

theorem execBlotClear_eff : ∀ k m s, ∃ t, execBlotClear k m s = .next t ∧ t.eff = s.eff := by intros; refine ⟨_, rfl, ?_⟩; simp

theorem execBankEnter_eff : ∀ k s, ∃ t, execBankEnter k s = .next t ∧ t.eff = s.eff := by
  intros; refine ⟨_, rfl, ?_⟩; refine command_keeps (fun s => s.eff) _ _ (by simp) (by simp) ?_; intro s; dsimp only; (repeat' split) <;> simp

theorem execBankExit_eff : ∀ k s, ∃ t, execBankExit k s = .next t ∧ t.eff = s.eff := by intros; refine ⟨_, rfl, ?_⟩; simp

theorem execSoftReset_eff : ∀ k m s, ∃ t, execSoftReset k m s = .next t ∧ t.eff = s.eff := by intros; refine ⟨_, rfl, ?_⟩; simp

theorem execCfgSave_eff : ∀ k s, ∃ t, execCfgSave k s = .next t ∧ t.eff = s.eff := by intros; refine ⟨_, rfl, ?_⟩; simp

theorem execInkLock_eff : ∀ k m s, ∃ t, execInkLock k m s = .next t ∧ t.eff = s.eff := by intros; refine ⟨_, rfl, ?_⟩; simp

@[simp] theorem endLock_eff : ∀ s, (State.endLock s).eff = s.eff := by intros; unfold State.endLock; split <;> simp

theorem execInkUnlock_eff : ∀ k s, ∃ t, execInkUnlock k s = .next t ∧ t.eff = s.eff := by intros; refine ⟨_, rfl, ?_⟩; simp

theorem execInkLockExpiry_eff : ∀ s, ∃ t, execInkLockExpiry s = .next t ∧ t.eff = s.eff := by intros; refine ⟨_, rfl, ?_⟩; simp

@[simp] theorem eventRead_eff : ∀ k m s, (State.eventRead k m s).eff = s.eff := by intros; simp [State.eventRead]

theorem execEventRead_eff : ∀ k m s, ∃ t, execEventRead k m s = .next t ∧ t.eff = s.eff := by intros; refine ⟨_, rfl, ?_⟩; simp

theorem execEventAck_eff : ∀ k m s, ∃ t, execEventAck k m s = .next t ∧ t.eff = s.eff := by intros; refine ⟨_, rfl, ?_⟩; simp

@[simp] theorem profileRead_eff : ∀ k m n s, (State.profileRead k m n s).eff = s.eff := by intros; simp [State.profileRead]

theorem execProfileRead_eff : ∀ k m n s, ∃ t, execProfileRead k m n s = .next t ∧ t.eff = s.eff := by
  intros; refine ⟨_, rfl, ?_⟩; simp

theorem execProfileAck_eff : ∀ k m s, ∃ t, execProfileAck k m s = .next t ∧ t.eff = s.eff := by intros; refine ⟨_, rfl, ?_⟩; simp

theorem execWbRead_eff : ∀ k m n p s, ∃ t, execWbRead k m n p s = .next t ∧ t.eff = s.eff := by
  intros; refine ⟨_, rfl, ?_⟩; refine command_keeps (fun s => s.eff) _ _ (by simp) (by simp) ?_; intro s; (repeat' split) <;> simp

theorem execCapRead_eff : ∀ k m n p s, ∃ t, execCapRead k m n p s = .next t ∧ t.eff = s.eff := by
  intros; refine ⟨_, rfl, ?_⟩; refine command_keeps (fun s => s.eff) _ _ (by simp) (by simp) ?_; intro s; dsimp only; (repeat' split) <;> simp

theorem execCapTrigger_eff : ∀ k s, ∃ t, execCapTrigger k s = .next t ∧ t.eff = s.eff := by
  intros; refine ⟨_, rfl, ?_⟩; refine command_keeps (fun s => s.eff) _ _ (by simp) (by simp) ?_; intro s; dsimp only; (repeat' split) <;> simp

theorem execCapRelease_eff : ∀ k m s, ∃ t, execCapRelease k m s = .next t ∧ t.eff = s.eff := by
  intros; refine ⟨_, rfl, ?_⟩; refine command_keeps (fun s => s.eff) _ _ (by simp) (by simp) ?_; intro s; dsimp only; (repeat' split) <;> simp

@[simp] theorem logRead_eff : ∀ k m n s, (State.logRead k m n s).eff = s.eff := by intros; simp [State.logRead]

theorem execLogRead_eff : ∀ k m n s, ∃ t, execLogRead k m n s = .next t ∧ t.eff = s.eff := by intros; refine ⟨_, rfl, ?_⟩; simp

@[simp] theorem writeLog_eff : ∀ s, (State.writeLog s).eff = s.eff := by
  intros; unfold State.writeLog; dsimp only; (repeat' split) <;> simp

@[simp] theorem fillLog_eff : ∀ k s, (State.fillLog k s).eff = s.eff := by
  intro k s
  induction k generalizing s with
  | zero => rfl
  | succ k ih => unfold State.fillLog; split <;> simp [*]

@[simp] theorem logEcc_eff : ∀ k s, (State.logEcc k s).eff = s.eff := by intros; simp [State.logEcc]

theorem execEventLogWrite_eff : ∀ k s, ∃ t, execEventLogWrite k s = .next t ∧ t.eff = s.eff := by
  intros; refine ⟨_, rfl, ?_⟩; (repeat' split) <;> simp

@[simp] theorem fwCommand_eff : ∀ k m s p, (∀ x, (p x).eff = x.eff) → (State.fwCommand k m s p).eff = s.eff := by
  intros; unfold State.fwCommand; (repeat' split) <;> simp [*]

@[simp] theorem fwState_eff : ∀ k s, (State.fwState k s).eff = s.eff := by intros; simp [State.fwState]

theorem execFwBegin_eff : ∀ k m s, ∃ t, execFwBegin k m s = .next t ∧ t.eff = s.eff := by intros; refine ⟨_, rfl, ?_⟩; simp

theorem execFwWrite_eff : ∀ k m n s, ∃ t, execFwWrite k m n s = .next t ∧ t.eff = s.eff := by intros; refine ⟨_, rfl, ?_⟩; simp

theorem execFwVerify_eff : ∀ k s, ∃ t, execFwVerify k s = .next t ∧ t.eff = s.eff := by intros; refine ⟨_, rfl, ?_⟩; simp

@[simp] theorem restartCores_eff : ∀ s, (State.restartCores s).eff = s.eff := by intros; simp [State.restartCores]

@[simp] theorem noteRecovery_eff : ∀ s, (State.noteRecovery s).eff = s.eff := by intros; simp [State.noteRecovery]

@[simp] theorem revert_eff : ∀ k s, (State.revert k s).eff = s.eff := by intros; simp [State.revert]

@[simp] theorem revertOrHold_eff : ∀ k s, (State.revertOrHold k s).eff = s.eff := by intros; simp [State.revertOrHold]

@[simp] theorem bootSlot_eff : ∀ s, (State.bootSlot s).eff = s.eff := by intros; simp [State.bootSlot]

@[simp] theorem spoilSlot_eff : ∀ k s, (State.spoilSlot k s).eff = s.eff := by intros; simp [State.spoilSlot]

@[simp] theorem loadCores_eff : ∀ k m s, (State.loadCores k m s).eff = s.eff := by intros; simp [State.loadCores]

@[simp] theorem restartAnvil_eff : ∀ k s, (State.restartAnvil k s).eff = s.eff := by intros; simp [State.restartAnvil]

@[simp] theorem selfCheck_eff : ∀ s, (State.selfCheck s).eff = s.eff := by intros; simp [State.selfCheck]

@[simp] theorem switchSlot_eff : ∀ k s, (State.switchSlot k s).eff = s.eff := by intros; simp [State.switchSlot]

theorem execFwActivate_eff : ∀ k s, ∃ t, execFwActivate k s = .next t ∧ t.eff = s.eff := by intros; refine ⟨_, rfl, ?_⟩; simp

@[simp] theorem commitTrial_eff : ∀ s, (State.commitTrial s).eff = s.eff := by intros; simp [State.commitTrial]

theorem execFwTrialEnd_eff : ∀ s, ∃ t, execFwTrialEnd s = .next t ∧ t.eff = s.eff := by intros; refine ⟨_, rfl, ?_⟩; simp

@[simp] theorem heldWrites_eff : ∀ s, (State.heldWrites s).eff = s.eff := by intros; unfold State.heldWrites; split <;> simp

@[simp] theorem sramError_eff : ∀ k s, (State.sramError k s).eff = s.eff := by intros; unfold State.sramError; split <;> simp

theorem execSramScrub_eff : ∀ k s, ∃ t, execSramScrub k s = .next t ∧ t.eff = s.eff := by intros; refine ⟨_, rfl, ?_⟩; simp

@[simp] theorem changeRef_eff : ∀ k s, (State.changeRef k s).eff = s.eff := by intros; simp [State.changeRef]

@[simp] theorem xtalFail_eff : ∀ s, (State.xtalFail s).eff = s.eff := by intros; simp [State.xtalFail]

theorem execXtalFail_eff : ∀ s, ∃ t, execXtalFail s = .next t ∧ t.eff = s.eff := by intros; refine ⟨_, rfl, ?_⟩; simp

theorem execXtalRate_eff : ∀ k s, ∃ t, execXtalRate k s = .next t ∧ t.eff = s.eff := by intros; refine ⟨_, rfl, ?_⟩; simp

@[simp] theorem xtalReturn_eff : ∀ s, (State.xtalReturn s).eff = s.eff := by intros; simp [State.xtalReturn]

theorem execXtalReturn_eff : ∀ s, ∃ t, execXtalReturn s = .next t ∧ t.eff = s.eff := by intros; refine ⟨_, rfl, ?_⟩; simp

theorem execCrystalAccepted_eff : ∀ s, ∃ t, execCrystalAccepted s = .next t ∧ t.eff = s.eff := by
  intros; refine ⟨_, rfl, ?_⟩; simp

theorem execXtalStartTimeout_eff : ∀ s, ∃ t, execXtalStartTimeout s = .next t ∧ t.eff = s.eff := by
  intros; refine ⟨_, rfl, ?_⟩; simp

@[simp] theorem addCause_eff : ∀ k s, (State.addCause k s).eff = s.eff := by intros; simp [State.addCause]

@[simp] theorem shed_eff : ∀ s, (State.shed s).eff = s.eff := by intros; simp [State.shed]

@[simp] theorem warn_eff : ∀ k m s, (State.warn k m s).eff = s.eff := by intros; simp [State.warn]

@[simp] theorem warnAgain_eff : ∀ k m s, (State.warnAgain k m s).eff = s.eff := by intros; simp [State.warnAgain]

theorem execPowerFail_eff : ∀ k m s, ∃ t, execPowerFail k m s = .next t ∧ t.eff = s.eff := by intros; refine ⟨_, rfl, ?_⟩; simp

@[simp] theorem writeEntry_eff : ∀ k s, (State.writeEntry k s).eff = s.eff := by intros; simp [State.writeEntry]

@[simp] theorem presentEntry_eff : ∀ s, (State.presentEntry s).eff = s.eff := by intros; simp [State.presentEntry]

@[simp] theorem journalEntry_eff : ∀ s, (State.journalEntry s).eff = s.eff := by
  intros; unfold State.journalEntry; (repeat' split) <;> simp

theorem execJournalEntry_eff : ∀ s, ∃ t, execJournalEntry s = .next t ∧ t.eff = s.eff := by intros; refine ⟨_, rfl, ?_⟩; simp

@[simp] theorem tailUpdate_eff : ∀ s, (State.tailUpdate s).eff = s.eff := by intros; unfold State.tailUpdate; split <;> simp

theorem execTailUpdate_eff : ∀ s, ∃ t, execTailUpdate s = .next t ∧ t.eff = s.eff := by intros; refine ⟨_, rfl, ?_⟩; simp

theorem execJournalErase_eff : ∀ k s, ∃ t, execJournalErase k s = .next t ∧ t.eff = s.eff := by intros; refine ⟨_, rfl, ?_⟩; simp

theorem execPfSustained_eff : ∀ s, ∃ t, execPfSustained s = .next t ∧ t.eff = s.eff := by intros; refine ⟨_, rfl, ?_⟩; simp

@[simp] theorem pfRecovered_eff : ∀ s, (State.pfRecovered s).eff = s.eff := by intros; simp [State.pfRecovered]

theorem execPfRecovered_eff : ∀ s, ∃ t, execPfRecovered s = .next t ∧ t.eff = s.eff := by intros; refine ⟨_, rfl, ?_⟩; simp

@[simp] theorem coldTrims_eff : ∀ k s, (State.coldTrims k s).eff = s.eff := by intros; simp [State.coldTrims]

@[simp] theorem begin_eff : ∀ k m s, (State.begin_ k m s).eff = s.eff := by intros; simp [State.begin_]

@[simp] theorem resetEntry_eff : ∀ s, (State.resetEntry s).eff = s.eff := by intros; simp [State.resetEntry]

theorem execResetnRelease_eff : ∀ k m s, ∃ t, execResetnRelease k m s = .next t ∧ t.eff = s.eff := by
  intros; refine ⟨_, rfl, ?_⟩; simp

@[simp] theorem flushAll_eff : ∀ s, (State.flushAll s).eff = s.eff := by intros; simp [State.flushAll]

@[simp] theorem loseWaiting_eff : ∀ s, (State.loseWaiting s).eff = s.eff := by intros; simp [State.loseWaiting]

@[simp] theorem warmReset_eff : ∀ s, (State.warmReset s).eff = s.eff := by intros; simp [State.warmReset]

@[simp] theorem restartStartup_eff : ∀ s, (State.restartStartup s).eff = s.eff := by intros; simp [State.restartStartup]

theorem execResetnWarm_eff : ∀ k m s, ∃ t, execResetnWarm k m s = .next t ∧ t.eff = s.eff := by intros; refine ⟨_, rfl, ?_⟩; simp

@[simp] theorem anvWdog_eff : ∀ k m s, (State.anvWdog k m s).eff = s.eff := by intros; simp [State.anvWdog]

theorem execAnvWdog_eff : ∀ k m s, ∃ t, execAnvWdog k m s = .next t ∧ t.eff = s.eff := by intros; refine ⟨_, rfl, ?_⟩; simp

theorem execSpiPortReset_eff : ∀ k s, ∃ t, execSpiPortReset k s = .next t ∧ t.eff = s.eff := by
  intros; refine ⟨_, rfl, ?_⟩; split <;> simp

theorem execVaonChangeover_eff : ∀ k s, ∃ t, execVaonChangeover k s = .next t ∧ t.eff = s.eff := by
  intros; refine ⟨_, rfl, ?_⟩; simp

theorem execSupplyLossBoth_eff : ∀ s, ∃ t, execSupplyLossBoth s = .next t ∧ t.eff = s.eff := by intros; refine ⟨_, rfl, ?_⟩; simp

@[simp] theorem resume_eff : ∀ k s, (State.resume k s).eff = s.eff := by intros; simp [State.resume]

@[simp] theorem fallBack_eff : ∀ k s, (State.fallBack k s).eff = s.eff := by intros; simp [State.fallBack]

@[simp] theorem enterHeld_eff : ∀ s, (State.enterHeld s).eff = s.eff := by intros; simp [State.enterHeld]

@[simp] theorem testSpare_eff : ∀ k m s, (State.testSpare k m s).eff = s.eff := by intros; simp [State.testSpare]

@[simp] theorem testChan_eff : ∀ k m s, (State.testChan k m s).eff = s.eff := by intros; simp [State.testChan]

@[simp] theorem testEngines_eff : ∀ k m s, (State.testEngines k m s).eff = s.eff := by
  intros; unfold State.testEngines; dsimp only; (repeat' split) <;> simp

theorem execStartUpTest_eff : ∀ k m n s, ∃ t, execStartUpTest k m n s = .next t ∧ t.eff = s.eff := by
  intros; refine ⟨_, rfl, ?_⟩; simp

theorem execPortsReady_eff : ∀ s, ∃ t, execPortsReady s = .next t ∧ t.eff = s.eff := by intros; refine ⟨_, rfl, ?_⟩; simp

@[simp] theorem checkImage_eff : ∀ k m s, (State.checkImage k m s).eff = s.eff := by
  intros; unfold State.checkImage; split <;> simp

@[simp] theorem configured_eff : ∀ k s, (State.configured k s).eff = s.eff := by intros; simp [State.configured]

theorem execStartupReady_eff : ∀ s, ∃ t, execStartupReady s = .next t ∧ t.eff = s.eff := by intros; refine ⟨_, rfl, ?_⟩; simp

@[simp] theorem firstCommands_eff : ∀ s, (State.firstCommands s).eff = s.eff := by intros; simp [State.firstCommands]

@[simp] theorem raiseUnmetered_eff : ∀ s, (State.raiseUnmetered s).eff = s.eff := by intros; simp [State.raiseUnmetered]

@[simp] theorem cellAlarm_eff : ∀ k s, (State.cellAlarm k s).eff = s.eff := by intros; simp [State.cellAlarm]

end Sys2Proof.Laws
end

