-- ==== Sys2Proof/Laws/KeepsPending.lean ====
section
/-!
SUPPORT. What the operations and the rows that do not touch `pending` leave: that.
-/
namespace Sys2Proof.Laws

open Sys2Proof.Machine

@[simp] theorem ite_pending (c : Prop) [Decidable c] (a b : State) : (if c then a else b).pending = if c then a.pending else b.pending := by
  split <;> rfl

@[simp] theorem chain_pending {α : Type} (l : List α) (f : α → State → State) (s : State) (h : ∀ a s, (f a s).pending = s.pending) :
    (chain l f s).pending = s.pending := chain_keeps (fun s => s.pending) l f h s

@[simp] theorem fresh_pending : ∀ s, (State.fresh s).2.pending = s.pending := by intros; simp [State.fresh]

@[simp] theorem settingTook_pending : ∀ s, (State.settingTook s).pending = s.pending := by intros; simp [State.settingTook]

@[simp] theorem phaseEnds_pending : ∀ k s, (State.phaseEnds k s).pending = s.pending := by intros; simp [State.phaseEnds]

@[simp] theorem reshade_pending : ∀ k s, (State.reshade k s).pending = s.pending := by intros; simp [State.reshade]

@[simp] theorem connectSpare_pending : ∀ k m s, (State.connectSpare k m s).pending = s.pending := by
  intros; simp [State.connectSpare]

@[simp] theorem advanceSpare_pending : ∀ k s, (State.advanceSpare k s).pending = s.pending := by
  intros; unfold State.advanceSpare; split <;> simp

@[simp] theorem startCheck_pending : ∀ k m s, (State.startCheck k m s).pending = s.pending := by intros; simp [State.startCheck]

@[simp] theorem nextCheck_pending : ∀ k s, (State.nextCheck k s).pending = s.pending := by
  intros; unfold State.nextCheck; (repeat' split) <;> simp

@[simp] theorem endCheck_pending : ∀ k s, (State.endCheck k s).pending = s.pending := by
  intros; unfold State.endCheck; split <;> simp

@[simp] theorem abortCheck_pending : ∀ k s, (State.abortCheck k s).pending = s.pending := by
  intros; unfold State.abortCheck; split <;> simp

@[simp] theorem queueCheck_pending : ∀ k m s, (State.queueCheck k m s).pending = s.pending := by intros; simp [State.queueCheck]

@[simp] theorem failChan_pending : ∀ k m s, (State.failChan k m s).pending = s.pending := by intros; simp [State.failChan]

@[simp] theorem substituted_pending : ∀ k m n p s, (State.substituted k m n p s).pending = s.pending := by
  intros; simp [State.substituted]

@[simp] theorem takeSpare_pending : ∀ k s, (State.takeSpare k s).pending = s.pending := by
  intros; unfold State.takeSpare; dsimp only; (repeat' split) <;> simp

@[simp] theorem forceSpare_pending : ∀ k s, (State.forceSpare k s).pending = s.pending := by intros; simp [State.forceSpare]

@[simp] theorem startRestore_pending : ∀ k s, (State.startRestore k s).pending = s.pending := by intros; simp [State.startRestore]

@[simp] theorem check_pending : ∀ k s, (State.check k s).pending = s.pending := by
  intros; unfold State.check; dsimp only; (repeat' split) <;> simp

@[simp] theorem restoreFailed_pending : ∀ k s, (State.restoreFailed k s).pending = s.pending := by
  intros; simp [State.restoreFailed]

@[simp] theorem workingFault_pending : ∀ k m s, (State.workingFault k m s).pending = s.pending := by
  intros; simp [State.workingFault]

@[simp] theorem spareDown_pending : ∀ k s, (State.spareDown k s).pending = s.pending := by
  intros; unfold State.spareDown; split <;> simp

@[simp] theorem spareFault_pending : ∀ k s, (State.spareFault k s).pending = s.pending := by
  intros; unfold State.spareFault; split <;> simp

@[simp] theorem modFault_pending : ∀ k m s, (State.modFault k m s).pending = s.pending := by
  intros; unfold State.modFault; split <;> simp

theorem execModulatorHardFault_pending : ∀ k m s, ∃ t, execModulatorHardFault k m s = .next t ∧ t.pending = s.pending := by
  intros; refine ⟨_, rfl, ?_⟩; simp

@[simp] theorem splice_pending : ∀ k s, (State.splice k s).pending = s.pending := by intros; simp [State.splice]

theorem execChSubstituted_pending : ∀ k s, ∃ t, execChSubstituted k s = .next t ∧ t.pending = s.pending := by
  intros; refine ⟨_, rfl, ?_⟩; simp

@[simp] theorem lateSplice_pending : ∀ k s, (State.lateSplice k s).pending = s.pending := by intros; simp [State.lateSplice]

theorem execIsolatedParityError_pending : ∀ k s, ∃ t, execIsolatedParityError k s = .next t ∧ t.pending = s.pending := by
  intros
  refine ⟨_, rfl, ?_⟩
  dsimp only
  split
  · simp
  · split <;> simp

@[simp] theorem trimNote_pending : ∀ k m n s, (State.trimNote k m n s).pending = s.pending := by intros; simp [State.trimNote]

@[simp] theorem setModTrim_pending : ∀ k m s, (State.setModTrim k m s).pending = s.pending := by intros; simp [State.setModTrim]

@[simp] theorem askModTrim_pending : ∀ k m s, (State.askModTrim k m s).pending = s.pending := by
  intros; unfold State.askModTrim; split <;> simp

@[simp] theorem trimBoundary_pending : ∀ k s, (State.trimBoundary k s).pending = s.pending := by
  intros; unfold State.trimBoundary; split <;> simp

@[simp] theorem spareTrim_pending : ∀ k s, (State.spareTrim k s).pending = s.pending := by
  intros; unfold State.spareTrim; split <;> simp

@[simp] theorem setVref_pending : ∀ k s, (State.setVref k s).pending = s.pending := by intros; simp [State.setVref]

@[simp] theorem setOsc_pending : ∀ k s, (State.setOsc k s).pending = s.pending := by intros; simp [State.setOsc]

@[simp] theorem askBkup_pending : ∀ k s, (State.askBkup k s).pending = s.pending := by intros; simp [State.askBkup]

@[simp] theorem bkupDueNow_pending : ∀ s, (State.bkupDueNow s).pending = s.pending := by
  intros; unfold State.bkupDueNow; split <;> simp

@[simp] theorem askPanelOsc_pending : ∀ k s, (State.askPanelOsc k s).pending = s.pending := by intros; simp [State.askPanelOsc]

@[simp] theorem panelOscNow_pending : ∀ s, (State.panelOscNow s).pending = s.pending := by
  intros; unfold State.panelOscNow; split <;> simp

@[simp] theorem dropModTrim_pending : ∀ k s, (State.dropModTrim k s).pending = s.pending := by
  intros; unfold State.dropModTrim; split <;> simp

@[simp] theorem reloadTrims_pending : ∀ s, (State.reloadTrims s).pending = s.pending := by intros; simp [State.reloadTrims]

@[simp] theorem chDrift_pending : ∀ k m s, (State.chDrift k m s).pending = s.pending := by intros; simp [State.chDrift]

@[simp] theorem dwellChecked_pending : ∀ k s, (State.dwellChecked k s).pending = s.pending := by intros; simp [State.dwellChecked]

@[simp] theorem spareMove_pending : ∀ k m s, (State.spareMove k m s).pending = s.pending := by
  intros; unfold State.spareMove; dsimp only; (repeat' split) <;> simp

theorem execSpareMove_pending : ∀ k m s, ∃ t, execSpareMove k m s = .next t ∧ t.pending = s.pending := by
  intros; refine ⟨_, rfl, ?_⟩; simp

theorem execDriftCheckPhase_pending : ∀ k m s, ∃ t, execDriftCheckPhase k m s = .next t ∧ t.pending = s.pending := by
  intros; refine ⟨_, rfl, ?_⟩; (repeat' split) <;> simp

theorem execChDriftChecked_pending : ∀ k s, ∃ t, execChDriftChecked k s = .next t ∧ t.pending = s.pending := by
  intros; refine ⟨_, rfl, ?_⟩; split <;> simp

@[simp] theorem restoreEnd_pending : ∀ k m n s, (State.restoreEnd k m n s).pending = s.pending := by
  intros; unfold State.restoreEnd; dsimp only; (repeat' split) <;> simp

theorem execChRestored_pending : ∀ k m n s, ∃ t, execChRestored k m n s = .next t ∧ t.pending = s.pending := by
  intros; refine ⟨_, rfl, ?_⟩; simp

theorem execSuppressionEnd_pending : ∀ k s, ∃ t, execSuppressionEnd k s = .next t ∧ t.pending = s.pending := by
  intros; refine ⟨_, rfl, ?_⟩; simp

theorem execChClip_pending : ∀ k s, ∃ t, execChClip k s = .next t ∧ t.pending = s.pending := by intros; refine ⟨_, rfl, ?_⟩; simp

@[simp] theorem channelBoundary_pending : ∀ k s, (State.channelBoundary k s).pending = s.pending := by
  intros; simp [State.channelBoundary]

@[simp] theorem spareBoundary_pending : ∀ k s, (State.spareBoundary k s).pending = s.pending := by
  intros; unfold State.spareBoundary; dsimp only; (repeat' split) <;> simp

@[simp] theorem acted_pending : ∀ k m s p, (∀ x, (p x).1.pending = x.pending) → (State.acted k m s p).pending = s.pending := by
  intros; unfold State.acted; dsimp only; (repeat' split) <;> simp [*]

@[simp] theorem abandonActivation_pending : ∀ s, (State.abandonActivation s).pending = s.pending := by
  intros; simp [State.abandonActivation]

@[simp] theorem command_pending : ∀ k m s p, (∀ x, (p x).pending = x.pending) → (State.command k m s p).pending = s.pending := by
  intros; unfold State.command; dsimp only; (repeat' split) <;> simp [*]

@[simp] theorem softScope_pending : ∀ k s, (State.softScope k s).pending = s.pending := by
  intros; unfold State.softScope; split <;> simp

@[simp] theorem settleN_pending : ∀ k s, (State.settleN k s).pending = s.pending := by
  intro k s
  induction k generalizing s with
  | zero => rfl
  | succ k ih =>
    unfold State.settleN
    split
    · simp [*]
    · split <;> simp [*]

@[simp] theorem settleBaud_pending : ∀ s, (State.settleBaud s).pending = s.pending := by
  intros; unfold State.settleBaud; dsimp only; (repeat' split) <;> simp

@[simp] theorem settle_pending : ∀ s, (State.settle s).pending = s.pending := by intros; simp [State.settle]

@[simp] theorem transact_pending : ∀ k m s, (State.transact k m s).pending = s.pending := by intros; simp [State.transact]

@[simp] theorem delivered_pending : ∀ k m n s, (State.delivered k m n s).pending = s.pending := by intros; simp [State.delivered]

@[simp] theorem readPort_pending : ∀ k m s, (State.readPort k m s).pending = s.pending := by
  intros; unfold State.readPort; dsimp only; (repeat' split) <;> simp

theorem execRead_pending : ∀ k m s, ∃ t, execRead k m s = .next t ∧ t.pending = s.pending := by
  intros; refine ⟨_, rfl, ?_⟩; split <;> simp

theorem execStatus_pending : ∀ k s, ∃ t, execStatus k s = .next t ∧ t.pending = s.pending := by
  intros; refine ⟨_, rfl, ?_⟩; split <;> simp

theorem execUartReplySent_pending : ∀ s, ∃ t, execUartReplySent s = .next t ∧ t.pending = s.pending := by
  intros; refine ⟨_, rfl, ?_⟩; (repeat' split) <;> simp

theorem execPortTimeout_pending : ∀ k s, ∃ t, execPortTimeout k s = .next t ∧ t.pending = s.pending := by
  intros; refine ⟨_, rfl, ?_⟩; split <;> simp

theorem execUartFrameStall_pending : ∀ s, ∃ t, execUartFrameStall s = .next t ∧ t.pending = s.pending := by
  intros; refine ⟨_, rfl, ?_⟩; simp

@[simp] theorem replyDropped_pending : ∀ k m s, (State.replyDropped k m s).pending = s.pending := by
  intros; unfold State.replyDropped; dsimp only; (repeat' split) <;> simp

theorem execReplyDropped_pending : ∀ k m s, ∃ t, execReplyDropped k m s = .next t ∧ t.pending = s.pending := by
  intros; refine ⟨_, rfl, ?_⟩; simp

theorem execSessionIdleTimeout_pending : ∀ k s, ∃ t, execSessionIdleTimeout k s = .next t ∧ t.pending = s.pending := by
  intros; refine ⟨_, rfl, ?_⟩; simp

theorem execNop_pending : ∀ k m s, ∃ t, execNop k m s = .next t ∧ t.pending = s.pending := by intros; refine ⟨_, rfl, ?_⟩; simp

theorem execSessionClose_pending : ∀ k s, ∃ t, execSessionClose k s = .next t ∧ t.pending = s.pending := by
  intros; refine ⟨_, rfl, ?_⟩; simp

theorem execSetPriority_pending : ∀ k m s, ∃ t, execSetPriority k m s = .next t ∧ t.pending = s.pending := by
  intros; refine ⟨_, rfl, ?_⟩; simp

@[simp] theorem sessionOpen_pending : ∀ k m s, (State.sessionOpen k m s).pending = s.pending := by
  intros; unfold State.sessionOpen; dsimp only; (repeat' split) <;> simp

theorem execSessionOpen_pending : ∀ k m s, ∃ t, execSessionOpen k m s = .next t ∧ t.pending = s.pending := by
  intros; refine ⟨_, rfl, ?_⟩; simp

@[simp] theorem grdNotify_pending : ∀ k s, (State.grdNotify k s).pending = s.pending := by intros; simp [State.grdNotify]

@[simp] theorem declareGroup_pending : ∀ k m s, (State.declareGroup k m s).pending = s.pending := by
  intros; simp [State.declareGroup]

theorem execGrdSource_pending : ∀ k m s, ∃ t, execGrdSource k m s = .next t ∧ t.pending = s.pending := by
  intros; refine ⟨_, rfl, ?_⟩; simp

theorem execCellScanPeriod_pending : ∀ k m s, ∃ t, execCellScanPeriod k m s = .next t ∧ t.pending = s.pending := by
  intros; refine ⟨_, rfl, ?_⟩; simp

theorem execGrdClock_pending : ∀ s, ∃ t, execGrdClock s = .next t ∧ t.pending = s.pending := by intros; refine ⟨_, rfl, ?_⟩; simp

@[simp] theorem cellReplay_pending : ∀ s, (State.cellReplay s).pending = s.pending := by intros; simp [State.cellReplay]

@[simp] theorem arm_pending : ∀ s, (State.arm s).pending = s.pending := by intros; simp [State.arm]

@[simp] theorem fdis_pending : ∀ k s, (State.fdis k s).pending = s.pending := by intros; simp [State.fdis]

theorem execGrdClearArm_pending : ∀ k m s, ∃ t, execGrdClearArm k m s = .next t ∧ t.pending = s.pending := by
  intros; refine ⟨_, rfl, ?_⟩; simp

@[simp] theorem clearGuards_pending : ∀ k m s, (State.clearGuards k m s).pending = s.pending := by
  intros; simp [State.clearGuards]

theorem execGrdClearConfirm_pending : ∀ k m n s, ∃ t, execGrdClearConfirm k m n s = .next t ∧ t.pending = s.pending := by
  intros; refine ⟨_, rfl, ?_⟩; refine command_keeps (fun s => s.pending) _ _ (by simp) (by simp) ?_; intro s; dsimp only; (repeat' split) <;> simp

theorem execGrdChallengeExpiry_pending : ∀ s, ∃ t, execGrdChallengeExpiry s = .next t ∧ t.pending = s.pending := by
  intros; refine ⟨_, rfl, ?_⟩; simp

theorem execGrdTest_pending : ∀ k m n s, ∃ t, execGrdTest k m n s = .next t ∧ t.pending = s.pending := by
  intros; refine ⟨_, rfl, ?_⟩; split <;> simp

theorem execIdCertRead_pending : ∀ k m n s, ∃ t, execIdCertRead k m n s = .next t ∧ t.pending = s.pending := by
  intros; refine ⟨_, rfl, ?_⟩; simp

@[simp] theorem outOfOrder_pending : ∀ k m n p s, (State.outOfOrder k m n p s).pending = s.pending := by
  intros; simp [State.outOfOrder]

@[simp] theorem retire_pending : ∀ k m n s, (State.retire k m n s).pending = s.pending := by
  intros; unfold State.retire; dsimp only; (repeat' split) <;> simp

@[simp] theorem disableTarget_pending : ∀ k s, (State.disableTarget k s).pending = s.pending := by
  intros; simp [State.disableTarget]

theorem execIntTimeout_pending : ∀ k s, ∃ t, execIntTimeout k s = .next t ∧ t.pending = s.pending := by
  intros; refine ⟨_, rfl, ?_⟩; split <;> simp

@[simp] theorem refCheck_pending : ∀ s, (State.refCheck s).pending = s.pending := by intros; simp [State.refCheck]

@[simp] theorem tempCheck_pending : ∀ s, (State.tempCheck s).pending = s.pending := by intros; simp [State.tempCheck]

@[simp] theorem vbatReading_pending : ∀ s, (State.vbatReading s).pending = s.pending := by intros; simp [State.vbatReading]

@[simp] theorem hallReading_pending : ∀ k s, (State.hallReading k s).pending = s.pending := by
  intros; unfold State.hallReading; dsimp only; (repeat' split) <;> simp

@[simp] theorem auxScan_pending : ∀ k m s, (State.auxScan k m s).pending = s.pending := by
  intros; unfold State.auxScan; split <;> simp

theorem execAuxScan_pending : ∀ k m s, ∃ t, execAuxScan k m s = .next t ∧ t.pending = s.pending := by
  intros; refine ⟨_, rfl, ?_⟩; simp

theorem execAuxRead_pending : ∀ k m n s, ∃ t, execAuxRead k m n s = .next t ∧ t.pending = s.pending := by
  intros; refine ⟨_, rfl, ?_⟩; split <;> simp

@[simp] theorem tableLoad_pending : ∀ k m n p q r s, (State.tableLoad k m n p q r s).pending = s.pending := by
  intros; unfold State.tableLoad; dsimp only; (repeat' split) <;> simp

theorem execPnlTableLoad_pending : ∀ k m n p q r s, ∃ t, execPnlTableLoad k m n p q r s = .next t ∧ t.pending = s.pending := by
  intros; refine ⟨_, rfl, ?_⟩; simp

theorem execPnlImageWrite_pending : ∀ k m n p s, ∃ t, execPnlImageWrite k m n p s = .next t ∧ t.pending = s.pending := by
  intros; refine ⟨_, rfl, ?_⟩; split <;> simp

@[simp] theorem steer_pending : ∀ s, (State.steer s).pending = s.pending := by intros; simp [State.steer]

@[simp] theorem pnlDone_pending : ∀ k m n s, (State.pnlDone k m n s).pending = s.pending := by intros; simp [State.pnlDone]

@[simp] theorem slotReq_pending : ∀ k m s, (State.slotReq k m s).pending = s.pending := by
  intros; unfold State.slotReq; split <;> simp

@[simp] theorem placeReq_pending : ∀ k m s, (State.placeReq k m s).pending = s.pending := by
  intros; unfold State.placeReq; split <;> simp

@[simp] theorem supersede_pending : ∀ k m s, (State.supersede k m s).pending = s.pending := by intros; simp [State.supersede]

@[simp] theorem panelUpdate_pending : ∀ k m n s, (State.panelUpdate k m n s).1.pending = s.pending := by
  intros; unfold State.panelUpdate; split <;> simp

@[simp] theorem pnlUpdate_pending : ∀ k m n p s, (State.pnlUpdate k m n p s).pending = s.pending := by
  intros; simp [State.pnlUpdate]

theorem execPnlUpdate_pending : ∀ k m n p s, ∃ t, execPnlUpdate k m n p s = .next t ∧ t.pending = s.pending := by
  intros; refine ⟨_, rfl, ?_⟩; simp

@[simp] theorem refreshDirty_pending : ∀ s, (State.refreshDirty s).pending = s.pending := by intros; simp [State.refreshDirty]

@[simp] theorem startWaiting_pending : ∀ s, (State.startWaiting s).pending = s.pending := by intros; simp [State.startWaiting]

@[simp] theorem endRun_pending : ∀ k m n s, (State.endRun k m n s).pending = s.pending := by intros; simp [State.endRun]

@[simp] theorem startRun_pending : ∀ k m s, (State.startRun k m s).pending = s.pending := by
  intros; unfold State.startRun; split <;> simp

@[simp] theorem pairEnd_pending : ∀ k s, (State.pairEnd k s).pending = s.pending := by
  intros; unfold State.pairEnd; split <;> simp

@[simp] theorem pairStart_pending : ∀ k s, (State.pairStart k s).pending = s.pending := by
  intros; unfold State.pairStart; split <;> simp

@[simp] theorem dropPending_pending : ∀ k s, (State.dropPending k s).pending = s.pending := by
  intros; unfold State.dropPending; dsimp only; (repeat' split) <;> simp

@[simp] theorem pairBoundary_pending : ∀ s, (State.pairBoundary s).pending = s.pending := by intros; simp [State.pairBoundary]

theorem execPanelPairBoundary_pending : ∀ s, ∃ t, execPanelPairBoundary s = .next t ∧ t.pending = s.pending := by
  intros; refine ⟨_, rfl, ?_⟩; simp

theorem execPanelFrameBoundary_pending : ∀ s, ∃ t, execPanelFrameBoundary s = .next t ∧ t.pending = s.pending := by
  intros; refine ⟨_, rfl, ?_⟩; simp

@[simp] theorem faultRegion_pending : ∀ k s, (State.faultRegion k s).pending = s.pending := by
  intros; unfold State.faultRegion; dsimp only; (repeat' split) <;> simp

@[simp] theorem panelFault_pending : ∀ s, (State.panelFault s).pending = s.pending := by intros; simp [State.panelFault]

theorem execPanelFault_pending : ∀ k s, ∃ t, execPanelFault k s = .next t ∧ t.pending = s.pending := by
  intros; refine ⟨_, rfl, ?_⟩; simp

theorem execRailRead_pending : ∀ k s, ∃ t, execRailRead k s = .next t ∧ t.pending = s.pending := by
  intros; refine ⟨_, rfl, ?_⟩; dsimp only; (repeat' split) <;> simp

theorem execRailStep_pending : ∀ s, ∃ t, execRailStep s = .next t ∧ t.pending = s.pending := by intros; refine ⟨_, rfl, ?_⟩; simp

@[simp] theorem closeout_pending : ∀ s, (State.closeout s).pending = s.pending := by intros; simp [State.closeout]

@[simp] theorem recover_pending : ∀ k s, (State.recover k s).pending = s.pending := by intros; simp [State.recover]

@[simp] theorem store_pending : ∀ k m s, (State.store k m s).pending = s.pending := by intros; simp [State.store]

@[simp] theorem stage_pending : ∀ k m s, (State.stage k m s).pending = s.pending := by intros; simp [State.stage]

@[simp] theorem noteRejoined_pending : ∀ k m s, (State.noteRejoined k m s).pending = s.pending := by
  intros; simp [State.noteRejoined]

@[simp] theorem rejoinComb_pending : ∀ s, (State.rejoinComb s).pending = s.pending := by
  intros; unfold State.rejoinComb; split <;> simp

@[simp] theorem rejoinMet_pending : ∀ s, (State.rejoinMet s).pending = s.pending := by
  intros; unfold State.rejoinMet; split <;> simp

@[simp] theorem rejoin_pending : ∀ k m s, (State.rejoin k m s).pending = s.pending := by intros; simp [State.rejoin]

@[simp] theorem control_pending : ∀ k m s, (State.control k m s).pending = s.pending := by
  intros; unfold State.control; split <;> simp

@[simp] theorem guardControl_pending : ∀ k s, (State.guardControl k s).pending = s.pending := by intros; simp [State.guardControl]

@[simp] theorem askOsc_pending : ∀ k s, (State.askOsc k s).pending = s.pending := by intros; simp [State.askOsc]

@[simp] theorem noteKey_pending : ∀ k s, (State.noteKey k s).pending = s.pending := by intros; simp [State.noteKey]

@[simp] theorem applyWord_pending : ∀ k m n p q s, (State.applyWord k m n p q s).pending = s.pending := by
  intro a0 a1 r a3 a4 s
  cases r with
  | ch k x => cases x <;> (unfold State.applyWord; first | rfl | (simp; done) | (dsimp only; split <;> simp))
  | _ => unfold State.applyWord; first | rfl | (simp; done) | (dsimp only; split <;> first | rfl | (simp; done) | (split <;> simp))

@[simp] theorem paramWrite_pending : ∀ k m n p s, (State.paramWrite k m n p s).pending = s.pending := by
  intro req env addr ws s
  have hw : ∀ order l s s1, State.writeWords req env order l s = .inr s1 → s1.pending = s.pending := by
    intro order l
    induction l with
    | nil => intro s s1 h; simp only [State.writeWords, Sum.inr.injEq] at h; rw [← h]
    | cons x l ih =>
      intro s s1 h
      obtain ⟨a, w⟩ := x
      simp only [State.writeWords] at h
      split at h
      · simp at h
      · rw [ih _ _ h]; simp
  unfold State.paramWrite
  split
  · simp
  · next s1 h =>
    have : s1.pending = s.pending := by
      unfold State.tryWrite at h
      dsimp only at h
      split at h
      · simp at h
      · split at h
        · simp at h
        · exact hw _ _ _ _ h
    simp [this]

@[simp] theorem write_pending : ∀ k m n p s, (State.write k m n p s).pending = s.pending := by intros; simp [State.write]

theorem execParamWrite_pending : ∀ k m n s, ∃ t, execParamWrite k m n s = .next t ∧ t.pending = s.pending := by
  intros; refine ⟨_, rfl, ?_⟩; simp

theorem execForceSpare_pending : ∀ k m s, ∃ t, execForceSpare k m s = .next t ∧ t.pending = s.pending := by
  intros; refine ⟨_, rfl, ?_⟩; simp

theorem execRestore_pending : ∀ k m s, ∃ t, execRestore k m s = .next t ∧ t.pending = s.pending := by
  intros; refine ⟨_, rfl, ?_⟩; simp

theorem execCheck_pending : ∀ k m s, ∃ t, execCheck k m s = .next t ∧ t.pending = s.pending := by
  intros; refine ⟨_, rfl, ?_⟩; simp

theorem execTrimModWrite_pending : ∀ k m n s, ∃ t, execTrimModWrite k m n s = .next t ∧ t.pending = s.pending := by
  intros; refine ⟨_, rfl, ?_⟩; simp

theorem execTrimVrefWrite_pending : ∀ k m s, ∃ t, execTrimVrefWrite k m s = .next t ∧ t.pending = s.pending := by
  intros; refine ⟨_, rfl, ?_⟩; simp

theorem execTrimOscWrite_pending : ∀ k m s, ∃ t, execTrimOscWrite k m s = .next t ∧ t.pending = s.pending := by
  intros; refine ⟨_, rfl, ?_⟩; simp

theorem execReload_pending : ∀ k s, ∃ t, execReload k s = .next t ∧ t.pending = s.pending := by intros; refine ⟨_, rfl, ?_⟩; simp

theorem execRejoin_pending : ∀ k m n s, ∃ t, execRejoin k m n s = .next t ∧ t.pending = s.pending := by
  intros; refine ⟨_, rfl, ?_⟩; simp

theorem execXreturn_pending : ∀ k s, ∃ t, execXreturn k s = .next t ∧ t.pending = s.pending := by
  intros; refine ⟨_, rfl, ?_⟩; simp

theorem execEoi_pending : ∀ k m n p s, ∃ t, execEoi k m n p s = .next t ∧ t.pending = s.pending := by
  intros; refine ⟨_, rfl, ?_⟩; simp

theorem execIntTargetDisable_pending : ∀ k m s, ∃ t, execIntTargetDisable k m s = .next t ∧ t.pending = s.pending := by
  intros; refine ⟨_, rfl, ?_⟩; simp

theorem execArm_pending : ∀ k s, ∃ t, execArm k s = .next t ∧ t.pending = s.pending := by intros; refine ⟨_, rfl, ?_⟩; simp

theorem execFdis_pending : ∀ k m n s, ∃ t, execFdis k m n s = .next t ∧ t.pending = s.pending := by
  intros; refine ⟨_, rfl, ?_⟩; simp

theorem execRecover_pending : ∀ k m s, ∃ t, execRecover k m s = .next t ∧ t.pending = s.pending := by
  intros; refine ⟨_, rfl, ?_⟩; simp

@[simp] theorem slotCheck_pending : ∀ k m s, (State.slotCheck k m s).pending = s.pending := by intros; simp [State.slotCheck]

@[simp] theorem latchSlots_pending : ∀ k s, (State.latchSlots k s).pending = s.pending := by intros; simp [State.latchSlots]

@[simp] theorem deliverSlots_pending : ∀ s, (State.deliverSlots s).pending = s.pending := by intros; simp [State.deliverSlots]

@[simp] theorem combCompare_pending : ∀ k m n s, (State.combCompare k m n s).pending = s.pending := by
  intros; simp [State.combCompare]

@[simp] theorem frameLines_pending : ∀ s, (State.frameLines s).pending = s.pending := by intros; simp [State.frameLines]

@[simp] theorem acquire_pending : ∀ k s, (State.acquire k s).pending = s.pending := by intros; simp [State.acquire]

@[simp] theorem survey_pending : ∀ s, (State.survey s).pending = s.pending := by intros; simp [State.survey]

@[simp] theorem relockFrame_pending : ∀ s, (State.relockFrame s).pending = s.pending := by intros; simp [State.relockFrame]

@[simp] theorem handOffFrame_pending : ∀ s, (State.handOffFrame s).pending = s.pending := by intros; simp [State.handOffFrame]

@[simp] theorem takePins_pending : ∀ s, (State.takePins s).pending = s.pending := by intros; simp [State.takePins]

@[simp] theorem combFrame_pending : ∀ k m n p s, (State.combFrame k m n p s).pending = s.pending := by
  intros; simp [State.combFrame]

theorem execCombFrame_pending : ∀ k m n p s, ∃ t, execCombFrame k m n p s = .next t ∧ t.pending = s.pending := by
  intros; refine ⟨_, rfl, ?_⟩; simp

theorem execEngFenced_pending : ∀ k s, ∃ t, execEngFenced k s = .next t ∧ t.pending = s.pending := by
  intros; refine ⟨_, rfl, ?_⟩; simp

@[simp] theorem book_pending : ∀ k m n s, (State.book k m n s).pending = s.pending := by intros; simp [State.book]

@[simp] theorem closePoint_pending : ∀ k s, (State.closePoint k s).pending = s.pending := by
  intros; unfold State.closePoint; split <;> simp

@[simp] theorem closeBalance_pending : ∀ k s, (State.closeBalance k s).pending = s.pending := by
  intros; unfold State.closeBalance; split <;> simp

@[simp] theorem closeDc_pending : ∀ k s, (State.closeDc k s).pending = s.pending := by intros; simp [State.closeDc]

@[simp] theorem startCapture_pending : ∀ k m n s, (State.startCapture k m n s).pending = s.pending := by
  intros; simp [State.startCapture]

@[simp] theorem trigger_pending : ∀ k m s, (State.trigger k m s).pending = s.pending := by
  intros; unfold State.trigger; dsimp only; (repeat' split) <;> simp

@[simp] theorem triggerBy_pending : ∀ k m s, (State.triggerBy k m s).pending = s.pending := by
  intros; unfold State.triggerBy; split <;> simp

@[simp] theorem dueTrigger_pending : ∀ k s, (State.dueTrigger k s).pending = s.pending := by
  intros; unfold State.dueTrigger; split <;> simp

@[simp] theorem enterDue_pending : ∀ k s, (State.enterDue k s).pending = s.pending := by
  intros; unfold State.enterDue; split <;> simp

@[simp] theorem due_pending : ∀ k m n p q r u s, (State.due k m n p q r u s).pending = s.pending := by intros; simp [State.due]

@[simp] theorem flushDue_pending : ∀ s, (State.flushDue s).pending = s.pending := by intros; simp [State.flushDue]

theorem execCaptureFilled_pending : ∀ k s, ∃ t, execCaptureFilled k s = .next t ∧ t.pending = s.pending := by
  intros; refine ⟨_, rfl, ?_⟩; simp

theorem execCaptureKeepExpiry_pending : ∀ k s, ∃ t, execCaptureKeepExpiry k s = .next t ∧ t.pending = s.pending := by
  intros; refine ⟨_, rfl, ?_⟩; simp

@[simp] theorem completeEvent_pending : ∀ k m n p q r u s, (State.completeEvent k m n p q r u s).pending = s.pending := by
  intros; simp [State.completeEvent]

@[simp] theorem autoFreeze_pending : ∀ k s, (State.autoFreeze k s).pending = s.pending := by intros; simp [State.autoFreeze]

@[simp] theorem freezeCount_pending : ∀ k m s, (State.freezeCount k m s).pending = s.pending := by
  intros; simp [State.freezeCount]

theorem execAutoFreezeEnd_pending : ∀ k s, ∃ t, execAutoFreezeEnd k s = .next t ∧ t.pending = s.pending := by
  intros; refine ⟨_, rfl, ?_⟩; simp

@[simp] theorem rvcValue_pending : ∀ k m n p s, (State.rvcValue k m n p s).pending = s.pending := by
  intros; unfold State.rvcValue; split <;> simp

@[simp] theorem startEvent_pending : ∀ k m n p q s, (State.startEvent k m n p q s).pending = s.pending := by
  intros; unfold State.startEvent; split <;> simp

@[simp] theorem eventStep_pending : ∀ k m n p s, (State.eventStep k m n p s).pending = s.pending := by
  intros; unfold State.eventStep; dsimp only; (repeat' split) <;> simp

@[simp] theorem flagBefore_pending : ∀ k s, (State.flagBefore k s).pending = s.pending := by intros; simp [State.flagBefore]

@[simp] theorem halfCycle_pending : ∀ k m s, (State.halfCycle k m s).pending = s.pending := by
  intros
  unfold State.halfCycle
  dsimp only
  simp only [onBus_pending, flagBefore_pending, ite_pending]
  split
  · rw [chain_pending _ _ _ (by intro x s; simp)]; simp
  · simp

@[simp] theorem powerFailEvents_pending : ∀ s, (State.powerFailEvents s).pending = s.pending := by
  intros
  unfold State.powerFailEvents
  dsimp only
  simp only [flushDue_pending]
  exact chain_pending _ _ _ (by intro x s; exact chain_pending _ _ _ (by intro x s; (repeat' split) <;> simp))

@[simp] theorem detected_pending : ∀ k m n p q r s, (State.detected k m n p q r s).pending = s.pending := by
  intros; simp [State.detected]

@[simp] theorem neutralLost_pending : ∀ k s, (State.neutralLost k s).pending = s.pending := by intros; simp [State.neutralLost]

@[simp] theorem neutralBypass_pending : ∀ k s, (State.neutralBypass k s).pending = s.pending := by
  intros; unfold State.neutralBypass; split <;> simp

@[simp] theorem reverseFlow_pending : ∀ k s, (State.reverseFlow k s).pending = s.pending := by intros; simp [State.reverseFlow]

@[simp] theorem cycleDetectors_pending : ∀ s, (State.cycleDetectors s).pending = s.pending := by
  intros; simp [State.cycleDetectors]

@[simp] theorem wrongSequence_pending : ∀ k s, (State.wrongSequence k s).pending = s.pending := by
  intros; simp [State.wrongSequence]

@[simp] theorem dcPresent_pending : ∀ k s, (State.dcPresent k s).pending = s.pending := by intros; simp [State.dcPresent]

@[simp] theorem magnet_pending : ∀ s, (State.magnet s).pending = s.pending := by intros; simp [State.magnet]

@[simp] theorem blockDetectors_pending : ∀ s, (State.blockDetectors s).pending = s.pending := by
  intros; simp [State.blockDetectors]

@[simp] theorem startSet_pending : ∀ s, (State.startSet s).pending = s.pending := by intros; simp [State.startSet]

@[simp] theorem publishSet_pending : ∀ s, (State.publishSet s).pending = s.pending := by intros; simp [State.publishSet]

theorem execWbSetEnd_pending : ∀ s, ∃ t, execWbSetEnd s = .next t ∧ t.pending = s.pending := by intros; refine ⟨_, rfl, ?_⟩; simp

@[simp] theorem refill_pending : ∀ s, (State.refill s).pending = s.pending := by intros; unfold State.refill; split <;> simp

@[simp] theorem seal_pending : ∀ k s, (State.seal k s).pending = s.pending := by intros; unfold State.seal; split <;> simp

@[simp] theorem cut_pending : ∀ k m s, (State.cut k m s).pending = s.pending := by intros; simp [State.cut]

theorem execFolioSealed_pending : ∀ k s, ∃ t, execFolioSealed k s = .next t ∧ t.pending = s.pending := by
  intros; refine ⟨_, rfl, ?_⟩; simp

@[simp] theorem writeRecord_pending : ∀ k s, (State.writeRecord k s).pending = s.pending := by intros; simp [State.writeRecord]

@[simp] theorem writeCheckpoint_pending : ∀ s, (State.writeCheckpoint s).pending = s.pending := by
  intros; simp [State.writeCheckpoint]

@[simp] theorem checkpoint_pending : ∀ s, (State.checkpoint s).pending = s.pending := by intros; simp [State.checkpoint]

@[simp] theorem extraCheckpoint_pending : ∀ s, (State.extraCheckpoint s).pending = s.pending := by
  intros; simp [State.extraCheckpoint]

@[simp] theorem reloadCell_pending : ∀ k m s, (State.reloadCell k m s).pending = s.pending := by
  intros; unfold State.reloadCell; split <;> simp

@[simp] theorem lostInterval_pending : ∀ s, (State.lostInterval s).pending = s.pending := by intros; simp [State.lostInterval]

@[simp] theorem accLost_pending : ∀ k s, (State.accLost k s).pending = s.pending := by
  intros; unfold State.accLost; dsimp only; (repeat' split) <;> simp

@[simp] theorem fenceBank_pending : ∀ k s, (State.fenceBank k s).pending = s.pending := by intros; simp [State.fenceBank]

@[simp] theorem rewrite_pending : ∀ k m s, (State.rewrite k m s).pending = s.pending := by intros; simp [State.rewrite]

@[simp] theorem accError_pending : ∀ k m s, (State.accError k m s).pending = s.pending := by intros; simp [State.accError]

@[simp] theorem accErrors_pending : ∀ k s, (State.accErrors k s).pending = s.pending := by intros; simp [State.accErrors]

theorem execAccScrub_pending : ∀ k s, ∃ t, execAccScrub k s = .next t ∧ t.pending = s.pending := by
  intros; refine ⟨_, rfl, ?_⟩; simp

@[simp] theorem closeChannel_pending : ∀ k z n s, (State.closeChannel k z n s).pending = s.pending := by
  intros; simp [State.closeChannel]

@[simp] theorem closeBus_pending : ∀ k z n s, (State.closeBus k z n s).pending = s.pending := by intros; simp [State.closeBus]

@[simp] theorem close150_pending : ∀ k s, (State.close150 k s).pending = s.pending := by intros; simp [State.close150]

theorem execAggregateClose_pending : ∀ s, ∃ t, execAggregateClose s = .next t ∧ t.pending = s.pending := by
  intros; refine ⟨_, rfl, ?_⟩; simp

@[simp] theorem applyNomf_pending : ∀ s, (State.applyNomf s).pending = s.pending := by intros; simp [State.applyNomf]

@[simp] theorem asEnded_pending : ∀ s, (State.asEnded s).pending = s.pending := by intros; simp [State.asEnded]

@[simp] theorem closeBlock_pending : ∀ k s, (State.closeBlock k s).pending = s.pending := by intros; simp [State.closeBlock]

theorem execBlockClose_pending : ∀ s, ∃ t, execBlockClose s = .next t ∧ t.pending = s.pending := by
  intros; refine ⟨_, rfl, ?_⟩; simp

@[simp] theorem countedAggs_pending : ∀ s, (State.countedAggs s).pending = s.pending := by intros; simp [State.countedAggs]

@[simp] theorem tenMinuteTick_pending : ∀ s, (State.tenMinuteTick s).pending = s.pending := by intros; simp [State.tenMinuteTick]

theorem execTenMinuteTick_pending : ∀ s, ∃ t, execTenMinuteTick s = .next t ∧ t.pending = s.pending := by
  intros; refine ⟨_, rfl, ?_⟩; simp

@[simp] theorem frequencyClose_pending : ∀ s, (State.frequencyClose s).pending = s.pending := by
  intros; simp [State.frequencyClose]

theorem execFrequencyIntervalClose_pending : ∀ s, ∃ t, execFrequencyIntervalClose s = .next t ∧ t.pending = s.pending := by
  intros; refine ⟨_, rfl, ?_⟩; simp

@[simp] theorem changeUdin_pending : ∀ k s, (State.changeUdin k s).pending = s.pending := by intros; simp [State.changeUdin]

@[simp] theorem udinNow_pending : ∀ s, (State.udinNow s).pending = s.pending := by intros; simp [State.udinNow]

@[simp] theorem spoilFolio_pending : ∀ k m n s, (State.spoilFolio k m n s).pending = s.pending := by
  intros; simp [State.spoilFolio]

@[simp] theorem spoilRead_pending : ∀ k s, (State.spoilRead k s).pending = s.pending := by
  intros; unfold State.spoilRead; split <;> simp

@[simp] theorem noteUncorr_pending : ∀ k s, (State.noteUncorr k s).pending = s.pending := by intros; simp [State.noteUncorr]

@[simp] theorem readError_pending : ∀ k s, (State.readError k s).pending = s.pending := by intros; simp [State.readError]

@[simp] theorem onFolio_pending : ∀ k m n s q, (∀ x, (q x).pending = s.pending) → (State.onFolio k m n s q).pending = s.pending := by
  intros; unfold State.onFolio; (repeat' split) <;> simp [*]

theorem execFolioRead_pending : ∀ k m n p q s, ∃ t, execFolioRead k m n p q s = .next t ∧ t.pending = s.pending := by
  intros; refine ⟨_, rfl, ?_⟩; refine command_keeps (fun s => s.pending) _ _ (by simp) (by simp) ?_; intro s; simp

@[simp] theorem grant_pending : ∀ k m n s, (State.grant k m n s).1.pending = s.pending := by
  intros; unfold State.grant; dsimp only; (repeat' split) <;> simp

@[simp] theorem lease_pending : ∀ k m n s, (State.lease k m n s).1.pending = s.pending := by
  intros; unfold State.lease; (repeat' split) <;> simp

theorem execFolioLease_pending : ∀ k m n s, ∃ t, execFolioLease k m n s = .next t ∧ t.pending = s.pending := by
  intros; refine ⟨_, rfl, ?_⟩; simp

@[simp] theorem endLease_pending : ∀ k m s, (State.endLease k m s).pending = s.pending := by intros; simp [State.endLease]

@[simp] theorem renew_pending : ∀ k m n s, (State.renew k m n s).1.pending = s.pending := by
  intros; unfold State.renew; split <;> simp

theorem execFolioRenew_pending : ∀ k m n s, ∃ t, execFolioRenew k m n s = .next t ∧ t.pending = s.pending := by
  intros; refine ⟨_, rfl, ?_⟩; simp

@[simp] theorem release_pending : ∀ k m s, (State.release k m s).1.pending = s.pending := by
  intros; unfold State.release; split <;> simp

theorem execFolioRelease_pending : ∀ k m s, ∃ t, execFolioRelease k m s = .next t ∧ t.pending = s.pending := by
  intros; refine ⟨_, rfl, ?_⟩; simp

theorem execLeaseExpiry_pending : ∀ k m s, ∃ t, execLeaseExpiry k m s = .next t ∧ t.pending = s.pending := by
  intros; refine ⟨_, rfl, ?_⟩; simp

@[simp] theorem demandCut_pending : ∀ s, (State.demandCut s).1.pending = s.pending := by
  intros; unfold State.demandCut; split <;> simp

theorem execFolioCut_pending : ∀ k s, ∃ t, execFolioCut k s = .next t ∧ t.pending = s.pending := by
  intros; refine ⟨_, rfl, ?_⟩; simp

theorem execFolioSealGet_pending : ∀ k m s, ∃ t, execFolioSealGet k m s = .next t ∧ t.pending = s.pending := by
  intros; refine ⟨_, rfl, ?_⟩; simp

theorem execParamRead_pending : ∀ k m n s, ∃ t, execParamRead k m n s = .next t ∧ t.pending = s.pending := by
  intros; refine ⟨_, rfl, ?_⟩; simp

theorem execScRead_pending : ∀ k m n p s, ∃ t, execScRead k m n p s = .next t ∧ t.pending = s.pending := by
  intros; refine ⟨_, rfl, ?_⟩; simp

theorem execBlotRead_pending : ∀ k s, ∃ t, execBlotRead k s = .next t ∧ t.pending = s.pending := by
  intros; refine ⟨_, rfl, ?_⟩; simp

@[simp] theorem judgeAdmitted_pending : ∀ k s, (State.judgeAdmitted k s).1.pending = s.pending := by
  intros; unfold State.judgeAdmitted; dsimp only; (repeat' split) <;> simp

@[simp] theorem admitFrame_pending : ∀ k m n p s, (State.admitFrame k m n p s).pending = s.pending := by
  intros; unfold State.admitFrame; dsimp only; (repeat' split) <;> simp

@[simp] theorem judgeOpcode_pending : ∀ k m n p s, (State.judgeOpcode k m n p s).pending = s.pending := by
  intros; unfold State.judgeOpcode; (repeat' split) <;> simp

@[simp] theorem authFailure_pending : ∀ k m n s, (State.authFailure k m n s).pending = s.pending := by
  intros; simp [State.authFailure]

@[simp] theorem judgeSequence_pending : ∀ k m n p s, (State.judgeSequence k m n p s).pending = s.pending := by
  intros; simp [State.judgeSequence]

@[simp] theorem judgeSession_pending : ∀ k m n p s, (State.judgeSession k m n p s).pending = s.pending := by
  intros; unfold State.judgeSession; (repeat' split) <;> simp

@[simp] theorem judgeFrame_pending : ∀ k m s, (State.judgeFrame k m s).pending = s.pending := by
  intros; unfold State.judgeFrame; dsimp only; (repeat' split) <;> simp

@[simp] theorem frameReceive_pending : ∀ k m s, (State.frameReceive k m s).pending = s.pending := by
  intros; unfold State.frameReceive; (repeat' split) <;> simp

theorem execFrameReceive_pending : ∀ k m n s, ∃ t, execFrameReceive k m n s = .next t ∧ t.pending = s.pending := by
  intros; refine ⟨_, rfl, ?_⟩; simp

@[simp] theorem alarmEvent_pending : ∀ k m s, (State.alarmEvent k m s).pending = s.pending := by intros; simp [State.alarmEvent]

@[simp] theorem alarmFire_pending : ∀ k m n p s, (State.alarmFire k m n p s).pending = s.pending := by
  intros; simp [State.alarmFire]

@[simp] theorem alarmForward_pending : ∀ k m n p s, (State.alarmForward k m n p s).pending = s.pending := by
  intros; unfold State.alarmForward; dsimp only; (repeat' split) <;> simp

@[simp] theorem alarmsAtStep_pending : ∀ k m n s, (State.alarmsAtStep k m n s).pending = s.pending := by
  intros; simp [State.alarmsAtStep]

@[simp] theorem badSet_pending : ∀ s, (State.badSet s).pending = s.pending := by intros; simp [State.badSet]

@[simp] theorem calStep_pending : ∀ k m s, (State.calStep k m s).pending = s.pending := by intros; simp [State.calStep]

@[simp] theorem calFirstSet_pending : ∀ k m s, (State.calFirstSet k m s).pending = s.pending := by
  intros; simp [State.calFirstSet]

@[simp] theorem cldSet_pending : ∀ k m s, (State.cldSet k m s).pending = s.pending := by intros; simp [State.cldSet]

theorem execCldSet_pending : ∀ k m s, ∃ t, execCldSet k m s = .next t ∧ t.pending = s.pending := by
  intros; refine ⟨_, rfl, ?_⟩; simp

@[simp] theorem cldAdjusted_pending : ∀ k m n s, (State.cldAdjusted k m n s).pending = s.pending := by
  intros; simp [State.cldAdjusted]

@[simp] theorem adjustStep_pending : ∀ k m n s, (State.adjustStep k m n s).pending = s.pending := by
  intros; simp [State.adjustStep]

theorem execCldAdjustStep_pending : ∀ k m n s, ∃ t, execCldAdjustStep k m n s = .next t ∧ t.pending = s.pending := by
  intros; refine ⟨_, rfl, ?_⟩; simp

@[simp] theorem adjustSlew_pending : ∀ k m n s, (State.adjustSlew k m n s).pending = s.pending := by
  intros; simp [State.adjustSlew]

theorem execCldAdjustSlew_pending : ∀ k m n s, ∃ t, execCldAdjustSlew k m n s = .next t ∧ t.pending = s.pending := by
  intros; refine ⟨_, rfl, ?_⟩; simp

theorem execCldAlarmAck_pending : ∀ k m s, ∃ t, execCldAlarmAck k m s = .next t ∧ t.pending = s.pending := by
  intros; refine ⟨_, rfl, ?_⟩; simp

@[simp] theorem secondBoundary_pending : ∀ s, (State.secondBoundary s).pending = s.pending := by
  intros; simp [State.secondBoundary]

theorem execCalSecondBoundary_pending : ∀ s, ∃ t, execCalSecondBoundary s = .next t ∧ t.pending = s.pending := by
  intros; refine ⟨_, rfl, ?_⟩; simp

theorem execCalStopped_pending : ∀ s, ∃ t, execCalStopped s = .next t ∧ t.pending = s.pending := by
  intros; refine ⟨_, rfl, ?_⟩; simp

theorem execSlewEnd_pending : ∀ s, ∃ t, execSlewEnd s = .next t ∧ t.pending = s.pending := by intros; refine ⟨_, rfl, ?_⟩; simp

@[simp] theorem demandClose_pending : ∀ k s, (State.demandClose k s).pending = s.pending := by intros; simp [State.demandClose]

theorem execDemandClose_pending : ∀ k s, ∃ t, execDemandClose k s = .next t ∧ t.pending = s.pending := by
  intros; refine ⟨_, rfl, ?_⟩; simp

@[simp] theorem applyProfEn_pending : ∀ s, (State.applyProfEn s).pending = s.pending := by intros; simp [State.applyProfEn]

@[simp] theorem openProfile_pending : ∀ k s, (State.openProfile k s).pending = s.pending := by intros; simp [State.openProfile]

@[simp] theorem countLost_pending : ∀ k s, (State.countLost k s).pending = s.pending := by
  intros; unfold State.countLost; split <;> simp

@[simp] theorem loseRecords_pending : ∀ k s, (State.loseRecords k s).pending = s.pending := by
  intros; unfold State.loseRecords; split <;> simp

@[simp] theorem writeGroup_pending : ∀ k s, (State.writeGroup k s).pending = s.pending := by intros; simp [State.writeGroup]

@[simp] theorem profileClose_pending : ∀ k s, (State.profileClose k s).pending = s.pending := by intros; simp [State.profileClose]

theorem execProfileClose_pending : ∀ s, ∃ t, execProfileClose s = .next t ∧ t.pending = s.pending := by
  intros; refine ⟨_, rfl, ?_⟩; simp

@[simp] theorem residual_pending : ∀ k m n p q s, (State.residual k m n p q s).pending = s.pending := by
  intros; simp [State.residual]

@[simp] theorem balanceClose_pending : ∀ k m s, (State.balanceClose k m s).pending = s.pending := by
  intros; simp [State.balanceClose]

theorem execBalanceClose_pending : ∀ k s, ∃ t, execBalanceClose k s = .next t ∧ t.pending = s.pending := by
  intros; refine ⟨_, rfl, ?_⟩; simp

@[simp] theorem switchRef_pending : ∀ k m s, (State.switchRef k m s).pending = s.pending := by intros; simp [State.switchRef]

@[simp] theorem enterFreerun_pending : ∀ s, (State.enterFreerun s).pending = s.pending := by intros; simp [State.enterFreerun]

@[simp] theorem enterHoldover_pending : ∀ k s, (State.enterHoldover k s).pending = s.pending := by
  intros; simp [State.enterHoldover]

@[simp] theorem chooseRef_pending : ∀ k m n s, (State.chooseRef k m n s).pending = s.pending := by
  intros; unfold State.chooseRef; dsimp only; (repeat' split) <;> simp

@[simp] theorem judgeLock_pending : ∀ s, (State.judgeLock s).pending = s.pending := by
  intros; unfold State.judgeLock; dsimp only; (repeat' split) <;> simp

@[simp] theorem closeTimebase_pending : ∀ s, (State.closeTimebase s).pending = s.pending := by intros; simp [State.closeTimebase]

@[simp] theorem absorbDelay_pending : ∀ k m s, (State.absorbDelay k m s).pending = s.pending := by
  intros; unfold State.absorbDelay; split <;> simp

theorem execFreerunEntry_pending : ∀ s, ∃ t, execFreerunEntry s = .next t ∧ t.pending = s.pending := by
  intros; refine ⟨_, rfl, ?_⟩; split <;> simp

theorem execLsyncEdge_pending : ∀ k m s, ∃ t, execLsyncEdge k m s = .next t ∧ t.pending = s.pending := by
  intros; refine ⟨_, rfl, ?_⟩; simp

theorem execLsyncTimeout_pending : ∀ s, ∃ t, execLsyncTimeout s = .next t ∧ t.pending = s.pending := by
  intros; refine ⟨_, rfl, ?_⟩; simp

@[simp] theorem convert_pending : ∀ k m s, (State.convert k m s).pending = s.pending := by intros; simp [State.convert]

@[simp] theorem reconcile_pending : ∀ k s, (State.reconcile k s).pending = s.pending := by intros; simp [State.reconcile]

@[simp] theorem firstCommit_pending : ∀ k s, (State.firstCommit k s).pending = s.pending := by intros; simp [State.firstCommit]

@[simp] theorem commitSet_pending : ∀ k s, (State.commitSet k s).pending = s.pending := by intros; simp [State.commitSet]

@[simp] theorem commitBoundary_pending : ∀ s, (State.commitBoundary s).pending = s.pending := by
  intros; unfold State.commitBoundary; split <;> simp

@[simp] theorem reloadCal_pending : ∀ s, (State.reloadCal s).pending = s.pending := by intros; simp [State.reloadCal]

@[simp] theorem calParity_pending : ∀ k s, (State.calParity k s).pending = s.pending := by intros; simp [State.calParity]

@[simp] theorem resolvePoint_pending : ∀ k m s, (State.resolvePoint k m s).pending = s.pending := by
  intros; simp [State.resolvePoint]

@[simp] theorem resolveOne_pending : ∀ k s, (State.resolveOne k s).pending = s.pending := by intros; simp [State.resolveOne]

@[simp] theorem resolveBoundary_pending : ∀ s, (State.resolveBoundary s).pending = s.pending := by
  intros; simp [State.resolveBoundary]

@[simp] theorem resetDemand_pending : ∀ k s, (State.resetDemand k s).pending = s.pending := by intros; simp [State.resetDemand]

@[simp] theorem resetReply_pending : ∀ k s, (State.resetReply k s).pending = s.pending := by intros; simp [State.resetReply]

@[simp] theorem resetBoundary_pending : ∀ s, (State.resetBoundary s).pending = s.pending := by intros; simp [State.resetBoundary]

@[simp] theorem dropOldWindows_pending : ∀ s, (State.dropOldWindows s).pending = s.pending := by
  intros; simp [State.dropOldWindows]

theorem execDemandReset_pending : ∀ k m s, ∃ t, execDemandReset k m s = .next t ∧ t.pending = s.pending := by
  intros; refine ⟨_, rfl, ?_⟩; simp

theorem execCalCommit_pending : ∀ k m s, ∃ t, execCalCommit k m s = .next t ∧ t.pending = s.pending := by
  intros; refine ⟨_, rfl, ?_⟩; simp

theorem execCalPendingRead_pending : ∀ k m n s, ∃ t, execCalPendingRead k m n s = .next t ∧ t.pending = s.pending := by
  intros; refine ⟨_, rfl, ?_⟩; split <;> simp

theorem execCalPendingResolve_pending : ∀ k m n s, ∃ t, execCalPendingResolve k m n s = .next t ∧ t.pending = s.pending := by
  intros; refine ⟨_, rfl, ?_⟩; simp

theorem execPulseTest_pending : ∀ k m n p s, ∃ t, execPulseTest k m n p s = .next t ∧ t.pending = s.pending := by
  intros; refine ⟨_, rfl, ?_⟩; simp

@[simp] theorem pulseSample_pending : ∀ k m s, (State.pulseSample k m s).pending = s.pending := by
  intros; simp [State.pulseSample]

@[simp] theorem pulseClose_pending : ∀ k s, (State.pulseClose k s).pending = s.pending := by intros; simp [State.pulseClose]

@[simp] theorem rebase_pending : ∀ k s, (State.rebase k s).pending = s.pending := by intros; simp [State.rebase]

theorem execPulseLeadingEdge_pending : ∀ k s, ∃ t, execPulseLeadingEdge k s = .next t ∧ t.pending = s.pending := by
  intros; refine ⟨_, rfl, ?_⟩; split <;> simp

theorem execPulseTrailingEdge_pending : ∀ k s, ∃ t, execPulseTrailingEdge k s = .next t ∧ t.pending = s.pending := by
  intros; refine ⟨_, rfl, ?_⟩; simp

@[simp] theorem halfEnd_pending : ∀ k s, (State.halfEnd k s).pending = s.pending := by intros; simp [State.halfEnd]

@[simp] theorem keepBatch_pending : ∀ k m s, (State.keepBatch k m s).pending = s.pending := by intros; simp [State.keepBatch]

@[simp] theorem takeBatch_pending : ∀ k s, (State.takeBatch k s).pending = s.pending := by intros; simp [State.takeBatch]

@[simp] theorem sampleBatch_pending : ∀ k m s, (State.sampleBatch k m s).pending = s.pending := by
  intros; simp [State.sampleBatch]

theorem execSampleBatch_pending : ∀ k m s, ∃ t, execSampleBatch k m s = .next t ∧ t.pending = s.pending := by
  intros; refine ⟨_, rfl, ?_⟩; simp

@[simp] theorem replayBatch_pending : ∀ k s, (State.replayBatch k s).pending = s.pending := by intros; simp [State.replayBatch]

@[simp] theorem replayFrom_pending : ∀ k s, (State.replayFrom k s).pending = s.pending := by
  intros; unfold State.replayFrom; split <;> simp

@[simp] theorem metrologyReplay_pending : ∀ k m n s, (State.metrologyReplay k m n s).pending = s.pending := by
  intros; simp [State.metrologyReplay]

theorem execMetrologyReplay_pending : ∀ k m n s, ∃ t, execMetrologyReplay k m n s = .next t ∧ t.pending = s.pending := by
  intros; refine ⟨_, rfl, ?_⟩; simp

@[simp] theorem noteCommit_pending : ∀ s, (State.noteCommit s).pending = s.pending := by intros; simp [State.noteCommit]

@[simp] theorem markSteps_pending : ∀ s, (State.markSteps s).pending = s.pending := by intros; simp [State.markSteps]

@[simp] theorem channelsToBlock_pending : ∀ s, (State.channelsToBlock s).pending = s.pending := by
  intros; simp [State.channelsToBlock]

@[simp] theorem closeQuantities_pending : ∀ k s, (State.closeQuantities k s).pending = s.pending := by
  intros; simp [State.closeQuantities]

@[simp] theorem boundaryImage_pending : ∀ k s, (State.boundaryImage k s).pending = s.pending := by
  intros; simp [State.boundaryImage]

@[simp] theorem turnCycle_pending : ∀ s, (State.turnCycle s).pending = s.pending := by intros; simp [State.turnCycle]

@[simp] theorem enforce_pending : ∀ k s, (State.enforce k s).pending = s.pending := by intros; simp [State.enforce]

@[simp] theorem changeDemand_pending : ∀ k s, (State.changeDemand k s).pending = s.pending := by intros; simp [State.changeDemand]

@[simp] theorem closeChanged_pending : ∀ k s, (State.closeChanged k s).pending = s.pending := by
  intros
  unfold State.closeChanged
  exact chain_pending _ _ _ (by intro x s; dsimp only; split <;> simp)

@[simp] theorem afterSettings_pending : ∀ k m n s, (State.afterSettings k m n s).pending = s.pending := by
  intros
  unfold State.afterSettings
  dsimp only
  rw [chain_pending _ _ _ (by intro x s; simp), chain_pending _ _ _ (by intro x s; split <;> simp)]

@[simp] theorem applySettings_pending : ∀ s, (State.applySettings s).pending = s.pending := by intros; simp [State.applySettings]

@[simp] theorem trimsBoundary_pending : ∀ s, (State.trimsBoundary s).pending = s.pending := by
  intros; unfold State.trimsBoundary; dsimp only; split <;> simp

@[simp] theorem saveBoundary_pending : ∀ s, (State.saveBoundary s).pending = s.pending := by
  intros; unfold State.saveBoundary; split <;> simp

@[simp] theorem bankBoundary_pending : ∀ s, (State.bankBoundary s).pending = s.pending := by intros; simp [State.bankBoundary]

@[simp] theorem boundaryEffects_pending : ∀ s, (State.boundaryEffects s).pending = s.pending := by
  intros; simp [State.boundaryEffects]

@[simp] theorem closeSteps_pending : ∀ k s, (State.closeSteps k s).pending = s.pending := by intros; simp [State.closeSteps]

@[simp] theorem cutAsked_pending : ∀ s, (State.cutAsked s).pending = s.pending := by intros; simp [State.cutAsked]

@[simp] theorem closureRecord_pending : ∀ s, (State.closureRecord s).pending = s.pending := by intros; simp [State.closureRecord]

@[simp] theorem openNext_pending : ∀ s, (State.openNext s).pending = s.pending := by intros; simp [State.openNext]

@[simp] theorem cycleClose_pending : ∀ k s, (State.cycleClose k s).pending = s.pending := by intros; simp [State.cycleClose]

theorem execCycleClose_pending : ∀ k s, ∃ t, execCycleClose k s = .next t ∧ t.pending = s.pending := by
  intros; refine ⟨_, rfl, ?_⟩; simp

theorem execBlotClear_pending : ∀ k m s, ∃ t, execBlotClear k m s = .next t ∧ t.pending = s.pending := by
  intros; refine ⟨_, rfl, ?_⟩; simp

theorem execBankEnter_pending : ∀ k s, ∃ t, execBankEnter k s = .next t ∧ t.pending = s.pending := by
  intros; refine ⟨_, rfl, ?_⟩; refine command_keeps (fun s => s.pending) _ _ (by simp) (by simp) ?_; intro s; dsimp only; (repeat' split) <;> simp

theorem execBankExit_pending : ∀ k s, ∃ t, execBankExit k s = .next t ∧ t.pending = s.pending := by
  intros; refine ⟨_, rfl, ?_⟩; simp

theorem execSoftReset_pending : ∀ k m s, ∃ t, execSoftReset k m s = .next t ∧ t.pending = s.pending := by
  intros; refine ⟨_, rfl, ?_⟩; simp

theorem execCfgSave_pending : ∀ k s, ∃ t, execCfgSave k s = .next t ∧ t.pending = s.pending := by
  intros; refine ⟨_, rfl, ?_⟩; simp

theorem execInkLock_pending : ∀ k m s, ∃ t, execInkLock k m s = .next t ∧ t.pending = s.pending := by
  intros; refine ⟨_, rfl, ?_⟩; simp

@[simp] theorem endLock_pending : ∀ s, (State.endLock s).pending = s.pending := by intros; unfold State.endLock; split <;> simp

theorem execInkUnlock_pending : ∀ k s, ∃ t, execInkUnlock k s = .next t ∧ t.pending = s.pending := by
  intros; refine ⟨_, rfl, ?_⟩; simp

theorem execInkLockExpiry_pending : ∀ s, ∃ t, execInkLockExpiry s = .next t ∧ t.pending = s.pending := by
  intros; refine ⟨_, rfl, ?_⟩; simp

@[simp] theorem eventRead_pending : ∀ k m s, (State.eventRead k m s).pending = s.pending := by intros; simp [State.eventRead]

theorem execEventRead_pending : ∀ k m s, ∃ t, execEventRead k m s = .next t ∧ t.pending = s.pending := by
  intros; refine ⟨_, rfl, ?_⟩; simp

theorem execEventAck_pending : ∀ k m s, ∃ t, execEventAck k m s = .next t ∧ t.pending = s.pending := by
  intros; refine ⟨_, rfl, ?_⟩; simp

@[simp] theorem profileRead_pending : ∀ k m n s, (State.profileRead k m n s).pending = s.pending := by
  intros; simp [State.profileRead]

theorem execProfileRead_pending : ∀ k m n s, ∃ t, execProfileRead k m n s = .next t ∧ t.pending = s.pending := by
  intros; refine ⟨_, rfl, ?_⟩; simp

theorem execProfileAck_pending : ∀ k m s, ∃ t, execProfileAck k m s = .next t ∧ t.pending = s.pending := by
  intros; refine ⟨_, rfl, ?_⟩; simp

theorem execWbRead_pending : ∀ k m n p s, ∃ t, execWbRead k m n p s = .next t ∧ t.pending = s.pending := by
  intros; refine ⟨_, rfl, ?_⟩; refine command_keeps (fun s => s.pending) _ _ (by simp) (by simp) ?_; intro s; (repeat' split) <;> simp

theorem execCapRead_pending : ∀ k m n p s, ∃ t, execCapRead k m n p s = .next t ∧ t.pending = s.pending := by
  intros; refine ⟨_, rfl, ?_⟩; refine command_keeps (fun s => s.pending) _ _ (by simp) (by simp) ?_; intro s; dsimp only; (repeat' split) <;> simp

theorem execCapTrigger_pending : ∀ k s, ∃ t, execCapTrigger k s = .next t ∧ t.pending = s.pending := by
  intros; refine ⟨_, rfl, ?_⟩; refine command_keeps (fun s => s.pending) _ _ (by simp) (by simp) ?_; intro s; dsimp only; (repeat' split) <;> simp

theorem execCapRelease_pending : ∀ k m s, ∃ t, execCapRelease k m s = .next t ∧ t.pending = s.pending := by
  intros; refine ⟨_, rfl, ?_⟩; refine command_keeps (fun s => s.pending) _ _ (by simp) (by simp) ?_; intro s; dsimp only; (repeat' split) <;> simp

@[simp] theorem logRead_pending : ∀ k m n s, (State.logRead k m n s).pending = s.pending := by intros; simp [State.logRead]

theorem execLogRead_pending : ∀ k m n s, ∃ t, execLogRead k m n s = .next t ∧ t.pending = s.pending := by
  intros; refine ⟨_, rfl, ?_⟩; simp

@[simp] theorem writeLog_pending : ∀ s, (State.writeLog s).pending = s.pending := by
  intros; unfold State.writeLog; dsimp only; (repeat' split) <;> simp

@[simp] theorem fillLog_pending : ∀ k s, (State.fillLog k s).pending = s.pending := by
  intro k s
  induction k generalizing s with
  | zero => rfl
  | succ k ih => unfold State.fillLog; split <;> simp [*]

@[simp] theorem logEcc_pending : ∀ k s, (State.logEcc k s).pending = s.pending := by intros; simp [State.logEcc]

theorem execEventLogWrite_pending : ∀ k s, ∃ t, execEventLogWrite k s = .next t ∧ t.pending = s.pending := by
  intros; refine ⟨_, rfl, ?_⟩; (repeat' split) <;> simp

@[simp] theorem fwCommand_pending : ∀ k m s p, (∀ x, (p x).pending = x.pending) → (State.fwCommand k m s p).pending = s.pending := by
  intros; unfold State.fwCommand; (repeat' split) <;> simp [*]

@[simp] theorem fwState_pending : ∀ k s, (State.fwState k s).pending = s.pending := by intros; simp [State.fwState]

theorem execFwBegin_pending : ∀ k m s, ∃ t, execFwBegin k m s = .next t ∧ t.pending = s.pending := by
  intros; refine ⟨_, rfl, ?_⟩; simp

theorem execFwWrite_pending : ∀ k m n s, ∃ t, execFwWrite k m n s = .next t ∧ t.pending = s.pending := by
  intros; refine ⟨_, rfl, ?_⟩; simp

theorem execFwVerify_pending : ∀ k s, ∃ t, execFwVerify k s = .next t ∧ t.pending = s.pending := by
  intros; refine ⟨_, rfl, ?_⟩; simp

@[simp] theorem restartCores_pending : ∀ s, (State.restartCores s).pending = s.pending := by intros; simp [State.restartCores]

@[simp] theorem noteRecovery_pending : ∀ s, (State.noteRecovery s).pending = s.pending := by intros; simp [State.noteRecovery]

@[simp] theorem revert_pending : ∀ k s, (State.revert k s).pending = s.pending := by intros; simp [State.revert]

@[simp] theorem revertOrHold_pending : ∀ k s, (State.revertOrHold k s).pending = s.pending := by intros; simp [State.revertOrHold]

@[simp] theorem bootSlot_pending : ∀ s, (State.bootSlot s).pending = s.pending := by intros; simp [State.bootSlot]

@[simp] theorem spoilSlot_pending : ∀ k s, (State.spoilSlot k s).pending = s.pending := by intros; simp [State.spoilSlot]

@[simp] theorem loadCores_pending : ∀ k m s, (State.loadCores k m s).pending = s.pending := by intros; simp [State.loadCores]

@[simp] theorem restartAnvil_pending : ∀ k s, (State.restartAnvil k s).pending = s.pending := by intros; simp [State.restartAnvil]

@[simp] theorem selfCheck_pending : ∀ s, (State.selfCheck s).pending = s.pending := by intros; simp [State.selfCheck]

@[simp] theorem switchSlot_pending : ∀ k s, (State.switchSlot k s).pending = s.pending := by intros; simp [State.switchSlot]

theorem execFwActivate_pending : ∀ k s, ∃ t, execFwActivate k s = .next t ∧ t.pending = s.pending := by
  intros; refine ⟨_, rfl, ?_⟩; simp

@[simp] theorem commitTrial_pending : ∀ s, (State.commitTrial s).pending = s.pending := by intros; simp [State.commitTrial]

theorem execFwTrialEnd_pending : ∀ s, ∃ t, execFwTrialEnd s = .next t ∧ t.pending = s.pending := by
  intros; refine ⟨_, rfl, ?_⟩; simp

@[simp] theorem heldWrites_pending : ∀ s, (State.heldWrites s).pending = s.pending := by
  intros; unfold State.heldWrites; split <;> simp

@[simp] theorem sramError_pending : ∀ k s, (State.sramError k s).pending = s.pending := by
  intros; unfold State.sramError; split <;> simp

theorem execSramScrub_pending : ∀ k s, ∃ t, execSramScrub k s = .next t ∧ t.pending = s.pending := by
  intros; refine ⟨_, rfl, ?_⟩; simp

@[simp] theorem changeRef_pending : ∀ k s, (State.changeRef k s).pending = s.pending := by intros; simp [State.changeRef]

@[simp] theorem xtalFail_pending : ∀ s, (State.xtalFail s).pending = s.pending := by intros; simp [State.xtalFail]

theorem execXtalFail_pending : ∀ s, ∃ t, execXtalFail s = .next t ∧ t.pending = s.pending := by intros; refine ⟨_, rfl, ?_⟩; simp

theorem execXtalRate_pending : ∀ k s, ∃ t, execXtalRate k s = .next t ∧ t.pending = s.pending := by
  intros; refine ⟨_, rfl, ?_⟩; simp

@[simp] theorem xtalReturn_pending : ∀ s, (State.xtalReturn s).pending = s.pending := by intros; simp [State.xtalReturn]

theorem execXtalReturn_pending : ∀ s, ∃ t, execXtalReturn s = .next t ∧ t.pending = s.pending := by
  intros; refine ⟨_, rfl, ?_⟩; simp

theorem execCrystalAccepted_pending : ∀ s, ∃ t, execCrystalAccepted s = .next t ∧ t.pending = s.pending := by
  intros; refine ⟨_, rfl, ?_⟩; simp

theorem execXtalStartTimeout_pending : ∀ s, ∃ t, execXtalStartTimeout s = .next t ∧ t.pending = s.pending := by
  intros; refine ⟨_, rfl, ?_⟩; simp

@[simp] theorem addCause_pending : ∀ k s, (State.addCause k s).pending = s.pending := by intros; simp [State.addCause]

@[simp] theorem shed_pending : ∀ s, (State.shed s).pending = s.pending := by intros; simp [State.shed]

@[simp] theorem warn_pending : ∀ k m s, (State.warn k m s).pending = s.pending := by intros; simp [State.warn]

@[simp] theorem warnAgain_pending : ∀ k m s, (State.warnAgain k m s).pending = s.pending := by intros; simp [State.warnAgain]

theorem execPowerFail_pending : ∀ k m s, ∃ t, execPowerFail k m s = .next t ∧ t.pending = s.pending := by
  intros; refine ⟨_, rfl, ?_⟩; simp

@[simp] theorem writeEntry_pending : ∀ k s, (State.writeEntry k s).pending = s.pending := by intros; simp [State.writeEntry]

@[simp] theorem presentEntry_pending : ∀ s, (State.presentEntry s).pending = s.pending := by intros; simp [State.presentEntry]

@[simp] theorem journalEntry_pending : ∀ s, (State.journalEntry s).pending = s.pending := by
  intros; unfold State.journalEntry; (repeat' split) <;> simp

theorem execJournalEntry_pending : ∀ s, ∃ t, execJournalEntry s = .next t ∧ t.pending = s.pending := by
  intros; refine ⟨_, rfl, ?_⟩; simp

@[simp] theorem tailUpdate_pending : ∀ s, (State.tailUpdate s).pending = s.pending := by
  intros; unfold State.tailUpdate; split <;> simp

theorem execTailUpdate_pending : ∀ s, ∃ t, execTailUpdate s = .next t ∧ t.pending = s.pending := by
  intros; refine ⟨_, rfl, ?_⟩; simp

theorem execJournalErase_pending : ∀ k s, ∃ t, execJournalErase k s = .next t ∧ t.pending = s.pending := by
  intros; refine ⟨_, rfl, ?_⟩; simp

theorem execPfSustained_pending : ∀ s, ∃ t, execPfSustained s = .next t ∧ t.pending = s.pending := by
  intros; refine ⟨_, rfl, ?_⟩; simp

@[simp] theorem pfRecovered_pending : ∀ s, (State.pfRecovered s).pending = s.pending := by intros; simp [State.pfRecovered]

theorem execPfRecovered_pending : ∀ s, ∃ t, execPfRecovered s = .next t ∧ t.pending = s.pending := by
  intros; refine ⟨_, rfl, ?_⟩; simp

@[simp] theorem coldReset_pending : ∀ k m s, (State.coldReset k m s).pending = s.pending := by intros; simp [State.coldReset]

@[simp] theorem coldTrims_pending : ∀ k s, (State.coldTrims k s).pending = s.pending := by intros; simp [State.coldTrims]

theorem execBrownout_pending : ∀ s, ∃ t, execBrownout s = .next t ∧ t.pending = s.pending := by intros; refine ⟨_, rfl, ?_⟩; simp

@[simp] theorem begin_pending : ∀ k m s, (State.begin_ k m s).pending = s.pending := by intros; simp [State.begin_]

theorem execPor_pending : ∀ k m s, ∃ t, execPor k m s = .next t ∧ t.pending = s.pending := by intros; refine ⟨_, rfl, ?_⟩; simp

@[simp] theorem resetEntry_pending : ∀ s, (State.resetEntry s).pending = s.pending := by intros; simp [State.resetEntry]

theorem execResetnCold_pending : ∀ s, ∃ t, execResetnCold s = .next t ∧ t.pending = s.pending := by
  intros; refine ⟨_, rfl, ?_⟩; simp

theorem execResetnRelease_pending : ∀ k m s, ∃ t, execResetnRelease k m s = .next t ∧ t.pending = s.pending := by
  intros; refine ⟨_, rfl, ?_⟩; simp

@[simp] theorem flushAll_pending : ∀ s, (State.flushAll s).pending = s.pending := by intros; simp [State.flushAll]

@[simp] theorem loseWaiting_pending : ∀ s, (State.loseWaiting s).pending = s.pending := by intros; simp [State.loseWaiting]

@[simp] theorem warmReset_pending : ∀ s, (State.warmReset s).pending = s.pending := by intros; simp [State.warmReset]

@[simp] theorem restartStartup_pending : ∀ s, (State.restartStartup s).pending = s.pending := by
  intros; simp [State.restartStartup]

theorem execResetnWarm_pending : ∀ k m s, ∃ t, execResetnWarm k m s = .next t ∧ t.pending = s.pending := by
  intros; refine ⟨_, rfl, ?_⟩; simp

@[simp] theorem anvWdog_pending : ∀ k m s, (State.anvWdog k m s).pending = s.pending := by intros; simp [State.anvWdog]

theorem execAnvWdog_pending : ∀ k m s, ∃ t, execAnvWdog k m s = .next t ∧ t.pending = s.pending := by
  intros; refine ⟨_, rfl, ?_⟩; simp

theorem execSpiPortReset_pending : ∀ k s, ∃ t, execSpiPortReset k s = .next t ∧ t.pending = s.pending := by
  intros; refine ⟨_, rfl, ?_⟩; split <;> simp

theorem execBrk_pending : ∀ k s, ∃ t, execBrk k s = .next t ∧ t.pending = s.pending := by intros; refine ⟨_, rfl, ?_⟩; simp

theorem execVaonChangeover_pending : ∀ k s, ∃ t, execVaonChangeover k s = .next t ∧ t.pending = s.pending := by
  intros; refine ⟨_, rfl, ?_⟩; simp

theorem execSupplyLossBoth_pending : ∀ s, ∃ t, execSupplyLossBoth s = .next t ∧ t.pending = s.pending := by
  intros; refine ⟨_, rfl, ?_⟩; simp

@[simp] theorem resume_pending : ∀ k s, (State.resume k s).pending = s.pending := by intros; simp [State.resume]

@[simp] theorem restoreRecord_pending : ∀ k s, (State.restoreRecord k s).pending = s.pending := by
  intros; simp [State.restoreRecord]

@[simp] theorem fallBack_pending : ∀ k s, (State.fallBack k s).pending = s.pending := by intros; simp [State.fallBack]

@[simp] theorem enterHeld_pending : ∀ s, (State.enterHeld s).pending = s.pending := by intros; simp [State.enterHeld]

@[simp] theorem journalRestored_pending : ∀ k s, (State.journalRestored k s).pending = s.pending := by
  intros; unfold State.journalRestored; dsimp only; (repeat' split) <;> simp

theorem execJournalRestored_pending : ∀ k s, ∃ t, execJournalRestored k s = .next t ∧ t.pending = s.pending := by
  intros; refine ⟨_, rfl, ?_⟩; simp

@[simp] theorem testSpare_pending : ∀ k m s, (State.testSpare k m s).pending = s.pending := by intros; simp [State.testSpare]

@[simp] theorem testChan_pending : ∀ k m s, (State.testChan k m s).pending = s.pending := by intros; simp [State.testChan]

@[simp] theorem testEngines_pending : ∀ k m s, (State.testEngines k m s).pending = s.pending := by
  intros; unfold State.testEngines; dsimp only; (repeat' split) <;> simp

theorem execStartUpTest_pending : ∀ k m n s, ∃ t, execStartUpTest k m n s = .next t ∧ t.pending = s.pending := by
  intros; refine ⟨_, rfl, ?_⟩; simp

theorem execPortsReady_pending : ∀ s, ∃ t, execPortsReady s = .next t ∧ t.pending = s.pending := by
  intros; refine ⟨_, rfl, ?_⟩; simp

@[simp] theorem checkImage_pending : ∀ k m s, (State.checkImage k m s).pending = s.pending := by
  intros; unfold State.checkImage; split <;> simp

@[simp] theorem applyImage_pending : ∀ k m s, (State.applyImage k m s).pending = s.pending := by intros; simp [State.applyImage]

@[simp] theorem configured_pending : ∀ k s, (State.configured k s).pending = s.pending := by intros; simp [State.configured]

@[simp] theorem configRestore_pending : ∀ k m s, (State.configRestore k m s).pending = s.pending := by
  intros; unfold State.configRestore; dsimp only; (repeat' split) <;> simp

theorem execConfigRestore_pending : ∀ k m s, ∃ t, execConfigRestore k m s = .next t ∧ t.pending = s.pending := by
  intros; refine ⟨_, rfl, ?_⟩; simp

theorem execCfgRestoreFail_pending : ∀ s, ∃ t, execCfgRestoreFail s = .next t ∧ t.pending = s.pending := by
  intros; refine ⟨_, rfl, ?_⟩; simp

theorem execStartupReady_pending : ∀ s, ∃ t, execStartupReady s = .next t ∧ t.pending = s.pending := by
  intros; refine ⟨_, rfl, ?_⟩; simp

@[simp] theorem firstCommands_pending : ∀ s, (State.firstCommands s).pending = s.pending := by intros; simp [State.firstCommands]

@[simp] theorem firstSettings_pending : ∀ s, (State.firstSettings s).pending = s.pending := by intros; simp [State.firstSettings]

@[simp] theorem openAll_pending : ∀ s, (State.openAll s).pending = s.pending := by intros; simp [State.openAll]

@[simp] theorem raiseUnmetered_pending : ∀ s, (State.raiseUnmetered s).pending = s.pending := by
  intros; simp [State.raiseUnmetered]

@[simp] theorem cellAlarm_pending : ∀ k s, (State.cellAlarm k s).pending = s.pending := by intros; simp [State.cellAlarm]

@[simp] theorem startMetering_pending : ∀ k m s, (State.startMetering k m s).pending = s.pending := by
  intros; simp [State.startMetering]

theorem execFirstMeteredCycle_pending : ∀ s, ∃ t, execFirstMeteredCycle s = .next t ∧ t.pending = s.pending := by
  intros; refine ⟨_, rfl, ?_⟩; dsimp only; (repeat' split) <;> simp

theorem execStartupFreerunFallback_pending : ∀ s, ∃ t, execStartupFreerunFallback s = .next t ∧ t.pending = s.pending := by
  intros; refine ⟨_, rfl, ?_⟩; simp

end Sys2Proof.Laws
end

