-- ==== Sys2Proof/Laws/KeepsPoints.lean ====
section
/-!
SUPPORT. What the operations and the rows that do not touch `pts` leave: that.
-/
namespace Sys2Proof.Laws

open Sys2Proof.Machine

@[simp] theorem ite_pts (c : Prop) [Decidable c] (a b : State) : (if c then a else b).pts = if c then a.pts else b.pts := by
  split <;> rfl

@[simp] theorem chain_pts {α : Type} (l : List α) (f : α → State → State) (s : State) (h : ∀ a s, (f a s).pts = s.pts) :
    (chain l f s).pts = s.pts := chain_keeps (fun s => s.pts) l f h s

@[simp] theorem fresh_pts : ∀ s, (State.fresh s).2.pts = s.pts := by intros; simp [State.fresh]

@[simp] theorem settingTook_pts : ∀ s, (State.settingTook s).pts = s.pts := by intros; simp [State.settingTook]

@[simp] theorem phaseEnds_pts : ∀ k s, (State.phaseEnds k s).pts = s.pts := by intros; simp [State.phaseEnds]

@[simp] theorem reshade_pts : ∀ k s, (State.reshade k s).pts = s.pts := by intros; simp [State.reshade]

@[simp] theorem connectSpare_pts : ∀ k m s, (State.connectSpare k m s).pts = s.pts := by intros; simp [State.connectSpare]

@[simp] theorem advanceSpare_pts : ∀ k s, (State.advanceSpare k s).pts = s.pts := by
  intros; unfold State.advanceSpare; split <;> simp

@[simp] theorem startCheck_pts : ∀ k m s, (State.startCheck k m s).pts = s.pts := by intros; simp [State.startCheck]

@[simp] theorem nextCheck_pts : ∀ k s, (State.nextCheck k s).pts = s.pts := by
  intros; unfold State.nextCheck; (repeat' split) <;> simp

@[simp] theorem endCheck_pts : ∀ k s, (State.endCheck k s).pts = s.pts := by intros; unfold State.endCheck; split <;> simp

@[simp] theorem abortCheck_pts : ∀ k s, (State.abortCheck k s).pts = s.pts := by intros; unfold State.abortCheck; split <;> simp

@[simp] theorem queueCheck_pts : ∀ k m s, (State.queueCheck k m s).pts = s.pts := by intros; simp [State.queueCheck]

@[simp] theorem failChan_pts : ∀ k m s, (State.failChan k m s).pts = s.pts := by intros; simp [State.failChan]

@[simp] theorem substituted_pts : ∀ k m n p s, (State.substituted k m n p s).pts = s.pts := by intros; simp [State.substituted]

@[simp] theorem takeSpare_pts : ∀ k s, (State.takeSpare k s).pts = s.pts := by
  intros; unfold State.takeSpare; dsimp only; (repeat' split) <;> simp

@[simp] theorem forceSpare_pts : ∀ k s, (State.forceSpare k s).pts = s.pts := by intros; simp [State.forceSpare]

@[simp] theorem startRestore_pts : ∀ k s, (State.startRestore k s).pts = s.pts := by intros; simp [State.startRestore]

@[simp] theorem check_pts : ∀ k s, (State.check k s).pts = s.pts := by
  intros; unfold State.check; dsimp only; (repeat' split) <;> simp

@[simp] theorem restoreFailed_pts : ∀ k s, (State.restoreFailed k s).pts = s.pts := by intros; simp [State.restoreFailed]

@[simp] theorem workingFault_pts : ∀ k m s, (State.workingFault k m s).pts = s.pts := by intros; simp [State.workingFault]

@[simp] theorem spareDown_pts : ∀ k s, (State.spareDown k s).pts = s.pts := by intros; unfold State.spareDown; split <;> simp

@[simp] theorem spareFault_pts : ∀ k s, (State.spareFault k s).pts = s.pts := by intros; unfold State.spareFault; split <;> simp

@[simp] theorem modFault_pts : ∀ k m s, (State.modFault k m s).pts = s.pts := by intros; unfold State.modFault; split <;> simp

theorem execModulatorHardFault_pts : ∀ k m s, ∃ t, execModulatorHardFault k m s = .next t ∧ t.pts = s.pts := by
  intros; refine ⟨_, rfl, ?_⟩; simp

@[simp] theorem splice_pts : ∀ k s, (State.splice k s).pts = s.pts := by intros; simp [State.splice]

theorem execChSubstituted_pts : ∀ k s, ∃ t, execChSubstituted k s = .next t ∧ t.pts = s.pts := by
  intros; refine ⟨_, rfl, ?_⟩; simp

@[simp] theorem lateSplice_pts : ∀ k s, (State.lateSplice k s).pts = s.pts := by intros; simp [State.lateSplice]

theorem execIsolatedParityError_pts : ∀ k s, ∃ t, execIsolatedParityError k s = .next t ∧ t.pts = s.pts := by
  intros
  refine ⟨_, rfl, ?_⟩
  dsimp only
  split
  · simp
  · split <;> simp

@[simp] theorem trimNote_pts : ∀ k m n s, (State.trimNote k m n s).pts = s.pts := by intros; simp [State.trimNote]

@[simp] theorem setModTrim_pts : ∀ k m s, (State.setModTrim k m s).pts = s.pts := by intros; simp [State.setModTrim]

@[simp] theorem askModTrim_pts : ∀ k m s, (State.askModTrim k m s).pts = s.pts := by
  intros; unfold State.askModTrim; split <;> simp

@[simp] theorem trimBoundary_pts : ∀ k s, (State.trimBoundary k s).pts = s.pts := by
  intros; unfold State.trimBoundary; split <;> simp

@[simp] theorem spareTrim_pts : ∀ k s, (State.spareTrim k s).pts = s.pts := by intros; unfold State.spareTrim; split <;> simp

@[simp] theorem setVref_pts : ∀ k s, (State.setVref k s).pts = s.pts := by intros; simp [State.setVref]

@[simp] theorem setOsc_pts : ∀ k s, (State.setOsc k s).pts = s.pts := by intros; simp [State.setOsc]

@[simp] theorem askBkup_pts : ∀ k s, (State.askBkup k s).pts = s.pts := by intros; simp [State.askBkup]

@[simp] theorem bkupDueNow_pts : ∀ s, (State.bkupDueNow s).pts = s.pts := by intros; unfold State.bkupDueNow; split <;> simp

@[simp] theorem askPanelOsc_pts : ∀ k s, (State.askPanelOsc k s).pts = s.pts := by intros; simp [State.askPanelOsc]

@[simp] theorem panelOscNow_pts : ∀ s, (State.panelOscNow s).pts = s.pts := by intros; unfold State.panelOscNow; split <;> simp

@[simp] theorem dropModTrim_pts : ∀ k s, (State.dropModTrim k s).pts = s.pts := by
  intros; unfold State.dropModTrim; split <;> simp

@[simp] theorem reloadTrims_pts : ∀ s, (State.reloadTrims s).pts = s.pts := by intros; simp [State.reloadTrims]

@[simp] theorem chDrift_pts : ∀ k m s, (State.chDrift k m s).pts = s.pts := by intros; simp [State.chDrift]

@[simp] theorem dwellChecked_pts : ∀ k s, (State.dwellChecked k s).pts = s.pts := by intros; simp [State.dwellChecked]

@[simp] theorem spareMove_pts : ∀ k m s, (State.spareMove k m s).pts = s.pts := by
  intros; unfold State.spareMove; dsimp only; (repeat' split) <;> simp

theorem execSpareMove_pts : ∀ k m s, ∃ t, execSpareMove k m s = .next t ∧ t.pts = s.pts := by intros; refine ⟨_, rfl, ?_⟩; simp

theorem execDriftCheckPhase_pts : ∀ k m s, ∃ t, execDriftCheckPhase k m s = .next t ∧ t.pts = s.pts := by
  intros; refine ⟨_, rfl, ?_⟩; (repeat' split) <;> simp

theorem execChDriftChecked_pts : ∀ k s, ∃ t, execChDriftChecked k s = .next t ∧ t.pts = s.pts := by
  intros; refine ⟨_, rfl, ?_⟩; split <;> simp

@[simp] theorem restoreEnd_pts : ∀ k m n s, (State.restoreEnd k m n s).pts = s.pts := by
  intros; unfold State.restoreEnd; dsimp only; (repeat' split) <;> simp

theorem execChRestored_pts : ∀ k m n s, ∃ t, execChRestored k m n s = .next t ∧ t.pts = s.pts := by
  intros; refine ⟨_, rfl, ?_⟩; simp

theorem execSuppressionEnd_pts : ∀ k s, ∃ t, execSuppressionEnd k s = .next t ∧ t.pts = s.pts := by
  intros; refine ⟨_, rfl, ?_⟩; simp

theorem execChClip_pts : ∀ k s, ∃ t, execChClip k s = .next t ∧ t.pts = s.pts := by intros; refine ⟨_, rfl, ?_⟩; simp

@[simp] theorem channelBoundary_pts : ∀ k s, (State.channelBoundary k s).pts = s.pts := by intros; simp [State.channelBoundary]

@[simp] theorem spareBoundary_pts : ∀ k s, (State.spareBoundary k s).pts = s.pts := by
  intros; unfold State.spareBoundary; dsimp only; (repeat' split) <;> simp

@[simp] theorem acted_pts : ∀ k m s p, (∀ x, (p x).1.pts = x.pts) → (State.acted k m s p).pts = s.pts := by
  intros; unfold State.acted; dsimp only; (repeat' split) <;> simp [*]

@[simp] theorem abandonActivation_pts : ∀ s, (State.abandonActivation s).pts = s.pts := by intros; simp [State.abandonActivation]

@[simp] theorem command_pts : ∀ k m s p, (∀ x, (p x).pts = x.pts) → (State.command k m s p).pts = s.pts := by
  intros; unfold State.command; dsimp only; (repeat' split) <;> simp [*]

@[simp] theorem softScope_pts : ∀ k s, (State.softScope k s).pts = s.pts := by intros; unfold State.softScope; split <;> simp

@[simp] theorem settleN_pts : ∀ k s, (State.settleN k s).pts = s.pts := by
  intro k s
  induction k generalizing s with
  | zero => rfl
  | succ k ih =>
    unfold State.settleN
    split
    · simp [*]
    · split <;> simp [*]

@[simp] theorem settleBaud_pts : ∀ s, (State.settleBaud s).pts = s.pts := by
  intros; unfold State.settleBaud; dsimp only; (repeat' split) <;> simp

@[simp] theorem settle_pts : ∀ s, (State.settle s).pts = s.pts := by intros; simp [State.settle]

@[simp] theorem transact_pts : ∀ k m s, (State.transact k m s).pts = s.pts := by intros; simp [State.transact]

@[simp] theorem delivered_pts : ∀ k m n s, (State.delivered k m n s).pts = s.pts := by intros; simp [State.delivered]

@[simp] theorem readPort_pts : ∀ k m s, (State.readPort k m s).pts = s.pts := by
  intros; unfold State.readPort; dsimp only; (repeat' split) <;> simp

theorem execRead_pts : ∀ k m s, ∃ t, execRead k m s = .next t ∧ t.pts = s.pts := by intros; refine ⟨_, rfl, ?_⟩; split <;> simp

theorem execStatus_pts : ∀ k s, ∃ t, execStatus k s = .next t ∧ t.pts = s.pts := by intros; refine ⟨_, rfl, ?_⟩; split <;> simp

theorem execUartReplySent_pts : ∀ s, ∃ t, execUartReplySent s = .next t ∧ t.pts = s.pts := by
  intros; refine ⟨_, rfl, ?_⟩; (repeat' split) <;> simp

theorem execPortTimeout_pts : ∀ k s, ∃ t, execPortTimeout k s = .next t ∧ t.pts = s.pts := by
  intros; refine ⟨_, rfl, ?_⟩; split <;> simp

theorem execUartFrameStall_pts : ∀ s, ∃ t, execUartFrameStall s = .next t ∧ t.pts = s.pts := by intros; refine ⟨_, rfl, ?_⟩; simp

@[simp] theorem replyDropped_pts : ∀ k m s, (State.replyDropped k m s).pts = s.pts := by
  intros; unfold State.replyDropped; dsimp only; (repeat' split) <;> simp

theorem execReplyDropped_pts : ∀ k m s, ∃ t, execReplyDropped k m s = .next t ∧ t.pts = s.pts := by
  intros; refine ⟨_, rfl, ?_⟩; simp

theorem execSessionIdleTimeout_pts : ∀ k s, ∃ t, execSessionIdleTimeout k s = .next t ∧ t.pts = s.pts := by
  intros; refine ⟨_, rfl, ?_⟩; simp

theorem execNop_pts : ∀ k m s, ∃ t, execNop k m s = .next t ∧ t.pts = s.pts := by intros; refine ⟨_, rfl, ?_⟩; simp

theorem execSessionClose_pts : ∀ k s, ∃ t, execSessionClose k s = .next t ∧ t.pts = s.pts := by intros; refine ⟨_, rfl, ?_⟩; simp

theorem execSetPriority_pts : ∀ k m s, ∃ t, execSetPriority k m s = .next t ∧ t.pts = s.pts := by
  intros; refine ⟨_, rfl, ?_⟩; simp

@[simp] theorem sessionOpen_pts : ∀ k m s, (State.sessionOpen k m s).pts = s.pts := by
  intros; unfold State.sessionOpen; dsimp only; (repeat' split) <;> simp

theorem execSessionOpen_pts : ∀ k m s, ∃ t, execSessionOpen k m s = .next t ∧ t.pts = s.pts := by
  intros; refine ⟨_, rfl, ?_⟩; simp

@[simp] theorem grdNotify_pts : ∀ k s, (State.grdNotify k s).pts = s.pts := by intros; simp [State.grdNotify]

@[simp] theorem declareGroup_pts : ∀ k m s, (State.declareGroup k m s).pts = s.pts := by intros; simp [State.declareGroup]

theorem execGrdSource_pts : ∀ k m s, ∃ t, execGrdSource k m s = .next t ∧ t.pts = s.pts := by intros; refine ⟨_, rfl, ?_⟩; simp

theorem execCellScanPeriod_pts : ∀ k m s, ∃ t, execCellScanPeriod k m s = .next t ∧ t.pts = s.pts := by
  intros; refine ⟨_, rfl, ?_⟩; simp

theorem execGrdClock_pts : ∀ s, ∃ t, execGrdClock s = .next t ∧ t.pts = s.pts := by intros; refine ⟨_, rfl, ?_⟩; simp

@[simp] theorem cellReplay_pts : ∀ s, (State.cellReplay s).pts = s.pts := by intros; simp [State.cellReplay]

@[simp] theorem arm_pts : ∀ s, (State.arm s).pts = s.pts := by intros; simp [State.arm]

@[simp] theorem fdis_pts : ∀ k s, (State.fdis k s).pts = s.pts := by intros; simp [State.fdis]

theorem execGrdClearArm_pts : ∀ k m s, ∃ t, execGrdClearArm k m s = .next t ∧ t.pts = s.pts := by
  intros; refine ⟨_, rfl, ?_⟩; simp

@[simp] theorem clearGuards_pts : ∀ k m s, (State.clearGuards k m s).pts = s.pts := by intros; simp [State.clearGuards]

theorem execGrdClearConfirm_pts : ∀ k m n s, ∃ t, execGrdClearConfirm k m n s = .next t ∧ t.pts = s.pts := by
  intros; refine ⟨_, rfl, ?_⟩; refine command_keeps (fun s => s.pts) _ _ (by simp) (by simp) ?_; intro s; dsimp only; (repeat' split) <;> simp

theorem execGrdChallengeExpiry_pts : ∀ s, ∃ t, execGrdChallengeExpiry s = .next t ∧ t.pts = s.pts := by
  intros; refine ⟨_, rfl, ?_⟩; simp

theorem execGrdTest_pts : ∀ k m n s, ∃ t, execGrdTest k m n s = .next t ∧ t.pts = s.pts := by
  intros; refine ⟨_, rfl, ?_⟩; split <;> simp

theorem execIdCertRead_pts : ∀ k m n s, ∃ t, execIdCertRead k m n s = .next t ∧ t.pts = s.pts := by
  intros; refine ⟨_, rfl, ?_⟩; simp

@[simp] theorem outOfOrder_pts : ∀ k m n p s, (State.outOfOrder k m n p s).pts = s.pts := by intros; simp [State.outOfOrder]

@[simp] theorem retire_pts : ∀ k m n s, (State.retire k m n s).pts = s.pts := by
  intros; unfold State.retire; dsimp only; (repeat' split) <;> simp

@[simp] theorem disableTarget_pts : ∀ k s, (State.disableTarget k s).pts = s.pts := by intros; simp [State.disableTarget]

theorem execIntTimeout_pts : ∀ k s, ∃ t, execIntTimeout k s = .next t ∧ t.pts = s.pts := by
  intros; refine ⟨_, rfl, ?_⟩; split <;> simp

@[simp] theorem refCheck_pts : ∀ s, (State.refCheck s).pts = s.pts := by intros; simp [State.refCheck]

@[simp] theorem tempCheck_pts : ∀ s, (State.tempCheck s).pts = s.pts := by intros; simp [State.tempCheck]

@[simp] theorem vbatReading_pts : ∀ s, (State.vbatReading s).pts = s.pts := by intros; simp [State.vbatReading]

@[simp] theorem hallReading_pts : ∀ k s, (State.hallReading k s).pts = s.pts := by
  intros; unfold State.hallReading; dsimp only; (repeat' split) <;> simp

@[simp] theorem auxScan_pts : ∀ k m s, (State.auxScan k m s).pts = s.pts := by intros; unfold State.auxScan; split <;> simp

theorem execAuxScan_pts : ∀ k m s, ∃ t, execAuxScan k m s = .next t ∧ t.pts = s.pts := by intros; refine ⟨_, rfl, ?_⟩; simp

theorem execAuxRead_pts : ∀ k m n s, ∃ t, execAuxRead k m n s = .next t ∧ t.pts = s.pts := by
  intros; refine ⟨_, rfl, ?_⟩; split <;> simp

@[simp] theorem tableLoad_pts : ∀ k m n p q r s, (State.tableLoad k m n p q r s).pts = s.pts := by
  intros; unfold State.tableLoad; dsimp only; (repeat' split) <;> simp

theorem execPnlTableLoad_pts : ∀ k m n p q r s, ∃ t, execPnlTableLoad k m n p q r s = .next t ∧ t.pts = s.pts := by
  intros; refine ⟨_, rfl, ?_⟩; simp

theorem execPnlImageWrite_pts : ∀ k m n p s, ∃ t, execPnlImageWrite k m n p s = .next t ∧ t.pts = s.pts := by
  intros; refine ⟨_, rfl, ?_⟩; split <;> simp

@[simp] theorem steer_pts : ∀ s, (State.steer s).pts = s.pts := by intros; simp [State.steer]

@[simp] theorem pnlDone_pts : ∀ k m n s, (State.pnlDone k m n s).pts = s.pts := by intros; simp [State.pnlDone]

@[simp] theorem slotReq_pts : ∀ k m s, (State.slotReq k m s).pts = s.pts := by intros; unfold State.slotReq; split <;> simp

@[simp] theorem placeReq_pts : ∀ k m s, (State.placeReq k m s).pts = s.pts := by intros; unfold State.placeReq; split <;> simp

@[simp] theorem supersede_pts : ∀ k m s, (State.supersede k m s).pts = s.pts := by intros; simp [State.supersede]

@[simp] theorem panelUpdate_pts : ∀ k m n s, (State.panelUpdate k m n s).1.pts = s.pts := by
  intros; unfold State.panelUpdate; split <;> simp

@[simp] theorem pnlUpdate_pts : ∀ k m n p s, (State.pnlUpdate k m n p s).pts = s.pts := by intros; simp [State.pnlUpdate]

theorem execPnlUpdate_pts : ∀ k m n p s, ∃ t, execPnlUpdate k m n p s = .next t ∧ t.pts = s.pts := by
  intros; refine ⟨_, rfl, ?_⟩; simp

@[simp] theorem refreshDirty_pts : ∀ s, (State.refreshDirty s).pts = s.pts := by intros; simp [State.refreshDirty]

@[simp] theorem startWaiting_pts : ∀ s, (State.startWaiting s).pts = s.pts := by intros; simp [State.startWaiting]

@[simp] theorem endRun_pts : ∀ k m n s, (State.endRun k m n s).pts = s.pts := by intros; simp [State.endRun]

@[simp] theorem startRun_pts : ∀ k m s, (State.startRun k m s).pts = s.pts := by intros; unfold State.startRun; split <;> simp

@[simp] theorem pairEnd_pts : ∀ k s, (State.pairEnd k s).pts = s.pts := by intros; unfold State.pairEnd; split <;> simp

@[simp] theorem pairStart_pts : ∀ k s, (State.pairStart k s).pts = s.pts := by intros; unfold State.pairStart; split <;> simp

@[simp] theorem dropPending_pts : ∀ k s, (State.dropPending k s).pts = s.pts := by
  intros; unfold State.dropPending; dsimp only; (repeat' split) <;> simp

@[simp] theorem pairBoundary_pts : ∀ s, (State.pairBoundary s).pts = s.pts := by intros; simp [State.pairBoundary]

theorem execPanelPairBoundary_pts : ∀ s, ∃ t, execPanelPairBoundary s = .next t ∧ t.pts = s.pts := by
  intros; refine ⟨_, rfl, ?_⟩; simp

theorem execPanelFrameBoundary_pts : ∀ s, ∃ t, execPanelFrameBoundary s = .next t ∧ t.pts = s.pts := by
  intros; refine ⟨_, rfl, ?_⟩; simp

@[simp] theorem faultRegion_pts : ∀ k s, (State.faultRegion k s).pts = s.pts := by
  intros; unfold State.faultRegion; dsimp only; (repeat' split) <;> simp

@[simp] theorem panelFault_pts : ∀ s, (State.panelFault s).pts = s.pts := by intros; simp [State.panelFault]

theorem execPanelFault_pts : ∀ k s, ∃ t, execPanelFault k s = .next t ∧ t.pts = s.pts := by intros; refine ⟨_, rfl, ?_⟩; simp

theorem execRailRead_pts : ∀ k s, ∃ t, execRailRead k s = .next t ∧ t.pts = s.pts := by
  intros; refine ⟨_, rfl, ?_⟩; dsimp only; (repeat' split) <;> simp

theorem execRailStep_pts : ∀ s, ∃ t, execRailStep s = .next t ∧ t.pts = s.pts := by intros; refine ⟨_, rfl, ?_⟩; simp

@[simp] theorem closeout_pts : ∀ s, (State.closeout s).pts = s.pts := by intros; simp [State.closeout]

@[simp] theorem recover_pts : ∀ k s, (State.recover k s).pts = s.pts := by intros; simp [State.recover]

@[simp] theorem store_pts : ∀ k m s, (State.store k m s).pts = s.pts := by intros; simp [State.store]

@[simp] theorem stage_pts : ∀ k m s, (State.stage k m s).pts = s.pts := by intros; simp [State.stage]

@[simp] theorem noteRejoined_pts : ∀ k m s, (State.noteRejoined k m s).pts = s.pts := by intros; simp [State.noteRejoined]

@[simp] theorem rejoinComb_pts : ∀ s, (State.rejoinComb s).pts = s.pts := by intros; unfold State.rejoinComb; split <;> simp

@[simp] theorem rejoinMet_pts : ∀ s, (State.rejoinMet s).pts = s.pts := by intros; unfold State.rejoinMet; split <;> simp

@[simp] theorem rejoin_pts : ∀ k m s, (State.rejoin k m s).pts = s.pts := by
  intros; unfold State.rejoin; dsimp only; (repeat' split) <;> simp

@[simp] theorem control_pts : ∀ k m s, (State.control k m s).pts = s.pts := by intros; unfold State.control; split <;> simp

@[simp] theorem guardControl_pts : ∀ k s, (State.guardControl k s).pts = s.pts := by intros; simp [State.guardControl]

@[simp] theorem askOsc_pts : ∀ k s, (State.askOsc k s).pts = s.pts := by intros; simp [State.askOsc]

@[simp] theorem noteKey_pts : ∀ k s, (State.noteKey k s).pts = s.pts := by intros; simp [State.noteKey]

@[simp] theorem applyWord_pts : ∀ k m n p q s, (State.applyWord k m n p q s).pts = s.pts := by
  intro a0 a1 r a3 a4 s
  cases r with
  | ch k x => cases x <;> (unfold State.applyWord; first | rfl | (simp; done) | (dsimp only; split <;> simp))
  | _ => unfold State.applyWord; first | rfl | (simp; done) | (dsimp only; split <;> first | rfl | (simp; done) | (split <;> simp))

@[simp] theorem paramWrite_pts : ∀ k m n p s, (State.paramWrite k m n p s).pts = s.pts := by
  intro req env addr ws s
  have hw : ∀ order l s s1, State.writeWords req env order l s = .inr s1 → s1.pts = s.pts := by
    intro order l
    induction l with
    | nil => intro s s1 h; simp only [State.writeWords, Sum.inr.injEq] at h; rw [← h]
    | cons x l ih =>
      intro s s1 h
      obtain ⟨a, w⟩ := x
      simp only [State.writeWords] at h
      split at h
      · simp at h
      · rw [ih _ _ h]; simp
  unfold State.paramWrite
  split
  · simp
  · next s1 h =>
    have : s1.pts = s.pts := by
      unfold State.tryWrite at h
      dsimp only at h
      split at h
      · simp at h
      · split at h
        · simp at h
        · exact hw _ _ _ _ h
    simp [this]

@[simp] theorem write_pts : ∀ k m n p s, (State.write k m n p s).pts = s.pts := by intros; simp [State.write]

theorem execParamWrite_pts : ∀ k m n s, ∃ t, execParamWrite k m n s = .next t ∧ t.pts = s.pts := by
  intros; refine ⟨_, rfl, ?_⟩; simp

theorem execForceSpare_pts : ∀ k m s, ∃ t, execForceSpare k m s = .next t ∧ t.pts = s.pts := by intros; refine ⟨_, rfl, ?_⟩; simp

theorem execRestore_pts : ∀ k m s, ∃ t, execRestore k m s = .next t ∧ t.pts = s.pts := by intros; refine ⟨_, rfl, ?_⟩; simp

theorem execCheck_pts : ∀ k m s, ∃ t, execCheck k m s = .next t ∧ t.pts = s.pts := by intros; refine ⟨_, rfl, ?_⟩; simp

theorem execTrimModWrite_pts : ∀ k m n s, ∃ t, execTrimModWrite k m n s = .next t ∧ t.pts = s.pts := by
  intros; refine ⟨_, rfl, ?_⟩; simp

theorem execTrimVrefWrite_pts : ∀ k m s, ∃ t, execTrimVrefWrite k m s = .next t ∧ t.pts = s.pts := by
  intros; refine ⟨_, rfl, ?_⟩; simp

theorem execTrimOscWrite_pts : ∀ k m s, ∃ t, execTrimOscWrite k m s = .next t ∧ t.pts = s.pts := by
  intros; refine ⟨_, rfl, ?_⟩; simp

theorem execReload_pts : ∀ k s, ∃ t, execReload k s = .next t ∧ t.pts = s.pts := by intros; refine ⟨_, rfl, ?_⟩; simp

theorem execRejoin_pts : ∀ k m n s, ∃ t, execRejoin k m n s = .next t ∧ t.pts = s.pts := by intros; refine ⟨_, rfl, ?_⟩; simp

theorem execXreturn_pts : ∀ k s, ∃ t, execXreturn k s = .next t ∧ t.pts = s.pts := by intros; refine ⟨_, rfl, ?_⟩; simp

theorem execEoi_pts : ∀ k m n p s, ∃ t, execEoi k m n p s = .next t ∧ t.pts = s.pts := by intros; refine ⟨_, rfl, ?_⟩; simp

theorem execIntTargetDisable_pts : ∀ k m s, ∃ t, execIntTargetDisable k m s = .next t ∧ t.pts = s.pts := by
  intros; refine ⟨_, rfl, ?_⟩; simp

theorem execArm_pts : ∀ k s, ∃ t, execArm k s = .next t ∧ t.pts = s.pts := by intros; refine ⟨_, rfl, ?_⟩; simp

theorem execFdis_pts : ∀ k m n s, ∃ t, execFdis k m n s = .next t ∧ t.pts = s.pts := by intros; refine ⟨_, rfl, ?_⟩; simp

theorem execRecover_pts : ∀ k m s, ∃ t, execRecover k m s = .next t ∧ t.pts = s.pts := by intros; refine ⟨_, rfl, ?_⟩; simp

@[simp] theorem slotCheck_pts : ∀ k m s, (State.slotCheck k m s).pts = s.pts := by intros; simp [State.slotCheck]

@[simp] theorem latchSlots_pts : ∀ k s, (State.latchSlots k s).pts = s.pts := by intros; simp [State.latchSlots]

@[simp] theorem deliverSlots_pts : ∀ s, (State.deliverSlots s).pts = s.pts := by intros; simp [State.deliverSlots]

@[simp] theorem combCompare_pts : ∀ k m n s, (State.combCompare k m n s).pts = s.pts := by intros; simp [State.combCompare]

@[simp] theorem frameLines_pts : ∀ s, (State.frameLines s).pts = s.pts := by intros; simp [State.frameLines]

@[simp] theorem acquire_pts : ∀ k s, (State.acquire k s).pts = s.pts := by intros; simp [State.acquire]

@[simp] theorem survey_pts : ∀ s, (State.survey s).pts = s.pts := by intros; simp [State.survey]

@[simp] theorem relockFrame_pts : ∀ s, (State.relockFrame s).pts = s.pts := by intros; simp [State.relockFrame]

@[simp] theorem handOffFrame_pts : ∀ s, (State.handOffFrame s).pts = s.pts := by intros; simp [State.handOffFrame]

@[simp] theorem takePins_pts : ∀ s, (State.takePins s).pts = s.pts := by intros; simp [State.takePins]

@[simp] theorem combFrame_pts : ∀ k m n p s, (State.combFrame k m n p s).pts = s.pts := by intros; simp [State.combFrame]

theorem execCombFrame_pts : ∀ k m n p s, ∃ t, execCombFrame k m n p s = .next t ∧ t.pts = s.pts := by
  intros; refine ⟨_, rfl, ?_⟩; simp

theorem execEngFenced_pts : ∀ k s, ∃ t, execEngFenced k s = .next t ∧ t.pts = s.pts := by intros; refine ⟨_, rfl, ?_⟩; simp

@[simp] theorem closeBalance_pts : ∀ k s, (State.closeBalance k s).pts = s.pts := by
  intros; unfold State.closeBalance; split <;> simp

@[simp] theorem closeDc_pts : ∀ k s, (State.closeDc k s).pts = s.pts := by intros; simp [State.closeDc]

@[simp] theorem startCapture_pts : ∀ k m n s, (State.startCapture k m n s).pts = s.pts := by intros; simp [State.startCapture]

@[simp] theorem trigger_pts : ∀ k m s, (State.trigger k m s).pts = s.pts := by
  intros; unfold State.trigger; dsimp only; (repeat' split) <;> simp

@[simp] theorem triggerBy_pts : ∀ k m s, (State.triggerBy k m s).pts = s.pts := by intros; unfold State.triggerBy; split <;> simp

@[simp] theorem dueTrigger_pts : ∀ k s, (State.dueTrigger k s).pts = s.pts := by intros; unfold State.dueTrigger; split <;> simp

@[simp] theorem enterDue_pts : ∀ k s, (State.enterDue k s).pts = s.pts := by intros; unfold State.enterDue; split <;> simp

@[simp] theorem due_pts : ∀ k m n p q r u s, (State.due k m n p q r u s).pts = s.pts := by intros; simp [State.due]

@[simp] theorem flushDue_pts : ∀ s, (State.flushDue s).pts = s.pts := by intros; simp [State.flushDue]

theorem execCaptureFilled_pts : ∀ k s, ∃ t, execCaptureFilled k s = .next t ∧ t.pts = s.pts := by
  intros; refine ⟨_, rfl, ?_⟩; simp

theorem execCaptureKeepExpiry_pts : ∀ k s, ∃ t, execCaptureKeepExpiry k s = .next t ∧ t.pts = s.pts := by
  intros; refine ⟨_, rfl, ?_⟩; simp

@[simp] theorem completeEvent_pts : ∀ k m n p q r u s, (State.completeEvent k m n p q r u s).pts = s.pts := by
  intros; simp [State.completeEvent]

@[simp] theorem autoFreeze_pts : ∀ k s, (State.autoFreeze k s).pts = s.pts := by intros; simp [State.autoFreeze]

@[simp] theorem freezeCount_pts : ∀ k m s, (State.freezeCount k m s).pts = s.pts := by intros; simp [State.freezeCount]

theorem execAutoFreezeEnd_pts : ∀ k s, ∃ t, execAutoFreezeEnd k s = .next t ∧ t.pts = s.pts := by
  intros; refine ⟨_, rfl, ?_⟩; simp

@[simp] theorem rvcValue_pts : ∀ k m n p s, (State.rvcValue k m n p s).pts = s.pts := by
  intros; unfold State.rvcValue; split <;> simp

@[simp] theorem startEvent_pts : ∀ k m n p q s, (State.startEvent k m n p q s).pts = s.pts := by
  intros; unfold State.startEvent; split <;> simp

@[simp] theorem eventStep_pts : ∀ k m n p s, (State.eventStep k m n p s).pts = s.pts := by
  intros; unfold State.eventStep; dsimp only; (repeat' split) <;> simp

@[simp] theorem flagBefore_pts : ∀ k s, (State.flagBefore k s).pts = s.pts := by intros; simp [State.flagBefore]

@[simp] theorem halfCycle_pts : ∀ k m s, (State.halfCycle k m s).pts = s.pts := by
  intros
  unfold State.halfCycle
  dsimp only
  simp only [onBus_pts, flagBefore_pts, ite_pts]
  split
  · rw [chain_pts _ _ _ (by intro x s; simp)]; simp
  · simp

@[simp] theorem powerFailEvents_pts : ∀ s, (State.powerFailEvents s).pts = s.pts := by
  intros
  unfold State.powerFailEvents
  dsimp only
  simp only [flushDue_pts]
  exact chain_pts _ _ _ (by intro x s; exact chain_pts _ _ _ (by intro x s; (repeat' split) <;> simp))

@[simp] theorem detected_pts : ∀ k m n p q r s, (State.detected k m n p q r s).pts = s.pts := by intros; simp [State.detected]

@[simp] theorem neutralLost_pts : ∀ k s, (State.neutralLost k s).pts = s.pts := by intros; simp [State.neutralLost]

@[simp] theorem wrongSequence_pts : ∀ k s, (State.wrongSequence k s).pts = s.pts := by intros; simp [State.wrongSequence]

@[simp] theorem dcPresent_pts : ∀ k s, (State.dcPresent k s).pts = s.pts := by intros; simp [State.dcPresent]

@[simp] theorem magnet_pts : ∀ s, (State.magnet s).pts = s.pts := by intros; simp [State.magnet]

@[simp] theorem blockDetectors_pts : ∀ s, (State.blockDetectors s).pts = s.pts := by intros; simp [State.blockDetectors]

@[simp] theorem startSet_pts : ∀ s, (State.startSet s).pts = s.pts := by intros; simp [State.startSet]

@[simp] theorem publishSet_pts : ∀ s, (State.publishSet s).pts = s.pts := by intros; simp [State.publishSet]

theorem execWbSetEnd_pts : ∀ s, ∃ t, execWbSetEnd s = .next t ∧ t.pts = s.pts := by intros; refine ⟨_, rfl, ?_⟩; simp

@[simp] theorem refill_pts : ∀ s, (State.refill s).pts = s.pts := by intros; unfold State.refill; split <;> simp

@[simp] theorem seal_pts : ∀ k s, (State.seal k s).pts = s.pts := by intros; unfold State.seal; split <;> simp

@[simp] theorem cut_pts : ∀ k m s, (State.cut k m s).pts = s.pts := by intros; simp [State.cut]

theorem execFolioSealed_pts : ∀ k s, ∃ t, execFolioSealed k s = .next t ∧ t.pts = s.pts := by intros; refine ⟨_, rfl, ?_⟩; simp

@[simp] theorem writeRecord_pts : ∀ k s, (State.writeRecord k s).pts = s.pts := by intros; simp [State.writeRecord]

@[simp] theorem writeCheckpoint_pts : ∀ s, (State.writeCheckpoint s).pts = s.pts := by intros; simp [State.writeCheckpoint]

@[simp] theorem checkpoint_pts : ∀ s, (State.checkpoint s).pts = s.pts := by intros; simp [State.checkpoint]

@[simp] theorem extraCheckpoint_pts : ∀ s, (State.extraCheckpoint s).pts = s.pts := by intros; simp [State.extraCheckpoint]

@[simp] theorem lostInterval_pts : ∀ s, (State.lostInterval s).pts = s.pts := by intros; simp [State.lostInterval]

@[simp] theorem fenceBank_pts : ∀ k s, (State.fenceBank k s).pts = s.pts := by intros; simp [State.fenceBank]

@[simp] theorem rewrite_pts : ∀ k m s, (State.rewrite k m s).pts = s.pts := by intros; simp [State.rewrite]

@[simp] theorem closeChannel_pts : ∀ k z n s, (State.closeChannel k z n s).pts = s.pts := by intros; simp [State.closeChannel]

@[simp] theorem closeBus_pts : ∀ k z n s, (State.closeBus k z n s).pts = s.pts := by intros; simp [State.closeBus]

@[simp] theorem close150_pts : ∀ k s, (State.close150 k s).pts = s.pts := by intros; simp [State.close150]

theorem execAggregateClose_pts : ∀ s, ∃ t, execAggregateClose s = .next t ∧ t.pts = s.pts := by intros; refine ⟨_, rfl, ?_⟩; simp

@[simp] theorem applyNomf_pts : ∀ s, (State.applyNomf s).pts = s.pts := by intros; simp [State.applyNomf]

@[simp] theorem asEnded_pts : ∀ s, (State.asEnded s).pts = s.pts := by intros; simp [State.asEnded]

@[simp] theorem closeBlock_pts : ∀ k s, (State.closeBlock k s).pts = s.pts := by intros; simp [State.closeBlock]

theorem execBlockClose_pts : ∀ s, ∃ t, execBlockClose s = .next t ∧ t.pts = s.pts := by intros; refine ⟨_, rfl, ?_⟩; simp

@[simp] theorem countedAggs_pts : ∀ s, (State.countedAggs s).pts = s.pts := by intros; simp [State.countedAggs]

@[simp] theorem tenMinuteTick_pts : ∀ s, (State.tenMinuteTick s).pts = s.pts := by intros; simp [State.tenMinuteTick]

theorem execTenMinuteTick_pts : ∀ s, ∃ t, execTenMinuteTick s = .next t ∧ t.pts = s.pts := by intros; refine ⟨_, rfl, ?_⟩; simp

@[simp] theorem frequencyClose_pts : ∀ s, (State.frequencyClose s).pts = s.pts := by intros; simp [State.frequencyClose]

theorem execFrequencyIntervalClose_pts : ∀ s, ∃ t, execFrequencyIntervalClose s = .next t ∧ t.pts = s.pts := by
  intros; refine ⟨_, rfl, ?_⟩; simp

@[simp] theorem changeUdin_pts : ∀ k s, (State.changeUdin k s).pts = s.pts := by intros; simp [State.changeUdin]

@[simp] theorem udinNow_pts : ∀ s, (State.udinNow s).pts = s.pts := by intros; simp [State.udinNow]

@[simp] theorem spoilFolio_pts : ∀ k m n s, (State.spoilFolio k m n s).pts = s.pts := by intros; simp [State.spoilFolio]

@[simp] theorem spoilRead_pts : ∀ k s, (State.spoilRead k s).pts = s.pts := by intros; unfold State.spoilRead; split <;> simp

@[simp] theorem noteUncorr_pts : ∀ k s, (State.noteUncorr k s).pts = s.pts := by intros; simp [State.noteUncorr]

@[simp] theorem readError_pts : ∀ k s, (State.readError k s).pts = s.pts := by intros; simp [State.readError]

@[simp] theorem onFolio_pts : ∀ k m n s q, (∀ x, (q x).pts = s.pts) → (State.onFolio k m n s q).pts = s.pts := by
  intros; unfold State.onFolio; (repeat' split) <;> simp [*]

theorem execFolioRead_pts : ∀ k m n p q s, ∃ t, execFolioRead k m n p q s = .next t ∧ t.pts = s.pts := by
  intros; refine ⟨_, rfl, ?_⟩; refine command_keeps (fun s => s.pts) _ _ (by simp) (by simp) ?_; intro s; simp

@[simp] theorem grant_pts : ∀ k m n s, (State.grant k m n s).1.pts = s.pts := by
  intros; unfold State.grant; dsimp only; (repeat' split) <;> simp

@[simp] theorem lease_pts : ∀ k m n s, (State.lease k m n s).1.pts = s.pts := by
  intros; unfold State.lease; (repeat' split) <;> simp

theorem execFolioLease_pts : ∀ k m n s, ∃ t, execFolioLease k m n s = .next t ∧ t.pts = s.pts := by
  intros; refine ⟨_, rfl, ?_⟩; simp

@[simp] theorem endLease_pts : ∀ k m s, (State.endLease k m s).pts = s.pts := by intros; simp [State.endLease]

@[simp] theorem renew_pts : ∀ k m n s, (State.renew k m n s).1.pts = s.pts := by intros; unfold State.renew; split <;> simp

theorem execFolioRenew_pts : ∀ k m n s, ∃ t, execFolioRenew k m n s = .next t ∧ t.pts = s.pts := by
  intros; refine ⟨_, rfl, ?_⟩; simp

@[simp] theorem release_pts : ∀ k m s, (State.release k m s).1.pts = s.pts := by intros; unfold State.release; split <;> simp

theorem execFolioRelease_pts : ∀ k m s, ∃ t, execFolioRelease k m s = .next t ∧ t.pts = s.pts := by
  intros; refine ⟨_, rfl, ?_⟩; simp

theorem execLeaseExpiry_pts : ∀ k m s, ∃ t, execLeaseExpiry k m s = .next t ∧ t.pts = s.pts := by
  intros; refine ⟨_, rfl, ?_⟩; simp

@[simp] theorem demandCut_pts : ∀ s, (State.demandCut s).1.pts = s.pts := by intros; unfold State.demandCut; split <;> simp

theorem execFolioCut_pts : ∀ k s, ∃ t, execFolioCut k s = .next t ∧ t.pts = s.pts := by intros; refine ⟨_, rfl, ?_⟩; simp

theorem execFolioSealGet_pts : ∀ k m s, ∃ t, execFolioSealGet k m s = .next t ∧ t.pts = s.pts := by
  intros; refine ⟨_, rfl, ?_⟩; simp

theorem execParamRead_pts : ∀ k m n s, ∃ t, execParamRead k m n s = .next t ∧ t.pts = s.pts := by
  intros; refine ⟨_, rfl, ?_⟩; simp

theorem execScRead_pts : ∀ k m n p s, ∃ t, execScRead k m n p s = .next t ∧ t.pts = s.pts := by intros; refine ⟨_, rfl, ?_⟩; simp

theorem execBlotRead_pts : ∀ k s, ∃ t, execBlotRead k s = .next t ∧ t.pts = s.pts := by intros; refine ⟨_, rfl, ?_⟩; simp

@[simp] theorem judgeAdmitted_pts : ∀ k s, (State.judgeAdmitted k s).1.pts = s.pts := by
  intros; unfold State.judgeAdmitted; dsimp only; (repeat' split) <;> simp

@[simp] theorem admitFrame_pts : ∀ k m n p s, (State.admitFrame k m n p s).pts = s.pts := by
  intros; unfold State.admitFrame; dsimp only; (repeat' split) <;> simp

@[simp] theorem judgeOpcode_pts : ∀ k m n p s, (State.judgeOpcode k m n p s).pts = s.pts := by
  intros; unfold State.judgeOpcode; (repeat' split) <;> simp

@[simp] theorem authFailure_pts : ∀ k m n s, (State.authFailure k m n s).pts = s.pts := by intros; simp [State.authFailure]

@[simp] theorem judgeSequence_pts : ∀ k m n p s, (State.judgeSequence k m n p s).pts = s.pts := by
  intros; simp [State.judgeSequence]

@[simp] theorem judgeSession_pts : ∀ k m n p s, (State.judgeSession k m n p s).pts = s.pts := by
  intros; unfold State.judgeSession; (repeat' split) <;> simp

@[simp] theorem judgeFrame_pts : ∀ k m s, (State.judgeFrame k m s).pts = s.pts := by
  intros; unfold State.judgeFrame; dsimp only; (repeat' split) <;> simp

@[simp] theorem frameReceive_pts : ∀ k m s, (State.frameReceive k m s).pts = s.pts := by
  intros; unfold State.frameReceive; (repeat' split) <;> simp

theorem execFrameReceive_pts : ∀ k m n s, ∃ t, execFrameReceive k m n s = .next t ∧ t.pts = s.pts := by
  intros; refine ⟨_, rfl, ?_⟩; simp

@[simp] theorem alarmEvent_pts : ∀ k m s, (State.alarmEvent k m s).pts = s.pts := by intros; simp [State.alarmEvent]

@[simp] theorem alarmFire_pts : ∀ k m n p s, (State.alarmFire k m n p s).pts = s.pts := by intros; simp [State.alarmFire]

@[simp] theorem alarmForward_pts : ∀ k m n p s, (State.alarmForward k m n p s).pts = s.pts := by
  intros; unfold State.alarmForward; dsimp only; (repeat' split) <;> simp

@[simp] theorem alarmsAtStep_pts : ∀ k m n s, (State.alarmsAtStep k m n s).pts = s.pts := by intros; simp [State.alarmsAtStep]

@[simp] theorem badSet_pts : ∀ s, (State.badSet s).pts = s.pts := by intros; simp [State.badSet]

@[simp] theorem calStep_pts : ∀ k m s, (State.calStep k m s).pts = s.pts := by intros; simp [State.calStep]

@[simp] theorem calFirstSet_pts : ∀ k m s, (State.calFirstSet k m s).pts = s.pts := by intros; simp [State.calFirstSet]

@[simp] theorem cldSet_pts : ∀ k m s, (State.cldSet k m s).pts = s.pts := by intros; simp [State.cldSet]

theorem execCldSet_pts : ∀ k m s, ∃ t, execCldSet k m s = .next t ∧ t.pts = s.pts := by intros; refine ⟨_, rfl, ?_⟩; simp

@[simp] theorem cldAdjusted_pts : ∀ k m n s, (State.cldAdjusted k m n s).pts = s.pts := by intros; simp [State.cldAdjusted]

@[simp] theorem adjustStep_pts : ∀ k m n s, (State.adjustStep k m n s).pts = s.pts := by intros; simp [State.adjustStep]

theorem execCldAdjustStep_pts : ∀ k m n s, ∃ t, execCldAdjustStep k m n s = .next t ∧ t.pts = s.pts := by
  intros; refine ⟨_, rfl, ?_⟩; simp

@[simp] theorem adjustSlew_pts : ∀ k m n s, (State.adjustSlew k m n s).pts = s.pts := by intros; simp [State.adjustSlew]

theorem execCldAdjustSlew_pts : ∀ k m n s, ∃ t, execCldAdjustSlew k m n s = .next t ∧ t.pts = s.pts := by
  intros; refine ⟨_, rfl, ?_⟩; simp

theorem execCldAlarmAck_pts : ∀ k m s, ∃ t, execCldAlarmAck k m s = .next t ∧ t.pts = s.pts := by
  intros; refine ⟨_, rfl, ?_⟩; simp

@[simp] theorem secondBoundary_pts : ∀ s, (State.secondBoundary s).pts = s.pts := by intros; simp [State.secondBoundary]

theorem execCalSecondBoundary_pts : ∀ s, ∃ t, execCalSecondBoundary s = .next t ∧ t.pts = s.pts := by
  intros; refine ⟨_, rfl, ?_⟩; simp

theorem execCalStopped_pts : ∀ s, ∃ t, execCalStopped s = .next t ∧ t.pts = s.pts := by intros; refine ⟨_, rfl, ?_⟩; simp

theorem execSlewEnd_pts : ∀ s, ∃ t, execSlewEnd s = .next t ∧ t.pts = s.pts := by intros; refine ⟨_, rfl, ?_⟩; simp

@[simp] theorem applyProfEn_pts : ∀ s, (State.applyProfEn s).pts = s.pts := by intros; simp [State.applyProfEn]

@[simp] theorem openProfile_pts : ∀ k s, (State.openProfile k s).pts = s.pts := by intros; simp [State.openProfile]

@[simp] theorem residual_pts : ∀ k m n p q s, (State.residual k m n p q s).pts = s.pts := by intros; simp [State.residual]

@[simp] theorem balanceClose_pts : ∀ k m s, (State.balanceClose k m s).pts = s.pts := by intros; simp [State.balanceClose]

theorem execBalanceClose_pts : ∀ k s, ∃ t, execBalanceClose k s = .next t ∧ t.pts = s.pts := by intros; refine ⟨_, rfl, ?_⟩; simp

@[simp] theorem switchRef_pts : ∀ k m s, (State.switchRef k m s).pts = s.pts := by intros; simp [State.switchRef]

@[simp] theorem enterFreerun_pts : ∀ s, (State.enterFreerun s).pts = s.pts := by intros; simp [State.enterFreerun]

@[simp] theorem enterHoldover_pts : ∀ k s, (State.enterHoldover k s).pts = s.pts := by intros; simp [State.enterHoldover]

@[simp] theorem chooseRef_pts : ∀ k m n s, (State.chooseRef k m n s).pts = s.pts := by
  intros; unfold State.chooseRef; dsimp only; (repeat' split) <;> simp

@[simp] theorem judgeLock_pts : ∀ s, (State.judgeLock s).pts = s.pts := by
  intros; unfold State.judgeLock; dsimp only; (repeat' split) <;> simp

@[simp] theorem closeTimebase_pts : ∀ s, (State.closeTimebase s).pts = s.pts := by intros; simp [State.closeTimebase]

@[simp] theorem absorbDelay_pts : ∀ k m s, (State.absorbDelay k m s).pts = s.pts := by
  intros; unfold State.absorbDelay; split <;> simp

theorem execFreerunEntry_pts : ∀ s, ∃ t, execFreerunEntry s = .next t ∧ t.pts = s.pts := by
  intros; refine ⟨_, rfl, ?_⟩; split <;> simp

theorem execLsyncEdge_pts : ∀ k m s, ∃ t, execLsyncEdge k m s = .next t ∧ t.pts = s.pts := by intros; refine ⟨_, rfl, ?_⟩; simp

theorem execLsyncTimeout_pts : ∀ s, ∃ t, execLsyncTimeout s = .next t ∧ t.pts = s.pts := by intros; refine ⟨_, rfl, ?_⟩; simp

@[simp] theorem reloadCal_pts : ∀ s, (State.reloadCal s).pts = s.pts := by intros; simp [State.reloadCal]

@[simp] theorem calParity_pts : ∀ k s, (State.calParity k s).pts = s.pts := by intros; simp [State.calParity]

@[simp] theorem resetReply_pts : ∀ k s, (State.resetReply k s).pts = s.pts := by intros; simp [State.resetReply]

theorem execDemandReset_pts : ∀ k m s, ∃ t, execDemandReset k m s = .next t ∧ t.pts = s.pts := by
  intros; refine ⟨_, rfl, ?_⟩; simp

theorem execCalCommit_pts : ∀ k m s, ∃ t, execCalCommit k m s = .next t ∧ t.pts = s.pts := by intros; refine ⟨_, rfl, ?_⟩; simp

theorem execCalPendingRead_pts : ∀ k m n s, ∃ t, execCalPendingRead k m n s = .next t ∧ t.pts = s.pts := by
  intros; refine ⟨_, rfl, ?_⟩; split <;> simp

theorem execCalPendingResolve_pts : ∀ k m n s, ∃ t, execCalPendingResolve k m n s = .next t ∧ t.pts = s.pts := by
  intros; refine ⟨_, rfl, ?_⟩; simp

theorem execPulseTest_pts : ∀ k m n p s, ∃ t, execPulseTest k m n p s = .next t ∧ t.pts = s.pts := by
  intros; refine ⟨_, rfl, ?_⟩; simp

@[simp] theorem pulseSample_pts : ∀ k m s, (State.pulseSample k m s).pts = s.pts := by intros; simp [State.pulseSample]

@[simp] theorem pulseClose_pts : ∀ k s, (State.pulseClose k s).pts = s.pts := by intros; simp [State.pulseClose]

@[simp] theorem rebase_pts : ∀ k s, (State.rebase k s).pts = s.pts := by intros; simp [State.rebase]

theorem execPulseLeadingEdge_pts : ∀ k s, ∃ t, execPulseLeadingEdge k s = .next t ∧ t.pts = s.pts := by
  intros; refine ⟨_, rfl, ?_⟩; split <;> simp

theorem execPulseTrailingEdge_pts : ∀ k s, ∃ t, execPulseTrailingEdge k s = .next t ∧ t.pts = s.pts := by
  intros; refine ⟨_, rfl, ?_⟩; simp

@[simp] theorem halfEnd_pts : ∀ k s, (State.halfEnd k s).pts = s.pts := by intros; simp [State.halfEnd]

@[simp] theorem keepBatch_pts : ∀ k m s, (State.keepBatch k m s).pts = s.pts := by intros; simp [State.keepBatch]

@[simp] theorem takeBatch_pts : ∀ k s, (State.takeBatch k s).pts = s.pts := by intros; simp [State.takeBatch]

@[simp] theorem sampleBatch_pts : ∀ k m s, (State.sampleBatch k m s).pts = s.pts := by intros; simp [State.sampleBatch]

theorem execSampleBatch_pts : ∀ k m s, ∃ t, execSampleBatch k m s = .next t ∧ t.pts = s.pts := by
  intros; refine ⟨_, rfl, ?_⟩; simp

@[simp] theorem replayBatch_pts : ∀ k s, (State.replayBatch k s).pts = s.pts := by intros; simp [State.replayBatch]

@[simp] theorem replayFrom_pts : ∀ k s, (State.replayFrom k s).pts = s.pts := by intros; unfold State.replayFrom; split <;> simp

@[simp] theorem metrologyReplay_pts : ∀ k m n s, (State.metrologyReplay k m n s).pts = s.pts := by
  intros; simp [State.metrologyReplay]

theorem execMetrologyReplay_pts : ∀ k m n s, ∃ t, execMetrologyReplay k m n s = .next t ∧ t.pts = s.pts := by
  intros; refine ⟨_, rfl, ?_⟩; simp

@[simp] theorem noteCommit_pts : ∀ s, (State.noteCommit s).pts = s.pts := by intros; simp [State.noteCommit]

@[simp] theorem channelsToBlock_pts : ∀ s, (State.channelsToBlock s).pts = s.pts := by intros; simp [State.channelsToBlock]

@[simp] theorem boundaryImage_pts : ∀ k s, (State.boundaryImage k s).pts = s.pts := by intros; simp [State.boundaryImage]

@[simp] theorem turnCycle_pts : ∀ s, (State.turnCycle s).pts = s.pts := by intros; simp [State.turnCycle]

@[simp] theorem enforce_pts : ∀ k s, (State.enforce k s).pts = s.pts := by intros; simp [State.enforce]

@[simp] theorem trimsBoundary_pts : ∀ s, (State.trimsBoundary s).pts = s.pts := by
  intros; unfold State.trimsBoundary; dsimp only; split <;> simp

@[simp] theorem saveBoundary_pts : ∀ s, (State.saveBoundary s).pts = s.pts := by intros; unfold State.saveBoundary; split <;> simp

@[simp] theorem bankBoundary_pts : ∀ s, (State.bankBoundary s).pts = s.pts := by intros; simp [State.bankBoundary]

@[simp] theorem cutAsked_pts : ∀ s, (State.cutAsked s).pts = s.pts := by intros; simp [State.cutAsked]

@[simp] theorem closureRecord_pts : ∀ s, (State.closureRecord s).pts = s.pts := by intros; simp [State.closureRecord]

theorem execBlotClear_pts : ∀ k m s, ∃ t, execBlotClear k m s = .next t ∧ t.pts = s.pts := by intros; refine ⟨_, rfl, ?_⟩; simp

theorem execBankEnter_pts : ∀ k s, ∃ t, execBankEnter k s = .next t ∧ t.pts = s.pts := by
  intros; refine ⟨_, rfl, ?_⟩; refine command_keeps (fun s => s.pts) _ _ (by simp) (by simp) ?_; intro s; dsimp only; (repeat' split) <;> simp

theorem execBankExit_pts : ∀ k s, ∃ t, execBankExit k s = .next t ∧ t.pts = s.pts := by intros; refine ⟨_, rfl, ?_⟩; simp

theorem execSoftReset_pts : ∀ k m s, ∃ t, execSoftReset k m s = .next t ∧ t.pts = s.pts := by intros; refine ⟨_, rfl, ?_⟩; simp

theorem execCfgSave_pts : ∀ k s, ∃ t, execCfgSave k s = .next t ∧ t.pts = s.pts := by intros; refine ⟨_, rfl, ?_⟩; simp

theorem execInkLock_pts : ∀ k m s, ∃ t, execInkLock k m s = .next t ∧ t.pts = s.pts := by intros; refine ⟨_, rfl, ?_⟩; simp

@[simp] theorem endLock_pts : ∀ s, (State.endLock s).pts = s.pts := by intros; unfold State.endLock; split <;> simp

theorem execInkUnlock_pts : ∀ k s, ∃ t, execInkUnlock k s = .next t ∧ t.pts = s.pts := by intros; refine ⟨_, rfl, ?_⟩; simp

theorem execInkLockExpiry_pts : ∀ s, ∃ t, execInkLockExpiry s = .next t ∧ t.pts = s.pts := by intros; refine ⟨_, rfl, ?_⟩; simp

@[simp] theorem eventRead_pts : ∀ k m s, (State.eventRead k m s).pts = s.pts := by intros; simp [State.eventRead]

theorem execEventRead_pts : ∀ k m s, ∃ t, execEventRead k m s = .next t ∧ t.pts = s.pts := by intros; refine ⟨_, rfl, ?_⟩; simp

theorem execEventAck_pts : ∀ k m s, ∃ t, execEventAck k m s = .next t ∧ t.pts = s.pts := by intros; refine ⟨_, rfl, ?_⟩; simp

@[simp] theorem profileRead_pts : ∀ k m n s, (State.profileRead k m n s).pts = s.pts := by intros; simp [State.profileRead]

theorem execProfileRead_pts : ∀ k m n s, ∃ t, execProfileRead k m n s = .next t ∧ t.pts = s.pts := by
  intros; refine ⟨_, rfl, ?_⟩; simp

theorem execProfileAck_pts : ∀ k m s, ∃ t, execProfileAck k m s = .next t ∧ t.pts = s.pts := by intros; refine ⟨_, rfl, ?_⟩; simp

theorem execWbRead_pts : ∀ k m n p s, ∃ t, execWbRead k m n p s = .next t ∧ t.pts = s.pts := by
  intros; refine ⟨_, rfl, ?_⟩; refine command_keeps (fun s => s.pts) _ _ (by simp) (by simp) ?_; intro s; (repeat' split) <;> simp

theorem execCapRead_pts : ∀ k m n p s, ∃ t, execCapRead k m n p s = .next t ∧ t.pts = s.pts := by
  intros; refine ⟨_, rfl, ?_⟩; refine command_keeps (fun s => s.pts) _ _ (by simp) (by simp) ?_; intro s; dsimp only; (repeat' split) <;> simp

theorem execCapTrigger_pts : ∀ k s, ∃ t, execCapTrigger k s = .next t ∧ t.pts = s.pts := by
  intros; refine ⟨_, rfl, ?_⟩; refine command_keeps (fun s => s.pts) _ _ (by simp) (by simp) ?_; intro s; dsimp only; (repeat' split) <;> simp

theorem execCapRelease_pts : ∀ k m s, ∃ t, execCapRelease k m s = .next t ∧ t.pts = s.pts := by
  intros; refine ⟨_, rfl, ?_⟩; refine command_keeps (fun s => s.pts) _ _ (by simp) (by simp) ?_; intro s; dsimp only; (repeat' split) <;> simp

@[simp] theorem logRead_pts : ∀ k m n s, (State.logRead k m n s).pts = s.pts := by intros; simp [State.logRead]

theorem execLogRead_pts : ∀ k m n s, ∃ t, execLogRead k m n s = .next t ∧ t.pts = s.pts := by intros; refine ⟨_, rfl, ?_⟩; simp

@[simp] theorem writeLog_pts : ∀ s, (State.writeLog s).pts = s.pts := by
  intros; unfold State.writeLog; dsimp only; (repeat' split) <;> simp

@[simp] theorem fillLog_pts : ∀ k s, (State.fillLog k s).pts = s.pts := by
  intro k s
  induction k generalizing s with
  | zero => rfl
  | succ k ih => unfold State.fillLog; split <;> simp [*]

@[simp] theorem logEcc_pts : ∀ k s, (State.logEcc k s).pts = s.pts := by intros; simp [State.logEcc]

theorem execEventLogWrite_pts : ∀ k s, ∃ t, execEventLogWrite k s = .next t ∧ t.pts = s.pts := by
  intros; refine ⟨_, rfl, ?_⟩; (repeat' split) <;> simp

@[simp] theorem fwCommand_pts : ∀ k m s p, (∀ x, (p x).pts = x.pts) → (State.fwCommand k m s p).pts = s.pts := by
  intros; unfold State.fwCommand; (repeat' split) <;> simp [*]

@[simp] theorem fwState_pts : ∀ k s, (State.fwState k s).pts = s.pts := by intros; simp [State.fwState]

theorem execFwBegin_pts : ∀ k m s, ∃ t, execFwBegin k m s = .next t ∧ t.pts = s.pts := by intros; refine ⟨_, rfl, ?_⟩; simp

theorem execFwWrite_pts : ∀ k m n s, ∃ t, execFwWrite k m n s = .next t ∧ t.pts = s.pts := by intros; refine ⟨_, rfl, ?_⟩; simp

theorem execFwVerify_pts : ∀ k s, ∃ t, execFwVerify k s = .next t ∧ t.pts = s.pts := by intros; refine ⟨_, rfl, ?_⟩; simp

@[simp] theorem restartCores_pts : ∀ s, (State.restartCores s).pts = s.pts := by intros; simp [State.restartCores]

@[simp] theorem noteRecovery_pts : ∀ s, (State.noteRecovery s).pts = s.pts := by intros; simp [State.noteRecovery]

@[simp] theorem revert_pts : ∀ k s, (State.revert k s).pts = s.pts := by intros; simp [State.revert]

@[simp] theorem revertOrHold_pts : ∀ k s, (State.revertOrHold k s).pts = s.pts := by intros; simp [State.revertOrHold]

@[simp] theorem bootSlot_pts : ∀ s, (State.bootSlot s).pts = s.pts := by intros; simp [State.bootSlot]

@[simp] theorem spoilSlot_pts : ∀ k s, (State.spoilSlot k s).pts = s.pts := by intros; simp [State.spoilSlot]

@[simp] theorem loadCores_pts : ∀ k m s, (State.loadCores k m s).pts = s.pts := by intros; simp [State.loadCores]

@[simp] theorem restartAnvil_pts : ∀ k s, (State.restartAnvil k s).pts = s.pts := by intros; simp [State.restartAnvil]

@[simp] theorem selfCheck_pts : ∀ s, (State.selfCheck s).pts = s.pts := by intros; simp [State.selfCheck]

@[simp] theorem switchSlot_pts : ∀ k s, (State.switchSlot k s).pts = s.pts := by intros; simp [State.switchSlot]

theorem execFwActivate_pts : ∀ k s, ∃ t, execFwActivate k s = .next t ∧ t.pts = s.pts := by intros; refine ⟨_, rfl, ?_⟩; simp

@[simp] theorem commitTrial_pts : ∀ s, (State.commitTrial s).pts = s.pts := by intros; simp [State.commitTrial]

theorem execFwTrialEnd_pts : ∀ s, ∃ t, execFwTrialEnd s = .next t ∧ t.pts = s.pts := by intros; refine ⟨_, rfl, ?_⟩; simp

@[simp] theorem heldWrites_pts : ∀ s, (State.heldWrites s).pts = s.pts := by intros; unfold State.heldWrites; split <;> simp

@[simp] theorem sramError_pts : ∀ k s, (State.sramError k s).pts = s.pts := by intros; unfold State.sramError; split <;> simp

theorem execSramScrub_pts : ∀ k s, ∃ t, execSramScrub k s = .next t ∧ t.pts = s.pts := by intros; refine ⟨_, rfl, ?_⟩; simp

@[simp] theorem changeRef_pts : ∀ k s, (State.changeRef k s).pts = s.pts := by intros; simp [State.changeRef]

@[simp] theorem xtalFail_pts : ∀ s, (State.xtalFail s).pts = s.pts := by intros; simp [State.xtalFail]

theorem execXtalFail_pts : ∀ s, ∃ t, execXtalFail s = .next t ∧ t.pts = s.pts := by intros; refine ⟨_, rfl, ?_⟩; simp

theorem execXtalRate_pts : ∀ k s, ∃ t, execXtalRate k s = .next t ∧ t.pts = s.pts := by intros; refine ⟨_, rfl, ?_⟩; simp

@[simp] theorem xtalReturn_pts : ∀ s, (State.xtalReturn s).pts = s.pts := by intros; simp [State.xtalReturn]

theorem execXtalReturn_pts : ∀ s, ∃ t, execXtalReturn s = .next t ∧ t.pts = s.pts := by intros; refine ⟨_, rfl, ?_⟩; simp

theorem execCrystalAccepted_pts : ∀ s, ∃ t, execCrystalAccepted s = .next t ∧ t.pts = s.pts := by
  intros; refine ⟨_, rfl, ?_⟩; simp

theorem execXtalStartTimeout_pts : ∀ s, ∃ t, execXtalStartTimeout s = .next t ∧ t.pts = s.pts := by
  intros; refine ⟨_, rfl, ?_⟩; simp

@[simp] theorem addCause_pts : ∀ k s, (State.addCause k s).pts = s.pts := by intros; simp [State.addCause]

@[simp] theorem shed_pts : ∀ s, (State.shed s).pts = s.pts := by intros; simp [State.shed]

@[simp] theorem warn_pts : ∀ k m s, (State.warn k m s).pts = s.pts := by intros; simp [State.warn]

@[simp] theorem warnAgain_pts : ∀ k m s, (State.warnAgain k m s).pts = s.pts := by intros; simp [State.warnAgain]

theorem execPowerFail_pts : ∀ k m s, ∃ t, execPowerFail k m s = .next t ∧ t.pts = s.pts := by intros; refine ⟨_, rfl, ?_⟩; simp

@[simp] theorem writeEntry_pts : ∀ k s, (State.writeEntry k s).pts = s.pts := by intros; simp [State.writeEntry]

@[simp] theorem presentEntry_pts : ∀ s, (State.presentEntry s).pts = s.pts := by intros; simp [State.presentEntry]

@[simp] theorem journalEntry_pts : ∀ s, (State.journalEntry s).pts = s.pts := by
  intros; unfold State.journalEntry; (repeat' split) <;> simp

theorem execJournalEntry_pts : ∀ s, ∃ t, execJournalEntry s = .next t ∧ t.pts = s.pts := by intros; refine ⟨_, rfl, ?_⟩; simp

@[simp] theorem tailUpdate_pts : ∀ s, (State.tailUpdate s).pts = s.pts := by intros; unfold State.tailUpdate; split <;> simp

theorem execTailUpdate_pts : ∀ s, ∃ t, execTailUpdate s = .next t ∧ t.pts = s.pts := by intros; refine ⟨_, rfl, ?_⟩; simp

theorem execJournalErase_pts : ∀ k s, ∃ t, execJournalErase k s = .next t ∧ t.pts = s.pts := by intros; refine ⟨_, rfl, ?_⟩; simp

theorem execPfSustained_pts : ∀ s, ∃ t, execPfSustained s = .next t ∧ t.pts = s.pts := by intros; refine ⟨_, rfl, ?_⟩; simp

@[simp] theorem pfRecovered_pts : ∀ s, (State.pfRecovered s).pts = s.pts := by intros; simp [State.pfRecovered]

theorem execPfRecovered_pts : ∀ s, ∃ t, execPfRecovered s = .next t ∧ t.pts = s.pts := by intros; refine ⟨_, rfl, ?_⟩; simp

@[simp] theorem coldTrims_pts : ∀ k s, (State.coldTrims k s).pts = s.pts := by intros; simp [State.coldTrims]

@[simp] theorem begin_pts : ∀ k m s, (State.begin_ k m s).pts = s.pts := by intros; simp [State.begin_]

@[simp] theorem resetEntry_pts : ∀ s, (State.resetEntry s).pts = s.pts := by intros; simp [State.resetEntry]

theorem execResetnRelease_pts : ∀ k m s, ∃ t, execResetnRelease k m s = .next t ∧ t.pts = s.pts := by
  intros; refine ⟨_, rfl, ?_⟩; simp

@[simp] theorem flushAll_pts : ∀ s, (State.flushAll s).pts = s.pts := by intros; simp [State.flushAll]

@[simp] theorem loseWaiting_pts : ∀ s, (State.loseWaiting s).pts = s.pts := by intros; simp [State.loseWaiting]

@[simp] theorem warmReset_pts : ∀ s, (State.warmReset s).pts = s.pts := by intros; simp [State.warmReset]

@[simp] theorem restartStartup_pts : ∀ s, (State.restartStartup s).pts = s.pts := by intros; simp [State.restartStartup]

theorem execResetnWarm_pts : ∀ k m s, ∃ t, execResetnWarm k m s = .next t ∧ t.pts = s.pts := by intros; refine ⟨_, rfl, ?_⟩; simp

@[simp] theorem anvWdog_pts : ∀ k m s, (State.anvWdog k m s).pts = s.pts := by intros; simp [State.anvWdog]

theorem execAnvWdog_pts : ∀ k m s, ∃ t, execAnvWdog k m s = .next t ∧ t.pts = s.pts := by intros; refine ⟨_, rfl, ?_⟩; simp

theorem execSpiPortReset_pts : ∀ k s, ∃ t, execSpiPortReset k s = .next t ∧ t.pts = s.pts := by
  intros; refine ⟨_, rfl, ?_⟩; split <;> simp

theorem execBrk_pts : ∀ k s, ∃ t, execBrk k s = .next t ∧ t.pts = s.pts := by intros; refine ⟨_, rfl, ?_⟩; simp

theorem execVaonChangeover_pts : ∀ k s, ∃ t, execVaonChangeover k s = .next t ∧ t.pts = s.pts := by
  intros; refine ⟨_, rfl, ?_⟩; simp

theorem execSupplyLossBoth_pts : ∀ s, ∃ t, execSupplyLossBoth s = .next t ∧ t.pts = s.pts := by intros; refine ⟨_, rfl, ?_⟩; simp

@[simp] theorem resume_pts : ∀ k s, (State.resume k s).pts = s.pts := by intros; simp [State.resume]

@[simp] theorem fallBack_pts : ∀ k s, (State.fallBack k s).pts = s.pts := by intros; simp [State.fallBack]

@[simp] theorem enterHeld_pts : ∀ s, (State.enterHeld s).pts = s.pts := by intros; simp [State.enterHeld]

@[simp] theorem testSpare_pts : ∀ k m s, (State.testSpare k m s).pts = s.pts := by intros; simp [State.testSpare]

@[simp] theorem testChan_pts : ∀ k m s, (State.testChan k m s).pts = s.pts := by intros; simp [State.testChan]

@[simp] theorem testEngines_pts : ∀ k m s, (State.testEngines k m s).pts = s.pts := by
  intros; unfold State.testEngines; dsimp only; (repeat' split) <;> simp

theorem execStartUpTest_pts : ∀ k m n s, ∃ t, execStartUpTest k m n s = .next t ∧ t.pts = s.pts := by
  intros; refine ⟨_, rfl, ?_⟩; simp

theorem execPortsReady_pts : ∀ s, ∃ t, execPortsReady s = .next t ∧ t.pts = s.pts := by intros; refine ⟨_, rfl, ?_⟩; simp

@[simp] theorem checkImage_pts : ∀ k m s, (State.checkImage k m s).pts = s.pts := by
  intros; unfold State.checkImage; split <;> simp

@[simp] theorem applyImage_pts : ∀ k m s, (State.applyImage k m s).pts = s.pts := by intros; simp [State.applyImage]

@[simp] theorem configured_pts : ∀ k s, (State.configured k s).pts = s.pts := by intros; simp [State.configured]

@[simp] theorem configRestore_pts : ∀ k m s, (State.configRestore k m s).pts = s.pts := by
  intros; unfold State.configRestore; dsimp only; (repeat' split) <;> simp

theorem execConfigRestore_pts : ∀ k m s, ∃ t, execConfigRestore k m s = .next t ∧ t.pts = s.pts := by
  intros; refine ⟨_, rfl, ?_⟩; simp

theorem execCfgRestoreFail_pts : ∀ s, ∃ t, execCfgRestoreFail s = .next t ∧ t.pts = s.pts := by intros; refine ⟨_, rfl, ?_⟩; simp

theorem execStartupReady_pts : ∀ s, ∃ t, execStartupReady s = .next t ∧ t.pts = s.pts := by intros; refine ⟨_, rfl, ?_⟩; simp

@[simp] theorem raiseUnmetered_pts : ∀ s, (State.raiseUnmetered s).pts = s.pts := by intros; simp [State.raiseUnmetered]

@[simp] theorem cellAlarm_pts : ∀ k s, (State.cellAlarm k s).pts = s.pts := by intros; simp [State.cellAlarm]

end Sys2Proof.Laws
end

