-- ==== Sys2Proof/Laws/KeepsSettings.lean ====
section
/-!
SUPPORT. What the operations and the rows that do not touch `cfg` leave: that.
-/
namespace Sys2Proof.Laws

open Sys2Proof.Machine

@[simp] theorem ite_cfg (c : Prop) [Decidable c] (a b : State) : (if c then a else b).cfg = if c then a.cfg else b.cfg := by
  split <;> rfl

@[simp] theorem chain_cfg {α : Type} (l : List α) (f : α → State → State) (s : State) (h : ∀ a s, (f a s).cfg = s.cfg) :
    (chain l f s).cfg = s.cfg := chain_keeps (fun s => s.cfg) l f h s

@[simp] theorem fresh_cfg : ∀ s, (State.fresh s).2.cfg = s.cfg := by intros; simp [State.fresh]

@[simp] theorem settingTook_cfg : ∀ s, (State.settingTook s).cfg = s.cfg := by intros; simp [State.settingTook]

@[simp] theorem phaseEnds_cfg : ∀ k s, (State.phaseEnds k s).cfg = s.cfg := by intros; simp [State.phaseEnds]

@[simp] theorem reshade_cfg : ∀ k s, (State.reshade k s).cfg = s.cfg := by intros; simp [State.reshade]

@[simp] theorem connectSpare_cfg : ∀ k m s, (State.connectSpare k m s).cfg = s.cfg := by intros; simp [State.connectSpare]

@[simp] theorem advanceSpare_cfg : ∀ k s, (State.advanceSpare k s).cfg = s.cfg := by
  intros; unfold State.advanceSpare; split <;> simp

@[simp] theorem startCheck_cfg : ∀ k m s, (State.startCheck k m s).cfg = s.cfg := by intros; simp [State.startCheck]

@[simp] theorem nextCheck_cfg : ∀ k s, (State.nextCheck k s).cfg = s.cfg := by
  intros; unfold State.nextCheck; (repeat' split) <;> simp

@[simp] theorem endCheck_cfg : ∀ k s, (State.endCheck k s).cfg = s.cfg := by intros; unfold State.endCheck; split <;> simp

@[simp] theorem abortCheck_cfg : ∀ k s, (State.abortCheck k s).cfg = s.cfg := by intros; unfold State.abortCheck; split <;> simp

@[simp] theorem queueCheck_cfg : ∀ k m s, (State.queueCheck k m s).cfg = s.cfg := by intros; simp [State.queueCheck]

@[simp] theorem failChan_cfg : ∀ k m s, (State.failChan k m s).cfg = s.cfg := by intros; simp [State.failChan]

@[simp] theorem substituted_cfg : ∀ k m n p s, (State.substituted k m n p s).cfg = s.cfg := by intros; simp [State.substituted]

@[simp] theorem takeSpare_cfg : ∀ k s, (State.takeSpare k s).cfg = s.cfg := by
  intros; unfold State.takeSpare; dsimp only; (repeat' split) <;> simp

@[simp] theorem forceSpare_cfg : ∀ k s, (State.forceSpare k s).cfg = s.cfg := by intros; simp [State.forceSpare]

@[simp] theorem startRestore_cfg : ∀ k s, (State.startRestore k s).cfg = s.cfg := by intros; simp [State.startRestore]

@[simp] theorem check_cfg : ∀ k s, (State.check k s).cfg = s.cfg := by
  intros; unfold State.check; dsimp only; (repeat' split) <;> simp

@[simp] theorem restoreFailed_cfg : ∀ k s, (State.restoreFailed k s).cfg = s.cfg := by intros; simp [State.restoreFailed]

@[simp] theorem workingFault_cfg : ∀ k m s, (State.workingFault k m s).cfg = s.cfg := by intros; simp [State.workingFault]

@[simp] theorem spareDown_cfg : ∀ k s, (State.spareDown k s).cfg = s.cfg := by intros; unfold State.spareDown; split <;> simp

@[simp] theorem spareFault_cfg : ∀ k s, (State.spareFault k s).cfg = s.cfg := by intros; unfold State.spareFault; split <;> simp

@[simp] theorem modFault_cfg : ∀ k m s, (State.modFault k m s).cfg = s.cfg := by intros; unfold State.modFault; split <;> simp

theorem execModulatorHardFault_cfg : ∀ k m s, ∃ t, execModulatorHardFault k m s = .next t ∧ t.cfg = s.cfg := by
  intros; refine ⟨_, rfl, ?_⟩; simp

@[simp] theorem splice_cfg : ∀ k s, (State.splice k s).cfg = s.cfg := by intros; simp [State.splice]

theorem execChSubstituted_cfg : ∀ k s, ∃ t, execChSubstituted k s = .next t ∧ t.cfg = s.cfg := by
  intros; refine ⟨_, rfl, ?_⟩; simp

@[simp] theorem lateSplice_cfg : ∀ k s, (State.lateSplice k s).cfg = s.cfg := by intros; simp [State.lateSplice]

theorem execIsolatedParityError_cfg : ∀ k s, ∃ t, execIsolatedParityError k s = .next t ∧ t.cfg = s.cfg := by
  intros
  refine ⟨_, rfl, ?_⟩
  dsimp only
  split
  · simp
  · split <;> simp

@[simp] theorem trimNote_cfg : ∀ k m n s, (State.trimNote k m n s).cfg = s.cfg := by intros; simp [State.trimNote]

@[simp] theorem setModTrim_cfg : ∀ k m s, (State.setModTrim k m s).cfg = s.cfg := by intros; simp [State.setModTrim]

@[simp] theorem askModTrim_cfg : ∀ k m s, (State.askModTrim k m s).cfg = s.cfg := by
  intros; unfold State.askModTrim; split <;> simp

@[simp] theorem trimBoundary_cfg : ∀ k s, (State.trimBoundary k s).cfg = s.cfg := by
  intros; unfold State.trimBoundary; split <;> simp

@[simp] theorem spareTrim_cfg : ∀ k s, (State.spareTrim k s).cfg = s.cfg := by intros; unfold State.spareTrim; split <;> simp

@[simp] theorem setVref_cfg : ∀ k s, (State.setVref k s).cfg = s.cfg := by intros; simp [State.setVref]

@[simp] theorem setOsc_cfg : ∀ k s, (State.setOsc k s).cfg = s.cfg := by intros; simp [State.setOsc]

@[simp] theorem askBkup_cfg : ∀ k s, (State.askBkup k s).cfg = s.cfg := by intros; simp [State.askBkup]

@[simp] theorem bkupDueNow_cfg : ∀ s, (State.bkupDueNow s).cfg = s.cfg := by intros; unfold State.bkupDueNow; split <;> simp

@[simp] theorem askPanelOsc_cfg : ∀ k s, (State.askPanelOsc k s).cfg = s.cfg := by intros; simp [State.askPanelOsc]

@[simp] theorem panelOscNow_cfg : ∀ s, (State.panelOscNow s).cfg = s.cfg := by intros; unfold State.panelOscNow; split <;> simp

@[simp] theorem dropModTrim_cfg : ∀ k s, (State.dropModTrim k s).cfg = s.cfg := by
  intros; unfold State.dropModTrim; split <;> simp

@[simp] theorem reloadTrims_cfg : ∀ s, (State.reloadTrims s).cfg = s.cfg := by intros; simp [State.reloadTrims]

@[simp] theorem chDrift_cfg : ∀ k m s, (State.chDrift k m s).cfg = s.cfg := by intros; simp [State.chDrift]

@[simp] theorem dwellChecked_cfg : ∀ k s, (State.dwellChecked k s).cfg = s.cfg := by intros; simp [State.dwellChecked]

@[simp] theorem spareMove_cfg : ∀ k m s, (State.spareMove k m s).cfg = s.cfg := by
  intros; unfold State.spareMove; dsimp only; (repeat' split) <;> simp

theorem execSpareMove_cfg : ∀ k m s, ∃ t, execSpareMove k m s = .next t ∧ t.cfg = s.cfg := by intros; refine ⟨_, rfl, ?_⟩; simp

theorem execDriftCheckPhase_cfg : ∀ k m s, ∃ t, execDriftCheckPhase k m s = .next t ∧ t.cfg = s.cfg := by
  intros; refine ⟨_, rfl, ?_⟩; (repeat' split) <;> simp

theorem execChDriftChecked_cfg : ∀ k s, ∃ t, execChDriftChecked k s = .next t ∧ t.cfg = s.cfg := by
  intros; refine ⟨_, rfl, ?_⟩; split <;> simp

@[simp] theorem restoreEnd_cfg : ∀ k m n s, (State.restoreEnd k m n s).cfg = s.cfg := by
  intros; unfold State.restoreEnd; dsimp only; (repeat' split) <;> simp

theorem execChRestored_cfg : ∀ k m n s, ∃ t, execChRestored k m n s = .next t ∧ t.cfg = s.cfg := by
  intros; refine ⟨_, rfl, ?_⟩; simp

theorem execSuppressionEnd_cfg : ∀ k s, ∃ t, execSuppressionEnd k s = .next t ∧ t.cfg = s.cfg := by
  intros; refine ⟨_, rfl, ?_⟩; simp

theorem execChClip_cfg : ∀ k s, ∃ t, execChClip k s = .next t ∧ t.cfg = s.cfg := by intros; refine ⟨_, rfl, ?_⟩; simp

@[simp] theorem channelBoundary_cfg : ∀ k s, (State.channelBoundary k s).cfg = s.cfg := by intros; simp [State.channelBoundary]

@[simp] theorem spareBoundary_cfg : ∀ k s, (State.spareBoundary k s).cfg = s.cfg := by
  intros; unfold State.spareBoundary; dsimp only; (repeat' split) <;> simp

@[simp] theorem acted_cfg : ∀ k m s p, (∀ x, (p x).1.cfg = x.cfg) → (State.acted k m s p).cfg = s.cfg := by
  intros; unfold State.acted; dsimp only; (repeat' split) <;> simp [*]

@[simp] theorem abandonActivation_cfg : ∀ s, (State.abandonActivation s).cfg = s.cfg := by intros; simp [State.abandonActivation]

@[simp] theorem command_cfg : ∀ k m s p, (∀ x, (p x).cfg = x.cfg) → (State.command k m s p).cfg = s.cfg := by
  intros; unfold State.command; dsimp only; (repeat' split) <;> simp [*]

@[simp] theorem softScope_cfg : ∀ k s, (State.softScope k s).cfg = s.cfg := by intros; unfold State.softScope; split <;> simp

@[simp] theorem settleN_cfg : ∀ k s, (State.settleN k s).cfg = s.cfg := by
  intro k s
  induction k generalizing s with
  | zero => rfl
  | succ k ih =>
    unfold State.settleN
    split
    · simp [*]
    · split <;> simp [*]

@[simp] theorem settleBaud_cfg : ∀ s, (State.settleBaud s).cfg = s.cfg := by
  intros; unfold State.settleBaud; dsimp only; (repeat' split) <;> simp

@[simp] theorem settle_cfg : ∀ s, (State.settle s).cfg = s.cfg := by intros; simp [State.settle]

@[simp] theorem transact_cfg : ∀ k m s, (State.transact k m s).cfg = s.cfg := by intros; simp [State.transact]

@[simp] theorem delivered_cfg : ∀ k m n s, (State.delivered k m n s).cfg = s.cfg := by intros; simp [State.delivered]

@[simp] theorem readPort_cfg : ∀ k m s, (State.readPort k m s).cfg = s.cfg := by
  intros; unfold State.readPort; dsimp only; (repeat' split) <;> simp

theorem execRead_cfg : ∀ k m s, ∃ t, execRead k m s = .next t ∧ t.cfg = s.cfg := by intros; refine ⟨_, rfl, ?_⟩; split <;> simp

theorem execStatus_cfg : ∀ k s, ∃ t, execStatus k s = .next t ∧ t.cfg = s.cfg := by intros; refine ⟨_, rfl, ?_⟩; split <;> simp

theorem execUartReplySent_cfg : ∀ s, ∃ t, execUartReplySent s = .next t ∧ t.cfg = s.cfg := by
  intros; refine ⟨_, rfl, ?_⟩; (repeat' split) <;> simp

theorem execPortTimeout_cfg : ∀ k s, ∃ t, execPortTimeout k s = .next t ∧ t.cfg = s.cfg := by
  intros; refine ⟨_, rfl, ?_⟩; split <;> simp

theorem execUartFrameStall_cfg : ∀ s, ∃ t, execUartFrameStall s = .next t ∧ t.cfg = s.cfg := by intros; refine ⟨_, rfl, ?_⟩; simp

@[simp] theorem replyDropped_cfg : ∀ k m s, (State.replyDropped k m s).cfg = s.cfg := by
  intros; unfold State.replyDropped; dsimp only; (repeat' split) <;> simp

theorem execReplyDropped_cfg : ∀ k m s, ∃ t, execReplyDropped k m s = .next t ∧ t.cfg = s.cfg := by
  intros; refine ⟨_, rfl, ?_⟩; simp

theorem execSessionIdleTimeout_cfg : ∀ k s, ∃ t, execSessionIdleTimeout k s = .next t ∧ t.cfg = s.cfg := by
  intros; refine ⟨_, rfl, ?_⟩; simp

theorem execNop_cfg : ∀ k m s, ∃ t, execNop k m s = .next t ∧ t.cfg = s.cfg := by intros; refine ⟨_, rfl, ?_⟩; simp

theorem execSessionClose_cfg : ∀ k s, ∃ t, execSessionClose k s = .next t ∧ t.cfg = s.cfg := by intros; refine ⟨_, rfl, ?_⟩; simp

theorem execSetPriority_cfg : ∀ k m s, ∃ t, execSetPriority k m s = .next t ∧ t.cfg = s.cfg := by
  intros; refine ⟨_, rfl, ?_⟩; simp

@[simp] theorem sessionOpen_cfg : ∀ k m s, (State.sessionOpen k m s).cfg = s.cfg := by
  intros; unfold State.sessionOpen; dsimp only; (repeat' split) <;> simp

theorem execSessionOpen_cfg : ∀ k m s, ∃ t, execSessionOpen k m s = .next t ∧ t.cfg = s.cfg := by
  intros; refine ⟨_, rfl, ?_⟩; simp

@[simp] theorem grdNotify_cfg : ∀ k s, (State.grdNotify k s).cfg = s.cfg := by intros; simp [State.grdNotify]

@[simp] theorem declareGroup_cfg : ∀ k m s, (State.declareGroup k m s).cfg = s.cfg := by intros; simp [State.declareGroup]

theorem execGrdSource_cfg : ∀ k m s, ∃ t, execGrdSource k m s = .next t ∧ t.cfg = s.cfg := by intros; refine ⟨_, rfl, ?_⟩; simp

theorem execCellScanPeriod_cfg : ∀ k m s, ∃ t, execCellScanPeriod k m s = .next t ∧ t.cfg = s.cfg := by
  intros; refine ⟨_, rfl, ?_⟩; simp

theorem execGrdClock_cfg : ∀ s, ∃ t, execGrdClock s = .next t ∧ t.cfg = s.cfg := by intros; refine ⟨_, rfl, ?_⟩; simp

@[simp] theorem cellReplay_cfg : ∀ s, (State.cellReplay s).cfg = s.cfg := by intros; simp [State.cellReplay]

@[simp] theorem arm_cfg : ∀ s, (State.arm s).cfg = s.cfg := by intros; simp [State.arm]

@[simp] theorem fdis_cfg : ∀ k s, (State.fdis k s).cfg = s.cfg := by intros; simp [State.fdis]

theorem execGrdClearArm_cfg : ∀ k m s, ∃ t, execGrdClearArm k m s = .next t ∧ t.cfg = s.cfg := by
  intros; refine ⟨_, rfl, ?_⟩; simp

@[simp] theorem clearGuards_cfg : ∀ k m s, (State.clearGuards k m s).cfg = s.cfg := by intros; simp [State.clearGuards]

theorem execGrdClearConfirm_cfg : ∀ k m n s, ∃ t, execGrdClearConfirm k m n s = .next t ∧ t.cfg = s.cfg := by
  intros; refine ⟨_, rfl, ?_⟩; refine command_keeps (fun s => s.cfg) _ _ (by simp) (by simp) ?_; intro s; dsimp only; (repeat' split) <;> simp

theorem execGrdChallengeExpiry_cfg : ∀ s, ∃ t, execGrdChallengeExpiry s = .next t ∧ t.cfg = s.cfg := by
  intros; refine ⟨_, rfl, ?_⟩; simp

theorem execGrdTest_cfg : ∀ k m n s, ∃ t, execGrdTest k m n s = .next t ∧ t.cfg = s.cfg := by
  intros; refine ⟨_, rfl, ?_⟩; split <;> simp

theorem execIdCertRead_cfg : ∀ k m n s, ∃ t, execIdCertRead k m n s = .next t ∧ t.cfg = s.cfg := by
  intros; refine ⟨_, rfl, ?_⟩; simp

@[simp] theorem outOfOrder_cfg : ∀ k m n p s, (State.outOfOrder k m n p s).cfg = s.cfg := by intros; simp [State.outOfOrder]

@[simp] theorem retire_cfg : ∀ k m n s, (State.retire k m n s).cfg = s.cfg := by
  intros; unfold State.retire; dsimp only; (repeat' split) <;> simp

@[simp] theorem disableTarget_cfg : ∀ k s, (State.disableTarget k s).cfg = s.cfg := by intros; simp [State.disableTarget]

theorem execIntTimeout_cfg : ∀ k s, ∃ t, execIntTimeout k s = .next t ∧ t.cfg = s.cfg := by
  intros; refine ⟨_, rfl, ?_⟩; split <;> simp

@[simp] theorem refCheck_cfg : ∀ s, (State.refCheck s).cfg = s.cfg := by intros; simp [State.refCheck]

@[simp] theorem tempCheck_cfg : ∀ s, (State.tempCheck s).cfg = s.cfg := by intros; simp [State.tempCheck]

@[simp] theorem vbatReading_cfg : ∀ s, (State.vbatReading s).cfg = s.cfg := by intros; simp [State.vbatReading]

@[simp] theorem hallReading_cfg : ∀ k s, (State.hallReading k s).cfg = s.cfg := by
  intros; unfold State.hallReading; dsimp only; (repeat' split) <;> simp

@[simp] theorem auxScan_cfg : ∀ k m s, (State.auxScan k m s).cfg = s.cfg := by intros; unfold State.auxScan; split <;> simp

theorem execAuxScan_cfg : ∀ k m s, ∃ t, execAuxScan k m s = .next t ∧ t.cfg = s.cfg := by intros; refine ⟨_, rfl, ?_⟩; simp

theorem execAuxRead_cfg : ∀ k m n s, ∃ t, execAuxRead k m n s = .next t ∧ t.cfg = s.cfg := by
  intros; refine ⟨_, rfl, ?_⟩; split <;> simp

@[simp] theorem tableLoad_cfg : ∀ k m n p q r s, (State.tableLoad k m n p q r s).cfg = s.cfg := by
  intros; unfold State.tableLoad; dsimp only; (repeat' split) <;> simp

theorem execPnlTableLoad_cfg : ∀ k m n p q r s, ∃ t, execPnlTableLoad k m n p q r s = .next t ∧ t.cfg = s.cfg := by
  intros; refine ⟨_, rfl, ?_⟩; simp

theorem execPnlImageWrite_cfg : ∀ k m n p s, ∃ t, execPnlImageWrite k m n p s = .next t ∧ t.cfg = s.cfg := by
  intros; refine ⟨_, rfl, ?_⟩; split <;> simp

@[simp] theorem steer_cfg : ∀ s, (State.steer s).cfg = s.cfg := by intros; simp [State.steer]

@[simp] theorem pnlDone_cfg : ∀ k m n s, (State.pnlDone k m n s).cfg = s.cfg := by intros; simp [State.pnlDone]

@[simp] theorem slotReq_cfg : ∀ k m s, (State.slotReq k m s).cfg = s.cfg := by intros; unfold State.slotReq; split <;> simp

@[simp] theorem placeReq_cfg : ∀ k m s, (State.placeReq k m s).cfg = s.cfg := by intros; unfold State.placeReq; split <;> simp

@[simp] theorem supersede_cfg : ∀ k m s, (State.supersede k m s).cfg = s.cfg := by intros; simp [State.supersede]

@[simp] theorem panelUpdate_cfg : ∀ k m n s, (State.panelUpdate k m n s).1.cfg = s.cfg := by
  intros; unfold State.panelUpdate; split <;> simp

@[simp] theorem pnlUpdate_cfg : ∀ k m n p s, (State.pnlUpdate k m n p s).cfg = s.cfg := by intros; simp [State.pnlUpdate]

theorem execPnlUpdate_cfg : ∀ k m n p s, ∃ t, execPnlUpdate k m n p s = .next t ∧ t.cfg = s.cfg := by
  intros; refine ⟨_, rfl, ?_⟩; simp

@[simp] theorem refreshDirty_cfg : ∀ s, (State.refreshDirty s).cfg = s.cfg := by intros; simp [State.refreshDirty]

@[simp] theorem startWaiting_cfg : ∀ s, (State.startWaiting s).cfg = s.cfg := by intros; simp [State.startWaiting]

@[simp] theorem endRun_cfg : ∀ k m n s, (State.endRun k m n s).cfg = s.cfg := by intros; simp [State.endRun]

@[simp] theorem startRun_cfg : ∀ k m s, (State.startRun k m s).cfg = s.cfg := by intros; unfold State.startRun; split <;> simp

@[simp] theorem pairEnd_cfg : ∀ k s, (State.pairEnd k s).cfg = s.cfg := by intros; unfold State.pairEnd; split <;> simp

@[simp] theorem pairStart_cfg : ∀ k s, (State.pairStart k s).cfg = s.cfg := by intros; unfold State.pairStart; split <;> simp

@[simp] theorem dropPending_cfg : ∀ k s, (State.dropPending k s).cfg = s.cfg := by
  intros; unfold State.dropPending; dsimp only; (repeat' split) <;> simp

@[simp] theorem pairBoundary_cfg : ∀ s, (State.pairBoundary s).cfg = s.cfg := by intros; simp [State.pairBoundary]

theorem execPanelPairBoundary_cfg : ∀ s, ∃ t, execPanelPairBoundary s = .next t ∧ t.cfg = s.cfg := by
  intros; refine ⟨_, rfl, ?_⟩; simp

theorem execPanelFrameBoundary_cfg : ∀ s, ∃ t, execPanelFrameBoundary s = .next t ∧ t.cfg = s.cfg := by
  intros; refine ⟨_, rfl, ?_⟩; simp

@[simp] theorem faultRegion_cfg : ∀ k s, (State.faultRegion k s).cfg = s.cfg := by
  intros; unfold State.faultRegion; dsimp only; (repeat' split) <;> simp

@[simp] theorem panelFault_cfg : ∀ s, (State.panelFault s).cfg = s.cfg := by intros; simp [State.panelFault]

theorem execPanelFault_cfg : ∀ k s, ∃ t, execPanelFault k s = .next t ∧ t.cfg = s.cfg := by intros; refine ⟨_, rfl, ?_⟩; simp

theorem execRailRead_cfg : ∀ k s, ∃ t, execRailRead k s = .next t ∧ t.cfg = s.cfg := by
  intros; refine ⟨_, rfl, ?_⟩; dsimp only; (repeat' split) <;> simp

theorem execRailStep_cfg : ∀ s, ∃ t, execRailStep s = .next t ∧ t.cfg = s.cfg := by intros; refine ⟨_, rfl, ?_⟩; simp

@[simp] theorem closeout_cfg : ∀ s, (State.closeout s).cfg = s.cfg := by intros; simp [State.closeout]

@[simp] theorem recover_cfg : ∀ k s, (State.recover k s).cfg = s.cfg := by intros; simp [State.recover]

@[simp] theorem stage_cfg : ∀ k m s, (State.stage k m s).cfg = s.cfg := by intros; simp [State.stage]

@[simp] theorem noteRejoined_cfg : ∀ k m s, (State.noteRejoined k m s).cfg = s.cfg := by intros; simp [State.noteRejoined]

@[simp] theorem rejoinComb_cfg : ∀ s, (State.rejoinComb s).cfg = s.cfg := by intros; unfold State.rejoinComb; split <;> simp

@[simp] theorem rejoinMet_cfg : ∀ s, (State.rejoinMet s).cfg = s.cfg := by intros; unfold State.rejoinMet; split <;> simp

@[simp] theorem rejoin_cfg : ∀ k m s, (State.rejoin k m s).cfg = s.cfg := by
  intros; unfold State.rejoin; dsimp only; (repeat' split) <;> simp

@[simp] theorem control_cfg : ∀ k m s, (State.control k m s).cfg = s.cfg := by intros; unfold State.control; split <;> simp

@[simp] theorem guardControl_cfg : ∀ k s, (State.guardControl k s).cfg = s.cfg := by intros; simp [State.guardControl]

@[simp] theorem askOsc_cfg : ∀ k s, (State.askOsc k s).cfg = s.cfg := by intros; simp [State.askOsc]

@[simp] theorem noteKey_cfg : ∀ k s, (State.noteKey k s).cfg = s.cfg := by intros; simp [State.noteKey]

@[simp] theorem slotCheck_cfg : ∀ k m s, (State.slotCheck k m s).cfg = s.cfg := by intros; simp [State.slotCheck]

@[simp] theorem latchSlots_cfg : ∀ k s, (State.latchSlots k s).cfg = s.cfg := by intros; simp [State.latchSlots]

@[simp] theorem deliverSlots_cfg : ∀ s, (State.deliverSlots s).cfg = s.cfg := by intros; simp [State.deliverSlots]

@[simp] theorem combCompare_cfg : ∀ k m n s, (State.combCompare k m n s).cfg = s.cfg := by intros; simp [State.combCompare]

@[simp] theorem frameLines_cfg : ∀ s, (State.frameLines s).cfg = s.cfg := by intros; simp [State.frameLines]

@[simp] theorem acquire_cfg : ∀ k s, (State.acquire k s).cfg = s.cfg := by intros; simp [State.acquire]

@[simp] theorem survey_cfg : ∀ s, (State.survey s).cfg = s.cfg := by intros; simp [State.survey]

@[simp] theorem relockFrame_cfg : ∀ s, (State.relockFrame s).cfg = s.cfg := by intros; simp [State.relockFrame]

@[simp] theorem handOffFrame_cfg : ∀ s, (State.handOffFrame s).cfg = s.cfg := by intros; simp [State.handOffFrame]

@[simp] theorem takePins_cfg : ∀ s, (State.takePins s).cfg = s.cfg := by intros; simp [State.takePins]

@[simp] theorem combFrame_cfg : ∀ k m n p s, (State.combFrame k m n p s).cfg = s.cfg := by intros; simp [State.combFrame]

theorem execCombFrame_cfg : ∀ k m n p s, ∃ t, execCombFrame k m n p s = .next t ∧ t.cfg = s.cfg := by
  intros; refine ⟨_, rfl, ?_⟩; simp

theorem execEngFenced_cfg : ∀ k s, ∃ t, execEngFenced k s = .next t ∧ t.cfg = s.cfg := by intros; refine ⟨_, rfl, ?_⟩; simp

@[simp] theorem book_cfg : ∀ k m n s, (State.book k m n s).cfg = s.cfg := by intros; simp [State.book]

@[simp] theorem closePoint_cfg : ∀ k s, (State.closePoint k s).cfg = s.cfg := by intros; unfold State.closePoint; split <;> simp

@[simp] theorem closeBalance_cfg : ∀ k s, (State.closeBalance k s).cfg = s.cfg := by
  intros; unfold State.closeBalance; split <;> simp

@[simp] theorem closeDc_cfg : ∀ k s, (State.closeDc k s).cfg = s.cfg := by intros; simp [State.closeDc]

@[simp] theorem startCapture_cfg : ∀ k m n s, (State.startCapture k m n s).cfg = s.cfg := by intros; simp [State.startCapture]

@[simp] theorem trigger_cfg : ∀ k m s, (State.trigger k m s).cfg = s.cfg := by
  intros; unfold State.trigger; dsimp only; (repeat' split) <;> simp

@[simp] theorem triggerBy_cfg : ∀ k m s, (State.triggerBy k m s).cfg = s.cfg := by intros; unfold State.triggerBy; split <;> simp

@[simp] theorem dueTrigger_cfg : ∀ k s, (State.dueTrigger k s).cfg = s.cfg := by intros; unfold State.dueTrigger; split <;> simp

@[simp] theorem enterDue_cfg : ∀ k s, (State.enterDue k s).cfg = s.cfg := by intros; unfold State.enterDue; split <;> simp

@[simp] theorem due_cfg : ∀ k m n p q r u s, (State.due k m n p q r u s).cfg = s.cfg := by intros; simp [State.due]

@[simp] theorem flushDue_cfg : ∀ s, (State.flushDue s).cfg = s.cfg := by intros; simp [State.flushDue]

theorem execCaptureFilled_cfg : ∀ k s, ∃ t, execCaptureFilled k s = .next t ∧ t.cfg = s.cfg := by
  intros; refine ⟨_, rfl, ?_⟩; simp

theorem execCaptureKeepExpiry_cfg : ∀ k s, ∃ t, execCaptureKeepExpiry k s = .next t ∧ t.cfg = s.cfg := by
  intros; refine ⟨_, rfl, ?_⟩; simp

@[simp] theorem completeEvent_cfg : ∀ k m n p q r u s, (State.completeEvent k m n p q r u s).cfg = s.cfg := by
  intros; simp [State.completeEvent]

@[simp] theorem autoFreeze_cfg : ∀ k s, (State.autoFreeze k s).cfg = s.cfg := by intros; simp [State.autoFreeze]

@[simp] theorem freezeCount_cfg : ∀ k m s, (State.freezeCount k m s).cfg = s.cfg := by intros; simp [State.freezeCount]

theorem execAutoFreezeEnd_cfg : ∀ k s, ∃ t, execAutoFreezeEnd k s = .next t ∧ t.cfg = s.cfg := by
  intros; refine ⟨_, rfl, ?_⟩; simp

@[simp] theorem rvcValue_cfg : ∀ k m n p s, (State.rvcValue k m n p s).cfg = s.cfg := by
  intros; unfold State.rvcValue; split <;> simp

@[simp] theorem startEvent_cfg : ∀ k m n p q s, (State.startEvent k m n p q s).cfg = s.cfg := by
  intros; unfold State.startEvent; split <;> simp

@[simp] theorem eventStep_cfg : ∀ k m n p s, (State.eventStep k m n p s).cfg = s.cfg := by
  intros; unfold State.eventStep; dsimp only; (repeat' split) <;> simp

@[simp] theorem flagBefore_cfg : ∀ k s, (State.flagBefore k s).cfg = s.cfg := by intros; simp [State.flagBefore]

@[simp] theorem halfCycle_cfg : ∀ k m s, (State.halfCycle k m s).cfg = s.cfg := by
  intros
  unfold State.halfCycle
  dsimp only
  simp only [onBus_cfg, flagBefore_cfg, ite_cfg]
  split
  · rw [chain_cfg _ _ _ (by intro x s; simp)]; simp
  · simp

@[simp] theorem powerFailEvents_cfg : ∀ s, (State.powerFailEvents s).cfg = s.cfg := by
  intros
  unfold State.powerFailEvents
  dsimp only
  simp only [flushDue_cfg]
  exact chain_cfg _ _ _ (by intro x s; exact chain_cfg _ _ _ (by intro x s; (repeat' split) <;> simp))

@[simp] theorem detected_cfg : ∀ k m n p q r s, (State.detected k m n p q r s).cfg = s.cfg := by intros; simp [State.detected]

@[simp] theorem neutralLost_cfg : ∀ k s, (State.neutralLost k s).cfg = s.cfg := by intros; simp [State.neutralLost]

@[simp] theorem neutralBypass_cfg : ∀ k s, (State.neutralBypass k s).cfg = s.cfg := by
  intros; unfold State.neutralBypass; split <;> simp

@[simp] theorem reverseFlow_cfg : ∀ k s, (State.reverseFlow k s).cfg = s.cfg := by intros; simp [State.reverseFlow]

@[simp] theorem cycleDetectors_cfg : ∀ s, (State.cycleDetectors s).cfg = s.cfg := by intros; simp [State.cycleDetectors]

@[simp] theorem wrongSequence_cfg : ∀ k s, (State.wrongSequence k s).cfg = s.cfg := by intros; simp [State.wrongSequence]

@[simp] theorem dcPresent_cfg : ∀ k s, (State.dcPresent k s).cfg = s.cfg := by intros; simp [State.dcPresent]

@[simp] theorem magnet_cfg : ∀ s, (State.magnet s).cfg = s.cfg := by intros; simp [State.magnet]

@[simp] theorem blockDetectors_cfg : ∀ s, (State.blockDetectors s).cfg = s.cfg := by intros; simp [State.blockDetectors]

@[simp] theorem startSet_cfg : ∀ s, (State.startSet s).cfg = s.cfg := by intros; simp [State.startSet]

@[simp] theorem publishSet_cfg : ∀ s, (State.publishSet s).cfg = s.cfg := by intros; simp [State.publishSet]

theorem execWbSetEnd_cfg : ∀ s, ∃ t, execWbSetEnd s = .next t ∧ t.cfg = s.cfg := by intros; refine ⟨_, rfl, ?_⟩; simp

@[simp] theorem refill_cfg : ∀ s, (State.refill s).cfg = s.cfg := by intros; unfold State.refill; split <;> simp

@[simp] theorem seal_cfg : ∀ k s, (State.seal k s).cfg = s.cfg := by intros; unfold State.seal; split <;> simp

@[simp] theorem cut_cfg : ∀ k m s, (State.cut k m s).cfg = s.cfg := by intros; simp [State.cut]

theorem execFolioSealed_cfg : ∀ k s, ∃ t, execFolioSealed k s = .next t ∧ t.cfg = s.cfg := by intros; refine ⟨_, rfl, ?_⟩; simp

@[simp] theorem writeRecord_cfg : ∀ k s, (State.writeRecord k s).cfg = s.cfg := by intros; simp [State.writeRecord]

@[simp] theorem writeCheckpoint_cfg : ∀ s, (State.writeCheckpoint s).cfg = s.cfg := by intros; simp [State.writeCheckpoint]

@[simp] theorem checkpoint_cfg : ∀ s, (State.checkpoint s).cfg = s.cfg := by intros; simp [State.checkpoint]

@[simp] theorem extraCheckpoint_cfg : ∀ s, (State.extraCheckpoint s).cfg = s.cfg := by intros; simp [State.extraCheckpoint]

@[simp] theorem reloadCell_cfg : ∀ k m s, (State.reloadCell k m s).cfg = s.cfg := by
  intros; unfold State.reloadCell; split <;> simp

@[simp] theorem lostInterval_cfg : ∀ s, (State.lostInterval s).cfg = s.cfg := by intros; simp [State.lostInterval]

@[simp] theorem accLost_cfg : ∀ k s, (State.accLost k s).cfg = s.cfg := by
  intros; unfold State.accLost; dsimp only; (repeat' split) <;> simp

@[simp] theorem fenceBank_cfg : ∀ k s, (State.fenceBank k s).cfg = s.cfg := by intros; simp [State.fenceBank]

@[simp] theorem rewrite_cfg : ∀ k m s, (State.rewrite k m s).cfg = s.cfg := by intros; simp [State.rewrite]

@[simp] theorem accError_cfg : ∀ k m s, (State.accError k m s).cfg = s.cfg := by intros; simp [State.accError]

@[simp] theorem accErrors_cfg : ∀ k s, (State.accErrors k s).cfg = s.cfg := by intros; simp [State.accErrors]

theorem execAccScrub_cfg : ∀ k s, ∃ t, execAccScrub k s = .next t ∧ t.cfg = s.cfg := by intros; refine ⟨_, rfl, ?_⟩; simp

@[simp] theorem closeChannel_cfg : ∀ k z n s, (State.closeChannel k z n s).cfg = s.cfg := by intros; simp [State.closeChannel]

@[simp] theorem closeBus_cfg : ∀ k z n s, (State.closeBus k z n s).cfg = s.cfg := by intros; simp [State.closeBus]

@[simp] theorem close150_cfg : ∀ k s, (State.close150 k s).cfg = s.cfg := by intros; simp [State.close150]

theorem execAggregateClose_cfg : ∀ s, ∃ t, execAggregateClose s = .next t ∧ t.cfg = s.cfg := by intros; refine ⟨_, rfl, ?_⟩; simp

@[simp] theorem applyNomf_cfg : ∀ s, (State.applyNomf s).cfg = s.cfg := by intros; simp [State.applyNomf]

@[simp] theorem asEnded_cfg : ∀ s, (State.asEnded s).cfg = s.cfg := by intros; simp [State.asEnded]

@[simp] theorem closeBlock_cfg : ∀ k s, (State.closeBlock k s).cfg = s.cfg := by intros; simp [State.closeBlock]

theorem execBlockClose_cfg : ∀ s, ∃ t, execBlockClose s = .next t ∧ t.cfg = s.cfg := by intros; refine ⟨_, rfl, ?_⟩; simp

@[simp] theorem countedAggs_cfg : ∀ s, (State.countedAggs s).cfg = s.cfg := by intros; simp [State.countedAggs]

@[simp] theorem tenMinuteTick_cfg : ∀ s, (State.tenMinuteTick s).cfg = s.cfg := by intros; simp [State.tenMinuteTick]

theorem execTenMinuteTick_cfg : ∀ s, ∃ t, execTenMinuteTick s = .next t ∧ t.cfg = s.cfg := by intros; refine ⟨_, rfl, ?_⟩; simp

@[simp] theorem frequencyClose_cfg : ∀ s, (State.frequencyClose s).cfg = s.cfg := by intros; simp [State.frequencyClose]

theorem execFrequencyIntervalClose_cfg : ∀ s, ∃ t, execFrequencyIntervalClose s = .next t ∧ t.cfg = s.cfg := by
  intros; refine ⟨_, rfl, ?_⟩; simp

@[simp] theorem changeUdin_cfg : ∀ k s, (State.changeUdin k s).cfg = s.cfg := by intros; simp [State.changeUdin]

@[simp] theorem udinNow_cfg : ∀ s, (State.udinNow s).cfg = s.cfg := by intros; simp [State.udinNow]

@[simp] theorem spoilFolio_cfg : ∀ k m n s, (State.spoilFolio k m n s).cfg = s.cfg := by intros; simp [State.spoilFolio]

@[simp] theorem spoilRead_cfg : ∀ k s, (State.spoilRead k s).cfg = s.cfg := by intros; unfold State.spoilRead; split <;> simp

@[simp] theorem noteUncorr_cfg : ∀ k s, (State.noteUncorr k s).cfg = s.cfg := by intros; simp [State.noteUncorr]

@[simp] theorem readError_cfg : ∀ k s, (State.readError k s).cfg = s.cfg := by intros; simp [State.readError]

@[simp] theorem onFolio_cfg : ∀ k m n s q, (∀ x, (q x).cfg = s.cfg) → (State.onFolio k m n s q).cfg = s.cfg := by
  intros; unfold State.onFolio; (repeat' split) <;> simp [*]

theorem execFolioRead_cfg : ∀ k m n p q s, ∃ t, execFolioRead k m n p q s = .next t ∧ t.cfg = s.cfg := by
  intros; refine ⟨_, rfl, ?_⟩; refine command_keeps (fun s => s.cfg) _ _ (by simp) (by simp) ?_; intro s; simp

@[simp] theorem grant_cfg : ∀ k m n s, (State.grant k m n s).1.cfg = s.cfg := by
  intros; unfold State.grant; dsimp only; (repeat' split) <;> simp

@[simp] theorem lease_cfg : ∀ k m n s, (State.lease k m n s).1.cfg = s.cfg := by
  intros; unfold State.lease; (repeat' split) <;> simp

theorem execFolioLease_cfg : ∀ k m n s, ∃ t, execFolioLease k m n s = .next t ∧ t.cfg = s.cfg := by
  intros; refine ⟨_, rfl, ?_⟩; simp

@[simp] theorem endLease_cfg : ∀ k m s, (State.endLease k m s).cfg = s.cfg := by intros; simp [State.endLease]

@[simp] theorem renew_cfg : ∀ k m n s, (State.renew k m n s).1.cfg = s.cfg := by intros; unfold State.renew; split <;> simp

theorem execFolioRenew_cfg : ∀ k m n s, ∃ t, execFolioRenew k m n s = .next t ∧ t.cfg = s.cfg := by
  intros; refine ⟨_, rfl, ?_⟩; simp

@[simp] theorem release_cfg : ∀ k m s, (State.release k m s).1.cfg = s.cfg := by intros; unfold State.release; split <;> simp

theorem execFolioRelease_cfg : ∀ k m s, ∃ t, execFolioRelease k m s = .next t ∧ t.cfg = s.cfg := by
  intros; refine ⟨_, rfl, ?_⟩; simp

theorem execLeaseExpiry_cfg : ∀ k m s, ∃ t, execLeaseExpiry k m s = .next t ∧ t.cfg = s.cfg := by
  intros; refine ⟨_, rfl, ?_⟩; simp

@[simp] theorem demandCut_cfg : ∀ s, (State.demandCut s).1.cfg = s.cfg := by intros; unfold State.demandCut; split <;> simp

theorem execFolioCut_cfg : ∀ k s, ∃ t, execFolioCut k s = .next t ∧ t.cfg = s.cfg := by intros; refine ⟨_, rfl, ?_⟩; simp

theorem execFolioSealGet_cfg : ∀ k m s, ∃ t, execFolioSealGet k m s = .next t ∧ t.cfg = s.cfg := by
  intros; refine ⟨_, rfl, ?_⟩; simp

theorem execParamRead_cfg : ∀ k m n s, ∃ t, execParamRead k m n s = .next t ∧ t.cfg = s.cfg := by
  intros; refine ⟨_, rfl, ?_⟩; simp

theorem execScRead_cfg : ∀ k m n p s, ∃ t, execScRead k m n p s = .next t ∧ t.cfg = s.cfg := by intros; refine ⟨_, rfl, ?_⟩; simp

theorem execBlotRead_cfg : ∀ k s, ∃ t, execBlotRead k s = .next t ∧ t.cfg = s.cfg := by intros; refine ⟨_, rfl, ?_⟩; simp

@[simp] theorem judgeAdmitted_cfg : ∀ k s, (State.judgeAdmitted k s).1.cfg = s.cfg := by
  intros; unfold State.judgeAdmitted; dsimp only; (repeat' split) <;> simp

@[simp] theorem admitFrame_cfg : ∀ k m n p s, (State.admitFrame k m n p s).cfg = s.cfg := by
  intros; unfold State.admitFrame; dsimp only; (repeat' split) <;> simp

@[simp] theorem judgeOpcode_cfg : ∀ k m n p s, (State.judgeOpcode k m n p s).cfg = s.cfg := by
  intros; unfold State.judgeOpcode; (repeat' split) <;> simp

@[simp] theorem authFailure_cfg : ∀ k m n s, (State.authFailure k m n s).cfg = s.cfg := by intros; simp [State.authFailure]

@[simp] theorem judgeSequence_cfg : ∀ k m n p s, (State.judgeSequence k m n p s).cfg = s.cfg := by
  intros; simp [State.judgeSequence]

@[simp] theorem judgeSession_cfg : ∀ k m n p s, (State.judgeSession k m n p s).cfg = s.cfg := by
  intros; unfold State.judgeSession; (repeat' split) <;> simp

@[simp] theorem judgeFrame_cfg : ∀ k m s, (State.judgeFrame k m s).cfg = s.cfg := by
  intros; unfold State.judgeFrame; dsimp only; (repeat' split) <;> simp

@[simp] theorem frameReceive_cfg : ∀ k m s, (State.frameReceive k m s).cfg = s.cfg := by
  intros; unfold State.frameReceive; (repeat' split) <;> simp

theorem execFrameReceive_cfg : ∀ k m n s, ∃ t, execFrameReceive k m n s = .next t ∧ t.cfg = s.cfg := by
  intros; refine ⟨_, rfl, ?_⟩; simp

@[simp] theorem alarmEvent_cfg : ∀ k m s, (State.alarmEvent k m s).cfg = s.cfg := by intros; simp [State.alarmEvent]

@[simp] theorem alarmFire_cfg : ∀ k m n p s, (State.alarmFire k m n p s).cfg = s.cfg := by intros; simp [State.alarmFire]

@[simp] theorem alarmForward_cfg : ∀ k m n p s, (State.alarmForward k m n p s).cfg = s.cfg := by
  intros; unfold State.alarmForward; dsimp only; (repeat' split) <;> simp

@[simp] theorem alarmsAtStep_cfg : ∀ k m n s, (State.alarmsAtStep k m n s).cfg = s.cfg := by intros; simp [State.alarmsAtStep]

@[simp] theorem badSet_cfg : ∀ s, (State.badSet s).cfg = s.cfg := by intros; simp [State.badSet]

@[simp] theorem calStep_cfg : ∀ k m s, (State.calStep k m s).cfg = s.cfg := by intros; simp [State.calStep]

@[simp] theorem calFirstSet_cfg : ∀ k m s, (State.calFirstSet k m s).cfg = s.cfg := by intros; simp [State.calFirstSet]

@[simp] theorem cldSet_cfg : ∀ k m s, (State.cldSet k m s).cfg = s.cfg := by intros; simp [State.cldSet]

theorem execCldSet_cfg : ∀ k m s, ∃ t, execCldSet k m s = .next t ∧ t.cfg = s.cfg := by intros; refine ⟨_, rfl, ?_⟩; simp

@[simp] theorem cldAdjusted_cfg : ∀ k m n s, (State.cldAdjusted k m n s).cfg = s.cfg := by intros; simp [State.cldAdjusted]

@[simp] theorem adjustStep_cfg : ∀ k m n s, (State.adjustStep k m n s).cfg = s.cfg := by intros; simp [State.adjustStep]

theorem execCldAdjustStep_cfg : ∀ k m n s, ∃ t, execCldAdjustStep k m n s = .next t ∧ t.cfg = s.cfg := by
  intros; refine ⟨_, rfl, ?_⟩; simp

@[simp] theorem adjustSlew_cfg : ∀ k m n s, (State.adjustSlew k m n s).cfg = s.cfg := by intros; simp [State.adjustSlew]

theorem execCldAdjustSlew_cfg : ∀ k m n s, ∃ t, execCldAdjustSlew k m n s = .next t ∧ t.cfg = s.cfg := by
  intros; refine ⟨_, rfl, ?_⟩; simp

theorem execCldAlarmAck_cfg : ∀ k m s, ∃ t, execCldAlarmAck k m s = .next t ∧ t.cfg = s.cfg := by
  intros; refine ⟨_, rfl, ?_⟩; simp

@[simp] theorem secondBoundary_cfg : ∀ s, (State.secondBoundary s).cfg = s.cfg := by intros; simp [State.secondBoundary]

theorem execCalSecondBoundary_cfg : ∀ s, ∃ t, execCalSecondBoundary s = .next t ∧ t.cfg = s.cfg := by
  intros; refine ⟨_, rfl, ?_⟩; simp

theorem execCalStopped_cfg : ∀ s, ∃ t, execCalStopped s = .next t ∧ t.cfg = s.cfg := by intros; refine ⟨_, rfl, ?_⟩; simp

theorem execSlewEnd_cfg : ∀ s, ∃ t, execSlewEnd s = .next t ∧ t.cfg = s.cfg := by intros; refine ⟨_, rfl, ?_⟩; simp

@[simp] theorem demandClose_cfg : ∀ k s, (State.demandClose k s).cfg = s.cfg := by intros; simp [State.demandClose]

theorem execDemandClose_cfg : ∀ k s, ∃ t, execDemandClose k s = .next t ∧ t.cfg = s.cfg := by intros; refine ⟨_, rfl, ?_⟩; simp

@[simp] theorem applyProfEn_cfg : ∀ s, (State.applyProfEn s).cfg = s.cfg := by intros; simp [State.applyProfEn]

@[simp] theorem openProfile_cfg : ∀ k s, (State.openProfile k s).cfg = s.cfg := by intros; simp [State.openProfile]

@[simp] theorem countLost_cfg : ∀ k s, (State.countLost k s).cfg = s.cfg := by intros; unfold State.countLost; split <;> simp

@[simp] theorem loseRecords_cfg : ∀ k s, (State.loseRecords k s).cfg = s.cfg := by
  intros; unfold State.loseRecords; split <;> simp

@[simp] theorem writeGroup_cfg : ∀ k s, (State.writeGroup k s).cfg = s.cfg := by intros; simp [State.writeGroup]

@[simp] theorem profileClose_cfg : ∀ k s, (State.profileClose k s).cfg = s.cfg := by intros; simp [State.profileClose]

theorem execProfileClose_cfg : ∀ s, ∃ t, execProfileClose s = .next t ∧ t.cfg = s.cfg := by intros; refine ⟨_, rfl, ?_⟩; simp

@[simp] theorem residual_cfg : ∀ k m n p q s, (State.residual k m n p q s).cfg = s.cfg := by intros; simp [State.residual]

@[simp] theorem balanceClose_cfg : ∀ k m s, (State.balanceClose k m s).cfg = s.cfg := by intros; simp [State.balanceClose]

theorem execBalanceClose_cfg : ∀ k s, ∃ t, execBalanceClose k s = .next t ∧ t.cfg = s.cfg := by intros; refine ⟨_, rfl, ?_⟩; simp

@[simp] theorem switchRef_cfg : ∀ k m s, (State.switchRef k m s).cfg = s.cfg := by intros; simp [State.switchRef]

@[simp] theorem enterFreerun_cfg : ∀ s, (State.enterFreerun s).cfg = s.cfg := by intros; simp [State.enterFreerun]

@[simp] theorem enterHoldover_cfg : ∀ k s, (State.enterHoldover k s).cfg = s.cfg := by intros; simp [State.enterHoldover]

@[simp] theorem chooseRef_cfg : ∀ k m n s, (State.chooseRef k m n s).cfg = s.cfg := by
  intros; unfold State.chooseRef; dsimp only; (repeat' split) <;> simp

@[simp] theorem judgeLock_cfg : ∀ s, (State.judgeLock s).cfg = s.cfg := by
  intros; unfold State.judgeLock; dsimp only; (repeat' split) <;> simp

@[simp] theorem closeTimebase_cfg : ∀ s, (State.closeTimebase s).cfg = s.cfg := by intros; simp [State.closeTimebase]

@[simp] theorem absorbDelay_cfg : ∀ k m s, (State.absorbDelay k m s).cfg = s.cfg := by
  intros; unfold State.absorbDelay; split <;> simp

theorem execFreerunEntry_cfg : ∀ s, ∃ t, execFreerunEntry s = .next t ∧ t.cfg = s.cfg := by
  intros; refine ⟨_, rfl, ?_⟩; split <;> simp

theorem execLsyncEdge_cfg : ∀ k m s, ∃ t, execLsyncEdge k m s = .next t ∧ t.cfg = s.cfg := by intros; refine ⟨_, rfl, ?_⟩; simp

theorem execLsyncTimeout_cfg : ∀ s, ∃ t, execLsyncTimeout s = .next t ∧ t.cfg = s.cfg := by intros; refine ⟨_, rfl, ?_⟩; simp

@[simp] theorem convert_cfg : ∀ k m s, (State.convert k m s).cfg = s.cfg := by intros; simp [State.convert]

@[simp] theorem reconcile_cfg : ∀ k s, (State.reconcile k s).cfg = s.cfg := by intros; simp [State.reconcile]

@[simp] theorem firstCommit_cfg : ∀ k s, (State.firstCommit k s).cfg = s.cfg := by intros; simp [State.firstCommit]

@[simp] theorem commitSet_cfg : ∀ k s, (State.commitSet k s).cfg = s.cfg := by intros; simp [State.commitSet]

@[simp] theorem commitBoundary_cfg : ∀ s, (State.commitBoundary s).cfg = s.cfg := by
  intros; unfold State.commitBoundary; split <;> simp

@[simp] theorem reloadCal_cfg : ∀ s, (State.reloadCal s).cfg = s.cfg := by intros; simp [State.reloadCal]

@[simp] theorem calParity_cfg : ∀ k s, (State.calParity k s).cfg = s.cfg := by intros; simp [State.calParity]

@[simp] theorem resolvePoint_cfg : ∀ k m s, (State.resolvePoint k m s).cfg = s.cfg := by intros; simp [State.resolvePoint]

@[simp] theorem resolveOne_cfg : ∀ k s, (State.resolveOne k s).cfg = s.cfg := by intros; simp [State.resolveOne]

@[simp] theorem resolveBoundary_cfg : ∀ s, (State.resolveBoundary s).cfg = s.cfg := by intros; simp [State.resolveBoundary]

@[simp] theorem resetDemand_cfg : ∀ k s, (State.resetDemand k s).cfg = s.cfg := by intros; simp [State.resetDemand]

@[simp] theorem resetReply_cfg : ∀ k s, (State.resetReply k s).cfg = s.cfg := by intros; simp [State.resetReply]

@[simp] theorem resetBoundary_cfg : ∀ s, (State.resetBoundary s).cfg = s.cfg := by intros; simp [State.resetBoundary]

@[simp] theorem dropOldWindows_cfg : ∀ s, (State.dropOldWindows s).cfg = s.cfg := by intros; simp [State.dropOldWindows]

theorem execDemandReset_cfg : ∀ k m s, ∃ t, execDemandReset k m s = .next t ∧ t.cfg = s.cfg := by
  intros; refine ⟨_, rfl, ?_⟩; simp

theorem execCalCommit_cfg : ∀ k m s, ∃ t, execCalCommit k m s = .next t ∧ t.cfg = s.cfg := by intros; refine ⟨_, rfl, ?_⟩; simp

theorem execCalPendingRead_cfg : ∀ k m n s, ∃ t, execCalPendingRead k m n s = .next t ∧ t.cfg = s.cfg := by
  intros; refine ⟨_, rfl, ?_⟩; split <;> simp

theorem execCalPendingResolve_cfg : ∀ k m n s, ∃ t, execCalPendingResolve k m n s = .next t ∧ t.cfg = s.cfg := by
  intros; refine ⟨_, rfl, ?_⟩; simp

@[simp] theorem pulseSample_cfg : ∀ k m s, (State.pulseSample k m s).cfg = s.cfg := by intros; simp [State.pulseSample]

@[simp] theorem pulseClose_cfg : ∀ k s, (State.pulseClose k s).cfg = s.cfg := by intros; simp [State.pulseClose]

@[simp] theorem rebase_cfg : ∀ k s, (State.rebase k s).cfg = s.cfg := by intros; simp [State.rebase]

theorem execPulseLeadingEdge_cfg : ∀ k s, ∃ t, execPulseLeadingEdge k s = .next t ∧ t.cfg = s.cfg := by
  intros; refine ⟨_, rfl, ?_⟩; split <;> simp

theorem execPulseTrailingEdge_cfg : ∀ k s, ∃ t, execPulseTrailingEdge k s = .next t ∧ t.cfg = s.cfg := by
  intros; refine ⟨_, rfl, ?_⟩; simp

@[simp] theorem halfEnd_cfg : ∀ k s, (State.halfEnd k s).cfg = s.cfg := by intros; simp [State.halfEnd]

@[simp] theorem keepBatch_cfg : ∀ k m s, (State.keepBatch k m s).cfg = s.cfg := by intros; simp [State.keepBatch]

@[simp] theorem takeBatch_cfg : ∀ k s, (State.takeBatch k s).cfg = s.cfg := by intros; simp [State.takeBatch]

@[simp] theorem sampleBatch_cfg : ∀ k m s, (State.sampleBatch k m s).cfg = s.cfg := by intros; simp [State.sampleBatch]

theorem execSampleBatch_cfg : ∀ k m s, ∃ t, execSampleBatch k m s = .next t ∧ t.cfg = s.cfg := by
  intros; refine ⟨_, rfl, ?_⟩; simp

@[simp] theorem replayBatch_cfg : ∀ k s, (State.replayBatch k s).cfg = s.cfg := by intros; simp [State.replayBatch]

@[simp] theorem replayFrom_cfg : ∀ k s, (State.replayFrom k s).cfg = s.cfg := by intros; unfold State.replayFrom; split <;> simp

@[simp] theorem metrologyReplay_cfg : ∀ k m n s, (State.metrologyReplay k m n s).cfg = s.cfg := by
  intros; simp [State.metrologyReplay]

theorem execMetrologyReplay_cfg : ∀ k m n s, ∃ t, execMetrologyReplay k m n s = .next t ∧ t.cfg = s.cfg := by
  intros; refine ⟨_, rfl, ?_⟩; simp

@[simp] theorem noteCommit_cfg : ∀ s, (State.noteCommit s).cfg = s.cfg := by intros; simp [State.noteCommit]

@[simp] theorem markSteps_cfg : ∀ s, (State.markSteps s).cfg = s.cfg := by intros; simp [State.markSteps]

@[simp] theorem channelsToBlock_cfg : ∀ s, (State.channelsToBlock s).cfg = s.cfg := by intros; simp [State.channelsToBlock]

@[simp] theorem closeQuantities_cfg : ∀ k s, (State.closeQuantities k s).cfg = s.cfg := by intros; simp [State.closeQuantities]

@[simp] theorem boundaryImage_cfg : ∀ k s, (State.boundaryImage k s).cfg = s.cfg := by intros; simp [State.boundaryImage]

@[simp] theorem turnCycle_cfg : ∀ s, (State.turnCycle s).cfg = s.cfg := by intros; simp [State.turnCycle]

@[simp] theorem enforce_cfg : ∀ k s, (State.enforce k s).cfg = s.cfg := by intros; simp [State.enforce]

@[simp] theorem changeDemand_cfg : ∀ k s, (State.changeDemand k s).cfg = s.cfg := by intros; simp [State.changeDemand]

@[simp] theorem closeChanged_cfg : ∀ k s, (State.closeChanged k s).cfg = s.cfg := by
  intros
  unfold State.closeChanged
  exact chain_cfg _ _ _ (by intro x s; dsimp only; split <;> simp)

@[simp] theorem afterSettings_cfg : ∀ k m n s, (State.afterSettings k m n s).cfg = s.cfg := by
  intros
  unfold State.afterSettings
  dsimp only
  rw [chain_cfg _ _ _ (by intro x s; simp), chain_cfg _ _ _ (by intro x s; split <;> simp)]

@[simp] theorem applySettings_cfg : ∀ s, (State.applySettings s).cfg = s.cfg := by intros; simp [State.applySettings]

@[simp] theorem trimsBoundary_cfg : ∀ s, (State.trimsBoundary s).cfg = s.cfg := by
  intros; unfold State.trimsBoundary; dsimp only; split <;> simp

@[simp] theorem saveBoundary_cfg : ∀ s, (State.saveBoundary s).cfg = s.cfg := by intros; unfold State.saveBoundary; split <;> simp

@[simp] theorem bankBoundary_cfg : ∀ s, (State.bankBoundary s).cfg = s.cfg := by intros; simp [State.bankBoundary]

@[simp] theorem boundaryEffects_cfg : ∀ s, (State.boundaryEffects s).cfg = s.cfg := by intros; simp [State.boundaryEffects]

@[simp] theorem closeSteps_cfg : ∀ k s, (State.closeSteps k s).cfg = s.cfg := by intros; simp [State.closeSteps]

@[simp] theorem cutAsked_cfg : ∀ s, (State.cutAsked s).cfg = s.cfg := by intros; simp [State.cutAsked]

@[simp] theorem closureRecord_cfg : ∀ s, (State.closureRecord s).cfg = s.cfg := by intros; simp [State.closureRecord]

@[simp] theorem openNext_cfg : ∀ s, (State.openNext s).cfg = s.cfg := by intros; simp [State.openNext]

@[simp] theorem cycleClose_cfg : ∀ k s, (State.cycleClose k s).cfg = s.cfg := by intros; simp [State.cycleClose]

theorem execCycleClose_cfg : ∀ k s, ∃ t, execCycleClose k s = .next t ∧ t.cfg = s.cfg := by intros; refine ⟨_, rfl, ?_⟩; simp

theorem execBlotClear_cfg : ∀ k m s, ∃ t, execBlotClear k m s = .next t ∧ t.cfg = s.cfg := by intros; refine ⟨_, rfl, ?_⟩; simp

theorem execBankEnter_cfg : ∀ k s, ∃ t, execBankEnter k s = .next t ∧ t.cfg = s.cfg := by
  intros; refine ⟨_, rfl, ?_⟩; refine command_keeps (fun s => s.cfg) _ _ (by simp) (by simp) ?_; intro s; dsimp only; (repeat' split) <;> simp

theorem execBankExit_cfg : ∀ k s, ∃ t, execBankExit k s = .next t ∧ t.cfg = s.cfg := by intros; refine ⟨_, rfl, ?_⟩; simp

theorem execSoftReset_cfg : ∀ k m s, ∃ t, execSoftReset k m s = .next t ∧ t.cfg = s.cfg := by intros; refine ⟨_, rfl, ?_⟩; simp

theorem execCfgSave_cfg : ∀ k s, ∃ t, execCfgSave k s = .next t ∧ t.cfg = s.cfg := by intros; refine ⟨_, rfl, ?_⟩; simp

theorem execInkLock_cfg : ∀ k m s, ∃ t, execInkLock k m s = .next t ∧ t.cfg = s.cfg := by intros; refine ⟨_, rfl, ?_⟩; simp

@[simp] theorem endLock_cfg : ∀ s, (State.endLock s).cfg = s.cfg := by intros; unfold State.endLock; split <;> simp

theorem execInkUnlock_cfg : ∀ k s, ∃ t, execInkUnlock k s = .next t ∧ t.cfg = s.cfg := by intros; refine ⟨_, rfl, ?_⟩; simp

theorem execInkLockExpiry_cfg : ∀ s, ∃ t, execInkLockExpiry s = .next t ∧ t.cfg = s.cfg := by intros; refine ⟨_, rfl, ?_⟩; simp

@[simp] theorem eventRead_cfg : ∀ k m s, (State.eventRead k m s).cfg = s.cfg := by intros; simp [State.eventRead]

theorem execEventRead_cfg : ∀ k m s, ∃ t, execEventRead k m s = .next t ∧ t.cfg = s.cfg := by intros; refine ⟨_, rfl, ?_⟩; simp

theorem execEventAck_cfg : ∀ k m s, ∃ t, execEventAck k m s = .next t ∧ t.cfg = s.cfg := by intros; refine ⟨_, rfl, ?_⟩; simp

@[simp] theorem profileRead_cfg : ∀ k m n s, (State.profileRead k m n s).cfg = s.cfg := by intros; simp [State.profileRead]

theorem execProfileRead_cfg : ∀ k m n s, ∃ t, execProfileRead k m n s = .next t ∧ t.cfg = s.cfg := by
  intros; refine ⟨_, rfl, ?_⟩; simp

theorem execProfileAck_cfg : ∀ k m s, ∃ t, execProfileAck k m s = .next t ∧ t.cfg = s.cfg := by intros; refine ⟨_, rfl, ?_⟩; simp

theorem execWbRead_cfg : ∀ k m n p s, ∃ t, execWbRead k m n p s = .next t ∧ t.cfg = s.cfg := by
  intros; refine ⟨_, rfl, ?_⟩; refine command_keeps (fun s => s.cfg) _ _ (by simp) (by simp) ?_; intro s; (repeat' split) <;> simp

theorem execCapRead_cfg : ∀ k m n p s, ∃ t, execCapRead k m n p s = .next t ∧ t.cfg = s.cfg := by
  intros; refine ⟨_, rfl, ?_⟩; refine command_keeps (fun s => s.cfg) _ _ (by simp) (by simp) ?_; intro s; dsimp only; (repeat' split) <;> simp

theorem execCapTrigger_cfg : ∀ k s, ∃ t, execCapTrigger k s = .next t ∧ t.cfg = s.cfg := by
  intros; refine ⟨_, rfl, ?_⟩; refine command_keeps (fun s => s.cfg) _ _ (by simp) (by simp) ?_; intro s; dsimp only; (repeat' split) <;> simp

theorem execCapRelease_cfg : ∀ k m s, ∃ t, execCapRelease k m s = .next t ∧ t.cfg = s.cfg := by
  intros; refine ⟨_, rfl, ?_⟩; refine command_keeps (fun s => s.cfg) _ _ (by simp) (by simp) ?_; intro s; dsimp only; (repeat' split) <;> simp

@[simp] theorem logRead_cfg : ∀ k m n s, (State.logRead k m n s).cfg = s.cfg := by intros; simp [State.logRead]

theorem execLogRead_cfg : ∀ k m n s, ∃ t, execLogRead k m n s = .next t ∧ t.cfg = s.cfg := by intros; refine ⟨_, rfl, ?_⟩; simp

@[simp] theorem writeLog_cfg : ∀ s, (State.writeLog s).cfg = s.cfg := by
  intros; unfold State.writeLog; dsimp only; (repeat' split) <;> simp

@[simp] theorem fillLog_cfg : ∀ k s, (State.fillLog k s).cfg = s.cfg := by
  intro k s
  induction k generalizing s with
  | zero => rfl
  | succ k ih => unfold State.fillLog; split <;> simp [*]

@[simp] theorem logEcc_cfg : ∀ k s, (State.logEcc k s).cfg = s.cfg := by intros; simp [State.logEcc]

theorem execEventLogWrite_cfg : ∀ k s, ∃ t, execEventLogWrite k s = .next t ∧ t.cfg = s.cfg := by
  intros; refine ⟨_, rfl, ?_⟩; (repeat' split) <;> simp

@[simp] theorem fwCommand_cfg : ∀ k m s p, (∀ x, (p x).cfg = x.cfg) → (State.fwCommand k m s p).cfg = s.cfg := by
  intros; unfold State.fwCommand; (repeat' split) <;> simp [*]

@[simp] theorem fwState_cfg : ∀ k s, (State.fwState k s).cfg = s.cfg := by intros; simp [State.fwState]

theorem execFwBegin_cfg : ∀ k m s, ∃ t, execFwBegin k m s = .next t ∧ t.cfg = s.cfg := by intros; refine ⟨_, rfl, ?_⟩; simp

theorem execFwWrite_cfg : ∀ k m n s, ∃ t, execFwWrite k m n s = .next t ∧ t.cfg = s.cfg := by intros; refine ⟨_, rfl, ?_⟩; simp

theorem execFwVerify_cfg : ∀ k s, ∃ t, execFwVerify k s = .next t ∧ t.cfg = s.cfg := by intros; refine ⟨_, rfl, ?_⟩; simp

@[simp] theorem restartCores_cfg : ∀ s, (State.restartCores s).cfg = s.cfg := by intros; simp [State.restartCores]

@[simp] theorem noteRecovery_cfg : ∀ s, (State.noteRecovery s).cfg = s.cfg := by intros; simp [State.noteRecovery]

@[simp] theorem revert_cfg : ∀ k s, (State.revert k s).cfg = s.cfg := by intros; simp [State.revert]

@[simp] theorem revertOrHold_cfg : ∀ k s, (State.revertOrHold k s).cfg = s.cfg := by intros; simp [State.revertOrHold]

@[simp] theorem bootSlot_cfg : ∀ s, (State.bootSlot s).cfg = s.cfg := by intros; simp [State.bootSlot]

@[simp] theorem spoilSlot_cfg : ∀ k s, (State.spoilSlot k s).cfg = s.cfg := by intros; simp [State.spoilSlot]

@[simp] theorem loadCores_cfg : ∀ k m s, (State.loadCores k m s).cfg = s.cfg := by intros; simp [State.loadCores]

@[simp] theorem restartAnvil_cfg : ∀ k s, (State.restartAnvil k s).cfg = s.cfg := by intros; simp [State.restartAnvil]

@[simp] theorem selfCheck_cfg : ∀ s, (State.selfCheck s).cfg = s.cfg := by intros; simp [State.selfCheck]

@[simp] theorem switchSlot_cfg : ∀ k s, (State.switchSlot k s).cfg = s.cfg := by intros; simp [State.switchSlot]

theorem execFwActivate_cfg : ∀ k s, ∃ t, execFwActivate k s = .next t ∧ t.cfg = s.cfg := by intros; refine ⟨_, rfl, ?_⟩; simp

@[simp] theorem commitTrial_cfg : ∀ s, (State.commitTrial s).cfg = s.cfg := by intros; simp [State.commitTrial]

theorem execFwTrialEnd_cfg : ∀ s, ∃ t, execFwTrialEnd s = .next t ∧ t.cfg = s.cfg := by intros; refine ⟨_, rfl, ?_⟩; simp

@[simp] theorem heldWrites_cfg : ∀ s, (State.heldWrites s).cfg = s.cfg := by intros; unfold State.heldWrites; split <;> simp

@[simp] theorem sramError_cfg : ∀ k s, (State.sramError k s).cfg = s.cfg := by intros; unfold State.sramError; split <;> simp

theorem execSramScrub_cfg : ∀ k s, ∃ t, execSramScrub k s = .next t ∧ t.cfg = s.cfg := by intros; refine ⟨_, rfl, ?_⟩; simp

@[simp] theorem changeRef_cfg : ∀ k s, (State.changeRef k s).cfg = s.cfg := by intros; simp [State.changeRef]

@[simp] theorem xtalFail_cfg : ∀ s, (State.xtalFail s).cfg = s.cfg := by intros; simp [State.xtalFail]

theorem execXtalFail_cfg : ∀ s, ∃ t, execXtalFail s = .next t ∧ t.cfg = s.cfg := by intros; refine ⟨_, rfl, ?_⟩; simp

theorem execXtalRate_cfg : ∀ k s, ∃ t, execXtalRate k s = .next t ∧ t.cfg = s.cfg := by intros; refine ⟨_, rfl, ?_⟩; simp

@[simp] theorem xtalReturn_cfg : ∀ s, (State.xtalReturn s).cfg = s.cfg := by intros; simp [State.xtalReturn]

theorem execXtalReturn_cfg : ∀ s, ∃ t, execXtalReturn s = .next t ∧ t.cfg = s.cfg := by intros; refine ⟨_, rfl, ?_⟩; simp

theorem execCrystalAccepted_cfg : ∀ s, ∃ t, execCrystalAccepted s = .next t ∧ t.cfg = s.cfg := by
  intros; refine ⟨_, rfl, ?_⟩; simp

theorem execXtalStartTimeout_cfg : ∀ s, ∃ t, execXtalStartTimeout s = .next t ∧ t.cfg = s.cfg := by
  intros; refine ⟨_, rfl, ?_⟩; simp

@[simp] theorem addCause_cfg : ∀ k s, (State.addCause k s).cfg = s.cfg := by intros; simp [State.addCause]

@[simp] theorem shed_cfg : ∀ s, (State.shed s).cfg = s.cfg := by intros; simp [State.shed]

@[simp] theorem warn_cfg : ∀ k m s, (State.warn k m s).cfg = s.cfg := by intros; simp [State.warn]

@[simp] theorem warnAgain_cfg : ∀ k m s, (State.warnAgain k m s).cfg = s.cfg := by intros; simp [State.warnAgain]

theorem execPowerFail_cfg : ∀ k m s, ∃ t, execPowerFail k m s = .next t ∧ t.cfg = s.cfg := by intros; refine ⟨_, rfl, ?_⟩; simp

@[simp] theorem writeEntry_cfg : ∀ k s, (State.writeEntry k s).cfg = s.cfg := by intros; simp [State.writeEntry]

@[simp] theorem presentEntry_cfg : ∀ s, (State.presentEntry s).cfg = s.cfg := by intros; simp [State.presentEntry]

@[simp] theorem journalEntry_cfg : ∀ s, (State.journalEntry s).cfg = s.cfg := by
  intros; unfold State.journalEntry; (repeat' split) <;> simp

theorem execJournalEntry_cfg : ∀ s, ∃ t, execJournalEntry s = .next t ∧ t.cfg = s.cfg := by intros; refine ⟨_, rfl, ?_⟩; simp

@[simp] theorem tailUpdate_cfg : ∀ s, (State.tailUpdate s).cfg = s.cfg := by intros; unfold State.tailUpdate; split <;> simp

theorem execTailUpdate_cfg : ∀ s, ∃ t, execTailUpdate s = .next t ∧ t.cfg = s.cfg := by intros; refine ⟨_, rfl, ?_⟩; simp

theorem execJournalErase_cfg : ∀ k s, ∃ t, execJournalErase k s = .next t ∧ t.cfg = s.cfg := by intros; refine ⟨_, rfl, ?_⟩; simp

theorem execPfSustained_cfg : ∀ s, ∃ t, execPfSustained s = .next t ∧ t.cfg = s.cfg := by intros; refine ⟨_, rfl, ?_⟩; simp

@[simp] theorem pfRecovered_cfg : ∀ s, (State.pfRecovered s).cfg = s.cfg := by intros; simp [State.pfRecovered]

theorem execPfRecovered_cfg : ∀ s, ∃ t, execPfRecovered s = .next t ∧ t.cfg = s.cfg := by intros; refine ⟨_, rfl, ?_⟩; simp

@[simp] theorem coldTrims_cfg : ∀ k s, (State.coldTrims k s).cfg = s.cfg := by intros; simp [State.coldTrims]

@[simp] theorem begin_cfg : ∀ k m s, (State.begin_ k m s).cfg = s.cfg := by intros; simp [State.begin_]

@[simp] theorem resetEntry_cfg : ∀ s, (State.resetEntry s).cfg = s.cfg := by intros; simp [State.resetEntry]

theorem execResetnRelease_cfg : ∀ k m s, ∃ t, execResetnRelease k m s = .next t ∧ t.cfg = s.cfg := by
  intros; refine ⟨_, rfl, ?_⟩; simp

@[simp] theorem flushAll_cfg : ∀ s, (State.flushAll s).cfg = s.cfg := by intros; simp [State.flushAll]

@[simp] theorem loseWaiting_cfg : ∀ s, (State.loseWaiting s).cfg = s.cfg := by intros; simp [State.loseWaiting]

@[simp] theorem warmReset_cfg : ∀ s, (State.warmReset s).cfg = s.cfg := by intros; simp [State.warmReset]

@[simp] theorem restartStartup_cfg : ∀ s, (State.restartStartup s).cfg = s.cfg := by intros; simp [State.restartStartup]

theorem execResetnWarm_cfg : ∀ k m s, ∃ t, execResetnWarm k m s = .next t ∧ t.cfg = s.cfg := by intros; refine ⟨_, rfl, ?_⟩; simp

@[simp] theorem anvWdog_cfg : ∀ k m s, (State.anvWdog k m s).cfg = s.cfg := by intros; simp [State.anvWdog]

theorem execAnvWdog_cfg : ∀ k m s, ∃ t, execAnvWdog k m s = .next t ∧ t.cfg = s.cfg := by intros; refine ⟨_, rfl, ?_⟩; simp

theorem execSpiPortReset_cfg : ∀ k s, ∃ t, execSpiPortReset k s = .next t ∧ t.cfg = s.cfg := by
  intros; refine ⟨_, rfl, ?_⟩; split <;> simp

theorem execVaonChangeover_cfg : ∀ k s, ∃ t, execVaonChangeover k s = .next t ∧ t.cfg = s.cfg := by
  intros; refine ⟨_, rfl, ?_⟩; simp

theorem execSupplyLossBoth_cfg : ∀ s, ∃ t, execSupplyLossBoth s = .next t ∧ t.cfg = s.cfg := by intros; refine ⟨_, rfl, ?_⟩; simp

@[simp] theorem resume_cfg : ∀ k s, (State.resume k s).cfg = s.cfg := by intros; simp [State.resume]

@[simp] theorem fallBack_cfg : ∀ k s, (State.fallBack k s).cfg = s.cfg := by intros; simp [State.fallBack]

@[simp] theorem enterHeld_cfg : ∀ s, (State.enterHeld s).cfg = s.cfg := by intros; simp [State.enterHeld]

@[simp] theorem testSpare_cfg : ∀ k m s, (State.testSpare k m s).cfg = s.cfg := by intros; simp [State.testSpare]

@[simp] theorem testChan_cfg : ∀ k m s, (State.testChan k m s).cfg = s.cfg := by intros; simp [State.testChan]

@[simp] theorem testEngines_cfg : ∀ k m s, (State.testEngines k m s).cfg = s.cfg := by
  intros; unfold State.testEngines; dsimp only; (repeat' split) <;> simp

theorem execStartUpTest_cfg : ∀ k m n s, ∃ t, execStartUpTest k m n s = .next t ∧ t.cfg = s.cfg := by
  intros; refine ⟨_, rfl, ?_⟩; simp

theorem execPortsReady_cfg : ∀ s, ∃ t, execPortsReady s = .next t ∧ t.cfg = s.cfg := by intros; refine ⟨_, rfl, ?_⟩; simp

@[simp] theorem checkImage_cfg : ∀ k m s, (State.checkImage k m s).cfg = s.cfg := by
  intros; unfold State.checkImage; split <;> simp

@[simp] theorem configured_cfg : ∀ k s, (State.configured k s).cfg = s.cfg := by intros; simp [State.configured]

theorem execStartupReady_cfg : ∀ s, ∃ t, execStartupReady s = .next t ∧ t.cfg = s.cfg := by intros; refine ⟨_, rfl, ?_⟩; simp

@[simp] theorem firstCommands_cfg : ∀ s, (State.firstCommands s).cfg = s.cfg := by intros; simp [State.firstCommands]

@[simp] theorem firstSettings_cfg : ∀ s, (State.firstSettings s).cfg = s.cfg := by intros; simp [State.firstSettings]

@[simp] theorem openAll_cfg : ∀ s, (State.openAll s).cfg = s.cfg := by intros; simp [State.openAll]

@[simp] theorem raiseUnmetered_cfg : ∀ s, (State.raiseUnmetered s).cfg = s.cfg := by intros; simp [State.raiseUnmetered]

@[simp] theorem cellAlarm_cfg : ∀ k s, (State.cellAlarm k s).cfg = s.cfg := by intros; simp [State.cellAlarm]

@[simp] theorem startMetering_cfg : ∀ k m s, (State.startMetering k m s).cfg = s.cfg := by intros; simp [State.startMetering]

theorem execFirstMeteredCycle_cfg : ∀ s, ∃ t, execFirstMeteredCycle s = .next t ∧ t.cfg = s.cfg := by
  intros; refine ⟨_, rfl, ?_⟩; dsimp only; (repeat' split) <;> simp

theorem execStartupFreerunFallback_cfg : ∀ s, ∃ t, execStartupFreerunFallback s = .next t ∧ t.cfg = s.cfg := by
  intros; refine ⟨_, rfl, ?_⟩; simp

end Sys2Proof.Laws
end

