-- ==== Sys2Proof/Laws/KeepsTimebase.lean ====
section
/-!
SUPPORT. What the operations and the rows that do not touch `tb` leave: that.
-/
namespace Sys2Proof.Laws

open Sys2Proof.Machine

@[simp] theorem ite_tb (c : Prop) [Decidable c] (a b : State) : (if c then a else b).tb = if c then a.tb else b.tb := by
  split <;> rfl

@[simp] theorem chain_tb {α : Type} (l : List α) (f : α → State → State) (s : State) (h : ∀ a s, (f a s).tb = s.tb) :
    (chain l f s).tb = s.tb := chain_keeps (fun s => s.tb) l f h s

@[simp] theorem fresh_tb : ∀ s, (State.fresh s).2.tb = s.tb := by intros; simp [State.fresh]

@[simp] theorem settingTook_tb : ∀ s, (State.settingTook s).tb = s.tb := by intros; simp [State.settingTook]

@[simp] theorem phaseEnds_tb : ∀ k s, (State.phaseEnds k s).tb = s.tb := by intros; simp [State.phaseEnds]

@[simp] theorem reshade_tb : ∀ k s, (State.reshade k s).tb = s.tb := by intros; simp [State.reshade]

@[simp] theorem connectSpare_tb : ∀ k m s, (State.connectSpare k m s).tb = s.tb := by intros; simp [State.connectSpare]

@[simp] theorem advanceSpare_tb : ∀ k s, (State.advanceSpare k s).tb = s.tb := by
  intros; unfold State.advanceSpare; split <;> simp

@[simp] theorem startCheck_tb : ∀ k m s, (State.startCheck k m s).tb = s.tb := by intros; simp [State.startCheck]

@[simp] theorem nextCheck_tb : ∀ k s, (State.nextCheck k s).tb = s.tb := by
  intros; unfold State.nextCheck; (repeat' split) <;> simp

@[simp] theorem endCheck_tb : ∀ k s, (State.endCheck k s).tb = s.tb := by intros; unfold State.endCheck; split <;> simp

@[simp] theorem abortCheck_tb : ∀ k s, (State.abortCheck k s).tb = s.tb := by intros; unfold State.abortCheck; split <;> simp

@[simp] theorem queueCheck_tb : ∀ k m s, (State.queueCheck k m s).tb = s.tb := by intros; simp [State.queueCheck]

@[simp] theorem failChan_tb : ∀ k m s, (State.failChan k m s).tb = s.tb := by intros; simp [State.failChan]

@[simp] theorem substituted_tb : ∀ k m n p s, (State.substituted k m n p s).tb = s.tb := by intros; simp [State.substituted]

@[simp] theorem takeSpare_tb : ∀ k s, (State.takeSpare k s).tb = s.tb := by
  intros; unfold State.takeSpare; dsimp only; (repeat' split) <;> simp

@[simp] theorem forceSpare_tb : ∀ k s, (State.forceSpare k s).tb = s.tb := by intros; simp [State.forceSpare]

@[simp] theorem startRestore_tb : ∀ k s, (State.startRestore k s).tb = s.tb := by intros; simp [State.startRestore]

@[simp] theorem check_tb : ∀ k s, (State.check k s).tb = s.tb := by
  intros; unfold State.check; dsimp only; (repeat' split) <;> simp

@[simp] theorem restoreFailed_tb : ∀ k s, (State.restoreFailed k s).tb = s.tb := by intros; simp [State.restoreFailed]

@[simp] theorem workingFault_tb : ∀ k m s, (State.workingFault k m s).tb = s.tb := by intros; simp [State.workingFault]

@[simp] theorem spareDown_tb : ∀ k s, (State.spareDown k s).tb = s.tb := by intros; unfold State.spareDown; split <;> simp

@[simp] theorem spareFault_tb : ∀ k s, (State.spareFault k s).tb = s.tb := by intros; unfold State.spareFault; split <;> simp

@[simp] theorem modFault_tb : ∀ k m s, (State.modFault k m s).tb = s.tb := by intros; unfold State.modFault; split <;> simp

theorem execModulatorHardFault_tb : ∀ k m s, ∃ t, execModulatorHardFault k m s = .next t ∧ t.tb = s.tb := by
  intros; refine ⟨_, rfl, ?_⟩; simp

@[simp] theorem splice_tb : ∀ k s, (State.splice k s).tb = s.tb := by intros; simp [State.splice]

theorem execChSubstituted_tb : ∀ k s, ∃ t, execChSubstituted k s = .next t ∧ t.tb = s.tb := by intros; refine ⟨_, rfl, ?_⟩; simp

@[simp] theorem lateSplice_tb : ∀ k s, (State.lateSplice k s).tb = s.tb := by intros; simp [State.lateSplice]

theorem execIsolatedParityError_tb : ∀ k s, ∃ t, execIsolatedParityError k s = .next t ∧ t.tb = s.tb := by
  intros
  refine ⟨_, rfl, ?_⟩
  dsimp only
  split
  · simp
  · split <;> simp

@[simp] theorem trimNote_tb : ∀ k m n s, (State.trimNote k m n s).tb = s.tb := by intros; simp [State.trimNote]

@[simp] theorem setModTrim_tb : ∀ k m s, (State.setModTrim k m s).tb = s.tb := by intros; simp [State.setModTrim]

@[simp] theorem askModTrim_tb : ∀ k m s, (State.askModTrim k m s).tb = s.tb := by intros; unfold State.askModTrim; split <;> simp

@[simp] theorem trimBoundary_tb : ∀ k s, (State.trimBoundary k s).tb = s.tb := by
  intros; unfold State.trimBoundary; split <;> simp

@[simp] theorem spareTrim_tb : ∀ k s, (State.spareTrim k s).tb = s.tb := by intros; unfold State.spareTrim; split <;> simp

@[simp] theorem setVref_tb : ∀ k s, (State.setVref k s).tb = s.tb := by intros; simp [State.setVref]

@[simp] theorem setOsc_tb : ∀ k s, (State.setOsc k s).tb = s.tb := by intros; simp [State.setOsc]

@[simp] theorem askBkup_tb : ∀ k s, (State.askBkup k s).tb = s.tb := by intros; simp [State.askBkup]

@[simp] theorem bkupDueNow_tb : ∀ s, (State.bkupDueNow s).tb = s.tb := by intros; unfold State.bkupDueNow; split <;> simp

@[simp] theorem askPanelOsc_tb : ∀ k s, (State.askPanelOsc k s).tb = s.tb := by intros; simp [State.askPanelOsc]

@[simp] theorem panelOscNow_tb : ∀ s, (State.panelOscNow s).tb = s.tb := by intros; unfold State.panelOscNow; split <;> simp

@[simp] theorem dropModTrim_tb : ∀ k s, (State.dropModTrim k s).tb = s.tb := by intros; unfold State.dropModTrim; split <;> simp

@[simp] theorem reloadTrims_tb : ∀ s, (State.reloadTrims s).tb = s.tb := by intros; simp [State.reloadTrims]

@[simp] theorem chDrift_tb : ∀ k m s, (State.chDrift k m s).tb = s.tb := by intros; simp [State.chDrift]

@[simp] theorem dwellChecked_tb : ∀ k s, (State.dwellChecked k s).tb = s.tb := by intros; simp [State.dwellChecked]

@[simp] theorem spareMove_tb : ∀ k m s, (State.spareMove k m s).tb = s.tb := by
  intros; unfold State.spareMove; dsimp only; (repeat' split) <;> simp

theorem execSpareMove_tb : ∀ k m s, ∃ t, execSpareMove k m s = .next t ∧ t.tb = s.tb := by intros; refine ⟨_, rfl, ?_⟩; simp

theorem execDriftCheckPhase_tb : ∀ k m s, ∃ t, execDriftCheckPhase k m s = .next t ∧ t.tb = s.tb := by
  intros; refine ⟨_, rfl, ?_⟩; (repeat' split) <;> simp

theorem execChDriftChecked_tb : ∀ k s, ∃ t, execChDriftChecked k s = .next t ∧ t.tb = s.tb := by
  intros; refine ⟨_, rfl, ?_⟩; split <;> simp

@[simp] theorem restoreEnd_tb : ∀ k m n s, (State.restoreEnd k m n s).tb = s.tb := by
  intros; unfold State.restoreEnd; dsimp only; (repeat' split) <;> simp

theorem execChRestored_tb : ∀ k m n s, ∃ t, execChRestored k m n s = .next t ∧ t.tb = s.tb := by intros; refine ⟨_, rfl, ?_⟩; simp

theorem execSuppressionEnd_tb : ∀ k s, ∃ t, execSuppressionEnd k s = .next t ∧ t.tb = s.tb := by intros; refine ⟨_, rfl, ?_⟩; simp

theorem execChClip_tb : ∀ k s, ∃ t, execChClip k s = .next t ∧ t.tb = s.tb := by intros; refine ⟨_, rfl, ?_⟩; simp

@[simp] theorem channelBoundary_tb : ∀ k s, (State.channelBoundary k s).tb = s.tb := by intros; simp [State.channelBoundary]

@[simp] theorem spareBoundary_tb : ∀ k s, (State.spareBoundary k s).tb = s.tb := by
  intros; unfold State.spareBoundary; dsimp only; (repeat' split) <;> simp

@[simp] theorem acted_tb : ∀ k m s p, (∀ x, (p x).1.tb = x.tb) → (State.acted k m s p).tb = s.tb := by
  intros; unfold State.acted; dsimp only; (repeat' split) <;> simp [*]

@[simp] theorem abandonActivation_tb : ∀ s, (State.abandonActivation s).tb = s.tb := by intros; simp [State.abandonActivation]

@[simp] theorem command_tb : ∀ k m s p, (∀ x, (p x).tb = x.tb) → (State.command k m s p).tb = s.tb := by
  intros; unfold State.command; dsimp only; (repeat' split) <;> simp [*]

@[simp] theorem softScope_tb : ∀ k s, (State.softScope k s).tb = s.tb := by intros; unfold State.softScope; split <;> simp

@[simp] theorem settleN_tb : ∀ k s, (State.settleN k s).tb = s.tb := by
  intro k s
  induction k generalizing s with
  | zero => rfl
  | succ k ih =>
    unfold State.settleN
    split
    · simp [*]
    · split <;> simp [*]

@[simp] theorem settleBaud_tb : ∀ s, (State.settleBaud s).tb = s.tb := by
  intros; unfold State.settleBaud; dsimp only; (repeat' split) <;> simp

@[simp] theorem settle_tb : ∀ s, (State.settle s).tb = s.tb := by intros; simp [State.settle]

@[simp] theorem transact_tb : ∀ k m s, (State.transact k m s).tb = s.tb := by intros; simp [State.transact]

@[simp] theorem delivered_tb : ∀ k m n s, (State.delivered k m n s).tb = s.tb := by intros; simp [State.delivered]

@[simp] theorem readPort_tb : ∀ k m s, (State.readPort k m s).tb = s.tb := by
  intros; unfold State.readPort; dsimp only; (repeat' split) <;> simp

theorem execRead_tb : ∀ k m s, ∃ t, execRead k m s = .next t ∧ t.tb = s.tb := by intros; refine ⟨_, rfl, ?_⟩; split <;> simp

theorem execStatus_tb : ∀ k s, ∃ t, execStatus k s = .next t ∧ t.tb = s.tb := by intros; refine ⟨_, rfl, ?_⟩; split <;> simp

theorem execUartReplySent_tb : ∀ s, ∃ t, execUartReplySent s = .next t ∧ t.tb = s.tb := by
  intros; refine ⟨_, rfl, ?_⟩; (repeat' split) <;> simp

theorem execPortTimeout_tb : ∀ k s, ∃ t, execPortTimeout k s = .next t ∧ t.tb = s.tb := by
  intros; refine ⟨_, rfl, ?_⟩; split <;> simp

theorem execUartFrameStall_tb : ∀ s, ∃ t, execUartFrameStall s = .next t ∧ t.tb = s.tb := by intros; refine ⟨_, rfl, ?_⟩; simp

@[simp] theorem replyDropped_tb : ∀ k m s, (State.replyDropped k m s).tb = s.tb := by
  intros; unfold State.replyDropped; dsimp only; (repeat' split) <;> simp

theorem execReplyDropped_tb : ∀ k m s, ∃ t, execReplyDropped k m s = .next t ∧ t.tb = s.tb := by intros; refine ⟨_, rfl, ?_⟩; simp

theorem execSessionIdleTimeout_tb : ∀ k s, ∃ t, execSessionIdleTimeout k s = .next t ∧ t.tb = s.tb := by
  intros; refine ⟨_, rfl, ?_⟩; simp

theorem execNop_tb : ∀ k m s, ∃ t, execNop k m s = .next t ∧ t.tb = s.tb := by intros; refine ⟨_, rfl, ?_⟩; simp

theorem execSessionClose_tb : ∀ k s, ∃ t, execSessionClose k s = .next t ∧ t.tb = s.tb := by intros; refine ⟨_, rfl, ?_⟩; simp

theorem execSetPriority_tb : ∀ k m s, ∃ t, execSetPriority k m s = .next t ∧ t.tb = s.tb := by intros; refine ⟨_, rfl, ?_⟩; simp

@[simp] theorem sessionOpen_tb : ∀ k m s, (State.sessionOpen k m s).tb = s.tb := by
  intros; unfold State.sessionOpen; dsimp only; (repeat' split) <;> simp

theorem execSessionOpen_tb : ∀ k m s, ∃ t, execSessionOpen k m s = .next t ∧ t.tb = s.tb := by intros; refine ⟨_, rfl, ?_⟩; simp

@[simp] theorem grdNotify_tb : ∀ k s, (State.grdNotify k s).tb = s.tb := by intros; simp [State.grdNotify]

@[simp] theorem declareGroup_tb : ∀ k m s, (State.declareGroup k m s).tb = s.tb := by intros; simp [State.declareGroup]

theorem execGrdSource_tb : ∀ k m s, ∃ t, execGrdSource k m s = .next t ∧ t.tb = s.tb := by intros; refine ⟨_, rfl, ?_⟩; simp

theorem execCellScanPeriod_tb : ∀ k m s, ∃ t, execCellScanPeriod k m s = .next t ∧ t.tb = s.tb := by
  intros; refine ⟨_, rfl, ?_⟩; simp

theorem execGrdClock_tb : ∀ s, ∃ t, execGrdClock s = .next t ∧ t.tb = s.tb := by intros; refine ⟨_, rfl, ?_⟩; simp

@[simp] theorem cellReplay_tb : ∀ s, (State.cellReplay s).tb = s.tb := by intros; simp [State.cellReplay]

@[simp] theorem arm_tb : ∀ s, (State.arm s).tb = s.tb := by intros; simp [State.arm]

@[simp] theorem fdis_tb : ∀ k s, (State.fdis k s).tb = s.tb := by intros; simp [State.fdis]

theorem execGrdClearArm_tb : ∀ k m s, ∃ t, execGrdClearArm k m s = .next t ∧ t.tb = s.tb := by intros; refine ⟨_, rfl, ?_⟩; simp

@[simp] theorem clearGuards_tb : ∀ k m s, (State.clearGuards k m s).tb = s.tb := by intros; simp [State.clearGuards]

theorem execGrdClearConfirm_tb : ∀ k m n s, ∃ t, execGrdClearConfirm k m n s = .next t ∧ t.tb = s.tb := by
  intros; refine ⟨_, rfl, ?_⟩; refine command_keeps (fun s => s.tb) _ _ (by simp) (by simp) ?_; intro s; dsimp only; (repeat' split) <;> simp

theorem execGrdChallengeExpiry_tb : ∀ s, ∃ t, execGrdChallengeExpiry s = .next t ∧ t.tb = s.tb := by
  intros; refine ⟨_, rfl, ?_⟩; simp

theorem execGrdTest_tb : ∀ k m n s, ∃ t, execGrdTest k m n s = .next t ∧ t.tb = s.tb := by
  intros; refine ⟨_, rfl, ?_⟩; split <;> simp

theorem execIdCertRead_tb : ∀ k m n s, ∃ t, execIdCertRead k m n s = .next t ∧ t.tb = s.tb := by intros; refine ⟨_, rfl, ?_⟩; simp

@[simp] theorem outOfOrder_tb : ∀ k m n p s, (State.outOfOrder k m n p s).tb = s.tb := by intros; simp [State.outOfOrder]

@[simp] theorem retire_tb : ∀ k m n s, (State.retire k m n s).tb = s.tb := by
  intros; unfold State.retire; dsimp only; (repeat' split) <;> simp

@[simp] theorem disableTarget_tb : ∀ k s, (State.disableTarget k s).tb = s.tb := by intros; simp [State.disableTarget]

theorem execIntTimeout_tb : ∀ k s, ∃ t, execIntTimeout k s = .next t ∧ t.tb = s.tb := by
  intros; refine ⟨_, rfl, ?_⟩; split <;> simp

@[simp] theorem refCheck_tb : ∀ s, (State.refCheck s).tb = s.tb := by intros; simp [State.refCheck]

@[simp] theorem tempCheck_tb : ∀ s, (State.tempCheck s).tb = s.tb := by intros; simp [State.tempCheck]

@[simp] theorem vbatReading_tb : ∀ s, (State.vbatReading s).tb = s.tb := by intros; simp [State.vbatReading]

@[simp] theorem hallReading_tb : ∀ k s, (State.hallReading k s).tb = s.tb := by
  intros; unfold State.hallReading; dsimp only; (repeat' split) <;> simp

@[simp] theorem auxScan_tb : ∀ k m s, (State.auxScan k m s).tb = s.tb := by intros; unfold State.auxScan; split <;> simp

theorem execAuxScan_tb : ∀ k m s, ∃ t, execAuxScan k m s = .next t ∧ t.tb = s.tb := by intros; refine ⟨_, rfl, ?_⟩; simp

theorem execAuxRead_tb : ∀ k m n s, ∃ t, execAuxRead k m n s = .next t ∧ t.tb = s.tb := by
  intros; refine ⟨_, rfl, ?_⟩; split <;> simp

@[simp] theorem tableLoad_tb : ∀ k m n p q r s, (State.tableLoad k m n p q r s).tb = s.tb := by
  intros; unfold State.tableLoad; dsimp only; (repeat' split) <;> simp

theorem execPnlTableLoad_tb : ∀ k m n p q r s, ∃ t, execPnlTableLoad k m n p q r s = .next t ∧ t.tb = s.tb := by
  intros; refine ⟨_, rfl, ?_⟩; simp

theorem execPnlImageWrite_tb : ∀ k m n p s, ∃ t, execPnlImageWrite k m n p s = .next t ∧ t.tb = s.tb := by
  intros; refine ⟨_, rfl, ?_⟩; split <;> simp

@[simp] theorem steer_tb : ∀ s, (State.steer s).tb = s.tb := by intros; simp [State.steer]

@[simp] theorem pnlDone_tb : ∀ k m n s, (State.pnlDone k m n s).tb = s.tb := by intros; simp [State.pnlDone]

@[simp] theorem slotReq_tb : ∀ k m s, (State.slotReq k m s).tb = s.tb := by intros; unfold State.slotReq; split <;> simp

@[simp] theorem placeReq_tb : ∀ k m s, (State.placeReq k m s).tb = s.tb := by intros; unfold State.placeReq; split <;> simp

@[simp] theorem supersede_tb : ∀ k m s, (State.supersede k m s).tb = s.tb := by intros; simp [State.supersede]

@[simp] theorem panelUpdate_tb : ∀ k m n s, (State.panelUpdate k m n s).1.tb = s.tb := by
  intros; unfold State.panelUpdate; split <;> simp

@[simp] theorem pnlUpdate_tb : ∀ k m n p s, (State.pnlUpdate k m n p s).tb = s.tb := by intros; simp [State.pnlUpdate]

theorem execPnlUpdate_tb : ∀ k m n p s, ∃ t, execPnlUpdate k m n p s = .next t ∧ t.tb = s.tb := by
  intros; refine ⟨_, rfl, ?_⟩; simp

@[simp] theorem refreshDirty_tb : ∀ s, (State.refreshDirty s).tb = s.tb := by intros; simp [State.refreshDirty]

@[simp] theorem startWaiting_tb : ∀ s, (State.startWaiting s).tb = s.tb := by intros; simp [State.startWaiting]

@[simp] theorem endRun_tb : ∀ k m n s, (State.endRun k m n s).tb = s.tb := by intros; simp [State.endRun]

@[simp] theorem startRun_tb : ∀ k m s, (State.startRun k m s).tb = s.tb := by intros; unfold State.startRun; split <;> simp

@[simp] theorem pairEnd_tb : ∀ k s, (State.pairEnd k s).tb = s.tb := by intros; unfold State.pairEnd; split <;> simp

@[simp] theorem pairStart_tb : ∀ k s, (State.pairStart k s).tb = s.tb := by intros; unfold State.pairStart; split <;> simp

@[simp] theorem dropPending_tb : ∀ k s, (State.dropPending k s).tb = s.tb := by
  intros; unfold State.dropPending; dsimp only; (repeat' split) <;> simp

@[simp] theorem pairBoundary_tb : ∀ s, (State.pairBoundary s).tb = s.tb := by intros; simp [State.pairBoundary]

theorem execPanelPairBoundary_tb : ∀ s, ∃ t, execPanelPairBoundary s = .next t ∧ t.tb = s.tb := by
  intros; refine ⟨_, rfl, ?_⟩; simp

theorem execPanelFrameBoundary_tb : ∀ s, ∃ t, execPanelFrameBoundary s = .next t ∧ t.tb = s.tb := by
  intros; refine ⟨_, rfl, ?_⟩; simp

@[simp] theorem faultRegion_tb : ∀ k s, (State.faultRegion k s).tb = s.tb := by
  intros; unfold State.faultRegion; dsimp only; (repeat' split) <;> simp

@[simp] theorem panelFault_tb : ∀ s, (State.panelFault s).tb = s.tb := by intros; simp [State.panelFault]

theorem execPanelFault_tb : ∀ k s, ∃ t, execPanelFault k s = .next t ∧ t.tb = s.tb := by intros; refine ⟨_, rfl, ?_⟩; simp

theorem execRailRead_tb : ∀ k s, ∃ t, execRailRead k s = .next t ∧ t.tb = s.tb := by
  intros; refine ⟨_, rfl, ?_⟩; dsimp only; (repeat' split) <;> simp

theorem execRailStep_tb : ∀ s, ∃ t, execRailStep s = .next t ∧ t.tb = s.tb := by intros; refine ⟨_, rfl, ?_⟩; simp

@[simp] theorem closeout_tb : ∀ s, (State.closeout s).tb = s.tb := by intros; simp [State.closeout]

@[simp] theorem recover_tb : ∀ k s, (State.recover k s).tb = s.tb := by intros; simp [State.recover]

@[simp] theorem store_tb : ∀ k m s, (State.store k m s).tb = s.tb := by intros; simp [State.store]

@[simp] theorem stage_tb : ∀ k m s, (State.stage k m s).tb = s.tb := by intros; simp [State.stage]

@[simp] theorem noteRejoined_tb : ∀ k m s, (State.noteRejoined k m s).tb = s.tb := by intros; simp [State.noteRejoined]

@[simp] theorem rejoinComb_tb : ∀ s, (State.rejoinComb s).tb = s.tb := by intros; unfold State.rejoinComb; split <;> simp

@[simp] theorem rejoinMet_tb : ∀ s, (State.rejoinMet s).tb = s.tb := by intros; unfold State.rejoinMet; split <;> simp

@[simp] theorem rejoin_tb : ∀ k m s, (State.rejoin k m s).tb = s.tb := by
  intros; unfold State.rejoin; dsimp only; (repeat' split) <;> simp

@[simp] theorem control_tb : ∀ k m s, (State.control k m s).tb = s.tb := by intros; unfold State.control; split <;> simp

@[simp] theorem guardControl_tb : ∀ k s, (State.guardControl k s).tb = s.tb := by intros; simp [State.guardControl]

@[simp] theorem askOsc_tb : ∀ k s, (State.askOsc k s).tb = s.tb := by intros; simp [State.askOsc]

@[simp] theorem noteKey_tb : ∀ k s, (State.noteKey k s).tb = s.tb := by intros; simp [State.noteKey]

@[simp] theorem applyWord_tb : ∀ k m n p q s, (State.applyWord k m n p q s).tb = s.tb := by
  intro a0 a1 r a3 a4 s
  cases r with
  | ch k x => cases x <;> (unfold State.applyWord; first | rfl | (simp; done) | (dsimp only; split <;> simp))
  | _ => unfold State.applyWord; first | rfl | (simp; done) | (dsimp only; split <;> first | rfl | (simp; done) | (split <;> simp))

@[simp] theorem paramWrite_tb : ∀ k m n p s, (State.paramWrite k m n p s).tb = s.tb := by
  intro req env addr ws s
  have hw : ∀ order l s s1, State.writeWords req env order l s = .inr s1 → s1.tb = s.tb := by
    intro order l
    induction l with
    | nil => intro s s1 h; simp only [State.writeWords, Sum.inr.injEq] at h; rw [← h]
    | cons x l ih =>
      intro s s1 h
      obtain ⟨a, w⟩ := x
      simp only [State.writeWords] at h
      split at h
      · simp at h
      · rw [ih _ _ h]; simp
  unfold State.paramWrite
  split
  · simp
  · next s1 h =>
    have : s1.tb = s.tb := by
      unfold State.tryWrite at h
      dsimp only at h
      split at h
      · simp at h
      · split at h
        · simp at h
        · exact hw _ _ _ _ h
    simp [this]

@[simp] theorem write_tb : ∀ k m n p s, (State.write k m n p s).tb = s.tb := by intros; simp [State.write]

theorem execParamWrite_tb : ∀ k m n s, ∃ t, execParamWrite k m n s = .next t ∧ t.tb = s.tb := by intros; refine ⟨_, rfl, ?_⟩; simp

theorem execForceSpare_tb : ∀ k m s, ∃ t, execForceSpare k m s = .next t ∧ t.tb = s.tb := by intros; refine ⟨_, rfl, ?_⟩; simp

theorem execRestore_tb : ∀ k m s, ∃ t, execRestore k m s = .next t ∧ t.tb = s.tb := by intros; refine ⟨_, rfl, ?_⟩; simp

theorem execCheck_tb : ∀ k m s, ∃ t, execCheck k m s = .next t ∧ t.tb = s.tb := by intros; refine ⟨_, rfl, ?_⟩; simp

theorem execTrimModWrite_tb : ∀ k m n s, ∃ t, execTrimModWrite k m n s = .next t ∧ t.tb = s.tb := by
  intros; refine ⟨_, rfl, ?_⟩; simp

theorem execTrimVrefWrite_tb : ∀ k m s, ∃ t, execTrimVrefWrite k m s = .next t ∧ t.tb = s.tb := by
  intros; refine ⟨_, rfl, ?_⟩; simp

theorem execTrimOscWrite_tb : ∀ k m s, ∃ t, execTrimOscWrite k m s = .next t ∧ t.tb = s.tb := by intros; refine ⟨_, rfl, ?_⟩; simp

theorem execReload_tb : ∀ k s, ∃ t, execReload k s = .next t ∧ t.tb = s.tb := by intros; refine ⟨_, rfl, ?_⟩; simp

theorem execRejoin_tb : ∀ k m n s, ∃ t, execRejoin k m n s = .next t ∧ t.tb = s.tb := by intros; refine ⟨_, rfl, ?_⟩; simp

theorem execXreturn_tb : ∀ k s, ∃ t, execXreturn k s = .next t ∧ t.tb = s.tb := by intros; refine ⟨_, rfl, ?_⟩; simp

theorem execEoi_tb : ∀ k m n p s, ∃ t, execEoi k m n p s = .next t ∧ t.tb = s.tb := by intros; refine ⟨_, rfl, ?_⟩; simp

theorem execIntTargetDisable_tb : ∀ k m s, ∃ t, execIntTargetDisable k m s = .next t ∧ t.tb = s.tb := by
  intros; refine ⟨_, rfl, ?_⟩; simp

theorem execArm_tb : ∀ k s, ∃ t, execArm k s = .next t ∧ t.tb = s.tb := by intros; refine ⟨_, rfl, ?_⟩; simp

theorem execFdis_tb : ∀ k m n s, ∃ t, execFdis k m n s = .next t ∧ t.tb = s.tb := by intros; refine ⟨_, rfl, ?_⟩; simp

theorem execRecover_tb : ∀ k m s, ∃ t, execRecover k m s = .next t ∧ t.tb = s.tb := by intros; refine ⟨_, rfl, ?_⟩; simp

@[simp] theorem slotCheck_tb : ∀ k m s, (State.slotCheck k m s).tb = s.tb := by intros; simp [State.slotCheck]

@[simp] theorem latchSlots_tb : ∀ k s, (State.latchSlots k s).tb = s.tb := by intros; simp [State.latchSlots]

@[simp] theorem deliverSlots_tb : ∀ s, (State.deliverSlots s).tb = s.tb := by intros; simp [State.deliverSlots]

@[simp] theorem combCompare_tb : ∀ k m n s, (State.combCompare k m n s).tb = s.tb := by intros; simp [State.combCompare]

@[simp] theorem frameLines_tb : ∀ s, (State.frameLines s).tb = s.tb := by intros; simp [State.frameLines]

@[simp] theorem survey_tb : ∀ s, (State.survey s).tb = s.tb := by intros; simp [State.survey]

@[simp] theorem relockFrame_tb : ∀ s, (State.relockFrame s).tb = s.tb := by intros; simp [State.relockFrame]

@[simp] theorem takePins_tb : ∀ s, (State.takePins s).tb = s.tb := by intros; simp [State.takePins]

theorem execEngFenced_tb : ∀ k s, ∃ t, execEngFenced k s = .next t ∧ t.tb = s.tb := by intros; refine ⟨_, rfl, ?_⟩; simp

@[simp] theorem book_tb : ∀ k m n s, (State.book k m n s).tb = s.tb := by intros; simp [State.book]

@[simp] theorem closePoint_tb : ∀ k s, (State.closePoint k s).tb = s.tb := by intros; unfold State.closePoint; split <;> simp

@[simp] theorem closeBalance_tb : ∀ k s, (State.closeBalance k s).tb = s.tb := by
  intros; unfold State.closeBalance; split <;> simp

@[simp] theorem closeDc_tb : ∀ k s, (State.closeDc k s).tb = s.tb := by intros; simp [State.closeDc]

@[simp] theorem startCapture_tb : ∀ k m n s, (State.startCapture k m n s).tb = s.tb := by intros; simp [State.startCapture]

@[simp] theorem trigger_tb : ∀ k m s, (State.trigger k m s).tb = s.tb := by
  intros; unfold State.trigger; dsimp only; (repeat' split) <;> simp

@[simp] theorem triggerBy_tb : ∀ k m s, (State.triggerBy k m s).tb = s.tb := by intros; unfold State.triggerBy; split <;> simp

@[simp] theorem dueTrigger_tb : ∀ k s, (State.dueTrigger k s).tb = s.tb := by intros; unfold State.dueTrigger; split <;> simp

@[simp] theorem enterDue_tb : ∀ k s, (State.enterDue k s).tb = s.tb := by intros; unfold State.enterDue; split <;> simp

@[simp] theorem due_tb : ∀ k m n p q r u s, (State.due k m n p q r u s).tb = s.tb := by intros; simp [State.due]

@[simp] theorem flushDue_tb : ∀ s, (State.flushDue s).tb = s.tb := by intros; simp [State.flushDue]

theorem execCaptureFilled_tb : ∀ k s, ∃ t, execCaptureFilled k s = .next t ∧ t.tb = s.tb := by intros; refine ⟨_, rfl, ?_⟩; simp

theorem execCaptureKeepExpiry_tb : ∀ k s, ∃ t, execCaptureKeepExpiry k s = .next t ∧ t.tb = s.tb := by
  intros; refine ⟨_, rfl, ?_⟩; simp

@[simp] theorem completeEvent_tb : ∀ k m n p q r u s, (State.completeEvent k m n p q r u s).tb = s.tb := by
  intros; simp [State.completeEvent]

@[simp] theorem autoFreeze_tb : ∀ k s, (State.autoFreeze k s).tb = s.tb := by intros; simp [State.autoFreeze]

@[simp] theorem freezeCount_tb : ∀ k m s, (State.freezeCount k m s).tb = s.tb := by intros; simp [State.freezeCount]

theorem execAutoFreezeEnd_tb : ∀ k s, ∃ t, execAutoFreezeEnd k s = .next t ∧ t.tb = s.tb := by intros; refine ⟨_, rfl, ?_⟩; simp

@[simp] theorem rvcValue_tb : ∀ k m n p s, (State.rvcValue k m n p s).tb = s.tb := by
  intros; unfold State.rvcValue; split <;> simp

@[simp] theorem startEvent_tb : ∀ k m n p q s, (State.startEvent k m n p q s).tb = s.tb := by
  intros; unfold State.startEvent; split <;> simp

@[simp] theorem eventStep_tb : ∀ k m n p s, (State.eventStep k m n p s).tb = s.tb := by
  intros; unfold State.eventStep; dsimp only; (repeat' split) <;> simp

@[simp] theorem flagBefore_tb : ∀ k s, (State.flagBefore k s).tb = s.tb := by intros; simp [State.flagBefore]

@[simp] theorem halfCycle_tb : ∀ k m s, (State.halfCycle k m s).tb = s.tb := by
  intros
  unfold State.halfCycle
  dsimp only
  simp only [onBus_tb, flagBefore_tb, ite_tb]
  split
  · rw [chain_tb _ _ _ (by intro x s; simp)]; simp
  · simp

@[simp] theorem powerFailEvents_tb : ∀ s, (State.powerFailEvents s).tb = s.tb := by
  intros
  unfold State.powerFailEvents
  dsimp only
  simp only [flushDue_tb]
  exact chain_tb _ _ _ (by intro x s; exact chain_tb _ _ _ (by intro x s; (repeat' split) <;> simp))

@[simp] theorem detected_tb : ∀ k m n p q r s, (State.detected k m n p q r s).tb = s.tb := by intros; simp [State.detected]

@[simp] theorem neutralLost_tb : ∀ k s, (State.neutralLost k s).tb = s.tb := by intros; simp [State.neutralLost]

@[simp] theorem neutralBypass_tb : ∀ k s, (State.neutralBypass k s).tb = s.tb := by
  intros; unfold State.neutralBypass; split <;> simp

@[simp] theorem reverseFlow_tb : ∀ k s, (State.reverseFlow k s).tb = s.tb := by intros; simp [State.reverseFlow]

@[simp] theorem cycleDetectors_tb : ∀ s, (State.cycleDetectors s).tb = s.tb := by intros; simp [State.cycleDetectors]

@[simp] theorem wrongSequence_tb : ∀ k s, (State.wrongSequence k s).tb = s.tb := by intros; simp [State.wrongSequence]

@[simp] theorem dcPresent_tb : ∀ k s, (State.dcPresent k s).tb = s.tb := by intros; simp [State.dcPresent]

@[simp] theorem magnet_tb : ∀ s, (State.magnet s).tb = s.tb := by intros; simp [State.magnet]

@[simp] theorem blockDetectors_tb : ∀ s, (State.blockDetectors s).tb = s.tb := by intros; simp [State.blockDetectors]

@[simp] theorem startSet_tb : ∀ s, (State.startSet s).tb = s.tb := by intros; simp [State.startSet]

@[simp] theorem publishSet_tb : ∀ s, (State.publishSet s).tb = s.tb := by intros; simp [State.publishSet]

theorem execWbSetEnd_tb : ∀ s, ∃ t, execWbSetEnd s = .next t ∧ t.tb = s.tb := by intros; refine ⟨_, rfl, ?_⟩; simp

@[simp] theorem refill_tb : ∀ s, (State.refill s).tb = s.tb := by intros; unfold State.refill; split <;> simp

@[simp] theorem seal_tb : ∀ k s, (State.seal k s).tb = s.tb := by intros; unfold State.seal; split <;> simp

@[simp] theorem cut_tb : ∀ k m s, (State.cut k m s).tb = s.tb := by intros; simp [State.cut]

theorem execFolioSealed_tb : ∀ k s, ∃ t, execFolioSealed k s = .next t ∧ t.tb = s.tb := by intros; refine ⟨_, rfl, ?_⟩; simp

@[simp] theorem writeRecord_tb : ∀ k s, (State.writeRecord k s).tb = s.tb := by intros; simp [State.writeRecord]

@[simp] theorem writeCheckpoint_tb : ∀ s, (State.writeCheckpoint s).tb = s.tb := by intros; simp [State.writeCheckpoint]

@[simp] theorem checkpoint_tb : ∀ s, (State.checkpoint s).tb = s.tb := by intros; simp [State.checkpoint]

@[simp] theorem extraCheckpoint_tb : ∀ s, (State.extraCheckpoint s).tb = s.tb := by intros; simp [State.extraCheckpoint]

@[simp] theorem reloadCell_tb : ∀ k m s, (State.reloadCell k m s).tb = s.tb := by intros; unfold State.reloadCell; split <;> simp

@[simp] theorem lostInterval_tb : ∀ s, (State.lostInterval s).tb = s.tb := by intros; simp [State.lostInterval]

@[simp] theorem accLost_tb : ∀ k s, (State.accLost k s).tb = s.tb := by
  intros; unfold State.accLost; dsimp only; (repeat' split) <;> simp

@[simp] theorem fenceBank_tb : ∀ k s, (State.fenceBank k s).tb = s.tb := by intros; simp [State.fenceBank]

@[simp] theorem rewrite_tb : ∀ k m s, (State.rewrite k m s).tb = s.tb := by intros; simp [State.rewrite]

@[simp] theorem accError_tb : ∀ k m s, (State.accError k m s).tb = s.tb := by intros; simp [State.accError]

@[simp] theorem accErrors_tb : ∀ k s, (State.accErrors k s).tb = s.tb := by intros; simp [State.accErrors]

theorem execAccScrub_tb : ∀ k s, ∃ t, execAccScrub k s = .next t ∧ t.tb = s.tb := by intros; refine ⟨_, rfl, ?_⟩; simp

@[simp] theorem closeChannel_tb : ∀ k z n s, (State.closeChannel k z n s).tb = s.tb := by intros; simp [State.closeChannel]

@[simp] theorem closeBus_tb : ∀ k z n s, (State.closeBus k z n s).tb = s.tb := by intros; simp [State.closeBus]

@[simp] theorem asEnded_tb : ∀ s, (State.asEnded s).tb = s.tb := by intros; simp [State.asEnded]

@[simp] theorem countedAggs_tb : ∀ s, (State.countedAggs s).tb = s.tb := by intros; simp [State.countedAggs]

@[simp] theorem changeUdin_tb : ∀ k s, (State.changeUdin k s).tb = s.tb := by intros; simp [State.changeUdin]

@[simp] theorem udinNow_tb : ∀ s, (State.udinNow s).tb = s.tb := by intros; simp [State.udinNow]

@[simp] theorem spoilFolio_tb : ∀ k m n s, (State.spoilFolio k m n s).tb = s.tb := by intros; simp [State.spoilFolio]

@[simp] theorem spoilRead_tb : ∀ k s, (State.spoilRead k s).tb = s.tb := by intros; unfold State.spoilRead; split <;> simp

@[simp] theorem noteUncorr_tb : ∀ k s, (State.noteUncorr k s).tb = s.tb := by intros; simp [State.noteUncorr]

@[simp] theorem readError_tb : ∀ k s, (State.readError k s).tb = s.tb := by intros; simp [State.readError]

@[simp] theorem onFolio_tb : ∀ k m n s q, (∀ x, (q x).tb = s.tb) → (State.onFolio k m n s q).tb = s.tb := by
  intros; unfold State.onFolio; (repeat' split) <;> simp [*]

theorem execFolioRead_tb : ∀ k m n p q s, ∃ t, execFolioRead k m n p q s = .next t ∧ t.tb = s.tb := by
  intros; refine ⟨_, rfl, ?_⟩; refine command_keeps (fun s => s.tb) _ _ (by simp) (by simp) ?_; intro s; simp

@[simp] theorem grant_tb : ∀ k m n s, (State.grant k m n s).1.tb = s.tb := by
  intros; unfold State.grant; dsimp only; (repeat' split) <;> simp

@[simp] theorem lease_tb : ∀ k m n s, (State.lease k m n s).1.tb = s.tb := by intros; unfold State.lease; (repeat' split) <;> simp

theorem execFolioLease_tb : ∀ k m n s, ∃ t, execFolioLease k m n s = .next t ∧ t.tb = s.tb := by intros; refine ⟨_, rfl, ?_⟩; simp

@[simp] theorem endLease_tb : ∀ k m s, (State.endLease k m s).tb = s.tb := by intros; simp [State.endLease]

@[simp] theorem renew_tb : ∀ k m n s, (State.renew k m n s).1.tb = s.tb := by intros; unfold State.renew; split <;> simp

theorem execFolioRenew_tb : ∀ k m n s, ∃ t, execFolioRenew k m n s = .next t ∧ t.tb = s.tb := by intros; refine ⟨_, rfl, ?_⟩; simp

@[simp] theorem release_tb : ∀ k m s, (State.release k m s).1.tb = s.tb := by intros; unfold State.release; split <;> simp

theorem execFolioRelease_tb : ∀ k m s, ∃ t, execFolioRelease k m s = .next t ∧ t.tb = s.tb := by intros; refine ⟨_, rfl, ?_⟩; simp

theorem execLeaseExpiry_tb : ∀ k m s, ∃ t, execLeaseExpiry k m s = .next t ∧ t.tb = s.tb := by intros; refine ⟨_, rfl, ?_⟩; simp

@[simp] theorem demandCut_tb : ∀ s, (State.demandCut s).1.tb = s.tb := by intros; unfold State.demandCut; split <;> simp

theorem execFolioCut_tb : ∀ k s, ∃ t, execFolioCut k s = .next t ∧ t.tb = s.tb := by intros; refine ⟨_, rfl, ?_⟩; simp

theorem execFolioSealGet_tb : ∀ k m s, ∃ t, execFolioSealGet k m s = .next t ∧ t.tb = s.tb := by intros; refine ⟨_, rfl, ?_⟩; simp

theorem execParamRead_tb : ∀ k m n s, ∃ t, execParamRead k m n s = .next t ∧ t.tb = s.tb := by intros; refine ⟨_, rfl, ?_⟩; simp

theorem execScRead_tb : ∀ k m n p s, ∃ t, execScRead k m n p s = .next t ∧ t.tb = s.tb := by intros; refine ⟨_, rfl, ?_⟩; simp

theorem execBlotRead_tb : ∀ k s, ∃ t, execBlotRead k s = .next t ∧ t.tb = s.tb := by intros; refine ⟨_, rfl, ?_⟩; simp

@[simp] theorem judgeAdmitted_tb : ∀ k s, (State.judgeAdmitted k s).1.tb = s.tb := by
  intros; unfold State.judgeAdmitted; dsimp only; (repeat' split) <;> simp

@[simp] theorem admitFrame_tb : ∀ k m n p s, (State.admitFrame k m n p s).tb = s.tb := by
  intros; unfold State.admitFrame; dsimp only; (repeat' split) <;> simp

@[simp] theorem judgeOpcode_tb : ∀ k m n p s, (State.judgeOpcode k m n p s).tb = s.tb := by
  intros; unfold State.judgeOpcode; (repeat' split) <;> simp

@[simp] theorem authFailure_tb : ∀ k m n s, (State.authFailure k m n s).tb = s.tb := by intros; simp [State.authFailure]

@[simp] theorem judgeSequence_tb : ∀ k m n p s, (State.judgeSequence k m n p s).tb = s.tb := by intros; simp [State.judgeSequence]

@[simp] theorem judgeSession_tb : ∀ k m n p s, (State.judgeSession k m n p s).tb = s.tb := by
  intros; unfold State.judgeSession; (repeat' split) <;> simp

@[simp] theorem judgeFrame_tb : ∀ k m s, (State.judgeFrame k m s).tb = s.tb := by
  intros; unfold State.judgeFrame; dsimp only; (repeat' split) <;> simp

@[simp] theorem frameReceive_tb : ∀ k m s, (State.frameReceive k m s).tb = s.tb := by
  intros; unfold State.frameReceive; (repeat' split) <;> simp

theorem execFrameReceive_tb : ∀ k m n s, ∃ t, execFrameReceive k m n s = .next t ∧ t.tb = s.tb := by
  intros; refine ⟨_, rfl, ?_⟩; simp

@[simp] theorem alarmEvent_tb : ∀ k m s, (State.alarmEvent k m s).tb = s.tb := by intros; simp [State.alarmEvent]

@[simp] theorem alarmFire_tb : ∀ k m n p s, (State.alarmFire k m n p s).tb = s.tb := by intros; simp [State.alarmFire]

@[simp] theorem alarmForward_tb : ∀ k m n p s, (State.alarmForward k m n p s).tb = s.tb := by
  intros; unfold State.alarmForward; dsimp only; (repeat' split) <;> simp

@[simp] theorem alarmsAtStep_tb : ∀ k m n s, (State.alarmsAtStep k m n s).tb = s.tb := by intros; simp [State.alarmsAtStep]

@[simp] theorem badSet_tb : ∀ s, (State.badSet s).tb = s.tb := by intros; simp [State.badSet]

@[simp] theorem calStep_tb : ∀ k m s, (State.calStep k m s).tb = s.tb := by intros; simp [State.calStep]

@[simp] theorem calFirstSet_tb : ∀ k m s, (State.calFirstSet k m s).tb = s.tb := by intros; simp [State.calFirstSet]

@[simp] theorem cldSet_tb : ∀ k m s, (State.cldSet k m s).tb = s.tb := by intros; simp [State.cldSet]

theorem execCldSet_tb : ∀ k m s, ∃ t, execCldSet k m s = .next t ∧ t.tb = s.tb := by intros; refine ⟨_, rfl, ?_⟩; simp

@[simp] theorem cldAdjusted_tb : ∀ k m n s, (State.cldAdjusted k m n s).tb = s.tb := by intros; simp [State.cldAdjusted]

@[simp] theorem adjustStep_tb : ∀ k m n s, (State.adjustStep k m n s).tb = s.tb := by intros; simp [State.adjustStep]

theorem execCldAdjustStep_tb : ∀ k m n s, ∃ t, execCldAdjustStep k m n s = .next t ∧ t.tb = s.tb := by
  intros; refine ⟨_, rfl, ?_⟩; simp

@[simp] theorem adjustSlew_tb : ∀ k m n s, (State.adjustSlew k m n s).tb = s.tb := by intros; simp [State.adjustSlew]

theorem execCldAdjustSlew_tb : ∀ k m n s, ∃ t, execCldAdjustSlew k m n s = .next t ∧ t.tb = s.tb := by
  intros; refine ⟨_, rfl, ?_⟩; simp

theorem execCldAlarmAck_tb : ∀ k m s, ∃ t, execCldAlarmAck k m s = .next t ∧ t.tb = s.tb := by intros; refine ⟨_, rfl, ?_⟩; simp

@[simp] theorem secondBoundary_tb : ∀ s, (State.secondBoundary s).tb = s.tb := by intros; simp [State.secondBoundary]

theorem execCalSecondBoundary_tb : ∀ s, ∃ t, execCalSecondBoundary s = .next t ∧ t.tb = s.tb := by
  intros; refine ⟨_, rfl, ?_⟩; simp

theorem execCalStopped_tb : ∀ s, ∃ t, execCalStopped s = .next t ∧ t.tb = s.tb := by intros; refine ⟨_, rfl, ?_⟩; simp

theorem execSlewEnd_tb : ∀ s, ∃ t, execSlewEnd s = .next t ∧ t.tb = s.tb := by intros; refine ⟨_, rfl, ?_⟩; simp

@[simp] theorem demandClose_tb : ∀ k s, (State.demandClose k s).tb = s.tb := by intros; simp [State.demandClose]

theorem execDemandClose_tb : ∀ k s, ∃ t, execDemandClose k s = .next t ∧ t.tb = s.tb := by intros; refine ⟨_, rfl, ?_⟩; simp

@[simp] theorem applyProfEn_tb : ∀ s, (State.applyProfEn s).tb = s.tb := by intros; simp [State.applyProfEn]

@[simp] theorem openProfile_tb : ∀ k s, (State.openProfile k s).tb = s.tb := by intros; simp [State.openProfile]

@[simp] theorem countLost_tb : ∀ k s, (State.countLost k s).tb = s.tb := by intros; unfold State.countLost; split <;> simp

@[simp] theorem loseRecords_tb : ∀ k s, (State.loseRecords k s).tb = s.tb := by intros; unfold State.loseRecords; split <;> simp

@[simp] theorem writeGroup_tb : ∀ k s, (State.writeGroup k s).tb = s.tb := by intros; simp [State.writeGroup]

@[simp] theorem profileClose_tb : ∀ k s, (State.profileClose k s).tb = s.tb := by intros; simp [State.profileClose]

theorem execProfileClose_tb : ∀ s, ∃ t, execProfileClose s = .next t ∧ t.tb = s.tb := by intros; refine ⟨_, rfl, ?_⟩; simp

@[simp] theorem residual_tb : ∀ k m n p q s, (State.residual k m n p q s).tb = s.tb := by intros; simp [State.residual]

@[simp] theorem balanceClose_tb : ∀ k m s, (State.balanceClose k m s).tb = s.tb := by intros; simp [State.balanceClose]

theorem execBalanceClose_tb : ∀ k s, ∃ t, execBalanceClose k s = .next t ∧ t.tb = s.tb := by intros; refine ⟨_, rfl, ?_⟩; simp

@[simp] theorem convert_tb : ∀ k m s, (State.convert k m s).tb = s.tb := by intros; simp [State.convert]

@[simp] theorem reconcile_tb : ∀ k s, (State.reconcile k s).tb = s.tb := by intros; simp [State.reconcile]

@[simp] theorem firstCommit_tb : ∀ k s, (State.firstCommit k s).tb = s.tb := by intros; simp [State.firstCommit]

@[simp] theorem reloadCal_tb : ∀ s, (State.reloadCal s).tb = s.tb := by intros; simp [State.reloadCal]

@[simp] theorem calParity_tb : ∀ k s, (State.calParity k s).tb = s.tb := by intros; simp [State.calParity]

@[simp] theorem resolvePoint_tb : ∀ k m s, (State.resolvePoint k m s).tb = s.tb := by intros; simp [State.resolvePoint]

@[simp] theorem resolveOne_tb : ∀ k s, (State.resolveOne k s).tb = s.tb := by intros; simp [State.resolveOne]

@[simp] theorem resolveBoundary_tb : ∀ s, (State.resolveBoundary s).tb = s.tb := by intros; simp [State.resolveBoundary]

@[simp] theorem resetDemand_tb : ∀ k s, (State.resetDemand k s).tb = s.tb := by intros; simp [State.resetDemand]

@[simp] theorem resetReply_tb : ∀ k s, (State.resetReply k s).tb = s.tb := by intros; simp [State.resetReply]

@[simp] theorem resetBoundary_tb : ∀ s, (State.resetBoundary s).tb = s.tb := by intros; simp [State.resetBoundary]

@[simp] theorem dropOldWindows_tb : ∀ s, (State.dropOldWindows s).tb = s.tb := by intros; simp [State.dropOldWindows]

theorem execDemandReset_tb : ∀ k m s, ∃ t, execDemandReset k m s = .next t ∧ t.tb = s.tb := by intros; refine ⟨_, rfl, ?_⟩; simp

theorem execCalCommit_tb : ∀ k m s, ∃ t, execCalCommit k m s = .next t ∧ t.tb = s.tb := by intros; refine ⟨_, rfl, ?_⟩; simp

theorem execCalPendingRead_tb : ∀ k m n s, ∃ t, execCalPendingRead k m n s = .next t ∧ t.tb = s.tb := by
  intros; refine ⟨_, rfl, ?_⟩; split <;> simp

theorem execCalPendingResolve_tb : ∀ k m n s, ∃ t, execCalPendingResolve k m n s = .next t ∧ t.tb = s.tb := by
  intros; refine ⟨_, rfl, ?_⟩; simp

theorem execPulseTest_tb : ∀ k m n p s, ∃ t, execPulseTest k m n p s = .next t ∧ t.tb = s.tb := by
  intros; refine ⟨_, rfl, ?_⟩; simp

@[simp] theorem pulseSample_tb : ∀ k m s, (State.pulseSample k m s).tb = s.tb := by intros; simp [State.pulseSample]

@[simp] theorem pulseClose_tb : ∀ k s, (State.pulseClose k s).tb = s.tb := by intros; simp [State.pulseClose]

@[simp] theorem rebase_tb : ∀ k s, (State.rebase k s).tb = s.tb := by intros; simp [State.rebase]

theorem execPulseLeadingEdge_tb : ∀ k s, ∃ t, execPulseLeadingEdge k s = .next t ∧ t.tb = s.tb := by
  intros; refine ⟨_, rfl, ?_⟩; split <;> simp

theorem execPulseTrailingEdge_tb : ∀ k s, ∃ t, execPulseTrailingEdge k s = .next t ∧ t.tb = s.tb := by
  intros; refine ⟨_, rfl, ?_⟩; simp

@[simp] theorem halfEnd_tb : ∀ k s, (State.halfEnd k s).tb = s.tb := by intros; simp [State.halfEnd]

@[simp] theorem keepBatch_tb : ∀ k m s, (State.keepBatch k m s).tb = s.tb := by intros; simp [State.keepBatch]

@[simp] theorem takeBatch_tb : ∀ k s, (State.takeBatch k s).tb = s.tb := by intros; simp [State.takeBatch]

@[simp] theorem replayBatch_tb : ∀ k s, (State.replayBatch k s).tb = s.tb := by intros; simp [State.replayBatch]

@[simp] theorem replayFrom_tb : ∀ k s, (State.replayFrom k s).tb = s.tb := by intros; unfold State.replayFrom; split <;> simp

@[simp] theorem metrologyReplay_tb : ∀ k m n s, (State.metrologyReplay k m n s).tb = s.tb := by
  intros; simp [State.metrologyReplay]

theorem execMetrologyReplay_tb : ∀ k m n s, ∃ t, execMetrologyReplay k m n s = .next t ∧ t.tb = s.tb := by
  intros; refine ⟨_, rfl, ?_⟩; simp

@[simp] theorem noteCommit_tb : ∀ s, (State.noteCommit s).tb = s.tb := by intros; simp [State.noteCommit]

@[simp] theorem markSteps_tb : ∀ s, (State.markSteps s).tb = s.tb := by intros; simp [State.markSteps]

@[simp] theorem channelsToBlock_tb : ∀ s, (State.channelsToBlock s).tb = s.tb := by intros; simp [State.channelsToBlock]

@[simp] theorem closeQuantities_tb : ∀ k s, (State.closeQuantities k s).tb = s.tb := by intros; simp [State.closeQuantities]

@[simp] theorem boundaryImage_tb : ∀ k s, (State.boundaryImage k s).tb = s.tb := by intros; simp [State.boundaryImage]

@[simp] theorem enforce_tb : ∀ k s, (State.enforce k s).tb = s.tb := by intros; simp [State.enforce]

@[simp] theorem changeDemand_tb : ∀ k s, (State.changeDemand k s).tb = s.tb := by intros; simp [State.changeDemand]

@[simp] theorem closeChanged_tb : ∀ k s, (State.closeChanged k s).tb = s.tb := by
  intros
  unfold State.closeChanged
  exact chain_tb _ _ _ (by intro x s; dsimp only; split <;> simp)

@[simp] theorem afterSettings_tb : ∀ k m n s, (State.afterSettings k m n s).tb = s.tb := by
  intros
  unfold State.afterSettings
  dsimp only
  rw [chain_tb _ _ _ (by intro x s; simp), chain_tb _ _ _ (by intro x s; split <;> simp)]

@[simp] theorem applySettings_tb : ∀ s, (State.applySettings s).tb = s.tb := by intros; simp [State.applySettings]

@[simp] theorem trimsBoundary_tb : ∀ s, (State.trimsBoundary s).tb = s.tb := by
  intros; unfold State.trimsBoundary; dsimp only; split <;> simp

@[simp] theorem saveBoundary_tb : ∀ s, (State.saveBoundary s).tb = s.tb := by intros; unfold State.saveBoundary; split <;> simp

@[simp] theorem bankBoundary_tb : ∀ s, (State.bankBoundary s).tb = s.tb := by intros; simp [State.bankBoundary]

@[simp] theorem cutAsked_tb : ∀ s, (State.cutAsked s).tb = s.tb := by intros; simp [State.cutAsked]

@[simp] theorem closureRecord_tb : ∀ s, (State.closureRecord s).tb = s.tb := by intros; simp [State.closureRecord]

@[simp] theorem openNext_tb : ∀ s, (State.openNext s).tb = s.tb := by intros; simp [State.openNext]

theorem execBlotClear_tb : ∀ k m s, ∃ t, execBlotClear k m s = .next t ∧ t.tb = s.tb := by intros; refine ⟨_, rfl, ?_⟩; simp

theorem execBankEnter_tb : ∀ k s, ∃ t, execBankEnter k s = .next t ∧ t.tb = s.tb := by
  intros; refine ⟨_, rfl, ?_⟩; refine command_keeps (fun s => s.tb) _ _ (by simp) (by simp) ?_; intro s; dsimp only; (repeat' split) <;> simp

theorem execBankExit_tb : ∀ k s, ∃ t, execBankExit k s = .next t ∧ t.tb = s.tb := by intros; refine ⟨_, rfl, ?_⟩; simp

theorem execSoftReset_tb : ∀ k m s, ∃ t, execSoftReset k m s = .next t ∧ t.tb = s.tb := by intros; refine ⟨_, rfl, ?_⟩; simp

theorem execCfgSave_tb : ∀ k s, ∃ t, execCfgSave k s = .next t ∧ t.tb = s.tb := by intros; refine ⟨_, rfl, ?_⟩; simp

theorem execInkLock_tb : ∀ k m s, ∃ t, execInkLock k m s = .next t ∧ t.tb = s.tb := by intros; refine ⟨_, rfl, ?_⟩; simp

@[simp] theorem endLock_tb : ∀ s, (State.endLock s).tb = s.tb := by intros; unfold State.endLock; split <;> simp

theorem execInkUnlock_tb : ∀ k s, ∃ t, execInkUnlock k s = .next t ∧ t.tb = s.tb := by intros; refine ⟨_, rfl, ?_⟩; simp

theorem execInkLockExpiry_tb : ∀ s, ∃ t, execInkLockExpiry s = .next t ∧ t.tb = s.tb := by intros; refine ⟨_, rfl, ?_⟩; simp

@[simp] theorem eventRead_tb : ∀ k m s, (State.eventRead k m s).tb = s.tb := by intros; simp [State.eventRead]

theorem execEventRead_tb : ∀ k m s, ∃ t, execEventRead k m s = .next t ∧ t.tb = s.tb := by intros; refine ⟨_, rfl, ?_⟩; simp

theorem execEventAck_tb : ∀ k m s, ∃ t, execEventAck k m s = .next t ∧ t.tb = s.tb := by intros; refine ⟨_, rfl, ?_⟩; simp

@[simp] theorem profileRead_tb : ∀ k m n s, (State.profileRead k m n s).tb = s.tb := by intros; simp [State.profileRead]

theorem execProfileRead_tb : ∀ k m n s, ∃ t, execProfileRead k m n s = .next t ∧ t.tb = s.tb := by
  intros; refine ⟨_, rfl, ?_⟩; simp

theorem execProfileAck_tb : ∀ k m s, ∃ t, execProfileAck k m s = .next t ∧ t.tb = s.tb := by intros; refine ⟨_, rfl, ?_⟩; simp

theorem execWbRead_tb : ∀ k m n p s, ∃ t, execWbRead k m n p s = .next t ∧ t.tb = s.tb := by
  intros; refine ⟨_, rfl, ?_⟩; refine command_keeps (fun s => s.tb) _ _ (by simp) (by simp) ?_; intro s; (repeat' split) <;> simp

theorem execCapRead_tb : ∀ k m n p s, ∃ t, execCapRead k m n p s = .next t ∧ t.tb = s.tb := by
  intros; refine ⟨_, rfl, ?_⟩; refine command_keeps (fun s => s.tb) _ _ (by simp) (by simp) ?_; intro s; dsimp only; (repeat' split) <;> simp

theorem execCapTrigger_tb : ∀ k s, ∃ t, execCapTrigger k s = .next t ∧ t.tb = s.tb := by
  intros; refine ⟨_, rfl, ?_⟩; refine command_keeps (fun s => s.tb) _ _ (by simp) (by simp) ?_; intro s; dsimp only; (repeat' split) <;> simp

theorem execCapRelease_tb : ∀ k m s, ∃ t, execCapRelease k m s = .next t ∧ t.tb = s.tb := by
  intros; refine ⟨_, rfl, ?_⟩; refine command_keeps (fun s => s.tb) _ _ (by simp) (by simp) ?_; intro s; dsimp only; (repeat' split) <;> simp

@[simp] theorem logRead_tb : ∀ k m n s, (State.logRead k m n s).tb = s.tb := by intros; simp [State.logRead]

theorem execLogRead_tb : ∀ k m n s, ∃ t, execLogRead k m n s = .next t ∧ t.tb = s.tb := by intros; refine ⟨_, rfl, ?_⟩; simp

@[simp] theorem writeLog_tb : ∀ s, (State.writeLog s).tb = s.tb := by
  intros; unfold State.writeLog; dsimp only; (repeat' split) <;> simp

@[simp] theorem fillLog_tb : ∀ k s, (State.fillLog k s).tb = s.tb := by
  intro k s
  induction k generalizing s with
  | zero => rfl
  | succ k ih => unfold State.fillLog; split <;> simp [*]

@[simp] theorem logEcc_tb : ∀ k s, (State.logEcc k s).tb = s.tb := by intros; simp [State.logEcc]

theorem execEventLogWrite_tb : ∀ k s, ∃ t, execEventLogWrite k s = .next t ∧ t.tb = s.tb := by
  intros; refine ⟨_, rfl, ?_⟩; (repeat' split) <;> simp

@[simp] theorem fwCommand_tb : ∀ k m s p, (∀ x, (p x).tb = x.tb) → (State.fwCommand k m s p).tb = s.tb := by
  intros; unfold State.fwCommand; (repeat' split) <;> simp [*]

@[simp] theorem fwState_tb : ∀ k s, (State.fwState k s).tb = s.tb := by intros; simp [State.fwState]

theorem execFwBegin_tb : ∀ k m s, ∃ t, execFwBegin k m s = .next t ∧ t.tb = s.tb := by intros; refine ⟨_, rfl, ?_⟩; simp

theorem execFwWrite_tb : ∀ k m n s, ∃ t, execFwWrite k m n s = .next t ∧ t.tb = s.tb := by intros; refine ⟨_, rfl, ?_⟩; simp

theorem execFwVerify_tb : ∀ k s, ∃ t, execFwVerify k s = .next t ∧ t.tb = s.tb := by intros; refine ⟨_, rfl, ?_⟩; simp

@[simp] theorem restartCores_tb : ∀ s, (State.restartCores s).tb = s.tb := by intros; simp [State.restartCores]

@[simp] theorem noteRecovery_tb : ∀ s, (State.noteRecovery s).tb = s.tb := by intros; simp [State.noteRecovery]

@[simp] theorem revert_tb : ∀ k s, (State.revert k s).tb = s.tb := by intros; simp [State.revert]

@[simp] theorem revertOrHold_tb : ∀ k s, (State.revertOrHold k s).tb = s.tb := by intros; simp [State.revertOrHold]

@[simp] theorem bootSlot_tb : ∀ s, (State.bootSlot s).tb = s.tb := by intros; simp [State.bootSlot]

@[simp] theorem spoilSlot_tb : ∀ k s, (State.spoilSlot k s).tb = s.tb := by intros; simp [State.spoilSlot]

@[simp] theorem loadCores_tb : ∀ k m s, (State.loadCores k m s).tb = s.tb := by intros; simp [State.loadCores]

@[simp] theorem restartAnvil_tb : ∀ k s, (State.restartAnvil k s).tb = s.tb := by intros; simp [State.restartAnvil]

@[simp] theorem selfCheck_tb : ∀ s, (State.selfCheck s).tb = s.tb := by intros; simp [State.selfCheck]

@[simp] theorem switchSlot_tb : ∀ k s, (State.switchSlot k s).tb = s.tb := by intros; simp [State.switchSlot]

theorem execFwActivate_tb : ∀ k s, ∃ t, execFwActivate k s = .next t ∧ t.tb = s.tb := by intros; refine ⟨_, rfl, ?_⟩; simp

@[simp] theorem commitTrial_tb : ∀ s, (State.commitTrial s).tb = s.tb := by intros; simp [State.commitTrial]

theorem execFwTrialEnd_tb : ∀ s, ∃ t, execFwTrialEnd s = .next t ∧ t.tb = s.tb := by intros; refine ⟨_, rfl, ?_⟩; simp

@[simp] theorem heldWrites_tb : ∀ s, (State.heldWrites s).tb = s.tb := by intros; unfold State.heldWrites; split <;> simp

@[simp] theorem sramError_tb : ∀ k s, (State.sramError k s).tb = s.tb := by intros; unfold State.sramError; split <;> simp

theorem execSramScrub_tb : ∀ k s, ∃ t, execSramScrub k s = .next t ∧ t.tb = s.tb := by intros; refine ⟨_, rfl, ?_⟩; simp

@[simp] theorem changeRef_tb : ∀ k s, (State.changeRef k s).tb = s.tb := by intros; simp [State.changeRef]

@[simp] theorem xtalFail_tb : ∀ s, (State.xtalFail s).tb = s.tb := by intros; simp [State.xtalFail]

theorem execXtalFail_tb : ∀ s, ∃ t, execXtalFail s = .next t ∧ t.tb = s.tb := by intros; refine ⟨_, rfl, ?_⟩; simp

theorem execXtalRate_tb : ∀ k s, ∃ t, execXtalRate k s = .next t ∧ t.tb = s.tb := by intros; refine ⟨_, rfl, ?_⟩; simp

@[simp] theorem xtalReturn_tb : ∀ s, (State.xtalReturn s).tb = s.tb := by intros; simp [State.xtalReturn]

theorem execXtalReturn_tb : ∀ s, ∃ t, execXtalReturn s = .next t ∧ t.tb = s.tb := by intros; refine ⟨_, rfl, ?_⟩; simp

theorem execCrystalAccepted_tb : ∀ s, ∃ t, execCrystalAccepted s = .next t ∧ t.tb = s.tb := by intros; refine ⟨_, rfl, ?_⟩; simp

theorem execXtalStartTimeout_tb : ∀ s, ∃ t, execXtalStartTimeout s = .next t ∧ t.tb = s.tb := by intros; refine ⟨_, rfl, ?_⟩; simp

@[simp] theorem addCause_tb : ∀ k s, (State.addCause k s).tb = s.tb := by intros; simp [State.addCause]

@[simp] theorem shed_tb : ∀ s, (State.shed s).tb = s.tb := by intros; simp [State.shed]

@[simp] theorem warn_tb : ∀ k m s, (State.warn k m s).tb = s.tb := by intros; simp [State.warn]

@[simp] theorem warnAgain_tb : ∀ k m s, (State.warnAgain k m s).tb = s.tb := by intros; simp [State.warnAgain]

theorem execPowerFail_tb : ∀ k m s, ∃ t, execPowerFail k m s = .next t ∧ t.tb = s.tb := by intros; refine ⟨_, rfl, ?_⟩; simp

@[simp] theorem writeEntry_tb : ∀ k s, (State.writeEntry k s).tb = s.tb := by intros; simp [State.writeEntry]

@[simp] theorem presentEntry_tb : ∀ s, (State.presentEntry s).tb = s.tb := by intros; simp [State.presentEntry]

@[simp] theorem journalEntry_tb : ∀ s, (State.journalEntry s).tb = s.tb := by
  intros; unfold State.journalEntry; (repeat' split) <;> simp

theorem execJournalEntry_tb : ∀ s, ∃ t, execJournalEntry s = .next t ∧ t.tb = s.tb := by intros; refine ⟨_, rfl, ?_⟩; simp

@[simp] theorem tailUpdate_tb : ∀ s, (State.tailUpdate s).tb = s.tb := by intros; unfold State.tailUpdate; split <;> simp

theorem execTailUpdate_tb : ∀ s, ∃ t, execTailUpdate s = .next t ∧ t.tb = s.tb := by intros; refine ⟨_, rfl, ?_⟩; simp

theorem execJournalErase_tb : ∀ k s, ∃ t, execJournalErase k s = .next t ∧ t.tb = s.tb := by intros; refine ⟨_, rfl, ?_⟩; simp

theorem execPfSustained_tb : ∀ s, ∃ t, execPfSustained s = .next t ∧ t.tb = s.tb := by intros; refine ⟨_, rfl, ?_⟩; simp

@[simp] theorem pfRecovered_tb : ∀ s, (State.pfRecovered s).tb = s.tb := by intros; simp [State.pfRecovered]

theorem execPfRecovered_tb : ∀ s, ∃ t, execPfRecovered s = .next t ∧ t.tb = s.tb := by intros; refine ⟨_, rfl, ?_⟩; simp

@[simp] theorem coldTrims_tb : ∀ k s, (State.coldTrims k s).tb = s.tb := by intros; simp [State.coldTrims]

@[simp] theorem begin_tb : ∀ k m s, (State.begin_ k m s).tb = s.tb := by intros; simp [State.begin_]

@[simp] theorem resetEntry_tb : ∀ s, (State.resetEntry s).tb = s.tb := by intros; simp [State.resetEntry]

theorem execResetnRelease_tb : ∀ k m s, ∃ t, execResetnRelease k m s = .next t ∧ t.tb = s.tb := by
  intros; refine ⟨_, rfl, ?_⟩; simp

@[simp] theorem flushAll_tb : ∀ s, (State.flushAll s).tb = s.tb := by intros; simp [State.flushAll]

@[simp] theorem loseWaiting_tb : ∀ s, (State.loseWaiting s).tb = s.tb := by intros; simp [State.loseWaiting]

@[simp] theorem warmReset_tb : ∀ s, (State.warmReset s).tb = s.tb := by intros; simp [State.warmReset]

@[simp] theorem restartStartup_tb : ∀ s, (State.restartStartup s).tb = s.tb := by intros; simp [State.restartStartup]

theorem execResetnWarm_tb : ∀ k m s, ∃ t, execResetnWarm k m s = .next t ∧ t.tb = s.tb := by intros; refine ⟨_, rfl, ?_⟩; simp

@[simp] theorem anvWdog_tb : ∀ k m s, (State.anvWdog k m s).tb = s.tb := by intros; simp [State.anvWdog]

theorem execAnvWdog_tb : ∀ k m s, ∃ t, execAnvWdog k m s = .next t ∧ t.tb = s.tb := by intros; refine ⟨_, rfl, ?_⟩; simp

theorem execSpiPortReset_tb : ∀ k s, ∃ t, execSpiPortReset k s = .next t ∧ t.tb = s.tb := by
  intros; refine ⟨_, rfl, ?_⟩; split <;> simp

theorem execBrk_tb : ∀ k s, ∃ t, execBrk k s = .next t ∧ t.tb = s.tb := by intros; refine ⟨_, rfl, ?_⟩; simp

theorem execVaonChangeover_tb : ∀ k s, ∃ t, execVaonChangeover k s = .next t ∧ t.tb = s.tb := by intros; refine ⟨_, rfl, ?_⟩; simp

theorem execSupplyLossBoth_tb : ∀ s, ∃ t, execSupplyLossBoth s = .next t ∧ t.tb = s.tb := by intros; refine ⟨_, rfl, ?_⟩; simp

@[simp] theorem fallBack_tb : ∀ k s, (State.fallBack k s).tb = s.tb := by intros; simp [State.fallBack]

@[simp] theorem enterHeld_tb : ∀ s, (State.enterHeld s).tb = s.tb := by intros; simp [State.enterHeld]

@[simp] theorem testSpare_tb : ∀ k m s, (State.testSpare k m s).tb = s.tb := by intros; simp [State.testSpare]

@[simp] theorem testChan_tb : ∀ k m s, (State.testChan k m s).tb = s.tb := by intros; simp [State.testChan]

@[simp] theorem testEngines_tb : ∀ k m s, (State.testEngines k m s).tb = s.tb := by
  intros; unfold State.testEngines; dsimp only; (repeat' split) <;> simp

theorem execStartUpTest_tb : ∀ k m n s, ∃ t, execStartUpTest k m n s = .next t ∧ t.tb = s.tb := by
  intros; refine ⟨_, rfl, ?_⟩; simp

theorem execPortsReady_tb : ∀ s, ∃ t, execPortsReady s = .next t ∧ t.tb = s.tb := by intros; refine ⟨_, rfl, ?_⟩; simp

@[simp] theorem checkImage_tb : ∀ k m s, (State.checkImage k m s).tb = s.tb := by intros; unfold State.checkImage; split <;> simp

@[simp] theorem configured_tb : ∀ k s, (State.configured k s).tb = s.tb := by intros; simp [State.configured]

theorem execCfgRestoreFail_tb : ∀ s, ∃ t, execCfgRestoreFail s = .next t ∧ t.tb = s.tb := by intros; refine ⟨_, rfl, ?_⟩; simp

@[simp] theorem raiseUnmetered_tb : ∀ s, (State.raiseUnmetered s).tb = s.tb := by intros; simp [State.raiseUnmetered]

@[simp] theorem cellAlarm_tb : ∀ k s, (State.cellAlarm k s).tb = s.tb := by intros; simp [State.cellAlarm]

end Sys2Proof.Laws
end

