-- ==== Sys2Proof/Laws/StacksRise.lean ====
section
/-!
SUPPORT. Every operation and every row keeps the in-service stacks rising (R285, R288): an entry is delivered only above
the running priority, and otherwise entries only leave.
-/
namespace Sys2Proof.Laws

open Sys2Proof.Machine

/-- The stacks of an interrupt controller rise strictly, within 1 to 15. -/
def Rises (c : Intc) : Prop :=
  ∀ t : Fin 6, (c.targets[t].stack.map InSvc.prio).Pairwise (· > ·) ∧ ∀ e ∈ c.targets[t].stack, 1 ≤ e.prio ∧ e.prio ≤ 15

theorem stacksRise_iff (s : State) : s.stacksRise ↔ Rises s.intc := Iff.rfl

/-- Stacks from which entries have left at most still rise. -/
theorem Rises.sub {c c' : Intc} (h : Rises c) (hs : ∀ t : Fin 6, (c'.targets[t].stack).Sublist c.targets[t].stack) : Rises c' :=
  fun t => ⟨(h t).1.sublist ((hs t).map _), fun e he => (h t).2 e ((hs t).subset he)⟩

/-- A change of one target that takes entries off its stack at most. -/
theorem Rises.upd {c : Intc} (h : Rises c) (t : Fin 6) (f : Target → Target) (p : List Nat)
    (hf : (f c.targets[t]).stack.Sublist c.targets[t].stack) :
    Rises { pend := p, targets := Machine.upd c.targets t f } := by
  refine h.sub fun q => ?_
  by_cases e : q = t
  · subst e
    have : (Machine.upd c.targets q f)[q] = f c.targets[q] := upd_same _ _ _
    exact this ▸ hf
  · simp [upd_other _ _ _ _ e]

theorem Rises.pend {c : Intc} (h : Rises c) (p : List Nat) : Rises { c with pend := p } := h.sub fun _ => List.Sublist.refl _

theorem fld_lt (w : Word) : fld w 3 0 ≤ 15 := by
  unfold fld; omega

/-- What routing chooses lies above the running priority of its target. -/
theorem chosen_above {s : State} {n : Fin 192} {t : Fin 6} (h : s.chosenTarget n = some t) : s.runPrio t < s.sourcePrio n := by
  have aux : ∀ (l : List (Fin 6)) (b : Option (Fin 6)), (∀ q ∈ l, s.runPrio q < s.sourcePrio n) →
      (∀ q, b = some q → s.runPrio q < s.sourcePrio n) → ∀ t, l.foldl (fun best t => match best with
        | none => some t
        | some b => if s.runPrio t < s.runPrio b then some t else some b) b = some t → s.runPrio t < s.sourcePrio n := by
    intro l
    induction l with
    | nil => intro b _ hb t ht; exact hb t ht
    | cons q l ih =>
      intro b hl hb t ht
      refine ih _ (fun x hx => hl x (List.mem_cons_of_mem _ hx)) ?_ t ht
      intro x hx
      cases b with
      | none => simp only [Option.some.injEq] at hx; exact hx ▸ hl q List.mem_cons_self
      | some b =>
        simp only at hx
        split at hx
        · simp only [Option.some.injEq] at hx; exact hx ▸ hl q List.mem_cons_self
        · exact hb x (by simpa using hx)
  refine aux _ none ?_ (by simp) t h
  intro q hq
  simp only [List.mem_filter, Bool.and_eq_true, decide_eq_true_eq] at hq
  exact hq.2.2

theorem first_above {s : State} {n : Fin 192} {t : Fin 6} (h : s.firstSource = some (n, t)) : s.runPrio t < s.sourcePrio n := by
  have aux : ∀ (l : List (Fin 192 × Fin 6)) (b : Option (Fin 192 × Fin 6)), (∀ q ∈ l, s.runPrio q.2 < s.sourcePrio q.1) →
      (∀ q, b = some q → s.runPrio q.2 < s.sourcePrio q.1) → ∀ x, l.foldl (fun best x => match best with
        | none => some x
        | some b => if s.sourcePrio b.1 < s.sourcePrio x.1 then some x else some b) b = some x →
            s.runPrio x.2 < s.sourcePrio x.1 := by
    intro l
    induction l with
    | nil => intro b _ hb t ht; exact hb t ht
    | cons q l ih =>
      intro b hl hb t ht
      refine ih _ (fun x hx => hl x (List.mem_cons_of_mem _ hx)) ?_ t ht
      intro x hx
      cases b with
      | none => simp only [Option.some.injEq] at hx; exact hx ▸ hl q List.mem_cons_self
      | some b =>
        simp only at hx
        split at hx
        · simp only [Option.some.injEq] at hx; exact hx ▸ hl q List.mem_cons_self
        · exact hb x (by simpa using hx)
  refine aux _ none ?_ (by simp) (n, t) h
  intro q hq
  simp only [List.mem_filterMap, Option.bind_eq_some_iff, Option.map_eq_some_iff] at hq
  obtain ⟨_, _, m, _, t', h1, rfl⟩ := hq
  exact chosen_above h1

/-- A delivery above the running priority keeps the stack rising. -/
theorem deliver_rises {s : State} {n : Fin 192} {t : Fin 6} (h : Rises s.intc) (hp : s.runPrio t < s.sourcePrio n) :
    Rises (s.deliver n t).intc := by
  intro q
  by_cases e : q = t
  · subst e
    have hs : (s.deliver n q).intc.targets[q].stack = ⟨n.val, s.sourcePrio n, s.intc.targets[q].dtag⟩ :: s.intc.targets[q].stack := by
      exact congrArg Target.stack (upd_same s.intc.targets q _)
    rw [hs]
    have htop : ∀ x ∈ s.intc.targets[q].stack, x.prio < s.sourcePrio n := by
      unfold State.runPrio at hp
      have hq := (h q).1
      cases hst : s.intc.targets[q].stack with
      | nil => simp
      | cons y l =>
        rw [hst] at hp hq
        simp only [List.map_cons, List.pairwise_cons, List.mem_map, forall_exists_index, and_imp] at hq
        intro x hx
        rcases List.mem_cons.1 hx with rfl | hx
        · simp only at hp; omega
        · have := hq.1 _ x hx rfl
          simp only at hp; omega
    constructor
    · simp only [List.map_cons, List.pairwise_cons, List.mem_map, forall_exists_index, and_imp]
      exact ⟨fun a x hx hxa => hxa ▸ htop x hx, (h q).1⟩
    · intro x hx
      rcases List.mem_cons.1 hx with rfl | hx
      · exact ⟨by simp only; omega, fld_lt _⟩
      · exact (h q).2 x hx
  · have : (s.deliver n t).intc.targets[q] = s.intc.targets[q] := by simp [State.deliver, upd_other _ _ _ _ e]
    rw [this]; exact h q

@[simp] theorem route_rises : ∀ s : State, Rises s.intc → Rises s.route.intc := by
  have : ∀ (k : Nat) (s : State), Rises s.intc → Rises (s.routeN k).intc := by
    intro k
    induction k with
    | zero => intro s h; exact h
    | succ k ih =>
      intro s h
      unfold State.routeN
      split
      · exact h
      · next n t hf => exact ih _ (deliver_rises h (first_above hf))
  exact fun s h => this 96 s h

@[simp] theorem ite_rises (c : Prop) [Decidable c] (a b : State) (ha : Rises a.intc) (hb : Rises b.intc) :
    Rises (if c then a else b).intc := by split <;> assumption

@[simp] theorem chain_rises {α : Type} (l : List α) (f : α → State → State) (s : State) (h : Rises s.intc)
    (hf : ∀ a s, Rises s.intc → Rises (f a s).intc) : Rises (chain l f s).intc := by
  unfold chain
  induction l generalizing s with
  | nil => exact h
  | cons a l ih => exact ih _ (hf a s h)

theorem command_rises {op : Nat} {r : Req} (body : State → State) (s : State) (h : Rises s.intc)
    (hu : ∀ s : State, Rises s.intc → Rises s.wake.intc)
    (hf : ∀ (st : Status) (s : State), Rises s.intc → Rises (s.fail op r st).intc)
    (hb : ∀ s : State, Rises s.intc → Rises (body s).intc) : Rises (s.command op r body).intc := by
  unfold State.command
  split
  · exact h
  split
  · exact hf _ _ h
  · dsimp only
    have hw : Rises (if isSlow op && decide (op ≠ 0x0503) then s.wake else s).intc := by split <;> simp [hu, h]
    generalize (if isSlow op && decide (op ≠ 0x0503) then s.wake else s) = s0 at *
    repeat' split
    all_goals first | exact hf _ _ hw | exact hb _ hw

@[simp] theorem latch_rises : ∀ (n : Nat) (s : State), Rises s.intc → Rises (s.latch n).intc := by
  intro n s h; unfold State.latch; split
  · exact h.pend _
  · exact h


theorem reset_rises : Rises Intc.reset := by
  intro t
  have : Intc.reset.targets[t] = Target.reset := by simp [Intc.reset]
  rw [this]; exact ⟨List.Pairwise.nil, fun e he => by simp [Target.reset] at he⟩


@[simp] theorem fresh_rises : ∀ s, Rises s.intc → Rises (State.fresh s).2.intc := by
  intro s h; unfold State.fresh; simp (maxDischargeDepth := 20) [h]

@[simp] theorem settingTook_rises : ∀ s, Rises s.intc → Rises (State.settingTook s).intc := by
  intro s h; unfold State.settingTook; simp (maxDischargeDepth := 20) [h]

@[simp] theorem blot_rises : ∀ k s, Rises s.intc → Rises (State.blot k s).intc := by
  intro k s h; unfold State.blot; simp (maxDischargeDepth := 20) [h]

@[simp] theorem unbank_rises : ∀ s, Rises s.intc → Rises (State.unbank s).intc := by
  intro s h; unfold State.unbank; split <;> simp (maxDischargeDepth := 20) [h]

@[simp] theorem wake_rises : ∀ s, Rises s.intc → Rises (State.wake s).intc := by
  intro s h; unfold State.wake; split <;> simp (maxDischargeDepth := 20) [h]

@[simp] theorem wakeFor_rises : ∀ k s, Rises s.intc → Rises (State.wakeFor k s).intc := by
  intro k s h; unfold State.wakeFor; simp (maxDischargeDepth := 20) [h]

@[simp] theorem pendInt_rises : ∀ n s, Rises s.intc → Rises (State.pendInt n s).intc := by
  intro n s h; exact route_rises _ (wakeFor_rises _ _ (latch_rises _ _ h))

@[simp] theorem flushTarget_rises : ∀ k s, Rises s.intc → Rises (State.flushTarget k s).intc := by
  intro k s h; exact wakeFor_rises _ _ (h.upd k _ _ (List.nil_sublist _))

@[simp] theorem toLog_rises : ∀ k s, Rises s.intc → Rises (State.toLog k s).intc := by
  intro k s h; unfold State.toLog; simp (maxDischargeDepth := 20) [h]

@[simp] theorem enter_rises : ∀ k s, Rises s.intc → Rises (State.enter k s).intc := by
  intro k s h; unfold State.enter; split <;> simp (maxDischargeDepth := 20) [h]

@[simp] theorem raiseAs_rises : ∀ k m n p q r u s, Rises s.intc → Rises (State.raiseAs k m n p q r u s).intc := by
  intro k m n p q r u s h; unfold State.raiseAs; dsimp only; (repeat' split) <;> simp (maxDischargeDepth := 20) [h]

@[simp] theorem raiseWith_rises : ∀ k m n p q r s, Rises s.intc → Rises (State.raiseWith k m n p q r s).intc := by
  intro k m n p q r s h; unfold State.raiseWith; simp (maxDischargeDepth := 20) [h]

@[simp] theorem raise_rises : ∀ k m n s, Rises s.intc → Rises (State.raise k m n s).intc := by
  intro k m n s h; unfold State.raise; simp (maxDischargeDepth := 20) [h]

@[simp] theorem logOnly_rises : ∀ k m n s, Rises s.intc → Rises (State.logOnly k m n s).intc := by
  intro k m n s h; unfold State.logOnly; split <;> simp (maxDischargeDepth := 20) [h]

@[simp] theorem note_rises : ∀ k m n p s, Rises s.intc → Rises (State.note k m n p s).intc := by
  intro k m n p s h; unfold State.note; simp (maxDischargeDepth := 20) [h]

@[simp] theorem phase_rises : ∀ k s, Rises s.intc → Rises (State.phase k s).intc := by
  intro k s h; unfold State.phase; simp (maxDischargeDepth := 20) [h]

@[simp] theorem phaseEnds_rises : ∀ k s, Rises s.intc → Rises (State.phaseEnds k s).intc := by
  intro k s h; unfold State.phaseEnds; simp (maxDischargeDepth := 20) [h]

@[simp] theorem onChan_rises : ∀ k m s, Rises s.intc → Rises (State.onChan k m s).intc := by
  intro k m s h; unfold State.onChan; simp (maxDischargeDepth := 20) [h]

@[simp] theorem onSpare_rises : ∀ k m s, Rises s.intc → Rises (State.onSpare k m s).intc := by
  intro k m s h; unfold State.onSpare; simp (maxDischargeDepth := 20) [h]

@[simp] theorem onPt_rises : ∀ k m s, Rises s.intc → Rises (State.onPt k m s).intc := by
  intro k m s h; unfold State.onPt; simp (maxDischargeDepth := 20) [h]

@[simp] theorem onBus_rises : ∀ k m s, Rises s.intc → Rises (State.onBus k m s).intc := by
  intro k m s h; unfold State.onBus; simp (maxDischargeDepth := 20) [h]

@[simp] theorem onPulse_rises : ∀ k m s, Rises s.intc → Rises (State.onPulse k m s).intc := by
  intro k m s h; unfold State.onPulse; simp (maxDischargeDepth := 20) [h]

@[simp] theorem onAlarm_rises : ∀ k m s, Rises s.intc → Rises (State.onAlarm k m s).intc := by
  intro k m s h; unfold State.onAlarm; simp (maxDischargeDepth := 20) [h]

@[simp] theorem onGuard_rises : ∀ k m s, Rises s.intc → Rises (State.onGuard k m s).intc := by
  intro k m s h; unfold State.onGuard; simp (maxDischargeDepth := 20) [h]

@[simp] theorem onRegion_rises : ∀ k m s, Rises s.intc → Rises (State.onRegion k m s).intc := by
  intro k m s h; unfold State.onRegion; simp (maxDischargeDepth := 20) [h]

@[simp] theorem wbDiscard_rises : ∀ k s, Rises s.intc → Rises (State.wbDiscard k s).intc := by
  intro k s h; unfold State.wbDiscard; simp (maxDischargeDepth := 20) [h]

@[simp] theorem reshade_rises : ∀ k s, Rises s.intc → Rises (State.reshade k s).intc := by
  intro k s h; unfold State.reshade; simp (maxDischargeDepth := 20) [h]

@[simp] theorem connectSpare_rises : ∀ k m s, Rises s.intc → Rises (State.connectSpare k m s).intc := by
  intro k m s h; unfold State.connectSpare; simp (maxDischargeDepth := 20) [h]

@[simp] theorem advanceSpare_rises : ∀ k s, Rises s.intc → Rises (State.advanceSpare k s).intc := by
  intro k s h; unfold State.advanceSpare; split <;> simp (maxDischargeDepth := 20) [h]

@[simp] theorem startCheck_rises : ∀ k m s, Rises s.intc → Rises (State.startCheck k m s).intc := by
  intro k m s h; unfold State.startCheck; simp (maxDischargeDepth := 20) [h]

@[simp] theorem nextCheck_rises : ∀ k s, Rises s.intc → Rises (State.nextCheck k s).intc := by
  intro k s h; unfold State.nextCheck; (repeat' split) <;> simp (maxDischargeDepth := 20) [h]

@[simp] theorem endCheck_rises : ∀ k s, Rises s.intc → Rises (State.endCheck k s).intc := by
  intro k s h; unfold State.endCheck; split <;> simp (maxDischargeDepth := 20) [h]

@[simp] theorem abortCheck_rises : ∀ k s, Rises s.intc → Rises (State.abortCheck k s).intc := by
  intro k s h; unfold State.abortCheck; dsimp only; (repeat' split) <;> simp (maxDischargeDepth := 20) [h]

@[simp] theorem queueCheck_rises : ∀ k m s, Rises s.intc → Rises (State.queueCheck k m s).intc := by
  intro k m s h; unfold State.queueCheck; simp (maxDischargeDepth := 20) [h]

@[simp] theorem failChan_rises : ∀ k m s, Rises s.intc → Rises (State.failChan k m s).intc := by
  intro k m s h; unfold State.failChan; simp (maxDischargeDepth := 20) [h]

@[simp] theorem substituted_rises : ∀ k m n p s, Rises s.intc → Rises (State.substituted k m n p s).intc := by
  intro k m n p s h; unfold State.substituted; simp (maxDischargeDepth := 20) [h]

@[simp] theorem takeSpare_rises : ∀ k s, Rises s.intc → Rises (State.takeSpare k s).intc := by
  intro k s h; unfold State.takeSpare; dsimp only; (repeat' split) <;> simp (maxDischargeDepth := 20) [h]

@[simp] theorem forceSpare_rises : ∀ k s, Rises s.intc → Rises (State.forceSpare k s).intc := by
  intro k s h; unfold State.forceSpare; split <;> simp (maxDischargeDepth := 20) [h]

@[simp] theorem startRestore_rises : ∀ k s, Rises s.intc → Rises (State.startRestore k s).intc := by
  intro k s h; unfold State.startRestore; simp (maxDischargeDepth := 20) [h]

@[simp] theorem check_rises : ∀ k s, Rises s.intc → Rises (State.check k s).intc := by
  intro k s h; unfold State.check; dsimp only; (repeat' split) <;> simp (maxDischargeDepth := 20) [h]

@[simp] theorem restoreFailed_rises : ∀ k s, Rises s.intc → Rises (State.restoreFailed k s).intc := by
  intro k s h; unfold State.restoreFailed; simp (maxDischargeDepth := 20) [h]

@[simp] theorem workingFault_rises : ∀ k m s, Rises s.intc → Rises (State.workingFault k m s).intc := by
  intro k m s h; unfold State.workingFault; dsimp only; (repeat' split) <;> simp (maxDischargeDepth := 20) [h]

@[simp] theorem spareDown_rises : ∀ k s, Rises s.intc → Rises (State.spareDown k s).intc := by
  intro k s h; unfold State.spareDown; split <;> simp (maxDischargeDepth := 20) [h]

@[simp] theorem spareFault_rises : ∀ k s, Rises s.intc → Rises (State.spareFault k s).intc := by
  intro k s h; unfold State.spareFault; split <;> simp (maxDischargeDepth := 20) [h]

@[simp] theorem modFault_rises : ∀ k m s, Rises s.intc → Rises (State.modFault k m s).intc := by
  intro k m s h; unfold State.modFault; split <;> simp (maxDischargeDepth := 20) [h]

theorem execModulatorHardFault_rises : ∀ k m s, Rises s.intc →
    ∃ t, execModulatorHardFault k m s = .next t ∧ Rises t.intc := by
  intro k m s h; refine ⟨_, rfl, ?_⟩; simp (maxDischargeDepth := 20) [h]

@[simp] theorem splice_rises : ∀ k s, Rises s.intc → Rises (State.splice k s).intc := by
  intro k s h; unfold State.splice; simp (maxDischargeDepth := 20) [h]

theorem execChSubstituted_rises : ∀ k s, Rises s.intc → ∃ t, execChSubstituted k s = .next t ∧ Rises t.intc := by
  intro k s h; refine ⟨_, rfl, ?_⟩; simp (maxDischargeDepth := 20) [h]

@[simp] theorem lateSplice_rises : ∀ k s, Rises s.intc → Rises (State.lateSplice k s).intc := by
  intro k s h; unfold State.lateSplice; simp (maxDischargeDepth := 20) [h]

theorem execIsolatedParityError_rises : ∀ k s, Rises s.intc → ∃ t, execIsolatedParityError k s = .next t ∧ Rises t.intc := by
  intro k s h; refine ⟨_, rfl, ?_⟩; dsimp only; split
  · simp [h]
  · split <;> simp [h]

@[simp] theorem trimNote_rises : ∀ k m n s, Rises s.intc → Rises (State.trimNote k m n s).intc := by
  intro k m n s h; unfold State.trimNote; simp (maxDischargeDepth := 20) [h]

@[simp] theorem setModTrim_rises : ∀ k m s, Rises s.intc → Rises (State.setModTrim k m s).intc := by
  intro k m s h; unfold State.setModTrim; simp (maxDischargeDepth := 20) [h]

@[simp] theorem askModTrim_rises : ∀ k m s, Rises s.intc → Rises (State.askModTrim k m s).intc := by
  intro k m s h; unfold State.askModTrim; split <;> simp (maxDischargeDepth := 20) [h]

@[simp] theorem trimBoundary_rises : ∀ k s, Rises s.intc → Rises (State.trimBoundary k s).intc := by
  intro k s h; unfold State.trimBoundary; split <;> simp (maxDischargeDepth := 20) [h]

@[simp] theorem spareTrim_rises : ∀ k s, Rises s.intc → Rises (State.spareTrim k s).intc := by
  intro k s h; unfold State.spareTrim; split <;> simp (maxDischargeDepth := 20) [h]

@[simp] theorem setVref_rises : ∀ k s, Rises s.intc → Rises (State.setVref k s).intc := by
  intro k s h; unfold State.setVref; simp (maxDischargeDepth := 20) [h]

@[simp] theorem setOsc_rises : ∀ k s, Rises s.intc → Rises (State.setOsc k s).intc := by
  intro k s h; unfold State.setOsc; simp (maxDischargeDepth := 20) [h]

@[simp] theorem askBkup_rises : ∀ k s, Rises s.intc → Rises (State.askBkup k s).intc := by
  intro k s h; unfold State.askBkup; simp (maxDischargeDepth := 20) [h]

@[simp] theorem bkupDueNow_rises : ∀ s, Rises s.intc → Rises (State.bkupDueNow s).intc := by
  intro s h; unfold State.bkupDueNow; split <;> simp (maxDischargeDepth := 20) [h]

@[simp] theorem askPanelOsc_rises : ∀ k s, Rises s.intc → Rises (State.askPanelOsc k s).intc := by
  intro k s h; unfold State.askPanelOsc; simp (maxDischargeDepth := 20) [h]

@[simp] theorem panelOscNow_rises : ∀ s, Rises s.intc → Rises (State.panelOscNow s).intc := by
  intro s h; unfold State.panelOscNow; split <;> simp (maxDischargeDepth := 20) [h]

@[simp] theorem dropModTrim_rises : ∀ k s, Rises s.intc → Rises (State.dropModTrim k s).intc := by
  intro k s h; unfold State.dropModTrim; split <;> simp (maxDischargeDepth := 20) [h]

@[simp] theorem reloadTrims_rises : ∀ s, Rises s.intc → Rises (State.reloadTrims s).intc := by
  intro s h; unfold State.reloadTrims
  have h1 : Rises (chain (List.finRange 170) (fun n s =>
    if s.trim.mod[n] = fusedMod n then s.dropModTrim n else s.askModTrim n (fusedMod n)) s).intc := by
    refine chain_rises _ _ _ h fun n s h => ?_
    split <;> simp [h]
  revert h1
  generalize chain (List.finRange 170) _ s = s1
  intro h
  dsimp only
  (repeat' split) <;> simp (maxDischargeDepth := 20) [h]

@[simp] theorem chDrift_rises : ∀ k m s, Rises s.intc → Rises (State.chDrift k m s).intc := by
  intro k m s h; unfold State.chDrift; simp (maxDischargeDepth := 20) [h]

@[simp] theorem dwellChecked_rises : ∀ k s, Rises s.intc → Rises (State.dwellChecked k s).intc := by
  intro k s h; unfold State.dwellChecked; dsimp only; (repeat' split) <;> simp (maxDischargeDepth := 20) [h]

@[simp] theorem spareMove_rises : ∀ k m s, Rises s.intc → Rises (State.spareMove k m s).intc := by
  intro k m s h; unfold State.spareMove; dsimp only; (repeat' split) <;> simp (maxDischargeDepth := 20) [h]

theorem execSpareMove_rises : ∀ k m s, Rises s.intc → ∃ t, execSpareMove k m s = .next t ∧ Rises t.intc := by
  intro k m s h; refine ⟨_, rfl, ?_⟩; simp (maxDischargeDepth := 20) [h]

theorem execDriftCheckPhase_rises : ∀ k m s, Rises s.intc → ∃ t, execDriftCheckPhase k m s = .next t ∧ Rises t.intc := by
  intro k m s h; refine ⟨_, rfl, ?_⟩; (repeat' split) <;> simp (maxDischargeDepth := 20) [h]

theorem execChDriftChecked_rises : ∀ k s, Rises s.intc → ∃ t, execChDriftChecked k s = .next t ∧ Rises t.intc := by
  intro k s h; refine ⟨_, rfl, ?_⟩; split <;> simp (maxDischargeDepth := 20) [h]

@[simp] theorem restoreEnd_rises : ∀ k m n s, Rises s.intc → Rises (State.restoreEnd k m n s).intc := by
  intro k m n s h; unfold State.restoreEnd; (repeat' split) <;> simp (maxDischargeDepth := 20) [h]

theorem execChRestored_rises : ∀ k m n s, Rises s.intc → ∃ t, execChRestored k m n s = .next t ∧ Rises t.intc := by
  intro k m n s h; refine ⟨_, rfl, ?_⟩; simp (maxDischargeDepth := 20) [h]

theorem execSuppressionEnd_rises : ∀ k s, Rises s.intc → ∃ t, execSuppressionEnd k s = .next t ∧ Rises t.intc := by
  intro k s h; refine ⟨_, rfl, ?_⟩; dsimp only; (repeat' split) <;> simp (maxDischargeDepth := 20) [h]

theorem execChClip_rises : ∀ k s, Rises s.intc → ∃ t, execChClip k s = .next t ∧ Rises t.intc := by
  intro k s h; refine ⟨_, rfl, ?_⟩; simp (maxDischargeDepth := 20) [h]

@[simp] theorem channelBoundary_rises : ∀ k s, Rises s.intc → Rises (State.channelBoundary k s).intc := by
  intro k s h; unfold State.channelBoundary; simp (maxDischargeDepth := 20) [h]

@[simp] theorem spareBoundary_rises : ∀ k s, Rises s.intc → Rises (State.spareBoundary k s).intc := by
  intro k s h; unfold State.spareBoundary; (repeat' split) <;> simp (maxDischargeDepth := 20) [h]

@[simp] theorem onPort_rises : ∀ k m s, Rises s.intc → Rises (State.onPort k m s).intc := by
  intro k m s h; unfold State.onPort; simp (maxDischargeDepth := 20) [h]

@[simp] theorem onQue_rises : ∀ k m s, Rises s.intc → Rises (State.onQue k m s).intc := by
  intro k m s h; unfold State.onQue; simp (maxDischargeDepth := 20) [h]

@[simp] theorem onSession_rises : ∀ k m s, Rises s.intc → Rises (State.onSession k m s).intc := by
  intro k m s h; unfold State.onSession; simp (maxDischargeDepth := 20) [h]

@[simp] theorem start_rises : ∀ k s, Rises s.intc → Rises (State.start k s).intc := by
  intro k s h; unfold State.start; split <;> simp (maxDischargeDepth := 20) [h]

@[simp] theorem keepActivations_rises : ∀ k s, Rises s.intc → Rises (State.keepActivations k s).intc := by
  intro k s h; unfold State.keepActivations; simp (maxDischargeDepth := 20) [h]

@[simp] theorem endSession_rises : ∀ k m s, Rises s.intc → Rises (State.endSession k m s).intc := by
  intro k m s h; unfold State.endSession; split <;> simp (maxDischargeDepth := 20) [h]

@[simp] theorem endSessions_rises : ∀ k s, Rises s.intc → Rises (State.endSessions k s).intc := by
  intro k s h; unfold State.endSessions; (try dsimp only)
  repeat'
    with_reducible first
      | assumption | apply chain_rises | apply ite_rises | apply endSession_rises | intro _ | split | dsimp only

@[simp] theorem coresDown_rises : ∀ s, Rises s.intc → Rises (State.coresDown s).intc := by
  intro s h; unfold State.coresDown; simp (maxDischargeDepth := 20) [h]

@[simp] theorem popEntry_rises : ∀ k m s, Rises s.intc → Rises (State.popEntry k m s).intc := by
  intro k m s h; unfold State.popEntry; simp (maxDischargeDepth := 20) [h]

@[simp] theorem complete_rises : ∀ k m n p s, Rises s.intc → Rises (State.complete k m n p s).intc := by
  intro k m n p s h; unfold State.complete; dsimp only; (repeat' split) <;> simp (maxDischargeDepth := 20) [h]

@[simp] theorem ok_rises : ∀ k m n s, Rises s.intc → Rises (State.ok k m n s).intc := by
  intro k m n s h; unfold State.ok; simp (maxDischargeDepth := 20) [h]

@[simp] theorem okTo_rises : ∀ k m n s, Rises s.intc → Rises (State.okTo k m n s).intc := by
  intro k m n s h; unfold State.okTo; split <;> simp (maxDischargeDepth := 20) [h]

@[simp] theorem fail_rises : ∀ k m n s, Rises s.intc → Rises (State.fail k m n s).intc := by
  intro k m n s h; simp [State.fail, h]

/-- What a command keeps rising, when its own effect does. -/
theorem served_rises {op : Nat} {r : Req} (body : State → State) (s : State) (h : Rises s.intc)
    (hb : ∀ s : State, Rises s.intc → Rises (body s).intc) : Rises (s.command op r body).intc :=
  command_rises body s h (fun s h => wake_rises s h) (fun _ s h => fail_rises _ _ _ s h) hb

@[simp] theorem acted_rises : ∀ k m s p, Rises s.intc → (∀ x, Rises x.intc → Rises (p x).1.intc) →
    Rises (State.acted k m s p).intc := by
  intro k m s p h hf; unfold State.acted; split <;> simp (maxDischargeDepth := 20) [h, hf]

@[simp] theorem abandonActivation_rises : ∀ s, Rises s.intc → Rises (State.abandonActivation s).intc := by
  intro s h; unfold State.abandonActivation; (try dsimp only)
  repeat'
    with_reducible first
      | assumption | apply chain_rises | apply ite_rises | apply fail_rises | intro _ | split | dsimp only

@[simp] theorem notReady_rises : ∀ k m n s, Rises s.intc → Rises (State.notReady k m n s).intc := by
  intro k m n s h; unfold State.notReady; simp (maxDischargeDepth := 20) [h]

@[simp] theorem softScope_rises : ∀ k s, Rises s.intc → Rises (State.softScope k s).intc := by
  intro k s h; unfold State.softScope; split <;> simp (maxDischargeDepth := 20) [h]

@[simp] theorem settleN_rises : ∀ k s, Rises s.intc → Rises (State.settleN k s).intc := by
  intro k
  induction k with
  | zero => intro s h; exact h
  | succ k ih =>
    intro s h
    unfold State.settleN
    split
    · exact ih _ (endSession_rises _ _ _ h)
    · split
      · exact h
      · exact ih _ (chain_rises _ _ _ h fun a s h => softScope_rises a s h)

@[simp] theorem settleBaud_rises : ∀ s, Rises s.intc → Rises (State.settleBaud s).intc := by
  intro s h; unfold State.settleBaud; dsimp only; (repeat' split) <;> simp (maxDischargeDepth := 20) [h]

@[simp] theorem settle_rises : ∀ s, Rises s.intc → Rises (State.settle s).intc := by
  intro s h; unfold State.settle; simp (maxDischargeDepth := 20) [h]

@[simp] theorem transact_rises : ∀ k m s, Rises s.intc → Rises (State.transact k m s).intc := by
  intro k m s h; unfold State.transact; simp (maxDischargeDepth := 20) [h]

@[simp] theorem delivered_rises : ∀ k m n s, Rises s.intc → Rises (State.delivered k m n s).intc := by
  intro k m n s h; unfold State.delivered; simp (maxDischargeDepth := 20) [h]

@[simp] theorem readPort_rises : ∀ k m s, Rises s.intc → Rises (State.readPort k m s).intc := by
  intro k m s h; unfold State.readPort; dsimp only; (repeat' split) <;> simp (maxDischargeDepth := 20) [h]

theorem execRead_rises : ∀ k m s, Rises s.intc → ∃ t, execRead k m s = .next t ∧ Rises t.intc := by
  intro k m s h; refine ⟨_, rfl, ?_⟩; split <;> simp (maxDischargeDepth := 20) [h]

theorem execStatus_rises : ∀ k s, Rises s.intc → ∃ t, execStatus k s = .next t ∧ Rises t.intc := by
  intro k s h; refine ⟨_, rfl, ?_⟩; split <;> simp (maxDischargeDepth := 20) [h]

theorem execUartReplySent_rises : ∀ s, Rises s.intc → ∃ t, execUartReplySent s = .next t ∧ Rises t.intc := by
  intro s h; refine ⟨_, rfl, ?_⟩; (repeat' split) <;> simp (maxDischargeDepth := 20) [h]

theorem execPortTimeout_rises : ∀ k s, Rises s.intc → ∃ t, execPortTimeout k s = .next t ∧ Rises t.intc := by
  intro k s h; refine ⟨_, rfl, ?_⟩; split <;> simp (maxDischargeDepth := 20) [h]

theorem execUartFrameStall_rises : ∀ s, Rises s.intc → ∃ t, execUartFrameStall s = .next t ∧ Rises t.intc := by
  intro s h; refine ⟨_, rfl, ?_⟩; simp (maxDischargeDepth := 20) [h]

@[simp] theorem replyDropped_rises : ∀ k m s, Rises s.intc → Rises (State.replyDropped k m s).intc := by
  intro k m s h; unfold State.replyDropped; dsimp only; (repeat' split) <;> simp (maxDischargeDepth := 20) [h]

theorem execReplyDropped_rises : ∀ k m s, Rises s.intc → ∃ t, execReplyDropped k m s = .next t ∧ Rises t.intc := by
  intro k m s h; refine ⟨_, rfl, ?_⟩; simp (maxDischargeDepth := 20) [h]

theorem execSessionIdleTimeout_rises : ∀ k s, Rises s.intc → ∃ t, execSessionIdleTimeout k s = .next t ∧ Rises t.intc := by
  intro k s h; refine ⟨_, rfl, ?_⟩; simp (maxDischargeDepth := 20) [h]

theorem execNop_rises : ∀ k m s, Rises s.intc → ∃ t, execNop k m s = .next t ∧ Rises t.intc := by
  intro k m s h; refine ⟨_, rfl, ?_⟩; refine served_rises _ _ h ?_; intro s h; simp (maxDischargeDepth := 20) [h]

theorem execSessionClose_rises : ∀ k s, Rises s.intc → ∃ t, execSessionClose k s = .next t ∧ Rises t.intc := by
  intro k s h; refine ⟨_, rfl, ?_⟩; refine served_rises _ _ h ?_; intro s h; simp (maxDischargeDepth := 20) [h]

theorem execSetPriority_rises : ∀ k m s, Rises s.intc → ∃ t, execSetPriority k m s = .next t ∧ Rises t.intc := by
  intro k m s h; refine ⟨_, rfl, served_rises _ _ h ?_⟩
  intro s h; dsimp only; split
  · exact fail_rises _ _ _ s h
  · exact ok_rises _ _ _ _ (route_rises _ (h.upd _ _ _ (List.Sublist.refl _)))

@[simp] theorem sessionOpen_rises : ∀ k m s, Rises s.intc → Rises (State.sessionOpen k m s).intc := by
  intro r p s h; unfold State.sessionOpen; extract_lets; split
  · exact fail_rises _ _ _ s h
  · have h1 : Rises s.fresh.2.intc := h
    generalize s.fresh = x at h1
    obtain ⟨n, s1⟩ := x
    refine ok_rises _ _ _ _ (ite_rises _ _ _ (raise_rises _ _ _ _ ?_) ?_) <;> exact h1

theorem execSessionOpen_rises : ∀ k m s, Rises s.intc → ∃ t, execSessionOpen k m s = .next t ∧ Rises t.intc := by
  intro k m s h; refine ⟨_, rfl, ?_⟩; refine served_rises _ _ h ?_; intro s h; simp (maxDischargeDepth := 20) [h]

@[simp] theorem grdNotify_rises : ∀ k s, Rises s.intc → Rises (State.grdNotify k s).intc := by
  intro k s h; unfold State.grdNotify; simp (maxDischargeDepth := 20) [h]

@[simp] theorem declareGroup_rises : ∀ k m s, Rises s.intc → Rises (State.declareGroup k m s).intc := by
  intro k m s h; unfold State.declareGroup; (try dsimp only)
  repeat'
    with_reducible first
      | assumption | apply chain_rises | apply ite_rises | apply onGuard_rises | apply grdNotify_rises | intro _
      | split | dsimp only

theorem execGrdSource_rises : ∀ k m s, Rises s.intc → ∃ t, execGrdSource k m s = .next t ∧ Rises t.intc := by
  intro k m s h; refine ⟨_, rfl, ?_⟩; simp (maxDischargeDepth := 20) [h]

theorem execCellScanPeriod_rises : ∀ k m s, Rises s.intc → ∃ t, execCellScanPeriod k m s = .next t ∧ Rises t.intc := by
  intro k m s h; refine ⟨_, rfl, ?_⟩; simp (maxDischargeDepth := 20) [h]

theorem execGrdClock_rises : ∀ s, Rises s.intc → ∃ t, execGrdClock s = .next t ∧ Rises t.intc := by
  intro s h; refine ⟨_, rfl, ?_⟩; simp (maxDischargeDepth := 20) [h]

@[simp] theorem cellReplay_rises : ∀ s, Rises s.intc → Rises (State.cellReplay s).intc := by
  intro s h; unfold State.cellReplay; (try dsimp only)
  repeat'
    with_reducible first
      | assumption | apply chain_rises | apply ite_rises | apply raiseWith_rises | apply pendInt_rises | intro _
      | split | dsimp only

@[simp] theorem arm_rises : ∀ s, Rises s.intc → Rises (State.arm s).intc := by
  intro s h; unfold State.arm; simp (maxDischargeDepth := 20) [h]

@[simp] theorem fdis_rises : ∀ k s, Rises s.intc → Rises (State.fdis k s).intc := by
  intro k s h; unfold State.fdis; simp (maxDischargeDepth := 20) [h]

theorem execGrdClearArm_rises : ∀ k m s, Rises s.intc → ∃ t, execGrdClearArm k m s = .next t ∧ Rises t.intc := by
  intro k m s h; refine ⟨_, rfl, ?_⟩; refine served_rises _ _ h ?_; intro s h; simp (maxDischargeDepth := 20) [h]

@[simp] theorem clearGuards_rises : ∀ k m s, Rises s.intc → Rises (State.clearGuards k m s).intc := by
  intro k m s h; unfold State.clearGuards; (try dsimp only)
  repeat'
    with_reducible first
      | assumption | apply chain_rises | apply ite_rises | apply onGuard_rises | apply raise_rises
      | apply grdNotify_rises | intro _ | split | dsimp only

theorem execGrdClearConfirm_rises : ∀ k m n s, Rises s.intc → ∃ t, execGrdClearConfirm k m n s = .next t ∧ Rises t.intc := by
  intro k m n s h; refine ⟨_, rfl, ?_⟩; refine served_rises _ _ h ?_; intro s h; (repeat' split) <;> simp (maxDischargeDepth := 20) [h]

theorem execGrdChallengeExpiry_rises : ∀ s, Rises s.intc → ∃ t, execGrdChallengeExpiry s = .next t ∧ Rises t.intc := by
  intro s h; refine ⟨_, rfl, ?_⟩; simp (maxDischargeDepth := 20) [h]

theorem execGrdTest_rises : ∀ k m n s, Rises s.intc → ∃ t, execGrdTest k m n s = .next t ∧ Rises t.intc := by
  intro k m n s h; refine ⟨_, rfl, ?_⟩; refine served_rises _ _ h ?_; intro s h; (repeat' split) <;> simp (maxDischargeDepth := 20) [h]

theorem execIdCertRead_rises : ∀ k m n s, Rises s.intc → ∃ t, execIdCertRead k m n s = .next t ∧ Rises t.intc := by
  intro k m n s h; refine ⟨_, rfl, ?_⟩; refine served_rises _ _ h ?_; intro s h; simp (maxDischargeDepth := 20) [h]

@[simp] theorem outOfOrder_rises : ∀ k m n p s, Rises s.intc → Rises (State.outOfOrder k m n p s).intc := by
  intro k m n p s h; unfold State.outOfOrder
  exact route_rises _ (note_rises _ _ _ _ _ ((flushTarget_rises k s h).upd k _ _ (by cases m <;> exact List.Sublist.refl _)))

@[simp] theorem retire_rises : ∀ k m n s, Rises s.intc → Rises (State.retire k m n s).intc := by
  intro k m n s h; unfold State.retire; dsimp only; split
  · next e rest hs =>
    split
    · exact route_rises _ (h.upd k _ _ (by rw [hs]; exact List.sublist_cons_self e rest))
    · split
      · exact h
      · exact outOfOrder_rises _ _ _ _ s h
  · split
    · exact h
    · exact outOfOrder_rises _ _ _ _ s h

@[simp] theorem disableTarget_rises : ∀ k s, Rises s.intc → Rises (State.disableTarget k s).intc := by
  intro k s h; unfold State.disableTarget; simp (maxDischargeDepth := 20) [h]

theorem execIntTimeout_rises : ∀ k s, Rises s.intc → ∃ t, execIntTimeout k s = .next t ∧ Rises t.intc := by
  intro k s h; refine ⟨_, rfl, ?_⟩; split <;> simp (maxDischargeDepth := 20) [h]

@[simp] theorem refCheck_rises : ∀ s, Rises s.intc → Rises (State.refCheck s).intc := by
  intro s h; unfold State.refCheck; simp (maxDischargeDepth := 20) [h]

@[simp] theorem tempCheck_rises : ∀ s, Rises s.intc → Rises (State.tempCheck s).intc := by
  intro s h; unfold State.tempCheck; simp (maxDischargeDepth := 20) [h]

@[simp] theorem vbatReading_rises : ∀ s, Rises s.intc → Rises (State.vbatReading s).intc := by
  intro s h; unfold State.vbatReading; simp (maxDischargeDepth := 20) [h]

@[simp] theorem hallReading_rises : ∀ k s, Rises s.intc → Rises (State.hallReading k s).intc := by
  intro k s h; unfold State.hallReading; (repeat' split) <;> simp (maxDischargeDepth := 20) [h]

@[simp] theorem auxScan_rises : ∀ k m s, Rises s.intc → Rises (State.auxScan k m s).intc := by
  intro k m s h; unfold State.auxScan; split <;> simp (maxDischargeDepth := 20) [h]

theorem execAuxScan_rises : ∀ k m s, Rises s.intc → ∃ t, execAuxScan k m s = .next t ∧ Rises t.intc := by
  intro k m s h; refine ⟨_, rfl, ?_⟩; simp (maxDischargeDepth := 20) [h]

theorem execAuxRead_rises : ∀ k m n s, Rises s.intc → ∃ t, execAuxRead k m n s = .next t ∧ Rises t.intc := by
  intro k m n s h; refine ⟨_, rfl, ?_⟩; refine served_rises _ _ h ?_; intro s h; (repeat' split) <;> simp (maxDischargeDepth := 20) [h]

@[simp] theorem tableLoad_rises : ∀ k m n p q r s, Rises s.intc → Rises (State.tableLoad k m n p q r s).intc := by
  intro k m n p q r s h; unfold State.tableLoad; dsimp only; (repeat' split) <;> simp (maxDischargeDepth := 20) [h]

theorem execPnlTableLoad_rises : ∀ k m n p q r s, Rises s.intc →
    ∃ t, execPnlTableLoad k m n p q r s = .next t ∧ Rises t.intc := by
  intro k m n p q r s h; refine ⟨_, rfl, ?_⟩; refine served_rises _ _ h ?_; intro s h; simp (maxDischargeDepth := 20) [h]

theorem execPnlImageWrite_rises : ∀ k m n p s, Rises s.intc → ∃ t, execPnlImageWrite k m n p s = .next t ∧ Rises t.intc := by
  intro k m n p s h; refine ⟨_, rfl, ?_⟩; refine served_rises _ _ h ?_; intro s h; (repeat' split) <;> simp (maxDischargeDepth := 20) [h]

@[simp] theorem steer_rises : ∀ s, Rises s.intc → Rises (State.steer s).intc := by
  intro s h; unfold State.steer; simp (maxDischargeDepth := 20) [h]

@[simp] theorem pnlDone_rises : ∀ k m n s, Rises s.intc → Rises (State.pnlDone k m n s).intc := by
  intro k m n s h; unfold State.pnlDone; simp (maxDischargeDepth := 20) [h]

@[simp] theorem slotReq_rises : ∀ k m s, Rises s.intc → Rises (State.slotReq k m s).intc := by
  intro k m s h; unfold State.slotReq; split <;> simp (maxDischargeDepth := 20) [h]

@[simp] theorem placeReq_rises : ∀ k m s, Rises s.intc → Rises (State.placeReq k m s).intc := by
  intro k m s h; unfold State.placeReq; split <;> simp (maxDischargeDepth := 20) [h]

@[simp] theorem supersede_rises : ∀ k m s, Rises s.intc → Rises (State.supersede k m s).intc := by
  intro k m s h; unfold State.supersede; simp (maxDischargeDepth := 20) [h]

@[simp] theorem panelUpdate_rises : ∀ k m n s, Rises s.intc → Rises (State.panelUpdate k m n s).1.intc := by
  intro k m n s h; unfold State.panelUpdate; split <;> simp (maxDischargeDepth := 20) [h]

@[simp] theorem pnlUpdate_rises : ∀ k m n p s, Rises s.intc → Rises (State.pnlUpdate k m n p s).intc := by
  intro k m n p s h; exact acted_rises _ _ s _ h fun x hx => panelUpdate_rises m n p x hx

theorem execPnlUpdate_rises : ∀ k m n p s, Rises s.intc → ∃ t, execPnlUpdate k m n p s = .next t ∧ Rises t.intc := by
  intro k m n p s h; refine ⟨_, rfl, ?_⟩; refine served_rises _ _ h ?_; intro s h; simp (maxDischargeDepth := 20) [h]

@[simp] theorem refreshDirty_rises : ∀ s, Rises s.intc → Rises (State.refreshDirty s).intc := by
  intro s h; unfold State.refreshDirty; (try dsimp only)
  repeat'
    with_reducible first
      | assumption | apply chain_rises | apply ite_rises | apply placeReq_rises | intro _ | split | dsimp only

@[simp] theorem startWaiting_rises : ∀ s, Rises s.intc → Rises (State.startWaiting s).intc := by
  intro s h; unfold State.startWaiting; (try dsimp only)
  repeat'
    with_reducible first
      | assumption | apply chain_rises | apply ite_rises | apply onRegion_rises | apply steer_rises | intro _
      | split | dsimp only

@[simp] theorem endRun_rises : ∀ k m n s, Rises s.intc → Rises (State.endRun k m n s).intc := by
  intro k m n s h; unfold State.endRun; simp (maxDischargeDepth := 20) [h]

@[simp] theorem startRun_rises : ∀ k m s, Rises s.intc → Rises (State.startRun k m s).intc := by
  intro k m s h; unfold State.startRun; split <;> simp (maxDischargeDepth := 20) [h]

@[simp] theorem pairEnd_rises : ∀ k s, Rises s.intc → Rises (State.pairEnd k s).intc := by
  intro k s h; unfold State.pairEnd; split <;> simp (maxDischargeDepth := 20) [h]

@[simp] theorem pairStart_rises : ∀ k s, Rises s.intc → Rises (State.pairStart k s).intc := by
  intro k s h; unfold State.pairStart; split <;> simp (maxDischargeDepth := 20) [h]

@[simp] theorem dropPending_rises : ∀ k s, Rises s.intc → Rises (State.dropPending k s).intc := by
  intro k s h; unfold State.dropPending; dsimp only; (repeat' split) <;> simp (maxDischargeDepth := 20) [h]

@[simp] theorem pairBoundary_rises : ∀ s, Rises s.intc → Rises (State.pairBoundary s).intc := by
  intro s h; unfold State.pairBoundary; dsimp only
  have h1 : Rises (chain allRegions State.pairEnd { s with pnl := { s.pnl with second := false } }).intc :=
    chain_rises _ _ _ h fun a s h => pairEnd_rises a s h
  revert h1; generalize chain allRegions State.pairEnd _ = s1; intro h1
  split
  · refine steer_rises _ ?_; exact h1
  · refine steer_rises _ ?_; refine chain_rises _ _ _ h1 ?_; intro a s h; exact pairStart_rises a s h

theorem execPanelPairBoundary_rises : ∀ s, Rises s.intc → ∃ t, execPanelPairBoundary s = .next t ∧ Rises t.intc := by
  intro s h; refine ⟨_, rfl, ?_⟩; simp (maxDischargeDepth := 20) [h]

theorem execPanelFrameBoundary_rises : ∀ s, Rises s.intc → ∃ t, execPanelFrameBoundary s = .next t ∧ Rises t.intc := by
  intro s h; refine ⟨_, rfl, ?_⟩; simp (maxDischargeDepth := 20) [h]

@[simp] theorem faultRegion_rises : ∀ k s, Rises s.intc → Rises (State.faultRegion k s).intc := by
  intro k s h; unfold State.faultRegion; dsimp only; (repeat' split) <;> simp (maxDischargeDepth := 20) [h]

@[simp] theorem panelFault_rises : ∀ s, Rises s.intc → Rises (State.panelFault s).intc := by
  intro s h; unfold State.panelFault State.steer; dsimp only
  refine chain_rises _ _ _ ?_ ?_
  · exact h
  · intro a s h; exact faultRegion_rises a s h

theorem execPanelFault_rises : ∀ k s, Rises s.intc → ∃ t, execPanelFault k s = .next t ∧ Rises t.intc := by
  intro k s h; refine ⟨_, rfl, ?_⟩; simp (maxDischargeDepth := 20) [h]

theorem execRailRead_rises : ∀ k s, Rises s.intc → ∃ t, execRailRead k s = .next t ∧ Rises t.intc := by
  intro k s h; refine ⟨_, rfl, ?_⟩; (repeat' split) <;> simp (maxDischargeDepth := 20) [h]

theorem execRailStep_rises : ∀ s, Rises s.intc → ∃ t, execRailStep s = .next t ∧ Rises t.intc := by
  intro s h; refine ⟨_, rfl, ?_⟩; simp (maxDischargeDepth := 20) [h]

@[simp] theorem closeout_rises : ∀ s, Rises s.intc → Rises (State.closeout s).intc := by
  intro s h; unfold State.closeout State.steer; dsimp only
  refine chain_rises _ _ _ (chain_rises _ _ _ h ?_) ?_
  · intro a s h; exact h
  · intro a s h; exact dropPending_rises a s h

@[simp] theorem recover_rises : ∀ k s, Rises s.intc → Rises (State.recover k s).intc := by
  intro k s h; unfold State.recover; simp (maxDischargeDepth := 20) [h]

@[simp] theorem store_rises : ∀ k m s, Rises s.intc → Rises (State.store k m s).intc := by
  intro k m s h; unfold State.store; simp (maxDischargeDepth := 20) [h]

@[simp] theorem stage_rises : ∀ k m s, Rises s.intc → Rises (State.stage k m s).intc := by
  intro k m s h; unfold State.stage; simp (maxDischargeDepth := 20) [h]

@[simp] theorem noteRejoined_rises : ∀ k m s, Rises s.intc → Rises (State.noteRejoined k m s).intc := by
  intro k m s h; unfold State.noteRejoined; simp (maxDischargeDepth := 20) [h]

@[simp] theorem rejoinComb_rises : ∀ s, Rises s.intc → Rises (State.rejoinComb s).intc := by
  intro s h; unfold State.rejoinComb; split <;> simp (maxDischargeDepth := 20) [h]

@[simp] theorem rejoinMet_rises : ∀ s, Rises s.intc → Rises (State.rejoinMet s).intc := by
  intro s h; unfold State.rejoinMet; split <;> simp (maxDischargeDepth := 20) [h]

@[simp] theorem rejoin_rises : ∀ k m s, Rises s.intc → Rises (State.rejoin k m s).intc := by
  intro k m s h; unfold State.rejoin; simp (maxDischargeDepth := 20) [h]

@[simp] theorem control_rises : ∀ k m s, Rises s.intc → Rises (State.control k m s).intc := by
  intro k m s h; unfold State.control; split <;> simp (maxDischargeDepth := 20) [h]

@[simp] theorem guardControl_rises : ∀ k s, Rises s.intc → Rises (State.guardControl k s).intc := by
  intro k s h; unfold State.guardControl; simp (maxDischargeDepth := 20) [h]

@[simp] theorem askOsc_rises : ∀ k s, Rises s.intc → Rises (State.askOsc k s).intc := by
  intro k s h; unfold State.askOsc; simp (maxDischargeDepth := 20) [h]

@[simp] theorem noteKey_rises : ∀ k s, Rises s.intc → Rises (State.noteKey k s).intc := by
  intro k s h; unfold State.noteKey; simp (maxDischargeDepth := 20) [h]

@[simp] theorem applyWord_rises : ∀ k m n p q s, Rises s.intc → Rises (State.applyWord k m n p q s).intc := by
  intro a0 a1 r a3 a4 s h
  cases r with
  | ch k x => cases x <;> (unfold State.applyWord; first | (simp [h]; done) | (dsimp only; split <;> simp [h]))
  | _ =>
    unfold State.applyWord
    first
    | (simp [h]; done)
    | (dsimp only; split <;> first | (simp [h]; done) | (split <;> simp (maxDischargeDepth := 9) [h]))

@[simp] theorem paramWrite_rises : ∀ k m n p s, Rises s.intc → Rises (State.paramWrite k m n p s).intc := by
  intro req env addr ws s h0
  have hw : ∀ order l s s1, Rises s.intc → State.writeWords req env order l s = .inr s1 → Rises s1.intc := by
    intro order l
    induction l with
    | nil => intro s s1 h0 h; simp only [State.writeWords, Sum.inr.injEq] at h; rw [← h]; exact h0
    | cons x l ih =>
      intro s s1 h0 h
      obtain ⟨a, w⟩ := x
      simp only [State.writeWords] at h
      split at h
      · simp at h
      · exact ih _ _ (applyWord_rises _ _ _ _ _ _ h0) h
  unfold State.paramWrite
  split
  · exact complete_rises _ _ _ _ _ h0
  · next s1 h =>
    refine ok_rises _ _ _ _ ?_
    unfold State.tryWrite at h
    dsimp only at h
    split at h
    · simp at h
    · split at h
      · simp at h
      · exact hw _ _ _ _ h0 h

@[simp] theorem write_rises : ∀ k m n p s, Rises s.intc → Rises (State.write k m n p s).intc := by
  intro k m n p s h; unfold State.write; refine served_rises _ _ h ?_; intro s h; simp (maxDischargeDepth := 20) [h]

theorem execParamWrite_rises : ∀ k m n s, Rises s.intc → ∃ t, execParamWrite k m n s = .next t ∧ Rises t.intc := by
  intro k m n s h; refine ⟨_, rfl, ?_⟩; refine served_rises _ _ h ?_; intro s h; simp (maxDischargeDepth := 20) [h]

theorem execForceSpare_rises : ∀ k m s, Rises s.intc → ∃ t, execForceSpare k m s = .next t ∧ Rises t.intc := by
  intro k m s h; refine ⟨_, rfl, ?_⟩; simp (maxDischargeDepth := 20) [h]

theorem execRestore_rises : ∀ k m s, Rises s.intc → ∃ t, execRestore k m s = .next t ∧ Rises t.intc := by
  intro k m s h; refine ⟨_, rfl, ?_⟩; simp (maxDischargeDepth := 20) [h]

theorem execCheck_rises : ∀ k m s, Rises s.intc → ∃ t, execCheck k m s = .next t ∧ Rises t.intc := by
  intro k m s h; refine ⟨_, rfl, ?_⟩; simp (maxDischargeDepth := 20) [h]

theorem execTrimModWrite_rises : ∀ k m n s, Rises s.intc → ∃ t, execTrimModWrite k m n s = .next t ∧ Rises t.intc := by
  intro k m n s h; refine ⟨_, rfl, ?_⟩; simp (maxDischargeDepth := 20) [h]

theorem execTrimVrefWrite_rises : ∀ k m s, Rises s.intc → ∃ t, execTrimVrefWrite k m s = .next t ∧ Rises t.intc := by
  intro k m s h; refine ⟨_, rfl, ?_⟩; simp (maxDischargeDepth := 20) [h]

theorem execTrimOscWrite_rises : ∀ k m s, Rises s.intc → ∃ t, execTrimOscWrite k m s = .next t ∧ Rises t.intc := by
  intro k m s h; refine ⟨_, rfl, ?_⟩; simp (maxDischargeDepth := 20) [h]

theorem execReload_rises : ∀ k s, Rises s.intc → ∃ t, execReload k s = .next t ∧ Rises t.intc := by
  intro k s h; refine ⟨_, rfl, ?_⟩; simp (maxDischargeDepth := 20) [h]

theorem execRejoin_rises : ∀ k m n s, Rises s.intc → ∃ t, execRejoin k m n s = .next t ∧ Rises t.intc := by
  intro k m n s h; refine ⟨_, rfl, ?_⟩; simp (maxDischargeDepth := 20) [h]

theorem execXreturn_rises : ∀ k s, Rises s.intc → ∃ t, execXreturn k s = .next t ∧ Rises t.intc := by
  intro k s h; refine ⟨_, rfl, ?_⟩; simp (maxDischargeDepth := 20) [h]

theorem execEoi_rises : ∀ k m n p s, Rises s.intc → ∃ t, execEoi k m n p s = .next t ∧ Rises t.intc := by
  intro k m n p s h; refine ⟨_, rfl, ?_⟩; simp (maxDischargeDepth := 20) [h]

theorem execIntTargetDisable_rises : ∀ k m s, Rises s.intc → ∃ t, execIntTargetDisable k m s = .next t ∧ Rises t.intc := by
  intro k m s h; refine ⟨_, rfl, ?_⟩; simp (maxDischargeDepth := 20) [h]

theorem execArm_rises : ∀ k s, Rises s.intc → ∃ t, execArm k s = .next t ∧ Rises t.intc := by
  intro k s h; refine ⟨_, rfl, ?_⟩; simp (maxDischargeDepth := 20) [h]

theorem execFdis_rises : ∀ k m n s, Rises s.intc → ∃ t, execFdis k m n s = .next t ∧ Rises t.intc := by
  intro k m n s h; refine ⟨_, rfl, ?_⟩; simp (maxDischargeDepth := 20) [h]

theorem execRecover_rises : ∀ k m s, Rises s.intc → ∃ t, execRecover k m s = .next t ∧ Rises t.intc := by
  intro k m s h; refine ⟨_, rfl, ?_⟩; simp (maxDischargeDepth := 20) [h]

@[simp] theorem slotCheck_rises : ∀ k m s, Rises s.intc → Rises (State.slotCheck k m s).intc := by
  intro k m s h; unfold State.slotCheck; simp (maxDischargeDepth := 20) [h]

@[simp] theorem latchSlots_rises : ∀ k s, Rises s.intc → Rises (State.latchSlots k s).intc := by
  intro k s h; unfold State.latchSlots; simp (maxDischargeDepth := 20) [h]

@[simp] theorem deliverSlots_rises : ∀ s, Rises s.intc → Rises (State.deliverSlots s).intc := by
  intro s h; unfold State.deliverSlots; simp (maxDischargeDepth := 20) [h]

@[simp] theorem combCompare_rises : ∀ k m n s, Rises s.intc → Rises (State.combCompare k m n s).intc := by
  intro k m n s h; unfold State.combCompare; (try dsimp only)
  repeat'
    with_reducible first
      | assumption | apply chain_rises | apply ite_rises | apply raise_rises | intro _ | split | dsimp only

@[simp] theorem frameLines_rises : ∀ s, Rises s.intc → Rises (State.frameLines s).intc := by
  intro s h; unfold State.frameLines; simp (maxDischargeDepth := 20) [h]

@[simp] theorem acquire_rises : ∀ k s, Rises s.intc → Rises (State.acquire k s).intc := by
  intro k s h; unfold State.acquire; simp (maxDischargeDepth := 20) [h]

@[simp] theorem survey_rises : ∀ s, Rises s.intc → Rises (State.survey s).intc := by
  intro s h; unfold State.survey; simp (maxDischargeDepth := 20) [h]

@[simp] theorem relockFrame_rises : ∀ s, Rises s.intc → Rises (State.relockFrame s).intc := by
  intro s h; unfold State.relockFrame; simp (maxDischargeDepth := 20) [h]

@[simp] theorem handOffFrame_rises : ∀ s, Rises s.intc → Rises (State.handOffFrame s).intc := by
  intro s h; unfold State.handOffFrame; simp (maxDischargeDepth := 20) [h]

@[simp] theorem takePins_rises : ∀ s, Rises s.intc → Rises (State.takePins s).intc := by
  intro s h; unfold State.takePins; simp (maxDischargeDepth := 20) [h]

@[simp] theorem combFrame_rises : ∀ k m n p s, Rises s.intc → Rises (State.combFrame k m n p s).intc := by
  intro k m n p s h; unfold State.combFrame; dsimp only
  have h1 : Rises (chain ((List.finRange 170).map fun n => (n, s.latchOf k n)) (State.slotCheck s.slots) (s.latchSlots k)).intc := by
    refine chain_rises _ _ _ (latchSlots_rises k s h) ?_
    intro a s h; exact slotCheck_rises _ a s h
  revert h1; generalize chain _ _ (s.latchSlots k) = s1; intro h1
  have h2 := survey_rises _ (frameLines_rises _ (deliverSlots_rises _ (combCompare_rises m n p s1 h1)))
  revert h2; generalize ((s1.combCompare m n p).deliverSlots.frameLines.survey : State) = s2; intro h2
  split
  · refine handOffFrame_rises _ (takePins_rises _ (relockFrame_rises _ ?_)); exact h2
  · refine takePins_rises _ (relockFrame_rises _ ?_); exact h2

theorem execCombFrame_rises : ∀ k m n p s, Rises s.intc → ∃ t, execCombFrame k m n p s = .next t ∧ Rises t.intc := by
  intro k m n p s h; refine ⟨_, rfl, ?_⟩; simp (maxDischargeDepth := 20) [h]

theorem execEngFenced_rises : ∀ k s, Rises s.intc → ∃ t, execEngFenced k s = .next t ∧ Rises t.intc := by
  intro k s h; refine ⟨_, rfl, ?_⟩; (try dsimp only)
  repeat'
    with_reducible first
      | assumption | apply chain_rises | apply ite_rises | apply lateSplice_rises | apply note_rises | intro _
      | split | dsimp only

@[simp] theorem book_rises : ∀ k m n s, Rises s.intc → Rises (State.book k m n s).intc := by
  intro k m n s h; unfold State.book; (try dsimp only)
  repeat'
    with_reducible first
      | assumption | apply chain_rises | apply ite_rises | apply onPt_rises | apply blot_rises
      | apply raiseWith_rises | intro _ | split | dsimp only

@[simp] theorem closePoint_rises : ∀ k s, Rises s.intc → Rises (State.closePoint k s).intc := by
  intro k s h; unfold State.closePoint; split <;> simp (maxDischargeDepth := 20) [h]

@[simp] theorem closeBalance_rises : ∀ k s, Rises s.intc → Rises (State.closeBalance k s).intc := by
  intro k s h; unfold State.closeBalance; split <;> simp (maxDischargeDepth := 20) [h]

@[simp] theorem closeDc_rises : ∀ k s, Rises s.intc → Rises (State.closeDc k s).intc := by
  intro k s h; unfold State.closeDc; simp (maxDischargeDepth := 20) [h]

@[simp] theorem startCapture_rises : ∀ k m n s, Rises s.intc → Rises (State.startCapture k m n s).intc := by
  intro k m n s h; unfold State.startCapture; simp (maxDischargeDepth := 20) [h]

@[simp] theorem trigger_rises : ∀ k m s, Rises s.intc → Rises (State.trigger k m s).intc := by
  intro k m s h; unfold State.trigger; (repeat' split) <;> simp (maxDischargeDepth := 20) [h]

@[simp] theorem triggerBy_rises : ∀ k m s, Rises s.intc → Rises (State.triggerBy k m s).intc := by
  intro k m s h; unfold State.triggerBy; split <;> simp (maxDischargeDepth := 20) [h]

@[simp] theorem dueTrigger_rises : ∀ k s, Rises s.intc → Rises (State.dueTrigger k s).intc := by
  intro k s h; unfold State.dueTrigger; split <;> simp (maxDischargeDepth := 20) [h]

@[simp] theorem enterDue_rises : ∀ k s, Rises s.intc → Rises (State.enterDue k s).intc := by
  intro k s h; unfold State.enterDue; split <;> simp (maxDischargeDepth := 20) [h]

@[simp] theorem due_rises : ∀ k m n p q r u s, Rises s.intc → Rises (State.due k m n p q r u s).intc := by
  intro k m n p q r u s h; unfold State.due; simp (maxDischargeDepth := 20) [h]

@[simp] theorem flushDue_rises : ∀ s, Rises s.intc → Rises (State.flushDue s).intc := by
  intro s h; unfold State.flushDue; (try dsimp only)
  repeat'
    with_reducible first
      | assumption | apply chain_rises | apply ite_rises | apply due_rises | apply enterDue_rises | intro _
      | split | dsimp only

theorem execCaptureFilled_rises : ∀ k s, Rises s.intc → ∃ t, execCaptureFilled k s = .next t ∧ Rises t.intc := by
  intro k s h; refine ⟨_, rfl, ?_⟩; simp (maxDischargeDepth := 20) [h]

theorem execCaptureKeepExpiry_rises : ∀ k s, Rises s.intc → ∃ t, execCaptureKeepExpiry k s = .next t ∧ Rises t.intc := by
  intro k s h; refine ⟨_, rfl, ?_⟩; simp (maxDischargeDepth := 20) [h]

@[simp] theorem completeEvent_rises : ∀ k m n p q r u s, Rises s.intc →
    Rises (State.completeEvent k m n p q r u s).intc := by
  intro k m n p q r u s h; unfold State.completeEvent; simp (maxDischargeDepth := 20) [h]

@[simp] theorem autoFreeze_rises : ∀ k s, Rises s.intc → Rises (State.autoFreeze k s).intc := by
  intro k s h; unfold State.autoFreeze; (try dsimp only)
  repeat'
    with_reducible first
      | assumption | apply chain_rises | apply ite_rises | apply onChan_rises | apply onBus_rises | intro _
      | split | dsimp only

@[simp] theorem freezeCount_rises : ∀ k m s, Rises s.intc → Rises (State.freezeCount k m s).intc := by
  intro k m s h; unfold State.freezeCount; simp (maxDischargeDepth := 20) [h]

theorem execAutoFreezeEnd_rises : ∀ k s, Rises s.intc → ∃ t, execAutoFreezeEnd k s = .next t ∧ Rises t.intc := by
  intro k s h; refine ⟨_, rfl, ?_⟩; simp (maxDischargeDepth := 20) [h]

@[simp] theorem rvcValue_rises : ∀ k m n p s, Rises s.intc → Rises (State.rvcValue k m n p s).intc := by
  intro k m n p s h; unfold State.rvcValue; split <;> simp (maxDischargeDepth := 20) [h]

@[simp] theorem startEvent_rises : ∀ k m n p q s, Rises s.intc → Rises (State.startEvent k m n p q s).intc := by
  intro k m n p q s h; unfold State.startEvent; split <;> simp (maxDischargeDepth := 20) [h]

@[simp] theorem eventStep_rises : ∀ k m n p s, Rises s.intc → Rises (State.eventStep k m n p s).intc := by
  intro k m n p s h; unfold State.eventStep; (repeat' split) <;> simp (maxDischargeDepth := 20) [h]

@[simp] theorem flagBefore_rises : ∀ k s, Rises s.intc → Rises (State.flagBefore k s).intc := by
  intro k s h; unfold State.flagBefore; simp (maxDischargeDepth := 20) [h]

@[simp] theorem halfCycle_rises : ∀ k m s, Rises s.intc → Rises (State.halfCycle k m s).intc := by
  intro k m s h; unfold State.halfCycle; (try dsimp only)
  repeat'
    with_reducible first
      | assumption | apply chain_rises | apply ite_rises | apply eventStep_rises | apply rvcValue_rises
      | apply flagBefore_rises | apply onBus_rises | intro _ | split | dsimp only

@[simp] theorem powerFailEvents_rises : ∀ s, Rises s.intc → Rises (State.powerFailEvents s).intc := by
  intro s h; unfold State.powerFailEvents; (try dsimp only)
  repeat'
    with_reducible first
      | assumption | apply chain_rises | apply ite_rises | apply completeEvent_rises | apply onBus_rises
      | apply freezeCount_rises | apply flushDue_rises | intro _ | split | dsimp only

@[simp] theorem detected_rises : ∀ k m n p q r s, Rises s.intc → Rises (State.detected k m n p q r s).intc := by
  intro k m n p q r s h; unfold State.detected; simp (maxDischargeDepth := 20) [h]

@[simp] theorem neutralLost_rises : ∀ k s, Rises s.intc → Rises (State.neutralLost k s).intc := by
  intro k s h; unfold State.neutralLost; simp (maxDischargeDepth := 20) [h]

@[simp] theorem neutralBypass_rises : ∀ k s, Rises s.intc → Rises (State.neutralBypass k s).intc := by
  intro k s h; unfold State.neutralBypass; split <;> simp (maxDischargeDepth := 20) [h]

@[simp] theorem reverseFlow_rises : ∀ k s, Rises s.intc → Rises (State.reverseFlow k s).intc := by
  intro k s h; unfold State.reverseFlow; simp (maxDischargeDepth := 20) [h]

@[simp] theorem cycleDetectors_rises : ∀ s, Rises s.intc → Rises (State.cycleDetectors s).intc := by
  intro s h; unfold State.cycleDetectors; (try dsimp only)
  repeat'
    with_reducible first
      | assumption | apply chain_rises | apply ite_rises | apply neutralLost_rises | apply neutralBypass_rises
      | apply reverseFlow_rises | intro _ | split | dsimp only

@[simp] theorem wrongSequence_rises : ∀ k s, Rises s.intc → Rises (State.wrongSequence k s).intc := by
  intro k s h; unfold State.wrongSequence; simp (maxDischargeDepth := 20) [h]

@[simp] theorem dcPresent_rises : ∀ k s, Rises s.intc → Rises (State.dcPresent k s).intc := by
  intro k s h; unfold State.dcPresent; simp (maxDischargeDepth := 20) [h]

@[simp] theorem magnet_rises : ∀ s, Rises s.intc → Rises (State.magnet s).intc := by
  intro s h; unfold State.magnet; simp (maxDischargeDepth := 20) [h]

@[simp] theorem blockDetectors_rises : ∀ s, Rises s.intc → Rises (State.blockDetectors s).intc := by
  intro s h; unfold State.blockDetectors; (try dsimp only)
  repeat'
    with_reducible first
      | assumption | apply chain_rises | apply ite_rises | apply dcPresent_rises | apply wrongSequence_rises
      | apply magnet_rises | intro _ | split | dsimp only

@[simp] theorem startSet_rises : ∀ s, Rises s.intc → Rises (State.startSet s).intc := by
  intro s h; unfold State.startSet; simp (maxDischargeDepth := 20) [h]

@[simp] theorem publishSet_rises : ∀ s, Rises s.intc → Rises (State.publishSet s).intc := by
  intro s h; unfold State.publishSet; simp (maxDischargeDepth := 20) [h]

theorem execWbSetEnd_rises : ∀ s, Rises s.intc → ∃ t, execWbSetEnd s = .next t ∧ Rises t.intc := by
  intro s h; refine ⟨_, rfl, ?_⟩; simp (maxDischargeDepth := 20) [h]

@[simp] theorem refill_rises : ∀ s, Rises s.intc → Rises (State.refill s).intc := by
  intro s h; unfold State.refill; split <;> simp (maxDischargeDepth := 20) [h]

@[simp] theorem seal_rises : ∀ k s, Rises s.intc → Rises (State.seal k s).intc := by
  intro k s h; unfold State.seal; split <;> simp (maxDischargeDepth := 20) [h]

@[simp] theorem cut_rises : ∀ k m s, Rises s.intc → Rises (State.cut k m s).intc := by
  intro k m s h; unfold State.cut; simp (maxDischargeDepth := 20) [h]

theorem execFolioSealed_rises : ∀ k s, Rises s.intc → ∃ t, execFolioSealed k s = .next t ∧ Rises t.intc := by
  intro k s h; refine ⟨_, rfl, ?_⟩; simp (maxDischargeDepth := 20) [h]

@[simp] theorem writeRecord_rises : ∀ k s, Rises s.intc → Rises (State.writeRecord k s).intc := by
  intro k s h; unfold State.writeRecord; simp (maxDischargeDepth := 20) [h]

@[simp] theorem writeCheckpoint_rises : ∀ s, Rises s.intc → Rises (State.writeCheckpoint s).intc := by
  intro s h; unfold State.writeCheckpoint; simp (maxDischargeDepth := 20) [h]

@[simp] theorem checkpoint_rises : ∀ s, Rises s.intc → Rises (State.checkpoint s).intc := by
  intro s h; unfold State.checkpoint; simp (maxDischargeDepth := 20) [h]

@[simp] theorem extraCheckpoint_rises : ∀ s, Rises s.intc → Rises (State.extraCheckpoint s).intc := by
  intro s h; unfold State.extraCheckpoint; simp (maxDischargeDepth := 20) [h]

@[simp] theorem reloadCell_rises : ∀ k m s, Rises s.intc → Rises (State.reloadCell k m s).intc := by
  intro k m s h; unfold State.reloadCell; split <;> simp (maxDischargeDepth := 20) [h]

@[simp] theorem lostInterval_rises : ∀ s, Rises s.intc → Rises (State.lostInterval s).intc := by
  intro s h; unfold State.lostInterval; simp (maxDischargeDepth := 20) [h]

@[simp] theorem accLost_rises : ∀ k s, Rises s.intc → Rises (State.accLost k s).intc := by
  intro k s h; unfold State.accLost; dsimp only; (repeat' split) <;> simp (maxDischargeDepth := 20) [h]

@[simp] theorem fenceBank_rises : ∀ k s, Rises s.intc → Rises (State.fenceBank k s).intc := by
  intro k s h; unfold State.fenceBank; simp (maxDischargeDepth := 20) [h]

@[simp] theorem rewrite_rises : ∀ k m s, Rises s.intc → Rises (State.rewrite k m s).intc := by
  intro k m s h; unfold State.rewrite; simp (maxDischargeDepth := 20) [h]

@[simp] theorem accError_rises : ∀ k m s, Rises s.intc → Rises (State.accError k m s).intc := by
  intro k m s h; unfold State.accError; simp (maxDischargeDepth := 20) [h]

@[simp] theorem accErrors_rises : ∀ k s, Rises s.intc → Rises (State.accErrors k s).intc := by
  intro k s h; unfold State.accErrors; (try dsimp only)
  repeat'
    with_reducible first
      | assumption | apply chain_rises | apply ite_rises | apply accError_rises | intro _ | split | dsimp only

theorem execAccScrub_rises : ∀ k s, Rises s.intc → ∃ t, execAccScrub k s = .next t ∧ Rises t.intc := by
  intro k s h; refine ⟨_, rfl, ?_⟩; simp (maxDischargeDepth := 20) [h]

@[simp] theorem closeChannel_rises : ∀ k z n s, Rises s.intc → Rises (State.closeChannel k z n s).intc := by
  intro k z n s h; unfold State.closeChannel; simp (maxDischargeDepth := 20) [h]

@[simp] theorem closeBus_rises : ∀ k z n s, Rises s.intc → Rises (State.closeBus k z n s).intc := by
  intro k z n s h; unfold State.closeBus; simp (maxDischargeDepth := 20) [h]

@[simp] theorem close150_rises : ∀ k s, Rises s.intc → Rises (State.close150 k s).intc := by
  intro k s h; unfold State.close150; simp (maxDischargeDepth := 20) [h]

theorem execAggregateClose_rises : ∀ s, Rises s.intc → ∃ t, execAggregateClose s = .next t ∧ Rises t.intc := by
  intro s h; refine ⟨_, rfl, ?_⟩; simp (maxDischargeDepth := 20) [h]

@[simp] theorem applyNomf_rises : ∀ s, Rises s.intc → Rises (State.applyNomf s).intc := by
  intro s h; unfold State.applyNomf; simp (maxDischargeDepth := 20) [h]

@[simp] theorem asEnded_rises : ∀ s, Rises s.intc → Rises (State.asEnded s).intc := by
  intro s h; unfold State.asEnded; simp (maxDischargeDepth := 20) [h]

@[simp] theorem closeBlock_rises : ∀ k s, Rises s.intc → Rises (State.closeBlock k s).intc := by
  intro k s h; unfold State.closeBlock; (try dsimp only)
  repeat'
    with_reducible first
      | assumption | apply chain_rises | apply ite_rises | apply asEnded_rises | apply blockDetectors_rises
      | apply closeBus_rises | apply closeChannel_rises | apply flushDue_rises | apply applyNomf_rises
      | apply cut_rises | intro _ | split | dsimp only

theorem execBlockClose_rises : ∀ s, Rises s.intc → ∃ t, execBlockClose s = .next t ∧ Rises t.intc := by
  intro s h; refine ⟨_, rfl, ?_⟩; simp (maxDischargeDepth := 20) [h]

@[simp] theorem countedAggs_rises : ∀ s, Rises s.intc → Rises (State.countedAggs s).intc := by
  intro s h; unfold State.countedAggs; simp (maxDischargeDepth := 20) [h]

@[simp] theorem tenMinuteTick_rises : ∀ s, Rises s.intc → Rises (State.tenMinuteTick s).intc := by
  intro s h; unfold State.tenMinuteTick; simp (maxDischargeDepth := 20) [h]

theorem execTenMinuteTick_rises : ∀ s, Rises s.intc → ∃ t, execTenMinuteTick s = .next t ∧ Rises t.intc := by
  intro s h; refine ⟨_, rfl, ?_⟩; simp (maxDischargeDepth := 20) [h]

@[simp] theorem frequencyClose_rises : ∀ s, Rises s.intc → Rises (State.frequencyClose s).intc := by
  intro s h; unfold State.frequencyClose; simp (maxDischargeDepth := 20) [h]

theorem execFrequencyIntervalClose_rises : ∀ s, Rises s.intc →
    ∃ t, execFrequencyIntervalClose s = .next t ∧ Rises t.intc := by
  intro s h; refine ⟨_, rfl, ?_⟩; simp (maxDischargeDepth := 20) [h]

@[simp] theorem changeUdin_rises : ∀ k s, Rises s.intc → Rises (State.changeUdin k s).intc := by
  intro k s h; unfold State.changeUdin; (try dsimp only)
  repeat'
    with_reducible first
      | assumption | apply chain_rises | apply ite_rises | apply onBus_rises | apply cut_rises
      | apply onChan_rises | intro _ | split | dsimp only

@[simp] theorem udinNow_rises : ∀ s, Rises s.intc → Rises (State.udinNow s).intc := by
  intro s h; unfold State.udinNow; (try dsimp only)
  repeat'
    with_reducible first
      | assumption | apply chain_rises | apply ite_rises | apply changeUdin_rises | intro _ | split | dsimp only

@[simp] theorem spoilFolio_rises : ∀ k m n s, Rises s.intc → Rises (State.spoilFolio k m n s).intc := by
  intro k m n s h; unfold State.spoilFolio; simp (maxDischargeDepth := 20) [h]

@[simp] theorem spoilRead_rises : ∀ k s, Rises s.intc → Rises (State.spoilRead k s).intc := by
  intro k s h; unfold State.spoilRead; split <;> simp (maxDischargeDepth := 20) [h]

@[simp] theorem noteUncorr_rises : ∀ k s, Rises s.intc → Rises (State.noteUncorr k s).intc := by
  intro k s h; unfold State.noteUncorr; simp (maxDischargeDepth := 20) [h]

@[simp] theorem readError_rises : ∀ k s, Rises s.intc → Rises (State.readError k s).intc := by
  intro k s h; unfold State.readError; simp (maxDischargeDepth := 20) [h]

@[simp] theorem onFolio_rises : ∀ k m n s q, Rises s.intc → (∀ x, Rises (q x).intc) →
    Rises (State.onFolio k m n s q).intc := by
  intro k m n s q h hf; unfold State.onFolio; split <;> simp (maxDischargeDepth := 20) [h, hf]

theorem execFolioRead_rises : ∀ k m n p q s, Rises s.intc → ∃ t, execFolioRead k m n p q s = .next t ∧ Rises t.intc := by
  intro k m n p q s h; refine ⟨_, rfl, ?_⟩; refine served_rises _ _ h ?_; intro s h; (try dsimp only)
  repeat'
    with_reducible first
      | assumption | apply chain_rises | apply ite_rises | apply command_rises | apply fail_rises
      | apply onFolio_rises | apply readError_rises | apply ok_rises | intro _ | split | dsimp only

@[simp] theorem grant_rises : ∀ k m n s, Rises s.intc → Rises (State.grant k m n s).1.intc := by
  intro k m n s h; unfold State.grant; dsimp only; (repeat' split) <;> simp (maxDischargeDepth := 20) [h]

@[simp] theorem lease_rises : ∀ k m n s, Rises s.intc → Rises (State.lease k m n s).1.intc := by
  intro k m n s h; unfold State.lease; (repeat' split) <;> simp (maxDischargeDepth := 20) [h]

theorem execFolioLease_rises : ∀ k m n s, Rises s.intc → ∃ t, execFolioLease k m n s = .next t ∧ Rises t.intc := by
  intro k m n s h; refine ⟨_, rfl, ?_⟩; refine served_rises _ _ h ?_; intro s h; (try dsimp only)
  repeat'
    with_reducible first
      | assumption | apply chain_rises | apply ite_rises | apply command_rises | apply acted_rises
      | apply lease_rises | intro _ | split | dsimp only

@[simp] theorem endLease_rises : ∀ k m s, Rises s.intc → Rises (State.endLease k m s).intc := by
  intro k m s h; unfold State.endLease; simp (maxDischargeDepth := 20) [h]

@[simp] theorem renew_rises : ∀ k m n s, Rises s.intc → Rises (State.renew k m n s).1.intc := by
  intro k m n s h; unfold State.renew; split <;> simp (maxDischargeDepth := 20) [h]

theorem execFolioRenew_rises : ∀ k m n s, Rises s.intc → ∃ t, execFolioRenew k m n s = .next t ∧ Rises t.intc := by
  intro k m n s h; refine ⟨_, rfl, ?_⟩; refine served_rises _ _ h ?_; intro s h; (try dsimp only)
  repeat'
    with_reducible first
      | assumption | apply chain_rises | apply ite_rises | apply command_rises | apply acted_rises
      | apply renew_rises | intro _ | split | dsimp only

@[simp] theorem release_rises : ∀ k m s, Rises s.intc → Rises (State.release k m s).1.intc := by
  intro k m s h; unfold State.release; split <;> simp (maxDischargeDepth := 20) [h]

theorem execFolioRelease_rises : ∀ k m s, Rises s.intc → ∃ t, execFolioRelease k m s = .next t ∧ Rises t.intc := by
  intro k m s h; refine ⟨_, rfl, ?_⟩; refine served_rises _ _ h ?_; intro s h; (try dsimp only)
  repeat'
    with_reducible first
      | assumption | apply chain_rises | apply ite_rises | apply command_rises | apply acted_rises
      | apply release_rises | intro _ | split | dsimp only

theorem execLeaseExpiry_rises : ∀ k m s, Rises s.intc → ∃ t, execLeaseExpiry k m s = .next t ∧ Rises t.intc := by
  intro k m s h; refine ⟨_, rfl, ?_⟩; simp (maxDischargeDepth := 20) [h]

@[simp] theorem demandCut_rises : ∀ s, Rises s.intc → Rises (State.demandCut s).1.intc := by
  intro s h; unfold State.demandCut; split <;> simp (maxDischargeDepth := 20) [h]

theorem execFolioCut_rises : ∀ k s, Rises s.intc → ∃ t, execFolioCut k s = .next t ∧ Rises t.intc := by
  intro k s h; refine ⟨_, rfl, ?_⟩; refine served_rises _ _ h ?_; intro s h; (try dsimp only)
  repeat'
    with_reducible first
      | assumption | apply chain_rises | apply ite_rises | apply command_rises | apply acted_rises
      | apply demandCut_rises | intro _ | split | dsimp only

theorem execFolioSealGet_rises : ∀ k m s, Rises s.intc → ∃ t, execFolioSealGet k m s = .next t ∧ Rises t.intc := by
  intro k m s h; refine ⟨_, rfl, ?_⟩; refine served_rises _ _ h ?_; intro s h; simp (maxDischargeDepth := 20) [h]

theorem execParamRead_rises : ∀ k m n s, Rises s.intc → ∃ t, execParamRead k m n s = .next t ∧ Rises t.intc := by
  intro k m n s h; refine ⟨_, rfl, ?_⟩; refine served_rises _ _ h ?_; intro s h; simp (maxDischargeDepth := 20) [h]

theorem execScRead_rises : ∀ k m n p s, Rises s.intc → ∃ t, execScRead k m n p s = .next t ∧ Rises t.intc := by
  intro k m n p s h; refine ⟨_, rfl, ?_⟩; refine served_rises _ _ h ?_; intro s h; simp (maxDischargeDepth := 20) [h]

theorem execBlotRead_rises : ∀ k s, Rises s.intc → ∃ t, execBlotRead k s = .next t ∧ Rises t.intc := by
  intro k s h; refine ⟨_, rfl, ?_⟩; refine served_rises _ _ h ?_; intro s h; simp (maxDischargeDepth := 20) [h]

@[simp] theorem reject_rises : ∀ k m s, Rises s.intc → Rises (State.reject k m s).intc := by
  intro k m s h; unfold State.reject; split <;> simp (maxDischargeDepth := 20) [h]

@[simp] theorem judgeAdmitted_rises : ∀ k s, Rises s.intc → Rises (State.judgeAdmitted k s).1.intc := by
  intro k s h; unfold State.judgeAdmitted; (repeat' split) <;> simp (maxDischargeDepth := 20) [h]

@[simp] theorem admitFrame_rises : ∀ k m n p s, Rises s.intc → Rises (State.admitFrame k m n p s).intc := by
  intro k m n p s h; unfold State.admitFrame; dsimp only; (repeat' split) <;> simp (maxDischargeDepth := 20) [h]

@[simp] theorem judgeOpcode_rises : ∀ k m n p s, Rises s.intc → Rises (State.judgeOpcode k m n p s).intc := by
  intro k m n p s h; unfold State.judgeOpcode; (repeat' split) <;> simp (maxDischargeDepth := 20) [h]

@[simp] theorem authFailure_rises : ∀ k m n s, Rises s.intc → Rises (State.authFailure k m n s).intc := by
  intro k m n s h; unfold State.authFailure; simp (maxDischargeDepth := 20) [h]

@[simp] theorem judgeSequence_rises : ∀ k m n p s, Rises s.intc → Rises (State.judgeSequence k m n p s).intc := by
  intro k m n p s h; unfold State.judgeSequence; dsimp only; split
  · split
    · exact settle_rises _ (endSession_rises _ _ _ (reject_rises _ _ _ h))
    · exact reject_rises _ _ _ h
  · have h1 : ∀ s : State, Rises s.intc → Rises ({ s with intc := { s.intc with
        targets := upd s.intc.targets ⟨2 + (portIdx k).val, by omega⟩ fun g => { g with base := m.prio } } } : State).route.intc :=
      fun s h => route_rises _ (h.upd _ _ _ (List.Sublist.refl _))
    split
    · refine reject_rises _ _ _ (h1 (State.onSession _ _ (State.onSession _ _ s)) ?_); exact h
    · refine judgeOpcode_rises _ _ _ _ _ (h1 (State.onSession _ _ (State.onSession _ _ s)) ?_); exact h

@[simp] theorem judgeSession_rises : ∀ k m n p s, Rises s.intc → Rises (State.judgeSession k m n p s).intc := by
  intro k m n p s h; unfold State.judgeSession; (repeat' split) <;> simp (maxDischargeDepth := 20) [h]

@[simp] theorem judgeFrame_rises : ∀ k m s, Rises s.intc → Rises (State.judgeFrame k m s).intc := by
  intro k m s h; unfold State.judgeFrame; dsimp only; (repeat' split) <;> simp (maxDischargeDepth := 20) [h]

@[simp] theorem frameReceive_rises : ∀ k m s, Rises s.intc → Rises (State.frameReceive k m s).intc := by
  intro k m s h; unfold State.frameReceive; (repeat' split) <;> simp (maxDischargeDepth := 20) [h]

theorem execFrameReceive_rises : ∀ k m n s, Rises s.intc → ∃ t, execFrameReceive k m n s = .next t ∧ Rises t.intc := by
  intro k m n s h; refine ⟨_, rfl, ?_⟩; (try dsimp only)
  repeat'
    with_reducible first
      | assumption | apply chain_rises | apply ite_rises | apply readError_rises | apply frameReceive_rises
      | intro _ | split | dsimp only

@[simp] theorem alarmEvent_rises : ∀ k m s, Rises s.intc → Rises (State.alarmEvent k m s).intc := by
  intro k m s h; unfold State.alarmEvent; simp (maxDischargeDepth := 20) [h]

@[simp] theorem alarmFire_rises : ∀ k m n p s, Rises s.intc → Rises (State.alarmFire k m n p s).intc := by
  intro k m n p s h; unfold State.alarmFire; simp (maxDischargeDepth := 20) [h]

@[simp] theorem alarmForward_rises : ∀ k m n p s, Rises s.intc → Rises (State.alarmForward k m n p s).intc := by
  intro k m n p s h; unfold State.alarmForward; dsimp only; (repeat' split) <;> simp (maxDischargeDepth := 20) [h]

@[simp] theorem alarmsAtStep_rises : ∀ k m n s, Rises s.intc → Rises (State.alarmsAtStep k m n s).intc := by
  intro k m n s h; unfold State.alarmsAtStep; (try dsimp only)
  repeat'
    with_reducible first
      | assumption | apply chain_rises | apply ite_rises | apply alarmForward_rises | intro _ | split
      | dsimp only

@[simp] theorem badSet_rises : ∀ s, Rises s.intc → Rises (State.badSet s).intc := by
  intro s h; unfold State.badSet; simp (maxDischargeDepth := 20) [h]

@[simp] theorem calStep_rises : ∀ k m s, Rises s.intc → Rises (State.calStep k m s).intc := by
  intro k m s h; unfold State.calStep; simp (maxDischargeDepth := 20) [h]

@[simp] theorem calFirstSet_rises : ∀ k m s, Rises s.intc → Rises (State.calFirstSet k m s).intc := by
  intro k m s h; unfold State.calFirstSet; simp (maxDischargeDepth := 20) [h]

@[simp] theorem cldSet_rises : ∀ k m s, Rises s.intc → Rises (State.cldSet k m s).intc := by
  intro k m s h; unfold State.cldSet; simp (maxDischargeDepth := 20) [h]

theorem execCldSet_rises : ∀ k m s, Rises s.intc → ∃ t, execCldSet k m s = .next t ∧ Rises t.intc := by
  intro k m s h; refine ⟨_, rfl, ?_⟩; refine served_rises _ _ h ?_; intro s h; simp (maxDischargeDepth := 20) [h]

@[simp] theorem cldAdjusted_rises : ∀ k m n s, Rises s.intc → Rises (State.cldAdjusted k m n s).intc := by
  intro k m n s h; unfold State.cldAdjusted; simp (maxDischargeDepth := 20) [h]

@[simp] theorem adjustStep_rises : ∀ k m n s, Rises s.intc → Rises (State.adjustStep k m n s).intc := by
  intro k m n s h; unfold State.adjustStep; simp (maxDischargeDepth := 20) [h]

theorem execCldAdjustStep_rises : ∀ k m n s, Rises s.intc → ∃ t, execCldAdjustStep k m n s = .next t ∧ Rises t.intc := by
  intro k m n s h; refine ⟨_, rfl, ?_⟩; refine served_rises _ _ h ?_; intro s h; simp (maxDischargeDepth := 20) [h]

@[simp] theorem adjustSlew_rises : ∀ k m n s, Rises s.intc → Rises (State.adjustSlew k m n s).intc := by
  intro k m n s h; unfold State.adjustSlew; simp (maxDischargeDepth := 20) [h]

theorem execCldAdjustSlew_rises : ∀ k m n s, Rises s.intc → ∃ t, execCldAdjustSlew k m n s = .next t ∧ Rises t.intc := by
  intro k m n s h; refine ⟨_, rfl, ?_⟩; refine served_rises _ _ h ?_; intro s h; simp (maxDischargeDepth := 20) [h]

theorem execCldAlarmAck_rises : ∀ k m s, Rises s.intc → ∃ t, execCldAlarmAck k m s = .next t ∧ Rises t.intc := by
  intro k m s h; refine ⟨_, rfl, ?_⟩; refine served_rises _ _ h ?_; intro s h; simp (maxDischargeDepth := 20) [h]

@[simp] theorem secondBoundary_rises : ∀ s, Rises s.intc → Rises (State.secondBoundary s).intc := by
  intro s h; unfold State.secondBoundary; split
  · exact h
  · dsimp only; split
    · exact h
    · refine chain_rises _ _ _ ?_ ?_
      · exact h
      · intro a s h; split
        · exact alarmFire_rises _ _ _ _ s h
        · exact h

theorem execCalSecondBoundary_rises : ∀ s, Rises s.intc → ∃ t, execCalSecondBoundary s = .next t ∧ Rises t.intc := by
  intro s h; refine ⟨_, rfl, ?_⟩; simp (maxDischargeDepth := 20) [h]

theorem execCalStopped_rises : ∀ s, Rises s.intc → ∃ t, execCalStopped s = .next t ∧ Rises t.intc := by
  intro s h; refine ⟨_, rfl, ?_⟩; simp (maxDischargeDepth := 20) [h]

theorem execSlewEnd_rises : ∀ s, Rises s.intc → ∃ t, execSlewEnd s = .next t ∧ Rises t.intc := by
  intro s h; refine ⟨_, rfl, ?_⟩; simp (maxDischargeDepth := 20) [h]

@[simp] theorem demandClose_rises : ∀ k s, Rises s.intc → Rises (State.demandClose k s).intc := by
  intro k s h; unfold State.demandClose; simp (maxDischargeDepth := 20) [h]

theorem execDemandClose_rises : ∀ k s, Rises s.intc → ∃ t, execDemandClose k s = .next t ∧ Rises t.intc := by
  intro k s h; refine ⟨_, rfl, ?_⟩; simp (maxDischargeDepth := 20) [h]

@[simp] theorem applyProfEn_rises : ∀ s, Rises s.intc → Rises (State.applyProfEn s).intc := by
  intro s h; unfold State.applyProfEn; simp (maxDischargeDepth := 20) [h]

@[simp] theorem openProfile_rises : ∀ k s, Rises s.intc → Rises (State.openProfile k s).intc := by
  intro k s h; unfold State.openProfile; simp (maxDischargeDepth := 20) [h]

@[simp] theorem countLost_rises : ∀ k s, Rises s.intc → Rises (State.countLost k s).intc := by
  intro k s h; unfold State.countLost; split <;> simp (maxDischargeDepth := 20) [h]

@[simp] theorem loseRecords_rises : ∀ k s, Rises s.intc → Rises (State.loseRecords k s).intc := by
  intro k s h; unfold State.loseRecords; (try dsimp only)
  repeat'
    with_reducible first
      | assumption | apply chain_rises | apply ite_rises | apply countLost_rises | apply logOnly_rises | intro _
      | split | dsimp only

@[simp] theorem writeGroup_rises : ∀ k s, Rises s.intc → Rises (State.writeGroup k s).intc := by
  intro k s h; unfold State.writeGroup; simp (maxDischargeDepth := 20) [h]

@[simp] theorem profileClose_rises : ∀ k s, Rises s.intc → Rises (State.profileClose k s).intc := by
  intro k s h; unfold State.profileClose; (try dsimp only)
  repeat'
    with_reducible first
      | assumption | apply chain_rises | apply ite_rises | apply writeGroup_rises | apply openProfile_rises
      | intro _ | split | dsimp only

theorem execProfileClose_rises : ∀ s, Rises s.intc → ∃ t, execProfileClose s = .next t ∧ Rises t.intc := by
  intro s h; refine ⟨_, rfl, ?_⟩; simp (maxDischargeDepth := 20) [h]

@[simp] theorem residual_rises : ∀ k m n p q s, Rises s.intc → Rises (State.residual k m n p q s).intc := by
  intro k m n p q s h; unfold State.residual; simp (maxDischargeDepth := 20) [h]

@[simp] theorem balanceClose_rises : ∀ k m s, Rises s.intc → Rises (State.balanceClose k m s).intc := by
  intro k m s h; unfold State.balanceClose; simp (maxDischargeDepth := 20) [h]

theorem execBalanceClose_rises : ∀ k s, Rises s.intc → ∃ t, execBalanceClose k s = .next t ∧ Rises t.intc := by
  intro k s h; refine ⟨_, rfl, ?_⟩; simp (maxDischargeDepth := 20) [h]

@[simp] theorem switchRef_rises : ∀ k m s, Rises s.intc → Rises (State.switchRef k m s).intc := by
  intro k m s h; unfold State.switchRef; simp (maxDischargeDepth := 20) [h]

@[simp] theorem enterFreerun_rises : ∀ s, Rises s.intc → Rises (State.enterFreerun s).intc := by
  intro s h; unfold State.enterFreerun; simp (maxDischargeDepth := 20) [h]

@[simp] theorem enterHoldover_rises : ∀ k s, Rises s.intc → Rises (State.enterHoldover k s).intc := by
  intro k s h; unfold State.enterHoldover; simp (maxDischargeDepth := 20) [h]

@[simp] theorem chooseRef_rises : ∀ k m n s, Rises s.intc → Rises (State.chooseRef k m n s).intc := by
  intro k m n s h; unfold State.chooseRef; (repeat' split) <;> simp (maxDischargeDepth := 20) [h]

@[simp] theorem judgeLock_rises : ∀ s, Rises s.intc → Rises (State.judgeLock s).intc := by
  intro s h; unfold State.judgeLock; dsimp only; (repeat' split) <;> simp (maxDischargeDepth := 20) [h]

@[simp] theorem closeTimebase_rises : ∀ s, Rises s.intc → Rises (State.closeTimebase s).intc := by
  intro s h; unfold State.closeTimebase; simp (maxDischargeDepth := 20) [h]

@[simp] theorem absorbDelay_rises : ∀ k m s, Rises s.intc → Rises (State.absorbDelay k m s).intc := by
  intro k m s h; unfold State.absorbDelay; split <;> simp (maxDischargeDepth := 20) [h]

theorem execFreerunEntry_rises : ∀ s, Rises s.intc → ∃ t, execFreerunEntry s = .next t ∧ Rises t.intc := by
  intro s h; refine ⟨_, rfl, ?_⟩; split <;> simp (maxDischargeDepth := 20) [h]

theorem execLsyncEdge_rises : ∀ k m s, Rises s.intc → ∃ t, execLsyncEdge k m s = .next t ∧ Rises t.intc := by
  intro k m s h; refine ⟨_, rfl, ?_⟩; simp (maxDischargeDepth := 20) [h]

theorem execLsyncTimeout_rises : ∀ s, Rises s.intc → ∃ t, execLsyncTimeout s = .next t ∧ Rises t.intc := by
  intro s h; refine ⟨_, rfl, ?_⟩; simp (maxDischargeDepth := 20) [h]

@[simp] theorem convert_rises : ∀ k m s, Rises s.intc → Rises (State.convert k m s).intc := by
  intro k m s h; unfold State.convert; simp (maxDischargeDepth := 20) [h]

@[simp] theorem reconcile_rises : ∀ k s, Rises s.intc → Rises (State.reconcile k s).intc := by
  intro k s h; unfold State.reconcile; simp (maxDischargeDepth := 20) [h]

@[simp] theorem firstCommit_rises : ∀ k s, Rises s.intc → Rises (State.firstCommit k s).intc := by
  intro k s h; unfold State.firstCommit; (try dsimp only)
  repeat'
    with_reducible first
      | assumption | apply chain_rises | apply ite_rises | apply reconcile_rises | apply note_rises | intro _
      | split | dsimp only

@[simp] theorem commitSet_rises : ∀ k s, Rises s.intc → Rises (State.commitSet k s).intc := by
  intro k s h; unfold State.commitSet; simp (maxDischargeDepth := 20) [h]

@[simp] theorem commitBoundary_rises : ∀ s, Rises s.intc → Rises (State.commitBoundary s).intc := by
  intro s h; unfold State.commitBoundary; split <;> simp (maxDischargeDepth := 20) [h]

@[simp] theorem reloadCal_rises : ∀ s, Rises s.intc → Rises (State.reloadCal s).intc := by
  intro s h; unfold State.reloadCal; simp (maxDischargeDepth := 20) [h]

@[simp] theorem calParity_rises : ∀ k s, Rises s.intc → Rises (State.calParity k s).intc := by
  intro k s h; unfold State.calParity; simp (maxDischargeDepth := 20) [h]

@[simp] theorem resolvePoint_rises : ∀ k m s, Rises s.intc → Rises (State.resolvePoint k m s).intc := by
  intro k m s h; unfold State.resolvePoint; simp (maxDischargeDepth := 20) [h]

@[simp] theorem resolveOne_rises : ∀ k s, Rises s.intc → Rises (State.resolveOne k s).intc := by
  intro k s h; unfold State.resolveOne; (try dsimp only)
  repeat'
    with_reducible first
      | assumption | apply chain_rises | apply ite_rises | apply resolvePoint_rises | apply convert_rises
      | apply okTo_rises | intro _ | split | dsimp only

@[simp] theorem resolveBoundary_rises : ∀ s, Rises s.intc → Rises (State.resolveBoundary s).intc := by
  intro s h; unfold State.resolveBoundary; (try dsimp only)
  repeat'
    with_reducible first
      | assumption | apply chain_rises | apply ite_rises | apply resolveOne_rises | intro _ | split | dsimp only

@[simp] theorem resetDemand_rises : ∀ k s, Rises s.intc → Rises (State.resetDemand k s).intc := by
  intro k s h; unfold State.resetDemand; simp (maxDischargeDepth := 20) [h]

@[simp] theorem resetReply_rises : ∀ k s, Rises s.intc → Rises (State.resetReply k s).intc := by
  intro k s h; unfold State.resetReply; simp (maxDischargeDepth := 20) [h]

@[simp] theorem resetBoundary_rises : ∀ s, Rises s.intc → Rises (State.resetBoundary s).intc := by
  intro s h; unfold State.resetBoundary; (try dsimp only)
  repeat'
    with_reducible first
      | assumption | apply chain_rises | apply ite_rises | apply fail_rises | apply resetReply_rises
      | apply resetDemand_rises | intro _ | split | dsimp only

@[simp] theorem dropOldWindows_rises : ∀ s, Rises s.intc → Rises (State.dropOldWindows s).intc := by
  intro s h; unfold State.dropOldWindows; simp (maxDischargeDepth := 20) [h]

theorem execDemandReset_rises : ∀ k m s, Rises s.intc → ∃ t, execDemandReset k m s = .next t ∧ Rises t.intc := by
  intro k m s h; refine ⟨_, rfl, ?_⟩; refine served_rises _ _ h ?_; intro s h; simp (maxDischargeDepth := 20) [h]

theorem execCalCommit_rises : ∀ k m s, Rises s.intc → ∃ t, execCalCommit k m s = .next t ∧ Rises t.intc := by
  intro k m s h; refine ⟨_, rfl, ?_⟩; refine served_rises _ _ h ?_; intro s h; simp (maxDischargeDepth := 20) [h]

theorem execCalPendingRead_rises : ∀ k m n s, Rises s.intc → ∃ t, execCalPendingRead k m n s = .next t ∧ Rises t.intc := by
  intro k m n s h; refine ⟨_, rfl, ?_⟩; refine served_rises _ _ h ?_; intro s h; (repeat' split) <;> simp (maxDischargeDepth := 20) [h]

theorem execCalPendingResolve_rises : ∀ k m n s, Rises s.intc →
    ∃ t, execCalPendingResolve k m n s = .next t ∧ Rises t.intc := by
  intro k m n s h; refine ⟨_, rfl, ?_⟩; refine served_rises _ _ h ?_; intro s h; simp (maxDischargeDepth := 20) [h]

theorem execPulseTest_rises : ∀ k m n p s, Rises s.intc → ∃ t, execPulseTest k m n p s = .next t ∧ Rises t.intc := by
  intro k m n p s h; refine ⟨_, rfl, ?_⟩; refine served_rises _ _ h ?_; intro s h; (try dsimp only)
  repeat'
    with_reducible first
      | assumption | apply chain_rises | apply ite_rises | apply command_rises | apply fail_rises
      | apply store_rises | apply ok_rises | intro _ | split | dsimp only

@[simp] theorem pulseSample_rises : ∀ k m s, Rises s.intc → Rises (State.pulseSample k m s).intc := by
  intro k m s h; unfold State.pulseSample; simp (maxDischargeDepth := 20) [h]

@[simp] theorem pulseClose_rises : ∀ k s, Rises s.intc → Rises (State.pulseClose k s).intc := by
  intro k s h; unfold State.pulseClose; simp (maxDischargeDepth := 20) [h]

@[simp] theorem rebase_rises : ∀ k s, Rises s.intc → Rises (State.rebase k s).intc := by
  intro k s h; unfold State.rebase; simp (maxDischargeDepth := 20) [h]

theorem execPulseLeadingEdge_rises : ∀ k s, Rises s.intc → ∃ t, execPulseLeadingEdge k s = .next t ∧ Rises t.intc := by
  intro k s h; refine ⟨_, rfl, ?_⟩; split <;> simp (maxDischargeDepth := 20) [h]

theorem execPulseTrailingEdge_rises : ∀ k s, Rises s.intc → ∃ t, execPulseTrailingEdge k s = .next t ∧ Rises t.intc := by
  intro k s h; refine ⟨_, rfl, ?_⟩; simp (maxDischargeDepth := 20) [h]

@[simp] theorem halfEnd_rises : ∀ k s, Rises s.intc → Rises (State.halfEnd k s).intc := by
  intro k s h; unfold State.halfEnd; (try dsimp only)
  repeat'
    with_reducible first
      | assumption | apply chain_rises | apply ite_rises | apply halfCycle_rises | intro _ | split | dsimp only

@[simp] theorem keepBatch_rises : ∀ k m s, Rises s.intc → Rises (State.keepBatch k m s).intc := by
  intro k m s h; unfold State.keepBatch; simp (maxDischargeDepth := 20) [h]

@[simp] theorem takeBatch_rises : ∀ k s, Rises s.intc → Rises (State.takeBatch k s).intc := by
  intro k s h; unfold State.takeBatch; simp (maxDischargeDepth := 20) [h]

@[simp] theorem sampleBatch_rises : ∀ k m s, Rises s.intc → Rises (State.sampleBatch k m s).intc := by
  intro k m s h; unfold State.sampleBatch; (try dsimp only)
  repeat'
    with_reducible first
      | assumption | apply chain_rises | apply ite_rises | apply udinNow_rises | apply keepBatch_rises
      | apply takeBatch_rises | apply pulseSample_rises | apply calParity_rises | apply halfEnd_rises
      | apply flushDue_rises | intro _ | split | dsimp only

theorem execSampleBatch_rises : ∀ k m s, Rises s.intc → ∃ t, execSampleBatch k m s = .next t ∧ Rises t.intc := by
  intro k m s h; refine ⟨_, rfl, ?_⟩; simp (maxDischargeDepth := 20) [h]

@[simp] theorem replayBatch_rises : ∀ k s, Rises s.intc → Rises (State.replayBatch k s).intc := by
  intro k s h; unfold State.replayBatch; simp (maxDischargeDepth := 20) [h]

@[simp] theorem replayFrom_rises : ∀ k s, Rises s.intc → Rises (State.replayFrom k s).intc := by
  intro k s h; unfold State.replayFrom; (try dsimp only)
  repeat'
    with_reducible first
      | assumption | apply chain_rises | apply ite_rises | apply replayBatch_rises | intro _ | split | dsimp only

@[simp] theorem metrologyReplay_rises : ∀ k m n s, Rises s.intc → Rises (State.metrologyReplay k m n s).intc := by
  intro k m n s h; unfold State.metrologyReplay; simp (maxDischargeDepth := 20) [h]

theorem execMetrologyReplay_rises : ∀ k m n s, Rises s.intc → ∃ t, execMetrologyReplay k m n s = .next t ∧ Rises t.intc := by
  intro k m n s h; refine ⟨_, rfl, ?_⟩; simp (maxDischargeDepth := 20) [h]

@[simp] theorem noteCommit_rises : ∀ s, Rises s.intc → Rises (State.noteCommit s).intc := by
  intro s h; unfold State.noteCommit; simp (maxDischargeDepth := 20) [h]

@[simp] theorem markSteps_rises : ∀ s, Rises s.intc → Rises (State.markSteps s).intc := by
  intro s h; unfold State.markSteps; simp (maxDischargeDepth := 20) [h]

@[simp] theorem channelsToBlock_rises : ∀ s, Rises s.intc → Rises (State.channelsToBlock s).intc := by
  intro s h; unfold State.channelsToBlock; simp (maxDischargeDepth := 20) [h]

@[simp] theorem closeQuantities_rises : ∀ k s, Rises s.intc → Rises (State.closeQuantities k s).intc := by
  intro k s h; unfold State.closeQuantities; (try dsimp only)
  repeat'
    with_reducible first
      | assumption | apply chain_rises | apply ite_rises | apply accErrors_rises | apply closeBalance_rises
      | apply closePoint_rises | apply closeDc_rises | apply pulseClose_rises | apply cycleDetectors_rises
      | apply channelsToBlock_rises | intro _ | split | dsimp only

@[simp] theorem boundaryImage_rises : ∀ k s, Rises s.intc → Rises (State.boundaryImage k s).intc := by
  intro k s h; unfold State.boundaryImage; simp (maxDischargeDepth := 20) [h]

@[simp] theorem turnCycle_rises : ∀ s, Rises s.intc → Rises (State.turnCycle s).intc := by
  intro s h; unfold State.turnCycle; simp (maxDischargeDepth := 20) [h]

@[simp] theorem enforce_rises : ∀ k s, Rises s.intc → Rises (State.enforce k s).intc := by
  intro k s h; unfold State.enforce; simp (maxDischargeDepth := 20) [h]

@[simp] theorem changeDemand_rises : ∀ k s, Rises s.intc → Rises (State.changeDemand k s).intc := by
  intro k s h; unfold State.changeDemand; simp (maxDischargeDepth := 20) [h]

@[simp] theorem closeChanged_rises : ∀ k s, Rises s.intc → Rises (State.closeChanged k s).intc := by
  intro k s h; unfold State.closeChanged; (try dsimp only)
  repeat'
    with_reducible first
      | assumption | apply chain_rises | apply ite_rises | apply changeDemand_rises | apply onBus_rises
      | apply balanceClose_rises | apply profileClose_rises | intro _ | split | dsimp only

@[simp] theorem afterSettings_rises : ∀ k m n s, Rises s.intc → Rises (State.afterSettings k m n s).intc := by
  intro k m n s h; unfold State.afterSettings; (try dsimp only)
  repeat'
    with_reducible first
      | assumption | apply chain_rises | apply ite_rises | apply onBus_rises | apply openProfile_rises
      | apply onPt_rises | apply rebase_rises | intro _ | split | dsimp only

@[simp] theorem applySettings_rises : ∀ s, Rises s.intc → Rises (State.applySettings s).intc := by
  intro s h; unfold State.applySettings; (try dsimp only)
  repeat'
    with_reducible first
      | assumption | apply chain_rises | apply ite_rises | apply closeChanged_rises | apply enforce_rises
      | apply channelBoundary_rises | apply afterSettings_rises | apply settingTook_rises | intro _ | split
      | dsimp only

@[simp] theorem trimsBoundary_rises : ∀ s, Rises s.intc → Rises (State.trimsBoundary s).intc := by
  intro s h; unfold State.trimsBoundary; (try dsimp only)
  repeat'
    with_reducible first
      | assumption | apply chain_rises | apply ite_rises | apply trimBoundary_rises | apply setVref_rises
      | apply settingTook_rises | intro _ | split | dsimp only

@[simp] theorem saveBoundary_rises : ∀ s, Rises s.intc → Rises (State.saveBoundary s).intc := by
  intro s h; unfold State.saveBoundary; split <;> simp (maxDischargeDepth := 20) [h]

@[simp] theorem bankBoundary_rises : ∀ s, Rises s.intc → Rises (State.bankBoundary s).intc := by
  intro s h; unfold State.bankBoundary; simp (maxDischargeDepth := 20) [h]

@[simp] theorem boundaryEffects_rises : ∀ s, Rises s.intc → Rises (State.boundaryEffects s).intc := by
  intro s h; unfold State.boundaryEffects; simp (maxDischargeDepth := 20) [h]

@[simp] theorem closeSteps_rises : ∀ k s, Rises s.intc → Rises (State.closeSteps k s).intc := by
  intro k s h; unfold State.closeSteps; (try dsimp only)
  repeat'
    with_reducible first
      | assumption | apply chain_rises | apply ite_rises | apply demandClose_rises | apply profileClose_rises
      | apply balanceClose_rises | apply frequencyClose_rises | apply tenMinuteTick_rises | intro _ | split
      | dsimp only

@[simp] theorem cutAsked_rises : ∀ s, Rises s.intc → Rises (State.cutAsked s).intc := by
  intro s h; unfold State.cutAsked; simp (maxDischargeDepth := 20) [h]

@[simp] theorem closureRecord_rises : ∀ s, Rises s.intc → Rises (State.closureRecord s).intc := by
  intro s h; unfold State.closureRecord; simp (maxDischargeDepth := 20) [h]

@[simp] theorem openNext_rises : ∀ s, Rises s.intc → Rises (State.openNext s).intc := by
  intro s h; unfold State.openNext; simp (maxDischargeDepth := 20) [h]

@[simp] theorem cycleClose_rises : ∀ k s, Rises s.intc → Rises (State.cycleClose k s).intc := by
  intro k s h; unfold State.cycleClose; extract_lets s0 s1 s2 s3 s4
  have h0 : Rises s0.intc := closeQuantities_rises _ _ (markSteps_rises _ (dropOldWindows_rises _ (noteCommit_rises _ h)))
  clear_value s0
  have h2 : Rises s2.intc := turnCycle_rises _ (boundaryImage_rises _ _ h0)
  clear_value s2
  have h3 : Rises s3.intc := ite_rises _ _ _ h2 (flushDue_rises _ h2)
  clear_value s3
  have h4 : Rises s4.intc := by
    refine openNext_rises _ (chain_rises _ _ _ (boundaryEffects_rises _ h3) ?_)
    intro a s h; exact spareBoundary_rises a s h
  clear_value s4
  exact closureRecord_rises _ (refill_rises _ (closeSteps_rises _ _ (cutAsked_rises _ h4)))

theorem execCycleClose_rises : ∀ k s, Rises s.intc → ∃ t, execCycleClose k s = .next t ∧ Rises t.intc := by
  intro k s h; refine ⟨_, rfl, ?_⟩; simp (maxDischargeDepth := 20) [h]

theorem execBlotClear_rises : ∀ k m s, Rises s.intc → ∃ t, execBlotClear k m s = .next t ∧ Rises t.intc := by
  intro k m s h; refine ⟨_, rfl, ?_⟩; refine served_rises _ _ h ?_; intro s h; simp (maxDischargeDepth := 20) [h]

theorem execBankEnter_rises : ∀ k s, Rises s.intc → ∃ t, execBankEnter k s = .next t ∧ Rises t.intc := by
  intro k s h; refine ⟨_, rfl, ?_⟩; refine served_rises _ _ h ?_; intro s h; (repeat' split) <;> simp (maxDischargeDepth := 20) [h]

theorem execBankExit_rises : ∀ k s, Rises s.intc → ∃ t, execBankExit k s = .next t ∧ Rises t.intc := by
  intro k s h; refine ⟨_, rfl, ?_⟩; refine served_rises _ _ h ?_; intro s h; simp (maxDischargeDepth := 20) [h]

theorem execSoftReset_rises : ∀ k m s, Rises s.intc → ∃ t, execSoftReset k m s = .next t ∧ Rises t.intc := by
  intro k m s h; refine ⟨_, rfl, ?_⟩; refine served_rises _ _ h ?_; intro s h; simp (maxDischargeDepth := 20) [h]

theorem execCfgSave_rises : ∀ k s, Rises s.intc → ∃ t, execCfgSave k s = .next t ∧ Rises t.intc := by
  intro k s h; refine ⟨_, rfl, ?_⟩; refine served_rises _ _ h ?_; intro s h; simp (maxDischargeDepth := 20) [h]

theorem execInkLock_rises : ∀ k m s, Rises s.intc → ∃ t, execInkLock k m s = .next t ∧ Rises t.intc := by
  intro k m s h; refine ⟨_, rfl, ?_⟩; refine served_rises _ _ h ?_; intro s h; simp (maxDischargeDepth := 20) [h]

@[simp] theorem endLock_rises : ∀ s, Rises s.intc → Rises (State.endLock s).intc := by
  intro s h; unfold State.endLock; split <;> simp (maxDischargeDepth := 20) [h]

theorem execInkUnlock_rises : ∀ k s, Rises s.intc → ∃ t, execInkUnlock k s = .next t ∧ Rises t.intc := by
  intro k s h; refine ⟨_, rfl, ?_⟩; refine served_rises _ _ h ?_; intro s h; simp (maxDischargeDepth := 20) [h]

theorem execInkLockExpiry_rises : ∀ s, Rises s.intc → ∃ t, execInkLockExpiry s = .next t ∧ Rises t.intc := by
  intro s h; refine ⟨_, rfl, ?_⟩; simp (maxDischargeDepth := 20) [h]

@[simp] theorem eventRead_rises : ∀ k m s, Rises s.intc → Rises (State.eventRead k m s).intc := by
  intro k m s h; unfold State.eventRead; simp (maxDischargeDepth := 20) [h]

theorem execEventRead_rises : ∀ k m s, Rises s.intc → ∃ t, execEventRead k m s = .next t ∧ Rises t.intc := by
  intro k m s h; refine ⟨_, rfl, ?_⟩; refine served_rises _ _ h ?_; intro s h; simp (maxDischargeDepth := 20) [h]

theorem execEventAck_rises : ∀ k m s, Rises s.intc → ∃ t, execEventAck k m s = .next t ∧ Rises t.intc := by
  intro k m s h; refine ⟨_, rfl, ?_⟩; refine served_rises _ _ h ?_; intro s h; simp (maxDischargeDepth := 20) [h]

@[simp] theorem profileRead_rises : ∀ k m n s, Rises s.intc → Rises (State.profileRead k m n s).intc := by
  intro k m n s h; unfold State.profileRead; simp (maxDischargeDepth := 20) [h]

theorem execProfileRead_rises : ∀ k m n s, Rises s.intc → ∃ t, execProfileRead k m n s = .next t ∧ Rises t.intc := by
  intro k m n s h; refine ⟨_, rfl, ?_⟩; refine served_rises _ _ h ?_; intro s h; simp (maxDischargeDepth := 20) [h]

theorem execProfileAck_rises : ∀ k m s, Rises s.intc → ∃ t, execProfileAck k m s = .next t ∧ Rises t.intc := by
  intro k m s h; refine ⟨_, rfl, ?_⟩; refine served_rises _ _ h ?_; intro s h; simp (maxDischargeDepth := 20) [h]

theorem execWbRead_rises : ∀ k m n p s, Rises s.intc → ∃ t, execWbRead k m n p s = .next t ∧ Rises t.intc := by
  intro k m n p s h; refine ⟨_, rfl, ?_⟩; refine served_rises _ _ h ?_; intro s h; (repeat' split) <;> simp (maxDischargeDepth := 20) [h]

theorem execCapRead_rises : ∀ k m n p s, Rises s.intc → ∃ t, execCapRead k m n p s = .next t ∧ Rises t.intc := by
  intro k m n p s h; refine ⟨_, rfl, ?_⟩; refine served_rises _ _ h ?_; intro s h; (repeat' split) <;> simp (maxDischargeDepth := 20) [h]

theorem execCapTrigger_rises : ∀ k s, Rises s.intc → ∃ t, execCapTrigger k s = .next t ∧ Rises t.intc := by
  intro k s h; refine ⟨_, rfl, ?_⟩; refine served_rises _ _ h ?_; intro s h; dsimp only; (repeat' split) <;> simp (maxDischargeDepth := 20) [h]

theorem execCapRelease_rises : ∀ k m s, Rises s.intc → ∃ t, execCapRelease k m s = .next t ∧ Rises t.intc := by
  intro k m s h; refine ⟨_, rfl, ?_⟩; refine served_rises _ _ h ?_; intro s h; (repeat' split) <;> simp (maxDischargeDepth := 20) [h]

@[simp] theorem logRead_rises : ∀ k m n s, Rises s.intc → Rises (State.logRead k m n s).intc := by
  intro k m n s h; unfold State.logRead; simp (maxDischargeDepth := 20) [h]

theorem execLogRead_rises : ∀ k m n s, Rises s.intc → ∃ t, execLogRead k m n s = .next t ∧ Rises t.intc := by
  intro k m n s h; refine ⟨_, rfl, ?_⟩; refine served_rises _ _ h ?_; intro s h; simp (maxDischargeDepth := 20) [h]

@[simp] theorem writeLog_rises : ∀ s, Rises s.intc → Rises (State.writeLog s).intc := by
  intro s h; unfold State.writeLog; (repeat' split) <;> simp (maxDischargeDepth := 20) [h]

@[simp] theorem fillLog_rises : ∀ k s, Rises s.intc → Rises (State.fillLog k s).intc := by
  intro k s h; unfold State.fillLog; (try dsimp only)
  repeat'
    with_reducible first
      | assumption | apply chain_rises | apply ite_rises | apply fillLog_rises | intro _ | split | dsimp only

@[simp] theorem logEcc_rises : ∀ k s, Rises s.intc → Rises (State.logEcc k s).intc := by
  intro k s h; unfold State.logEcc; simp (maxDischargeDepth := 20) [h]

theorem execEventLogWrite_rises : ∀ k s, Rises s.intc → ∃ t, execEventLogWrite k s = .next t ∧ Rises t.intc := by
  intro k s h; refine ⟨_, rfl, ?_⟩; (repeat' split) <;> simp (maxDischargeDepth := 20) [h]

@[simp] theorem onSlot_rises : ∀ k m s, Rises s.intc → Rises (State.onSlot k m s).intc := by
  intro k m s h; unfold State.onSlot; simp (maxDischargeDepth := 20) [h]

@[simp] theorem fwCommand_rises : ∀ k m s q, Rises s.intc → (∀ x, Rises x.intc → Rises (q x).intc) →
    Rises (State.fwCommand k m s q).intc := by
  intro k m s q h hf
  refine served_rises _ _ h ?_
  intro s h; split
  · exact hf s h
  · exact fail_rises _ _ _ s h

@[simp] theorem fwState_rises : ∀ k s, Rises s.intc → Rises (State.fwState k s).intc := by
  intro k s h; unfold State.fwState; simp (maxDischargeDepth := 20) [h]

theorem execFwBegin_rises : ∀ k m s, Rises s.intc → ∃ t, execFwBegin k m s = .next t ∧ Rises t.intc := by
  intro k m s h; refine ⟨_, rfl, ?_⟩; refine served_rises _ _ h ?_; intro s h; simp (maxDischargeDepth := 20) [h]

theorem execFwWrite_rises : ∀ k m n s, Rises s.intc → ∃ t, execFwWrite k m n s = .next t ∧ Rises t.intc := by
  intro k m n s h; refine ⟨_, rfl, ?_⟩; refine served_rises _ _ h ?_; intro s h; simp (maxDischargeDepth := 20) [h]

theorem execFwVerify_rises : ∀ k s, Rises s.intc → ∃ t, execFwVerify k s = .next t ∧ Rises t.intc := by
  intro k s h; refine ⟨_, rfl, ?_⟩; refine served_rises _ _ h ?_; intro s h; simp (maxDischargeDepth := 20) [h]

@[simp] theorem restartCores_rises : ∀ s, Rises s.intc → Rises (State.restartCores s).intc := by
  intro s h; unfold State.restartCores; simp (maxDischargeDepth := 20) [h]

@[simp] theorem noteRecovery_rises : ∀ s, Rises s.intc → Rises (State.noteRecovery s).intc := by
  intro s h; unfold State.noteRecovery; simp (maxDischargeDepth := 20) [h]

@[simp] theorem revert_rises : ∀ k s, Rises s.intc → Rises (State.revert k s).intc := by
  intro k s h; unfold State.revert; simp (maxDischargeDepth := 20) [h]

@[simp] theorem revertOrHold_rises : ∀ k s, Rises s.intc → Rises (State.revertOrHold k s).intc := by
  intro k s h; unfold State.revertOrHold; simp (maxDischargeDepth := 20) [h]

@[simp] theorem bootSlot_rises : ∀ s, Rises s.intc → Rises (State.bootSlot s).intc := by
  intro s h; unfold State.bootSlot; simp (maxDischargeDepth := 20) [h]

@[simp] theorem spoilSlot_rises : ∀ k s, Rises s.intc → Rises (State.spoilSlot k s).intc := by
  intro k s h; unfold State.spoilSlot; simp (maxDischargeDepth := 20) [h]

@[simp] theorem loadCores_rises : ∀ k m s, Rises s.intc → Rises (State.loadCores k m s).intc := by
  intro k m s h; unfold State.loadCores; (try dsimp only)
  repeat'
    with_reducible first
      | assumption | apply chain_rises | apply ite_rises | apply spoilSlot_rises | apply bootSlot_rises
      | apply revert_rises | intro _ | split | dsimp only

@[simp] theorem restartAnvil_rises : ∀ k s, Rises s.intc → Rises (State.restartAnvil k s).intc := by
  intro k s h; unfold State.restartAnvil; simp (maxDischargeDepth := 20) [h]

@[simp] theorem selfCheck_rises : ∀ s, Rises s.intc → Rises (State.selfCheck s).intc := by
  intro s h; unfold State.selfCheck; simp (maxDischargeDepth := 20) [h]

@[simp] theorem switchSlot_rises : ∀ k s, Rises s.intc → Rises (State.switchSlot k s).intc := by
  intro k s h; unfold State.switchSlot; simp (maxDischargeDepth := 20) [h]

theorem execFwActivate_rises : ∀ k s, Rises s.intc → ∃ t, execFwActivate k s = .next t ∧ Rises t.intc := by
  intro k s h; refine ⟨_, rfl, ?_⟩; refine served_rises _ _ h ?_; intro s h; simp (maxDischargeDepth := 20) [h]

@[simp] theorem commitTrial_rises : ∀ s, Rises s.intc → Rises (State.commitTrial s).intc := by
  intro s h; unfold State.commitTrial; simp (maxDischargeDepth := 20) [h]

theorem execFwTrialEnd_rises : ∀ s, Rises s.intc → ∃ t, execFwTrialEnd s = .next t ∧ Rises t.intc := by
  intro s h; refine ⟨_, rfl, ?_⟩; simp (maxDischargeDepth := 20) [h]

@[simp] theorem heldWrites_rises : ∀ s, Rises s.intc → Rises (State.heldWrites s).intc := by
  intro s h; unfold State.heldWrites; split <;> simp (maxDischargeDepth := 20) [h]

@[simp] theorem sramError_rises : ∀ k s, Rises s.intc → Rises (State.sramError k s).intc := by
  intro k s h; unfold State.sramError; split <;> simp (maxDischargeDepth := 20) [h]

theorem execSramScrub_rises : ∀ k s, Rises s.intc → ∃ t, execSramScrub k s = .next t ∧ Rises t.intc := by
  intro k s h; refine ⟨_, rfl, ?_⟩; (try dsimp only)
  repeat'
    with_reducible first
      | assumption | apply chain_rises | apply ite_rises | apply sramError_rises | intro _ | split | dsimp only

@[simp] theorem changeRef_rises : ∀ k s, Rises s.intc → Rises (State.changeRef k s).intc := by
  intro k s h; unfold State.changeRef; simp (maxDischargeDepth := 20) [h]

@[simp] theorem xtalFail_rises : ∀ s, Rises s.intc → Rises (State.xtalFail s).intc := by
  intro s h; unfold State.xtalFail; simp (maxDischargeDepth := 20) [h]

theorem execXtalFail_rises : ∀ s, Rises s.intc → ∃ t, execXtalFail s = .next t ∧ Rises t.intc := by
  intro s h; refine ⟨_, rfl, ?_⟩; simp (maxDischargeDepth := 20) [h]

theorem execXtalRate_rises : ∀ k s, Rises s.intc → ∃ t, execXtalRate k s = .next t ∧ Rises t.intc := by
  intro k s h; refine ⟨_, rfl, ?_⟩; simp (maxDischargeDepth := 20) [h]

@[simp] theorem xtalReturn_rises : ∀ s, Rises s.intc → Rises (State.xtalReturn s).intc := by
  intro s h; unfold State.xtalReturn; simp (maxDischargeDepth := 20) [h]

theorem execXtalReturn_rises : ∀ s, Rises s.intc → ∃ t, execXtalReturn s = .next t ∧ Rises t.intc := by
  intro s h; refine ⟨_, rfl, ?_⟩; simp (maxDischargeDepth := 20) [h]

theorem execCrystalAccepted_rises : ∀ s, Rises s.intc → ∃ t, execCrystalAccepted s = .next t ∧ Rises t.intc := by
  intro s h; refine ⟨_, rfl, ?_⟩; simp (maxDischargeDepth := 20) [h]

theorem execXtalStartTimeout_rises : ∀ s, Rises s.intc → ∃ t, execXtalStartTimeout s = .next t ∧ Rises t.intc := by
  intro s h; refine ⟨_, rfl, ?_⟩; simp (maxDischargeDepth := 20) [h]

@[simp] theorem addCause_rises : ∀ k s, Rises s.intc → Rises (State.addCause k s).intc := by
  intro k s h; unfold State.addCause; simp (maxDischargeDepth := 20) [h]

@[simp] theorem shed_rises : ∀ s, Rises s.intc → Rises (State.shed s).intc := by
  intro s h; unfold State.shed; simp (maxDischargeDepth := 20) [h]

@[simp] theorem warn_rises : ∀ k m s, Rises s.intc → Rises (State.warn k m s).intc := by
  intro k m s h; unfold State.warn; simp (maxDischargeDepth := 20) [h]

@[simp] theorem warnAgain_rises : ∀ k m s, Rises s.intc → Rises (State.warnAgain k m s).intc := by
  intro k m s h; unfold State.warnAgain; simp (maxDischargeDepth := 20) [h]

theorem execPowerFail_rises : ∀ k m s, Rises s.intc → ∃ t, execPowerFail k m s = .next t ∧ Rises t.intc := by
  intro k m s h; refine ⟨_, rfl, ?_⟩; simp (maxDischargeDepth := 20) [h]

@[simp] theorem writeEntry_rises : ∀ k s, Rises s.intc → Rises (State.writeEntry k s).intc := by
  intro k s h; unfold State.writeEntry; simp (maxDischargeDepth := 20) [h]

@[simp] theorem presentEntry_rises : ∀ s, Rises s.intc → Rises (State.presentEntry s).intc := by
  intro s h; unfold State.presentEntry; simp (maxDischargeDepth := 20) [h]

@[simp] theorem journalEntry_rises : ∀ s, Rises s.intc → Rises (State.journalEntry s).intc := by
  intro s h; unfold State.journalEntry; (repeat' split) <;> simp (maxDischargeDepth := 20) [h]

theorem execJournalEntry_rises : ∀ s, Rises s.intc → ∃ t, execJournalEntry s = .next t ∧ Rises t.intc := by
  intro s h; refine ⟨_, rfl, ?_⟩; simp (maxDischargeDepth := 20) [h]

@[simp] theorem tailUpdate_rises : ∀ s, Rises s.intc → Rises (State.tailUpdate s).intc := by
  intro s h; unfold State.tailUpdate; split <;> simp (maxDischargeDepth := 20) [h]

theorem execTailUpdate_rises : ∀ s, Rises s.intc → ∃ t, execTailUpdate s = .next t ∧ Rises t.intc := by
  intro s h; refine ⟨_, rfl, ?_⟩; simp (maxDischargeDepth := 20) [h]

theorem execJournalErase_rises : ∀ k s, Rises s.intc → ∃ t, execJournalErase k s = .next t ∧ Rises t.intc := by
  intro k s h; refine ⟨_, rfl, ?_⟩; simp (maxDischargeDepth := 20) [h]

theorem execPfSustained_rises : ∀ s, Rises s.intc → ∃ t, execPfSustained s = .next t ∧ Rises t.intc := by
  intro s h; refine ⟨_, rfl, ?_⟩; simp (maxDischargeDepth := 20) [h]

@[simp] theorem pfRecovered_rises : ∀ s, Rises s.intc → Rises (State.pfRecovered s).intc := by
  intro s h; unfold State.pfRecovered; simp (maxDischargeDepth := 20) [h]

theorem execPfRecovered_rises : ∀ s, Rises s.intc → ∃ t, execPfRecovered s = .next t ∧ Rises t.intc := by
  intro s h; refine ⟨_, rfl, ?_⟩; simp (maxDischargeDepth := 20) [h]

@[simp] theorem resetCause_rises : ∀ k s, Rises s.intc → Rises (State.resetCause k s).intc := by
  intro k s h; unfold State.resetCause; simp (maxDischargeDepth := 20) [h]

@[simp] theorem coldReset_rises : ∀ k m s, Rises s.intc → Rises (State.coldReset k m s).intc := by
  intro k m s _; exact reset_rises

@[simp] theorem coldTrims_rises : ∀ k s, Rises s.intc → Rises (State.coldTrims k s).intc := by
  intro k s h; unfold State.coldTrims; (try dsimp only)
  repeat'
    with_reducible first
      | assumption | apply chain_rises | apply ite_rises | apply trimNote_rises | intro _ | split | dsimp only

theorem execBrownout_rises : ∀ s, Rises s.intc → ∃ t, execBrownout s = .next t ∧ Rises t.intc := by
  intro s h; refine ⟨_, rfl, ?_⟩; simp (maxDischargeDepth := 20) [h]

@[simp] theorem begin_rises : ∀ k m s, Rises s.intc → Rises (State.begin_ k m s).intc := by
  intro k m s h; unfold State.begin_; simp (maxDischargeDepth := 20) [h]

theorem execPor_rises : ∀ k m s, Rises s.intc → ∃ t, execPor k m s = .next t ∧ Rises t.intc := by
  intro k m s h; refine ⟨_, rfl, ?_⟩; simp (maxDischargeDepth := 20) [h]

@[simp] theorem resetEntry_rises : ∀ s, Rises s.intc → Rises (State.resetEntry s).intc := by
  intro s h; unfold State.resetEntry; simp (maxDischargeDepth := 20) [h]

theorem execResetnCold_rises : ∀ s, Rises s.intc → ∃ t, execResetnCold s = .next t ∧ Rises t.intc := by
  intro s h; refine ⟨_, rfl, ?_⟩; simp (maxDischargeDepth := 20) [h]

theorem execResetnRelease_rises : ∀ k m s, Rises s.intc → ∃ t, execResetnRelease k m s = .next t ∧ Rises t.intc := by
  intro k m s h; refine ⟨_, rfl, ?_⟩; simp (maxDischargeDepth := 20) [h]

@[simp] theorem flushAll_rises : ∀ s, Rises s.intc → Rises (State.flushAll s).intc := by
  intro s h
  refine (chain_rises (List.finRange 6) State.flushTarget s h fun a s h => flushTarget_rises a s h).sub fun q => ?_
  have : ∀ v : Vector Target 6, (v.map Target.warm)[q].stack = [] := by intro v; simp [Target.warm]
  unfold State.flushAll
  rw [this]; exact List.nil_sublist _

@[simp] theorem loseWaiting_rises : ∀ s, Rises s.intc → Rises (State.loseWaiting s).intc := by
  intro s h; unfold State.loseWaiting; simp (maxDischargeDepth := 20) [h]

@[simp] theorem warmReset_rises : ∀ s, Rises s.intc → Rises (State.warmReset s).intc := by
  intro s h; unfold State.warmReset; simp (maxDischargeDepth := 20) [h]

@[simp] theorem restartStartup_rises : ∀ s, Rises s.intc → Rises (State.restartStartup s).intc := by
  intro s h; unfold State.restartStartup; simp (maxDischargeDepth := 20) [h]

theorem execResetnWarm_rises : ∀ k m s, Rises s.intc → ∃ t, execResetnWarm k m s = .next t ∧ Rises t.intc := by
  intro k m s h; refine ⟨_, rfl, ?_⟩; simp (maxDischargeDepth := 20) [h]

@[simp] theorem anvWdog_rises : ∀ k m s, Rises s.intc → Rises (State.anvWdog k m s).intc := by
  intro k m s h; unfold State.anvWdog; simp (maxDischargeDepth := 20) [h]

theorem execAnvWdog_rises : ∀ k m s, Rises s.intc → ∃ t, execAnvWdog k m s = .next t ∧ Rises t.intc := by
  intro k m s h; refine ⟨_, rfl, ?_⟩; simp (maxDischargeDepth := 20) [h]

theorem execSpiPortReset_rises : ∀ k s, Rises s.intc → ∃ t, execSpiPortReset k s = .next t ∧ Rises t.intc := by
  intro k s h; refine ⟨_, rfl, ?_⟩; split <;> simp (maxDischargeDepth := 20) [h]

theorem execBrk_rises : ∀ k s, Rises s.intc → ∃ t, execBrk k s = .next t ∧ Rises t.intc := by
  intro k s h; refine ⟨_, rfl, ?_⟩; simp (maxDischargeDepth := 20) [h]

theorem execVaonChangeover_rises : ∀ k s, Rises s.intc → ∃ t, execVaonChangeover k s = .next t ∧ Rises t.intc := by
  intro k s h; refine ⟨_, rfl, ?_⟩; simp (maxDischargeDepth := 20) [h]

theorem execSupplyLossBoth_rises : ∀ s, Rises s.intc → ∃ t, execSupplyLossBoth s = .next t ∧ Rises t.intc := by
  intro s h; refine ⟨_, rfl, ?_⟩; simp (maxDischargeDepth := 20) [h]

@[simp] theorem resume_rises : ∀ k s, Rises s.intc → Rises (State.resume k s).intc := by
  intro k s h; unfold State.resume; simp (maxDischargeDepth := 20) [h]

@[simp] theorem restoreRecord_rises : ∀ k s, Rises s.intc → Rises (State.restoreRecord k s).intc := by
  intro k s h; unfold State.restoreRecord; simp (maxDischargeDepth := 20) [h]

@[simp] theorem fallBack_rises : ∀ k s, Rises s.intc → Rises (State.fallBack k s).intc := by
  intro k s h; unfold State.fallBack; (try dsimp only)
  repeat'
    with_reducible first
      | assumption | apply chain_rises | apply ite_rises | apply raise_rises | apply blot_rises
      | apply phase_rises | intro _ | split | dsimp only

@[simp] theorem enterHeld_rises : ∀ s, Rises s.intc → Rises (State.enterHeld s).intc := by
  intro s h; unfold State.enterHeld; (try dsimp only)
  repeat'
    with_reducible first
      | assumption | apply chain_rises | apply ite_rises | apply enter_rises | intro _ | split | dsimp only

@[simp] theorem journalRestored_rises : ∀ k s, Rises s.intc → Rises (State.journalRestored k s).intc := by
  intro k s h; unfold State.journalRestored; dsimp only; (repeat' split) <;> simp (maxDischargeDepth := 20) [h]

theorem execJournalRestored_rises : ∀ k s, Rises s.intc → ∃ t, execJournalRestored k s = .next t ∧ Rises t.intc := by
  intro k s h; refine ⟨_, rfl, ?_⟩; simp (maxDischargeDepth := 20) [h]

@[simp] theorem testSpare_rises : ∀ k m s, Rises s.intc → Rises (State.testSpare k m s).intc := by
  intro k m s h; unfold State.testSpare; simp (maxDischargeDepth := 20) [h]

@[simp] theorem testChan_rises : ∀ k m s, Rises s.intc → Rises (State.testChan k m s).intc := by
  intro k m s h; unfold State.testChan; simp (maxDischargeDepth := 20) [h]

@[simp] theorem testEngines_rises : ∀ k m s, Rises s.intc → Rises (State.testEngines k m s).intc := by
  intro k m s h; unfold State.testEngines; (repeat' split) <;> simp (maxDischargeDepth := 20) [h]

theorem execStartUpTest_rises : ∀ k m n s, Rises s.intc → ∃ t, execStartUpTest k m n s = .next t ∧ Rises t.intc := by
  intro k m n s h; refine ⟨_, rfl, ?_⟩; (try dsimp only)
  repeat'
    with_reducible first
      | assumption | apply chain_rises | apply ite_rises | apply testChan_rises | apply testSpare_rises
      | apply testEngines_rises | apply phaseEnds_rises | intro _ | split | dsimp only

theorem execPortsReady_rises : ∀ s, Rises s.intc → ∃ t, execPortsReady s = .next t ∧ Rises t.intc := by
  intro s h; refine ⟨_, rfl, ?_⟩; simp (maxDischargeDepth := 20) [h]

@[simp] theorem checkImage_rises : ∀ k m s, Rises s.intc → Rises (State.checkImage k m s).intc := by
  intro k m s h; unfold State.checkImage; split <;> simp (maxDischargeDepth := 20) [h]

@[simp] theorem applyImage_rises : ∀ k m s, Rises s.intc → Rises (State.applyImage k m s).intc := by
  intro k m s h; unfold State.applyImage; (try dsimp only)
  repeat'
    with_reducible first
      | assumption | apply chain_rises | apply ite_rises | apply spareBoundary_rises | apply onPort_rises
      | apply flushTarget_rises | intro _ | split | dsimp only

@[simp] theorem configured_rises : ∀ k s, Rises s.intc → Rises (State.configured k s).intc := by
  intro k s h; unfold State.configured; simp (maxDischargeDepth := 20) [h]

@[simp] theorem configRestore_rises : ∀ k m s, Rises s.intc → Rises (State.configRestore k m s).intc := by
  intro k m s h; unfold State.configRestore; dsimp only; (repeat' split) <;> simp (maxDischargeDepth := 20) [h]

theorem execConfigRestore_rises : ∀ k m s, Rises s.intc → ∃ t, execConfigRestore k m s = .next t ∧ Rises t.intc := by
  intro k m s h; refine ⟨_, rfl, ?_⟩; simp (maxDischargeDepth := 20) [h]

theorem execCfgRestoreFail_rises : ∀ s, Rises s.intc → ∃ t, execCfgRestoreFail s = .next t ∧ Rises t.intc := by
  intro s h; refine ⟨_, rfl, ?_⟩; simp (maxDischargeDepth := 20) [h]

theorem execStartupReady_rises : ∀ s, Rises s.intc → ∃ t, execStartupReady s = .next t ∧ Rises t.intc := by
  intro s h; refine ⟨_, rfl, ?_⟩; simp (maxDischargeDepth := 20) [h]

@[simp] theorem firstCommands_rises : ∀ s, Rises s.intc → Rises (State.firstCommands s).intc := by
  intro s h; unfold State.firstCommands; simp (maxDischargeDepth := 20) [h]

@[simp] theorem firstSettings_rises : ∀ s, Rises s.intc → Rises (State.firstSettings s).intc := by
  intro s h; unfold State.firstSettings; (try dsimp only)
  repeat'
    with_reducible first
      | assumption | apply chain_rises | apply ite_rises | apply enforce_rises | apply channelBoundary_rises
      | apply spareBoundary_rises | apply trimsBoundary_rises | apply firstCommands_rises | intro _ | split
      | dsimp only

@[simp] theorem openAll_rises : ∀ s, Rises s.intc → Rises (State.openAll s).intc := by
  intro s h; unfold State.openAll; (try dsimp only)
  repeat'
    with_reducible first
      | assumption | apply chain_rises | apply ite_rises | apply rebase_rises | apply openProfile_rises | intro _
      | split | dsimp only

@[simp] theorem raiseUnmetered_rises : ∀ s, Rises s.intc → Rises (State.raiseUnmetered s).intc := by
  intro s h; unfold State.raiseUnmetered; simp (maxDischargeDepth := 20) [h]

@[simp] theorem cellAlarm_rises : ∀ k s, Rises s.intc → Rises (State.cellAlarm k s).intc := by
  intro k s h; unfold State.cellAlarm; simp (maxDischargeDepth := 20) [h]

@[simp] theorem startMetering_rises : ∀ k m s, Rises s.intc → Rises (State.startMetering k m s).intc := by
  intro k m s h; unfold State.startMetering; (try dsimp only)
  repeat'
    with_reducible first
      | assumption | apply chain_rises | apply ite_rises | apply firstSettings_rises | apply openAll_rises
      | apply cellAlarm_rises | apply raiseUnmetered_rises | apply refreshDirty_rises | apply startWaiting_rises
      | intro _ | split | dsimp only

theorem execFirstMeteredCycle_rises : ∀ s, Rises s.intc → ∃ t, execFirstMeteredCycle s = .next t ∧ Rises t.intc := by
  intro s h; refine ⟨_, rfl, ?_⟩; (repeat' split) <;> simp (maxDischargeDepth := 20) [h]

theorem execStartupFreerunFallback_rises : ∀ s, Rises s.intc →
    ∃ t, execStartupFreerunFallback s = .next t ∧ Rises t.intc := by
  intro s h; refine ⟨_, rfl, ?_⟩; simp (maxDischargeDepth := 20) [h]

@[simp] theorem coresBack_rises : ∀ s, Rises s.intc → Rises (State.coresBack s).intc := by
  intro s h; unfold State.coresBack; split
  · dsimp only; split
    · exact route_rises _ (selfCheck_rises _ h)
    · refine route_rises _ ?_; exact h
  · exact h

/-- So does the edge of the crystal that an empty queue passes. -/
theorem crystalEdge_rises (s : State) (h : Rises s.intc) : Rises (crystalEdge s).intc := coresBack_rises s h

/-- Stacks that rise within 1 to 15 hold at most fifteen entries. -/
theorem Rises.length_le {c : Intc} (h : Rises c) (t : Fin 6) : c.targets[t].stack.length ≤ 15 := by
  have aux : ∀ (l : List Nat) (n : Nat), l.Pairwise (· > ·) → (∀ x ∈ l, 1 ≤ x ∧ x ≤ n) → l.length ≤ n := by
    intro l
    induction l with
    | nil => intro n _ _; exact Nat.zero_le n
    | cons a l ih =>
      intro n hp hb
      have ha := hb a List.mem_cons_self
      rw [List.pairwise_cons] at hp
      have := ih (a - 1) hp.2 fun x hx => ⟨(hb x (List.mem_cons_of_mem _ hx)).1, by have := hp.1 x hx; omega⟩
      simp only [List.length_cons]; omega
  have := aux _ 15 (h t).1 fun x hx => by
    obtain ⟨e, he, rfl⟩ := List.mem_map.1 hx
    exact (h t).2 e he
  simpa using this

end Sys2Proof.Laws
end

