-- ==== Sys2Proof/Laws/Store.lean ====
section
/-!
SUPPORT. The laws of the parameter stores: a word reads back as written, other words keep their value, and every write keeps
the canonical form.
-/
namespace Sys2Proof.Machine

@[simp] theorem Regs.at_nil (a : Nat) : Regs.at [] a = resetWord a := rfl

theorem Regs.at_drop_ne (m : Regs) (a b : Nat) (h : b ≠ a) : (m.drop a).at b = m.at b := by
  induction m with
  | nil => rfl
  | cons e m ih =>
    obtain ⟨c, w⟩ := e
    by_cases hc : c = a
    · subst hc
      have hb : c ≠ b := fun x => h x.symm
      have hd : Regs.drop ((c, w) :: m) c = Regs.drop m c := by simp [Regs.drop]
      rw [hd, ih]
      simp only [Regs.at, if_neg hb]
    · have hd : Regs.drop ((c, w) :: m) a = (c, w) :: Regs.drop m a := by simp [Regs.drop, hc]
      rw [hd]
      simp only [Regs.at]
      split
      · rfl
      · exact ih

theorem Regs.at_drop_self (m : Regs) (a : Nat) : (m.drop a).at a = resetWord a := by
  induction m with
  | nil => rfl
  | cons e m ih =>
    obtain ⟨c, w⟩ := e
    by_cases hc : c = a
    · have hd : Regs.drop ((c, w) :: m) a = Regs.drop m a := by simp [Regs.drop, hc]
      rw [hd, ih]
    · have hd : Regs.drop ((c, w) :: m) a = (c, w) :: Regs.drop m a := by simp [Regs.drop, hc]
      rw [hd]
      simp only [Regs.at, if_neg hc, ih]

theorem Regs.at_insert (m : Regs) (a b : Nat) (w : Word) (h : ∀ x ∈ m, x.1 ≠ a) :
    (Regs.insert a w m).at b = if b = a then w else m.at b := by
  induction m with
  | nil =>
    by_cases hb : b = a
    · subst hb; simp [Regs.insert, Regs.at]
    · simp [Regs.insert, Regs.at, hb, Ne.symm hb]
  | cons e m ih =>
    obtain ⟨c, v⟩ := e
    have hca : c ≠ a := h (c, v) (by simp)
    have ih' := ih fun x hx => h x (by simp [hx])
    simp only [Regs.insert]
    split
    · by_cases hb : b = a
      · subst hb; simp [Regs.at]
      · simp [Regs.at, hb, Ne.symm hb]
    · rw [if_neg (Ne.symm hca)]
      simp only [Regs.at, ih']
      by_cases hb : b = a
      · subst hb; simp [hca]
      · simp [hb]

/-- A write is read back, and leaves every other word as it was. -/
theorem Regs.at_put (m : Regs) (a b : Nat) (w : Word) : (m.put a w).at b = if b = a then w else m.at b := by
  simp only [Regs.put]
  split
  · next hw =>
    by_cases hb : b = a
    · subst hb; rw [at_drop_self, if_pos rfl, hw]
    · rw [at_drop_ne _ _ _ hb, if_neg hb]
  · rw [at_insert _ _ _ _ (by intro x hx; simpa [Regs.drop] using (List.mem_filter.mp hx).2)]
    by_cases hb : b = a
    · simp [hb]
    · simp only [if_neg hb, at_drop_ne _ _ _ hb]

/-- The canonical form as facts about the list. -/
theorem Regs.wf_iff (m : Regs) :
    m.wf = true ↔ m.Pairwise (fun x y => x.1 < y.1) ∧ ∀ x ∈ m, x.2 ≠ resetWord x.1 := by
  induction m with
  | nil => simp [Regs.wf]
  | cons e m ih =>
    obtain ⟨a, w⟩ := e
    cases m with
    | nil => simp [Regs.wf]
    | cons f m =>
      obtain ⟨b, v⟩ := f
      simp only [Regs.wf, Bool.and_eq_true, decide_eq_true_eq, bne_iff_ne, ih, List.pairwise_cons, List.mem_cons,
        forall_eq_or_imp]
      constructor
      · rintro ⟨⟨hab, hw⟩, ⟨hb, hp⟩, hv, hm⟩
        exact ⟨⟨⟨hab, fun x hx => Nat.lt_trans hab (hb x hx)⟩, hb, hp⟩, hw, hv, hm⟩
      · rintro ⟨⟨⟨hab, _⟩, hb, hp⟩, hw, hv, hm⟩
        exact ⟨⟨hab, hw⟩, ⟨hb, hp⟩, hv, hm⟩

theorem Regs.drop_wf (m : Regs) (a : Nat) (h : m.wf = true) : (m.drop a).wf = true := by
  rw [wf_iff] at *
  exact ⟨h.1.sublist List.filter_sublist, fun x hx => h.2 x (List.mem_filter.mp hx).1⟩

theorem Regs.mem_insert (m : Regs) (a : Nat) (w : Word) (x : Nat × Word) (h : x ∈ Regs.insert a w m) :
    x = (a, w) ∨ x ∈ m := by
  induction m with
  | nil => simpa [Regs.insert] using h
  | cons e m ih =>
    obtain ⟨c, v⟩ := e
    simp only [Regs.insert] at h
    split at h
    · simpa using h
    · split at h
      · rcases List.mem_cons.mp h with h | h
        · exact .inl h
        · exact .inr (by simp [h])
      · rcases List.mem_cons.mp h with h | h
        · exact .inr (by simp [h])
        · rcases ih h with h | h
          · exact .inl h
          · exact .inr (by simp [h])

theorem Regs.insert_wf (m : Regs) (a : Nat) (w : Word) (h : m.wf = true) (hw : w ≠ resetWord a) :
    (Regs.insert a w m).wf = true := by
  induction m with
  | nil => simpa [Regs.insert, Regs.wf] using hw
  | cons e m ih =>
    obtain ⟨c, v⟩ := e
    have hm := (wf_iff _).mp h
    have htail : Regs.wf m = true := (wf_iff _).mpr ⟨(List.pairwise_cons.mp hm.1).2, fun x hx => hm.2 x (by simp [hx])⟩
    have hlt := (List.pairwise_cons.mp hm.1).1
    simp only [Regs.insert]
    split
    · next hac =>
      rw [wf_iff]
      refine ⟨List.pairwise_cons.mpr ⟨?_, hm.1⟩, ?_⟩
      · intro x hx
        rcases List.mem_cons.mp hx with hx | hx
        · subst hx; exact hac
        · exact Nat.lt_trans hac (hlt x hx)
      · intro x hx
        rcases List.mem_cons.mp hx with hx | hx
        · subst hx; exact hw
        · exact hm.2 x hx
    · split
      · next hac hEq =>
        rw [wf_iff]
        refine ⟨List.pairwise_cons.mpr ⟨fun x hx => by rw [hEq]; exact hlt x hx, (List.pairwise_cons.mp hm.1).2⟩, ?_⟩
        intro x hx
        rcases List.mem_cons.mp hx with hx | hx
        · subst hx; exact hw
        · exact hm.2 x (by simp [hx])
      · next hac hne =>
        have hi := (wf_iff _).mp (ih htail)
        rw [wf_iff]
        refine ⟨List.pairwise_cons.mpr ⟨?_, hi.1⟩, ?_⟩
        · intro x hx
          rcases Regs.mem_insert m a w x hx with hx | hx
          · subst hx; exact Nat.lt_of_le_of_ne (Nat.le_of_not_lt hac) (Ne.symm hne)
          · exact hlt x hx
        · intro x hx
          rcases List.mem_cons.mp hx with hx | hx
          · subst hx; exact hm.2 _ (by simp)
          · exact hi.2 x hx

/-- A write keeps the canonical form. -/
theorem Regs.put_wf (m : Regs) (a : Nat) (w : Word) (h : m.wf = true) : (m.put a w).wf = true := by
  simp only [Regs.put]
  split
  · exact Regs.drop_wf m a h
  · next hw => exact Regs.insert_wf _ a w (Regs.drop_wf m a h) hw

end Sys2Proof.Machine
end

