-- ==== Sys2Proof/Tests/Slice0.lean ====
section
/-!
SUPPORT. Tests: ill-formed commands that the check refuses, states and operands that meet the hypotheses of every statement, and
steps on small states. Every expected value is taken from the spec.
-/
namespace Sys2Proof.Tests

open Sys2Proof.Machine

set_option Elab.async false

/-! ### Small states -/

/-- A request of a LEGAL session on port A. -/
def req : Req := ⟨.a, 7, .legal, 3, 5, 1, false⟩

/-- The same request on port C. -/
def reqC : Req := { req with port := .c }

/-- A session of that port. -/
def sess : Session := ⟨7, .legal, false, .a, 0xFFFFFFFF, 0, 0, 0, none, false, ([], [])⟩

/-- A part in RUN: every start-up phase over, metering, the cores up. -/
def run : State :=
  { State.reset with
    dev := { State.reset.dev with
      st := .run
      startup := { State.reset.dev.startup with
        xtalPassed := true, restored := true, tested := true, portsReady := true, configDone := true, pathReady := true
        metering := true } }
    anv := { State.reset.anv with up := true, slot := 0 }
    scr := { State.reset.scr with sessions := [sess] } }

/-- A start-up with the journal restored and the measurement path ready. -/
def starting : State :=
  { run with dev := { run.dev with st := .start, startup := { run.dev.startup with metering := false } } }

/-- A power-fail warning. -/
def warned : State := { run with pwr := { run.pwr with pfail := true } }

/-- The image of a folio cut at reset. -/
def img : Image := State.reset.image

/-- A sealed folio. -/
def folio : Folio := ⟨4, 0, 0, 10, .zero, .zero, img, []⟩

/-- A part with a sealed folio and a lease on it. -/
def withFolio : State := { run with fol := { run.fol with shut := [folio], next := 5, leases := [⟨9, 7, 4, 30⟩] } }

/-- A folio with an uncorrectable word in a short counter of point 0. -/
def withBad : State := { withFolio with fol := { withFolio.fol with shut := [{ folio with bad := [0x300] }] } }

/-- A command of that session was judged at its admission. -/
def judged (op : Nat) (v : Verdict) : State :=
  { withFolio with scr := { withFolio.scr with
      queues := upd withFolio.scr.queues 3 fun q => { q with entries := [⟨7, false, .a, 5, op, [], 0, false, some v⟩] } } }

/-- A part whose parameters hold a few words. -/
def params (l : Regs) (s : State) : State := { s with cfg := l, eff := l }

/-- The holder of the Inkwell lock. -/
def locked : State := { run with scr := { run.scr with inkLock := some (7, 60, 0) } }

/-- A calendar set to a valid time. -/
def dated (t : CalTime) : State := { run with cld := { run.cld with time := t, valid := true, lost := false } }

/-- The sub-second counter has carried, and the second boundary is still to be taken. -/
def carried (t : CalTime) : State := { dated t with cld := { (dated t).cld with ahead := 1 } }

/-- Records in every ring. -/
def recorded : State :=
  { run with
    ev := { run.ev with ring := [⟨6, 0x21, .zero, 0, true, true, false, 0, []⟩], next := 7 }
    prof := { run.prof with ring := [⟨2, [], [0], false⟩], next := 3, newest := 2 }
    wb := { run.wb with ring := [⟨5, zeros 11200, [0]⟩], next := 6 }
    pq := { run.pq with next := 9, caps := upd run.pq.caps 0 fun c => { c with st := .filled, number := 8 } }
    anv := { run.anv with log := [⟨3, [0], false⟩], logNext := 4 } }

/-- A capture that has just been triggered. -/
def capturing : State :=
  { run with pq := { run.pq with caps := upd run.pq.caps 1 fun c => { c with st := .filling, triggers := [(.zero, 10)] } } }

/-- A firmware update in a state, with an image in the spare slot. -/
def updating (x : FwState) (slot : FwSlot) : State :=
  { locked with anv := { locked.anv with fw := x, slots := upd locked.anv.slots locked.anv.spareSlot fun _ => slot } }

/-- A challenge given and a source that has fired. -/
def challenged : State :=
  { run with
    scr := { run.scr with challenge := some ⟨7, 1, 0x1234, 0⟩ }
    grd := { run.grd with srcs := upd run.grd.srcs 0 fun x => { x with fired := true } } }

/-- A panel that is on, with one region of 8 rows and 16 columns and a table for transition 1. -/
def panel : State :=
  params [(Reg.pnlCfg.addr, 1), (Reg.pnlGeom.addr, 0x00080010), ((Reg.pnlReg 0).addr, 0x00080000)]
    { run with pnl := { run.pnl with tables := (List.range 8).map fun b => (1, b, []) } }

/-- Isolation in force. -/
def closed : State := { run with grd := { run.grd with srcs := upd run.grd.srcs 0 fun x => { x with fired := true, iso := true } } }

/-- One table of a single frame pair, every code balanced. -/
def table : List Byte := [2, 0, 0, 0] ++ zeros 8

/-! ### Hypotheses that can be met -/

theorem wit_IdleStepIsOneCrystalEdge : run.pending = [] := by decide +kernel

theorem wit_QueueAndOrderingCodeKept : ∃ t, exec .lsyncTimeout { run with scr := { run.scr with legalEver := true } } = .next t :=
  ⟨_, rfl⟩

theorem wit_StoresStayCanonical : State.reset.storesWf = true ∧ ∃ t, step State.reset = .next t :=
  ⟨by decide +kernel, _, rfl⟩

theorem wit_WordReadsBackAsWritten : (Reg.ch 135 .afe).atBoundary = true ∧ (Reg.scrCfg).atBoundary = false := by decide

theorem wit_AddressMapRoundTrip : Reg.tblvalid true ≠ .reserved := by decide

theorem wit_CompletionWaitsOnItsPort : run.answerable 0x0001 req = true ∧ portIdx .b ≠ portIdx req.port ∧
    ((run.entry? 0x0001 req).map Entry.hello).getD (0x0001 = 2) = false ∧ run.session? req.session = some sess := by decide +kernel

theorem wit_HeldCommandsChangeNothing : hostOf (.eventAck req 5) = some (0x0302, req) ∧ warned.ready 0x0302 req = false := by
  decide +kernel

/-- The cores asleep: routing leaves out their targets, which Denhamon sets (R293). -/
def quiet (s : State) : State := { s with dev := { s.dev with coresAsleep := true } }

/-- A frame with its trailer (R197, R198). -/
def framed (body : List Byte) : List Byte := body ++ le 4 (crc32c body).toNat

/-- NOP on queue 3 of session 7: magic, version, session and queue, tag 5, PRIO 4, opcode, no payload, sequence 1 (R197). -/
def nopFrame : List Byte := framed ([0xC5, 1] ++ le 2 (7 + 3 * 1024) ++ [5, 0x40, 1, 0, 0, 0, 0, 0, 1, 0, 0, 0])

/-- Queue 3 serves port A for every role. -/
def queued : State := params [((Reg.queCfg 3).addr, 0x8F080010)] run

/-- A session frame of queue 3 and tag 5 on session 7: version, PRIO 4 with its flags, opcode, sequence number (R197). -/
def frameOf (version flags op seq : Nat) : List Byte :=
  framed ([0xC5] ++ le 1 version ++ le 2 (7 + 3 * 1024) ++ [5] ++ le 1 (0x40 + flags) ++ le 2 op ++ le 2 0 ++ le 2 0 ++ le 4 seq)

/-- An entry of session 7 in its queue. -/
def waiting (tag : Fin 128) : Entry := ⟨7, false, .a, tag, 1, [], 0, false, none⟩

theorem wit_RejectionsComeInOrder :
    (queued.scr.ports[portIdx .a].imm = none ∧ frameIn .c [0, 1] = none ∧ frameIn .a nopFrame = some nopFrame) ∧
    (let h := headerOf nopFrame
     h.isHello = false ∧ h.magic = 0xC5 ∧ nopFrame.length = h.size ∧ frameFault true nopFrame h = none) ∧
    (crc32c ((nopFrame.set 4 4).take 16) ≠ BitVec.ofNat 32 (field (nopFrame.set 4 4) 16 4) ∧
      (headerOf (frameOf 2 0 1 1)).version = 2 ∧ (headerOf (frameOf 1 2 1 1)).flags / 2 % 4 = 1) ∧
    (let h := headerOf (frameOf 1 8 1 1)
     h.isHello = true ∧ (h.opcode = 2 && queued.queueServes h.qid .a && bit (queued.live (.queCfg h.qid)) 30) = false) ∧
    ((∀ x, (quiet State.reset).session? 7 = some x → x.port ≠ .a) ∧ queued.session? 7 = some sess ∧ sess.port = .a ∧
      sess.corrupt = false ∧ (sess.opened (headerOf nopFrame) nopFrame).isSome = true ∧
      (headerOf (frameOf 1 1 1 1)).isSec ≠ sess.secured) ∧
    ((headerOf (frameOf 1 0 1 0)).seq ≤ sess.hostSeq ∧ sess.hostSeq < (headerOf nopFrame).seq) ∧
    (({ sess with qmask := 0 } : Session).qmask.getLsbD 3 = false ∧ sess.qmask.getLsbD 3 = true ∧
      queued.queueServes 3 .a = true ∧ queued.queueAdmits 3 .legal = true) ∧
    ((opRow? 0x0A01).isNone = true ∧ (opRow? 0x0401).isSome = true ∧ permitted 0x0401 .reader = false ∧
      permitted 1 .legal = true) := by decide +kernel

/-- Each of the four findings on room, one state for each (R213). -/
theorem wit_room : let h := headerOf nopFrame
    let full := fun (n : Nat) (w : Word) => params [((Reg.queCfg 3).addr, w)] { run with scr := { run.scr with
      queues := upd run.scr.queues 3 fun q => { q with entries := List.replicate n (waiting 6) } } }
    ({ queued with scr := { queued.scr with tags := [⟨7, 5, false, 3, false⟩] } } : State).roomFault h = some .tagInUse ∧
    (full 2 0x8F020010).roomFault h = some .noCredit ∧ (full 4 0x8F080004).roomFault h = some .queueFull ∧
    ({ queued with scr := { queued.scr with tags := List.replicate 128 ⟨9, 1, false, 3, false⟩ } } : State).roomFault h =
      some .noTag ∧ queued.roomFault h = none := by decide +kernel

theorem wit_IsolateClosesActCommands : let o := { req with role := .operator }
    let v := { req with role := .service }
    (hostOf (.eventAck o 5) = some (0x0302, o) ∧ closed.ready 0x0302 o = true ∧ permitted 0x0302 o.role = true ∧
      closed.isolated = true ∧ isAct 0x0302 = true) ∧
    (hostOf (.fwBegin v 1) = some (0x0601, v) ∧ closed.ready 0x0601 v = true ∧ permitted 0x0601 v.role = true ∧
      isAct 0x0601 = true) := by decide +kernel

/-- A plain SESSION_OPEN as READER on queue 0 of port A. -/
def open_ : List Byte := [2, 0, 0, 0, 1, 0, 0, 0]

theorem wit_SessionCommandsComplete :
    run.served 0x0001 req = true ∧
    (let r : Req := ⟨.a, 0, .reader, 0, 0, 0, false⟩
     run.served 0x0002 r = true ∧ (run.woken 0x0002).openFault r (fit 152 open_) = none) ∧
    run.served 0x0003 req = true ∧ run.served 0x0004 req = true ∧ (15#8).toNat ≤ 15 := by decide +kernel

theorem wit_FolioReadsComplete :
    (withFolio.served 0x0101 req = true ∧ rangeFits 0x27FFC 4 4088 163840 = true ∧ withFolio.broken folio 0x27FFC 4 = false ∧
      withBad.broken { folio with bad := [0x300] } 0x300 4 = true) ∧
    (withFolio.served 0x0106 req = true ∧ withFolio.grd.quenched = false ∧ folio.flags % 16 < 8) ∧
    (withFolio.served 0x0201 req = true ∧ rangeOk 0x71000 1 = true ∧ ∀ i < 1, (regOf (0x71000 + 4 * i)).captured = false) ∧
    (rangeOk 0x41010 1 = true ∧ (∃ i < 1, (regOf (0x41010 + 4 * i)).captured = true) ∧
      ∀ i < 1, (regOf (0x41010 + 4 * i)).captured = true →
        withFolio.broken folio (folioOffset (regOf (0x41010 + 4 * i))) 4 = false) ∧
    (withFolio.served 0x0203 req = true ∧ 36 + 92 ≤ 128) ∧ withFolio.served 0x0501 req = true ∧
    (judged 0x0101 (.named (.bad .revoked))).served 0x0101 req = true := by decide +kernel

theorem wit_folio_named : withFolio.namedFor 0x0101 req .latest = .folio folio ∧ withFolio.namedFor 0x0101 req (.number 4) = .folio folio ∧
    withFolio.namedFor 0x0101 req (.lease 9) = .folio folio ∧ (withFolio.woken 0x0106).namedFor 0x0106 req .latest = .folio folio ∧
    withFolio.namedFor 0x0201 req .latest = .folio folio ∧ withFolio.namedFor 0x0203 req .latest = .folio folio ∧
    withFolio.namedFor 0x0501 req .latest = .folio folio ∧
    (judged 0x0101 (.named (.folio folio))).namedFor 0x0101 req (.lease 1) = .folio folio := ⟨rfl, rfl, rfl, rfl, rfl, rfl, rfl, rfl⟩

theorem wit_LeaseCommandsSettled :
    (judged 0x0102 (.reply .folioGone [])).served 0x0102 req = true ∧ (judged 0x0103 (.reply .revoked [])).served 0x0103 req = true ∧
    (judged 0x0104 (.reply .ok [])).served 0x0104 req = true ∧ (judged 0x0105 (.reply .ok [1])).served 0x0105 req = true ∧
    (judged 0x0102 (.reply .folioGone [])).settled 0x0102 req = some (.reply .folioGone []) ∧
    (judged 0x0105 (.reply .ok [1])).settled 0x0105 req = some (.reply .ok [1]) := by
  exact ⟨by decide +kernel, by decide +kernel, by decide +kernel, by decide +kernel, rfl, rfl⟩

theorem wit_lease_unsettled : withFolio.settled 0x0102 req = none ∧ withFolio.settled 0x0103 req = none ∧
    withFolio.settled 0x0104 req = none ∧ run.settled 0x0105 req = none ∧ withFolio.named req.session .latest = .folio folio ∧
    ∀ id, Selector.latest ≠ .lease id :=
  ⟨rfl, rfl, rfl, rfl, rfl, fun _ h => by cases h⟩

theorem wit_LeaseCommandsComplete :
    (withFolio.served 0x0102 req = true ∧ withFolio.leaseTime 600 = some 600 ∧ withFolio.leaseTime 0 = some 20 ∧
      withFolio.fol.leases.length < 1024 ∧ folio.number ∈ withFolio.fol.held) ∧
    ({ withFolio with fol := { withFolio.fol with leases := [] } } : State).fol.held.length < withFolio.fol.limit ∧
    (withFolio.served 0x0103 req = true ∧ withFolio.fol.leases.find? (Lease.isOf req.session 9) = some ⟨9, 7, 4, 30⟩) ∧
    (withFolio.served 0x0104 req = true ∧ (withFolio.fol.leases.any (Lease.isOf req.session 9)) = true) ∧
    (run.served 0x0105 req = true ∧ run.dev.startup.restored = true) := by decide +kernel

theorem wit_RecordCommandsComplete :
    (recorded.served 0x0301 req = true ∧ 6 < recorded.ev.next ∧
      (recorded.ev.ring.head?.map Event.number).getD recorded.ev.next ≤ 6) ∧
    (recorded.served 0x0302 req = true ∧ 6 < recorded.ev.next) ∧
    (recorded.served 0x0303 req = true ∧ 2 < recorded.prof.next ∧
      (consecutive 2 (recorded.prof.ring.filter fun x => 2 ≤ x.number)).take 3 = [⟨2, [], [0], false⟩]) ∧
    (recorded.served 0x0304 req = true ∧ recorded.prof.newest ≠ noNumber ∧ 2 ≤ recorded.prof.newest) ∧
    (recorded.served 0x0305 req = true ∧ rangeFits 11196 4 4088 11200 = true ∧ 0 < (4 : Nat) ∧ 5 < recorded.wb.next ∧
      (recorded.wb.ring.find? fun x => x.number = 5).map WbSet.bad = some [0] ∧ badIn [0] 11196 4 = false) ∧
    (recorded.served 0x0306 req = true ∧ rangeFits 524284 4 4088 524288 = true ∧ recorded.pq.holds 8 = some 0 ∧
      8 < recorded.pq.next ∧ recorded.pq.caps[(0 : Fin 2)].st ≠ .filling) ∧
    (capturing.served 0x0307 req = true ∧ capturing.pq.runningAt capturing.stampNow = some 1 ∧ capturing.pwr.pfail = false) ∧
    (let s1 := (run.woken 0x0307).trigger (run.woken 0x0307).stampNow 10
     run.served 0x0307 req = true ∧ s1.pq.runningAt (run.woken 0x0307).stampNow = some 0) ∧
    recorded.served 0x0308 req = true ∧
    (recorded.served 0x0309 req = true ∧ 3 < recorded.anv.logNext ∧
      (recorded.anv.log.dropWhile fun x => x.number ≠ 3) = [⟨3, [0], false⟩]) := by decide +kernel

theorem wit_MeteringCommandsComplete :
    (run.served 0x0401 req = true ∧ (1#128) ≠ 0 ∧ (run.mcal.resets.any fun x => x.1 = some req) = false) ∧
    (run.served 0x0402 req = true ∧ (run.mcal.waiting.any fun x => x.req = some req) = false) ∧
    run.served 0x0403 req = true ∧
    (run.served 0x0404 req = true ∧ (run.mcal.resolves.any fun x => x.req = some req) = false) ∧
    (run.served 0x0405 req = true ∧ ((255#8 = 0) ∨ (0 < (1000000#32).toNat ∧ (1000000#32).toNat ≤ 1000000))) := by decide +kernel

/-- A digest is 32 bytes, so that CAL_COMMIT can present that of the staged set (R126). -/
theorem wit_digest (c : CalSet) : fit 32 c.digest = c.digest := by
  have h : c.digest.length = 32 := by
    unfold CalSet.digest sha256
    simp only [List.length_append, be, List.length_reverse]
    rfl
  simp [fit, List.take_of_length_le, h, zeros]

theorem wit_ManagementCommandsComplete :
    (run.served 0x0502 req = true ∧ (blotsOf (1#128 <<< 35)).all (blotRole req.role) = true) ∧
    (run.served 0x0503 req = true ∧ run.dev.st = .run ∧ run.commitRuns = false) ∧
    (let s : State := { run with dev := { run.dev with st := .banked } }
     s.served 0x0503 req = true ∧ s.dev.st = .banked) ∧
    run.served 0x0504 req = true ∧ run.served 0x0505 req = true ∧ run.served 0x0506 req = true ∧
    (locked.served 0x0507 req = true ∧ locked.holdsLock req.session = true ∧ locked.anv.saveDue = none) ∧
    (run.served 0x0508 req = true ∧ run.scr.inkLock = none) ∧ locked.served 0x0509 req = true := by decide +kernel

theorem wit_FirmwareCommandsComplete : let v := { req with role := .service }
    (locked.served 0x0601 v = true ∧ locked.holdsLock v.session = true ∧ locked.anv.fw ≠ .trial) ∧
    (let s := updating .loading ⟨[], 1048576, false, []⟩
     s.served 0x0602 v = true ∧ s.holdsLock v.session = true ∧ s.anv.fw = .loading ∧
      1044488 + (zeros 4088).length ≤ s.anv.slots[s.anv.spareSlot].length) ∧
    (let s := updating .loading ⟨[], 100, false, []⟩
     s.served 0x0603 v = true ∧ s.holdsLock v.session = true ∧ s.anv.fw = .loading ∧
      (s.woken 0x0603).imagePasses (s.woken 0x0603).anv.slots[(s.woken 0x0603).anv.spareSlot] = false) ∧
    (let s := updating .verified ⟨[], 8, true, sha384 (FwSlot.bytes ⟨[], 8, true, []⟩)⟩
     s.served 0x0604 v = true ∧ s.holdsLock v.session = true ∧ s.anv.fw = .verified ∧
      s.anv.slots[s.anv.spareSlot].verified = true ∧
      sha384 s.anv.slots[s.anv.spareSlot].bytes = s.anv.slots[s.anv.spareSlot].hash) ∧
    (let s := updating .verified ⟨[], 8, false, []⟩
     s.served 0x0604 v = true ∧ s.holdsLock v.session = true ∧ s.anv.fw = .verified ∧
      s.anv.slots[s.anv.spareSlot].verified = false) ∧
    (let s := updating .trial ⟨[], 0, true, []⟩
     s.powered = true ∧ s.anv.fw = .trial ∧ s.pwr.pfail = false ∧
      ({ s with pwr := { s.pwr with pfail := true } } : State).pwr.pfail = true) := by decide +kernel

/-- An activation that was admitted while its session held the lock goes on without it (R331), and both outcomes of the restart's
self-check are open. -/
theorem wit_activation : (judged 0x0604 (.judged true)).settled 0x0604 req = some (.judged true) ∧
    (Config.freeNat run.draws % 2 = 0 ∨ Config.freeNat run.draws % 2 = 1) :=
  ⟨rfl, by omega⟩

theorem wit_CalendarCommandsComplete :
    (run.served 0x0701 req = true ∧ cldOk ⟨0x59, 0x59, 0x23, 7, 0x31, 0x12, 0x99, 0x21, 32767⟩ = true) ∧
    (let s := dated ⟨2199, 12, 31, 23, 59, 59, 0⟩
     s.served 0x0702 req = true ∧ s.cld.valid = true ∧ (32767 : Int).natAbs ≤ 2 ^ 31 ∧
      (s.cld.counts : Int) + 32767 < calEnd ∧ 0 ≤ (s.cld.counts : Int) + 32767) ∧
    ((-1048576 : Int).natAbs ≤ 2 ^ 20) ∧ run.served 0x0703 req = true := by decide +kernel

theorem wit_CalendarEventsComplete :
    (let s := carried ⟨2199, 12, 31, 23, 59, 58, 32767⟩
     s.vaon = true ∧ s.cld.range = false ∧ s.cld.ahead ≠ 0) ∧
    ((dated ⟨2199, 12, 31, 23, 59, 58, 0⟩).cld.range = true ∨ (dated ⟨2199, 12, 31, 23, 59, 58, 0⟩).cld.ahead = 0) ∧
    calEnd ≤ calCounts (dated ⟨2199, 12, 31, 23, 59, 59, 32766⟩).cld.tick.time + 1 ∧
    run.powered = true := by decide +kernel

theorem wit_CalendarCountsRoundTrip : calEnd - 1 < calEnd := by decide +kernel

theorem wit_GuardCommandsComplete :
    run.served 0x0801 req = true ∧
    (challenged.served 0x0802 req = true ∧ challenged.settled 0x0802 req = none ∧
      challenged.scr.challenge = some ⟨7, 1, 0x1234, 0⟩) ∧
    ((judged 0x0802 (.confirms ⟨7, 1, 0x1234, 0⟩)).served 0x0802 req = true ∧
      (judged 0x0802 (.confirms ⟨7, 1, 0x1234, 0⟩)).settled 0x0802 req = some (.confirms ⟨7, 1, 0x1234, 0⟩)) ∧
    (run.served 0x0803 req = true ∧ run.guard.srcs[(11 : Fin 16)].fused = false) ∧
    run.served 0x0804 req = true := by decide +kernel

/-- The core supply is off, and the always-on supply is not fed from the cell yet. -/
def between : State := { run with dev := { run.dev with st := .cell } }

theorem wit_GuardDeclarationsComplete : run.powered = true ∧ run.grd.watches false 8 = true ∧ run.grd.watches true 0 = true ∧
    (run.group false 1 = [0] ∧ run.group false 0x100 = []) ∧
    (run.guard.declared 0 [(3, true)]).getLsbD 7 ≠ (run.guard.declared 0 [(3, false)]).getLsbD 7 ∧
    ({ run with flt := { run.flt with guardStop := true } } : State).flt.guardStop = true ∧
    (run.grd.srcs[(0 : Fin 16)].mask.getLsbD 3 = true) ∧ (run.grd.srcs[(8 : Fin 16)].mask.getLsbD 3 = false) ∧
    (between.powered = false ∧ between.vaon = true ∧ between.pwr.vbatOn = false ∧ between.group true 1 = [0]) ∧
    ({ run with pwr := { run.pwr with vbatOn := true } } : State).pwr.vbatOn = true := by decide +kernel

theorem wit_PanelCommandsComplete :
    panel.served 0x0901 req = true ∧ tableFault table = none ∧
    (panel.served 0x0902 req = true ∧ 4 * (0 + (zeros 32).length) ≤ regionRows panel.live 0 * cols panel.live) ∧
    (panel.served 0x0903 req = true ∧ panel.updateFault 0 1 = none ∧ panel.pnl.closeout = 0 ∧
      panel.pnl.regions[(0 : Fin 8)].run = none ∧ panel.pnl.regions[(0 : Fin 8)].dirty = false) ∧
    (let s : State := { panel with pnl := { panel.pnl with tables := [], regions := upd panel.pnl.regions 1 fun x => { x with dirty := true } } }
     s.canRefresh = false) ∧
    (let s : State := { panel with pnl := { panel.pnl with
        regions := upd panel.pnl.regions 0 fun x => { x with run := some ⟨⟨1, 1, false, false⟩, [], 0, false, false⟩ } } }
     s.served 0x0903 req = true ∧ s.updateFault 0 1 = none ∧ s.pnl.closeout = 0 ∧
      s.pnl.regions[(0 : Fin 8)].run = some ⟨⟨1, 1, false, false⟩, [], 0, false, false⟩) := by decide +kernel

theorem wit_PanelEventsComplete :
    panel.panelRuns = true ∧
    (let s : State := { panel with pnl := { panel.pnl with
        regions := upd panel.pnl.regions 0 fun x => { x with run := some ⟨⟨1, 1, false, false⟩, [], 0, false, false⟩ } } }
     s.powered = true ∧ s.pnl.closeout = 0 ∧ s.pnl.railDown = false ∧ s.pnl.busy = true ∧ s.pnl.rail < 5) ∧
    (let s : State := { panel with pnl := { panel.pnl with second := true } }
     s.panelRuns = true ∧ s.pnl.second = true ∧ s.pnl.closeout = 0) ∧
    (let s : State := { panel with pnl := { panel.pnl with second := true, closeout := 1 } }
     s.panelRuns = true ∧ s.pnl.second = true ∧ s.pnl.closeout = 1 ∧ s.pnl.regions[(0 : Fin 8)].slot = none) ∧
    (let s : State := { panel with pnl := { panel.pnl with rail := 1, railDown := true } }
     s.powered = true ∧ s.pnl.closeout = 0 ∧ s.pnl.railDown = true) ∧
    (let s : State := { panel with pnl := { panel.pnl with rail := 5, railDown := true, closeout := 2 } }
     s.powered = true ∧ s.pnl.closeout = 2 ∧ s.pnl.railDown = true ∧ 1 < s.pnl.rail) ∧
    (let s : State := { panel with pnl := { panel.pnl with rail := 1, railNew := true } }
     s.powered = true ∧ s.pnl.railTurn = some 0) ∧
    panel.pnl.rail = 0 ∧ railBad 3 (auxValue 15 3 2048) = false ∧ railBad 0 (auxValue 15 0 0) = true := by decide +kernel

/-- A fenced engine and a crystal that has held for 10 s, on the backup oscillator. -/
def fenced : State :=
  { run with flt := { run.flt with combFenced := some 1, onBackup := true, xtalOk := true, xtalHeld10 := true, degraded := true } }

/-- On the crystal, with trims at 0. -/
def onCrystal : State :=
  { run with
    flt := { run.flt with onBackup := false, xtalOk := true }
    trim := { run.trim with mod := Vector.replicate 170 0, vref := 0, osc := 0 } }

/-- Channel 0 served by its group's spare. -/
def substituted : State :=
  { run with
    chans := upd run.chans 0 fun c => { c with st := .substituted }
    spares := upd run.spares (groupOf 0) fun x => { x with st := .substituting, pos := placeOf 0, parked := false } }

/-- A service request. -/
def service : Req := { req with role := .service }

theorem wit_RegisterRowsComplete :
    (run.served 0x0202 req = true ∧ (run.woken 0x0202).accepts req (.ch 0 .ctl) 1 = true ∧
      (run.woken 0x0202).accepts req (.ch 0 .ctl) 4 = true) ∧
    (substituted.served 0x0202 service = true ∧ (substituted.woken 0x0202).accepts service (.ch 0 .ctl) 2 = true) ∧
    (onCrystal.served 0x0202 service = true ∧ (onCrystal.woken 0x0202).accepts service (.trimMod 169) 0x0C0C = true) ∧
    (onCrystal.woken 0x0202).accepts service .trimVref 0xFFFF = true ∧
    (onCrystal.served 0x0202 service = true ∧ (onCrystal.woken 0x0202).accepts service .trimOsc 0x80 = true) ∧
    (run.woken 0x0202).accepts service .trimCtl 1 = true ∧
    (fenced.served 0x0202 service = true ∧ (fenced.woken 0x0202).accepts service .fltCtl 2 = true ∧
      (fenced.woken 0x0202).accepts service .fltCtl 1 = true) ∧
    (run.woken 0x0202).accepts req .grdCtl 0x80000000 = true ∧
    (run.woken 0x0202).accepts req .grdCtl (word (put 23 16 0xD7 + flag 15 true + put 3 0 11)) = true ∧
    (run.woken 0x0202).accepts req .pnlCtl 1 = true ∧
    (run.woken 0x0202).accepts req (.tgtEoi 2) (word (put 15 8 (255#8).toNat + put 7 0 (191#8).toNat)) = true ∧
    ((run.woken 0x0202).accepts req (.tgtCfg 2) ((run.woken 0x0202).asked (.tgtCfg 2) &&& 0x7FFFFFFF) = true ∧
      bit ((run.woken 0x0202).asked (.tgtCfg 2)) 31 = true) ∧
    (fenced.flt.onBackup = true ∧ fenced.flt.combFenced = some 1 ∧ onCrystal.flt.onBackup = false ∧
      onCrystal.trim.bkupDue = none ∧ (0xFFFF : Word) ≠ onCrystal.trim.vref ∧
      ({ run with flt := { run.flt with metFenced := some 0 } } : State).flt.metFenced = some 0) ∧
    (run.grd.armed = false ∧ ({ run with grd := { run.grd with armed := true } } : State).grd.armed = true) ∧
    (run.pnl.fault = false ∧
      (let s : State := params [(Reg.pnlCfg.addr, 0x11)] { panel with pnl := { panel.pnl with
          fault := true, regions := upd panel.pnl.regions 0 fun x => { x with dirty := true } } }
       s.pnl.fault = true ∧ s.panelOn = true ∧ s.pnl.closeout = 0 ∧ s.pnl.hasTable (fld (s.live .pnlCfg) 6 4) = true ∧
        s.pnl.regions[(0 : Fin 8)].dirty = true ∧ s.pnl.regions[(0 : Fin 8)].run = none)) ∧
    regionRows panel.live 0 ≠ 0 := by decide +kernel

theorem wit_OneWordIsWritten : run.served 0x0202 req = true ∧
    ({ run.woken 0x0202 with draws := run.draws + 1 } : State).accepts req (.ch 0 .afe) 1 = true := by decide +kernel

theorem wit_BadWriteChangesNothing :
    ({ run.woken 0x0202 with draws := run.draws + 1 } : State).tryWrite req
      ⟨Config.freeNat run.draws % 2 = 1, Config.freeNat run.draws / 2 % 2 = 1, Config.freeNat run.draws / 4 % 2 = 1⟩ 2 [0] = .inl (2, .badAddress) ∧
    run.served 0x0202 req = true := by decide +kernel

/-- Point 0 is ON. -/
def pointed : State := params [((Reg.pt 0 .mode).addr, 1)] run

theorem wit_VrefNeedsEveryPointOff :
    (pointed.served 0x0202 service = true ∧ (pointed.woken 0x0202).deniedAt service.role [(Reg.trimVref.addr, 0)] = none ∧
      pointOn (pointed.woken 0x0202).live 0 = true) ∧
    (run.served 0x0202 service = true ∧ (run.woken 0x0202).deniedAt service.role [(Reg.trimVref.addr, 0)] = none ∧
      ∀ p : Fin 128, pointOn (run.woken 0x0202).live p = false ∧ pointOn (run.woken 0x0202).asked p = false) := by
  decide +kernel

/-- A reply without payload: 20 bytes. -/
def reply : Reply := ⟨false, 7, 3, 5, false, 1, .ok, 0, false, [], []⟩

/-- A port with one completion. -/
def replied (p : Port) : State := run.onPort p fun q => { q with done := [reply] }

theorem wit_PortEventsComplete :
    (run.serving = true ∧ (zeros 19).length < 20 ∧ run.scr.ports[portIdx .a].imm = none) ∧
    (cobs [1, 2, 0, 3] = none ∧ run.scr.ports[portIdx .c].imm = none) ∧
    ((replied .a).serving = true ∧ (replied .a).scr.ports[portIdx .a].current = some (false, reply) ∧
      reply.size ≤ 20 ∧ 19 < reply.size) ∧
    (run.scr.ports[portIdx .b].current = none) ∧ (replied .c).scr.ports[(2 : Fin 3)].current = some (false, reply) := by
  decide +kernel

theorem wit_PortTimesOut : run.serving = true ∧ Port.b ≠ .c ∧ portIdx .a ≠ portIdx .b := by decide +kernel

theorem wit_SessionEventsComplete : run.serving = true ∧
    ((replied .b).scr.ports[portIdx .b].done[0]? = some reply ∧ reply.tag = (5 : Fin 128).val) ∧
    (let s : State := (replied .c).onPort .c fun q => { q with partly := some false, done := [reply, reply] }
     s.scr.ports[portIdx .c].done[1]? = some reply ∧ s.scr.ports[portIdx .c].partly = some false) ∧
    (let u : TagUse := ⟨7, 5, false, 3, false⟩
     u ∈ [u] ∧ u.session = Fin.ofNat 1024 reply.session ∧ u.tag.val = reply.tag ∧ u.queue.val = reply.queue ∧
      u.hello = reply.hello) ∧
    ((∀ x ∈ run.scr.sessions, x.closing = none) ∧ run.dev.softReset = [] ∧ run.scr.baudDue = []) ∧
    run.session? 7 = some sess ∧ (∀ q : Fin 32, run.activating q = none) := by decide +kernel

/-- Codes of a slot in a frame, all good. -/
def codes : List (Option Int) := (List.range 12).map fun i => some (if i % 2 = 0 then 1 else -1)

theorem wit_EngineRowsComplete :
    (run.powered = true ∧ ∀ n : Fin 170, run.slots[n].fails = 0 ∧
      Slot.hopFault (run.latchOf (List.replicate 170 ⟨codes, true, 0⟩) n).codes run.slots[n] = false) ∧
    ({ run with flt := { run.flt with combStop := true } } : State).flt.combStop = true ∧
    (run.metering = true ∧ (254 : Fin 512).val ≠ 255 ∧ (254 : Fin 512).val ≠ 511 ∧ (254 : Fin 512).val % 32 ≠ 0 ∧
      (480 : Fin 512).val % 32 = 0) ∧
    run.flt.metFenced = none ∧ run.engine.checks.find? (fun c => decide (c.cycle = 0) && decide (c.index ≤ 3)) = none ∧
    (let s : State := { run with engine := { run.engine with checks := [⟨0, 0, Vector.replicate 136 [], Vector.replicate 8 0⟩] } }
     (s.engine.checks.find? fun c => decide (c.cycle = s.tb.cycle) && decide (c.index ≤ 3)).isSome = true) ∧
    (let s : State := { run with buses := upd run.buses 1 fun b => { b with freezeLeft := some 0 } }
     s.buses[(1 : Fin 2)].freezeLeft = some 0) ∧
    (run.flt.bankOut true = false ∧
      ({ run with flt := { run.flt with accPrimOut := true } } : State).flt.bankOut (!true) = true ∧
      (run.flt.accFixed.any fun y => y.1 = true && y.2.1 = 5 && run.clock ≤ y.2.2 + sysHz * tickParts) = false ∧
      ([(true, 5, run.clock)].any fun y => y.1 = true && y.2.1 = 5 && run.clock ≤ y.2.2 + sysHz * tickParts) = true) ∧
    run.pwr.pfail = false := by decide +kernel

/-- The newest folio errs again at an address that another folio has stood at (R257). -/
theorem wit_sram : let s : State := { withFolio with fol := { withFolio.fol with errs := [(0x40, 3)] } }
    s.fol.filling = none ∧ (∃ f ∈ s.fol.shut, f.number = 4) ∧ ∃ y ∈ s.fol.errs, y.1 = 0x40 ∧ y.2 ≠ 4 :=
  ⟨by decide +kernel, ⟨folio, List.mem_cons_self, by decide +kernel⟩, ⟨(0x40, 3), List.mem_cons_self, rfl, by decide⟩⟩

/-- After such a frame no slot fails. -/
theorem wit_good_frame : ∀ n : Fin 170, ((run.slots[n].latch (run.slotOrder n) run.flt.frames
    (run.latchOf (List.replicate 170 ⟨codes, true, 0⟩) n)).fails = 0) := by decide +kernel

theorem wit_TimebaseRowsComplete : run.powered = true ∧ run.metering = true ∧
    (let s : State := { run with tb := { run.tb with mode := .holdover, holdRun := fld (run.live .hold) 15 0 } }
     s.tb.mode = .holdover ∧ fld (s.live .hold) 15 0 ≤ s.tb.holdRun) ∧
    false = bit (run.live .tbCfg) 2 ∧ true ≠ bit (run.live .tbCfg) 2 := by decide +kernel

/-- Midnight has passed in the last cycle; point 0 computes no demand, and bus 1 its balance. -/
def midnight : State :=
  params [((Reg.pt 0 .demand).addr, 0x1500), ((Reg.bus 1 .balcfg).addr, 0x8002)]
    { run with tb := { run.tb with
        cycle := 40000
        prevBoundary := ⟨39999, 0, some ⟨2030, 1, 1, 23, 59, 59, 32000⟩⟩
        ran := [(calCounts ⟨2030, 1, 1, 23, 59, 59, 32000⟩, calCounts ⟨2030, 1, 2, 0, 0, 0, 200⟩)]
        boundary := ⟨40000, 0, some ⟨2030, 1, 2, 0, 0, 0, 200⟩⟩ } }

/-- The calendar is not valid, and the intervals have run their cycles. -/
def uncalendared : State :=
  { midnight with tb := { midnight.tb with
      cycle := 10000000, prevBoundary := ⟨9999999, 0, none⟩, boundary := ⟨10000000, 0, none⟩ } }

theorem wit_IntervalRowsComplete :
    (let s : State := { run with tb := { run.tb with blkCycles := 10, aggBlocks := 15, fTicks := 1 } }
     s.powered = true ∧ blockLength s.tb.nomf60 ≤ s.tb.blkCycles ∧ 15 ≤ s.tb.aggBlocks ∧ s.metering = true ∧ s.tb.fTicks ≠ 0) ∧
    (midnight.powered = true ∧ midnight.metering = true ∧ midnight.scheduleDue 600 midnight.tb.tenMin = true ∧
      midnight.scheduleDue 10 midnight.tb.tenSec = true ∧ midnight.demandDue 0 = false ∧ midnight.demandDue 1 = true ∧
      midnight.profileDue = true ∧ midnight.balanceDue 1 = true ∧ midnight.balanceDue 0 = false) ∧
    (uncalendared.scheduleDue 600 uncalendared.tb.tenMin = true ∧ uncalendared.scheduleDue 10 uncalendared.tb.tenSec = true ∧
      uncalendared.demandDue 1 = true ∧ uncalendared.profileDue = true ∧ uncalendared.balanceDue 1 = true) ∧
    (run.demandDue 0 = false ∧ ((run.prof.map.filterMap (idx? 128)).filter fun p => p.val / 32 = 3) = [] ∧
      ((([96] : List Nat).filterMap (idx? 128)).filter fun p => p.val / 32 = 3) ≠ []) ∧
    (midnight.scheduleDue 7200 midnight.tb.twoHours = true ∧ midnight.pwr.pfail = false ∧
      midnight.dev.startup.restored = true ∧ midnight.pwr.erased ≠ 0) ∧
    run.scheduleDue 7200 run.tb.twoHours = false := by decide +kernel

/-- A folio that fills: cut at the present boundary, and at another. -/
theorem wit_filling : let s : State := { run with fol := { run.fol with filling := some folio } }
    s.fol.filling = some folio ∧ folio.cut.cycle = s.tb.cycle ∧ folio.cut.cycle ≠ (5 : Nat) :=
  ⟨rfl, by decide +kernel, by decide +kernel⟩

/-- Channel 1 of group 0 enabled, its spare rotating. -/
def rotating : State :=
  params [((Reg.ch 1 .afe).addr, 1)] { run with spares := upd run.spares 0 fun x => { x with parked := false } }

/-- A drift check in a phase. -/
def checking (n : Nat) : State :=
  { rotating with spares := upd rotating.spares 0 fun x => { x with st := .checking, phase := n, pos := 1 } }

theorem wit_ModulatorRowsComplete :
    (rotating.powered = true ∧ rotating.chans[(1 : Fin 136)].inService = true ∧ rotating.chans[(1 : Fin 136)].splicing = false ∧
      rotating.chans[(1 : Fin 136)].restoring = false ∧ rotating.chans[(1 : Fin 136)].injected = false ∧
      rotating.spares[groupOf 1].st = .rotating) ∧
    (let s : State := { rotating with
        chans := upd rotating.chans 1 fun c => { c with splicing := true }
        spares := upd rotating.spares (groupOf 1) fun p => { p with fresh := 1 } }
     s.spliceReady 1 = true ∧ s.flt.combStop = false) ∧
    (rotating.spares[(0 : Fin 34)].parked = false ∧ rotating.nextEnabled 0 rotating.spares[(0 : Fin 34)].pos = some 1 ∧
      rotating.drifted 0 rotating.spares[(0 : Fin 34)].dwell.sums = false ∧ rotating.drifted 0 ⟨0, 0, 1, 0, 1⟩ = true) ∧
    ((checking 1).spares[(0 : Fin 34)].st = .checking ∧ (checking 1).spares[(0 : Fin 34)].phase = 1 ∧
      (checking 2).spares[(0 : Fin 34)].phase = 2 ∧
      (checking 3).spares[(0 : Fin 34)].phase = 3 ∧ (checking 4).spares[(0 : Fin 34)].phase = 4 ∧
      (checking 4).spares[(0 : Fin 34)].queue = []) ∧
    (let s : State := { substituted with chans := upd substituted.chans 0 fun c => { c with restoring := true } }
     s.chans[(0 : Fin 136)].restoring = true ∧ s.chans[(0 : Fin 136)].st = .substituted ∧ s.spares[groupOf 0].queue = [] ∧
      s.beyond (groupOf 0) 0 = false ∧ s.beyond (groupOf 0) 0x7FFF = true) ∧
    (let s : State := { run with chans := upd run.chans 2 fun c => { c with suppressed := true } }
     s.chans[(2 : Fin 136)].suppressed = true ∧ s.chans[(2 : Fin 136)].recheck = false) ∧
    (let s : State := { substituted with chans := upd substituted.chans 0 fun c => { c with restoring := true } }
     s.chans[(0 : Fin 136)].restoring = true) ∧
    run.chans[(135 : Fin 136)].clip = false := by decide +kernel

/-- Output 7 enabled, a pulse owed since tick 50 and its last edge at tick 100. -/
def pulsing : State :=
  params [((Reg.pulCfg 7).addr, 0x80000000)]
    { run with pulses := upd run.pulses 7 fun p => { p with g := pulseQuantum, edges := [50], lastEdge := some 100 } }

theorem wit_PulseRowsComplete : pulsing.powered = true ∧ pulsing.pulseOn 7 = true ∧ pulsing.pulses[(7 : Fin 8)].edges = [50] ∧
    pulseQuantum ≤ pulsing.pulses[(7 : Fin 8)].g ∧ pulsing.pulses[(0 : Fin 8)].high = false ∧
    (let p : Pulse := { pulsing.pulses[(7 : Fin 8)] with high := true, lastFall := some 900 }
     p.high = true ∧ p.lastFall = some 900 ∧ p.edges = [50]) := by decide +kernel

theorem wit_SurveyAndCaptureRowsComplete :
    (let s : State := { run with wb := { run.wb with running := true, frames := setFrames } }
     s.powered = true ∧ setFrames ≤ s.wb.frames ∧ s.wb.running = true) ∧
    (let s : State := { run with wb := { run.wb with frames := setFrames } }
     s.powered = true ∧ setFrames ≤ s.wb.frames ∧ s.wb.running = false) ∧
    (let s : State := { run with pq := { run.pq with caps := upd run.pq.caps 1 fun c => { c with st := .filling } } }
     s.pq.caps[(1 : Fin 2)].st = .filling ∧ s.pq.caps[(1 : Fin 2)].left = 0) ∧
    (let s : State := { run with pq := { run.pq with caps := upd run.pq.caps 0 fun c => { c with st := .kept } } }
     s.pq.caps[(0 : Fin 2)].st = .kept) := by decide +kernel

theorem wit_FolioSealed : let s : State := { withFolio with fol := { withFolio.fol with filling := some { folio with number := 5 } } }
    s.fol.filling = some { folio with number := 5 } ∧ (s.metering && s.blockDue) = false ∧ folio ∈ s.fol.shut ∧
      s.fol.leases.any (fun l => l.folio = folio.number) = true :=
  ⟨rfl, by decide +kernel, List.mem_cons_self, by decide +kernel⟩

theorem wit_LogAndAuxRowsComplete :
    (let s : State := { run with ev := { run.ev with logQ := [⟨⟨0, 1, .zero, 0, true, true, false, 0, []⟩, false⟩] } }
     s.coresServe = true ∧ s.ev.logQ.length = 1) ∧
    (let s : State := { run with ev := { run.ev with gap := some (3, 4) } }
     s.coresServe = true ∧ s.ev.logQ = [] ∧ s.ev.gap = some (3, 4)) ∧
    (run.anv.auxDue.head? ≠ some 8 ∨ ([] : List (BitVec 12)).length ≠ run.scanCount 8) ∧
    (let s : State := { run with anv := { run.anv with auxDue := [8, 9] } }
     s.powered = true ∧ s.anv.auxDue = (8 : Fin 16).val :: [9] ∧ ([0xFFF] : List (BitVec 12)).length = s.scanCount 8) := by
  decide +kernel

theorem wit_TimeoutIsOutOfOrder :
    ({ run with intc := { run.intc with
        targets := upd run.intc.targets 5 fun g => { g with stack := [⟨4, 8, 2⟩] } } } : State).intc.targets[(5 : Fin 6)].stack =
      [⟨4, 8, 2⟩] := by decide +kernel

theorem wit_CrystalRowsComplete :
    (onCrystal.powered = true ∧ onCrystal.flt.onBackup = false) ∧
    (fenced.powered = true ∧ fenced.flt.degraded = true) ∧
    (fenced.dev.startup.xtalPassed = true ∧ fenced.flt.onBackup = true ∧
      bit (fenced.live .fltCfg) 0 = false ∧
      bit ((params [(Reg.fltCfg.addr, 0x0A01)] fenced).live .fltCfg) 0 = true ∧ fenced.flt.xreturn = false) ∧
    (State.reset.powered = true ∧ State.reset.dev.startup.xtalPassed = false) := by decide +kernel

/-- A warning with its entry due. -/
def entryDue : State := { warned with pwr := { warned.pwr with entryDue := some (warned.record warned.pwr.ceil) } }

/-- A warning with its entry written. -/
def tailing : State :=
  { warned with pwr := { warned.pwr with
      entryDone := true, tails := 63, tailDue := warned.pwr.tailStride, records := [warned.record warned.pwr.ceil] } }

theorem wit_PowerFailRowsComplete :
    (run.powered = true ∧ run.pwr.pfail = false ∧ (true || (false && bit (run.live .pfcfg) 15)) = true) ∧
    (let s := params [(Reg.pfcfg.addr, 0x8038)] run
     (false || (true && bit (s.live .pfcfg) 15)) = true ∧ s.powered = true) ∧
    (warned.powered = true ∧ warned.pwr.pfail = true ∧ warned.pwr.sustained = false ∧ warned.pwr.erased ≠ 0) ∧
    (entryDue.powered = true ∧ entryDue.pwr.pfail = true ∧ entryDue.pwr.erased ≠ 0 ∧ entryDue.pwr.entryDue.isSome = true) ∧
    (tailing.powered = true ∧ tailing.pwr.pfail = true ∧ tailing.pwr.entryDone = true ∧ tailing.pwr.tails < 64 ∧
      tailing.pwr.tailStride ≤ tailing.pwr.tailDue ∧ tailing.pwr.records.length = 1) := by decide +kernel

theorem wit_JournalErase : (run.powered = true ∧ 4 ≤ run.pwr.erased) ∧
    (let s : State := { run with pwr := { run.pwr with erased := 3, ckptDue := true } }
     s.powered = true ∧ s.pwr.erased < 4 ∧ s.pwr.ckptDue = true ∧ s.pwr.pfail = false ∧ s.dev.startup.restored = true) ∧
    (let s : State := { run with pwr := { run.pwr with erased := 0 } }
     s.pwr.erased < 4 ∧ s.pwr.ckptDue = false) := by decide +kernel

/-- A first cycle has closed. -/
def closing : State := { run with tb := { run.tb with periods := [run.tb.period] } }

theorem wit_ResetRowsComplete :
    (run.supplied = true ∧ run.anv.fw ≠ .trial) ∧
    (run.powered = true ∧ run.pwr.pfail = false ∧ run.closedOne = false) ∧
    (closing.powered = true ∧ closing.pwr.pfail = false ∧ closing.closedOne = true ∧ closing.pwr.erased ≠ 0) ∧
    (let s : State := { State.reset with dev := { State.reset.dev with startup := { State.reset.dev.startup with inReset := true } } }
     s.supplied = true ∧ s.dev.startup.inReset = true ∧ s.anv.fw ≠ .trial) ∧
    run.metering = true ∧
    (run.dev.startup.configDone = true ∧ run.anv.up = true ∧ run.dev.coresAsleep = false) ∧
    run.pwr.vbatOn = false ∧
    ({ run with dev := { run.dev with st := .cell } } : State).supplied = false ∧
    (run.grd.arming = false ∧ run.dev.startup.inReset = false) ∧
    (let s : State := { run with dev := { run.dev with st := .off } }
     s.dev.startup.inReset = false ∧ s.supplied = false) ∧
    (let s : State := { run with dev := { run.dev with st := .off, startup := { run.dev.startup with inReset := true } } }
     s.dev.startup.inReset = true ∧ s.supplied = false) ∧
    (run.dev.st ≠ .banked ∧ starting.metering = false) ∧
    ({ run with anv := { run.anv with fw := .trial } } : State).anv.fw = .trial ∧
    ({ run with pwr := { run.pwr with vbatOn := true } } : State).pwr.vbatOn = true := by decide +kernel

/-- The journal is not restored yet and holds a record. -/
def unrestored : State :=
  { starting with
    dev := { starting.dev with startup := { starting.dev.startup with restored := false, tested := false, configDone := false } }
    pwr := { starting.pwr with records := [starting.record starting.pwr.ceil] } }

/-- Two configuration images, the newer one unreadable. -/
def imaged : State :=
  { unrestored with anv := { unrestored.anv with images := [⟨2, 0, [], [], 0, false⟩, ⟨1, 0, [(Reg.scrCfg.addr, 0x0A05)], [], 0, true⟩] } }

/-- Measurement can begin, and the first voltage channel of the list is enabled. -/
def ready : State := params [((Reg.ch 128 .afe).addr, 1), (Reg.reflist.addr, 0xFFFFFFF0)] starting

/-- Measurement can begin, no voltage channel is enabled, and LSYNC is valid. -/
def paced : State :=
  params [(Reg.tbCfg.addr, 2)]
    { starting with tb := { starting.tb with lsync := ⟨true, some 8000000, 3932160, [], 0⟩ } }

theorem wit_StartupRowsComplete :
    (unrestored.starting = true ∧ unrestored.dev.startup.restored = false ∧ unrestored.pwr.records.length = 1) ∧
    (unrestored.pwr.records.drop ([0x40#32] : List Word).length = [] ∧
      (let s : State := { unrestored with pwr := { unrestored.pwr with records := unrestored.pwr.records ++ unrestored.pwr.records } }
       (s.pwr.records.drop ([0x40#32] : List Word).length).length = 1)) ∧
    (unrestored.record unrestored.pwr.ceil).ceilings.event < 2 ^ 48 ∧
    (unrestored.pwr.pfail = false ∧ unrestored.dev.startup.configDone = false ∧ warned.pwr.pfail = true) ∧
    (unrestored.dev.startup.tested = false ∧ unrestored.spareFree (groupOf 135) = true) ∧
    (imaged.starting = true ∧ imaged.dev.startup.configDone = false ∧
      (imaged.anv.images.find? CfgImage.valid).map CfgImage.number = some 1) ∧
    (starting.starting = true ∧ starting.dev.startup.tested = true ∧ starting.dev.startup.configDone = true) ∧
    (unrestored.anv.images.find? CfgImage.valid).isNone = true ∧
    (let s : State := { starting with dev := { starting.dev with startup := { starting.dev.startup with pathReady := false } } }
     s.starting = true ∧ s.dev.startup.tested = true ∧ s.dev.startup.configDone = true ∧ s.dev.startup.pathReady = false) ∧
    ready.canMeter = true ∧ paced.canMeter = true ∧ paced.lsyncUsable = true ∧
    (unrestored.chans[(135 : Fin 136)].inService = true ∧ unrestored.chans[(135 : Fin 136)].splicing = false) := by decide +kernel

theorem wit_had_journal : let s : State := { paced with dev := { paced.dev with startup := { paced.dev.startup with hadJournal := true } } }
    s.canMeter = true ∧ s.dev.startup.hadJournal = true := by decide +kernel

theorem wit_first_cycle : paced.firstCycle = some ⟨8, 8000000 * 65536, 3932160 * 65536⟩ := rfl

theorem wit_MoveOnly : movesPoints .lsyncTimeout = false ∧ movesTimebase .xtalFail = false ∧
    movesCalibration (.demandClose 0) = false ∧ movesCalendar .brownout = false ∧ asksParameters (.cldSet req ⟨0, 0, 0, 0, 0, 0, 0, 0, 0⟩) = false ∧
    enforcesParameters .blockClose = false ∧ readsOnly (.blotRead req) = true := by decide

theorem wit_ReadsOnlyAnswer : run.answerable 0x0501 req = true ∧
    (∃ l ∈ withFolio.fol.leases, l.session ≠ (8 : Fin 1024) ∧ l.folio = folio.number) ∧ folio ∈ withFolio.fol.shut :=
  ⟨by decide +kernel, ⟨⟨9, 7, 4, 30⟩, List.mem_cons_self, by decide, rfl⟩, List.mem_cons_self⟩

theorem wit_cycle_is_booked : run.powered = true ∧ run.metering = true ∧
    (run.pwr.pfail = true ∨ (run.mcal.waiting = [] ∧ run.mcal.resolves = [])) ∧ run.settingsDue = [] := by decide +kernel

theorem wit_next : (∃ t, exec .lsyncTimeout run = .next t) ∧ (∃ t, exec .xtalFail run = .next t) ∧
    (∃ t, exec (.demandClose 0) run = .next t) ∧ (∃ t, exec .brownout run = .next t) ∧
    (∃ t, exec (.cldSet req ⟨0, 0, 0, 0, 0, 0, 0, 0, 0⟩) run = .next t) ∧ (∃ t, exec .blockClose run = .next t) ∧
    ∃ t, exec (.blotRead req) run = .next t :=
  ⟨⟨_, rfl⟩, ⟨_, rfl⟩, ⟨_, rfl⟩, ⟨_, rfl⟩, ⟨_, rfl⟩, ⟨_, rfl⟩, _, rfl⟩

theorem wit_PayloadSpellsItsRow : let c : Instr := .capRead req 0xFFFFFFFFFFFF 0xFFFFFFFF 0xFFFFFFFF
    hostOf c = some (0x0306, req) ∧ c.wf = true ∧ (payloadOf c).isSome = true := by decide +kernel

theorem wit_FramesAreAdmitted : let h := headerOf nopFrame
    queued.serving = true ∧ frameFault true nopFrame h = none ∧ h.isHello = false ∧ queued.session? h.sid = some sess ∧
    sess.port = .a ∧ h.isSec = sess.secured ∧ sess.corrupt = false ∧ sess.opened h nopFrame = some [] ∧ sess.hostSeq < h.seq ∧
    sess.qmask.getLsbD h.queue = true ∧ queued.queueServes h.qid .a = true ∧ queued.queueAdmits h.qid sess.role = true ∧
    (opRow? h.opcode).isSome = true ∧ permitted h.opcode sess.role = true ∧ queued.roomFault h = none := by decide +kernel

/-- SESSION_OPEN on queue 3: a HELLO frame (R197, R208). -/
def helloFrame : List Byte :=
  framed ([0xC5, 1] ++ le 2 (3 * 1024) ++ [5, 0x48] ++ le 2 2 ++ le 2 8 ++ le 2 0 ++ le 4 1 ++ open_)

theorem wit_hello_admitted : let h := headerOf helloFrame
    let s := params [((Reg.queCfg 3).addr, 0xCF080010)] run
    s.serving = true ∧ frameFault true helloFrame h = none ∧ h.isHello = true ∧ h.opcode = 2 ∧ s.queueServes h.qid .a = true ∧
    bit (s.live (.queCfg h.qid)) 30 = true ∧ s.roomFault h = none := by decide +kernel

theorem wit_EventsEnterTheRing :
    (run.dev.startup.restored = true ∧ ringUsed run.ev.ring + entriesOf 24 ≤ 2048 ∧ run.ev.logQ.length < 512 ∧ run.ev.gap = none) ∧
    State.reset.dev.startup.restored = false ∧
    (let s : State := { run with ev := { run.ev with gap := some (3, 4) } }
     s.ev.gap = some (3, 4) ∧ s.ev.logQ.length + s.ev.logNeed ≤ 512) ∧
    (let s : State := { run with ev := { run.ev with
        gap := some (3, 4), logQ := List.replicate 512 ⟨⟨0, 1, .zero, 0, true, true, false, 0, []⟩, false⟩ } }
     512 < s.ev.logQ.length + s.ev.logNeed) := by decide +kernel

/-- Source 20 enabled, at priority 5 for target 2, and pending. -/
def sourced : State :=
  params [((Reg.intSrc 20).addr, 0x00040005)]
    { run with intc := { run.intc with pend := [20] }, dev := { run.dev with coresAsleep := true } }

theorem wit_DeliveryIsStrictlyAbove : (sourced.firstSource).isSome = true := by decide +kernel

theorem wit_RoutingKeepsStacksRising : State.reset.stacksRise ∧
    ({ run with intc := { run.intc with
        targets := upd run.intc.targets 2 fun g => { g with stack := [⟨4, 15, 1⟩, ⟨3, 1, 0⟩] } } } : State).stacksRise := by
  unfold State.stacksRise
  decide +kernel

theorem wit_RetirementHasThreeOutcomes :
    let s : State := { run with intc := { run.intc with
        targets := upd run.intc.targets 2 fun g => { g with stack := [⟨4, 15, 1⟩], retired := [(9, 0)] } } }
    s.intc.targets[(2 : Fin 6)].stack = [⟨4, 15, 1⟩] ∧ (9, 0) ∈ s.intc.targets[(2 : Fin 6)].retired ∧
      (9, 1) ∉ s.intc.targets[(2 : Fin 6)].retired := by decide +kernel

theorem wit_ChannelControlsAct :
    (rotating.chans[(1 : Fin 136)].inService = true ∧ rotating.chans[(1 : Fin 136)].splicing = false ∧
      rotating.spareFree (groupOf 1) = true ∧ rotating.spares[groupOf 1].st = .rotating ∧ groupOf 135 ≠ groupOf 1) ∧
    (substituted.chans[(0 : Fin 136)].inService && !substituted.chans[(0 : Fin 136)].splicing && substituted.spareFree (groupOf 0)) = false ∧
    ((checking 1).checked (groupOf 0) = some 1) := by decide +kernel

theorem wit_BookedEnergyIsAdded :
    (∃ i : Fin 22, 2 ^ 96 ≤ run.pts[(127 : Fin 128)].acc[i] + nth (List.replicate 22 (2 ^ 96)) i.val 0) ∧
    (∀ i : Fin 22, run.pts[(127 : Fin 128)].acc[i] + nth (List.replicate 22 (2 ^ 96 - 1)) i.val 0 < 2 ^ 96) := by decide +kernel

/-! ### Commands that are not well formed (R197, R226 to R246, R333) -/

theorem test_wf_selectors : Selector.wf (.number (2 ^ 48)) = false ∧ Selector.wf (.lease (2 ^ 32)) = false ∧
    Selector.wf (.badKind 2) = false ∧ Selector.wf (.badKind 3) = true := by decide

theorem test_wf_payloads : (Instr.nop req (List.replicate 4097 0)).wf = false ∧ (Instr.sessionOpen req (List.replicate 4097 0)).wf = false ∧
    (Instr.nop req (List.replicate 4096 0)).wf = true ∧ (Instr.fwWrite req 0 (List.replicate 4089 0)).wf = false ∧
    (Instr.fwWrite req (2 ^ 32) []).wf = false ∧ (Instr.pnlTableLoad req 0 0 true 0 (List.replicate 4089 0)).wf = false ∧
    (Instr.pnlImageWrite req 0 0 (List.replicate 4089 0)).wf = false ∧ (Instr.calCommit req (List.replicate 31 0)).wf = false ∧
    (Instr.paramWrite req 0 (List.replicate 1024 0)).wf = false := by decide +kernel

theorem test_wf_folios : (Instr.folioRead req .latest (2 ^ 32) 4 []).wf = false ∧ (Instr.folioRead req .latest 0 (2 ^ 32) []).wf = false ∧
    (Instr.folioRead req (.number (2 ^ 48)) 0 4 []).wf = false ∧ (Instr.folioLease req .latest (2 ^ 16)).wf = false ∧
    (Instr.folioLease req (.badKind 0) 0).wf = false ∧ (Instr.folioRenew req (2 ^ 32) 0).wf = false ∧
    (Instr.folioRenew req 0 (2 ^ 16)).wf = false ∧ (Instr.folioRelease req (2 ^ 32)).wf = false ∧
    (Instr.folioSealGet req (.lease (2 ^ 32))).wf = false ∧ (Instr.leaseExpiry 0 (2 ^ 32)).wf = false := by decide

theorem test_wf_ranges : (Instr.paramRead req (2 ^ 32) 1).wf = false ∧ (Instr.paramRead req 0 (2 ^ 16)).wf = false ∧
    (Instr.paramWrite req (2 ^ 32) []).wf = false ∧ (Instr.scRead req .latest 256 1).wf = false ∧
    (Instr.scRead req .latest 0 256).wf = false ∧ (Instr.scRead req (.badKind 1) 0 1).wf = false ∧
    (Instr.idCertRead req (2 ^ 16) 1).wf = false ∧ (Instr.idCertRead req 0 (2 ^ 16)).wf = false := by decide

theorem test_wf_records : (Instr.eventRead req (2 ^ 48)).wf = false ∧ (Instr.eventAck req (2 ^ 48)).wf = false ∧
    (Instr.profileRead req (2 ^ 48) 1).wf = false ∧ (Instr.profileRead req 0 256).wf = false ∧
    (Instr.profileAck req (2 ^ 48)).wf = false ∧ (Instr.wbRead req (2 ^ 48) 0 4).wf = false ∧
    (Instr.wbRead req 0 (2 ^ 16) 4).wf = false ∧ (Instr.wbRead req 0 0 (2 ^ 16)).wf = false ∧
    (Instr.capRead req (2 ^ 48) 0 4).wf = false ∧ (Instr.capRead req 0 (2 ^ 32) 4).wf = false ∧
    (Instr.capRead req 0 0 (2 ^ 32)).wf = false ∧ (Instr.capRelease req (2 ^ 48)).wf = false ∧
    (Instr.logRead req (2 ^ 48) 1).wf = false ∧ (Instr.logRead req 0 (2 ^ 16)).wf = false := by decide

theorem test_wf_small_fields : (Instr.calPendingRead req 256 0).wf = false ∧ (Instr.calPendingRead req 0 256).wf = false ∧
    (Instr.calPendingResolve req 1 256).wf = false ∧ (Instr.softReset req 256).wf = false ∧ (Instr.auxRead req 256 0).wf = false ∧
    (Instr.inkLock req (2 ^ 16)).wf = false ∧ (Instr.fwBegin req (2 ^ 32)).wf = false ∧ (Instr.grdTest req 256 true).wf = false ∧
    (Instr.pnlTableLoad req 256 0 true 0 []).wf = false ∧ (Instr.pnlTableLoad req 0 256 true 0 []).wf = false ∧
    (Instr.pnlTableLoad req 0 0 true (2 ^ 32) []).wf = false ∧ (Instr.pnlImageWrite req 256 0 []).wf = false ∧
    (Instr.pnlImageWrite req 0 (2 ^ 32) []).wf = false ∧ (Instr.pnlUpdate req 256 0 false).wf = false ∧
    (Instr.pnlUpdate req 0 256 false).wf = false ∧ (Instr.cldAdjustStep req 1 0).wf = false ∧
    (Instr.cldAdjustStep req 0 (2 ^ 31)).wf = false ∧ (Instr.cldAdjustSlew req 0 0).wf = false ∧
    (Instr.cldAdjustSlew req 1 (-(2 ^ 31) - 1)).wf = false ∧ (Instr.cldAdjustSlew req 1 (-(2 ^ 31))).wf = true := by decide

theorem test_wf_events : (Instr.replyDropped .a 128).wf = false ∧ (Instr.combFrame [] [] false 0).wf = false ∧
    (Instr.combFrame (List.replicate 170 ⟨codes, true, 0⟩) [170] false 0).wf = false ∧
    (Instr.combFrame (List.replicate 170 ⟨codes, true, 0⟩) [169] false 0).wf = true ∧ Latch.wf ⟨[none], true, 0⟩ = false ∧
    Latch.wf ⟨List.replicate 12 (some 8), true, 0⟩ = false ∧ Latch.wf ⟨List.replicate 12 (some (-8)), true, 0⟩ = true ∧
    Latch.wf ⟨List.replicate 12 none, true, 0⟩ = true ∧ (Instr.sampleBatch 0 [2 ^ 32]).wf = false ∧
    (Instr.eventLogWrite (some (2 ^ 48))).wf = false ∧ (Instr.auxScan 0 []).wf = false ∧
    (Instr.startUpTest [170] none none).wf = false := by decide +kernel

/-! ### Steps on small states -/

/-- A step that answers a next state, seen through one view. -/
def after {α : Type} (c : Instr) (s : State) (f : State → α) : Option α :=
  match exec c s with
  | .next t => some (f t)
  | .fault _ => none
  | .refused _ => none

/-- A frame below 20 bytes is BAD_FRAME (R213 step 1). -/
theorem test_short_frame : after (.frameReceive .a [0xC5] []) (quiet run) (fun t => t.scr.ports[(0 : Fin 3)].imm.map Reply.status) =
    some (some .badFrame) := by decide +kernel

/-- A flipped bit is CRC_ERROR (R213 step 2). -/
theorem test_crc_error :
    after (.frameReceive .a (nopFrame.set 4 4) []) (quiet queued) (fun t => t.scr.ports[(0 : Fin 3)].imm.map Reply.status) =
      some (some .crcError) := by decide +kernel

/-- The CRC-32C of the digits 1 to 9 (the polynomial of R198). -/
theorem test_crc32c : crc32c [0x31, 0x32, 0x33, 0x34, 0x35, 0x36, 0x37, 0x38, 0x39] = 0xE3069283 := by decide +kernel

/-- An admitted NOP waits in its queue, and its payload comes back (R230). -/
theorem test_nop : after (.nop req [1, 2]) (quiet run) (fun t => t.scr.ports[(0 : Fin 3)].done.map Reply.payload) = some [[1, 2]] := by
  decide +kernel

/-- 2100 is not a leap year of the calendar (R336). -/
theorem test_no_leap_day : after .calSecondBoundary (quiet (carried ⟨2100, 2, 28, 23, 59, 59, 32767⟩)) (fun t => t.cld.time) =
    some ⟨2100, 3, 1, 0, 0, 0, 0⟩ := by decide +kernel

/-- 2000 is (R336). -/
theorem test_leap_day : after .calSecondBoundary (quiet (carried ⟨2000, 2, 28, 23, 59, 59, 32767⟩)) (fun t => t.cld.time) =
    some ⟨2000, 2, 29, 0, 0, 0, 0⟩ := by decide +kernel

/-- An edge that was due at tick 50 leaves 9831 ticks after the one before, at tick 100, and is LATE (R177). -/
theorem test_pulse_spacing : after (.pulseLeadingEdge 7) pulsing
    (fun t => (t.pulses[(7 : Fin 8)].n, t.pulses[(7 : Fin 8)].lastEdge, t.pulses[(7 : Fin 8)].lateBlock)) =
    some (1, some 9931, true) := by decide +kernel

/-- A cover source quenches under its reset mask (R350, R352). -/
theorem test_quench : after (.grdSource 1 []) (quiet run) (fun t => t.grd.quenched && t.grd.srcs[(0 : Fin 16)].fired) = some true := by
  decide +kernel

/-- A role that may not send the opcode: DENIED (R213 step 10). -/
theorem test_denied : after (.eventAck { req with role := .reader } 0) (quiet recorded)
    (fun t => (t.scr.ports[(0 : Fin 3)].done.map Reply.status, t.ev.ack)) = some ([.denied], none) := by decide +kernel

/-- The queue is first in, first out, and an empty queue idles. -/
theorem test_queue_order : (match step { quiet recorded with pending := [.eventAck req 3, .eventAck req 5] } with
      | .next t => (t.pending, t.ev.ack)
      | .fault _ => ([], none)
      | .refused _ => ([], none)) = ([.eventAck req 5], some 3) := by decide +kernel

/-- The block of FIPS 197, appendix C.3 (the cipher of R199). -/
theorem test_aes : aes256 ((List.range 32).map (BitVec.ofNat 8)) ((List.range 16).map fun i => BitVec.ofNat 8 (17 * i)) =
    [0x8E, 0xA2, 0xB7, 0xCA, 0x51, 0x67, 0x45, 0xBF, 0xEA, 0xFC, 0x49, 0x90, 0x4B, 0x49, 0x60, 0x89] := by decide +kernel

/-- The tag of nothing under a key and a nonce of zeros (test case 13 of the GCM specification; R199). -/
theorem test_gcm : gcmTag (zeros 32) (zeros 12) [] [] =
    [0x53, 0x0F, 0x8A, 0xFB, 0xC7, 0x45, 0x36, 0xB9, 0xA9, 0x63, 0xB4, 0xF1, 0xC4, 0xCB, 0x73, 0x8B] := by decide +kernel

/-- A frame below 20 bytes is told before its trailer, and a frame whose LENGTH disagrees with its size is BAD_FRAME on SPI (R201). -/
theorem test_size_before_trailer :
    after (.frameReceive .a ((nopFrame ++ [0]).set 4 4) []) (quiet queued) (fun t => t.scr.ports[(0 : Fin 3)].imm.map Reply.status) =
      some (some .badFrame) := by decide +kernel

/-- Two words of the CIC integrators: a first code of 1 and then zeros leaves 1 in the first and 12 in the second after 12 MOD
clocks (R46). -/
theorem test_integrators : (run.slots[(0 : Fin 170)].latch 4 0 ⟨some 1 :: List.replicate 11 (some 0), true, 0⟩).integ.take 2 = [1, 12] := by
  decide +kernel

/-- A READ with nothing to send shifts out the status word and an empty reply of zeros (R201, R202). -/
theorem test_empty_read : after (.read .a 16) (quiet run) (fun t => (t.scr.ports[(0 : Fin 3)].out.length, t.scr.ports[(0 : Fin 3)].out.drop 4)) =
    some (20, zeros 16) := by decide +kernel

/-- COBS leaves no zero in a frame and gives it back (R206). -/
theorem test_cobs : cobsEncode [1, 0, 2] = [2, 1, 2, 2] ∧ cobs [2, 1, 2, 2] = some [1, 0, 2] := by decide +kernel

end Sys2Proof.Tests
end

section
/-!
SUPPORT. What the rows leave of the provisioning: the ordering code, a fuse of the device (R2), and that a LEGAL key has been
valid once (R211). First the operations that touch neither, then parameter writes, then the rows.
-/
namespace Sys2Proof.Scope

open Sys2Proof.Machine Sys2Proof.Laws

/-- The ordering code and the provisioning allowance stand as they were (R2, R211). -/
@[simp] abbrev SameProvision (s t : State) : Prop :=
  t.dev.variant = s.dev.variant ∧ t.scr.legalEver = s.scr.legalEver

theorem SameProvision.trans {s t u : State} (h : SameProvision s t) (h' : SameProvision t u) : SameProvision s u :=
  ⟨h'.1.trans h.1, h'.2.trans h.2⟩

/-! ### Effects one after another -/

@[simp] theorem ite_dev_variant (c : Prop) [Decidable c] (a b : State) :
    (if c then a else b).dev.variant = if c then a.dev.variant else b.dev.variant := apply_ite (fun s => s.dev.variant) c a b

@[simp] theorem ite_scr_legalEver (c : Prop) [Decidable c] (a b : State) :
    (if c then a else b).scr.legalEver = if c then a.scr.legalEver else b.scr.legalEver :=
  apply_ite (fun s => s.scr.legalEver) c a b

@[simp] theorem chain_provision {α : Type} (l : List α) (f : α → State → State) (s : State)
    (h : ∀ a s, SameProvision s (f a s)) : SameProvision s (chain l f s) :=
  ⟨chain_keeps (fun s => s.dev.variant) l f (fun a s => (h a s).1) s,
    chain_keeps (fun s => s.scr.legalEver) l f (fun a s => (h a s).2) s⟩

/-! ### Sessions and completions -/

@[simp] theorem endSession_scr_legalEver (i : Fin 1024) (c : Nat) (s : State) :
    (s.endSession i c).scr.legalEver = s.scr.legalEver := by unfold State.endSession; dsimp only; split <;> simp

@[simp] theorem endSessions_scr_legalEver (c : Nat) (s : State) : (s.endSessions c).scr.legalEver = s.scr.legalEver :=
  chain_keeps (fun s => s.scr.legalEver) _ _ (by simp) s

@[simp] theorem complete_scr_legalEver (op : Nat) (r : Req) (st : Status) (bs : List Byte) (s : State) :
    (s.complete op r st bs).scr.legalEver = s.scr.legalEver := by
  unfold State.complete; dsimp only; (repeat' split) <;> simp

@[simp] theorem ok_scr_legalEver (op : Nat) (r : Req) (bs : List Byte) (s : State) :
    (s.ok op r bs).scr.legalEver = s.scr.legalEver := by simp [State.ok]

@[simp] theorem okTo_scr_legalEver (op : Nat) (r : Option Req) (bs : List Byte) (s : State) :
    (s.okTo op r bs).scr.legalEver = s.scr.legalEver := by unfold State.okTo; split <;> simp

@[simp] theorem fail_scr_legalEver (op : Nat) (r : Req) (st : Status) (s : State) :
    (s.fail op r st).scr.legalEver = s.scr.legalEver := by simp [State.fail]

@[simp] theorem notReady_scr_legalEver (op : Nat) (r : Req) (c : Nat) (s : State) :
    (s.notReady op r c).scr.legalEver = s.scr.legalEver := by simp [State.notReady]

@[simp] theorem mark_legalEver (m : BitVec 16) (x : Scribe) : (x.mark m).legalEver = x.legalEver := by
  unfold Scribe.mark; split <;> rfl

@[simp] theorem fresh_provision (s) : SameProvision s (State.fresh s).2 := by simp [State.fresh]
@[simp] theorem settingTook_provision (s) : SameProvision s (State.settingTook s) := by simp [State.settingTook]
@[simp] theorem phaseEnds_provision (f s) : SameProvision s (State.phaseEnds f s) := by simp [State.phaseEnds]

/-! ### Channels and spares -/

@[simp] theorem reshade_provision (g s) : SameProvision s (State.reshade g s) := by simp [State.reshade]
@[simp] theorem connectSpare_provision (g i s) : SameProvision s (State.connectSpare g i s) := by simp [State.connectSpare]

@[simp] theorem advanceSpare_provision (g s) : SameProvision s (State.advanceSpare g s) := by
  unfold State.advanceSpare; split <;> simp

@[simp] theorem startCheck_provision (g k s) : SameProvision s (State.startCheck g k s) := by simp [State.startCheck]

@[simp] theorem nextCheck_provision (g s) : SameProvision s (State.nextCheck g s) := by
  unfold State.nextCheck; (repeat' split) <;> simp

@[simp] theorem endCheck_provision (g s) : SameProvision s (State.endCheck g s) := by unfold State.endCheck; split <;> simp

@[simp] theorem abortCheck_provision (g s) : SameProvision s (State.abortCheck g s) := by
  unfold State.abortCheck; split <;> simp

@[simp] theorem queueCheck_provision (g k s) : SameProvision s (State.queueCheck g k s) := by simp [State.queueCheck]
@[simp] theorem failChan_provision (k cause s) : SameProvision s (State.failChan k cause s) := by simp [State.failChan]

@[simp] theorem substituted_provision (k cause ticks from_ s) : SameProvision s (State.substituted k cause ticks from_ s) := by
  simp [State.substituted]

@[simp] theorem takeSpare_provision (k s) : SameProvision s (State.takeSpare k s) := by
  unfold State.takeSpare; dsimp only; (repeat' split) <;> simp

@[simp] theorem forceSpare_provision (k s) : SameProvision s (State.forceSpare k s) := by simp [State.forceSpare]
@[simp] theorem startRestore_provision (k s) : SameProvision s (State.startRestore k s) := by simp [State.startRestore]

@[simp] theorem check_provision (k s) : SameProvision s (State.check k s) := by
  unfold State.check; dsimp only; (repeat' split) <;> simp

@[simp] theorem restoreFailed_provision (k s) : SameProvision s (State.restoreFailed k s) := by simp [State.restoreFailed]

@[simp] theorem workingFault_provision (k cause s) : SameProvision s (State.workingFault k cause s) := by
  simp [State.workingFault]

@[simp] theorem spareDown_provision (g s) : SameProvision s (State.spareDown g s) := by unfold State.spareDown; split <;> simp

@[simp] theorem spareFault_provision (g s) : SameProvision s (State.spareFault g s) := by
  unfold State.spareFault; split <;> simp

@[simp] theorem modFault_provision (slot cause s) : SameProvision s (State.modFault slot cause s) := by
  unfold State.modFault; split <;> simp

@[simp] theorem splice_provision (k s) : SameProvision s (State.splice k s) := by simp [State.splice]
@[simp] theorem lateSplice_provision (k s) : SameProvision s (State.lateSplice k s) := by simp [State.lateSplice]

@[simp] theorem trimNote_provision (addr old new s) : SameProvision s (State.trimNote addr old new s) := by
  simp [State.trimNote]

@[simp] theorem setModTrim_provision (n w s) : SameProvision s (State.setModTrim n w s) := by simp [State.setModTrim]

@[simp] theorem askModTrim_provision (n w s) : SameProvision s (State.askModTrim n w s) := by
  unfold State.askModTrim; split <;> simp

@[simp] theorem trimBoundary_provision (k s) : SameProvision s (State.trimBoundary k s) := by
  unfold State.trimBoundary; split <;> simp

@[simp] theorem spareTrim_provision (g s) : SameProvision s (State.spareTrim g s) := by unfold State.spareTrim; split <;> simp
@[simp] theorem setVref_provision (w s) : SameProvision s (State.setVref w s) := by simp [State.setVref]
@[simp] theorem setOsc_provision (w s) : SameProvision s (State.setOsc w s) := by simp [State.setOsc]
@[simp] theorem askBkup_provision (v s) : SameProvision s (State.askBkup v s) := by simp [State.askBkup]
@[simp] theorem bkupDueNow_provision (s) : SameProvision s (State.bkupDueNow s) := by unfold State.bkupDueNow; split <;> simp
@[simp] theorem askPanelOsc_provision (v s) : SameProvision s (State.askPanelOsc v s) := by simp [State.askPanelOsc]
@[simp] theorem panelOscNow_provision (s) : SameProvision s (State.panelOscNow s) := by unfold State.panelOscNow; split <;> simp

@[simp] theorem dropModTrim_provision (n s) : SameProvision s (State.dropModTrim n s) := by
  unfold State.dropModTrim; split <;> simp

@[simp] theorem reloadTrims_provision (s) : SameProvision s (State.reloadTrims s) := by simp [State.reloadTrims]
@[simp] theorem chDrift_provision (k x s) : SameProvision s (State.chDrift k x s) := by simp [State.chDrift]
@[simp] theorem dwellChecked_provision (g s) : SameProvision s (State.dwellChecked g s) := by simp [State.dwellChecked]

@[simp] theorem spareMove_provision (g err s) : SameProvision s (State.spareMove g err s) := by
  unfold State.spareMove; dsimp only; (repeat' split) <;> simp

@[simp] theorem restoreEnd_provision (k err detected s) : SameProvision s (State.restoreEnd k err detected s) := by
  unfold State.restoreEnd; dsimp only; (repeat' split) <;> simp

@[simp] theorem channelBoundary_provision (k s) : SameProvision s (State.channelBoundary k s) := by simp [State.channelBoundary]

@[simp] theorem spareBoundary_provision (g s) : SameProvision s (State.spareBoundary g s) := by
  unfold State.spareBoundary; dsimp only; (repeat' split) <;> simp

/-! ### Ports, sessions and commands -/

@[simp] theorem acted_provision (op : Nat) (r : Req) (s : State) (act : State → State × Status × List Byte)
    (h : ∀ x, SameProvision x (act x).1) : SameProvision s (State.acted op r s act) := by
  unfold State.acted; dsimp only; (repeat' split) <;> simp [h]

@[simp] theorem abandonActivation_provision (s) : SameProvision s (State.abandonActivation s) := by
  simp [State.abandonActivation]

@[simp] theorem command_provision (op : Nat) (r : Req) (s : State) (body : State → State)
    (h : ∀ x, SameProvision x (body x)) : SameProvision s (State.command op r s body) := by
  unfold State.command; dsimp only; (repeat' split) <;> simp [h]

@[simp] theorem softScope_provision (scope s) : SameProvision s (State.softScope scope s) := by
  unfold State.softScope; split <;> simp

@[simp] theorem settleN_provision (n : Nat) (s : State) : SameProvision s (State.settleN n s) := by
  induction n generalizing s with
  | zero => exact ⟨rfl, rfl⟩
  | succ n ih =>
    unfold State.settleN
    split
    · simp [ih]
    · split <;> simp [ih]

@[simp] theorem settleBaud_provision (s) : SameProvision s (State.settleBaud s) := by
  unfold State.settleBaud; dsimp only; (repeat' split) <;> simp

@[simp] theorem settle_provision (s) : SameProvision s (State.settle s) := by simp [State.settle]
@[simp] theorem transact_provision (p out s) : SameProvision s (State.transact p out s) := by simp [State.transact]
@[simp] theorem delivered_provision (p imm r s) : SameProvision s (State.delivered p imm r s) := by simp [State.delivered]

@[simp] theorem readPort_provision (p bytes s) : SameProvision s (State.readPort p bytes s) := by
  unfold State.readPort; dsimp only; (repeat' split) <;> simp

@[simp] theorem replyDropped_provision (p tag s) : SameProvision s (State.replyDropped p tag s) := by
  unfold State.replyDropped; dsimp only; (repeat' split) <;> simp

@[simp] theorem sessionOpen_provision (r payload s) : SameProvision s (State.sessionOpen r payload s) := by
  unfold State.sessionOpen; dsimp only; (repeat' split) <;> simp

/-! ### The guard domain -/

@[simp] theorem grdNotify_provision (i s) : SameProvision s (State.grdNotify i s) := by simp [State.grdNotify]

@[simp] theorem declareGroup_provision (onCell m s) : SameProvision s (State.declareGroup onCell m s) := by
  simp [State.declareGroup]

@[simp] theorem cellReplay_provision (s) : SameProvision s (State.cellReplay s) := by simp [State.cellReplay]
@[simp] theorem arm_provision (s) : SameProvision s (State.arm s) := by simp [State.arm]
@[simp] theorem fdis_provision (i s) : SameProvision s (State.fdis i s) := by simp [State.fdis]

@[simp] theorem clearGuards_provision (mask since s) : SameProvision s (State.clearGuards mask since s) := by
  simp [State.clearGuards]

/-! ### Interrupt targets -/

@[simp] theorem outOfOrder_provision (t timeout src dtag s) : SameProvision s (State.outOfOrder t timeout src dtag s) := by
  simp [State.outOfOrder]

@[simp] theorem retire_provision (t src dtag s) : SameProvision s (State.retire t src dtag s) := by
  unfold State.retire; dsimp only; (repeat' split) <;> simp

@[simp] theorem disableTarget_provision (t s) : SameProvision s (State.disableTarget t s) := by simp [State.disableTarget]

/-! ### The auxiliary ADC -/

@[simp] theorem refCheck_provision (s) : SameProvision s (State.refCheck s) := by simp [State.refCheck]
@[simp] theorem tempCheck_provision (s) : SameProvision s (State.tempCheck s) := by simp [State.tempCheck]
@[simp] theorem vbatReading_provision (s) : SameProvision s (State.vbatReading s) := by simp [State.vbatReading]

@[simp] theorem hallReading_provision (i s) : SameProvision s (State.hallReading i s) := by
  unfold State.hallReading; dsimp only; (repeat' split) <;> simp

@[simp] theorem auxScan_provision (i codes s) : SameProvision s (State.auxScan i codes s) := by
  unfold State.auxScan; split <;> simp

/-! ### The panel -/

@[simp] theorem tableLoad_provision (r t b final offset data s) :
    SameProvision s (State.tableLoad r t b final offset data s) := by
  unfold State.tableLoad; dsimp only; (repeat' split) <;> simp

@[simp] theorem steer_provision (s) : SameProvision s (State.steer s) := by simp [State.steer]
@[simp] theorem pnlDone_provision (g q st s) : SameProvision s (State.pnlDone g q st s) := by simp [State.pnlDone]
@[simp] theorem slotReq_provision (g q s) : SameProvision s (State.slotReq g q s) := by unfold State.slotReq; split <;> simp
@[simp] theorem placeReq_provision (g q s) : SameProvision s (State.placeReq g q s) := by unfold State.placeReq; split <;> simp
@[simp] theorem supersede_provision (g q s) : SameProvision s (State.supersede g q s) := by simp [State.supersede]

@[simp] theorem panelUpdate_provision (region transition urgent s) :
    SameProvision s (State.panelUpdate region transition urgent s).1 := by
  unfold State.panelUpdate; split <;> simp

@[simp] theorem pnlUpdate_provision (r region transition urgent s) :
    SameProvision s (State.pnlUpdate r region transition urgent s) := by
  simp [State.pnlUpdate]

@[simp] theorem refreshDirty_provision (s) : SameProvision s (State.refreshDirty s) := by simp [State.refreshDirty]
@[simp] theorem startWaiting_provision (s) : SameProvision s (State.startWaiting s) := by simp [State.startWaiting]
@[simp] theorem endRun_provision (g run st s) : SameProvision s (State.endRun g run st s) := by simp [State.endRun]

@[simp] theorem startRun_provision (g run s) : SameProvision s (State.startRun g run s) := by
  unfold State.startRun; split <;> simp

@[simp] theorem pairEnd_provision (g s) : SameProvision s (State.pairEnd g s) := by unfold State.pairEnd; split <;> simp
@[simp] theorem pairStart_provision (g s) : SameProvision s (State.pairStart g s) := by unfold State.pairStart; split <;> simp

@[simp] theorem dropPending_provision (g s) : SameProvision s (State.dropPending g s) := by
  unfold State.dropPending; dsimp only; (repeat' split) <;> simp

@[simp] theorem pairBoundary_provision (s) : SameProvision s (State.pairBoundary s) := by simp [State.pairBoundary]

@[simp] theorem faultRegion_provision (g s) : SameProvision s (State.faultRegion g s) := by
  unfold State.faultRegion; dsimp only; (repeat' split) <;> simp

@[simp] theorem panelFault_provision (s) : SameProvision s (State.panelFault s) := by simp [State.panelFault]
@[simp] theorem closeout_provision (s) : SameProvision s (State.closeout s) := by simp [State.closeout]
@[simp] theorem recover_provision (clockOk s) : SameProvision s (State.recover clockOk s) := by simp [State.recover]

/-! ### What parameter words do -/

@[simp] theorem store_provision (r w s) : SameProvision s (State.store r w s) := by simp [State.store]
@[simp] theorem stage_provision (x w s) : SameProvision s (State.stage x w s) := by simp [State.stage]

@[simp] theorem noteRejoined_provision (engine copy s) : SameProvision s (State.noteRejoined engine copy s) := by
  simp [State.noteRejoined]

@[simp] theorem rejoinComb_provision (s) : SameProvision s (State.rejoinComb s) := by unfold State.rejoinComb; split <;> simp
@[simp] theorem rejoinMet_provision (s) : SameProvision s (State.rejoinMet s) := by unfold State.rejoinMet; split <;> simp
@[simp] theorem rejoin_provision (comb met s) : SameProvision s (State.rejoin comb met s) := by simp [State.rejoin]
@[simp] theorem control_provision (k w s) : SameProvision s (State.control k w s) := by unfold State.control; split <;> simp
@[simp] theorem guardControl_provision (w s) : SameProvision s (State.guardControl w s) := by simp [State.guardControl]
@[simp] theorem askOsc_provision (w s) : SameProvision s (State.askOsc w s) := by simp [State.askOsc]

/-! ### The front end -/

@[simp] theorem slotCheck_provision (old x s) : SameProvision s (State.slotCheck old x s) := by simp [State.slotCheck]
@[simp] theorem latchSlots_provision (latches s) : SameProvision s (State.latchSlots latches s) := by simp [State.latchSlots]
@[simp] theorem deliverSlots_provision (s) : SameProvision s (State.deliverSlots s) := by simp [State.deliverSlots]

@[simp] theorem combCompare_provision (disagree again suspect s) :
    SameProvision s (State.combCompare disagree again suspect s) := by
  simp [State.combCompare]

@[simp] theorem frameLines_provision (s) : SameProvision s (State.frameLines s) := by simp [State.frameLines]
@[simp] theorem acquire_provision (place s) : SameProvision s (State.acquire place s) := by simp [State.acquire]
@[simp] theorem survey_provision (s) : SameProvision s (State.survey s) := by simp [State.survey]
@[simp] theorem relockFrame_provision (s) : SameProvision s (State.relockFrame s) := by simp [State.relockFrame]
@[simp] theorem handOffFrame_provision (s) : SameProvision s (State.handOffFrame s) := by simp [State.handOffFrame]
@[simp] theorem takePins_provision (s) : SameProvision s (State.takePins s) := by simp [State.takePins]

@[simp] theorem combFrame_provision (latches disagree again suspect s) :
    SameProvision s (State.combFrame latches disagree again suspect s) := by
  simp [State.combFrame]

/-! ### Energy -/

@[simp] theorem book_provision (p at_ l s) : SameProvision s (State.book p at_ l s) := by simp [State.book]

@[simp] theorem closePoint_provision (p s) : SameProvision s (State.closePoint p s) := by
  unfold State.closePoint; split <;> simp

@[simp] theorem closeBalance_provision (b s) : SameProvision s (State.closeBalance b s) := by
  unfold State.closeBalance; split <;> simp

@[simp] theorem closeDc_provision (k s) : SameProvision s (State.closeDc k s) := by simp [State.closeDc]

/-! ### Captures -/

@[simp] theorem startCapture_provision (i t kind s) : SameProvision s (State.startCapture i t kind s) := by
  simp [State.startCapture]

@[simp] theorem trigger_provision (t kind s) : SameProvision s (State.trigger t kind s) := by
  unfold State.trigger; dsimp only; (repeat' split) <;> simp

@[simp] theorem triggerBy_provision (e t s) : SameProvision s (State.triggerBy e t s) := by
  unfold State.triggerBy; split <;> simp

@[simp] theorem dueTrigger_provision (d s) : SameProvision s (State.dueTrigger d s) := by
  unfold State.dueTrigger; split <;> simp

@[simp] theorem enterDue_provision (d s) : SameProvision s (State.enterDue d s) := by unfold State.enterDue; split <;> simp

@[simp] theorem due_provision (rank ev subj at_ start done detail s) :
    SameProvision s (State.due rank ev subj at_ start done detail s) := by
  simp [State.due]

@[simp] theorem flushDue_provision (s) : SameProvision s (State.flushDue s) := by simp [State.flushDue]

/-! ### Half cycles -/

@[simp] theorem completeEvent_provision (b k e byPower incomplete stop recovery s) :
    SameProvision s (State.completeEvent b k e byPower incomplete stop recovery s) := by
  simp [State.completeEvent]

@[simp] theorem autoFreeze_provision (b s) : SameProvision s (State.autoFreeze b s) := by simp [State.autoFreeze]
@[simp] theorem freezeCount_provision (b half s) : SameProvision s (State.freezeCount b half s) := by simp [State.freezeCount]

@[simp] theorem rvcValue_provision (b i w value s) : SameProvision s (State.rvcValue b i w value s) := by
  unfold State.rvcValue; split <;> simp

@[simp] theorem startEvent_provision (b k phase v w s) : SameProvision s (State.startEvent b k phase v w s) := by
  unfold State.startEvent; split <;> simp

@[simp] theorem eventStep_provision (b w vs k s) : SameProvision s (State.eventStep b w vs k s) := by
  unfold State.eventStep; dsimp only; (repeat' split) <;> simp

@[simp] theorem flagBefore_provision (b s) : SameProvision s (State.flagBefore b s) := by simp [State.flagBefore]

@[simp] theorem halfCycle_provision (b half s) : SameProvision s (State.halfCycle b half s) := by
  unfold State.halfCycle; dsimp only; split <;> simp

@[simp] theorem powerFailEvents_provision (s) :
    SameProvision s (State.powerFailEvents s) := by
  unfold State.powerFailEvents
  dsimp only
  refine .trans (chain_provision _ _ _ fun _ s => ?_) (flushDue_provision _)
  refine chain_provision _ _ _ fun _ s => ?_
  (repeat' split) <;> simp

/-! ### Detectors -/

@[simp] theorem detected_provision (rank e subj detail old new s) :
    SameProvision s (State.detected rank e subj detail old new s) := by
  simp [State.detected]

@[simp] theorem neutralLost_provision (b s) : SameProvision s (State.neutralLost b s) := by simp [State.neutralLost]

@[simp] theorem neutralBypass_provision (p s) : SameProvision s (State.neutralBypass p s) := by
  unfold State.neutralBypass; split <;> simp

@[simp] theorem reverseFlow_provision (p s) : SameProvision s (State.reverseFlow p s) := by simp [State.reverseFlow]
@[simp] theorem cycleDetectors_provision (s) : SameProvision s (State.cycleDetectors s) := by simp [State.cycleDetectors]
@[simp] theorem wrongSequence_provision (b s) : SameProvision s (State.wrongSequence b s) := by simp [State.wrongSequence]
@[simp] theorem dcPresent_provision (k s) : SameProvision s (State.dcPresent k s) := by simp [State.dcPresent]
@[simp] theorem magnet_provision (s) : SameProvision s (State.magnet s) := by simp [State.magnet]
@[simp] theorem blockDetectors_provision (s) : SameProvision s (State.blockDetectors s) := by simp [State.blockDetectors]

/-! ### The wideband survey -/

@[simp] theorem startSet_provision (s) : SameProvision s (State.startSet s) := by simp [State.startSet]
@[simp] theorem publishSet_provision (s) : SameProvision s (State.publishSet s) := by simp [State.publishSet]

/-! ### Cutting and sealing folios -/

@[simp] theorem refill_provision (s) : SameProvision s (State.refill s) := by unfold State.refill; split <;> simp
@[simp] theorem seal_provision (ecc s) : SameProvision s (State.seal ecc s) := by unfold State.seal; split <;> simp
@[simp] theorem cut_provision (cause short s) : SameProvision s (State.cut cause short s) := by simp [State.cut]

/-! ### Records and accumulators -/

@[simp] theorem writeRecord_provision (r s) : SameProvision s (State.writeRecord r s) := by simp [State.writeRecord]
@[simp] theorem writeCheckpoint_provision (s) : SameProvision s (State.writeCheckpoint s) := by simp [State.writeCheckpoint]
@[simp] theorem checkpoint_provision (s) : SameProvision s (State.checkpoint s) := by simp [State.checkpoint]
@[simp] theorem extraCheckpoint_provision (s) : SameProvision s (State.extraCheckpoint s) := by simp [State.extraCheckpoint]

@[simp] theorem reloadCell_provision (n x s) : SameProvision s (State.reloadCell n x s) := by
  unfold State.reloadCell; split <;> simp

@[simp] theorem lostInterval_provision (s) : SameProvision s (State.lostInterval s) := by simp [State.lostInterval]

@[simp] theorem accLost_provision (x s) : SameProvision s (State.accLost x s) := by
  unfold State.accLost; dsimp only; (repeat' split) <;> simp

@[simp] theorem fenceBank_provision (mirror s) : SameProvision s (State.fenceBank mirror s) := by simp [State.fenceBank]
@[simp] theorem rewrite_provision (mirror word s) : SameProvision s (State.rewrite mirror word s) := by simp [State.rewrite]
@[simp] theorem accError_provision (errs e s) : SameProvision s (State.accError errs e s) := by simp [State.accError]
@[simp] theorem accErrors_provision (errs s) : SameProvision s (State.accErrors errs s) := by simp [State.accErrors]

/-! ### Blocks and aggregates -/

@[simp] theorem closeChannel_provision (short z k s) : SameProvision s (State.closeChannel short z k s) := by
  simp [State.closeChannel]

@[simp] theorem closeBus_provision (short z b s) : SameProvision s (State.closeBus short z b s) := by simp [State.closeBus]
@[simp] theorem close150_provision (short s) : SameProvision s (State.close150 short s) := by simp [State.close150]
@[simp] theorem applyNomf_provision (s) : SameProvision s (State.applyNomf s) := by simp [State.applyNomf]
@[simp] theorem asEnded_provision (s) : SameProvision s (State.asEnded s) := by simp [State.asEnded]
@[simp] theorem closeBlock_provision (short s) : SameProvision s (State.closeBlock short s) := by simp [State.closeBlock]
@[simp] theorem countedAggs_provision (s) : SameProvision s (State.countedAggs s) := by simp [State.countedAggs]
@[simp] theorem tenMinuteTick_provision (s) : SameProvision s (State.tenMinuteTick s) := by simp [State.tenMinuteTick]
@[simp] theorem frequencyClose_provision (s) : SameProvision s (State.frequencyClose s) := by simp [State.frequencyClose]
@[simp] theorem changeUdin_provision (b s) : SameProvision s (State.changeUdin b s) := by simp [State.changeUdin]
@[simp] theorem udinNow_provision (s) : SameProvision s (State.udinNow s) := by simp [State.udinNow]

/-! ### Memory errors -/

@[simp] theorem spoilFolio_provision (number offset addr s) : SameProvision s (State.spoilFolio number offset addr s) := by
  simp [State.spoilFolio]

@[simp] theorem spoilRead_provision (x s) : SameProvision s (State.spoilRead x s) := by unfold State.spoilRead; split <;> simp
@[simp] theorem noteUncorr_provision (x s) : SameProvision s (State.noteUncorr x s) := by simp [State.noteUncorr]
@[simp] theorem readError_provision (x s) : SameProvision s (State.readError x s) := by simp [State.readError]

/-! ### Folio commands -/

@[simp] theorem onFolio_provision (op : Nat) (r : Req) (sel : Selector) (s : State) (body : Folio → State)
    (h : ∀ f, SameProvision s (body f)) : SameProvision s (State.onFolio op r sel s body) := by
  unfold State.onFolio; (repeat' split) <;> simp [h]

@[simp] theorem grant_provision (session f d s) : SameProvision s (State.grant session f d s).1 := by
  unfold State.grant; dsimp only; (repeat' split) <;> simp

@[simp] theorem lease_provision (session sel duration s) : SameProvision s (State.lease session sel duration s).1 := by
  unfold State.lease; (repeat' split) <;> simp

@[simp] theorem endLease_provision (session id s) : SameProvision s (State.endLease session id s) := by simp [State.endLease]

@[simp] theorem renew_provision (session lease duration s) : SameProvision s (State.renew session lease duration s).1 := by
  unfold State.renew; split <;> simp

@[simp] theorem release_provision (session lease s) : SameProvision s (State.release session lease s).1 := by
  unfold State.release; split <;> simp

@[simp] theorem demandCut_provision (s) : SameProvision s (State.demandCut s).1 := by unfold State.demandCut; split <;> simp

/-! ### Admission of frames -/

@[simp] theorem judgeAdmitted_provision (c s) : SameProvision s (State.judgeAdmitted c s).1 := by
  unfold State.judgeAdmitted; dsimp only; (repeat' split) <;> simp

@[simp] theorem admitFrame_provision (p h role payload s) : SameProvision s (State.admitFrame p h role payload s) := by
  unfold State.admitFrame; dsimp only; (repeat' split) <;> simp

@[simp] theorem judgeOpcode_provision (p h role payload s) : SameProvision s (State.judgeOpcode p h role payload s) := by
  unfold State.judgeOpcode; (repeat' split) <;> simp

@[simp] theorem authFailure_provision (p h ss s) : SameProvision s (State.authFailure p h ss s) := by simp [State.authFailure]

@[simp] theorem judgeSequence_provision (p h ss payload s) : SameProvision s (State.judgeSequence p h ss payload s) := by
  simp [State.judgeSequence]

@[simp] theorem judgeSession_provision (p h ss bs s) : SameProvision s (State.judgeSession p h ss bs s) := by
  unfold State.judgeSession; (repeat' split) <;> simp

@[simp] theorem judgeFrame_provision (p bs s) : SameProvision s (State.judgeFrame p bs s) := by
  unfold State.judgeFrame; dsimp only; (repeat' split) <;> simp

@[simp] theorem frameReceive_provision (p bytes s) : SameProvision s (State.frameReceive p bytes s) := by
  unfold State.frameReceive; (repeat' split) <;> simp

/-! ### The calendar -/

@[simp] theorem alarmEvent_provision (a at_ s) : SameProvision s (State.alarmEvent a at_ s) := by simp [State.alarmEvent]

@[simp] theorem alarmFire_provision (a t dow skipped s) : SameProvision s (State.alarmFire a t dow skipped s) := by
  simp [State.alarmFire]

@[simp] theorem alarmForward_provision (old dow new a s) : SameProvision s (State.alarmForward old dow new a s) := by
  unfold State.alarmForward; dsimp only; (repeat' split) <;> simp

@[simp] theorem alarmsAtStep_provision (old dow new s) : SameProvision s (State.alarmsAtStep old dow new s) := by
  simp [State.alarmsAtStep]

@[simp] theorem badSet_provision (s) : SameProvision s (State.badSet s) := by simp [State.badSet]
@[simp] theorem calStep_provision (new dow s) : SameProvision s (State.calStep new dow s) := by simp [State.calStep]
@[simp] theorem calFirstSet_provision (new dow s) : SameProvision s (State.calFirstSet new dow s) := by simp [State.calFirstSet]
@[simp] theorem cldSet_provision (r f s) : SameProvision s (State.cldSet r f s) := by simp [State.cldSet]

@[simp] theorem cldAdjusted_provision (r mode amount s) : SameProvision s (State.cldAdjusted r mode amount s) := by
  simp [State.cldAdjusted]

@[simp] theorem adjustStep_provision (r mode amount s) : SameProvision s (State.adjustStep r mode amount s) := by
  simp [State.adjustStep]

@[simp] theorem adjustSlew_provision (r mode amount s) : SameProvision s (State.adjustSlew r mode amount s) := by
  simp [State.adjustSlew]

@[simp] theorem secondBoundary_provision (s) : SameProvision s (State.secondBoundary s) := by simp [State.secondBoundary]

/-! ### Demand, profile and balance -/

@[simp] theorem demandClose_provision (p s) : SameProvision s (State.demandClose p s) := by simp [State.demandClose]
@[simp] theorem applyProfEn_provision (s) : SameProvision s (State.applyProfEn s) := by simp [State.applyProfEn]
@[simp] theorem openProfile_provision (part s) : SameProvision s (State.openProfile part s) := by simp [State.openProfile]
@[simp] theorem countLost_provision (p s) : SameProvision s (State.countLost p s) := by unfold State.countLost; split <;> simp

@[simp] theorem loseRecords_provision (lost s) : SameProvision s (State.loseRecords lost s) := by
  unfold State.loseRecords; split <;> simp

@[simp] theorem writeGroup_provision (g s) : SameProvision s (State.writeGroup g s) := by simp [State.writeGroup]
@[simp] theorem profileClose_provision (part s) : SameProvision s (State.profileClose part s) := by simp [State.profileClose]

@[simp] theorem residual_provision (b export_ opened r e s) : SameProvision s (State.residual b export_ opened r e s) := by
  simp [State.residual]

@[simp] theorem balanceClose_provision (b part s) : SameProvision s (State.balanceClose b part s) := by
  simp [State.balanceClose]

/-! ### The timebase -/

@[simp] theorem switchRef_provision (ref frozen s) : SameProvision s (State.switchRef ref frozen s) := by simp [State.switchRef]
@[simp] theorem enterFreerun_provision (s) : SameProvision s (State.enterFreerun s) := by simp [State.enterFreerun]

@[simp] theorem enterHoldover_provision (periods s) : SameProvision s (State.enterHoldover periods s) := by
  simp [State.enterHoldover]

@[simp] theorem chooseRef_provision (old periods looks s) : SameProvision s (State.chooseRef old periods looks s) := by
  unfold State.chooseRef; dsimp only; (repeat' split) <;> simp

@[simp] theorem judgeLock_provision (s) : SameProvision s (State.judgeLock s) := by
  unfold State.judgeLock; dsimp only; (repeat' split) <;> simp

@[simp] theorem closeTimebase_provision (s) : SameProvision s (State.closeTimebase s) := by simp [State.closeTimebase]

@[simp] theorem absorbDelay_provision (old new s) : SameProvision s (State.absorbDelay old new s) := by
  unfold State.absorbDelay; split <;> simp

/-! ### Meter calibration and demand resets -/

@[simp] theorem convert_provision (p u s) : SameProvision s (State.convert p u s) := by simp [State.convert]
@[simp] theorem reconcile_provision (p s) : SameProvision s (State.reconcile p s) := by simp [State.reconcile]
@[simp] theorem firstCommit_provision (digest s) : SameProvision s (State.firstCommit digest s) := by simp [State.firstCommit]
@[simp] theorem commitSet_provision (digest s) : SameProvision s (State.commitSet digest s) := by simp [State.commitSet]

@[simp] theorem commitBoundary_provision (s) : SameProvision s (State.commitBoundary s) := by
  unfold State.commitBoundary; split <;> simp

@[simp] theorem reloadCal_provision (s) : SameProvision s (State.reloadCal s) := by simp [State.reloadCal]
@[simp] theorem calParity_provision (addr s) : SameProvision s (State.calParity addr s) := by simp [State.calParity]

@[simp] theorem resolvePoint_provision (convert p s) : SameProvision s (State.resolvePoint convert p s) := by
  simp [State.resolvePoint]

@[simp] theorem resolveOne_provision (x s) : SameProvision s (State.resolveOne x s) := by simp [State.resolveOne]
@[simp] theorem resolveBoundary_provision (s) : SameProvision s (State.resolveBoundary s) := by simp [State.resolveBoundary]
@[simp] theorem resetDemand_provision (p s) : SameProvision s (State.resetDemand p s) := by simp [State.resetDemand]
@[simp] theorem resetReply_provision (x s) : SameProvision s (State.resetReply x s) := by simp [State.resetReply]
@[simp] theorem resetBoundary_provision (s) : SameProvision s (State.resetBoundary s) := by simp [State.resetBoundary]
@[simp] theorem dropOldWindows_provision (s) : SameProvision s (State.dropOldWindows s) := by simp [State.dropOldWindows]

/-! ### Pulse outputs -/

@[simp] theorem pulseSample_provision (index n s) : SameProvision s (State.pulseSample index n s) := by simp [State.pulseSample]
@[simp] theorem pulseClose_provision (n s) : SameProvision s (State.pulseClose n s) := by simp [State.pulseClose]
@[simp] theorem rebase_provision (n s) : SameProvision s (State.rebase n s) := by simp [State.rebase]

/-! ### The cycle closure -/

@[simp] theorem halfEnd_provision (half s) : SameProvision s (State.halfEnd half s) := by simp [State.halfEnd]

@[simp] theorem keepBatch_provision (index samps s) : SameProvision s (State.keepBatch index samps s) := by
  simp [State.keepBatch]

@[simp] theorem takeBatch_provision (samps s) : SameProvision s (State.takeBatch samps s) := by simp [State.takeBatch]

@[simp] theorem sampleBatch_provision (index parity s) : SameProvision s (State.sampleBatch index parity s) := by
  simp [State.sampleBatch]

@[simp] theorem replayBatch_provision (b s) : SameProvision s (State.replayBatch b s) := by simp [State.replayBatch]

@[simp] theorem replayFrom_provision (batch s) : SameProvision s (State.replayFrom batch s) := by
  unfold State.replayFrom; split <;> simp

@[simp] theorem metrologyReplay_provision (batch again failed s) :
    SameProvision s (State.metrologyReplay batch again failed s) := by
  simp [State.metrologyReplay]

@[simp] theorem noteCommit_provision (s) : SameProvision s (State.noteCommit s) := by simp [State.noteCommit]
@[simp] theorem markSteps_provision (s) : SameProvision s (State.markSteps s) := by simp [State.markSteps]
@[simp] theorem channelsToBlock_provision (s) : SameProvision s (State.channelsToBlock s) := by simp [State.channelsToBlock]

@[simp] theorem closeQuantities_provision (accErrs s) : SameProvision s (State.closeQuantities accErrs s) := by
  simp [State.closeQuantities]

@[simp] theorem boundaryImage_provision (raised s) : SameProvision s (State.boundaryImage raised s) := by
  simp [State.boundaryImage]

@[simp] theorem turnCycle_provision (s) : SameProvision s (State.turnCycle s) := by simp [State.turnCycle]
@[simp] theorem enforce_provision (a s) : SameProvision s (State.enforce a s) := by simp [State.enforce]
@[simp] theorem changeDemand_provision (p s) : SameProvision s (State.changeDemand p s) := by simp [State.changeDemand]

@[simp] theorem closeChanged_provision (due s) : SameProvision s (State.closeChanged due s) := by
  exact chain_provision _ _ _ fun _ s => by dsimp only; split <;> simp

@[simp] theorem afterSettings_provision (old due rebases s) :
    SameProvision s (State.afterSettings old due rebases s) := by
  unfold State.afterSettings
  exact SameProvision.trans (chain_provision _ _ _ fun _ s => by split <;> simp) (chain_provision _ _ _ (by simp))

@[simp] theorem applySettings_provision (s) : SameProvision s (State.applySettings s) := by simp [State.applySettings]

@[simp] theorem trimsBoundary_provision (s) : SameProvision s (State.trimsBoundary s) := by
  unfold State.trimsBoundary; dsimp only; split <;> simp

@[simp] theorem saveBoundary_provision (s) : SameProvision s (State.saveBoundary s) := by
  unfold State.saveBoundary; split <;> simp

@[simp] theorem bankBoundary_provision (s) : SameProvision s (State.bankBoundary s) := by simp [State.bankBoundary]
@[simp] theorem boundaryEffects_provision (s) : SameProvision s (State.boundaryEffects s) := by simp [State.boundaryEffects]
@[simp] theorem closeSteps_provision (moves s) : SameProvision s (State.closeSteps moves s) := by simp [State.closeSteps]
@[simp] theorem cutAsked_provision (s) : SameProvision s (State.cutAsked s) := by simp [State.cutAsked]
@[simp] theorem closureRecord_provision (s) : SameProvision s (State.closureRecord s) := by simp [State.closureRecord]
@[simp] theorem openNext_provision (s) : SameProvision s (State.openNext s) := by simp [State.openNext]
@[simp] theorem cycleClose_provision (errs s) : SameProvision s (State.cycleClose errs s) := by simp [State.cycleClose]

/-! ### Management commands -/

@[simp] theorem endLock_provision (s) : SameProvision s (State.endLock s) := by unfold State.endLock; split <;> simp

/-! ### Events, profile and log -/

@[simp] theorem eventRead_provision (r number s) : SameProvision s (State.eventRead r number s) := by simp [State.eventRead]

@[simp] theorem profileRead_provision (r number count s) : SameProvision s (State.profileRead r number count s) := by
  simp [State.profileRead]

@[simp] theorem logRead_provision (r number count s) : SameProvision s (State.logRead r number count s) := by
  simp [State.logRead]

@[simp] theorem writeLog_provision (s) : SameProvision s (State.writeLog s) := by
  unfold State.writeLog; dsimp only; (repeat' split) <;> simp

@[simp] theorem fillLog_provision (n : Nat) (s : State) : SameProvision s (State.fillLog n s) := by
  induction n generalizing s with
  | zero => exact ⟨rfl, rfl⟩
  | succ n ih => unfold State.fillLog; split <;> simp [ih]

@[simp] theorem logEcc_provision (number s) : SameProvision s (State.logEcc number s) := by simp [State.logEcc]

/-! ### Firmware -/

@[simp] theorem fwCommand_provision (op : Nat) (r : Req) (s : State) (body : State → State)
    (h : ∀ x, SameProvision x (body x)) : SameProvision s (State.fwCommand op r s body) := by
  simp [State.fwCommand, h]

@[simp] theorem fwState_provision (x s) : SameProvision s (State.fwState x s) := by simp [State.fwState]
@[simp] theorem restartCores_provision (s) : SameProvision s (State.restartCores s) := by simp [State.restartCores]
@[simp] theorem noteRecovery_provision (s) : SameProvision s (State.noteRecovery s) := by simp [State.noteRecovery]
@[simp] theorem revert_provision (cause s) : SameProvision s (State.revert cause s) := by simp [State.revert]
@[simp] theorem revertOrHold_provision (cause s) : SameProvision s (State.revertOrHold cause s) := by simp [State.revertOrHold]
@[simp] theorem bootSlot_provision (s) : SameProvision s (State.bootSlot s) := by simp [State.bootSlot]
@[simp] theorem spoilSlot_provision (x s) : SameProvision s (State.spoilSlot x s) := by simp [State.spoilSlot]
@[simp] theorem loadCores_provision (bad passes s) : SameProvision s (State.loadCores bad passes s) := by simp [State.loadCores]
@[simp] theorem restartAnvil_provision (bad s) : SameProvision s (State.restartAnvil bad s) := by simp [State.restartAnvil]
@[simp] theorem selfCheck_provision (s) : SameProvision s (State.selfCheck s) := by simp [State.selfCheck]
@[simp] theorem switchSlot_provision (i s) : SameProvision s (State.switchSlot i s) := by simp [State.switchSlot]
@[simp] theorem commitTrial_provision (s) : SameProvision s (State.commitTrial s) := by simp [State.commitTrial]
@[simp] theorem heldWrites_provision (s) : SameProvision s (State.heldWrites s) := by unfold State.heldWrites; split <;> simp

/-! ### Faults and the crystal -/

@[simp] theorem sramError_provision (x s) : SameProvision s (State.sramError x s) := by unfold State.sramError; split <;> simp
@[simp] theorem changeRef_provision (before s) : SameProvision s (State.changeRef before s) := by simp [State.changeRef]
@[simp] theorem xtalFail_provision (s) : SameProvision s (State.xtalFail s) := by simp [State.xtalFail]
@[simp] theorem xtalReturn_provision (s) : SameProvision s (State.xtalReturn s) := by simp [State.xtalReturn]

/-! ### The power-fail sequence -/

@[simp] theorem addCause_provision (bits s) : SameProvision s (State.addCause bits s) := by simp [State.addCause]
@[simp] theorem shed_provision (s) : SameProvision s (State.shed s) := by simp [State.shed]
@[simp] theorem warn_provision (vin pfw s) : SameProvision s (State.warn vin pfw s) := by simp [State.warn]
@[simp] theorem warnAgain_provision (vin pfw s) : SameProvision s (State.warnAgain vin pfw s) := by simp [State.warnAgain]
@[simp] theorem writeEntry_provision (r s) : SameProvision s (State.writeEntry r s) := by simp [State.writeEntry]
@[simp] theorem presentEntry_provision (s) : SameProvision s (State.presentEntry s) := by simp [State.presentEntry]

@[simp] theorem journalEntry_provision (s) : SameProvision s (State.journalEntry s) := by
  unfold State.journalEntry; (repeat' split) <;> simp

@[simp] theorem tailUpdate_provision (s) : SameProvision s (State.tailUpdate s) := by unfold State.tailUpdate; split <;> simp
@[simp] theorem pfRecovered_provision (s) : SameProvision s (State.pfRecovered s) := by simp [State.pfRecovered]

/-! ### Resets -/

@[simp] theorem coldReset_provision (bits why s) : SameProvision s (State.coldReset bits why s) := by
  simp [State.coldReset, State.coldDev]

@[simp] theorem coldTrims_provision (old s) : SameProvision s (State.coldTrims old s) := by simp [State.coldTrims]
@[simp] theorem begin_provision (bad selfCheck s) : SameProvision s (State.begin_ bad selfCheck s) := by simp [State.begin_]
@[simp] theorem resetEntry_provision (s) : SameProvision s (State.resetEntry s) := by simp [State.resetEntry]
@[simp] theorem flushAll_provision (s) : SameProvision s (State.flushAll s) := by simp [State.flushAll]
@[simp] theorem loseWaiting_provision (s) : SameProvision s (State.loseWaiting s) := by simp [State.loseWaiting]
@[simp] theorem warmReset_provision (s) : SameProvision s (State.warmReset s) := by simp [State.warmReset, Scribe.warm]
@[simp] theorem restartStartup_provision (s) : SameProvision s (State.restartStartup s) := by simp [State.restartStartup]
@[simp] theorem anvWdog_provision (core bad s) : SameProvision s (State.anvWdog core bad s) := by simp [State.anvWdog]

/-! ### Start-up -/

@[simp] theorem resume_provision (c s) : SameProvision s (State.resume c s) := by simp [State.resume]
@[simp] theorem restoreRecord_provision (r s) : SameProvision s (State.restoreRecord r s) := by simp [State.restoreRecord]
@[simp] theorem fallBack_provision (bad s) : SameProvision s (State.fallBack bad s) := by simp [State.fallBack]
@[simp] theorem enterHeld_provision (s) : SameProvision s (State.enterHeld s) := by simp [State.enterHeld]

@[simp] theorem journalRestored_provision (bad s) : SameProvision s (State.journalRestored bad s) := by
  unfold State.journalRestored; dsimp only; (repeat' split) <;> simp

@[simp] theorem testSpare_provision (failed g s) : SameProvision s (State.testSpare failed g s) := by simp [State.testSpare]
@[simp] theorem testChan_provision (failed k s) : SameProvision s (State.testChan failed k s) := by simp [State.testChan]

@[simp] theorem testEngines_provision (comb met s) : SameProvision s (State.testEngines comb met s) := by
  unfold State.testEngines; dsimp only; (repeat' split) <;> simp

@[simp] theorem checkImage_provision (i bad s) : SameProvision s (State.checkImage i bad s) := by
  unfold State.checkImage; split <;> simp

@[simp] theorem applyImage_provision (words tables s) : SameProvision s (State.applyImage words tables s) := by
  simp [State.applyImage]

@[simp] theorem configured_provision (up s) : SameProvision s (State.configured up s) := by simp [State.configured]

@[simp] theorem configRestore_provision (bad0 bad1 s) : SameProvision s (State.configRestore bad0 bad1 s) := by
  unfold State.configRestore; dsimp only; (repeat' split) <;> simp

@[simp] theorem firstCommands_provision (s) : SameProvision s (State.firstCommands s) := by simp [State.firstCommands]
@[simp] theorem firstSettings_provision (s) : SameProvision s (State.firstSettings s) := by simp [State.firstSettings]
@[simp] theorem openAll_provision (s) : SameProvision s (State.openAll s) := by simp [State.openAll]
@[simp] theorem raiseUnmetered_provision (s) : SameProvision s (State.raiseUnmetered s) := by simp [State.raiseUnmetered]
@[simp] theorem cellAlarm_provision (a s) : SameProvision s (State.cellAlarm a s) := by simp [State.cellAlarm]

@[simp] theorem startMetering_provision (line start s) : SameProvision s (State.startMetering line start s) := by
  simp [State.startMetering]

/-! ### Parameter writes (R233): one word, SES.KEY.CTL, can end the provisioning allowance (R211) -/

/-- The ordering code stands, and that a LEGAL key has been valid once is not forgotten (R2, R211). -/
def ProvisionKept (s t : State) : Prop :=
  t.dev.variant = s.dev.variant ∧ (s.scr.legalEver = true → t.scr.legalEver = true)

theorem SameProvision.kept {s t : State} (h : SameProvision s t) : ProvisionKept s t := ⟨h.1, fun hl => h.2.trans hl⟩

theorem ProvisionKept.refl (s : State) : ProvisionKept s s := ⟨rfl, id⟩

theorem ProvisionKept.trans {s t u : State} (h : ProvisionKept s t) (h' : ProvisionKept t u) : ProvisionKept s u :=
  ⟨h'.1.trans h.1, h'.2 ∘ h.2⟩

theorem noteKey_kept (w : Word) (s : State) : ProvisionKept s (State.noteKey w s) := by
  unfold State.noteKey
  split
  · exact ⟨rfl, fun _ => rfl⟩
  · exact .refl s

/-- Of every other word the effect leaves the provisioning allowance as it was. -/
theorem applyWord_provision (req : Req) (env : Sensed) (r : Reg) (v w : Word) (s : State) (h : ∀ e, r ≠ .sesKeyCtl e) :
    SameProvision s (State.applyWord req env r v w s) := by
  cases r with
  | sesKeyCtl e => exact absurd rfl (h e)
  | ch k x => cases x <;> (unfold State.applyWord; simp)
  | _ => unfold State.applyWord; simp

theorem applyWord_kept (req : Req) (env : Sensed) (r : Reg) (v w : Word) (s : State) :
    ProvisionKept s (State.applyWord req env r v w s) := by
  by_cases h : ∃ e, r = .sesKeyCtl e
  · obtain ⟨e, rfl⟩ := h
    unfold State.applyWord
    dsimp only
    split
    · exact .refl s
    · exact .trans (store_provision _ v s).kept (noteKey_kept v _)
  · exact (applyWord_provision req env r v w s fun e he => h ⟨e, he⟩).kept

theorem writeWords_kept (req : Req) (env : Sensed) (order : Option Nat) (l : List (Nat × Word)) (s : State) {s1 : State}
    (h : State.writeWords req env order l s = .inr s1) : ProvisionKept s s1 := by
  induction l generalizing s with
  | nil => cases h; exact .refl _
  | cons x l ih =>
    simp only [State.writeWords] at h
    split at h
    · cases h
    · exact .trans (applyWord_kept ..) (ih _ h)

/-- A request that is not refused is the effect of its words (R233). -/
theorem writeWords_of_tryWrite {req : Req} {env : Sensed} {addr : Nat} {ws : List Word} {s s1 : State}
    (h : s.tryWrite req env addr ws = .inr s1) :
    s.writeWords req env ((s.entry? 0x0202 req).map Entry.order) (addressed addr ws) = .inr s1 := by
  unfold State.tryWrite at h
  dsimp only at h
  split at h
  · cases h
  · split at h
    · cases h
    · exact h

theorem paramWrite_kept (req : Req) (env : Sensed) (addr : Nat) (ws : List Word) (s : State) :
    ProvisionKept s (State.paramWrite req env addr ws s) := by
  unfold State.paramWrite
  split
  · exact SameProvision.kept (by simp)
  · next s1 h => exact .trans (writeWords_kept _ _ _ _ _ (writeWords_of_tryWrite h)) (SameProvision.kept (by simp))

/-- What a host command comes to (R204, R213, R228, R332): it is held, it fails, or it has its own effect. -/
theorem command_cases (op : Nat) (r : Req) (s : State) (body : State → State) :
    State.command op r s body = s ∨ (∃ st, State.command op r s body = s.fail op r st) ∨
      (∃ st, State.command op r s body = (s.woken op).fail op r st) ∨ State.command op r s body = body (s.woken op) := by
  have hw : (if isSlow op && decide (op ≠ 0x0503) then s.wake else s) = s.woken op := rfl
  unfold State.command
  simp only [hw]
  split
  · exact .inl rfl
  split
  · exact .inr (.inl ⟨_, rfl⟩)
  split
  · exact .inr (.inr (.inl ⟨_, rfl⟩))
  split
  · exact .inr (.inr (.inl ⟨_, rfl⟩))
  · exact .inr (.inr (.inr rfl))

theorem command_kept (op : Nat) (r : Req) (s : State) (body : State → State) (h : ∀ x, ProvisionKept x (body x)) :
    ProvisionKept s (State.command op r s body) := by
  have hw : ProvisionKept s (s.woken op) := SameProvision.kept (by simp)
  have hf : ∀ st x, ProvisionKept x (State.fail op r st x) := fun st x => SameProvision.kept (by simp)
  rcases command_cases op r s body with hc | ⟨st, hc⟩ | ⟨st, hc⟩ | hc <;> rw [hc]
  · exact .refl s
  · exact hf st s
  · exact hw.trans (hf st _)
  · exact hw.trans (h _)

theorem write_kept (req : Req) (env : Sensed) (r : Reg) (w : Word) (s : State) :
    ProvisionKept s (State.write req env r w s) :=
  command_kept _ _ _ _ (paramWrite_kept req env r.addr [w])

/-! ### The rows of the table -/

/-- No row touches the queue of waiting commands (log 10). -/
theorem exec_pending (c : Instr) (s : State) : ∃ t, exec c s = .next t ∧ t.pending = s.pending :=
  match c with
  | .nop .. => execNop_pending ..
  | .sessionOpen .. => execSessionOpen_pending ..
  | .sessionClose .. => execSessionClose_pending ..
  | .setPriority .. => execSetPriority_pending ..
  | .folioRead .. => execFolioRead_pending ..
  | .folioLease .. => execFolioLease_pending ..
  | .folioRenew .. => execFolioRenew_pending ..
  | .folioRelease .. => execFolioRelease_pending ..
  | .folioCut .. => execFolioCut_pending ..
  | .folioSealGet .. => execFolioSealGet_pending ..
  | .paramRead .. => execParamRead_pending ..
  | .paramWrite .. => execParamWrite_pending ..
  | .scRead .. => execScRead_pending ..
  | .eventRead .. => execEventRead_pending ..
  | .eventAck .. => execEventAck_pending ..
  | .profileRead .. => execProfileRead_pending ..
  | .profileAck .. => execProfileAck_pending ..
  | .wbRead .. => execWbRead_pending ..
  | .capRead .. => execCapRead_pending ..
  | .capTrigger .. => execCapTrigger_pending ..
  | .capRelease .. => execCapRelease_pending ..
  | .logRead .. => execLogRead_pending ..
  | .demandReset .. => execDemandReset_pending ..
  | .calCommit .. => execCalCommit_pending ..
  | .calPendingRead .. => execCalPendingRead_pending ..
  | .calPendingResolve .. => execCalPendingResolve_pending ..
  | .pulseTest .. => execPulseTest_pending ..
  | .blotRead .. => execBlotRead_pending ..
  | .blotClear .. => execBlotClear_pending ..
  | .bankEnter .. => execBankEnter_pending ..
  | .bankExit .. => execBankExit_pending ..
  | .softReset .. => execSoftReset_pending ..
  | .auxRead .. => execAuxRead_pending ..
  | .cfgSave .. => execCfgSave_pending ..
  | .inkLock .. => execInkLock_pending ..
  | .inkUnlock .. => execInkUnlock_pending ..
  | .fwBegin .. => execFwBegin_pending ..
  | .fwWrite .. => execFwWrite_pending ..
  | .fwVerify .. => execFwVerify_pending ..
  | .fwActivate .. => execFwActivate_pending ..
  | .cldSet .. => execCldSet_pending ..
  | .cldAdjustStep .. => execCldAdjustStep_pending ..
  | .cldAdjustSlew .. => execCldAdjustSlew_pending ..
  | .cldAlarmAck .. => execCldAlarmAck_pending ..
  | .grdClearArm .. => execGrdClearArm_pending ..
  | .grdClearConfirm .. => execGrdClearConfirm_pending ..
  | .grdTest .. => execGrdTest_pending ..
  | .idCertRead .. => execIdCertRead_pending ..
  | .pnlTableLoad .. => execPnlTableLoad_pending ..
  | .pnlImageWrite .. => execPnlImageWrite_pending ..
  | .pnlUpdate .. => execPnlUpdate_pending ..
  | .forceSpare .. => execForceSpare_pending ..
  | .restore .. => execRestore_pending ..
  | .check .. => execCheck_pending ..
  | .trimModWrite .. => execTrimModWrite_pending ..
  | .trimVrefWrite .. => execTrimVrefWrite_pending ..
  | .trimOscWrite .. => execTrimOscWrite_pending ..
  | .reload .. => execReload_pending ..
  | .rejoin .. => execRejoin_pending ..
  | .xreturn .. => execXreturn_pending ..
  | .eoi .. => execEoi_pending ..
  | .intTargetDisable .. => execIntTargetDisable_pending ..
  | .arm .. => execArm_pending ..
  | .fdis .. => execFdis_pending ..
  | .recover .. => execRecover_pending ..
  | .frameReceive .. => execFrameReceive_pending ..
  | .read .. => execRead_pending ..
  | .status .. => execStatus_pending ..
  | .uartReplySent .. => execUartReplySent_pending ..
  | .portTimeout .. => execPortTimeout_pending ..
  | .spiPortReset .. => execSpiPortReset_pending ..
  | .uartFrameStall .. => execUartFrameStall_pending ..
  | .brk .. => execBrk_pending ..
  | .replyDropped .. => execReplyDropped_pending ..
  | .sessionIdleTimeout .. => execSessionIdleTimeout_pending ..
  | .leaseExpiry .. => execLeaseExpiry_pending ..
  | .inkLockExpiry .. => execInkLockExpiry_pending ..
  | .grdChallengeExpiry .. => execGrdChallengeExpiry_pending ..
  | .combFrame .. => execCombFrame_pending ..
  | .engFenced .. => execEngFenced_pending ..
  | .sampleBatch .. => execSampleBatch_pending ..
  | .metrologyReplay .. => execMetrologyReplay_pending ..
  | .autoFreezeEnd .. => execAutoFreezeEnd_pending ..
  | .cycleClose .. => execCycleClose_pending ..
  | .freerunEntry .. => execFreerunEntry_pending ..
  | .lsyncEdge .. => execLsyncEdge_pending ..
  | .lsyncTimeout .. => execLsyncTimeout_pending ..
  | .blockClose .. => execBlockClose_pending ..
  | .aggregateClose .. => execAggregateClose_pending ..
  | .tenMinuteTick .. => execTenMinuteTick_pending ..
  | .frequencyIntervalClose .. => execFrequencyIntervalClose_pending ..
  | .demandClose .. => execDemandClose_pending ..
  | .profileClose .. => execProfileClose_pending ..
  | .balanceClose .. => execBalanceClose_pending ..
  | .modulatorHardFault .. => execModulatorHardFault_pending ..
  | .chSubstituted .. => execChSubstituted_pending ..
  | .spareMove .. => execSpareMove_pending ..
  | .driftCheckPhase .. => execDriftCheckPhase_pending ..
  | .chDriftChecked .. => execChDriftChecked_pending ..
  | .chRestored .. => execChRestored_pending ..
  | .suppressionEnd .. => execSuppressionEnd_pending ..
  | .chClip .. => execChClip_pending ..
  | .pulseLeadingEdge .. => execPulseLeadingEdge_pending ..
  | .pulseTrailingEdge .. => execPulseTrailingEdge_pending ..
  | .wbSetEnd .. => execWbSetEnd_pending ..
  | .captureFilled .. => execCaptureFilled_pending ..
  | .captureKeepExpiry .. => execCaptureKeepExpiry_pending ..
  | .eventLogWrite .. => execEventLogWrite_pending ..
  | .intTimeout .. => execIntTimeout_pending ..
  | .auxScan .. => execAuxScan_pending ..
  | .accScrub .. => execAccScrub_pending ..
  | .sramScrub .. => execSramScrub_pending ..
  | .xtalFail .. => execXtalFail_pending ..
  | .xtalRate .. => execXtalRate_pending ..
  | .xtalReturn .. => execXtalReturn_pending ..
  | .powerFail .. => execPowerFail_pending ..
  | .journalEntry .. => execJournalEntry_pending ..
  | .tailUpdate .. => execTailUpdate_pending ..
  | .journalErase ok => execJournalErase_pending ok s
  | .pfSustained .. => execPfSustained_pending ..
  | .pfRecovered .. => execPfRecovered_pending ..
  | .brownout .. => execBrownout_pending ..
  | .por .. => execPor_pending ..
  | .resetnCold .. => execResetnCold_pending ..
  | .resetnWarm .. => execResetnWarm_pending ..
  | .vaonChangeover .. => execVaonChangeover_pending ..
  | .supplyLossBoth .. => execSupplyLossBoth_pending ..
  | .crystalAccepted .. => execCrystalAccepted_pending ..
  | .startupReady .. => execStartupReady_pending ..
  | .configRestore .. => execConfigRestore_pending ..
  | .cfgRestoreFail .. => execCfgRestoreFail_pending ..
  | .firstMeteredCycle .. => execFirstMeteredCycle_pending ..
  | .startupFreerunFallback .. => execStartupFreerunFallback_pending ..
  | .anvWdog .. => execAnvWdog_pending ..
  | .fwTrialEnd .. => execFwTrialEnd_pending ..
  | .calSecondBoundary .. => execCalSecondBoundary_pending ..
  | .calStopped .. => execCalStopped_pending ..
  | .grdClock .. => execGrdClock_pending ..
  | .grdSource .. => execGrdSource_pending ..
  | .panelPairBoundary .. => execPanelPairBoundary_pending ..
  | .railStep .. => execRailStep_pending ..
  | .railRead .. => execRailRead_pending ..
  | .panelFault .. => execPanelFault_pending ..
  | .folioSealed .. => execFolioSealed_pending ..
  | .resetnRelease .. => execResetnRelease_pending ..
  | .journalRestored .. => execJournalRestored_pending ..
  | .startUpTest .. => execStartUpTest_pending ..
  | .portsReady .. => execPortsReady_pending ..
  | .xtalStartTimeout .. => execXtalStartTimeout_pending ..
  | .slewEnd .. => execSlewEnd_pending ..
  | .cellScanPeriod .. => execCellScanPeriod_pending ..
  | .panelFrameBoundary .. => execPanelFrameBoundary_pending ..
  | .isolatedParityError .. => execIsolatedParityError_pending ..

theorem execFolioRead_provision (r sel offset length errs s) :
    ∃ t, execFolioRead r sel offset length errs s = .next t ∧ SameProvision s t :=
  ⟨_, rfl, command_provision _ _ _ _ fun s => by simp⟩

theorem execCalPendingRead_provision (r point select s) :
    ∃ t, execCalPendingRead r point select s = .next t ∧ SameProvision s t :=
  ⟨_, rfl, command_provision _ _ _ _ fun s => by dsimp only; (repeat' split) <;> simp⟩

theorem execBankEnter_provision (r s) : ∃ t, execBankEnter r s = .next t ∧ SameProvision s t :=
  ⟨_, rfl, command_provision _ _ _ _ fun s => by dsimp only; (repeat' split) <;> simp⟩

theorem execAuxRead_provision (r input code s) : ∃ t, execAuxRead r input code s = .next t ∧ SameProvision s t :=
  ⟨_, rfl, command_provision _ _ _ _ fun s => by dsimp only; (repeat' split) <;> simp⟩

theorem execGrdClearConfirm_provision (r mask challenge s) :
    ∃ t, execGrdClearConfirm r mask challenge s = .next t ∧ SameProvision s t :=
  ⟨_, rfl, command_provision _ _ _ _ fun s => by dsimp only; (repeat' split) <;> simp⟩

theorem execGrdTest_provision (r source declares s) : ∃ t, execGrdTest r source declares s = .next t ∧ SameProvision s t :=
  ⟨_, rfl, command_provision _ _ _ _ fun s => by dsimp only; (repeat' split) <;> simp⟩

theorem execPnlImageWrite_provision (r region offset data s) :
    ∃ t, execPnlImageWrite r region offset data s = .next t ∧ SameProvision s t :=
  ⟨_, rfl, command_provision _ _ _ _ fun s => by dsimp only; (repeat' split) <;> simp⟩

theorem execWbRead_provision (r number offset length s) :
    ∃ t, execWbRead r number offset length s = .next t ∧ SameProvision s t :=
  ⟨_, rfl, command_provision _ _ _ _ fun s => by (repeat' split) <;> simp⟩

theorem execCapRead_provision (r number offset length s) :
    ∃ t, execCapRead r number offset length s = .next t ∧ SameProvision s t :=
  ⟨_, rfl, command_provision _ _ _ _ fun s => by dsimp only; (repeat' split) <;> simp⟩

theorem execCapTrigger_provision (r s) : ∃ t, execCapTrigger r s = .next t ∧ SameProvision s t :=
  ⟨_, rfl, command_provision _ _ _ _ fun s => by dsimp only; (repeat' split) <;> simp⟩

theorem execCapRelease_provision (r number s) : ∃ t, execCapRelease r number s = .next t ∧ SameProvision s t :=
  ⟨_, rfl, command_provision _ _ _ _ fun s => by dsimp only; (repeat' split) <;> simp⟩

theorem execRead_provision (port bytes s) : ∃ t, execRead port bytes s = .next t ∧ SameProvision s t :=
  ⟨_, rfl, by (repeat' split) <;> simp⟩

theorem execStatus_provision (port s) : ∃ t, execStatus port s = .next t ∧ SameProvision s t :=
  ⟨_, rfl, by (repeat' split) <;> simp⟩

theorem execUartReplySent_provision (s) : ∃ t, execUartReplySent s = .next t ∧ SameProvision s t :=
  ⟨_, rfl, by (repeat' split) <;> simp⟩

theorem execPortTimeout_provision (port s) : ∃ t, execPortTimeout port s = .next t ∧ SameProvision s t :=
  ⟨_, rfl, by (repeat' split) <;> simp⟩

theorem execSpiPortReset_provision (port s) : ∃ t, execSpiPortReset port s = .next t ∧ SameProvision s t :=
  ⟨_, rfl, by (repeat' split) <;> simp⟩

theorem execFreerunEntry_provision (s) : ∃ t, execFreerunEntry s = .next t ∧ SameProvision s t :=
  ⟨_, rfl, by (repeat' split) <;> simp⟩

theorem execDriftCheckPhase_provision (group err s) : ∃ t, execDriftCheckPhase group err s = .next t ∧ SameProvision s t :=
  ⟨_, rfl, by (repeat' split) <;> simp⟩

theorem execChDriftChecked_provision (group s) : ∃ t, execChDriftChecked group s = .next t ∧ SameProvision s t :=
  ⟨_, rfl, by (repeat' split) <;> simp⟩

theorem execPulseLeadingEdge_provision (out s) : ∃ t, execPulseLeadingEdge out s = .next t ∧ SameProvision s t :=
  ⟨_, rfl, by (repeat' split) <;> simp⟩

theorem execEventLogWrite_provision (ecc s) : ∃ t, execEventLogWrite ecc s = .next t ∧ SameProvision s t :=
  ⟨_, rfl, by (repeat' split) <;> simp⟩

theorem execIntTimeout_provision (target s) : ∃ t, execIntTimeout target s = .next t ∧ SameProvision s t :=
  ⟨_, rfl, by (repeat' split) <;> simp⟩

theorem execFirstMeteredCycle_provision (s) : ∃ t, execFirstMeteredCycle s = .next t ∧ SameProvision s t :=
  ⟨_, rfl, by (repeat' split) <;> simp⟩

theorem execRailRead_provision (code s) : ∃ t, execRailRead code s = .next t ∧ SameProvision s t :=
  ⟨_, rfl, by (repeat' split) <;> simp⟩

theorem execIsolatedParityError_provision (slot s) : ∃ t, execIsolatedParityError slot s = .next t ∧ SameProvision s t := by
  refine ⟨_, rfl, ?_⟩
  dsimp only
  split
  · simp
  · split <;> simp

/-- A row leaves the ordering code as it is and forgets no LEGAL key (R2, R211): only parameter writes touch the latter. -/
theorem exec_provision (c : Instr) (s : State) : ∃ t, exec c s = .next t ∧ ProvisionKept s t := by
  have same : ∀ {o : Host.Outcome State Fault Refusal}, (∃ t, o = .next t ∧ SameProvision s t) →
      ∃ t, o = .next t ∧ ProvisionKept s t := fun ⟨t, ht, h⟩ => ⟨t, ht, h.kept⟩
  cases c with
  | paramWrite r addr ws =>
    exact ⟨_, rfl, command_kept _ _ _ _ fun x => .trans (fresh_provision x).kept (paramWrite_kept ..)⟩
  | forceSpare | restore | check | trimModWrite | trimVrefWrite | trimOscWrite | reload | rejoin
  | xreturn | eoi | intTargetDisable | arm | fdis | recover =>
    exact ⟨_, rfl, write_kept ..⟩
  | folioRead => exact same (execFolioRead_provision ..)
  | calPendingRead => exact same (execCalPendingRead_provision ..)
  | bankEnter => exact same (execBankEnter_provision ..)
  | auxRead => exact same (execAuxRead_provision ..)
  | grdClearConfirm => exact same (execGrdClearConfirm_provision ..)
  | grdTest => exact same (execGrdTest_provision ..)
  | pnlImageWrite => exact same (execPnlImageWrite_provision ..)
  | wbRead => exact same (execWbRead_provision ..)
  | capRead => exact same (execCapRead_provision ..)
  | capTrigger => exact same (execCapTrigger_provision ..)
  | capRelease => exact same (execCapRelease_provision ..)
  | read => exact same (execRead_provision ..)
  | status => exact same (execStatus_provision ..)
  | uartReplySent => exact same (execUartReplySent_provision ..)
  | portTimeout => exact same (execPortTimeout_provision ..)
  | spiPortReset => exact same (execSpiPortReset_provision ..)
  | freerunEntry => exact same (execFreerunEntry_provision ..)
  | driftCheckPhase => exact same (execDriftCheckPhase_provision ..)
  | chDriftChecked => exact same (execChDriftChecked_provision ..)
  | pulseLeadingEdge => exact same (execPulseLeadingEdge_provision ..)
  | eventLogWrite => exact same (execEventLogWrite_provision ..)
  | intTimeout => exact same (execIntTimeout_provision ..)
  | firstMeteredCycle => exact same (execFirstMeteredCycle_provision ..)
  | railRead => exact same (execRailRead_provision ..)
  | isolatedParityError => exact same (execIsolatedParityError_provision ..)
  | _ => exact same ⟨_, rfl, by simp⟩

/-- Settles O4: no row touches the queue, the ordering code or the end of the provisioning allowance. -/
theorem queueAndOrderingCodeKept : Obligations.QueueAndOrderingCodeKept := by
  intro c s t h
  obtain ⟨t₁, h₁, hp⟩ := exec_pending c s
  obtain ⟨t₂, h₂, hk⟩ := exec_provision c s
  cases h.symm.trans h₁
  cases h.symm.trans h₂
  exact ⟨hp, hk⟩

end Sys2Proof.Scope
end

section
/-!
SUPPORT. A word's address names the word (R395), and what a PARAM_WRITE that passes does (R225, R233).
-/
namespace Sys2Proof.Scope

open Sys2Proof.Machine Sys2Proof.Laws

/-! ### A word's address names the word (R395) -/

@[simp] theorem idx?_val {n : Nat} (i : Fin n) : idx? n i.val = some i := by simp [idx?]

@[simp] theorem chWord?_offset (w : ChWord) : chWord? w.offset = some w := by cases w <;> rfl
@[simp] theorem ptWord?_offset (w : PtWord) : ptWord? w.offset = some w := by cases w <;> rfl

theorem ChWord.offset_lt (w : ChWord) : w.offset < 0x100 := by cases w <;> decide
theorem PtWord.offset_lt (w : PtWord) : w.offset < 0x200 := by cases w <;> decide

/-- The number of a record and the offset in it, from an address within records of one size. -/
theorem record_div {size k off : Nat} (h : off < size) : (k * size + off) / size = k := by
  rw [Nat.mul_comm, Nat.mul_add_div (by omega), Nat.div_eq_of_lt h, Nat.add_zero]

theorem record_mod {size k off : Nat} (h : off < size) : (k * size + off) % size = off := by
  rw [Nat.mul_comm, Nat.mul_add_mod, Nat.mod_eq_of_lt h]

/-- The block and the offset in it, from an address of the map. -/
theorem block_divMod (b : Nat) {off : Nat} (h : off < 0x10000) :
    (b * 0x10000 + off) / 0x10000 = b ∧ (b * 0x10000 + off) % 0x10000 = off := ⟨record_div h, record_mod h⟩

theorem regOf_ch (k : Fin 136) (w : ChWord) : regOf (Reg.ch k w).addr = .ch k w := by
  have hw := ChWord.offset_lt w
  have hoff : k.val * 0x100 + w.offset < 0x10000 := by omega
  obtain ⟨hb, ho⟩ := block_divMod 1 hoff
  rw [Reg.addr, Nat.add_assoc]
  unfold regOf
  simp only [hb, ho, record_div hw, record_mod hw, idx?_val, chWord?_offset]
  rfl

theorem regOf_pt (p : Fin 128) (w : PtWord) : regOf (Reg.pt p w).addr = .pt p w := by
  have hw := PtWord.offset_lt w
  obtain ⟨hb, ho⟩ := block_divMod 3 (off := p.val * 0x200 + w.offset) (by omega)
  rw [Reg.addr, Nat.add_assoc]
  unfold regOf
  simp only [hb, ho, record_div hw, record_mod hw, idx?_val, ptWord?_offset]
  rfl

/-- A calibration word's offset in its copy names it (R124). -/
theorem calWord?_offset (x : CalWord) : calWord? x.offset = some x := by
  cases x with
  | ch k w =>
    cases w <;> unfold calWord? CalWord.offset <;> dsimp only <;>
      rw [if_pos (by omega), record_div (by decide), record_mod (by decide), idx?_val] <;> rfl
  | pt p w =>
    have hp : ∀ off, 0x2000 + p.val * 0x40 + off - 0x2000 = p.val * 0x40 + off := by omega
    cases w with
    | pgain | qgain | sgain =>
      unfold calWord? CalWord.offset
      dsimp only
      rw [if_neg (by omega), hp, record_div (by decide), record_mod (by decide), idx?_val]; rfl
    | pofs i | qofs i =>
      unfold calWord? CalWord.offset
      dsimp only
      rw [if_neg (by omega), hp, record_div (by omega), record_mod (by omega), idx?_val]
      fin_cases i <;> rfl

theorem CalWord.offset_lt (x : CalWord) : x.offset < 0x7000 := by
  cases x with
  | ch k w => cases w <;> simp only [CalWord.offset] <;> omega
  | pt p w => cases w <;> simp only [CalWord.offset] <;> omega

theorem regOf_staged (x : CalWord) : regOf (Reg.staged x).addr = .staged x := by
  have hx := CalWord.offset_lt x
  obtain ⟨hb, ho⟩ := block_divMod 13 (off := x.offset) (by omega)
  rw [Reg.addr]
  unfold regOf
  simp only [hb, ho, mcalBlock, if_pos hx, calWord?_offset]
  rfl

theorem regOf_live (x : CalWord) : regOf (Reg.live x).addr = .live x := by
  have hx := CalWord.offset_lt x
  obtain ⟨hb, ho⟩ := block_divMod 13 (off := 0x8000 + x.offset) (by omega)
  rw [Reg.addr, show 0xD8000 + x.offset = 13 * 0x10000 + (0x8000 + x.offset) by omega]
  unfold regOf
  simp only [hb, ho, mcalBlock, if_neg (show ¬ 0x8000 + x.offset < 0x7000 by omega),
    if_pos (Nat.le_add_right 0x8000 x.offset), Nat.add_sub_cancel_left, calWord?_offset]
  rfl

theorem regOf_intSrc (n : Fin 192) : regOf (Reg.intSrc n).addr = .intSrc n := by
  obtain ⟨hb, ho⟩ := block_divMod 8 (off := n.val * 4) (by omega)
  rw [Reg.addr]
  unfold regOf
  simp only [hb, ho, intBlock, if_pos (show n.val * 4 < 0x300 by omega), Nat.mul_div_cancel n.val (show 0 < 4 by decide),
    idx?_val]
  rfl

theorem regOf_trimMod (n : Fin 170) : regOf (Reg.trimMod n).addr = .trimMod n := by
  obtain ⟨hb, ho⟩ := block_divMod 14 (off := n.val * 4) (by omega)
  rw [Reg.addr]
  unfold regOf
  simp only [hb, ho, if_pos (show n.val * 4 < 0x2A8 by omega), Nat.mul_div_cancel n.val (show 0 < 4 by decide), idx?_val]
  rfl

theorem regOf_sesKey (e i : Fin 16) : regOf (Reg.sesKey e i).addr = .sesKey e i := by
  have hi : i.val * 4 < 0x50 := by omega
  obtain ⟨hb, ho⟩ := block_divMod 7 (off := 0x3100 + (e.val * 0x50 + i.val * 4)) (by omega)
  rw [Reg.addr, show 0x73100 + e.val * 0x50 + i.val * 4 = 7 * 0x10000 + (0x3100 + (e.val * 0x50 + i.val * 4)) by omega]
  unfold regOf
  simp only [hb, ho]
  unfold scribeBlock
  rw [if_neg (by omega), if_neg (by omega), if_neg (by omega), if_neg (by omega), if_neg (by omega), if_pos (by omega)]
  simp only [Nat.add_sub_cancel_left, record_div hi, record_mod hi, idx?_val, Nat.mul_div_cancel i.val (show 0 < 4 by decide),
    if_neg (show ¬ i.val * 4 = 0x40 by omega)]
  rfl

/-- Each word of the map stands at its own address (R395). -/
theorem regOf_addr (r : Reg) (h : r ≠ .reserved) : regOf r.addr = r := by
  cases r with
  | reserved => exact absurd rfl h
  | ch k w => exact regOf_ch k w
  | pt p w => exact regOf_pt p w
  | staged x => exact regOf_staged x
  | live x => exact regOf_live x
  | intSrc n => exact regOf_intSrc n
  | trimMod n => exact regOf_trimMod n
  | sesKey e i => exact regOf_sesKey e i
  | devSerial hi | tbCycle hi | lognum hi | tband hi | tblvalid hi => cases hi <;> rfl
  | bus b w => cases w <;> (revert b; decide)
  | alhit a hi => cases hi <;> (revert a; decide)
  | qdTopo i | qdBus i | spare i | driftTh i | capsel i | pulCfg i | pulConst i | pulTest i | pulStatus i | queCfg i
  | queStatus i | sesKeyCtl i | tgtTop i | tgtEoi i | tgtCfg i | tgtStatus i | watch i | loghead i | cokey i | auxUin i
  | auxRes i | blotBits i | almMatch0 i | almMatch1 i | almCtl i | almStat i | grdResp i | pnlReg i | digest i | jdigest i =>
    revert i; decide
  | _ => rfl

/-! ### Parameter writes that pass (R225, R233) -/

/-- A served PARAM_WRITE is the write itself, with what it senses drawn first (log 1). -/
theorem execParamWrite_served {r : Req} {s : State} (addr : Nat) (ws : List Word) (h : s.served 0x0202 r = true) :
    execParamWrite r addr ws s = .next (State.paramWrite r
      ⟨Config.freeNat s.draws % 2 = 1, Config.freeNat s.draws / 2 % 2 = 1, Config.freeNat s.draws / 4 % 2 = 1⟩ addr ws
      { s.woken 0x0202 with draws := s.draws + 1 }) := by
  rw [execParamWrite, command_served _ h]
  simp only [State.fresh, woken_draws]

theorem paramWrite_inr {r : Req} {env : Sensed} {addr : Nat} {ws : List Word} {s s1 : State}
    (h : s.tryWrite r env addr ws = .inr s1) :
    s.paramWrite r env addr ws = s1.ok 0x0202 r (le 6 s.nextBoundary ++ zeros 2) := by
  rw [State.paramWrite, h]

/-- One accepted word passes, and takes effect by its rule on the merged value. -/
theorem tryWrite_accepted {r : Req} {q : Reg} {w : Word} {s : State} (env : Sensed) (hq : q ≠ .reserved)
    (h : s.accepts r q w = true) :
    s.tryWrite r env q.addr [w] = .inr (s.applyWord r env q (q.merge (s.readLive q) w) w) := by
  simp only [State.accepts, Bool.and_eq_true, Option.isNone_iff_eq_none] at h
  obtain ⟨⟨hrange, hrole⟩, hrule⟩ := h
  have hl : addressed q.addr [w] = [(q.addr, w)] := rfl
  simp [State.tryWrite, State.writeWords, hl, hrange, hrole, hrule, regOf_addr q hq]

/-- Settles O28: a request that passes leaves what its words leave, and a word's address names its register. -/
theorem oneWordIsWritten : Obligations.OneWordIsWritten := by
  intro r s h
  refine ⟨fun addr ws s1 h1 => ?_, fun q w hq hw => ?_⟩
  · exact (execParamWrite_served addr ws h).trans (congrArg _ (paramWrite_inr h1))
  · exact (execParamWrite_served q.addr [w] h).trans (congrArg _ (paramWrite_inr (tryWrite_accepted _ hq hw)))

end Sys2Proof.Scope
end

section
/-!
SUPPORT. What a group of guard declarations leaves (R346 to R353, R358, R365).
-/
namespace Sys2Proof.Scope

open Sys2Proof.Machine Sys2Proof.Laws

/-! ### Which sources declare (R346, R348, R349) -/

/-- One bit of a mask of 16. -/
theorem getLsbD_two_pow (k i : Nat) (hi : i < 16) : (BitVec.ofNat 16 (2 ^ k)).getLsbD i = decide (k = i) := by
  rw [BitVec.getLsbD_ofNat, Nat.testBit_two_pow, decide_eq_true hi, Bool.true_and]

theorem foldl_covers_getLsbD (l : List (Fin 4 × Bool)) (m : BitVec 16) (i : Nat) (hi : i < 16) :
    (l.foldl (fun m c => m ||| BitVec.ofNat 16 (2 ^ (4 + c.1.val))) m).getLsbD i =
      (m.getLsbD i || l.any fun c => 4 + c.1.val = i) := by
  induction l generalizing m with
  | nil => simp
  | cons c l ih =>
    rw [List.foldl_cons, ih, BitVec.getLsbD_or, getLsbD_two_pow _ _ hi, List.any_cons, Bool.or_assoc]

/-- The covers' bits of a group are not those of the sources. -/
theorem getLsbD_notCovers (m : BitVec 16) (i : Fin 16) :
    (m &&& 0xFF0F).getLsbD i.val = (m.getLsbD i.val && decide (i.val < 4 ∨ 8 ≤ i.val)) := by
  have h : ∀ i : Fin 16, (0xFF0F : BitVec 16).getLsbD i.val = decide (i.val < 4 ∨ 8 ≤ i.val) := by decide
  rw [BitVec.getLsbD_and, h]

theorem declared_getLsbD (g : Guard) (m : BitVec 16) (covers : List (Fin 4 × Bool)) (i : Fin 16) :
    (g.declared m covers).getLsbD i.val = ((m.getLsbD i.val && decide (i.val < 4 ∨ 8 ≤ i.val)) ||
      (covers.filter fun c => g.coverOpen c.1 c.2).any fun c => 4 + c.1.val = i.val) := by
  rw [Guard.declared, foldl_covers_getLsbD _ _ _ i.isLt, getLsbD_notCovers]

theorem declared_other (g : Guard) (m : BitVec 16) (covers : List (Fin 4 × Bool)) (i : Fin 16)
    (hi : i.val < 4 ∨ 8 ≤ i.val) : (g.declared m covers).getLsbD i.val = m.getLsbD i.val := by
  have hc : ((covers.filter fun c => g.coverOpen c.1 c.2).any fun c => 4 + c.1.val = i.val) = false := by
    rw [List.any_eq_false]
    intro c _
    simp only [decide_eq_true_eq]
    omega
  rw [declared_getLsbD, hc, decide_eq_true hi, Bool.and_true, Bool.or_false]

theorem declared_cover (g : Guard) (m : BitVec 16) (covers : List (Fin 4 × Bool)) (k : Fin 4) :
    (g.declared m covers).getLsbD (4 + k.val) = true ↔ ∃ high, (k, high) ∈ covers ∧ high ≠ g.covpol.getLsbD k.val := by
  have hk : ¬ (4 + k.val < 4 ∨ 8 ≤ 4 + k.val) := by omega
  rw [declared_getLsbD g m covers ⟨4 + k.val, by omega⟩, decide_eq_false hk, Bool.and_false, Bool.false_or]
  simp only [List.any_eq_true, List.mem_filter, decide_eq_true_eq, Guard.coverOpen, bne_iff_ne]
  constructor
  · rintro ⟨⟨j, high⟩, ⟨hm, hne⟩, hj⟩
    obtain rfl : j = k := Fin.ext (Nat.add_left_cancel hj)
    exact ⟨high, hm, hne⟩
  · rintro ⟨high, hm, hne⟩
    exact ⟨(k, high), ⟨hm, hne⟩, rfl⟩

theorem mem_group (onCell : Bool) (m : BitVec 16) (s : State) (i : Fin 16) : i ∈ s.group onCell m ↔
    m.getLsbD i.val = true ∧ s.guard.watches onCell i = true ∧ (i = 8 → s.anv.magScans = 2) := by
  have h8 : i = 8 ↔ i.val = 8 := by omega
  simp only [State.group, allGuards, List.mem_filter, List.mem_finRange, true_and, Bool.and_eq_true, Bool.or_eq_true,
    decide_eq_true_eq, h8, and_assoc]
  tauto

/-! ### What a group of declarations leaves (R350 to R353) -/

theorem group_nodup (onCell : Bool) (m : BitVec 16) (s : State) : (s.group onCell m).Nodup :=
  (List.nodup_finRange 16).filter _

/-- The responses of a source to its declaration (R350, R351, R353). -/
theorem declare_eq (stop : Bool) (g : GrdSrc) : g.declare (!stop) = { g with
    fired := true, iso := g.iso || g.mask.getLsbD 2, count := min 0xFFFF (g.count + 1)
    again := if stop then none else some (g.again.getD g.fired) } := by cases stop <;> rfl

/-- Every source of a list without repetition declares once, the others stand. -/
theorem chain_declare_srcs (l : List (Fin 16)) (hl : l.Nodup) (s : State) (i : Fin 16) :
    (chain l (fun i s => s.onGuard i (GrdSrc.declare !s.flt.guardStop)) s).grd.srcs[i] =
      if i ∈ l then s.grd.srcs[i].declare (!s.flt.guardStop) else s.grd.srcs[i] := by
  induction l generalizing s with
  | nil => rfl
  | cons j l ih =>
    obtain ⟨hj, hl⟩ := List.nodup_cons.1 hl
    rw [show chain (j :: l) _ s = chain l _ (s.onGuard j (GrdSrc.declare !s.flt.guardStop)) from rfl, ih hl, onGuard_flt]
    by_cases h : i = j
    · subst h
      rw [if_neg hj, if_pos List.mem_cons_self]
      exact upd_same _ _ _
    · rw [show (s.onGuard j (GrdSrc.declare !s.flt.guardStop)).grd.srcs[i] = s.grd.srcs[i] from upd_other _ _ _ _ h]
      simp [h]

@[simp] theorem grdNotify_grd (i : Fin 16) (s : State) : (s.grdNotify i).grd = s.grd := by simp [State.grdNotify]

/-- QUENCH comes first in the responses of a group (R351, R352). -/
def quenchFirst (l : List (Fin 16)) (s : State) : State :=
  if l.any fun i => s.grd.srcs[i].mask.getLsbD 3 then { s with grd := s.grd.quench } else s

/-- What the cell list does not hold, a group of declarations leaves as QUENCH and the sources' own responses do. -/
theorem declareGroup_grd {β : Type} (f : Guard → β) (hf : ∀ i g, f (Guard.cellEntry i g) = f g)
    (onCell : Bool) (m : BitVec 16) (s : State) :
    f (s.declareGroup onCell m).grd =
      f (chain (s.group onCell m) (fun i s => s.onGuard i (GrdSrc.declare !s.flt.guardStop))
        (quenchFirst (s.group onCell m) s)).grd := by
  unfold State.declareGroup quenchFirst
  cases onCell
  · refine (chain_keeps (fun s => f s.grd) _ _ (fun i s => by simp) _).trans ?_
    cases s.flt.guardStop <;> rfl
  · refine (chain_keeps (fun s => f s.grd) _ _ (fun i s => hf i s.grd) _).trans ?_
    cases s.flt.guardStop <;> rfl

theorem quenchFirst_srcs (l : List (Fin 16)) (s : State) : (quenchFirst l s).grd.srcs = s.grd.srcs := by
  unfold quenchFirst; split <;> rfl

theorem quenchFirst_flt (l : List (Fin 16)) (s : State) : (quenchFirst l s).flt = s.flt := by
  unfold quenchFirst; split <;> rfl

theorem declareGroup_srcs (onCell : Bool) (m : BitVec 16) (s : State) (i : Fin 16) :
    (s.declareGroup onCell m).grd.srcs[i] =
      if i ∈ s.group onCell m then s.grd.srcs[i].declare (!s.flt.guardStop) else s.grd.srcs[i] := by
  have hc : ∀ i g, (Guard.cellEntry i g).srcs = g.srcs := fun i g => by unfold Guard.cellEntry; split <;> rfl
  rw [declareGroup_grd Guard.srcs hc, chain_declare_srcs _ (group_nodup onCell m s), quenchFirst_srcs, quenchFirst_flt]

/-- The key store and the marks of QUENCH. -/
def keyStore (g : Guard) : Option Nat × Bool × Bool := (g.kek, g.transport, g.quenched)

theorem declareGroup_keys (onCell : Bool) (m : BitVec 16) (s : State) :
    keyStore (s.declareGroup onCell m).grd = keyStore (quenchFirst (s.group onCell m) s).grd := by
  have hc : ∀ i g, keyStore (Guard.cellEntry i g) = keyStore g := fun i g => by unfold Guard.cellEntry; split <;> rfl
  rw [declareGroup_grd keyStore hc]
  exact chain_keeps (fun s => keyStore s.grd) (s.group onCell m) (fun i s => s.onGuard i (GrdSrc.declare !s.flt.guardStop))
    (fun _ _ => rfl) _

theorem keyStore_eq_iff (g g' : Guard) :
    keyStore g = keyStore g' ↔ g.kek = g'.kek ∧ g.transport = g'.transport ∧ g.quenched = g'.quenched := by
  simp [keyStore]

theorem declareGroup_quenches (onCell : Bool) (m : BitVec 16) (s : State)
    (h : ∃ i ∈ s.group onCell m, s.grd.srcs[i].mask.getLsbD 3 = true) :
    (s.declareGroup onCell m).grd.kek = none ∧ (s.declareGroup onCell m).grd.transport = false ∧
      (s.declareGroup onCell m).grd.quenched = true := by
  have hk := declareGroup_keys onCell m s
  rw [quenchFirst, if_pos (List.any_eq_true.2 h)] at hk
  exact (keyStore_eq_iff _ s.grd.quench).1 hk

theorem declareGroup_keepsKeys (onCell : Bool) (m : BitVec 16) (s : State)
    (h : ∀ i ∈ s.group onCell m, s.grd.srcs[i].mask.getLsbD 3 = false) :
    (s.declareGroup onCell m).grd.kek = s.grd.kek ∧ (s.declareGroup onCell m).grd.transport = s.grd.transport ∧
      (s.declareGroup onCell m).grd.quenched = s.grd.quenched := by
  have hk := declareGroup_keys onCell m s
  have hn : ¬ ((s.group onCell m).any fun i => s.grd.srcs[i].mask.getLsbD 3) = true := by
    simpa using h
  rw [quenchFirst, if_neg hn] at hk
  exact (keyStore_eq_iff _ _).1 hk

/-- On cell a group of declarations touches the guard and the commands that wait, and nothing else: no event is raised and
nothing is made pending (R358). -/
theorem declareGroup_cell {β : Type} (f : State → β)
    (hf : ∀ (s : State) (g : Guard) (x : Scribe), f { s with grd := g, scr := x } = f s)
    (m : BitVec 16) (s : State) : f (s.declareGroup true m) = f s := by
  have hq : f (quenchFirst (s.group true m) s) = f s := by
    unfold quenchFirst
    split
    · exact hf s _ s.scr
    · rfl
  have hd := chain_keeps f (s.group true m) (fun i s => s.onGuard i (GrdSrc.declare !s.flt.guardStop))
    (fun i s => hf s _ s.scr) (quenchFirst (s.group true m) s)
  unfold State.declareGroup
  refine (chain_keeps f _ _ (fun i s => hf s _ s.scr) _).trans (Eq.trans ?_ (hd.trans hq))
  split
  · exact hf _ (State.grd _) _
  · rfl

theorem declareGroup_tick (onCell : Bool) (m : BitVec 16) (s : State) : (s.declareGroup onCell m).grd.tick = s.grd.tick := by
  have hc : ∀ i g, (Guard.cellEntry i g).tick = g.tick := fun i g => by unfold Guard.cellEntry; split <;> rfl
  have hq : (quenchFirst (s.group onCell m) s).grd.tick = s.grd.tick := by unfold quenchFirst; split <;> rfl
  rw [declareGroup_grd Guard.tick hc, ← hq]
  exact chain_keeps (fun s => s.grd.tick) (s.group onCell m) (fun i s => s.onGuard i (GrdSrc.declare !s.flt.guardStop))
    (fun _ _ => rfl) _

theorem declareGroup_declared (onCell : Bool) (m : BitVec 16) (s : State) (i : Fin 16) :
    (s.declareGroup onCell m).grd.srcs[i] = if i ∈ s.group onCell m then
        { s.grd.srcs[i] with
          fired := true, iso := s.grd.srcs[i].iso || s.grd.srcs[i].mask.getLsbD 2
          count := min 0xFFFF (s.grd.srcs[i].count + 1)
          again := if s.flt.guardStop then none else some (s.grd.srcs[i].again.getD s.grd.srcs[i].fired) }
      else s.grd.srcs[i] := by
  rw [declareGroup_srcs, declare_eq]

/-! ### The rows that declare (R274, R277, R350, R358, R365) -/

theorem execGrdSource_powered {s : State} (m : BitVec 16) (cv : List (Fin 4 × Bool)) (h : s.powered = true) :
    execGrdSource m cv s = .next (s.declareGroup false (s.guard.declared m cv)) := by
  simp [execGrdSource, h]

theorem execGrdSource_beforeChangeover {s : State} (m : BitVec 16) (cv : List (Fin 4 × Bool)) (h : s.powered = false)
    (hv : s.vaon = true) (hb : s.pwr.vbatOn = false) :
    execGrdSource m cv s = .next (s.declareGroup true (s.guard.declared m cv)) := by
  simp [execGrdSource, h, hv, hb]

/-- The GUARD domain's tick on cell has counted on. -/
def tickOn (s : State) : State := { s with grd := { s.grd with tick := (s.grd.tick + 1) % 2 ^ 32 } }

theorem execCellScanPeriod_runs {s : State} (m : BitVec 16) (cv : List (Fin 4 × Bool)) (hb : s.pwr.vbatOn = true)
    (hg : s.flt.guardStop = false) :
    execCellScanPeriod m cv s = .next ((tickOn s).declareGroup true (s.guard.declared m cv)) := by
  simp [execCellScanPeriod, tickOn, hb, hg]

theorem execCellScanPeriod_stopped {s : State} (m : BitVec 16) (cv : List (Fin 4 × Bool)) (hg : s.flt.guardStop = true) :
    execCellScanPeriod m cv s = .next s := by
  simp [execCellScanPeriod, hg]

/-- The tick tells nothing about which sources declare. -/
theorem group_tickOn (onCell : Bool) (m : BitVec 16) (s : State) : (tickOn s).group onCell m = s.group onCell m := by
  have hg : (tickOn s).guard = { s.guard with tick := (tickOn s).grd.tick } := by
    by_cases h : s.dev.variant = .bgc <;> simp [State.guard, tickOn, h]
  simp only [State.group, hg]
  rfl

/-- Settles O24, from what a group of declarations does to its sources, to the key store and to the rest. -/
theorem guardDeclarationsComplete : Obligations.GuardDeclarationsComplete := by
  refine ⟨fun g m cv => ⟨declared_other g m cv, declared_cover g m cv⟩, mem_group, ?_, ?_, ?_, ?_, ?_⟩
  · intro m cv s h
    exact ⟨_, execGrdSource_powered m cv h, declareGroup_declared _ _ _, declareGroup_quenches _ _ _,
      declareGroup_keepsKeys _ _ _⟩
  · intro m cv s h hv hb
    exact ⟨_, execGrdSource_beforeChangeover m cv h hv hb, declareGroup_declared _ _ _,
      ⟨declareGroup_quenches _ _ _, declareGroup_keepsKeys _ _ _⟩,
      declareGroup_cell State.ev (fun _ _ _ => rfl) _ _, declareGroup_cell State.intc (fun _ _ _ => rfl) _ _⟩
  · intro m cv s hb hg
    have hev := declareGroup_cell State.ev (fun _ _ _ => rfl) (s.guard.declared m cv) (tickOn s)
    have hintc := declareGroup_cell State.intc (fun _ _ _ => rfl) (s.guard.declared m cv) (tickOn s)
    have htick := declareGroup_tick true (s.guard.declared m cv) (tickOn s)
    rw [← group_tickOn true (s.guard.declared m cv) s]
    exact ⟨_, execCellScanPeriod_runs m cv hb hg, htick, hev, hintc, declareGroup_declared _ _ (tickOn s),
      declareGroup_quenches _ _ (tickOn s), declareGroup_keepsKeys _ _ (tickOn s)⟩
  · intro m cv s hg
    exact execCellScanPeriod_stopped m cv hg
  · intro s h
    simp only [exec, execGrdClock, h]
    rfl

end Sys2Proof.Scope
end

section
/-!
SUPPORT. What the operations on channels and spares leave (R33 to R43), and the control bits of a channel (R41, R42).
-/
namespace Sys2Proof.Scope

open Sys2Proof.Machine Sys2Proof.Laws

/-! ### Places in a group (R33) -/

@[simp] theorem groupOf_groupChan (g : Fin 34) (i : Fin 4) : groupOf (groupChan g i) = g := by
  ext
  by_cases h : g.val < 32
  · have h1 : 4 * g.val + i.val < 128 := by omega
    simp only [groupChan, groupOf, h, h1, dite_true]
    omega
  · have h1 : ¬128 + 4 * (g.val - 32) + i.val < 128 := by omega
    simp only [groupChan, groupOf, h, h1, dite_false]
    omega

@[simp] theorem placeOf_groupChan (g : Fin 34) (i : Fin 4) : placeOf (groupChan g i) = i := by
  ext
  by_cases h : g.val < 32
  · simp only [groupChan, placeOf, h, dite_true]
    omega
  · simp only [groupChan, placeOf, h, dite_false]
    omega

@[simp] theorem groupChan_placeOf (k : Fin 136) : groupChan (groupOf k) (placeOf k) = k := by
  ext
  by_cases h : k.val < 128
  · have h1 : k.val / 4 < 32 := by omega
    simp only [groupChan, groupOf, placeOf, h, h1, dite_true]
    omega
  · have h1 : ¬32 + (k.val - 128) / 4 < 32 := by omega
    simp only [groupChan, groupOf, placeOf, h, h1, dite_false]
    omega

/-! ### One channel or spare changed -/

@[simp] theorem onChan_same (k : Fin 136) (f : Chan → Chan) (s : State) : (s.onChan k f).chans[k] = f s.chans[k] := upd_same _ _ _

theorem onChan_other {j k : Fin 136} (f : Chan → Chan) (s : State) (h : j ≠ k) : (s.onChan k f).chans[j] = s.chans[j] :=
  upd_other _ _ _ _ h

@[simp] theorem onSpare_same (g : Fin 34) (f : Spare → Spare) (s : State) : (s.onSpare g f).spares[g] = f s.spares[g] :=
  upd_same _ _ _

theorem ne_of_groupOf_ne {j k : Fin 136} {g : Fin 34} (hk : groupOf k = g) (hj : groupOf j ≠ g) : j ≠ k :=
  fun e => hj (e ▸ hk)

/-- Channels changed one after another, each by what the state says of it beside the channels. -/
theorem chain_onChan (f : State → Fin 136 → Chan → Chan) (hf : ∀ s k g, f (s.onChan k g) = f s) (l : List (Fin 136))
    (hl : l.Nodup) (s : State) (k : Fin 136) :
    (chain l (fun j s => s.onChan j (f s j)) s).chans[k] = if k ∈ l then f s k s.chans[k] else s.chans[k] := by
  induction l generalizing s with
  | nil => rfl
  | cons j l ih =>
    have hj := List.nodup_cons.1 hl
    refine (ih hj.2 (s.onChan j (f s j))).trans ?_
    rw [hf]
    by_cases e : k = j
    · subst e
      simp only [hj.1, if_false, onChan_same, List.mem_cons_self, if_true]
    · simp only [List.mem_cons, e, false_or, onChan_other _ _ e]

/-! ### Shading (R38) -/

/-- Shading leaves a channel as it is, or moves it within the states in service. -/
theorem shade_cases (t : Nat) (p : Spare) (k : Fin 136) (c : Chan) : c.shade t p k = c ∨
    c.inService = true ∧ ∃ st, c.shade t p k = c.become t st c.cause ∧ (c.become t st c.cause).inService = true := by
  have hst : ∀ st, (if c.st = st then c else c.become t st c.cause) = c ∨
      (if c.st = st then c else c.become t st c.cause) = c.become t st c.cause := fun st => by split <;> simp
  have hin : ∀ b : Bool, (c.become t (if b then .shadowed else .active) c.cause).inService = true := by
    intro b; cases b <;> rfl
  unfold Chan.shade
  cases hc : c.st with
  | active | shadowed =>
    refine (hc ▸ hst _).imp id fun h => ⟨by simp [Chan.inService, hc], _, h, hin _⟩
  | substituted | failed => exact .inl rfl

theorem shade_keeps {β : Type} (f : Chan → β) (hf : ∀ (c : Chan) t st, f (c.become t st c.cause) = f c) (t : Nat) (p : Spare)
    (k : Fin 136) (c : Chan) : f (c.shade t p k) = f c := by
  obtain h | ⟨-, st, h, -⟩ := shade_cases t p k c
  · rw [h]
  · rw [h, hf]

theorem shade_inService (t : Nat) (p : Spare) (k : Fin 136) (c : Chan) : (c.shade t p k).inService = c.inService := by
  obtain h | ⟨hc, st, h, hb⟩ := shade_cases t p k c
  · rw [h]
  · rw [h, hb, hc]

theorem shade_of_outOfService {c : Chan} (h : c.inService = false) (t : Nat) (p : Spare) (k : Fin 136) : c.shade t p k = c :=
  (shade_cases t p k c).resolve_right fun hs => by simp [h] at hs

theorem reshade_chans (g : Fin 34) (s : State) (k : Fin 136) :
    (s.reshade g).chans[k] = if groupOf k = g then s.chans[k].shade s.clock s.spares[g] k else s.chans[k] := by
  refine (chain_onChan (fun s k => Chan.shade s.clock s.spares[g] k) (fun _ _ _ => rfl) _ ?_ s k).trans ?_
  · exact (List.nodup_finRange 136).filter _
  · simp [groupChans]

theorem reshade_keeps {β : Type} (f : Chan → β) (hf : ∀ (c : Chan) t st, f (c.become t st c.cause) = f c) (g : Fin 34)
    (s : State) (k : Fin 136) : f (s.reshade g).chans[k] = f s.chans[k] := by
  rw [reshade_chans]
  split
  · exact shade_keeps f hf _ _ _ _
  · rfl

theorem reshade_other {g : Fin 34} {k : Fin 136} (s : State) (h : groupOf k ≠ g) : (s.reshade g).chans[k] = s.chans[k] := by
  rw [reshade_chans, if_neg h]

@[simp] theorem reshade_spares (g : Fin 34) (s : State) : (s.reshade g).spares = s.spares :=
  chain_keeps State.spares _ (fun k s => s.onChan k (Chan.shade s.clock s.spares[g] k)) (fun _ _ => rfl) s

/-! ### Checks and spares (R36, R40, R42) -/

@[simp] theorem connectSpare_same (g : Fin 34) (i : Fin 4) (s : State) :
    (s.connectSpare g i).spares[g] = s.spares[g].connect (orderOf s.live (groupChan g i)) i := onSpare_same _ _ _

@[simp] theorem connectSpare_chans (g : Fin 34) (i : Fin 4) (s : State) : (s.connectSpare g i).chans = s.chans := rfl

theorem checked_of_rotating {g : Fin 34} {s : State} (h : s.spares[g].st = .rotating) : s.checked g = none := by
  simp only [State.checked, h]

theorem checked_of_checking {g : Fin 34} {s : State} (h : s.spares[g].st = .checking) :
    s.checked g = some (groupChan g s.spares[g].pos) := by
  simp only [State.checked, h]

/-- The channel that a spare checks is of its group, and the spare stands on it. -/
theorem checking_of_checked {g : Fin 34} {x : Fin 136} {s : State} (h : s.checked g = some x) :
    s.spares[g].st = .checking ∧ groupChan g s.spares[g].pos = x := by
  unfold State.checked at h
  split at h
  · next hst => exact ⟨hst, Option.some.inj h⟩
  · cases h

theorem groupOf_checked {g : Fin 34} {x : Fin 136} {s : State} (h : s.checked g = some x) : groupOf x = g :=
  (checking_of_checked h).2 ▸ groupOf_groupChan _ _

theorem endCheck_of_checked {g : Fin 34} {x : Fin 136} {s : State} (h : s.checked g = some x) : s.endCheck g =
    ((s.onSpare g fun p => { p with st := .rotating, phase := 0 }).onChan x fun c =>
      { c with checking := false, injected := false }).reshade g := by
  simp only [State.endCheck, h]

theorem endCheck_pos (g : Fin 34) (s : State) : (s.endCheck g).spares[g].pos = s.spares[g].pos := by
  unfold State.endCheck
  split
  · rfl
  · simp only [reshade_spares, onChan_spares, onSpare_same]

theorem endCheck_other {g : Fin 34} {j : Fin 136} (s : State) (hj : groupOf j ≠ g) : (s.endCheck g).chans[j] = s.chans[j] := by
  unfold State.endCheck
  split
  · rfl
  · next x hx =>
    rw [reshade_other _ hj, onChan_other _ _ (ne_of_groupOf_ne (groupOf_checked hx) hj)]
    rfl

theorem abortCheck_pos (g : Fin 34) (s : State) : (s.abortCheck g).spares[g].pos = s.spares[g].pos := by
  unfold State.abortCheck
  split
  · rfl
  · simp only [reshade_spares, onChan_spares, onSpare_same]
    split
    · exact (congrArg Spare.pos (connectSpare_same _ _ _)).trans rfl
    · rfl

theorem abortCheck_other {g : Fin 34} {j : Fin 136} (s : State) (hj : groupOf j ≠ g) :
    (s.abortCheck g).chans[j] = s.chans[j] := by
  unfold State.abortCheck
  split
  · rfl
  · next x hx =>
    rw [reshade_other _ hj, onChan_other _ _ (ne_of_groupOf_ne (groupOf_checked hx) hj), onSpare_chans]
    split <;> rfl

/-- A drift check has started on a channel of the group: the spare leaves it for the injection. -/
theorem startCheck_spare (g : Fin 34) (k : Fin 136) (s : State) :
    (s.startCheck g k).spares[g].st = .checking ∧ (s.startCheck g k).spares[g].phase = 1 := by
  simp only [State.startCheck, onChan_spares, reshade_spares, onSpare_same, and_self]

theorem startCheck_chan (g : Fin 34) (k : Fin 136) (s : State) :
    (s.startCheck g k).chans[k].checking = true ∧ (s.startCheck g k).chans[k].drift = true := by
  simp only [State.startCheck, onChan_same, and_self]

theorem startCheck_other {j k : Fin 136} (s : State) (hj : groupOf j ≠ groupOf k) :
    (s.startCheck (groupOf k) k).chans[j] = s.chans[j] := by
  unfold State.startCheck
  rw [onChan_other _ _ (ne_of_groupOf_ne rfl hj), reshade_other _ hj]
  rfl

/-! ### The spare taken for a channel (R36, R42) -/

/-- The check of a channel's group is over or broken off, before the spare is taken for the channel. -/
def checkEnded (k : Fin 136) (s : State) : State :=
  match s.checked (groupOf k) with
  | some x =>
    if x = k && s.chans[k].injected then s.endCheck (groupOf k)
    else if x = k then s.abortCheck (groupOf k) else (s.abortCheck (groupOf k)).queueCheck (groupOf k) x
  | none => s

/-- The spare of a channel's group takes its place: it moves there unless it stands there already. -/
def spareTaken (here : Bool) (k : Fin 136) (s : State) : State :=
  ((if here then s else s.connectSpare (groupOf k) (placeOf k)).onSpare (groupOf k) fun p =>
    { p with st := .substituting, phase := 0, queue := p.queue.filter (· ≠ k.val) }).reshade (groupOf k)

/-- The spare stands on the channel, and not on the injection. -/
def spareHere (p : Spare) (k : Fin 136) : Bool := !p.parked && decide (p.pos = placeOf k) && decide (p.phase ≠ 1)

theorem takeSpare_eq (k : Fin 136) (s : State) :
    s.takeSpare k = spareTaken (spareHere s.spares[groupOf k] k) k (checkEnded k s) := rfl

theorem checkEnded_of_rotating {k : Fin 136} {s : State} (h : s.spares[groupOf k].st = .rotating) : checkEnded k s = s := by
  simp only [checkEnded, checked_of_rotating h]

theorem checkEnded_pos (k : Fin 136) (s : State) :
    (checkEnded k s).spares[groupOf k].pos = s.spares[groupOf k].pos := by
  unfold checkEnded
  split
  · split
    · exact endCheck_pos _ _
    · split
      · exact abortCheck_pos _ _
      · exact (congrArg Spare.pos (onSpare_same _ _ _)).trans (abortCheck_pos _ _)
  · rfl

theorem checkEnded_other {j k : Fin 136} (s : State) (hj : groupOf j ≠ groupOf k) :
    (checkEnded k s).chans[j] = s.chans[j] := by
  unfold checkEnded
  split
  · split
    · exact endCheck_other _ hj
    · split
      · exact abortCheck_other _ hj
      · exact abortCheck_other _ hj
  · rfl

theorem spareTaken_other (here : Bool) {j k : Fin 136} (s : State) (hj : groupOf j ≠ groupOf k) :
    (spareTaken here k s).chans[j] = s.chans[j] := by
  rw [spareTaken, reshade_other _ hj]
  cases here <;> rfl

theorem spareTaken_keeps {β : Type} (f : Chan → β) (hf : ∀ (c : Chan) t st, f (c.become t st c.cause) = f c) (here : Bool)
    (k j : Fin 136) (s : State) : f (spareTaken here k s).chans[j] = f s.chans[j] := by
  rw [spareTaken, reshade_keeps f hf]
  cases here <;> rfl

/-- A spare that is taken serves the place of its channel. -/
theorem takeSpare_spare (k : Fin 136) (s : State) :
    (s.takeSpare k).spares[groupOf k].st = .substituting ∧ (s.takeSpare k).spares[groupOf k].pos = placeOf k := by
  rw [takeSpare_eq]
  cases h : spareHere s.spares[groupOf k] k
  · simp only [spareTaken, Bool.false_eq_true, if_false, reshade_spares, onSpare_same, connectSpare_same, Spare.connect, and_self]
  · simp only [spareHere, Bool.and_eq_true, decide_eq_true_eq] at h
    simp only [spareTaken, if_true, reshade_spares, onSpare_same, true_and, checkEnded_pos]
    exact h.1.2

theorem takeSpare_other {j k : Fin 136} (s : State) (hj : groupOf j ≠ groupOf k) :
    (s.takeSpare k).chans[j] = s.chans[j] := by
  rw [takeSpare_eq, spareTaken_other _ _ hj, checkEnded_other s hj]

/-- A substitution changes its channel alone. -/
theorem substituted_chan (k : Fin 136) (cause ticks from_ : Nat) (s : State) :
    (s.substituted k cause ticks from_).chans[k] =
      { s.chans[k].become from_ .substituted s.chans[k].cause with splicing := false, checking := false, injected := false } := by
  simp only [State.substituted, note_chans, onChan_same]

theorem substituted_other {j k : Fin 136} (cause ticks from_ : Nat) (s : State) (h : j ≠ k) :
    (s.substituted k cause ticks from_).chans[j] = s.chans[j] := by
  simp only [State.substituted, note_chans, onChan_other _ _ h]

@[simp] theorem substituted_spares (k : Fin 136) (cause ticks from_ : Nat) (s : State) :
    (s.substituted k cause ticks from_).spares = s.spares := by
  simp only [State.substituted, note_spares, onChan_spares]

theorem substituted_blotted (k : Fin 136) (cause ticks from_ : Nat) (s : State) :
    Blotted (blotBit .afeSubst) (s.substituted k cause ticks from_) := note_self _ _ _ _ _

/-! ### FORCE_SPARE, RESTORE and CHECK -/

theorem forceSpare_acts {k : Fin 136} {s : State} (hc : s.chans[k].inService = true) (hs : s.chans[k].splicing = false)
    (hf : s.spareFree (groupOf k) = true) : s.forceSpare k = (s.takeSpare k).substituted k 0 0 s.clock := by
  rw [State.forceSpare, hc, hs, hf]
  rfl

theorem forceSpare_other {j k : Fin 136} (s : State) (hj : groupOf j ≠ groupOf k) :
    (s.forceSpare k).chans[j] = s.chans[j] := by
  unfold State.forceSpare
  split
  · rw [substituted_other _ _ _ _ (ne_of_groupOf_ne rfl hj), takeSpare_other s hj]
  · rfl

theorem check_other {j k : Fin 136} (s : State) (hj : groupOf j ≠ groupOf k) : (s.check k).chans[j] = s.chans[j] := by
  unfold State.check
  dsimp only
  split
  · split <;> rfl
  · exact startCheck_other s hj

/-- Settles O58, from what taking the spare and starting a check leave. -/
theorem channelControlsAct : Obligations.ChannelControlsAct := by
  intro k s
  refine ⟨fun hc hs hf => ?_, fun h => ?_, rfl, fun h => ?_, fun x hx hne => ?_, fun j hj => ?_⟩
  · rw [forceSpare_acts hc hs hf, substituted_spares]
    obtain ⟨hst, hpos⟩ := takeSpare_spare k s
    exact ⟨by rw [substituted_chan]; rfl, hst, hpos, substituted_blotted _ _ _ _ _⟩
  · rw [State.forceSpare, h]
    rfl
  · have hs : s.check k = s.startCheck (groupOf k) k := by simp only [State.check, checked_of_rotating h]
    rw [hs]
    obtain ⟨hst, hphase⟩ := startCheck_spare (groupOf k) k s
    exact ⟨hst, hphase, (startCheck_chan _ _ _).1⟩
  · have hs : s.check k = s.queueCheck (groupOf k) k := by simp only [State.check, hx, hne, if_false]
    rw [hs]
    exact ⟨congrArg Spare.queue (onSpare_same _ _ _), rfl⟩
  · exact ⟨forceSpare_other s hj, onChan_other _ _ (ne_of_groupOf_ne rfl hj), check_other s hj⟩

end Sys2Proof.Scope
end

section
/-!
SUPPORT. What the modulator and spare rows do (R25, R34 to R42, R57).
-/
namespace Sys2Proof.Scope

open Sys2Proof.Machine Sys2Proof.Laws

/-! ### Trims and moves of a spare (R34, R136) -/

@[simp] theorem trimNote_chans (addr : Nat) (old new : Word) (s : State) : (s.trimNote addr old new).chans = s.chans := by
  unfold State.trimNote; split
  · rfl
  · exact note_chans _ _ _ _ _

@[simp] theorem trimNote_spares (addr : Nat) (old new : Word) (s : State) : (s.trimNote addr old new).spares = s.spares := by
  unfold State.trimNote; split
  · rfl
  · exact note_spares _ _ _ _ _

@[simp] theorem spareTrim_chans (g : Fin 34) (s : State) : (s.spareTrim g).chans = s.chans := by
  unfold State.spareTrim; split
  · rfl
  · simp only [State.setModTrim, trimNote_chans, onSpare_chans]

/-- Once its trim has taken effect a spare has none waiting, and is else as it was (R136). -/
@[simp] theorem spareTrim_same (g : Fin 34) (s : State) : (s.spareTrim g).spares[g] = { s.spares[g] with trimDue := none } := by
  unfold State.spareTrim; split
  · next h => rw [← h]
  · simp only [State.setModTrim, trimNote_spares, onSpare_same]

theorem nextEnabled_congr {s t : State} (h : t.eff = s.eff) (g : Fin 34) (i : Fin 4) : t.nextEnabled g i = s.nextEnabled g i := by
  have hl : t.live = s.live := funext fun r => congrArg (Regs.at · r.addr) h
  rw [State.nextEnabled, State.nextEnabled, hl]

theorem advanceSpare_of_next {g : Fin 34} {i : Fin 4} {s : State} (h : s.nextEnabled g s.spares[g].pos = some i) :
    s.advanceSpare g = (s.connectSpare g i).reshade g := by
  simp only [State.advanceSpare, h]

/-- A spare that goes on stays in the work it does. -/
theorem advanceSpare_spare (g : Fin 34) (s : State) :
    (s.advanceSpare g).spares[g].st = s.spares[g].st ∧ (s.advanceSpare g).spares[g].phase = s.spares[g].phase := by
  unfold State.advanceSpare
  rw [reshade_spares]
  split
  · rw [connectSpare_same]; exact ⟨rfl, rfl⟩
  · rw [onSpare_same]; exact ⟨rfl, rfl⟩

theorem advanceSpare_keeps {β : Type} (f : Chan → β) (hf : ∀ (c : Chan) t st, f (c.become t st c.cause) = f c) (g : Fin 34)
    (s : State) (k : Fin 136) : f (s.advanceSpare g).chans[k] = f s.chans[k] := by
  unfold State.advanceSpare
  rw [reshade_keeps f hf]
  split <;> rfl

/-- Where nothing is queued, the spare's group has no further check. -/
theorem nextCheck_of_noQueue {g : Fin 34} {s : State} (h : s.spares[g].queue = []) :
    (s.nextCheck g).chans = s.chans ∧ (s.nextCheck g).spares[g].st = s.spares[g].st := by
  unfold State.nextCheck
  split
  · simp only [h, List.filterMap_nil, List.find?_nil, onSpare_same, onSpare_chans, and_self]
  · exact ⟨rfl, rfl⟩

@[simp] theorem reshade_anv (g : Fin 34) (s : State) : (s.reshade g).anv = s.anv :=
  chain_keeps State.anv _ (fun k s => s.onChan k (Chan.shade s.clock s.spares[g] k)) (fun _ _ => rfl) s

theorem startCheck_blotted {m : BitVec 128} (g : Fin 34) (k : Fin 136) {s : State} (h : Blotted m s) :
    Blotted m (s.startCheck g k) := by
  simpa [Blotted, State.startCheck] using h

/-! ### MODULATOR_HARD_FAULT and CH_SUBSTITUTED (R35, R36) -/

theorem modFault_working (k : Fin 136) (h : k.val < 170) (cause : Nat) (s : State) :
    s.modFault ⟨k.val, h⟩ cause = s.workingFault k cause := dif_pos k.isLt

/-- A working modulator in service that fails is spliced onto its free spare. -/
theorem workingFault_splices {k : Fin 136} {s : State} (cause : Nat) (hi : s.chans[k].inService = true)
    (hs : s.chans[k].splicing = false) (hr : s.chans[k].restoring = false) (hj : s.chans[k].injected = false)
    (hf : s.spareFree (groupOf k) = true) : s.workingFault k cause =
      (((s.onChan k fun c => c.become s.clock c.st cause).takeSpare k).onChan k fun c =>
        { (c.openGap .splice (s.clock - detectionTime) none) with
          splicing := true, line := openFrames detectionFrames c.line }) := by
  simp only [State.workingFault, hi, hs, hr, hj, hf, Bool.not_true, Bool.or_false, Bool.false_eq_true, if_false]

theorem spareFree_of_rotating {g : Fin 34} {s : State} (h : s.spares[g].st = .rotating) : s.spareFree g = true := by
  simp only [State.spareFree, h]

/-- Taking a rotating spare leaves the CAUSE of the channels. -/
theorem takeSpare_cause {k : Fin 136} {s : State} (h : s.spares[groupOf k].st = .rotating) (j : Fin 136) :
    (s.takeSpare k).chans[j].cause = s.chans[j].cause := by
  rw [takeSpare_eq, spareTaken_keeps Chan.cause (fun _ _ _ => rfl), checkEnded_of_rotating h]

theorem hardFault_splices {k : Fin 136} {s : State} (cause : HardCause) (hp : s.powered = true)
    (hi : s.chans[k].inService = true) (hs : s.chans[k].splicing = false) (hr : s.chans[k].restoring = false)
    (hj : s.chans[k].injected = false) (hst : s.spares[groupOf k].st = .rotating) :
    ∃ t, exec (.modulatorHardFault ⟨k.val, by omega⟩ cause) s = .next t ∧
      t.chans[k].splicing = true ∧ t.chans[k].cause = causeCode cause ∧ t.spares[groupOf k].st = .substituting ∧
      t.spares[groupOf k].pos = placeOf k := by
  have hx : exec (.modulatorHardFault ⟨k.val, by omega⟩ cause) s = .next (s.workingFault k (causeCode cause)) := by
    simp only [exec, execModulatorHardFault, hp, if_true, modFault_working]
  rw [workingFault_splices _ hi hs hr hj (spareFree_of_rotating hst)] at hx
  obtain ⟨h1, h2⟩ := takeSpare_spare k (s.onChan k fun c => c.become s.clock c.st (causeCode cause))
  have h3 := takeSpare_cause (s := s.onChan k fun c => c.become s.clock c.st (causeCode cause)) hst k
  rw [onChan_same] at h3
  exact ⟨_, hx, congrArg Chan.splicing (onChan_same _ _ _), (congrArg Chan.cause (onChan_same _ _ _)).trans h3, h1, h2⟩

theorem execChSubstituted_ready {k : Fin 136} {s : State} (h : s.spliceReady k = true) (hc : s.flt.combStop = false) :
    exec (.chSubstituted k) s = .next (s.splice k) := by
  simp only [exec, execChSubstituted, h, hc, Bool.not_false, Bool.and_self, if_true]

theorem splice_chan (k : Fin 136) (s : State) :
    (s.splice k).chans[k].st = .substituted ∧ (s.splice k).chans[k].splicing = false := by
  rw [State.splice, substituted_chan]
  exact ⟨rfl, rfl⟩

theorem splice_other {j k : Fin 136} (s : State) (h : j ≠ k) : (s.splice k).chans[j] = s.chans[j] := by
  rw [State.splice, substituted_other _ _ _ _ h, onChan_other _ _ h]

/-! ### SPARE_MOVE (R34, R39) -/

theorem spareMove_goesOn {g : Fin 34} {s : State} (err : BitVec 16) (hp : s.powered = true) (hst : s.spares[g].st = .rotating)
    (hk : s.spares[g].parked = false) (hd : s.drifted g s.spares[g].dwell.sums = false) :
    exec (.spareMove g err) s = .next ((s.spareTrim g).advanceSpare g) := by
  simp only [exec, execSpareMove, State.spareMove, hp, hst, hk, hd, Bool.false_eq_true, if_true, if_false]

theorem spareMove_drifts {g : Fin 34} {s : State} (err : BitVec 16) (hp : s.powered = true) (hst : s.spares[g].st = .rotating)
    (hk : s.spares[g].parked = false) (hd : s.drifted g s.spares[g].dwell.sums = true) :
    exec (.spareMove g err) s = .next
      ((s.chDrift (groupChan g s.spares[g].pos) s.spares[g].dwell.sums).startCheck g (groupChan g s.spares[g].pos)) := by
  simp only [exec, execSpareMove, State.spareMove, hp, hst, hk, hd, Bool.false_eq_true, if_true, if_false]

theorem spareMove_moves {g : Fin 34} {i : Fin 4} {s : State} (err : BitVec 16) (hp : s.powered = true)
    (hst : s.spares[g].st = .rotating) (hk : s.spares[g].parked = false)
    (hd : s.drifted g s.spares[g].dwell.sums = false) (hn : s.nextEnabled g s.spares[g].pos = some i) :
    ∃ t, exec (.spareMove g err) s = .next t ∧ t.spares[g].pos = i ∧ t.spares[g].st = .rotating ∧
      t.spares[g].trimDue = none := by
  have hnext : (s.spareTrim g).nextEnabled g (s.spareTrim g).spares[g].pos = some i := by
    rw [spareTrim_same, nextEnabled_congr (spareTrim_eff _ _)]
    exact hn
  refine ⟨_, spareMove_goesOn err hp hst hk hd, ?_⟩
  rw [advanceSpare_of_next hnext, reshade_spares, connectSpare_same, spareTrim_same]
  exact ⟨rfl, hst, rfl⟩

/-! ### Drift checks (R40) -/

theorem driftCheckPhase_one {g : Fin 34} {s : State} (err : BitVec 16) (hst : s.spares[g].st = .checking)
    (hp : s.spares[g].phase = 1) : exec (.driftCheckPhase g err) s = .next
      ((s.connectSpare g s.spares[g].pos).onSpare g fun p => { p with serr := err, phase := 2 }) := by
  simp only [exec, execDriftCheckPhase, checked_of_checking hst, hp]

theorem driftCheckPhase_two {g : Fin 34} {s : State} (err : BitVec 16) (hst : s.spares[g].st = .checking)
    (hp : s.spares[g].phase = 2) : exec (.driftCheckPhase g err) s = .next
      ((s.onSpare g fun p => { p with phase := 3 }).onChan (groupChan g s.spares[g].pos) fun c => { c with injected := true }) := by
  simp only [exec, execDriftCheckPhase, checked_of_checking hst, hp]

theorem driftCheckPhase_three {g : Fin 34} {s : State} (err : BitVec 16) (hst : s.spares[g].st = .checking)
    (hp : s.spares[g].phase = 3) : exec (.driftCheckPhase g err) s = .next
      ((s.onSpare g fun p => { p with phase := 4 }).onChan (groupChan g s.spares[g].pos) fun c =>
        { c with werr := err, wfail := s.beyond g err, wvalid := true }) := by
  simp only [exec, execDriftCheckPhase, checked_of_checking hst, hp]

/-- The check of a group whose spare has nothing queued ends with the spare going on. -/
theorem chDriftChecked_goesOn {g : Fin 34} {s : State} (hst : s.spares[g].st = .checking) (hp : s.spares[g].phase = 4)
    (hq : s.spares[g].queue = []) : ∃ d, exec (.chDriftChecked g) s = .next
      ((((s.endCheck g).raise .chDriftChecked (.channel (groupChan g s.spares[g].pos)) d).spareTrim g).advanceSpare g) := by
  have hc := checked_of_checking hst
  have hq' : (s.endCheck g).spares[g].queue = [] := by
    rw [endCheck_of_checked hc, reshade_spares, onChan_spares, onSpare_same]
    exact hq
  refine ⟨le 4 (s.endCheck g).chans[groupChan g s.spares[g].pos].driftWord.toNat ++ le 4 (s.endCheck g).spares[g].word.toNat, ?_⟩
  simp only [exec, execChDriftChecked, hc, hp, ne_eq, not_true_eq_false, if_false, raise_spares, hq', List.isEmpty_nil, if_true]

theorem chDriftChecked_ends {g : Fin 34} {s : State} (hst : s.spares[g].st = .checking) (hp : s.spares[g].phase = 4)
    (hq : s.spares[g].queue = []) : ∃ t, exec (.chDriftChecked g) s = .next t ∧ t.spares[g].st = .rotating ∧
      t.spares[g].phase = 0 ∧ t.chans[groupChan g s.spares[g].pos].checking = false ∧
      t.chans[groupChan g s.spares[g].pos].injected = false := by
  obtain ⟨d, hx⟩ := chDriftChecked_goesOn hst hp hq
  refine ⟨_, hx, ?_⟩
  rw [(advanceSpare_spare _ _).1, (advanceSpare_spare _ _).2, advanceSpare_keeps Chan.checking (fun _ _ _ => rfl),
    advanceSpare_keeps Chan.injected (fun _ _ _ => rfl), spareTrim_same, spareTrim_chans, raise_spares, raise_chans,
    endCheck_of_checked (checked_of_checking hst), reshade_spares, reshade_keeps Chan.checking (fun _ _ _ => rfl),
    reshade_keeps Chan.injected (fun _ _ _ => rfl), onChan_same, onChan_spares, onSpare_same]
  exact ⟨rfl, rfl, rfl, rfl⟩

/-! ### CH_RESTORED (R41) -/

/-- A RESTORE that fails leaves the channel, but for RESTORING, as it is. -/
theorem restoreFailed_chan (k : Fin 136) (s : State) :
    (s.restoreFailed k).chans[k] = { s.chans[k] with restoring := false } := by
  simp only [State.restoreFailed, raise_chans, onChan_same]

@[simp] theorem restoreFailed_spares (k : Fin 136) (s : State) : (s.restoreFailed k).spares = s.spares := by
  simp only [State.restoreFailed, raise_spares, onChan_spares]

/-- What the injection of a RESTORE measured is kept. -/
def measured (k : Fin 136) (err : BitVec 16) (s : State) : State :=
  s.onChan k fun c => { c with werr := err, wfail := s.beyond (groupOf k) err, wvalid := true }

/-- A substituted channel is back in service, and its spare free. -/
def backInService (k : Fin 136) (s : State) : State :=
  ((s.onChan k fun c => { (c.become s.clock .active c.cause) with restoring := false }).onSpare (groupOf k) fun p =>
    { p with st := .rotating }).reshade (groupOf k)

theorem chRestored_fails {k : Fin 136} {err : BitVec 16} {s : State} (hr : s.chans[k].restoring = true)
    (hb : s.beyond (groupOf k) err = true) :
    exec (.chRestored k err none) s = .next ((measured k err s).restoreFailed k) := by
  simp only [exec, execChRestored, State.restoreEnd, hr, hb, measured, Bool.not_true, Bool.false_eq_true, if_false, if_true]

theorem chRestored_detected {k : Fin 136} {s : State} (err : BitVec 16) (d : HardCause) (hr : s.chans[k].restoring = true) :
    exec (.chRestored k err (some d)) s =
      .next ((s.onChan k fun c => c.become s.clock c.st (causeCode d)).restoreFailed k) := by
  simp only [exec, execChRestored, State.restoreEnd, hr, Bool.not_true, Bool.false_eq_true, if_false]

theorem chRestored_restores {k : Fin 136} {err : BitVec 16} {s : State} (hr : s.chans[k].restoring = true)
    (hst : s.chans[k].st = .substituted) (hb : s.beyond (groupOf k) err = false) :
    exec (.chRestored k err none) s = .next
      (((backInService k (measured k err s)).raise .chRestored (.channel k) []).nextCheck (groupOf k)) := by
  simp only [exec, execChRestored, State.restoreEnd, hr, hst, hb, Bool.not_true, Bool.false_eq_true, if_false, Bool.or_false]
  simp only [measured, hb]
  rfl

theorem backInService_chan (k : Fin 136) (s : State) :
    (backInService k s).chans[k].inService = true ∧ (backInService k s).chans[k].restoring = false ∧
      (backInService k s).chans[k].werr = s.chans[k].werr := by
  rw [backInService, reshade_keeps Chan.restoring (fun _ _ _ => rfl), reshade_keeps Chan.werr (fun _ _ _ => rfl), reshade_chans,
    if_pos rfl, shade_inService, onSpare_chans, onChan_same]
  exact ⟨rfl, rfl, rfl⟩

theorem backInService_spare (k : Fin 136) (s : State) :
    (backInService k s).spares[groupOf k] = { s.spares[groupOf k] with st := .rotating } := by
  rw [backInService, reshade_spares, onSpare_same, onChan_spares]

theorem chRestored_ends {k : Fin 136} {s : State} (err : BitVec 16) (hr : s.chans[k].restoring = true)
    (hst : s.chans[k].st = .substituted) (hq : s.spares[groupOf k].queue = []) :
    ∃ t, exec (.chRestored k err none) s = .next t ∧ t.chans[k].restoring = false ∧ t.chans[k].werr = err ∧
      (s.beyond (groupOf k) err = false → t.chans[k].inService = true ∧ t.spares[groupOf k].st = .rotating) ∧
      (s.beyond (groupOf k) err = true →
        t.chans[k].st = .substituted ∧ t.spares[groupOf k].st = s.spares[groupOf k].st) := by
  have hm : (measured k err s).chans[k].werr = err := congrArg Chan.werr (onChan_same _ _ _)
  have hms : (measured k err s).chans[k].st = .substituted := (congrArg Chan.st (onChan_same _ _ _)).trans hst
  cases hb : s.beyond (groupOf k) err with
  | true =>
    refine ⟨_, chRestored_fails hr hb, ?_⟩
    rw [restoreFailed_chan, restoreFailed_spares]
    exact ⟨rfl, hm, nofun, fun _ => ⟨hms, rfl⟩⟩
  | false =>
    obtain ⟨h1, h2, h3⟩ := backInService_chan k (measured k err s)
    have hspare := backInService_spare k (measured k err s)
    obtain ⟨hc, hs⟩ := nextCheck_of_noQueue (g := groupOf k)
      (s := (backInService k (measured k err s)).raise .chRestored (.channel k) [])
      (by rw [raise_spares, hspare]; exact hq)
    refine ⟨_, chRestored_restores hr hst hb, ?_⟩
    rw [hc, hs, raise_chans, raise_spares, hspare]
    exact ⟨h2, h3.trans hm, fun _ => ⟨h1, rfl⟩, nofun⟩

/-! ### The rows -/

/-- Settles O37, clause by clause from what each row's operation leaves. -/
theorem modulatorRowsComplete : Obligations.ModulatorRowsComplete := by
  refine ⟨?_, ?_, ?_, ?_, ?_, ?_, ?_, ?_, fun k s => ?_⟩
  · intro k cause s hp hi hs hr hj hst
    exact hardFault_splices cause hp hi hs hr hj hst
  · intro k s h hc
    obtain ⟨h1, h2⟩ := splice_chan k s
    exact ⟨_, execChSubstituted_ready h hc, h1, h2, substituted_blotted _ _ _ _ _, fun j hj => splice_other s hj⟩
  · intro g err s hp hst hk
    refine ⟨fun i hd hn => spareMove_moves err hp hst hk hd hn, fun hd => ⟨_, spareMove_drifts err hp hst hk hd, ?_⟩⟩
    obtain ⟨h1, h2⟩ := startCheck_spare g (groupChan g s.spares[g].pos)
      (s.chDrift (groupChan g s.spares[g].pos) s.spares[g].dwell.sums)
    exact ⟨h1, h2, (startCheck_chan _ _ _).2, startCheck_blotted _ _ (note_self _ _ _ _ _)⟩
  · intro g err s hst
    refine ⟨driftCheckPhase_one err hst, fun hp => ⟨_, driftCheckPhase_two err hst hp, ?_⟩,
      fun hp => ⟨_, driftCheckPhase_three err hst hp, ?_⟩, chDriftChecked_ends hst⟩
    · rw [onChan_spares, onSpare_same, onChan_same]
      exact ⟨rfl, rfl⟩
    · rw [onChan_spares, onSpare_same, onChan_same]
      exact ⟨rfl, rfl, rfl, rfl⟩
  · intro k err s hr hst hq
    exact chRestored_ends err hr hst hq
  · intro k err d s hr
    refine ⟨_, chRestored_detected err d hr, ?_⟩
    rw [restoreFailed_chan, onChan_same]
    exact ⟨rfl, rfl, rfl⟩
  · intro k s hs hr
    simp only [exec, execSuppressionEnd, hs, hr, Bool.not_true, Bool.false_eq_true, if_false]
  · intro k s h
    simp only [exec, execChClip, h, Bool.false_eq_true, if_false]
  · exact congrArg Host.Outcome.next (dif_pos k.isLt)

end Sys2Proof.Scope
end

section
/-!
SUPPORT. What a trim that is written or reloaded leaves: which word waits, which reads back, which is in force (R135 to R138).
-/
namespace Sys2Proof.Scope

open Sys2Proof.Machine Sys2Proof.Laws

/-! ### Two bytes in a word -/

theorem fld_bytes_low (a b : Nat) : fld (word (put 15 8 a + put 7 0 b)) 7 0 = b % 256 := by
  simp only [fld, word, put, BitVec.toNat_ofNat, Nat.shiftRight_eq_div_pow, Nat.shiftLeft_eq]
  omega

theorem fld_bytes_high (a b : Nat) : fld (word (put 15 8 a + put 7 0 b)) 15 8 = a % 256 := by
  simp only [fld, word, put, BitVec.toNat_ofNat, Nat.shiftRight_eq_div_pow, Nat.shiftLeft_eq]
  omega

theorem fld_byte_lt (w : Word) (lo : Nat) : fld w (lo + 7) lo < 256 := by
  have h : lo + 7 + 1 - lo = 8 := by omega
  rw [fld, h]
  exact Nat.mod_lt _ (by decide)

theorem fld_low_mod (w : Word) : fld w 7 0 % 256 = fld w 7 0 := Nat.mod_eq_of_lt (fld_byte_lt w 0)

theorem fld_high_mod (w : Word) : fld w 15 8 % 256 = fld w 15 8 := Nat.mod_eq_of_lt (fld_byte_lt w 8)

theorem fld_eq_toNat (w : Word) (lo : Nat) : fld w (lo + 7) lo = (w.extractLsb' lo 8).toNat := by
  have h : lo + 7 + 1 - lo = 8 := by omega
  rw [fld, h, BitVec.extractLsb'_toNat]

/-- A byte put at the foot of a word is read back there, and the byte above it is kept. -/
theorem fld_lowByte (w : Word) (v : BitVec 8) : fld ((w &&& 0xFFFFFF00) ||| v.setWidth 32) 7 0 = v.toNat ∧
    fld ((w &&& 0xFFFFFF00) ||| v.setWidth 32) 15 8 = fld w 15 8 := by
  constructor
  · rw [fld_eq_toNat _ 0]
    congr 1
    ext i hi
    interval_cases i <;> simp [BitVec.getElem_extractLsb']
  · rw [fld_eq_toNat _ 8, fld_eq_toNat _ 8]
    congr 1
    ext i hi
    interval_cases i <;> simp [BitVec.getElem_extractLsb']

/-! ### Trims of the modulators that wait (R136) -/

/-- The word of TRIM.MOD that waits for a slot. -/
def modDue (n : Fin 170) (s : State) : Option Word :=
  if h : n.val < 136 then (s.chans[(⟨n.val, h⟩ : Fin 136)]).trimDue
  else (s.spares[(⟨n.val - 136, by omega⟩ : Fin 34)]).trimDue

/-- The word of TRIM.MOD that waits for a slot is replaced. -/
def putDue (x : Option Word) (n : Fin 170) (s : State) : State :=
  if h : n.val < 136 then s.onChan ⟨n.val, h⟩ fun c => { c with trimDue := x }
  else s.onSpare ⟨n.val - 136, by omega⟩ fun p => { p with trimDue := x }

theorem trimModWord_eq (s : State) (n : Fin 170) : s.trimModWord n = (modDue n s).getD s.trim.mod[n] := rfl

theorem askModTrim_eq (n : Fin 170) (w : Word) (s : State) : s.askModTrim n w = putDue (some w) n s := rfl

theorem dropModTrim_eq (n : Fin 170) (s : State) : s.dropModTrim n = putDue none n s := rfl

@[simp] theorem putDue_trim (x : Option Word) (n : Fin 170) (s : State) : (putDue x n s).trim = s.trim := by
  unfold putDue; split <;> rfl

@[simp] theorem putDue_flt (x : Option Word) (n : Fin 170) (s : State) : (putDue x n s).flt = s.flt := by
  unfold putDue; split <;> rfl

theorem modDue_congr {s t : State} (hc : t.chans = s.chans) (hs : t.spares = s.spares) (n : Fin 170) :
    modDue n t = modDue n s := by
  rw [modDue, modDue, hc, hs]

theorem modDue_putDue_same (x : Option Word) (n : Fin 170) (s : State) : modDue n (putDue x n s) = x := by
  unfold modDue putDue
  by_cases h : n.val < 136
  · rw [dif_pos h, dif_pos h, onChan_same]
  · rw [dif_neg h, dif_neg h, onSpare_same]

theorem modDue_putDue_other (x : Option Word) {m n : Fin 170} (s : State) (e : m ≠ n) :
    modDue m (putDue x n s) = modDue m s := by
  have hv : m.val ≠ n.val := fun h => e (Fin.ext h)
  unfold modDue putDue
  by_cases hm : m.val < 136 <;> by_cases hn : n.val < 136
  · rw [dif_pos hm, dif_pos hn, dif_pos hm, onChan_other _ _ fun h => hv (Fin.mk.inj h)]
  · rw [dif_pos hm, dif_neg hn, dif_pos hm, onSpare_chans]
  · rw [dif_neg hm, dif_pos hn, dif_neg hm, onChan_spares]
  · have hne : (⟨m.val - 136, by omega⟩ : Fin 34) ≠ ⟨n.val - 136, by omega⟩ := fun h => by
      have := Fin.mk.inj h
      omega
    rw [dif_neg hm, dif_neg hn, dif_neg hm]
    exact congrArg Spare.trimDue (upd_other _ _ _ _ hne)

/-- Waiting words replaced one after another, each by what the state says of it beside them. -/
theorem chain_putDue (x : State → Fin 170 → Option Word) (hx : ∀ s y n, x (putDue y n s) = x s) (l : List (Fin 170))
    (hl : l.Nodup) (s : State) (n : Fin 170) :
    modDue n (chain l (fun m s => putDue (x s m) m s) s) = if n ∈ l then x s n else modDue n s := by
  induction l generalizing s with
  | nil => rfl
  | cons m l ih =>
    have hm := List.nodup_cons.1 hl
    refine (ih hm.2 (putDue (x s m) m s)).trans ?_
    rw [hx]
    by_cases e : n = m
    · subst e
      simp only [hm.1, if_false, modDue_putDue_same, List.mem_cons_self, if_true]
    · simp only [List.mem_cons, e, false_or, modDue_putDue_other _ _ e]

/-- A modulator trim that is asked for waits and reads back; the trims in force and the other words stand (R136, R397). -/
theorem askModTrim_reads (n : Fin 170) (w : Word) (s : State) : (s.askModTrim n w).trimModWord n = w ∧
    (s.askModTrim n w).trim = s.trim ∧ ∀ m, m ≠ n → (s.askModTrim n w).trimModWord m = s.trimModWord m := by
  rw [askModTrim_eq]
  refine ⟨?_, putDue_trim _ _ _, fun m e => ?_⟩
  · rw [trimModWord_eq, modDue_putDue_same]; rfl
  · rw [trimModWord_eq, modDue_putDue_other _ _ e, putDue_trim, trimModWord_eq]

/-! ### TRIM.VREF and TRIM.OSC (R137, R138) -/

@[simp] theorem trimNote_trim (addr : Nat) (old new : Word) (s : State) : (s.trimNote addr old new).trim = s.trim := by
  unfold State.trimNote; split
  · rfl
  · exact note_trim _ _ _ _ _

theorem setVref_trim (w : Word) (s : State) : (s.setVref w).trim = { s.trim with vref := w, vrefDue := none } := trimNote_trim _ _ _ _

theorem setVref_blotted {w : Word} {s : State} (h : w ≠ s.trim.vref) : Blotted (blotBit .trimChanged) (s.setVref w) := by
  simp only [State.setVref, State.trimNote, h.symm, if_false]
  exact note_self _ _ _ _ _

theorem setOsc_trim (w : Word) (s : State) : (s.setOsc w).trim = { s.trim with osc := w } := trimNote_trim _ _ _ _

@[simp] theorem setOsc_chans (w : Word) (s : State) : (s.setOsc w).chans = s.chans := trimNote_chans _ _ _ _

@[simp] theorem setOsc_spares (w : Word) (s : State) : (s.setOsc w).spares = s.spares := trimNote_spares _ _ _ _

@[simp] theorem askBkup_chans (v : BitVec 8) (s : State) : (s.askBkup v).chans = s.chans := by
  unfold State.askBkup; split
  · rfl
  · exact setOsc_chans _ _

@[simp] theorem askBkup_spares (v : BitVec 8) (s : State) : (s.askBkup v).spares = s.spares := by
  unfold State.askBkup; split
  · rfl
  · exact setOsc_spares _ _

/-- The backup trim as it reads back: the value that waits, or the one in force. -/
theorem oscWord_low (t : Trims) : fld t.oscWord 7 0 = (t.bkupDue.map BitVec.toNat).getD (fld t.osc 7 0) := by
  rw [Trims.oscWord, fld_bytes_low]
  cases t.bkupDue with
  | none => exact fld_low_mod _
  | some v => exact Nat.mod_eq_of_lt v.isLt

/-- The display trim as it reads back. -/
theorem oscWord_high (t : Trims) : fld t.oscWord 15 8 = (t.panelDue.map BitVec.toNat).getD (fld t.osc 15 8) := by
  rw [Trims.oscWord, fld_bytes_high]
  cases t.panelDue with
  | none => exact fld_high_mod _
  | some v => exact Nat.mod_eq_of_lt v.isLt

/-- What stands of the trims when only the backup trim moves: TRIM.VREF, the modulators, and the display trim. -/
structure BackupOnly (s t : Trims) : Prop where
  mod : t.mod = s.mod
  vref : t.vref = s.vref
  vrefDue : t.vrefDue = s.vrefDue
  panelDue : t.panelDue = s.panelDue
  high : fld t.osc 15 8 = fld s.osc 15 8

theorem BackupOnly.refl (t : Trims) : BackupOnly t t := ⟨rfl, rfl, rfl, rfl, rfl⟩

theorem BackupOnly.oscWord_high {s t : Trims} (h : BackupOnly s t) : fld t.oscWord 15 8 = fld s.oscWord 15 8 := by
  rw [Scope.oscWord_high, Scope.oscWord_high, h.panelDue, h.high]

theorem askBkup_waits {s : State} (v : BitVec 8) (h : s.flt.onBackup = true) :
    (s.askBkup v).trim = { s.trim with bkupDue := some v } := by
  simp only [State.askBkup, h, if_true]

theorem askBkup_acts {s : State} (v : BitVec 8) (h : s.flt.onBackup = false) : (s.askBkup v).trim =
    { s.trim with bkupDue := none, osc := (s.trim.osc &&& 0xFFFFFF00) ||| v.setWidth 32 } := by
  simp only [State.askBkup, h, Bool.false_eq_true, if_false, setOsc_trim]

/-- A backup trim that is asked for reads back at once. -/
theorem askBkup_reads (v : BitVec 8) (s : State) : fld (s.askBkup v).trim.oscWord 7 0 = v.toNat := by
  rw [oscWord_low]
  cases h : s.flt.onBackup
  · rw [askBkup_acts v h]; exact (fld_lowByte _ _).1
  · rw [askBkup_waits v h]; rfl

theorem askBkup_only (v : BitVec 8) (s : State) : BackupOnly s.trim (s.askBkup v).trim := by
  cases h : s.flt.onBackup
  · rw [askBkup_acts v h]; exact ⟨rfl, rfl, rfl, rfl, (fld_lowByte _ _).2⟩
  · rw [askBkup_waits v h]; exact ⟨rfl, rfl, rfl, rfl, rfl⟩

/-- The backup trim of a word is asked for where it is another one than reads back (R138). -/
def backupAsked (w : Word) (s : State) : State :=
  if fld w 7 0 = fld s.trim.oscWord 7 0 then s else s.askBkup (BitVec.ofNat 8 (fld w 7 0))

theorem askOsc_eq (w : Word) (s : State) : s.askOsc w = if fld w 15 8 = fld s.trim.oscWord 15 8 then backupAsked w s
    else (backupAsked w s).askPanelOsc (BitVec.ofNat 8 (fld w 15 8)) := rfl

theorem backupAsked_only (w : Word) (s : State) : BackupOnly s.trim (backupAsked w s).trim := by
  unfold backupAsked; split
  · exact .refl _
  · exact askBkup_only _ _

theorem toNat_ofNat_low (w : Word) : (BitVec.ofNat 8 (fld w 7 0)).toNat = fld w 7 0 := fld_low_mod w

theorem toNat_ofNat_high (w : Word) : (BitVec.ofNat 8 (fld w 15 8)).toNat = fld w 15 8 := fld_high_mod w

theorem backupAsked_reads (w : Word) (s : State) : fld (backupAsked w s).trim.oscWord 7 0 = fld w 7 0 := by
  unfold backupAsked; split
  · next h => exact h.symm
  · rw [askBkup_reads, toNat_ofNat_low]

theorem backupAsked_waits (w : Word) {s : State} (h : s.flt.onBackup = true) : (backupAsked w s).trim.osc = s.trim.osc := by
  unfold backupAsked; split
  · rfl
  · rw [askBkup_waits _ h]

/-- Off the backup oscillator, and with nothing waiting, the backup trim is in force at once. -/
theorem backupAsked_acts (w : Word) {s : State} (h : s.flt.onBackup = false) (hd : s.trim.bkupDue = none) :
    fld (backupAsked w s).trim.osc 7 0 = fld w 7 0 := by
  unfold backupAsked; split
  · next he => rw [he, oscWord_low, hd]; rfl
  · rw [askBkup_acts _ h]
    exact (fld_lowByte _ _).1.trans (toNat_ofNat_low w)

theorem askPanelOsc_reads (v : BitVec 8) (s : State) : fld (s.askPanelOsc v).trim.oscWord 15 8 = v.toNat := by
  rw [oscWord_high]; rfl

theorem askPanelOsc_low (v : BitVec 8) (s : State) : fld (s.askPanelOsc v).trim.oscWord 7 0 = fld s.trim.oscWord 7 0 := by
  rw [oscWord_low, oscWord_low]; rfl

/-- A display trim waits for its frame, so that the word in force is the one that the backup trim leaves. -/
theorem askOsc_osc (w : Word) (s : State) : (s.askOsc w).trim.osc = (backupAsked w s).trim.osc := by
  rw [askOsc_eq]; split <;> rfl

theorem askOsc_reads (w : Word) (s : State) :
    fld (s.askOsc w).trim.oscWord 7 0 = fld w 7 0 ∧ fld (s.askOsc w).trim.oscWord 15 8 = fld w 15 8 := by
  rw [askOsc_eq]; split
  · next h => exact ⟨backupAsked_reads w s, (backupAsked_only w s).oscWord_high.trans h.symm⟩
  · rw [askPanelOsc_low, askPanelOsc_reads, toNat_ofNat_high]
    exact ⟨backupAsked_reads w s, rfl⟩

/-! ### RELOAD (R135, R280) -/

/-- The word that waits for a slot once its fused value is asked for. -/
def fusedDue (s : State) (n : Fin 170) : Option Word := if s.trim.mod[n] = fusedMod n then none else some (fusedMod n)

/-- The fused trims of the modulators are asked for. -/
def modsReloaded (s : State) : State := chain (List.finRange 170) (fun n s => putDue (fusedDue s n) n s) s

/-- The fused reference trim is asked for. -/
def vrefReloaded (s : State) : State :=
  { s with trim := { s.trim with vrefDue := if s.trim.vref = fusedVref then none else some fusedVref } }

/-- The fused backup trim is asked for. -/
def bkupReloaded (s : State) : State :=
  if fld s.trim.osc 7 0 = fld fusedOsc 7 0 then { s with trim := { s.trim with bkupDue := none } }
  else s.askBkup (BitVec.ofNat 8 (fld fusedOsc 7 0))

/-- The fused display trim is asked for. -/
def panelReloaded (s : State) : State :=
  if fld s.trim.osc 15 8 = fld fusedOsc 15 8 then { s with trim := { s.trim with panelDue := none } }
  else s.askPanelOsc (BitVec.ofNat 8 (fld fusedOsc 15 8))

theorem reloadTrims_eq (s : State) : s.reloadTrims = panelReloaded (bkupReloaded (vrefReloaded (modsReloaded s))) := by
  have h : (fun (n : Fin 170) (s : State) => if s.trim.mod[n] = fusedMod n then s.dropModTrim n else s.askModTrim n (fusedMod n)) =
      fun n s => putDue (fusedDue s n) n s := by
    funext n s
    unfold fusedDue
    split <;> rfl
  unfold State.reloadTrims modsReloaded
  rw [h]
  rfl

theorem modsReloaded_trim (s : State) : (modsReloaded s).trim = s.trim :=
  chain_keeps State.trim _ (fun n s => putDue (fusedDue s n) n s) (fun _ _ => putDue_trim _ _ _) s

theorem modsReloaded_due (s : State) (n : Fin 170) : modDue n (modsReloaded s) = fusedDue s n := by
  refine (chain_putDue fusedDue (fun s y n => ?_) _ (List.nodup_finRange 170) s n).trans (if_pos (List.mem_finRange n))
  funext m
  rw [fusedDue, fusedDue, putDue_trim]

theorem vrefReloaded_due (s : State) (n : Fin 170) : modDue n (vrefReloaded s) = modDue n s := rfl

theorem bkupReloaded_only (s : State) : BackupOnly s.trim (bkupReloaded s).trim := by
  unfold bkupReloaded; split
  · exact ⟨rfl, rfl, rfl, rfl, rfl⟩
  · exact askBkup_only _ _

theorem bkupReloaded_reads (s : State) : fld (bkupReloaded s).trim.oscWord 7 0 = fld fusedOsc 7 0 := by
  unfold bkupReloaded; split
  · next h => rw [oscWord_low]; exact h
  · rw [askBkup_reads, toNat_ofNat_low]

theorem bkupReloaded_due (s : State) (n : Fin 170) : modDue n (bkupReloaded s) = modDue n s := by
  unfold bkupReloaded; split
  · rfl
  · exact modDue_congr (askBkup_chans _ _) (askBkup_spares _ _) n

/-- What stands of the trims when only the display trim moves. -/
theorem panelReloaded_trim (s : State) : (panelReloaded s).trim = { s.trim with panelDue := (panelReloaded s).trim.panelDue } := by
  unfold panelReloaded; split <;> rfl

theorem panelReloaded_reads (s : State) : fld (panelReloaded s).trim.oscWord 15 8 = fld fusedOsc 15 8 := by
  unfold panelReloaded; split
  · next h => rw [oscWord_high]; exact h
  · rw [askPanelOsc_reads, toNat_ofNat_high]

theorem panelReloaded_low (s : State) : fld (panelReloaded s).trim.oscWord 7 0 = fld s.trim.oscWord 7 0 := by
  rw [oscWord_low, oscWord_low, panelReloaded_trim]

theorem panelReloaded_due (s : State) (n : Fin 170) : modDue n (panelReloaded s) = modDue n s := by
  unfold panelReloaded; split <;> rfl

/-- RELOAD moves no trim of a modulator that is in force, nor TRIM.VREF. -/
theorem reloadTrims_inForce (s : State) : s.reloadTrims.trim.mod = s.trim.mod ∧ s.reloadTrims.trim.vref = s.trim.vref ∧
    s.reloadTrims.trim.vrefDue = if s.trim.vref = fusedVref then none else some fusedVref := by
  have h := bkupReloaded_only (vrefReloaded (modsReloaded s))
  have hm := modsReloaded_trim s
  rw [reloadTrims_eq, panelReloaded_trim]
  refine ⟨h.mod.trans ?_, h.vref.trans ?_, h.vrefDue.trans ?_⟩ <;> simp only [vrefReloaded, hm]

theorem reloadTrims_modWord (s : State) (n : Fin 170) : s.reloadTrims.trimModWord n = fusedMod n := by
  rw [trimModWord_eq, (reloadTrims_inForce s).1, reloadTrims_eq, panelReloaded_due, bkupReloaded_due, vrefReloaded_due,
    modsReloaded_due, fusedDue]
  split
  · next h => exact h
  · rfl

theorem reloadTrims_vref (s : State) : s.reloadTrims.trim.vrefDue.getD s.reloadTrims.trim.vref = fusedVref := by
  obtain ⟨-, h1, h2⟩ := reloadTrims_inForce s
  rw [h1, h2]
  split
  · next h => exact h
  · rfl

theorem reloadTrims_osc (s : State) : fld s.reloadTrims.trim.oscWord 7 0 = fld fusedOsc 7 0 ∧
    fld s.reloadTrims.trim.oscWord 15 8 = fld fusedOsc 15 8 := by
  rw [reloadTrims_eq, panelReloaded_low]
  exact ⟨bkupReloaded_reads _, panelReloaded_reads _⟩

end Sys2Proof.Scope
end

section
/-!
SUPPORT. What the one-register rows do when they are accepted (R41, R135 to R138, R233, R254, R289, R357, R360, R375).
-/
namespace Sys2Proof.Scope

open Sys2Proof.Machine Sys2Proof.Laws

/-! ### A row that writes one word (R233) -/

/-- A row that writes one accepted word leaves what the word does, and its completion. -/
theorem row_done {c : Instr} {r : Req} {env : Sensed} {q : Reg} {w : Word} {s s1 : State}
    (hc : exec c s = .next (s.write r env q w)) (hs : s.served 0x0202 r = true) (hq : q ≠ .reserved)
    (h : (s.woken 0x0202).accepts r q w = true)
    (ha : (s.woken 0x0202).applyWord r env q (q.merge ((s.woken 0x0202).readLive q) w) w = s1) :
    exec c s = .next (s1.ok 0x0202 r (le 6 (s.woken 0x0202).nextBoundary ++ zeros 2)) := by
  rw [hc, State.write, command_served _ hs, paramWrite_inr (tryWrite_accepted env hq h), ha]

/-! ### Engine copies that rejoin (R254) -/

theorem rejoinComb_flt (s : State) : s.rejoinComb.flt = { s.flt with combFenced := none } := by
  unfold State.rejoinComb
  split
  · exact raise_flt _ _ _ _
  · next h => rw [← h]

theorem rejoinMet_flt (s : State) : s.rejoinMet.flt = { s.flt with metFenced := none } := by
  unfold State.rejoinMet
  split
  · exact raise_flt _ _ _ _
  · next h => rw [← h]

theorem rejoin_both (s : State) : (s.rejoin true true).flt = { s.flt with combFenced := none, metFenced := none } :=
  (rejoinMet_flt s.rejoinComb).trans (by rw [rejoinComb_flt])

/-! ### RECOVER (R375, R378) -/

@[simp] theorem onRegion_same (g : Fin 8) (f : Region → Region) (s : State) :
    (s.onRegion g f).pnl.regions[g] = f s.pnl.regions[g] := upd_same _ _ _

theorem onRegion_other {g i : Fin 8} (f : Region → Region) (s : State) (h : g ≠ i) :
    (s.onRegion i f).pnl.regions[g] = s.pnl.regions[g] := upd_other _ _ _ _ h

/-- What effects one after another keep, when each of those in the list keeps it. -/
theorem chain_keeps_mem {α β : Type} (g : State → β) (l : List α) (f : α → State → State)
    (h : ∀ a ∈ l, ∀ s, g (f a s) = g s) (s : State) : g (chain l f s) = g s := by
  induction l generalizing s with
  | nil => rfl
  | cons a l ih =>
    exact (ih (fun b hb => h b (List.mem_cons_of_mem _ hb)) (f a s)).trans (h a List.mem_cons_self s)

/-- Steering moves the rails alone. -/
theorem steer_pnl (s : State) : ∃ b, s.steer.pnl = { s.pnl with railDown := b } := by
  unfold State.steer Panel.steer
  dsimp only
  split
  · exact ⟨s.pnl.railDown, rfl⟩
  · split
    · exact ⟨_, rfl⟩
    · split <;> exact ⟨_, rfl⟩

theorem steer_region (g : Fin 8) (s : State) : s.steer.pnl.regions[g] = s.pnl.regions[g] := by
  obtain ⟨b, h⟩ := steer_pnl s
  simp only [h]

theorem steer_fault (s : State) : s.steer.pnl.fault = s.pnl.fault := by
  obtain ⟨b, h⟩ := steer_pnl s
  rw [h]

/-- The refresh of a region becomes its running request. -/
def refreshed (g : Fin 8) (s : State) : State := (s.onRegion g fun x => { x with run := some s.refreshReq.run }).steer

theorem refreshed_same (g : Fin 8) (s : State) : (refreshed g s).pnl.regions[g].run = some s.refreshReq.run := by
  simp only [refreshed, steer_region, onRegion_same]

theorem refreshed_other {g i : Fin 8} (s : State) (h : g ≠ i) : (refreshed i s).pnl.regions[g] = s.pnl.regions[g] :=
  (steer_region _ _).trans (onRegion_other _ s h)

theorem refreshed_fault (g : Fin 8) (s : State) : (refreshed g s).pnl.fault = s.pnl.fault := steer_fault _

/-- A refresh enters a region that runs nothing at once. -/
theorem placeReq_refresh {g : Fin 8} {s : State} (h : s.pnl.regions[g].run = none) :
    s.placeReq g s.refreshReq = refreshed g s := by
  have hr : s.refreshReq.refresh = true := rfl
  simp only [State.placeReq, h, hr, Bool.or_true, Bool.true_or, if_true, refreshed]

theorem chain_placeReq (l : List (Fin 8)) (hl : l.Nodup) (s : State) (h : ∀ g ∈ l, s.pnl.regions[g].run = none) :
    chain l (fun g s => s.placeReq g s.refreshReq) s = chain l refreshed s := by
  induction l generalizing s with
  | nil => rfl
  | cons g l ih =>
    obtain ⟨hg, hl⟩ := List.nodup_cons.1 hl
    have hs := placeReq_refresh (h g List.mem_cons_self)
    refine (congrArg (chain l _) hs).trans (ih hl (refreshed g s) fun i hi => ?_)
    have hne : i ≠ g := fun e => hg (e ▸ hi)
    simp only [refreshed_other s hne]
    exact h i (List.mem_cons_of_mem _ hi)

/-- The regions that a refresh of the panel takes: DIRTY, at rest, and with rows. -/
def refreshDue (s : State) : List (Fin 8) :=
  allRegions.filter fun g => s.pnl.regions[g].dirty && s.pnl.regions[g].run.isNone && regionRows s.live g ≠ 0

theorem refreshDirty_eq (s : State) : s.refreshDirty = if s.canRefresh then chain (refreshDue s) refreshed s else s := by
  have h : ∀ g ∈ refreshDue s, s.pnl.regions[g].run = none := by
    intro g hg
    simp only [refreshDue, List.mem_filter, Bool.and_eq_true, Option.isNone_iff_eq_none] at hg
    exact hg.2.1.2
  rw [← chain_placeReq (refreshDue s) ((List.nodup_finRange 8).filter _) s h]
  rfl

theorem refreshDirty_keeps {β : Type} (f : State → β) (hf : ∀ g s, f (refreshed g s) = f s) (s : State) :
    f s.refreshDirty = f s := by
  rw [refreshDirty_eq]
  split
  · exact chain_keeps f _ refreshed hf s
  · rfl

theorem chain_refreshed_run (l : List (Fin 8)) (s : State) (g : Fin 8) (hg : g ∈ l) :
    (chain l refreshed s).pnl.regions[g].run = some s.refreshReq.run := by
  induction l generalizing s with
  | nil => cases hg
  | cons i l ih =>
    by_cases hl : g ∈ l
    · exact ih (refreshed i s) hl
    · have e : g = i := (List.mem_cons.1 hg).resolve_right hl
      have hk := chain_keeps_mem (fun s => s.pnl.regions[g]) l refreshed
        (fun a ha s => refreshed_other s fun h => hl (h ▸ ha)) (refreshed i s)
      subst e
      exact (congrArg Region.run hk).trans (refreshed_same g s)

/-- What waits for a region to start runs now: its refresh where it is DIRTY, or the request in its slot. -/
def waitingStarted (g : Fin 8) (s : State) : State :=
  let refresh := s.pnl.regions[g].dirty && s.canRefresh
  s.onRegion g fun x =>
    { x with
      run := if refresh then some s.refreshReq.run else s.pnl.regions[g].slot.map PnlReq.run
      slot := if refresh then s.pnl.regions[g].slot else none }

/-- The regions at rest with a request in their slot. -/
def waitingDue (s : State) : List (Fin 8) :=
  allRegions.filter fun g => s.pnl.regions[g].run.isNone && s.pnl.regions[g].slot.isSome

theorem startWaiting_eq (s : State) : s.startWaiting = if s.metering && s.panelOn && !s.pnl.fault && !s.closingOut then
    (chain (waitingDue s) waitingStarted s).steer else s := rfl

/-- A region that runs a request already has none that waits for it to start. -/
theorem startWaiting_run {g : Fin 8} {s : State} (h : s.pnl.regions[g].run.isNone = false) :
    s.startWaiting.pnl.regions[g] = s.pnl.regions[g] := by
  rw [startWaiting_eq]
  split
  · rw [steer_region]
    refine chain_keeps_mem (fun s => s.pnl.regions[g]) _ _ (fun i hi s => onRegion_other _ s fun e => ?_) s
    rw [waitingDue, List.mem_filter, Bool.and_eq_true, ← e, h] at hi
    exact absurd hi.2.1 (by decide)
  · rfl

theorem startWaiting_keeps {β : Type} (f : State → β) (hf : ∀ g s, f (waitingStarted g s) = f s) (hs : ∀ s, f s.steer = f s)
    (s : State) : f s.startWaiting = f s := by
  rw [startWaiting_eq]
  split
  · rw [hs]
    exact chain_keeps f _ waitingStarted hf s
  · rfl

/-- The panel has left its fault state, and its clock runs (R375). -/
def faultLeft (s : State) : State := { s with pnl := { s.pnl with fault := false }, flt := { s.flt with panelStop := false } }

theorem recover_eq (s : State) (h : s.pnl.fault = true) : s.recover true = (faultLeft s).refreshDirty.startWaiting.steer := by
  simp only [State.recover, h, Bool.not_true, Bool.or_self, Bool.false_eq_true, if_false, faultLeft]

theorem recover_flt {s : State} (h : s.pnl.fault = true) : (s.recover true).flt = { s.flt with panelStop := false } := by
  rw [recover_eq s h]
  exact (startWaiting_keeps State.flt (fun _ _ => rfl) (fun _ => rfl) _).trans
    (refreshDirty_keeps State.flt (fun _ _ => rfl) _)

theorem recover_fault {s : State} (h : s.pnl.fault = true) : (s.recover true).pnl.fault = false := by
  rw [recover_eq s h, steer_fault, startWaiting_keeps (fun s => s.pnl.fault) (fun _ _ => rfl) steer_fault,
    refreshDirty_keeps (fun s => s.pnl.fault) refreshed_fault]
  rfl

/-- A DIRTY region at rest is refreshed where DTRANS has a table. -/
theorem recover_refreshes {g : Fin 8} {s : State} (h : s.pnl.fault = true) (hp : s.panelOn = true) (hc : s.pnl.closeout = 0)
    (ht : s.pnl.hasTable (fld (s.live .pnlCfg) 6 4) = true) (hd : s.pnl.regions[g].dirty = true)
    (hr : s.pnl.regions[g].run = none) (hw : regionRows s.live g ≠ 0) :
    (s.recover true).pnl.regions[g].run = some s.refreshReq.run := by
  have hcan : (faultLeft s).canRefresh = true := by
    have hp' : (faultLeft s).panelOn = true := hp
    have hc' : (faultLeft s).pnl.closeout = 0 := hc
    have ht' : (faultLeft s).pnl.hasTable (faultLeft s).refreshReq.transition = true := ht
    have hf : (faultLeft s).pnl.fault = false := rfl
    simp only [State.canRefresh, hp', hc', ht', hf, decide_true, Bool.not_false, Bool.and_self]
  have hdue : g ∈ refreshDue (faultLeft s) := by
    refine List.mem_filter.2 ⟨List.mem_finRange g, ?_⟩
    simp only [Bool.and_eq_true, decide_eq_true_eq, Option.isNone_iff_eq_none]
    exact ⟨⟨hd, hr⟩, hw⟩
  have hrun : (faultLeft s).refreshDirty.pnl.regions[g].run = some s.refreshReq.run := by
    rw [refreshDirty_eq, hcan]
    exact chain_refreshed_run _ _ g hdue
  rw [recover_eq s h, steer_region, startWaiting_run (by rw [hrun]; rfl), hrun]

/-! ### Fields of control words -/

/-- The control word of FDIS names its source, and asks for no ARM (R357). -/
theorem guardControl_fdis (i : Fin 12) (s : State) :
    s.guardControl (word (put 23 16 0xD7 + flag 15 true + put 3 0 i.val)) = s.fdis ⟨i.val, by omega⟩ := by
  have h : ∀ i : Fin 12, bit (word (put 23 16 0xD7 + flag 15 true + put 3 0 i.val)) 15 = true ∧
      bit (word (put 23 16 0xD7 + flag 15 true + put 3 0 i.val)) 31 = false ∧
      Fin.ofNat 16 (fld (word (put 23 16 0xD7 + flag 15 true + put 3 0 i.val)) 3 0) = ⟨i.val, by omega⟩ := by decide +kernel
  obtain ⟨h1, h2, h3⟩ := h i
  simp only [State.guardControl, h1, h2, h3, if_true, Bool.false_eq_true, if_false]

/-- EN of a host target is a bit that a write changes, so that a word without it clears it (R291). -/
theorem tgtCfg_merge_clears {t : Fin 6} (ht : 2 ≤ t.val) (old w : Word) :
    bit ((Reg.tgtCfg t).merge old (w &&& 0x7FFFFFFF)) 31 = false := by
  have h : ∀ t : Fin 6, 2 ≤ t.val → (Reg.tgtCfg t).rwMask.getLsbD 31 = true := by decide +kernel
  simp [bit, Reg.merge, h t ht]

theorem applyWord_tgtCfg (req : Req) (env : Sensed) (t : Fin 6) (v w : Word) (s : State) :
    s.applyWord req env (.tgtCfg t) v w = if bit (s.asked (.tgtCfg t)) 31 && !bit v 31
      then (s.store (.tgtCfg t) v).disableTarget t else (s.store (.tgtCfg t) v).route := rfl

theorem applyWord_tgtCfg_off {req : Req} {env : Sensed} {t : Fin 6} {v : Word} (w : Word) {s : State}
    (ha : bit (s.asked (.tgtCfg t)) 31 = true) (hv : bit v 31 = false) :
    s.applyWord req env (.tgtCfg t) v w = (s.store (.tgtCfg t) v).disableTarget t := by
  rw [applyWord_tgtCfg, ha, hv]
  rfl

theorem applyWord_tgtEoi (req : Req) (env : Sensed) (t : Fin 6) (v w : Word) (s : State) :
    s.applyWord req env (.tgtEoi t) v w = s.retire t (fld w 7 0) (fld w 15 8) := rfl

theorem applyWord_eoi (req : Req) (env : Sensed) (t : Fin 6) (v : Word) (src dtag : Byte) (s : State) :
    s.applyWord req env (.tgtEoi t) v (word (put 15 8 dtag.toNat + put 7 0 src.toNat)) = s.retire t src.toNat dtag.toNat := by
  rw [applyWord_tgtEoi, fld_bytes_low, fld_bytes_high, Nat.mod_eq_of_lt src.isLt, Nat.mod_eq_of_lt dtag.isLt]

/-! ### The rows -/

/-- Settles O27: each row writes one word, and a lemma says what its register's effect leaves. -/
theorem registerRowsComplete : Obligations.RegisterRowsComplete := by
  refine ⟨?_, ?_, ?_, ?_, ?_, ?_, askModTrim_reads, ?_, ?_, ?_, ?_, ?_⟩
  · intro r k s hs
    exact ⟨fun h => row_done rfl hs nofun h rfl, fun h => row_done rfl hs nofun h rfl,
      fun h => row_done rfl hs nofun h rfl⟩
  · intro r n w s hs
    exact fun h => row_done rfl hs nofun h rfl
  · intro r w s hs
    exact ⟨fun h => row_done rfl hs nofun h rfl, fun h => row_done rfl hs nofun h rfl⟩
  · intro r s hs
    refine ⟨fun h => row_done rfl hs nofun h rfl, fun _ _ h => row_done rfl hs nofun h rfl,
      fun h => row_done rfl hs nofun h rfl, fun h => row_done rfl hs nofun h rfl, fun i h => ?_,
      fun _ h => row_done rfl hs nofun h rfl⟩
    have hi : (BitVec.ofNat 4 i.val).toNat = i.val := Nat.mod_eq_of_lt (by omega)
    have hx : exec (.fdis r 0xD7 (BitVec.ofNat 4 i.val)) s =
        .next (s.write r .plain .grdCtl (word (put 23 16 0xD7 + flag 15 true + put 3 0 i.val))) := by
      simp only [exec, execFdis, hi]
      rfl
    exact row_done hx hs nofun h (guardControl_fdis i _)
  · intro r t src dtag s hs
    exact fun h => row_done rfl hs nofun h (applyWord_eoi _ _ _ _ _ _ _)
  · intro r t s hs ht
    refine fun h hb => ⟨tgtCfg_merge_clears ht _ _, row_done rfl hs nofun h (applyWord_tgtCfg_off _ ?_ ?_)⟩
    · rw [State.asked, woken_cfg]; exact hb
    · exact tgtCfg_merge_clears ht _ _
  · intro w s
    refine ⟨setVref_trim w s, setVref_blotted, (askOsc_reads w s).1, (askOsc_reads w s).2, ?_, ?_, ?_⟩
    · rw [askOsc_osc, (backupAsked_only w s).high]
    · exact fun h => (askOsc_osc w s).trans (backupAsked_waits w h)
    · exact fun h hd => (congrArg (fld · 7 0) (askOsc_osc w s)).trans (backupAsked_acts w h hd)
  · intro s
    obtain ⟨hmod, hvref, -⟩ := reloadTrims_inForce s
    obtain ⟨hlow, hhigh⟩ := reloadTrims_osc s
    exact ⟨reloadTrims_modWord s, hmod, hvref, reloadTrims_vref s, hlow, hhigh⟩
  · intro s
    refine ⟨rfl, fun c h => ?_, fun c h => ?_, congrArg Flt.combFenced (rejoin_both s), congrArg Flt.metFenced (rejoin_both s)⟩
    · simp only [State.rejoin, State.rejoinComb, h, State.noteRejoined, if_true, Bool.false_eq_true, if_false]
    · simp only [State.rejoin, State.rejoinMet, h, State.noteRejoined, if_true, Bool.false_eq_true, if_false]
  · intro s
    refine ⟨fun h => ?_, fun h => ?_, fun i => ⟨upd_same _ _ _, fun j hj => upd_other _ _ _ _ hj⟩⟩
    · simp only [State.arm, h, if_true]
    · simp only [State.arm, State.fresh, h, Bool.false_eq_true, if_false]
  · intro s
    refine ⟨?_, fun h => ?_, fun h => ⟨recover_fault h, recover_flt h, fun hp hc ht g => recover_refreshes h hp hc ht⟩⟩
    · simp only [State.recover, Bool.not_false, Bool.or_true, if_true]
    · simp only [State.recover, h, Bool.not_false, Bool.true_or, if_true]

end Sys2Proof.Scope
end

section
/-!
SUPPORT. In RUN the operations of a cycle boundary, and what they call, leave the device's state and its start-up record: nothing but a
stay in Banked is ended by an interrupt source (R19, R292).
-/
namespace Sys2Proof.Scope

open Sys2Proof.Machine Sys2Proof.Laws

/-! ### Interrupts, events and completions -/

@[simp] theorem wakeFor_dev_run (l : List Nat) {s : State} (h : s.dev.st = .run) : (s.wakeFor l).dev = s.dev := by
  unfold State.wakeFor State.unbank
  split
  · rw [h]
  · rfl

@[simp] theorem pendInt_dev_run (n : Nat) {s : State} (h : s.dev.st = .run) : (s.pendInt n).dev = s.dev := by
  simp [State.pendInt, h]

@[simp] theorem enter_dev_run (e : Event) {s : State} (h : s.dev.st = .run) : (s.enter e).dev = s.dev := by
  unfold State.enter
  dsimp only
  repeat' split
  all_goals simp [h]

theorem entered_dev_run (x : Event) {s : State} (h : s.dev.st = .run) :
    (if s.dev.startup.restored then s.enter x else { s with ev := { s.ev with held := s.ev.held ++ [x] } }).dev = s.dev := by
  split
  · exact enter_dev_run x h
  · rfl

@[simp] theorem raiseAs_dev_run (w : Word) (e : Ev) (u : Subject) (a : Stamp) (b c : Bool) (d : List Byte) {s : State}
    (h : s.dev.st = .run) : (s.raiseAs w e u a b c d).dev = s.dev := by
  have h1 := entered_dev_run (⟨0, e.code, a, u.code, b, c, s.grd.quenched, w, d⟩ : Event) h
  unfold State.raiseAs
  dsimp only
  split
  · split
    · rw [pendInt_dev_run _ (by rw [h1, h]), h1]
    · exact h1
  · exact h1

@[simp] theorem raiseWith_dev_run (e : Ev) (u : Subject) (a : Stamp) (b c : Bool) (d : List Byte) {s : State}
    (h : s.dev.st = .run) : (s.raiseWith e u a b c d).dev = s.dev := raiseAs_dev_run _ _ _ _ _ _ _ h

@[simp] theorem raise_dev_run (e : Ev) (u : Subject) (d : List Byte) {s : State} (h : s.dev.st = .run) :
    (s.raise e u d).dev = s.dev := raiseWith_dev_run _ _ _ _ _ _ h

@[simp] theorem note_dev_run (b : Blot) (e : Ev) (u : Subject) (d : List Byte) {s : State} (h : s.dev.st = .run) :
    (s.note b e u d).dev = s.dev := raise_dev_run (s := s.blot b) _ _ _ h

@[simp] theorem logOnly_dev_run (e : Ev) (u : Subject) (d : List Byte) {s : State} (h : s.dev.st = .run) :
    (s.logOnly e u d).dev = s.dev := by
  unfold State.logOnly
  dsimp only
  split
  · exact pendInt_dev_run _ h
  · rfl

@[simp] theorem endSession_dev_run (i : Fin 1024) (c : Nat) {s : State} (h : s.dev.st = .run) :
    (s.endSession i c).dev = s.dev := by
  unfold State.endSession
  split
  · rfl
  · simp [h]

@[simp] theorem complete_dev_run (op : Nat) (r : Req) (st : Status) (bs : List Byte) {s : State} (h : s.dev.st = .run) :
    (s.complete op r st bs).dev = s.dev := by
  unfold State.complete
  dsimp only
  repeat' split
  all_goals simp [h]

@[simp] theorem okTo_dev_run (op : Nat) (r : Option Req) (bs : List Byte) {s : State} (h : s.dev.st = .run) :
    (s.okTo op r bs).dev = s.dev := by
  unfold State.okTo
  split
  · exact complete_dev_run _ _ _ _ h
  · rfl

@[simp] theorem fail_dev_run (op : Nat) (r : Req) (st : Status) {s : State} (h : s.dev.st = .run) :
    (s.fail op r st).dev = s.dev := complete_dev_run _ _ _ _ h

/-- Effects one after another, each of which leaves a device in RUN as it is. -/
theorem chain_dev_run {α : Type} (l : List α) {f : α → State → State} (hf : ∀ a s, s.dev.st = .run → (f a s).dev = s.dev)
    {s : State} (h : s.dev.st = .run) : (chain l f s).dev = s.dev := by
  induction l generalizing s with
  | nil => rfl
  | cons a l ih =>
    have ha := hf a s h
    exact (ih (by rw [ha, h])).trans ha

/-! ### Channels and spares -/

@[simp] theorem reshade_dev (g : Fin 34) (s : State) : (s.reshade g).dev = s.dev :=
  chain_keeps State.dev _ (fun k s => s.onChan k (Chan.shade s.clock s.spares[g] k)) (fun _ _ => rfl) s

@[simp] theorem connectSpare_dev (g : Fin 34) (i : Fin 4) (s : State) : (s.connectSpare g i).dev = s.dev := rfl

@[simp] theorem advanceSpare_dev (g : Fin 34) (s : State) : (s.advanceSpare g).dev = s.dev := by
  unfold State.advanceSpare
  split <;> simp

@[simp] theorem startCheck_dev (g : Fin 34) (k : Fin 136) (s : State) : (s.startCheck g k).dev = s.dev := by
  simp [State.startCheck]

@[simp] theorem nextCheck_dev (g : Fin 34) (s : State) : (s.nextCheck g).dev = s.dev := by
  unfold State.nextCheck
  repeat' split
  all_goals simp

@[simp] theorem endCheck_dev (g : Fin 34) (s : State) : (s.endCheck g).dev = s.dev := by
  unfold State.endCheck
  split <;> simp

@[simp] theorem abortCheck_dev (g : Fin 34) (s : State) : (s.abortCheck g).dev = s.dev := by
  unfold State.abortCheck
  dsimp only
  repeat' split
  all_goals simp

@[simp] theorem takeSpare_dev (k : Fin 136) (s : State) : (s.takeSpare k).dev = s.dev := by
  have h1 : (checkEnded k s).dev = s.dev := by
    unfold checkEnded
    repeat' split
    all_goals simp [State.queueCheck]
  rw [takeSpare_eq, spareTaken, reshade_dev, onSpare_dev]
  split <;> simp [h1]

@[simp] theorem forceSpare_dev_run (k : Fin 136) {s : State} (h : s.dev.st = .run) : (s.forceSpare k).dev = s.dev := by
  unfold State.forceSpare
  split
  · simp [State.substituted, h]
  · rfl

@[simp] theorem restoreFailed_dev_run (k : Fin 136) {s : State} (h : s.dev.st = .run) : (s.restoreFailed k).dev = s.dev := by
  simp [State.restoreFailed, h]

@[simp] theorem trimNote_dev_run (addr : Nat) (old new : Word) {s : State} (h : s.dev.st = .run) :
    (s.trimNote addr old new).dev = s.dev := by
  unfold State.trimNote
  split
  · rfl
  · exact note_dev_run _ _ _ _ h

@[simp] theorem setModTrim_dev_run (n : Fin 170) (w : Word) {s : State} (h : s.dev.st = .run) :
    (s.setModTrim n w).dev = s.dev := by
  simp [State.setModTrim, h]

@[simp] theorem setVref_dev_run (w : Word) {s : State} (h : s.dev.st = .run) : (s.setVref w).dev = s.dev := by
  simp [State.setVref, h]

@[simp] theorem settingTook_dev (s : State) : s.settingTook.dev = s.dev := rfl

@[simp] theorem trimBoundary_dev_run (k : Fin 136) {s : State} (h : s.dev.st = .run) : (s.trimBoundary k).dev = s.dev := by
  unfold State.trimBoundary
  dsimp only
  repeat' split
  all_goals simp [State.startRestore, h]

@[simp] theorem spareTrim_dev_run (g : Fin 34) {s : State} (h : s.dev.st = .run) : (s.spareTrim g).dev = s.dev := by
  unfold State.spareTrim
  split
  · rfl
  · simp [h]

@[simp] theorem channelBoundary_dev_run (k : Fin 136) {s : State} (h : s.dev.st = .run) : (s.channelBoundary k).dev = s.dev := by
  unfold State.channelBoundary
  dsimp only
  repeat' split
  all_goals simp [h]

@[simp] theorem spareBoundary_dev_run (g : Fin 34) {s : State} (h : s.dev.st = .run) : (s.spareBoundary g).dev = s.dev := by
  unfold State.spareBoundary
  dsimp only
  repeat' split
  all_goals simp [h]

/-! ### What waits for a boundary -/

@[simp] theorem trimsBoundary_dev_run {s : State} (h : s.dev.st = .run) : s.trimsBoundary.dev = s.dev := by
  have h1 : (chain allChans State.trimBoundary s).dev = s.dev := chain_dev_run _ (fun _ _ => trimBoundary_dev_run _) h
  unfold State.trimsBoundary
  dsimp only
  split
  · rw [settingTook_dev, setVref_dev_run _ (by rw [h1, h]), h1]
  · exact h1

@[simp] theorem book_dev_run (p : Fin 128) (at_ : Stamp) (l : List Nat) {s : State} (h : s.dev.st = .run) :
    (s.book p at_ l).dev = s.dev := by
  unfold State.book
  dsimp only
  split
  · rfl
  · refine chain_dev_run _ (fun i s hs => ?_) (s := (s.onPt p (Point.add l)).onPt p fun x => { x with wrapped := true }) h
    exact raiseWith_dev_run (s := s.blot .totalWrap) _ _ _ _ _ _ hs

@[simp] theorem convert_dev_run (p : Fin 128) (u : Sums) {s : State} (h : s.dev.st = .run) : (s.convert p u).dev = s.dev := by
  unfold State.convert
  split
  · rfl
  · simp [h]

@[simp] theorem firstCommit_dev_run (digest : List Byte) {s : State} (h : s.dev.st = .run) :
    (s.firstCommit digest).dev = s.dev := by
  unfold State.firstCommit
  split
  · exact chain_dev_run _ (fun _ _ ha => by simp [State.reconcile, ha]) h
  · simp [h]

@[simp] theorem absorbDelay_dev (old new : CalSet) (s : State) : (s.absorbDelay old new).dev = s.dev := by
  unfold State.absorbDelay
  dsimp only
  repeat' split
  all_goals rfl

@[simp] theorem commitSet_dev_run (digest : List Byte) {s : State} (h : s.dev.st = .run) : (s.commitSet digest).dev = s.dev := by
  unfold State.commitSet
  dsimp only
  split <;> simp [h]

@[simp] theorem commitBoundary_dev_run {s : State} (h : s.dev.st = .run) : s.commitBoundary.dev = s.dev := by
  unfold State.commitBoundary
  split
  · rfl
  · simp [h]

@[simp] theorem resolvePoint_dev_run (b : Bool) (p : Fin 128) {s : State} (h : s.dev.st = .run) :
    (s.resolvePoint b p).dev = s.dev := by
  unfold State.resolvePoint
  dsimp only
  repeat' split
  all_goals simp [h]

@[simp] theorem resolveOne_dev_run (x : Resolve) {s : State} (h : s.dev.st = .run) : (s.resolveOne x).dev = s.dev := by
  have h1 : (chain (x.points.filterMap (idx? 128)) (State.resolvePoint x.convert) s).dev = s.dev :=
    chain_dev_run _ (fun _ _ => resolvePoint_dev_run _ _) h
  simp [State.resolveOne, h1, h]

@[simp] theorem resolveBoundary_dev_run {s : State} (h : s.dev.st = .run) : s.resolveBoundary.dev = s.dev :=
  chain_dev_run _ (fun _ _ => resolveOne_dev_run _) h

@[simp] theorem resetDemand_dev_run (p : Fin 128) {s : State} (h : s.dev.st = .run) : (s.resetDemand p).dev = s.dev := by
  unfold State.resetDemand
  dsimp only
  split <;> simp [State.demandClose, h]

@[simp] theorem resetBoundary_dev_run {s : State} (h : s.dev.st = .run) : s.resetBoundary.dev = s.dev := by
  have hfail : ∀ (l : List Req) (s : State), s.dev.st = .run →
      (chain l (fun r s => s.fail 0x0401 r .isolated) s).dev = s.dev :=
    fun l _ => chain_dev_run l fun _ _ => fail_dev_run _ _ _
  have hdemand : ∀ (l : List (Fin 128)) (s : State), s.dev.st = .run → (chain l State.resetDemand s).dev = s.dev :=
    fun l _ => chain_dev_run l fun _ _ => resetDemand_dev_run _
  have hreply : ∀ (l : List (Option Req × BitVec 128)) (s : State), s.dev.st = .run →
      (chain l State.resetReply s).dev = s.dev :=
    fun l _ => chain_dev_run l fun _ _ => okTo_dev_run _ _ _
  simp [State.resetBoundary, hfail, hdemand, hreply, h]

@[simp] theorem saveBoundary_dev_run {s : State} (h : s.dev.st = .run) : s.saveBoundary.dev = s.dev := by
  unfold State.saveBoundary
  split
  · rfl
  · simp [h]

/-- A step that leaves a device in RUN as it is, after others that have. -/
theorem dev_run_trans {s t u : State} (h : s.dev.st = .run) (ht : t.dev = s.dev) (hu : t.dev.st = .run → u.dev = t.dev) :
    u.dev = s.dev :=
  (hu (ht ▸ h)).trans ht

theorem firstCommands_dev_run {s : State} (h : s.dev.st = .run) : s.firstCommands.dev = s.dev := by
  unfold State.firstCommands
  split
  · rfl
  · exact dev_run_trans h (dev_run_trans h (dev_run_trans h (commitBoundary_dev_run h) resolveBoundary_dev_run)
      resetBoundary_dev_run) saveBoundary_dev_run

/-! ### The first cycle -/

/-- The words accepted since the restore are in force, and with them the declared voltages and the nominal frequency. -/
def settingsInForce (s : State) : State :=
  let s1 := chain s.settingsDue State.enforce (chain allChans State.channelBoundary s)
  { s1 with
    buses := Vector.ofFn fun b => { s1.buses[b] with usr := udin s1.live b }
    tb := { s1.tb with nomf60 := bit (s1.live .tbCfg) 0 } }

/-- The trims, the commands and the spares of the first boundary have followed. -/
def firstBoundary (s : State) : State :=
  chain (List.finRange 34) State.spareBoundary (settingsInForce s).trimsBoundary.firstCommands

theorem firstSettings_eq (s : State) : s.firstSettings = { firstBoundary s with
    pts := Vector.ofFn fun p => { (firstBoundary s).pts[p] with settle := (firstBoundary s).settles p } } := rfl

theorem settingsInForce_dev_run {s : State} (h : s.dev.st = .run) : (settingsInForce s).dev = s.dev :=
  dev_run_trans (u := settingsInForce s) h
    (chain_dev_run (f := State.channelBoundary) allChans (fun _ _ => channelBoundary_dev_run _) h)
    (chain_dev_run (f := State.enforce) _ fun _ _ _ => rfl)

theorem firstBoundary_dev_run {s : State} (h : s.dev.st = .run) : (firstBoundary s).dev = s.dev :=
  dev_run_trans h (dev_run_trans h (dev_run_trans h (settingsInForce_dev_run h) trimsBoundary_dev_run) firstCommands_dev_run)
    (chain_dev_run (f := State.spareBoundary) _ fun _ _ => spareBoundary_dev_run _)

theorem firstSettings_dev_run {s : State} (h : s.dev.st = .run) : s.firstSettings.dev = s.dev := by
  rw [firstSettings_eq]
  dsimp only
  exact firstBoundary_dev_run h

theorem openProfile_dev (part : Bool) (s : State) : (s.openProfile part).dev = s.dev := by
  have h : s.applyProfEn.dev = s.dev := by
    unfold State.applyProfEn
    dsimp only
    split <;> rfl
  exact h

theorem openAll_dev (s : State) : s.openAll.dev = s.dev := by
  unfold State.openAll
  exact (openProfile_dev _ _).trans (chain_keeps State.dev _ State.rebase (fun _ _ => rfl) _)

theorem cellAlarm_dev_run (a : Fin 2) {s : State} (h : s.dev.st = .run) : (s.cellAlarm a).dev = s.dev := by
  unfold State.cellAlarm
  split
  · rfl
  · simp [State.alarmEvent, h]

end Sys2Proof.Scope
end

section
/-!
SUPPORT. How metering starts: the first cycle's number, place, period and reference, and what is owed for the time before it (R22, R69,
R282, R283, R310).
-/
namespace Sys2Proof.Scope

open Sys2Proof.Machine Sys2Proof.Laws

/-! ### The course of the timebase -/

/-- The mode and the reference of the timebase, and its running cycle. -/
def course (t : Timebase) : TbMode × Nat × Nat × Nat × Nat := (t.mode, t.active, t.period, t.start, t.cycle)

theorem absorbDelay_course (old new : CalSet) (s : State) : course (s.absorbDelay old new).tb = course s.tb := by
  unfold State.absorbDelay Timebase.setSlew
  dsimp only
  repeat' split
  all_goals rfl

theorem commitBoundary_course (s : State) : course s.commitBoundary.tb = course s.tb := by
  unfold State.commitBoundary State.commitSet
  dsimp only
  split
  · rfl
  · rw [okTo_tb]
    split
    · rw [firstCommit_tb, absorbDelay_course]
    · rw [absorbDelay_course]

theorem firstCommands_course (s : State) : course s.firstCommands.tb = course s.tb := by
  unfold State.firstCommands
  split
  · rfl
  · rw [saveBoundary_tb, resetBoundary_tb, resolveBoundary_tb, commitBoundary_course]

theorem settingsInForce_course (s : State) : course (settingsInForce s).tb = course s.tb := by
  have h : (chain s.settingsDue State.enforce (chain allChans State.channelBoundary s)).tb = s.tb := by
    rw [chain_tb _ _ _ enforce_tb, chain_tb _ _ _ channelBoundary_tb]
  unfold settingsInForce
  dsimp only
  rw [h]
  rfl

theorem firstSettings_course (s : State) : course s.firstSettings.tb = course s.tb := by
  rw [firstSettings_eq]
  dsimp only
  rw [firstBoundary, chain_tb _ _ _ spareBoundary_tb, firstCommands_course, trimsBoundary_tb, settingsInForce_course]

theorem openAll_course (s : State) : course s.openAll.tb = course s.tb := by
  unfold State.openAll
  dsimp only
  rw [openProfile_tb, chain_tb _ _ _ rebase_tb]
  rfl

/-! ### Blot bits that stay set -/

theorem chain_blotted {α : Type} {m : BitVec 128} (l : List α) {f : α → State → State}
    (hf : ∀ a s, Blotted m s → Blotted m (f a s)) {s : State} (h : Blotted m s) : Blotted m (chain l f s) := by
  induction l generalizing s with
  | nil => exact h
  | cons a l ih => exact ih (hf a s h)

theorem blotted_congr {m : BitVec 128} {s t : State} (h : t.anv = s.anv) (hs : Blotted m s) : Blotted m t := by
  rw [Blotted, h]
  exact hs

theorem cellAlarm_blotted {m : BitVec 128} (a : Fin 2) {s : State} (h : Blotted m s) : Blotted m (s.cellAlarm a) := by
  unfold State.cellAlarm
  split
  · exact h
  · exact pendInt_blotted _ (raiseWith_blotted (s := s.onAlarm a _) _ _ _ _ _ _ h)

/-! ### The parts of startMetering -/

/-- The device runs, and its first cycle begins at an instant; a folio cut there carries the image of this boundary. -/
def meteringBegun (line : Bool) (start : Nat) (s : State) : State :=
  let b : Stamp := ⟨s.tb.cycle, 0, s.calAt start⟩
  let startup := { s.dev.startup with metering := true, lineAtStart := line, calInvalid := !s.cld.valid }
  let tb := { s.tb with start := start, prevStart := start, boundary := b, prevBoundary := b, blkStart := b }
  let s1 := { s with dev := { s.dev with st := .run, startup := startup }, tb := tb }
  { s1 with fol := { s1.fol with ready := some s1.image } }

/-- What waits takes effect at the first boundary, and every interval opens there. -/
def meteringOpened (line : Bool) (start : Nat) (s : State) : State :=
  let s2 := (meteringBegun line start s).firstSettings.openAll
  { s2 with fol := { s2.fol with ready := none } }

/-- What follows UNMETERED: the alarms that fired on cell, and the display. -/
def cellAndPanel (s : State) : State := (chain (List.finRange 2) State.cellAlarm s).refreshDirty.startWaiting

theorem startMetering_eq (line : Bool) (start : Nat) (s : State) :
    s.startMetering line start = cellAndPanel (meteringOpened line start s).raiseUnmetered := by
  simp only [State.startMetering, cellAndPanel, meteringOpened, meteringBegun]

theorem meteringOpened_dev (line : Bool) (start : Nat) (s : State) :
    (meteringOpened line start s).dev = (meteringBegun line start s).dev := by
  rw [meteringOpened]
  dsimp only
  rw [openAll_dev]
  exact firstSettings_dev_run rfl

theorem meteringOpened_course (line : Bool) (start : Nat) (s : State) :
    course (meteringOpened line start s).tb = (s.tb.mode, s.tb.active, s.tb.period, start, s.tb.cycle) := by
  rw [meteringOpened]
  dsimp only
  rw [openAll_course, firstSettings_course]
  rfl

theorem cellAndPanel_dev_run {s : State} (h : s.dev.st = .run) : (cellAndPanel s).dev = s.dev := by
  rw [cellAndPanel, startWaiting_keeps State.dev (fun _ _ => rfl) (fun _ => rfl),
    refreshDirty_keeps State.dev (fun _ _ => rfl)]
  exact chain_dev_run (f := State.cellAlarm) _ (fun _ _ => cellAlarm_dev_run _) h

theorem cellAndPanel_tb (s : State) : (cellAndPanel s).tb = s.tb := by
  rw [cellAndPanel, startWaiting_tb, refreshDirty_tb, chain_tb _ _ _ cellAlarm_tb]

theorem cellAndPanel_blotted {m : BitVec 128} {s : State} (h : Blotted m s) : Blotted m (cellAndPanel s) := by
  refine blotted_congr ?_ (chain_blotted (List.finRange 2) (fun a _ => cellAlarm_blotted a) h)
  rw [cellAndPanel, startWaiting_keeps State.anv (fun _ _ => rfl) (fun _ => rfl),
    refreshDirty_keeps State.anv (fun _ _ => rfl)]

/-- UNMETERED leaves the device running and metering. -/
theorem raiseUnmetered_runs {s : State} (h : s.dev.st = .run) :
    s.raiseUnmetered.dev.st = .run ∧ s.raiseUnmetered.dev.startup.metering = s.dev.startup.metering := by
  unfold State.raiseUnmetered
  dsimp only
  split
  · exact ⟨h, rfl⟩
  · have hd : ∀ (b : Stamp) (d : List Byte), ((s.blot .unmetered).raiseWith .unmetered .device b true true d).dev = s.dev :=
      fun b d => raiseWith_dev_run (s := s.blot .unmetered) _ _ _ _ _ _ h
    simp only [State.phase, hd, h, and_self]

/-- After metering that the journal knows of, the time without it is marked and owed (R310). -/
theorem raiseUnmetered_owes {s : State} (hj : s.dev.startup.hadJournal = true) :
    s.raiseUnmetered.dev.startup.unmeteredDue = true ∧ Blotted (blotBit .unmetered) s.raiseUnmetered := by
  simp only [State.raiseUnmetered, hj, Bool.not_true, Bool.false_eq_true, if_false]
  exact ⟨rfl, raiseWith_blotted _ _ _ _ _ _ (blot_self _ _)⟩

/-! ### What startMetering leaves -/

theorem startMetering_runs (line : Bool) (start : Nat) (s : State) :
    (s.startMetering line start).dev.st = .run ∧ (s.startMetering line start).metering = true := by
  have hd := meteringOpened_dev line start s
  obtain ⟨h1, h2⟩ := raiseUnmetered_runs (s := meteringOpened line start s) (by rw [hd]; rfl)
  rw [State.metering, startMetering_eq, cellAndPanel_dev_run h1, h2, hd]
  exact ⟨h1, rfl⟩

theorem startMetering_course (line : Bool) (start : Nat) (s : State) :
    course (s.startMetering line start).tb = (s.tb.mode, s.tb.active, s.tb.period, start, s.tb.cycle) := by
  rw [startMetering_eq, cellAndPanel_tb, raiseUnmetered_tb, meteringOpened_course]

theorem startMetering_owes (line : Bool) (start : Nat) {s : State} (hj : s.dev.startup.hadJournal = true) :
    (s.startMetering line start).dev.startup.unmeteredDue = true ∧
      Blotted (blotBit .unmetered) (s.startMetering line start) := by
  have hd := meteringOpened_dev line start s
  obtain ⟨h1, h2⟩ := raiseUnmetered_owes (s := meteringOpened line start s) (by rw [hd]; exact hj)
  have hr := (raiseUnmetered_runs (s := meteringOpened line start s) (by rw [hd]; rfl)).1
  rw [startMetering_eq, cellAndPanel_dev_run hr]
  exact ⟨h1, cellAndPanel_blotted h2⟩

/-! ### FIRST_METERED_CYCLE and STARTUP_FREERUN_FALLBACK -/

/-- The timebase takes up a reference in ACQUIRE (R69, R283). -/
def onReference (x : FirstCycle) (s : State) : State :=
  { s with tb := { s.tb.hold x.period with
    mode := .acquire, active := x.ref, provisional := if x.ref = 8 then none else some x.ref } }

theorem onReference_course (x : FirstCycle) (s : State) :
    (onReference x s).tb.mode = .acquire ∧ (onReference x s).tb.active = x.ref ∧ (onReference x s).tb.period = x.period ∧
      (onReference x s).tb.cycle = s.tb.cycle := ⟨rfl, rfl, rfl, rfl⟩

theorem execFirstMeteredCycle_starts {x : FirstCycle} {s : State} (hc : s.canMeter = true) (hx : s.firstCycle = some x) :
    exec .firstMeteredCycle s = .next ((onReference x s).startMetering true x.start) := by
  simp only [exec, execFirstMeteredCycle, hc, hx, Bool.not_true, Bool.false_eq_true, if_false, onReference]

theorem firstMeteredCycle_meters {x : FirstCycle} {s : State} (hc : s.canMeter = true) (hx : s.firstCycle = some x) :
    ∃ t : State, exec .firstMeteredCycle s = .next t ∧ t.metering = true ∧ t.dev.st = .run ∧ t.tb.mode = .acquire ∧
      t.tb.active = x.ref ∧ t.tb.period = x.period ∧ t.tb.start = x.start ∧ t.tb.cycle = s.tb.cycle ∧
      (s.dev.startup.hadJournal = true → t.dev.startup.unmeteredDue = true ∧
        t.anv.blots &&& blotBit .unmetered = blotBit .unmetered) := by
  obtain ⟨hst, hm⟩ := startMetering_runs true x.start (onReference x s)
  have hcourse := startMetering_course true x.start (onReference x s)
  simp only [course, Prod.mk.injEq] at hcourse
  obtain ⟨hmode, hactive, hperiod, hstart, hcycle⟩ := hcourse
  exact ⟨_, execFirstMeteredCycle_starts hc hx, hm, hst, hmode, hactive, hperiod, hstart, hcycle,
    fun hj => startMetering_owes true x.start (s := onReference x s) hj⟩

/-- FREERUN stands, at the number of the cycle that runs; metering goes on (R72). -/
theorem enterFreerun_tb (s : State) : s.enterFreerun.tb.mode = .freerun ∧ s.enterFreerun.tb.active = 15 ∧
    s.enterFreerun.tb.cycle = s.tb.cycle := by
  rw [State.enterFreerun, raiseWith_tb]
  exact ⟨rfl, rfl, rfl⟩

theorem enterFreerun_dev_run {s : State} (h : s.dev.st = .run) : s.enterFreerun.dev = s.dev := by
  rw [State.enterFreerun]
  exact raiseWith_dev_run (s := State.blot .tbFreerun _) _ _ _ _ _ _ h

theorem enterFreerun_blotted (s : State) : Blotted (blotBit .tbFreerun) s.enterFreerun :=
  raiseWith_blotted _ _ _ _ _ _ (blot_self _ _)

/-- The timebase holds the nominal period. -/
def onNominal (s : State) : State := { s with tb := s.tb.hold (nominalPeriod s.tb.nomf60) }

theorem startupFreerunFallback_meters {s : State} (hc : s.canMeter = true) :
    ∃ t : State, exec .startupFreerunFallback s = .next t ∧ t.metering = true ∧ t.dev.st = .run ∧ t.tb.mode = .freerun ∧
      t.tb.active = 15 ∧ t.tb.cycle = s.tb.cycle ∧ t.anv.blots &&& blotBit .tbFreerun = blotBit .tbFreerun := by
  have hx : exec .startupFreerunFallback s = .next ((onNominal s).startMetering false s.clock).enterFreerun := by
    simp only [exec, execStartupFreerunFallback, hc, if_true, onNominal]
  obtain ⟨hst, hm⟩ := startMetering_runs false s.clock (onNominal s)
  have hd := enterFreerun_dev_run hst
  obtain ⟨hmode, hactive, hcycle⟩ := enterFreerun_tb ((onNominal s).startMetering false s.clock)
  have hcourse := startMetering_course false s.clock (onNominal s)
  simp only [course, Prod.mk.injEq] at hcourse
  obtain ⟨-, -, -, -, hcycle'⟩ := hcourse
  refine ⟨_, hx, ?_, ?_, hmode, hactive, hcycle.trans hcycle', enterFreerun_blotted _⟩
  · rw [State.metering, hd]; exact hm
  · rw [hd]; exact hst

end Sys2Proof.Scope
end

section
/-!
SUPPORT. What each phase of start-up leaves: the journal restored, the start-up test, and the configuration (R44, R109, R254, R259, R282,
R305, R314, R323).
-/
namespace Sys2Proof.Scope

open Sys2Proof.Machine Sys2Proof.Laws

/-! ### Events before and after the journal is restored (R65) -/

/-- Before the journal is restored an event is held. -/
theorem raise_held (e : Ev) (u : Subject) (d : List Byte) {s : State} (h : s.dev.startup.restored = false) :
    (s.raise e u d).ev.held.length = s.ev.held.length + 1 := by
  unfold State.raise State.raiseWith State.raiseAs
  simp only [h, Bool.false_eq_true, if_false, if_true]
  split <;> simp

theorem enter_next (e : Event) (s : State) : (s.enter e).ev.next = (s.ev.next + 1) % 2 ^ 48 := by
  unfold State.enter
  dsimp only
  repeat' split
  all_goals simp

theorem enter_held (e : Event) (s : State) : (s.enter e).ev.held = s.ev.held := by
  have h : ∀ x, (s.toLog x).ev.held = s.ev.held := by
    intro x
    unfold State.toLog
    dsimp only
    repeat' split
    all_goals rfl
  unfold State.enter
  dsimp only
  repeat' split
  all_goals simp [h]

/-- Each event entered takes the next number (R235). -/
theorem chain_enter_next (l : List Event) {s : State} (h : s.ev.next < 2 ^ 48) :
    (chain l State.enter s).ev.next = (s.ev.next + l.length) % 2 ^ 48 := by
  induction l generalizing s with
  | nil => exact (Nat.mod_eq_of_lt h).symm
  | cons e l ih =>
    have hn := enter_next e s
    refine (ih (hn ▸ Nat.mod_lt _ (by decide))).trans ?_
    rw [hn, List.length_cons, Nat.mod_add_mod, Nat.add_assoc, Nat.add_comm 1]

/-- The events held in start-up are entered, one after another. -/
theorem enterHeld_eq (s : State) : ∃ (l : List Event) (w : Option Nat), l.length = s.ev.held.length ∧ s.enterHeld =
    chain l State.enter { s with ev := { s.ev with held := [] }, pwr := { s.pwr with warnNo := w } } :=
  ⟨_, _, List.length_map _, rfl⟩

/-- A checkpoint changes the supply's part alone. -/
theorem writeCheckpoint_eq (s : State) : ∃ p, s.writeCheckpoint = { s with pwr := p } := by
  unfold State.writeCheckpoint
  split <;> exact ⟨_, rfl⟩

/-- A checkpoint into an erased sequence writes the present record, with its ceilings raised (R305). -/
theorem writeCheckpoint_records {s : State} (h : s.pwr.erased ≠ 0) : ∃ n, s.writeCheckpoint.pwr.records =
    { s.record s.raisedCeilings with seq := n } :: s.pwr.records := by
  unfold State.writeCheckpoint
  rw [if_neg h]
  exact ⟨_, rfl⟩

/-- What neither the checkpoint nor the entry of the held events touches. -/
theorem resumed_keeps {β : Type} (f : State → β) (he : ∀ e s, f (State.enter e s) = f s)
    (hu : ∀ (s : State) p v, f { s with pwr := p, ev := v } = f s) (s : State) : f s.writeCheckpoint.enterHeld = f s := by
  obtain ⟨l, w, -, hl⟩ := enterHeld_eq s.writeCheckpoint
  obtain ⟨p, hp⟩ := writeCheckpoint_eq s
  rw [hl, chain_keeps f l State.enter he, hp]
  exact hu s { p with warnNo := w } { s.ev with held := [] }

theorem resumed_records (s : State) : s.writeCheckpoint.enterHeld.pwr.records = s.writeCheckpoint.pwr.records := by
  obtain ⟨l, w, -, hl⟩ := enterHeld_eq s.writeCheckpoint
  rw [hl, chain_keeps (fun s => s.pwr.records) l State.enter (fun _ _ => by rw [enter_pwr])]

theorem resumed_held (s : State) : s.writeCheckpoint.enterHeld.ev.held = [] := by
  obtain ⟨l, w, -, hl⟩ := enterHeld_eq s.writeCheckpoint
  rw [hl, chain_keeps (fun s => s.ev.held) l State.enter enter_held]

theorem resumed_next {s : State} (h : s.ev.next < 2 ^ 48) :
    s.writeCheckpoint.enterHeld.ev.next = (s.ev.next + s.ev.held.length) % 2 ^ 48 := by
  obtain ⟨l, w, hlen, hl⟩ := enterHeld_eq s.writeCheckpoint
  obtain ⟨p, hp⟩ := writeCheckpoint_eq s
  rw [hp] at hlen
  rw [hl, hp]
  refine (chain_enter_next l ?_).trans ?_
  · exact h
  · rw [hlen]

theorem resumed_blotted {m : BitVec 128} {s : State} (h : Blotted m s) : Blotted m s.writeCheckpoint.enterHeld := by
  obtain ⟨l, w, -, hl⟩ := enterHeld_eq s.writeCheckpoint
  obtain ⟨p, hp⟩ := writeCheckpoint_eq s
  rw [hl, hp]
  exact chain_blotted l (fun e _ => enter_blotted e) h

/-! ### Records that fail (R259) -/

/-- The records that fail are reported, one after another. -/
def recordsReported (bad : List Word) (s : State) : State :=
  chain bad (fun a s => s.raise .inkUncorr .device (le 1 2 ++ zeros 3 ++ le 4 a.toNat)) s

theorem recordsReported_held (bad : List Word) {s : State} (h : s.dev.startup.restored = false) :
    (recordsReported bad s).ev.held.length = s.ev.held.length + bad.length := by
  induction bad generalizing s with
  | nil => rfl
  | cons a bad ih =>
    refine (ih (s := s.raise .inkUncorr .device (le 1 2 ++ zeros 3 ++ le 4 a.toNat)) (by rw [raise_dev_startup, h])).trans ?_
    rw [raise_held _ _ _ h, List.length_cons, Nat.add_assoc, Nat.add_comm 1]

theorem fallBack_eq (bad : List Word) (s : State) : s.fallBack bad = if bad.isEmpty then s
    else ((recordsReported bad s).blot .journalFallback).phase fun x => { x with unmeteredWhy := 3 } := rfl

theorem fallBack_pwr (bad : List Word) (s : State) : (s.fallBack bad).pwr = s.pwr := by
  rw [fallBack_eq]
  split
  · rfl
  · rw [phase_pwr, blot_pwr]
    exact chain_keeps State.pwr bad _ (fun _ _ => raise_pwr _ _ _ _) s

theorem fallBack_held (bad : List Word) {s : State} (h : s.dev.startup.restored = false) :
    (s.fallBack bad).ev.held.length = s.ev.held.length + bad.length := by
  rw [fallBack_eq]
  split
  · next hb => rw [List.isEmpty_iff.1 hb]; rfl
  · exact recordsReported_held bad h

theorem fallBack_marks {bad : List Word} (h : bad ≠ []) (s : State) :
    (s.fallBack bad).dev.startup.unmeteredWhy = 3 ∧ Blotted (blotBit .journalFallback) (s.fallBack bad) := by
  rw [fallBack_eq, if_neg fun hb => h (List.isEmpty_iff.1 hb)]
  exact ⟨rfl, blot_self _ _⟩

/-! ### JOURNAL_RESTORED (R109, R282, R305) -/

/-- The state of a record is restored, and the phase ends. -/
def recordRestored (r : JRec) (s : State) : State := (s.restoreRecord r).phaseEnds fun x => { x with restored := true }

theorem journalRestored_record {bad : List Word} {r : JRec} {rest : List JRec} {s : State}
    (h : s.pwr.records.drop bad.length = r :: rest) :
    s.journalRestored bad = (recordRestored r (s.fallBack bad)).writeCheckpoint.enterHeld := by
  simp only [State.journalRestored, fallBack_pwr, h, recordRestored]

/-- Every series resumes at the ceiling of the record, and the points and what is journalled with them are the record's. -/
theorem recordRestored_series (r : JRec) (s : State) :
    (recordRestored r s).dev.startup.restored = true ∧ (recordRestored r s).tb.cycle = r.ceilings.cycle ∧
      (recordRestored r s).fol.next = r.ceilings.folio ∧ (recordRestored r s).prof.next = r.ceilings.profile ∧
      (recordRestored r s).wb.next = wbResume r.ceilings.wb ∧ (recordRestored r s).pq.next = r.ceilings.cap ∧
      (recordRestored r s).ev.next = r.ceilings.event ∧ (recordRestored r s).pts = r.points ∧
      (recordRestored r s).mcal.everSet = r.everSet := ⟨rfl, rfl, rfl, rfl, rfl, rfl, rfl, rfl, rfl⟩

theorem recordRestored_keeps (r : JRec) (s : State) : (recordRestored r s).ev.held = s.ev.held ∧
    (recordRestored r s).dev.startup.unmeteredWhy = s.dev.startup.unmeteredWhy ∧
    (recordRestored r s).pwr.records = s.pwr.records ∧ (recordRestored r s).pwr.erased = s.pwr.erased := ⟨rfl, rfl, rfl, rfl⟩

theorem recordRestored_self (r : JRec) (s : State) : Blotted r.blots (recordRestored r s) := or_and_self _ _

theorem recordRestored_blotted {m : BitVec 128} (r : JRec) {s : State} (h : Blotted m s) : Blotted m (recordRestored r s) :=
  or_and_keep _ _ _ h

/-- The record that is written first takes the points as restored, and its ceilings lie a block above the record's. -/
theorem recordRestored_raised (r : JRec) (s : State) :
    (recordRestored r s).raisedCeilings.folio = r.ceilings.folio + 131072 ∧
      (recordRestored r s).raisedCeilings.event = r.ceilings.event + 1048576 ∧
      (recordRestored r s).raisedCeilings.profile = r.ceilings.profile + 4096 ∧
      (recordRestored r s).raisedCeilings.cap = r.ceilings.cap + 256 ∧
      (recordRestored r s).raisedCeilings.wb = wbResume r.ceilings.wb + 16384 := ⟨rfl, rfl, rfl, rfl, rfl⟩

theorem journalRestored_restores {bad : List Word} {r : JRec} {rest : List JRec} {s : State} (hs : s.starting = true)
    (hr : s.dev.startup.restored = false) (h : s.pwr.records.drop bad.length = r :: rest) :
    ∃ t : State, exec (.journalRestored bad) s = .next t ∧
      t.dev.startup.restored = true ∧ t.tb.cycle = r.ceilings.cycle ∧ t.fol.next = r.ceilings.folio ∧
      t.prof.next = r.ceilings.profile ∧ t.wb.next = (r.ceilings.wb + 7) / 8 * 8 ∧ t.pq.next = r.ceilings.cap ∧
      (r.ceilings.event < 2 ^ 48 → t.ev.next = (r.ceilings.event + s.ev.held.length + bad.length) % 2 ^ 48) ∧
      t.pts = r.points ∧ t.ev.held = [] ∧ t.mcal.everSet = r.everSet ∧ t.anv.blots &&& r.blots = r.blots ∧
      (bad ≠ [] → t.dev.startup.unmeteredWhy = 3 ∧
        t.anv.blots &&& blotBit .journalFallback = blotBit .journalFallback) ∧
      (s.pwr.erased ≠ 0 → ∃ x : JRec, t.pwr.records = x :: s.pwr.records ∧ x.pts = r.points ∧
        x.ceilings.folio = r.ceilings.folio + 131072 ∧ x.ceilings.event = r.ceilings.event + 1048576 ∧
        x.ceilings.profile = r.ceilings.profile + 4096 ∧ x.ceilings.cap = r.ceilings.cap + 256 ∧
        x.ceilings.wb = (r.ceilings.wb + 7) / 8 * 8 + 16384) := by
  have hx : exec (.journalRestored bad) s = .next (recordRestored r (s.fallBack bad)).writeCheckpoint.enterHeld := by
    simp only [exec, execJournalRestored, hs, hr, Bool.not_false, Bool.and_self, if_true, journalRestored_record h]
  obtain ⟨hdone, hcycle, hfolio, hprofile, hwb, hcap, hevent, hpts, hever⟩ := recordRestored_series r (s.fallBack bad)
  obtain ⟨hheld, hwhy, hrecords, herased⟩ := recordRestored_keeps r (s.fallBack bad)
  have hstartup := resumed_keeps (fun s => s.dev.startup) (fun _ _ => enter_dev_startup _ _) (fun _ _ _ => rfl)
    (recordRestored r (s.fallBack bad))
  refine ⟨_, hx, ?_, ?_, ?_, ?_, ?_, ?_, fun hlt => ?_, ?_, resumed_held _, ?_, ?_, fun hb => ⟨?_, ?_⟩, fun he => ?_⟩
  · rw [hstartup, hdone]
  · rw [resumed_keeps State.tb (fun _ _ => enter_tb _ _) (fun _ _ _ => rfl), hcycle]
  · rw [resumed_keeps State.fol (fun _ _ => enter_fol _ _) (fun _ _ _ => rfl), hfolio]
  · rw [resumed_keeps State.prof (fun _ _ => enter_prof _ _) (fun _ _ _ => rfl), hprofile]
  · rw [resumed_keeps State.wb (fun _ _ => enter_wb _ _) (fun _ _ _ => rfl), hwb, wbResume]
  · rw [resumed_keeps State.pq (fun _ _ => enter_pq _ _) (fun _ _ _ => rfl), hcap]
  · rw [resumed_next (hevent ▸ hlt), hevent, hheld, fallBack_held bad hr, Nat.add_assoc]
  · rw [resumed_keeps State.pts (fun _ _ => enter_pts _ _) (fun _ _ _ => rfl), hpts]
  · rw [resumed_keeps State.mcal (fun _ _ => enter_mcal _ _) (fun _ _ _ => rfl), hever]
  · exact resumed_blotted (recordRestored_self _ _)
  · rw [hstartup, hwhy]
    exact (fallBack_marks hb s).1
  · exact resumed_blotted (recordRestored_blotted _ (fallBack_marks hb s).2)
  · obtain ⟨n, hn⟩ := writeCheckpoint_records (s := recordRestored r (s.fallBack bad)) (by rw [herased, fallBack_pwr]; exact he)
    rw [hrecords, fallBack_pwr] at hn
    exact ⟨_, (resumed_records _).trans hn, hpts, recordRestored_raised r (s.fallBack bad)⟩

end Sys2Proof.Scope
end

section
/-!
SUPPORT. The start-up test of the modulators and of the engine copies (R44, R254).
-/
namespace Sys2Proof.Scope

open Sys2Proof.Machine Sys2Proof.Laws

/-! ### One effect of a chain -/

/-- Effects none of which changes the state leave it. -/
theorem chain_idle {α : Type} (l : List α) {f : α → State → State} (hf : ∀ a s, f a s = s) (s : State) : chain l f s = s :=
  chain_keeps id l f hf s

/-- Of effects of which one alone changes the state, that one is left. -/
theorem chain_single {α : Type} {a : α} {f : α → State → State} (hf : ∀ b, b ≠ a → ∀ s, f b s = s) (l : List α)
    (hl : l.Nodup) (ha : a ∈ l) (s : State) : chain l f s = f a s := by
  induction l generalizing s with
  | nil => cases ha
  | cons b l ih =>
    obtain ⟨hb, hn⟩ := List.nodup_cons.1 hl
    by_cases h : b = a
    · subst h
      exact chain_keeps_mem id l f (fun c hc s => hf c (fun e => hb (e ▸ hc)) s) (f b s)
    · refine (ih hn ((List.mem_cons.1 ha).resolve_left (Ne.symm h)) (f b s)).trans ?_
      rw [hf b h]

/-! ### The modulators that fail (R37, R44) -/

theorem testSpare_passed {failed : List Nat} {g : Fin 34} (h : (spareSlot g).val ∉ failed) (s : State) :
    s.testSpare failed g = s := by
  simp only [State.testSpare, List.contains_iff_mem, h, if_false]

theorem testChan_passed {failed : List Nat} {k : Fin 136} (h : k.val ∉ failed) (s : State) : s.testChan failed k = s := by
  have hn : failed.contains k.val = false := by simpa using h
  simp only [State.testChan, hn, Bool.not_false, Bool.true_or, if_true]

/-- The slot of a spare is no channel's. -/
theorem spareSlot_ne (g : Fin 34) (k : Fin 136) : (spareSlot g).val ≠ k.val := by
  simp only [spareSlot]
  omega

/-- A working modulator that fails goes on its free spare, as FORCE_SPARE puts it there. -/
theorem testChan_failed {failed : List Nat} {k : Fin 136} {s : State} (h : k.val ∈ failed)
    (hc : s.chans[k].inService = true) (hs : s.chans[k].splicing = false) (hf : s.spareFree (groupOf k) = true) :
    s.testChan failed k = s.forceSpare k := by
  have hm : failed.contains k.val = true := List.contains_iff_mem.2 h
  simp only [forceSpare_acts hc hs hf, State.testChan, hm, hc, hs, hf, Bool.not_true, Bool.or_self, Bool.false_eq_true,
    if_false, if_true]

/-- The modulators tested, spares first. -/
def modulatorsTested (failed : List Nat) (s : State) : State :=
  chain allChans (State.testChan failed) (chain (List.finRange 34) (State.testSpare failed) s)

theorem modulatorsTested_passed (s : State) : modulatorsTested [] s = s := by
  rw [modulatorsTested, chain_idle _ fun _ => testSpare_passed List.not_mem_nil]
  exact chain_idle _ (fun _ => testChan_passed List.not_mem_nil) s

theorem modulatorsTested_one {k : Fin 136} {s : State} (hc : s.chans[k].inService = true)
    (hs : s.chans[k].splicing = false) (hf : s.spareFree (groupOf k) = true) :
    modulatorsTested [k.val] s = s.forceSpare k := by
  have hother : ∀ j, j ≠ k → ∀ s : State, s.testChan [k.val] j = s := fun j hj =>
    testChan_passed fun h => hj (Fin.ext (List.mem_singleton.1 h))
  rw [modulatorsTested, chain_idle _ fun g => testSpare_passed fun h => spareSlot_ne g k (List.mem_singleton.1 h),
    chain_single hother allChans (List.nodup_finRange 136) (List.mem_finRange k), testChan_failed (List.mem_singleton_self _) hc hs hf]

/-! ### The engine copies that fail (R254) -/

theorem testEngines_chans (comb met : Option (Fin 2)) (s : State) : (s.testEngines comb met).chans = s.chans := by
  unfold State.testEngines
  cases comb <;> cases met <;> simp

theorem testEngines_spares (comb met : Option (Fin 2)) (s : State) : (s.testEngines comb met).spares = s.spares := by
  unfold State.testEngines
  cases comb <;> cases met <;> simp

/-- A comb copy that fails is fenced and reported. -/
theorem testEngines_comb (c : Fin 2) (s : State) : (s.testEngines (some c) none).flt.combFenced = some c ∧
    Blotted (blotBit .engCombSimplex) (s.testEngines (some c) none) := by
  refine ⟨?_, note_self _ _ _ _ _⟩
  simp only [State.testEngines, note_flt]

/-! ### START_UP_TEST -/

/-- The test has ended. -/
def tested (failed : List Nat) (comb met : Option (Fin 2)) (s : State) : State :=
  ((modulatorsTested failed s).testEngines comb met).phaseEnds fun x => { x with tested := true }

theorem execStartUpTest_runs (failed : List Nat) (comb met : Option (Fin 2)) {s : State} (hs : s.starting = true)
    (ht : s.dev.startup.tested = false) : exec (.startUpTest failed comb met) s = .next (tested failed comb met s) := by
  simp only [exec, execStartUpTest, hs, ht, Bool.not_true, Bool.or_self, Bool.false_eq_true, if_false, tested,
    modulatorsTested]

theorem tested_chans (failed : List Nat) (comb met : Option (Fin 2)) (s : State) :
    (tested failed comb met s).chans = (modulatorsTested failed s).chans := testEngines_chans _ _ _

theorem tested_spares (failed : List Nat) (comb met : Option (Fin 2)) (s : State) :
    (tested failed comb met s).spares = (modulatorsTested failed s).spares := testEngines_spares _ _ _

/-- A comb copy that fails leaves its simplex mark. -/
theorem tested_comb (failed : List Nat) (c : Fin 2) (s : State) : (tested failed (some c) none s).flt.combFenced = some c ∧
    Blotted (blotBit .engCombSimplex) (tested failed (some c) none s) := by
  obtain ⟨hflt, hblot⟩ := testEngines_comb c (modulatorsTested failed s)
  exact ⟨hflt, blotted_congr rfl hblot⟩

theorem startUpTest_tests {s : State} (hs : s.starting = true) (ht : s.dev.startup.tested = false) :
    (∃ t : State, exec (.startUpTest [] none none) s = .next t ∧ t.dev.startup.tested = true ∧ t.chans = s.chans ∧
      t.spares = s.spares) ∧
    (∀ c : Fin 2, ∃ t : State, exec (.startUpTest [] (some c) none) s = .next t ∧ t.dev.startup.tested = true ∧
      t.flt.combFenced = some c ∧ t.anv.blots &&& blotBit .engCombSimplex = blotBit .engCombSimplex) ∧
    ∀ k : Fin 136, s.chans[k].inService = true → s.chans[k].splicing = false → s.spareFree (groupOf k) = true →
      ∃ t : State, exec (.startUpTest [k.val] none none) s = .next t ∧
      t.chans[k].st = .substituted ∧ t.spares[groupOf k].st = .substituting ∧ ∀ j, groupOf j ≠ groupOf k →
        t.chans[j] = s.chans[j] := by
  refine ⟨⟨_, execStartUpTest_runs _ _ _ hs ht, rfl, ?_, ?_⟩, fun c => ⟨_, execStartUpTest_runs _ _ _ hs ht, rfl, ?_⟩,
    fun k hc hsp hf => ⟨_, execStartUpTest_runs _ _ _ hs ht, ?_⟩⟩
  · rw [tested_chans, modulatorsTested_passed]
  · rw [tested_spares, modulatorsTested_passed]
  · exact tested_comb [] c s
  · have hm : modulatorsTested [k.val] s = (s.takeSpare k).substituted k 0 0 s.clock :=
      (modulatorsTested_one hc hsp hf).trans (forceSpare_acts hc hsp hf)
    rw [tested_chans, tested_spares, hm, substituted_spares]
    refine ⟨?_, (takeSpare_spare k s).1, fun j hj => ?_⟩
    · rw [substituted_chan]
      rfl
    · rw [substituted_other _ _ _ _ (ne_of_groupOf_ne rfl hj), takeSpare_other s hj]

end Sys2Proof.Scope
end

section
/-!
SUPPORT. The configuration restored (R259, R314, R323), and what each step of start-up does, up to the first metered cycle.
-/
namespace Sys2Proof.Scope

open Sys2Proof.Machine Sys2Proof.Laws

/-! ### The log completed (R326) -/

theorem logRecord_keeps (body : List Byte) (a : Anvil) :
    (a.logRecord body).up = a.up ∧ (a.logRecord body).blots = a.blots := by
  unfold Anvil.logRecord
  dsimp only
  split <;> exact ⟨rfl, rfl⟩

theorem logEvent_keeps (e : Event) (a : Anvil) : (a.logEvent e).up = a.up ∧ (a.logEvent e).blots = a.blots := by
  have h : ∀ (l : List Nat) (a : Anvil),
      (l.foldl (fun a i => a.logRecord ((e.bytes.drop (32 * i + 6)).take 26)) a).up = a.up ∧
        (l.foldl (fun a i => a.logRecord ((e.bytes.drop (32 * i + 6)).take 26)) a).blots = a.blots := by
    intro l
    induction l with
    | nil => exact fun a => ⟨rfl, rfl⟩
    | cons i l ih =>
      intro a
      obtain ⟨hup, hblots⟩ := ih (a.logRecord ((e.bytes.drop (32 * i + 6)).take 26))
      obtain ⟨hup', hblots'⟩ := logRecord_keeps ((e.bytes.drop (32 * i + 6)).take 26) a
      exact ⟨hup.trans hup', hblots.trans hblots'⟩
  exact h _ a

/-- Completing a group of the log changes Anvil's part alone, and there neither the cores nor the blot bits. -/
theorem fillLog_eq (n : Nat) (s : State) :
    ∃ a, s.fillLog n = { s with anv := a } ∧ a.up = s.anv.up ∧ a.blots = s.anv.blots := by
  induction n generalizing s with
  | zero => exact ⟨s.anv, rfl, rfl, rfl⟩
  | succ n ih =>
    unfold State.fillLog
    split
    · exact ⟨s.anv, rfl, rfl, rfl⟩
    · dsimp only
      obtain ⟨a, ha, hup, hblots⟩ := ih { s with anv := s.anv.logEvent _ }
      obtain ⟨hup', hblots'⟩ := logEvent_keeps _ s.anv
      exact ⟨a, ha, hup.trans hup', hblots.trans hblots'⟩

/-! ### The restore ends (R282, R300, R358) -/

/-- The configuration is done, and the cores run or restart. -/
def restoreEnded (up : Bool) (s : State) : State :=
  { s.phase fun x => { x with configDone := true } with anv := { s.anv with up := up, fillDue := s.pwr.pfail } }

/-- The log is completed, once no warning suspends it. -/
def logCompleted (s : State) : State := if s.pwr.pfail then s else s.fillLog 8

theorem configured_eq (up : Bool) (s : State) : s.configured up = (logCompleted (restoreEnded up s)).cellReplay.route := rfl

theorem logCompleted_eq (s : State) :
    ∃ a, logCompleted s = { s with anv := a } ∧ a.up = s.anv.up ∧ a.blots = s.anv.blots := by
  unfold logCompleted
  split
  · exact ⟨s.anv, rfl, rfl, rfl⟩
  · exact fillLog_eq 8 s

/-- The entry of the cell list keeps what the entry of an event and a pending source keep. -/
theorem cellReplay_keeps {β : Type} (f : State → β)
    (hr : ∀ (a : Stamp) (d : List Byte) (s : State), f (s.raiseWith .grdSource .device a true true d) = f s)
    (hp : ∀ n s, f (State.pendInt n s) = f s) (hg : ∀ (g : Guard) (s : State), f { s with grd := g } = f s) (s : State) :
    f s.cellReplay = f s :=
  (chain_keeps f _ _ (fun _ _ => (hp _ _).trans (hr _ _ _)) _).trans (hg _ s)

theorem cellReplay_blotted {m : BitVec 128} {s : State} (h : Blotted m s) : Blotted m s.cellReplay :=
  chain_blotted s.grd.list (s := { s with grd := { s.grd with list := [] } })
    (fun _ _ hs => pendInt_blotted _ (raiseWith_blotted _ _ _ _ _ _ hs)) h

/-- What the end of the restore leaves: the phase done, the cores as told, the display's tables as they were. -/
theorem configured_ends (up : Bool) (s : State) : (s.configured up).dev.startup.configDone = true ∧
    (s.configured up).anv.up = up ∧ (s.configured up).pnl = s.pnl := by
  obtain ⟨a, ha, hup, -⟩ := logCompleted_eq (restoreEnded up s)
  rw [configured_eq, route_dev, route_anv, route_pnl, ha,
    cellReplay_keeps (fun s => s.dev.startup) (fun _ _ _ => raiseWith_dev_startup _ _ _ _ _ _ _)
      (fun _ _ => pendInt_dev_startup _ _) (fun _ _ => rfl),
    cellReplay_keeps (fun s => s.anv.up) (fun _ _ _ => raiseWith_anv_up _ _ _ _ _ _ _)
      (fun n s => congrArg Anvil.up (pendInt_anv n s)) (fun _ _ => rfl),
    cellReplay_keeps State.pnl (fun _ _ _ => raiseWith_pnl _ _ _ _ _ _ _) (fun _ _ => pendInt_pnl _ _) (fun _ _ => rfl)]
  exact ⟨rfl, hup, rfl⟩

theorem configured_blotted {m : BitVec 128} (up : Bool) {s : State} (h : Blotted m s) : Blotted m (s.configured up) := by
  obtain ⟨a, ha, -, hblots⟩ := logCompleted_eq (restoreEnded up s)
  have hm : Blotted m (logCompleted (restoreEnded up s)) := by
    rw [Blotted, ha, hblots]
    exact h
  rw [configured_eq]
  exact blotted_congr (route_anv _) (cellReplay_blotted hm)

/-! ### The words and tables of an image (R323) -/

@[simp] theorem reshade_pnl (g : Fin 34) (s : State) : (s.reshade g).pnl = s.pnl :=
  chain_keeps State.pnl _ (fun k s => s.onChan k (Chan.shade s.clock s.spares[g] k)) (fun _ _ => rfl) s

@[simp] theorem advanceSpare_pnl (g : Fin 34) (s : State) : (s.advanceSpare g).pnl = s.pnl := by
  unfold State.advanceSpare
  rw [reshade_pnl]
  split <;> rfl

@[simp] theorem spareTrim_pnl (g : Fin 34) (s : State) : (s.spareTrim g).pnl = s.pnl := by
  unfold State.spareTrim State.setModTrim State.trimNote
  dsimp only
  repeat' split
  all_goals simp

theorem spareBoundary_pnl (g : Fin 34) (s : State) : (s.spareBoundary g).pnl = s.pnl := by
  unfold State.spareBoundary
  dsimp only
  repeat' split
  all_goals simp [State.connectSpare]

theorem applyImage_applies (words : Regs) (tables : List (Nat × Nat × List Byte)) (s : State) :
    (s.applyImage words tables).cfg = consistent words ∧ (s.applyImage words tables).eff = consistent words ∧
      (s.applyImage words tables).pnl.tables = tables := by
  unfold State.applyImage
  dsimp only
  rw [chain_cfg _ _ _ flushTarget_cfg, chain_cfg _ _ _ spareBoundary_cfg, chain_eff _ _ _ flushTarget_eff,
    chain_eff _ _ _ spareBoundary_eff, chain_keeps State.pnl _ _ flushTarget_pnl,
    chain_keeps State.pnl _ _ spareBoundary_pnl]
  exact ⟨rfl, rfl, rfl⟩

/-! ### CONFIG_RESTORE and CFG_RESTORE_FAIL -/

/-- The image chosen is in force, or without one every word has its reset value. -/
def imageApplied (s : State) : State :=
  match s.anv.images.find? CfgImage.valid with
  | some i => s.applyImage i.words i.tables
  | none =>
    let s2 := { s with cfg := [], eff := [] }
    if s.anv.images.isEmpty then s2 else s2.blot .cfgRestoreFail

theorem configRestore_eq (s : State) : s.configRestore none none = (imageApplied s).configured true := rfl

theorem imageApplied_valid {i : CfgImage} {s : State} (h : s.anv.images.find? CfgImage.valid = some i) :
    imageApplied s = s.applyImage i.words i.tables := by
  simp only [imageApplied, h]

theorem imageApplied_reset {s : State} (h : s.anv.images.find? CfgImage.valid = none) :
    (imageApplied s).cfg = [] ∧ (imageApplied s).eff = [] := by
  simp only [imageApplied, h]
  split <;> exact ⟨rfl, rfl⟩

theorem configRestore_restores {s : State} (hs : s.starting = true) (hd : s.dev.startup.configDone = false) :
    (s.pwr.pfail = true → exec (.configRestore none none) s = .next s) ∧
    (∀ i : CfgImage, s.pwr.pfail = false → s.anv.images.find? CfgImage.valid = some i → ∃ t : State,
      exec (.configRestore none none) s = .next t ∧ t.cfg = consistent i.words ∧ t.eff = consistent i.words ∧
      t.pnl.tables = i.tables ∧ t.dev.startup.configDone = true ∧ t.anv.up = true) ∧
    (s.pwr.pfail = false → s.anv.images.find? CfgImage.valid = none → ∃ t : State,
      exec (.configRestore none none) s = .next t ∧ t.cfg = [] ∧ t.eff = [] ∧
      t.dev.startup.configDone = true ∧ t.anv.up = true) := by
  have hx : s.pwr.pfail = false → exec (.configRestore none none) s = .next ((imageApplied s).configured true) := by
    intro hp
    simp only [exec, execConfigRestore, hs, hd, hp, Bool.not_false, Bool.and_self, if_true, configRestore_eq]
  obtain ⟨hdone, hup, hpnl⟩ := configured_ends true (imageApplied s)
  refine ⟨fun hp => ?_, fun i hp hi => ⟨_, hx hp, ?_⟩, fun hp hi => ⟨_, hx hp, ?_⟩⟩
  · simp only [exec, execConfigRestore, hp, Bool.not_true, Bool.and_false, Bool.false_eq_true, if_false]
  · obtain ⟨hcfg, heff, htables⟩ := applyImage_applies i.words i.tables s
    rw [configured_cfg, configured_eff, hpnl, imageApplied_valid hi]
    exact ⟨hcfg, heff, htables, imageApplied_valid hi ▸ hdone, imageApplied_valid hi ▸ hup⟩
  · obtain ⟨hcfg, heff⟩ := imageApplied_reset hi
    rw [configured_cfg, configured_eff]
    exact ⟨hcfg, heff, hdone, hup⟩

theorem cfgRestoreFail_resets {s : State} (hs : s.starting = true) (hd : s.dev.startup.configDone = false) :
    ∃ t : State, exec .cfgRestoreFail s = .next t ∧ t.cfg = [] ∧ t.eff = [] ∧ t.dev.startup.configDone = true ∧
      t.anv.up = false ∧ t.anv.blots &&& blotBit .cfgRestoreFail = blotBit .cfgRestoreFail := by
  have hx : exec .cfgRestoreFail s =
      .next ((({ s with cfg := [], eff := [] } : State).blot .cfgRestoreFail).configured false) := by
    simp only [exec, execCfgRestoreFail, hs, hd, Bool.not_false, Bool.and_self, if_true]
  obtain ⟨hdone, hup, -⟩ := configured_ends false (({ s with cfg := [], eff := [] } : State).blot .cfgRestoreFail)
  exact ⟨_, hx, configured_cfg _ _, configured_eff _ _, hdone, hup, configured_blotted _ (blot_self _ _)⟩

/-! ### PORTS_READY and STARTUP_READY (R204, R282) -/

theorem portsReady_opens {s : State} (hs : s.starting = true) : exec .portsReady s =
    .next (({ s with grd := { s.grd with glitchOn := s.grd.glitchOn || !s.pwr.pfail } }).phase fun x =>
      { x with portsReady := true }) := by
  simp only [exec, execPortsReady, hs, if_true, State.phaseEnds]

theorem startupReady_searches {s : State} (hs : s.starting = true) (ht : s.dev.startup.tested = true)
    (hc : s.dev.startup.configDone = true) (hp : s.dev.startup.pathReady = false) : exec .startupReady s =
    .next (({ s with tb := { s.tb with acq := Vector.replicate 8 .reset } }).phase fun x => { x with pathReady := true }) := by
  simp only [exec, execStartupReady, hs, ht, hc, hp, Bool.not_false, Bool.and_self, if_true]

/-- Settles O45, phase by phase. -/
theorem startupRowsComplete : Obligations.StartupRowsComplete := by
  refine ⟨fun bad r rest s hs hr h => journalRestored_restores hs hr h, fun s hs ht => startUpTest_tests hs ht,
    fun s hs => portsReady_opens hs, fun s hs hd => ?_, fun s hs ht hc hp => startupReady_searches hs ht hc hp,
    fun x s hc hx => firstMeteredCycle_meters hc hx, fun s hc => startupFreerunFallback_meters hc⟩
  obtain ⟨hheld, hvalid, hreset⟩ := configRestore_restores hs hd
  exact ⟨hheld, hvalid, hreset, cfgRestoreFail_resets hs hd⟩

end Sys2Proof.Scope
end

section
/-!
SUPPORT. By which orders a frame's comb outputs are delivered (R46, R48, R51): by those that its checks leave, so that a spare that a
failing channel calls to itself delivers the same frame by the order of that channel (R34, R36).
-/
namespace Sys2Proof.Scope

open Sys2Proof.Machine Sys2Proof.Laws

/-! ### The delivery of a frame (R48, R51) -/

/-- The frame up to its delivery: every slot has latched and been checked, and the copies have been compared (R51, R252). -/
def frameChecked (l : List Latch) (d : List Nat) (again : Bool) (x : Fin 2) (s : State) : State :=
  (chain ((List.finRange 170).map fun n => (n, s.latchOf l n)) (State.slotCheck s.slots) (s.latchSlots l)).combCompare d again x

@[simp] theorem frameLines_slots (s : State) : s.frameLines.slots = s.slots := by simp only [State.frameLines]

@[simp] theorem survey_slots (s : State) : s.survey.slots = s.slots := by simp only [State.survey]

@[simp] theorem relockFrame_slots (s : State) : s.relockFrame.slots = s.slots := by
  unfold State.relockFrame
  split
  · rfl
  · dsimp only
    split <;> rfl

@[simp] theorem takePins_slots (s : State) : s.takePins.slots = s.slots := by
  unfold State.takePins
  split <;> rfl

@[simp] theorem handOffFrame_slots (s : State) : s.handOffFrame.slots = s.slots := by
  unfold State.handOffFrame State.acquire
  dsimp only
  split <;> rfl

theorem combFrame_slots (l : List Latch) (d : List Nat) (again : Bool) (x : Fin 2) (s : State) :
    (s.combFrame l d again x).slots = (frameChecked l d again x s).deliverSlots.slots := by
  unfold State.combFrame
  dsimp only
  split <;> simp [frameChecked]

theorem combFrame_slot (l : List Latch) (d : List Nat) (again : Bool) (x : Fin 2) (s : State) (n : Fin 170) :
    let u := frameChecked l d again x s
    (s.combFrame l d again x).slots[n] = u.slots[n].deliver (u.slotOrder n) u.flt.combStop := by
  simp only [combFrame_slots, State.deliverSlots, Fin.getElem_fin, Vector.getElem_ofFn]

theorem combFrame_powered {s : State} (hs : s.powered = true) (l : List Latch) (d : List Nat) (again : Bool) (x : Fin 2) :
    exec (.combFrame l d again x) s = .next (s.combFrame l d again x) := by
  simp only [exec, execCombFrame, hs, if_true]

/-! ### A spare called within the frame (R34, R36, R51) -/

/-- The spare of group 0 stands on channel 0, of order 4; channel 1, of order 5, has failed its check once. -/
def spareCalled : State :=
  { State.reset with
    eff := [((Reg.ch 1 .filt).addr, 0x905)]
    slots := (State.reset.slots.set 1 { Slot.reset with fails := 1 }).set 136
      { Slot.reset with hist := List.replicate 4 ⟨0, true, 0⟩ ++ [⟨1, true, 0⟩] } }

/-- A frame in which the latched value of channel 1 fails its parity again. -/
def failedAgain : List Latch := [⟨[], true, 0⟩, ⟨[], false, 0⟩]

/-- The slot of that spare once it has latched this frame. -/
def calledSlot : Slot :=
  spareCalled.slots[(136 : Fin 170)].latch (spareCalled.slotOrder 136) spareCalled.flt.frames (spareCalled.latchOf failedAgain 136)

theorem calledSlot_outs : (calledSlot.deliver 4 false).outs = [some 0] ∧ (calledSlot.deliver 5 false).outs = [some (-1)] := by
  decide +kernel

theorem spareCalled_standsOnOrderFour : spareCalled.slotOrder 136 = 4 := by decide +kernel

/-- The second failed check is a hard fault, which moves the spare to channel 1 before the frame is delivered. -/
theorem spareCalled_movesToOrderFive : let u := frameChecked failedAgain [] false 0 spareCalled
    u.slotOrder 136 = 5 ∧ u.flt.combStop = false ∧ u.slots[(136 : Fin 170)] = calledSlot := by
  decide +kernel

/-- Refutes O34: the second frame in a row that fails its check calls the spare from a channel of order 4 to one of order 5 within the
frame, and its slot delivers by order 5, not by its order before the frame. -/
theorem not_engineRowsComplete : ¬ Obligations.EngineRowsComplete := by
  intro h
  obtain ⟨t, ht, -, -, -, hstop, hslots, -⟩ := h.1 failedAgain [] false 0 spareCalled rfl
  obtain rfl : spareCalled.combFrame failedAgain [] false 0 = t :=
    Host.Outcome.next.inj ((combFrame_powered rfl failedAgain [] false 0).symm.trans ht)
  obtain ⟨horder, hheld, hslot⟩ := spareCalled_movesToOrderFive
  have hmodel := combFrame_slot failedAgain [] false 0 spareCalled 136
  have hclaim := hslots 136
  simp only [horder, hheld, hslot] at hmodel
  rw [hmodel, hstop, spareCalled_standsOnOrderFour] at hclaim
  have houts := congrArg Slot.outs hclaim
  exact absurd (calledSlot_outs.2.symm.trans (houts.trans calledSlot_outs.1)) (by decide)

end Sys2Proof.Scope
end

section
/-!
SUPPORT. The operations of a cycle closure up to its boundary leave the calibration and the supply as they were: what waits for the
boundary (R127, R132) and a power-fail warning (R229).
-/
namespace Sys2Proof.Scope

open Sys2Proof.Machine Sys2Proof.Laws

/-- Calibration, what waits with it, and the supply stand as they were. -/
@[simp] abbrev SameControl (s t : State) : Prop := t.mcal = s.mcal ∧ t.pwr = s.pwr

theorem SameControl.trans {s t u : State} (h : SameControl s t) (h' : SameControl t u) : SameControl s u :=
  ⟨h'.1.trans h.1, h'.2.trans h.2⟩

@[simp] theorem ite_mcal (c : Prop) [Decidable c] (a b : State) : (if c then a else b).mcal = if c then a.mcal else b.mcal :=
  apply_ite State.mcal c a b

@[simp] theorem ite_pwr (c : Prop) [Decidable c] (a b : State) : (if c then a else b).pwr = if c then a.pwr else b.pwr :=
  apply_ite State.pwr c a b

@[simp] theorem chain_control {α : Type} (l : List α) (f : α → State → State) (s : State) (h : ∀ a s, SameControl s (f a s)) :
    SameControl s (chain l f s) :=
  ⟨chain_keeps State.mcal l f (fun a s => (h a s).1) s, chain_keeps State.pwr l f (fun a s => (h a s).2) s⟩

/-! ### Accumulator words (R255, R256) -/

@[simp] theorem reloadCell_control (n x s) : SameControl s (State.reloadCell n x s) := by
  unfold State.reloadCell; split <;> simp

@[simp] theorem lostInterval_control (s) : SameControl s (State.lostInterval s) := by simp [State.lostInterval]

@[simp] theorem accLost_control (x s) : SameControl s (State.accLost x s) := by
  unfold State.accLost; dsimp only; split <;> simp [State.fresh]

@[simp] theorem accError_control (errs e s) : SameControl s (State.accError errs e s) := by
  unfold State.accError; dsimp only; (repeat' split) <;> simp [State.fenceBank, State.rewrite]

@[simp] theorem accErrors_control (errs s) : SameControl s (State.accErrors errs s) := chain_control _ _ _ (accError_control errs)

/-! ### Quantities of the cycle (R84) -/

@[simp] theorem noteCommit_control (s) : SameControl s (State.noteCommit s) := by simp [State.noteCommit]
@[simp] theorem dropOldWindows_control (s) : SameControl s (State.dropOldWindows s) := by simp [State.dropOldWindows]
@[simp] theorem markSteps_control (s) : SameControl s (State.markSteps s) := by simp [State.markSteps]

@[simp] theorem book_control (p at_ l s) : SameControl s (State.book p at_ l s) := by
  unfold State.book; dsimp only; split <;> simp

@[simp] theorem closePoint_control (p s) : SameControl s (State.closePoint p s) := by
  unfold State.closePoint; dsimp only; (repeat' split) <;> simp

@[simp] theorem closeBalance_control (b s) : SameControl s (State.closeBalance b s) := by
  unfold State.closeBalance; split <;> simp

@[simp] theorem closeDc_control (k s) : SameControl s (State.closeDc k s) := by simp [State.closeDc]

@[simp] theorem pulseClose_control (n s) : SameControl s (State.pulseClose n s) := by simp [State.pulseClose]

@[simp] theorem detected_control (rank e subj detail old new s) :
    SameControl s (State.detected rank e subj detail old new s) := by
  simp [State.detected, State.due]

@[simp] theorem neutralLost_control (b s) : SameControl s (State.neutralLost b s) := by simp [State.neutralLost]

@[simp] theorem neutralBypass_control (p s) : SameControl s (State.neutralBypass p s) := by
  unfold State.neutralBypass; split <;> simp

@[simp] theorem reverseFlow_control (p s) : SameControl s (State.reverseFlow p s) := by simp [State.reverseFlow, State.due]

@[simp] theorem cycleDetectors_control (s) : SameControl s (State.cycleDetectors s) := by simp [State.cycleDetectors]
@[simp] theorem channelsToBlock_control (s) : SameControl s (State.channelsToBlock s) := by simp [State.channelsToBlock]

@[simp] theorem closeQuantities_control (errs s) : SameControl s (State.closeQuantities errs s) := by
  simp [State.closeQuantities]

/-! ### The boundary's image, the timebase and the events of power quality -/

@[simp] theorem boundaryImage_control (raised s) : SameControl s (State.boundaryImage raised s) := by simp [State.boundaryImage]

@[simp] theorem switchRef_control (ref frozen s) : SameControl s (State.switchRef ref frozen s) := by simp [State.switchRef]
@[simp] theorem enterFreerun_control (s) : SameControl s (State.enterFreerun s) := by simp [State.enterFreerun]

@[simp] theorem enterHoldover_control (periods s) : SameControl s (State.enterHoldover periods s) := by
  simp [State.enterHoldover]

@[simp] theorem chooseRef_control (old periods looks s) : SameControl s (State.chooseRef old periods looks s) := by
  unfold State.chooseRef; dsimp only; (repeat' split) <;> simp

@[simp] theorem judgeLock_control (s) : SameControl s (State.judgeLock s) := by
  unfold State.judgeLock; dsimp only; (repeat' split) <;> simp

@[simp] theorem turnCycle_control (s) : SameControl s (State.turnCycle s) := by simp [State.turnCycle, State.closeTimebase]

@[simp] theorem trigger_control (t kind s) : SameControl s (State.trigger t kind s) := by
  unfold State.trigger; (repeat' split) <;> simp [State.startCapture]

@[simp] theorem triggerBy_control (e t s) : SameControl s (State.triggerBy e t s) := by
  unfold State.triggerBy; split <;> simp

@[simp] theorem dueTrigger_control (d s) : SameControl s (State.dueTrigger d s) := by unfold State.dueTrigger; split <;> simp

@[simp] theorem enterDue_control (d s) : SameControl s (State.enterDue d s) := by unfold State.enterDue; split <;> simp

@[simp] theorem flushDue_control (s) : SameControl s (State.flushDue s) := by simp [State.flushDue]

/-! ### Settings and trims (R136, R137, R402) -/

@[simp] theorem reshade_control (g s) : SameControl s (State.reshade g s) := by simp [State.reshade]
@[simp] theorem connectSpare_control (g i s) : SameControl s (State.connectSpare g i s) := by simp [State.connectSpare]
@[simp] theorem startCheck_control (g k s) : SameControl s (State.startCheck g k s) := by simp [State.startCheck]

@[simp] theorem nextCheck_control (g s) : SameControl s (State.nextCheck g s) := by
  unfold State.nextCheck; (repeat' split) <;> simp

@[simp] theorem endCheck_control (g s) : SameControl s (State.endCheck g s) := by unfold State.endCheck; split <;> simp

@[simp] theorem abortCheck_control (g s) : SameControl s (State.abortCheck g s) := by unfold State.abortCheck; split <;> simp

@[simp] theorem takeSpare_control (k s) : SameControl s (State.takeSpare k s) := by
  unfold State.takeSpare; dsimp only; (repeat' split) <;> simp [State.queueCheck]

@[simp] theorem forceSpare_control (k s) : SameControl s (State.forceSpare k s) := by
  simp [State.forceSpare, State.substituted]

@[simp] theorem restoreFailed_control (k s) : SameControl s (State.restoreFailed k s) := by simp [State.restoreFailed]
@[simp] theorem channelBoundary_control (k s) : SameControl s (State.channelBoundary k s) := by simp [State.channelBoundary]
@[simp] theorem settingTook_control (s) : SameControl s (State.settingTook s) := by simp [State.settingTook]
@[simp] theorem trimNote_control (addr old new s) : SameControl s (State.trimNote addr old new s) := by simp [State.trimNote]

@[simp] theorem trimBoundary_control (k s) : SameControl s (State.trimBoundary k s) := by
  unfold State.trimBoundary; split <;> simp [State.setModTrim, State.startRestore]

@[simp] theorem trimsBoundary_control (s) : SameControl s (State.trimsBoundary s) := by
  unfold State.trimsBoundary; dsimp only; split <;> simp [State.setVref]

@[simp] theorem demandClose_control (p s) : SameControl s (State.demandClose p s) := by simp [State.demandClose]
@[simp] theorem changeDemand_control (p s) : SameControl s (State.changeDemand p s) := by simp [State.changeDemand]

@[simp] theorem balanceClose_control (b part s) : SameControl s (State.balanceClose b part s) := by
  simp [State.balanceClose, State.residual]

@[simp] theorem countLost_control (p s) : SameControl s (State.countLost p s) := by unfold State.countLost; split <;> simp

@[simp] theorem loseRecords_control (lost s) : SameControl s (State.loseRecords lost s) := by
  unfold State.loseRecords; split <;> simp

@[simp] theorem writeGroup_control (g s) : SameControl s (State.writeGroup g s) := by simp [State.writeGroup]

@[simp] theorem openProfile_control (part s) : SameControl s (State.openProfile part s) := by
  simp [State.openProfile, State.applyProfEn]

@[simp] theorem profileClose_control (part s) : SameControl s (State.profileClose part s) := by simp [State.profileClose]

@[simp] theorem closeChanged_control (due s) : SameControl s (State.closeChanged due s) := by
  refine chain_control _ _ _ fun a s => ?_
  (repeat' split) <;> simp

@[simp] theorem afterSettings_control (old due rebases s) : SameControl s (State.afterSettings old due rebases s) := by
  refine .trans (chain_control _ _ _ fun a s => ?_) (chain_control _ _ _ fun n s => by simp [State.rebase])
  (repeat' split) <;> simp

@[simp] theorem applySettings_control (s) : SameControl s (State.applySettings s) := by
  simp [State.applySettings, State.enforce]

end Sys2Proof.Scope
end

section
/-!
SUPPORT. Booking and closing touch one point each (R92, R101, R107, R108): what they leave of it and of the others.
-/
namespace Sys2Proof.Scope

open Sys2Proof.Machine Sys2Proof.Laws

/-! ### One point changed -/

theorem onPt_same (p : Fin 128) (f : Point → Point) (s : State) : (s.onPt p f).pts[p] = f s.pts[p] := by
  simp [State.onPt, upd]

theorem onPt_other {p q : Fin 128} (f : Point → Point) (s : State) (h : q ≠ p) : (s.onPt p f).pts[q] = s.pts[q] := by
  have hv : p.val ≠ q.val := fun e => h (Fin.ext e.symm)
  simp [State.onPt, upd, hv]

/-! ### Booking (R92, R108) -/

/-- A point after contributions (R92, R108). -/
def booked (l : List Nat) (x : Point) : Point := { x.add l with wrapped := x.wrapped || !(x.wraps l).isEmpty }

/-- TOTAL_WRAP for the accumulators that have wrapped (R108). -/
def raiseWraps (p : Fin 128) (at_ : Stamp) (l : List Nat) (s : State) : State :=
  chain l (fun i s => (s.blot .totalWrap).raiseWith .totalWrap (.point p) at_ true true (le 1 (accCode i))) s

theorem book_eq (p : Fin 128) (at_ : Stamp) (l : List Nat) (s : State) :
    s.book p at_ l = raiseWraps p at_ (s.pts[p].wraps l)
      (if (s.pts[p].wraps l).isEmpty then s.onPt p (Point.add l)
        else (s.onPt p (Point.add l)).onPt p fun x => { x with wrapped := true }) := by
  unfold State.book raiseWraps
  dsimp only
  split
  · rename_i h
    rw [List.isEmpty_iff.mp h]
    rfl
  · rfl

@[simp] theorem raiseWraps_pts (p : Fin 128) (at_ : Stamp) (l : List Nat) (s : State) : (raiseWraps p at_ l s).pts = s.pts :=
  chain_pts _ _ _ fun _ _ => by simp

theorem raiseWraps_blotted (p : Fin 128) (at_ : Stamp) {l : List Nat} (h : l ≠ []) (s : State) :
    Blotted (blotBit .totalWrap) (raiseWraps p at_ l s) := by
  cases l with
  | nil => exact absurd rfl h
  | cons i l =>
    exact chain_blotted l (fun _ _ hs => raiseWith_blotted _ _ _ _ _ _ (blot_keeps _ hs))
      (raiseWith_blotted _ _ _ _ _ _ (blot_self _ _))

theorem booked_of_wraps {l : List Nat} {x : Point} (h : (x.wraps l).isEmpty = false) :
    booked l x = { x.add l with wrapped := true } := by
  rw [booked, h, Bool.not_false, Bool.or_true]

theorem booked_of_room {l : List Nat} {x : Point} (h : (x.wraps l).isEmpty = true) : booked l x = x.add l := by
  rw [booked, h, Bool.not_true, Bool.or_false]
  simp only [Point.add]

theorem book_same (p : Fin 128) (at_ : Stamp) (l : List Nat) (s : State) :
    (s.book p at_ l).pts[p] = booked l s.pts[p] := by
  rw [book_eq, raiseWraps_pts]
  split <;> rename_i h
  · rw [onPt_same, booked_of_room h]
  · rw [onPt_same, onPt_same, booked_of_wraps (Bool.eq_false_iff.mpr h)]

theorem book_other {p q : Fin 128} (at_ : Stamp) (l : List Nat) (s : State) (h : q ≠ p) :
    (s.book p at_ l).pts[q] = s.pts[q] := by
  rw [book_eq, raiseWraps_pts]
  split
  · exact onPt_other _ _ h
  · exact (onPt_other _ _ h).trans (onPt_other _ _ h)

theorem add_acc (l : List Nat) (x : Point) (i : Fin 22) : (x.add l).acc[i] = (x.acc[i] + nth l i.val 0) % 2 ^ 96 := by
  simp only [Point.add, Fin.getElem_fin, Vector.getElem_ofFn]

theorem wraps_eq_nil_iff (l : List Nat) (x : Point) : x.wraps l = [] ↔ ∀ i : Fin 22, x.acc[i] + nth l i.val 0 < 2 ^ 96 := by
  simp only [Point.wraps, List.map_eq_nil_iff, List.filter_eq_nil_iff, List.mem_finRange, true_implies, decide_eq_true_eq, not_le]

theorem book_wraps {p : Fin 128} {l : List Nat} {s : State} (at_ : Stamp)
    (h : ∃ i : Fin 22, 2 ^ 96 ≤ s.pts[p].acc[i] + nth l i.val 0) :
    (s.book p at_ l).pts[p].wrapped = true ∧ Blotted (blotBit .totalWrap) (s.book p at_ l) := by
  have hne : s.pts[p].wraps l ≠ [] := fun hnil =>
    let ⟨i, hi⟩ := h
    absurd ((wraps_eq_nil_iff l _).mp hnil i) (Nat.not_lt.mpr hi)
  refine ⟨?_, ?_⟩
  · rw [book_same, booked_of_wraps (List.isEmpty_eq_false_iff.mpr hne)]
  · rw [book_eq]
    exact raiseWraps_blotted p at_ hne _

theorem book_keepsMark {p : Fin 128} {l : List Nat} {s : State} (at_ : Stamp)
    (h : ∀ i : Fin 22, s.pts[p].acc[i] + nth l i.val 0 < 2 ^ 96) :
    (s.book p at_ l).pts[p].wrapped = s.pts[p].wrapped ∧ (s.book p at_ l).anv = s.anv := by
  have hnil := (wraps_eq_nil_iff l s.pts[p]).mpr h
  refine ⟨?_, ?_⟩
  · rw [book_same, booked_of_room (List.isEmpty_iff.mpr hnil), Point.add]
  · rw [book_eq, hnil]
    rfl

/-! ### A cycle of a point closed (R84, R92, R101) -/

/-- What a closed cycle shows of a point: its accumulators, quantities, state, and whether energy is bridged or pending. -/
def reading (x : Point) : Vector Nat 22 × PointQ × PtState × Bool × Bool := (x.acc, x.q, x.st, x.brdg, x.pend)

/-- What a closing cycle books to a point: nothing in a state that computes no energy, or before a calibration is loaded (R101, R103). -/
def cycleBooking (s : State) (p : Fin 128) : Booking :=
  if (s.pointCycle p).st.counts && s.mcal.loaded then s.bookingOf p (s.pointCycle p) else .nothing

theorem setPhases_acc (l : List (PhaseChans × Phase × Option PhaseQ × Bool)) (x : Point) : (x.setPhases l).acc = x.acc := by
  unfold Point.setPhases
  induction l generalizing x with
  | nil => rfl
  | cons a l ih => exact ih _

theorem booked_reading (l : List Nat) (x : Point) :
    reading (booked l x) = ((x.add l).acc, x.q, x.st, x.brdg, x.pend) := by
  simp only [reading, booked, Point.add]

theorem add_acc_congr (l : List Nat) {x y : Point} (h : x.acc = y.acc) : (x.add l).acc = (y.add l).acc := by
  simp only [Point.add, h]

theorem closePoint_reading (p : Fin 128) (s : State) :
    reading (s.closePoint p).pts[p] = ((s.pts[p].add (cycleBooking s p).all).acc, (s.pointCycle p).q, (s.pointCycle p).st,
      (s.pointCycle p).brdg, !s.mcal.loaded && pointOn s.live p) := by
  unfold State.closePoint
  dsimp only
  cases s.faultOf p
  all_goals
    simp only [ite_pts, raiseWith_pts, ite_self, Bool.not_not]
    rw [book_same, booked_reading, onPt_same]
    exact Prod.ext (add_acc_congr _ (setPhases_acc _ _)) rfl

theorem closePoint_other {p q : Fin 128} (s : State) (h : q ≠ p) : (s.closePoint p).pts[q] = s.pts[q] := by
  unfold State.closePoint
  dsimp only
  cases s.faultOf p
  all_goals
    simp only [ite_pts, raiseWith_pts, ite_self]
    rw [book_other _ _ _ h, onPt_other _ _ h]

theorem chain_closePoint_other {l : List (Fin 128)} {q : Fin 128} (h : q ∉ l) (s : State) :
    (chain l State.closePoint s).pts[q] = s.pts[q] := by
  induction l generalizing s with
  | nil => rfl
  | cons a l ih =>
    obtain ⟨hqa, hql⟩ := List.ne_and_not_mem_of_not_mem_cons h
    exact (ih hql _).trans (closePoint_other s hqa)

theorem allPts_split (p : Fin 128) : ∃ l, allPts = allPts.take p.val ++ p :: l ∧ p ∉ allPts.take p.val ∧ p ∉ l := by
  have hlt : p.val < allPts.length := by simp [allPts]
  have hget : allPts[p.val] = p := by simp [allPts]
  have hsplit : allPts = allPts.take p.val ++ p :: allPts.drop (p.val + 1) := by
    conv_lhs => rw [← List.take_append_drop p.val allPts, List.drop_eq_getElem_cons hlt, hget]
  have hnodup : (allPts.take p.val ++ p :: allPts.drop (p.val + 1)).Nodup := hsplit ▸ List.nodup_finRange 128
  obtain ⟨-, htail, hdisj⟩ := List.nodup_append.mp hnodup
  exact ⟨_, hsplit, fun hp => hdisj p hp p List.mem_cons_self rfl, (List.nodup_cons.mp htail).1⟩

/-- When every point has closed, each stands as it did when it was its turn. -/
theorem chain_closePoint_at (p : Fin 128) (s : State) :
    (chain allPts State.closePoint s).pts[p] = ((chain (allPts.take p.val) State.closePoint s).closePoint p).pts[p] ∧
      (chain (allPts.take p.val) State.closePoint s).pts[p] = s.pts[p] := by
  obtain ⟨l, hsplit, hbefore, hafter⟩ := allPts_split p
  refine ⟨?_, chain_closePoint_other hbefore s⟩
  have hchain : chain allPts State.closePoint s =
      chain l State.closePoint ((chain (allPts.take p.val) State.closePoint s).closePoint p) := by
    conv_lhs => rw [hsplit]
    simp only [chain, List.foldl_append, List.foldl_cons]
  rw [hchain, chain_closePoint_other hafter]

end Sys2Proof.Scope
end

section
/-!
SUPPORT. What a cycle closure leaves of the points once they have closed (R84, R402): their accumulators, and with no setting that waits
their quantities and states; a commit or a resolve alone adds to them (R130, R132).
-/
namespace Sys2Proof.Scope

open Sys2Proof.Machine Sys2Proof.Laws

/-! ### What the points show -/

/-- What the last closed cycle shows of every point. -/
def readings (s : State) : Vector (Vector Nat 22 × PointQ × PtState × Bool × Bool) 128 := s.pts.map reading

/-- The accumulators of every point. -/
def energies (s : State) : Vector (Vector Nat 22) 128 := s.pts.map Point.acc

theorem readings_at {s t : State} (h : readings t = readings s) (p : Fin 128) : reading t.pts[p] = reading s.pts[p] := by
  have hp := congrArg (fun v => v[p]) h
  simpa only [readings, Fin.getElem_fin, Vector.getElem_map] using hp

theorem energies_at {s t : State} (h : energies t = energies s) (p : Fin 128) : t.pts[p].acc = s.pts[p].acc := by
  have hp := congrArg (fun v => v[p]) h
  simpa only [energies, Fin.getElem_fin, Vector.getElem_map] using hp

theorem readings_of_pts {s t : State} (h : t.pts = s.pts) : readings t = readings s := by rw [readings, h, readings]

theorem energies_of_readings {s t : State} (h : readings t = readings s) : energies t = energies s := by
  refine Vector.ext fun i hi => ?_
  simp only [energies, Vector.getElem_map]
  exact congrArg Prod.fst (readings_at h ⟨i, hi⟩)

theorem ite_readings {c : Prop} [Decidable c] {a b s : State} (ha : readings a = readings s) (hb : readings b = readings s) :
    readings (if c then a else b) = readings s := by
  split <;> assumption

theorem map_onPt {β : Type} (g : Point → β) (p : Fin 128) {f : Point → Point} (s : State) (h : ∀ x, g (f x) = g x) :
    (s.onPt p f).pts.map g = s.pts.map g := by
  refine Vector.ext fun i hi => ?_
  simp only [Vector.getElem_map]
  by_cases hp : (⟨i, hi⟩ : Fin 128) = p
  · subst hp
    exact (congrArg g (onPt_same ⟨i, hi⟩ f s)).trans (h _)
  · exact congrArg g (onPt_other f s hp)

theorem onPt_readings (p : Fin 128) {f : Point → Point} (s : State) (h : ∀ x, reading (f x) = reading x) :
    readings (s.onPt p f) = readings s := map_onPt reading p s h

theorem onPt_energies (p : Fin 128) {f : Point → Point} (s : State) (h : ∀ x, (f x).acc = x.acc) :
    energies (s.onPt p f) = energies s := map_onPt Point.acc p s h

/-! ### Detectors (R154, R155) -/

theorem neutralBypass_readings (p : Fin 128) (s : State) : readings (s.neutralBypass p) = readings s := by
  unfold State.neutralBypass
  split
  · exact ite_readings rfl ((readings_of_pts (detected_pts ..)).trans (onPt_readings p s fun _ => by rfl))
  · rfl

theorem due_readings (rank : Nat) (e : Ev) (u : Subject) (at_ : Stamp) (start done : Bool) (detail : List Byte) (s : State) :
    readings (s.due rank e u at_ start done detail) = readings s := readings_of_pts (due_pts ..)

theorem reverseFlow_readings (p : Fin 128) (s : State) : readings (s.reverseFlow p) = readings s := by
  unfold State.reverseFlow
  exact ite_readings rfl (ite_readings (onPt_readings p s fun _ => by rfl)
    (ite_readings (onPt_readings p s fun _ => by rfl) ((due_readings ..).trans (onPt_readings p s fun _ => by rfl))))

theorem cycleDetectors_readings (s : State) : readings s.cycleDetectors = readings s := by
  refine (chain_keeps readings _ _ (fun p s => ?_) _).trans (readings_of_pts (chain_pts _ _ _ neutralLost_pts))
  exact (reverseFlow_readings p _).trans (neutralBypass_readings p s)

theorem closeQuantities_readings (errs : List AccErr) (s : State) :
    readings (s.closeQuantities errs) = readings (chain allPts State.closePoint (s.accErrors errs)) := by
  refine (readings_of_pts (channelsToBlock_pts _)).trans ((cycleDetectors_readings _).trans (readings_of_pts ?_))
  rw [chain_pts _ _ _ pulseClose_pts, chain_pts _ _ _ closeDc_pts, chain_pts _ _ _ closeBalance_pts]

/-! ### Intervals that close (R113, R116, R121) -/

theorem demandClose_readings (p : Fin 128) (s : State) : readings (s.demandClose p) = readings s :=
  onPt_readings p s fun _ => by rfl

theorem changeDemand_readings (p : Fin 128) (s : State) : readings (s.changeDemand p) = readings s := by
  unfold State.changeDemand
  dsimp only
  split
  · exact (onPt_readings p _ fun _ => by rfl).trans ((demandClose_readings p _).trans (onPt_readings p s fun _ => by rfl))
  · exact onPt_readings p s fun _ => by rfl

theorem countLost_readings (n : Nat) (s : State) : readings (s.countLost n) = readings s := by
  unfold State.countLost
  split
  · exact onPt_readings _ s fun _ => by rfl
  · rfl

theorem loseRecords_readings (lost : List ProfRec) (s : State) : readings (s.loseRecords lost) = readings s := by
  unfold State.loseRecords
  split
  · rfl
  · dsimp only
    split
    · exact chain_keeps readings _ _ countLost_readings s
    · exact (readings_of_pts (logOnly_pts ..)).trans (chain_keeps readings _ _ countLost_readings s)

theorem writeGroup_readings (g : Nat) (s : State) : readings (s.writeGroup g) = readings s := by
  unfold State.writeGroup
  dsimp only
  split
  · rfl
  · exact (readings_of_pts (pendInt_pts ..)).trans (loseRecords_readings _ s)

theorem profileClose_readings (part : Bool) (s : State) : readings (s.profileClose part) = readings s := by
  refine (readings_of_pts (openProfile_pts ..)).trans ?_
  dsimp only
  split
  · exact chain_keeps readings _ _ writeGroup_readings _
  · rfl

/-! ### Settings (R101, R402) -/

theorem closeChanged_readings (due : List Nat) (s : State) : readings (s.closeChanged due) = readings s := by
  refine chain_keeps readings _ _ (fun a s => ?_) s
  split
  · exact changeDemand_readings _ s
  · dsimp only
    split
    · exact readings_of_pts (balanceClose_pts ..)
    · rfl
  · exact profileClose_readings true _
  · rfl

theorem afterSettings_energies (old : Reg → Word) (due : List Nat) (rebases : List (Fin 8)) (s : State) :
    energies (s.afterSettings old due rebases) = energies s := by
  refine (energies_of_readings (readings_of_pts (chain_pts _ _ _ rebase_pts))).trans ?_
  refine chain_keeps energies _ _ (fun a s => ?_) s
  split
  · rfl
  · exact energies_of_readings (readings_of_pts (openProfile_pts ..))
  · split
    · exact onPt_energies _ s fun _ => by rfl
    · rfl
  · rfl

/-- The settings of a boundary, up to what follows words that have come into force. -/
theorem enforced_readings (s : State) :
    readings (chain s.settingsDue State.enforce (chain allChans State.channelBoundary (s.closeChanged s.settingsDue))) =
      readings s := by
  refine (readings_of_pts ?_).trans (closeChanged_readings s.settingsDue s)
  rw [chain_pts _ _ _ enforce_pts, chain_pts _ _ _ channelBoundary_pts]

theorem applySettings_energies (s : State) : energies s.applySettings = energies s := by
  unfold State.applySettings
  dsimp only
  refine Eq.trans ?_ (energies_of_readings (enforced_readings s))
  split
  · exact (energies_of_readings (readings_of_pts (settingTook_pts _))).trans (afterSettings_energies ..)
  · exact afterSettings_energies ..

theorem applySettings_readings {s : State} (h : s.settingsDue = []) : readings s.applySettings = readings s := by
  have hlast := enforced_readings s
  unfold State.applySettings
  rw [h] at hlast ⊢
  exact (readings_of_pts (chain_pts _ _ _ rebase_pts)).trans hlast

theorem settingsDue_congr {s t : State} (hcfg : t.cfg = s.cfg) (heff : t.eff = s.eff) : t.settingsDue = s.settingsDue := by
  have hword : t.boundaryWord = s.boundaryWord := by
    funext a
    simp only [State.boundaryWord, hcfg, heff]
  simp only [State.settingsDue, hword, hcfg, heff]

/-! ### Commands that wait for the boundary (R115, R127, R132) -/

theorem commitBoundary_idle {s : State} (h : s.mcal.waiting = []) : s.commitBoundary = s := by
  simp only [State.commitBoundary, h]

theorem resolveBoundary_idle {s : State} (h : s.mcal.resolves = []) : s.resolveBoundary.pts = s.pts := by
  simp only [State.resolveBoundary, h, chain, List.foldl_nil]

theorem resetDemand_readings (p : Fin 128) (s : State) : readings (s.resetDemand p) = readings s := by
  unfold State.resetDemand
  dsimp only
  refine (onPt_readings p _ fun _ => by rfl).trans ((readings_of_pts (logOnly_pts ..)).trans ?_)
  split
  · exact demandClose_readings p s
  · rfl

theorem resetBoundary_readings (s : State) : readings s.resetBoundary = readings s := by
  unfold State.resetBoundary
  dsimp only
  refine (readings_of_pts (chain_pts _ _ _ resetReply_pts)).trans ((chain_keeps readings _ _ resetDemand_readings _).trans ?_)
  exact readings_of_pts (chain_pts _ _ s fun r s => fail_pts 0x0401 r .isolated s)

/-! ### The boundary (R229, R402) -/

/-- No commit and no resolve takes effect at the boundary: none waits, or a warning holds them (R127, R132, R229). -/
def commandsIdle (s : State) : Prop := s.pwr.pfail = true ∨ (s.mcal.waiting = [] ∧ s.mcal.resolves = [])

theorem commandsIdle_congr {s t : State} (h : SameControl s t) (hs : commandsIdle s) : commandsIdle t := by
  rw [commandsIdle, h.1, h.2]
  exact hs

/-- Settings, trims and reloads leave the commits and resolves that wait. -/
theorem reloadCal_waiting (s : State) : let u := s.applySettings.trimsBoundary
    u.reloadCal.mcal.waiting = s.mcal.waiting ∧ u.reloadCal.mcal.resolves = s.mcal.resolves := by
  have h := (SameControl.trans (applySettings_control s) (trimsBoundary_control _)).1
  simp only [State.reloadCal, h, and_self]

theorem boundaryEffects_pts_warned {s : State} (hp : s.pwr.pfail = true) : s.boundaryEffects.pts = s.applySettings.pts := by
  simp [State.boundaryEffects, hp]

theorem boundaryEffects_pts {s : State} (hp : s.pwr.pfail = false) : s.boundaryEffects.pts =
    s.applySettings.trimsBoundary.reloadCal.commitBoundary.resolveBoundary.resetBoundary.pts := by
  simp [State.boundaryEffects, hp]

theorem boundaryEffects_readings {s : State} (h : commandsIdle s) : readings s.boundaryEffects = readings s.applySettings := by
  by_cases hp : s.pwr.pfail = true
  · exact readings_of_pts (boundaryEffects_pts_warned hp)
  · obtain ⟨hw, hr⟩ := h.resolve_left hp
    obtain ⟨hwaiting, hresolves⟩ := reloadCal_waiting s
    refine (readings_of_pts (boundaryEffects_pts (Bool.eq_false_iff.mpr hp))).trans ((resetBoundary_readings _).trans ?_)
    rw [commitBoundary_idle (hwaiting.trans hw)]
    refine readings_of_pts ((resolveBoundary_idle (hresolves.trans hr)).trans ?_)
    rw [reloadCal_pts, trimsBoundary_pts]

/-! ### The closure (R84) -/

/-- A closure up to what takes effect at its boundary. -/
def closedCycle (errs : List AccErr) (s : State) : State :=
  let s0 := ((s.noteCommit.dropOldWindows).markSteps).closeQuantities errs
  let s2 := (s0.boundaryImage (s0.anv.blots &&& ~~~s.anv.blots)).turnCycle
  if s2.blockDue then s2 else s2.flushDue

/-- What follows what takes effect at the boundary of a closure. -/
def afterBoundary (moves : List CalMove) (s : State) : State :=
  (((chain (List.finRange 34) State.spareBoundary s).openNext.cutAsked.closeSteps moves).refill).closureRecord

theorem cycleClose_eq (errs : List AccErr) (s : State) :
    s.cycleClose errs = afterBoundary (s.cld.moves.filter s.tb.covers) (closedCycle errs s).boundaryEffects := by
  simp only [State.cycleClose, afterBoundary, closedCycle]

theorem closedCycle_control (errs : List AccErr) (s : State) : SameControl s (closedCycle errs s) := by simp [closedCycle]

theorem closedCycle_cfg (errs : List AccErr) (s : State) : (closedCycle errs s).cfg = s.cfg := by simp [closedCycle]

theorem closedCycle_eff (errs : List AccErr) (s : State) : (closedCycle errs s).eff = s.eff := by simp [closedCycle]

theorem closedCycle_readings (errs : List AccErr) (s : State) : readings (closedCycle errs s) =
    readings (chain allPts State.closePoint (((s.noteCommit.dropOldWindows).markSteps).accErrors errs)) := by
  refine (readings_of_pts ?_).trans (closeQuantities_readings errs _)
  simp [closedCycle]

theorem openNext_readings (s : State) : readings s.openNext = readings s := by
  refine Vector.ext fun i hi => ?_
  simp only [readings, State.openNext, Vector.getElem_map, Vector.getElem_ofFn]
  rfl

theorem closeSteps_readings (moves : List CalMove) (s : State) : readings (s.closeSteps moves) = readings s := by
  unfold State.closeSteps
  dsimp only
  refine (ite_readings (readings_of_pts (tenMinuteTick_pts _)) rfl).trans ?_
  refine (ite_readings (readings_of_pts (frequencyClose_pts _)) rfl).trans ?_
  refine (readings_of_pts (chain_pts _ _ _ fun b s => balanceClose_pts b false s)).trans ?_
  refine (ite_readings (profileClose_readings false _) rfl).trans ?_
  exact chain_keeps readings _ _ demandClose_readings s

theorem afterBoundary_readings (moves : List CalMove) (s : State) : readings (afterBoundary moves s) = readings s := by
  refine (readings_of_pts ((closureRecord_pts _).trans (refill_pts _))).trans ((closeSteps_readings moves _).trans ?_)
  refine (readings_of_pts (cutAsked_pts _)).trans ((openNext_readings _).trans (readings_of_pts ?_))
  exact chain_pts _ _ _ spareBoundary_pts

end Sys2Proof.Scope
end

section
/-!
SUPPORT. What a cycle closure registers (R84, R92, R101): the reading of each point when the closure is over.
-/
namespace Sys2Proof.Scope

open Sys2Proof.Machine Sys2Proof.Laws

/-- The state on which the points of a closing cycle close: marks of the intervals set, accumulator words read (R83, R117, R255). -/
def readyToClose (errs : List AccErr) (s : State) : State := (s.noteCommit.dropOldWindows.markSteps).accErrors errs

/-- The points before one have closed. -/
def closedBefore (p : Fin 128) (s : State) : State := chain (allPts.take p.val) State.closePoint s

theorem closedBefore_live (errs : List AccErr) (p : Fin 128) (s : State) : (closedBefore p (readyToClose errs s)).live = s.live := by
  funext r
  simp only [State.live, closedBefore, readyToClose, chain_eff _ _ _ closePoint_eff, accErrors_eff, markSteps_eff, dropOldWindows_eff,
    noteCommit_eff]

/-- A point when every point has closed: its own cycle has been booked to it and nothing else. -/
theorem closedPoint_reading (errs : List AccErr) (p : Fin 128) (s : State) :
    let z := readyToClose errs s
    let x := closedBefore p z
    reading (chain allPts State.closePoint z).pts[p] = ((z.pts[p].add (cycleBooking x p).all).acc, (x.pointCycle p).q,
      (x.pointCycle p).st, (x.pointCycle p).brdg, !x.mcal.loaded && pointOn s.live p) := by
  intro z x
  have hclosed : (chain allPts State.closePoint z).pts[p] = (x.closePoint p).pts[p] := (chain_closePoint_at p z).1
  have hbefore : x.pts[p] = z.pts[p] := (chain_closePoint_at p z).2
  have hlive : x.live = s.live := closedBefore_live errs p s
  rw [hclosed, closePoint_reading, hbefore, hlive]

theorem cycleClose_energies {s : State} (errs : List AccErr) (h : commandsIdle s) :
    energies (s.cycleClose errs) = energies (chain allPts State.closePoint (readyToClose errs s)) := by
  have hidle := commandsIdle_congr (closedCycle_control errs s) h
  rw [cycleClose_eq, energies_of_readings (afterBoundary_readings _ _), energies_of_readings (boundaryEffects_readings hidle),
    applySettings_energies]
  exact energies_of_readings (closedCycle_readings errs s)

theorem cycleClose_readings {s : State} (errs : List AccErr) (h : commandsIdle s) (hdue : s.settingsDue = []) :
    readings (s.cycleClose errs) = readings (chain allPts State.closePoint (readyToClose errs s)) := by
  have hidle := commandsIdle_congr (closedCycle_control errs s) h
  have hnone : (closedCycle errs s).settingsDue = [] :=
    (settingsDue_congr (closedCycle_cfg errs s) (closedCycle_eff errs s)).trans hdue
  rw [cycleClose_eq, afterBoundary_readings, boundaryEffects_readings hidle, applySettings_readings hnone]
  exact closedCycle_readings errs s

theorem cycleClose_runs {s : State} (hp : s.powered = true) (hm : s.metering = true) (errs : List AccErr) :
    exec (.cycleClose errs) s = .next (s.cycleClose errs) := by
  simp only [exec, execCycleClose, hp, hm, Bool.and_self, if_true]

/-- Settles O59: booking and closing touch one point each, and nothing after the points have closed touches what they show but a
setting, a commit or a resolve. -/
theorem bookedEnergyIsAdded : Obligations.BookedEnergyIsAdded := by
  refine ⟨fun p at_ l s => ⟨fun i => ?_, book_wraps at_, book_keepsMark at_, fun q hq => book_other at_ l s hq⟩, fun errs p s hp hm => ?_⟩
  · rw [book_same]
    exact add_acc l _ i
  · refine ⟨_, cycleClose_runs hp hm errs, fun hidle => ?_⟩
    have hclosed := closedPoint_reading errs p s
    refine ⟨fun i => ?_, fun hdue => ?_⟩
    · simp only [reading, Prod.mk.injEq] at hclosed
      obtain ⟨hacc, -⟩ := hclosed
      rw [energies_at (cycleClose_energies errs hidle) p, hacc]
      exact add_acc _ _ i
    · have hread := (readings_at (cycleClose_readings errs hidle hdue) p).trans hclosed
      simp only [reading, Prod.mk.injEq] at hread
      obtain ⟨-, hmeasured⟩ := hread
      exact hmeasured

end Sys2Proof.Scope
end

section
/-!
SUPPORT. Which rows leave the timebase: all but those of samples, closures, intervals, LSYNC, FREERUN, restores, the first metered cycle
and cold resets (R63, R64, R72, R74, R141, R143, R279).
-/
namespace Sys2Proof.Scope

open Sys2Proof.Machine Sys2Proof.Laws

/-- A row outside those that move the timebase leaves the whole of it. -/
theorem exec_tb {c : Instr} (s : State) (h : movesTimebase c = false) : ∃ t, exec c s = .next t ∧ t.tb = s.tb := by
  cases c with
  | combFrame | sampleBatch | cycleClose | freerunEntry | lsyncEdge | lsyncTimeout | blockClose | aggregateClose |
    tenMinuteTick | frequencyIntervalClose | brownout | por | resetnCold | startupReady | configRestore | firstMeteredCycle
    | startupFreerunFallback | journalRestored => cases h
  | nop => exact execNop_tb ..
  | sessionOpen => exact execSessionOpen_tb ..
  | sessionClose => exact execSessionClose_tb ..
  | setPriority => exact execSetPriority_tb ..
  | folioRead => exact execFolioRead_tb ..
  | folioLease => exact execFolioLease_tb ..
  | folioRenew => exact execFolioRenew_tb ..
  | folioRelease => exact execFolioRelease_tb ..
  | folioCut => exact execFolioCut_tb ..
  | folioSealGet => exact execFolioSealGet_tb ..
  | paramRead => exact execParamRead_tb ..
  | paramWrite => exact execParamWrite_tb ..
  | scRead => exact execScRead_tb ..
  | eventRead => exact execEventRead_tb ..
  | eventAck => exact execEventAck_tb ..
  | profileRead => exact execProfileRead_tb ..
  | profileAck => exact execProfileAck_tb ..
  | wbRead => exact execWbRead_tb ..
  | capRead => exact execCapRead_tb ..
  | capTrigger => exact execCapTrigger_tb ..
  | capRelease => exact execCapRelease_tb ..
  | logRead => exact execLogRead_tb ..
  | demandReset => exact execDemandReset_tb ..
  | calCommit => exact execCalCommit_tb ..
  | calPendingRead => exact execCalPendingRead_tb ..
  | calPendingResolve => exact execCalPendingResolve_tb ..
  | pulseTest => exact execPulseTest_tb ..
  | blotRead => exact execBlotRead_tb ..
  | blotClear => exact execBlotClear_tb ..
  | bankEnter => exact execBankEnter_tb ..
  | bankExit => exact execBankExit_tb ..
  | softReset => exact execSoftReset_tb ..
  | auxRead => exact execAuxRead_tb ..
  | cfgSave => exact execCfgSave_tb ..
  | inkLock => exact execInkLock_tb ..
  | inkUnlock => exact execInkUnlock_tb ..
  | fwBegin => exact execFwBegin_tb ..
  | fwWrite => exact execFwWrite_tb ..
  | fwVerify => exact execFwVerify_tb ..
  | fwActivate => exact execFwActivate_tb ..
  | cldSet => exact execCldSet_tb ..
  | cldAdjustStep => exact execCldAdjustStep_tb ..
  | cldAdjustSlew => exact execCldAdjustSlew_tb ..
  | cldAlarmAck => exact execCldAlarmAck_tb ..
  | grdClearArm => exact execGrdClearArm_tb ..
  | grdClearConfirm => exact execGrdClearConfirm_tb ..
  | grdTest => exact execGrdTest_tb ..
  | idCertRead => exact execIdCertRead_tb ..
  | pnlTableLoad => exact execPnlTableLoad_tb ..
  | pnlImageWrite => exact execPnlImageWrite_tb ..
  | pnlUpdate => exact execPnlUpdate_tb ..
  | forceSpare => exact execForceSpare_tb ..
  | restore => exact execRestore_tb ..
  | check => exact execCheck_tb ..
  | trimModWrite => exact execTrimModWrite_tb ..
  | trimVrefWrite => exact execTrimVrefWrite_tb ..
  | trimOscWrite => exact execTrimOscWrite_tb ..
  | reload => exact execReload_tb ..
  | rejoin => exact execRejoin_tb ..
  | xreturn => exact execXreturn_tb ..
  | eoi => exact execEoi_tb ..
  | intTargetDisable => exact execIntTargetDisable_tb ..
  | arm => exact execArm_tb ..
  | fdis => exact execFdis_tb ..
  | recover => exact execRecover_tb ..
  | frameReceive => exact execFrameReceive_tb ..
  | read => exact execRead_tb ..
  | status => exact execStatus_tb ..
  | uartReplySent => exact execUartReplySent_tb ..
  | portTimeout => exact execPortTimeout_tb ..
  | spiPortReset => exact execSpiPortReset_tb ..
  | uartFrameStall => exact execUartFrameStall_tb ..
  | brk => exact execBrk_tb ..
  | replyDropped => exact execReplyDropped_tb ..
  | sessionIdleTimeout => exact execSessionIdleTimeout_tb ..
  | leaseExpiry => exact execLeaseExpiry_tb ..
  | inkLockExpiry => exact execInkLockExpiry_tb ..
  | grdChallengeExpiry => exact execGrdChallengeExpiry_tb ..
  | engFenced => exact execEngFenced_tb ..
  | metrologyReplay => exact execMetrologyReplay_tb ..
  | autoFreezeEnd => exact execAutoFreezeEnd_tb ..
  | demandClose => exact execDemandClose_tb ..
  | profileClose => exact execProfileClose_tb ..
  | balanceClose => exact execBalanceClose_tb ..
  | modulatorHardFault => exact execModulatorHardFault_tb ..
  | chSubstituted => exact execChSubstituted_tb ..
  | spareMove => exact execSpareMove_tb ..
  | driftCheckPhase => exact execDriftCheckPhase_tb ..
  | chDriftChecked => exact execChDriftChecked_tb ..
  | chRestored => exact execChRestored_tb ..
  | suppressionEnd => exact execSuppressionEnd_tb ..
  | chClip => exact execChClip_tb ..
  | pulseLeadingEdge => exact execPulseLeadingEdge_tb ..
  | pulseTrailingEdge => exact execPulseTrailingEdge_tb ..
  | wbSetEnd => exact execWbSetEnd_tb ..
  | captureFilled => exact execCaptureFilled_tb ..
  | captureKeepExpiry => exact execCaptureKeepExpiry_tb ..
  | eventLogWrite => exact execEventLogWrite_tb ..
  | intTimeout => exact execIntTimeout_tb ..
  | auxScan => exact execAuxScan_tb ..
  | accScrub => exact execAccScrub_tb ..
  | sramScrub => exact execSramScrub_tb ..
  | xtalFail => exact execXtalFail_tb ..
  | xtalRate => exact execXtalRate_tb ..
  | xtalReturn => exact execXtalReturn_tb ..
  | powerFail => exact execPowerFail_tb ..
  | journalEntry => exact execJournalEntry_tb ..
  | tailUpdate => exact execTailUpdate_tb ..
  | journalErase ok => exact execJournalErase_tb ok s
  | pfSustained => exact execPfSustained_tb ..
  | pfRecovered => exact execPfRecovered_tb ..
  | resetnWarm => exact execResetnWarm_tb ..
  | vaonChangeover => exact execVaonChangeover_tb ..
  | supplyLossBoth => exact execSupplyLossBoth_tb ..
  | crystalAccepted => exact execCrystalAccepted_tb ..
  | cfgRestoreFail => exact execCfgRestoreFail_tb ..
  | anvWdog => exact execAnvWdog_tb ..
  | fwTrialEnd => exact execFwTrialEnd_tb ..
  | calSecondBoundary => exact execCalSecondBoundary_tb ..
  | calStopped => exact execCalStopped_tb ..
  | grdClock => exact execGrdClock_tb ..
  | grdSource => exact execGrdSource_tb ..
  | panelPairBoundary => exact execPanelPairBoundary_tb ..
  | railStep => exact execRailStep_tb ..
  | railRead => exact execRailRead_tb ..
  | panelFault => exact execPanelFault_tb ..
  | folioSealed => exact execFolioSealed_tb ..
  | resetnRelease => exact execResetnRelease_tb ..
  | startUpTest => exact execStartUpTest_tb ..
  | portsReady => exact execPortsReady_tb ..
  | xtalStartTimeout => exact execXtalStartTimeout_tb ..
  | slewEnd => exact execSlewEnd_tb ..
  | cellScanPeriod => exact execCellScanPeriod_tb ..
  | panelFrameBoundary => exact execPanelFrameBoundary_tb ..
  | isolatedParityError => exact execIsolatedParityError_tb ..

/-- Settles O47: each row outside the timebase's own is one of the operations that leave it. -/
theorem timebaseMovesOnlyByItsRows : Obligations.TimebaseMovesOnlyByItsRows := by
  intro c s t hc h
  obtain ⟨u, hu, htb⟩ := exec_tb s hc
  cases h.symm.trans hu
  exact htb

end Sys2Proof.Scope
end

section
/-!
SUPPORT. What an event that is raised leaves of the ring, of the queue to the log and of the gap before it (R65, R235, R266, R326).
-/
namespace Sys2Proof.Scope

open Sys2Proof.Machine Sys2Proof.Laws

/-! ### The queue to the log (R326) -/

theorem toLog_lost (x : LogItem) (s : State) : (s.toLog x).ev.lost = s.ev.lost := by
  unfold State.toLog
  dsimp only
  split
  · rfl
  · split <;> rfl

theorem toLog_room (x : LogItem) {s : State} (hgap : s.ev.gap = none) (hlen : s.ev.logQ.length < 512) :
    (s.toLog x).ev.logQ = s.ev.logQ ++ [x] := by
  have hfits : s.ev.logQ.length + s.ev.logNeed ≤ 512 := by simpa [Events.logNeed, hgap] using hlen
  simp [State.toLog, hgap, hfits]

/-- The range that a full queue has lost goes before the next item (R326). -/
theorem toLog_afterGap (x : LogItem) {g : Nat × Nat} {s : State} (hgap : s.ev.gap = some g)
    (hfits : s.ev.logQ.length + s.ev.logNeed ≤ 512) :
    (s.toLog x).ev.logQ = s.ev.logQ ++ [s.gapItem g, x] ∧ (s.toLog x).ev.gap = none := by
  simp [State.toLog, hgap, hfits]

/-- An event met by a full queue lengthens the range that is lost (R326). -/
theorem toLog_full (e : Event) {s : State} (hfull : 512 < s.ev.logQ.length + s.ev.logNeed) :
    (s.toLog ⟨e, false⟩).ev.logQ = s.ev.logQ ∧
      (s.toLog ⟨e, false⟩).ev.gap = some ((s.ev.gap.map Prod.fst).getD e.number, e.number) := by
  simp [State.toLog, Nat.not_le.mpr hfull]

/-! ### The ring (R235, R266) -/

theorem reclaimRing_of_fits {n : Nat} (ack : Option Nat) {l : List Event} (h : ringUsed l + n ≤ 2048) :
    reclaimRing n ack l = l := by
  cases l with
  | nil => rfl
  | cons e l =>
    unfold reclaimRing
    exact if_pos h

/-- An event that fits is numbered and becomes the newest of the ring; it goes to the log as well. -/
theorem enter_of_fits {e : Event} {s : State} (h : ringUsed s.ev.ring + entriesOf e.detail.length ≤ 2048) :
    let x := { e with number := s.ev.next }
    (s.enter e).ev =
      { (s.toLog ⟨x, false⟩).ev with next := (s.ev.next + 1) % 2 ^ 48, ring := s.ev.ring ++ [x] } := by
  simp only [State.enter, reclaimRing_of_fits _ h, h, if_true, pendInt_ev]

/-! ### An event raised (R65, R324) -/

/-- The event that is raised, without its number. -/
def raisedEvent (e : Ev) (u : Subject) (d : List Byte) (s : State) : Event :=
  ⟨0, e.code, s.stampNow, u.code, true, true, s.grd.quenched, s.fpidOf u, d⟩

/-- Its interrupt source leaves the events as they are. -/
theorem raise_ev (e : Ev) (u : Subject) (d : List Byte) (s : State) :
    (s.raise e u d).ev = if s.dev.startup.restored then (s.enter (raisedEvent e u d s)).ev
      else { s.ev with held := s.ev.held ++ [raisedEvent e u d s] } := by
  unfold State.raise State.raiseWith State.raiseAs raisedEvent
  dsimp only
  split
  · rw [if_pos rfl, pendInt_ev]
    exact apply_ite State.ev _ _ _
  · exact apply_ite State.ev _ _ _

/-- Settles O54: an event raised is entered, or held, and its interrupt source moves no event. -/
theorem eventsEnterTheRing : Obligations.EventsEnterTheRing := by
  intro e u d s x t
  refine ⟨fun hrestored hfits => ?_, fun hheld => ?_, ?_⟩
  · have hev : t.ev = _ := (raise_ev e u d s).trans ((if_pos hrestored).trans (enter_of_fits (e := raisedEvent e u d s) hfits))
    rw [hev]
    exact ⟨rfl, rfl, toLog_lost _ s, fun hlen hgap => toLog_room _ hgap hlen, fun g hgap => toLog_afterGap _ hgap,
      fun hfull => toLog_full _ hfull⟩
  · exact (raise_ev e u d s).trans (if_neg (by simp [hheld]))
  · simp [t]

end Sys2Proof.Scope
end

section
/-!
SUPPORT. What stays of a closed cycle in the timebase (R63, R64): its number, its instants and its frequency, which nothing that follows at
the boundary touches.
-/
namespace Sys2Proof.Scope

open Sys2Proof.Machine Sys2Proof.Laws

/-! ### The marks of a boundary -/

/-- Numbers and instants of the running and of the last closed cycle, and the frequency of the latter (R63, R64). -/
def cycleMarks (t : Timebase) : Nat × Nat × Stamp × Nat × Nat × Stamp × Nat :=
  (t.cycle, t.lastCycle, t.prevBoundary, t.start, t.prevStart, t.boundary, t.freq)

/-- The marks that the closure of the running cycle leaves, at a calendar time. -/
def closedMarks (cal : Option CalTime) (t : Timebase) : Nat × Nat × Stamp × Nat × Nat × Stamp × Nat :=
  let next := (t.cycle + 1) % 2 ^ 48
  (next, t.cycle, t.boundary, t.start + t.period, t.start, ⟨next, 0, cal⟩, sysHz * 2 ^ 32 / t.period)

@[simp] theorem setSlew_marks (x : Int) (t : Timebase) : cycleMarks (t.setSlew x) = cycleMarks t := by
  unfold Timebase.setSlew
  split <;> rfl

@[simp] theorem hold_marks (period : Nat) (t : Timebase) : cycleMarks (t.hold period) = cycleMarks t := setSlew_marks 0 t

@[simp] theorem count_marks (period : Nat) (locked degraded : Bool) (t : Timebase) :
    cycleMarks (t.count period locked degraded) = cycleMarks t := rfl

/-! ### Reference, lock and the next period (R68 to R73) -/

@[simp] theorem switchRef_marks (ref : Nat) (frozen : Int) (s : State) :
    cycleMarks (s.switchRef ref frozen).tb = cycleMarks s.tb := by
  rw [State.switchRef, raiseWith_tb]
  rfl

/-- FREERUN holds the nominal period with no reference (R72). -/
theorem enterFreerun_holds (s : State) : s.enterFreerun.tb =
    { s.tb.hold (nominalPeriod s.tb.nomf60) with mode := .freerun, active := 15, lockRun := 0 } := by
  rw [State.enterFreerun, raiseWith_tb, blot_tb]

@[simp] theorem enterFreerun_marks (s : State) : cycleMarks s.enterFreerun.tb = cycleMarks s.tb := by
  rw [enterFreerun_holds]
  exact hold_marks (nominalPeriod s.tb.nomf60) s.tb

@[simp] theorem enterHoldover_marks (periods : List Nat) (s : State) :
    cycleMarks (s.enterHoldover periods).tb = cycleMarks s.tb := by
  have hheld (period : Nat) : cycleMarks { s.tb.hold period with
      mode := .holdover, active := 15, provisional := none, holdRun := 0, lockRun := 0 } = cycleMarks s.tb := hold_marks period s.tb
  unfold State.enterHoldover
  dsimp only
  split
  · exact enterFreerun_marks s
  · rw [raiseWith_tb, blot_tb, hheld]

@[simp] theorem chooseRef_marks (old : Vector Cand 8) (periods : List Nat) (looks : List Look) (s : State) :
    cycleMarks (s.chooseRef old periods looks).tb = cycleMarks s.tb := by
  have hacquire (x : Int) : cycleMarks { s.tb.setSlew x with mode := .acquire, lockRun := 0 } = cycleMarks s.tb :=
    setSlew_marks x s.tb
  unfold State.chooseRef
  dsimp only
  repeat' split
  all_goals simp [hacquire]

@[simp] theorem judgeLock_marks (s : State) : cycleMarks s.judgeLock.tb = cycleMarks s.tb := by
  unfold State.judgeLock
  dsimp only
  (repeat' split) <;> simp [cycleMarks]

@[simp] theorem nextPeriod_marks (t : Timebase) : cycleMarks t.nextPeriod = cycleMarks t := by
  unfold Timebase.nextPeriod
  dsimp only
  split
  · rfl
  · exact setSlew_marks _ t

theorem closeTimebase_marks (s : State) :
    cycleMarks s.closeTimebase.tb = closedMarks (s.calAt (s.tb.start + s.tb.period)) s.tb := by
  unfold State.closeTimebase
  dsimp only
  rw [nextPeriod_marks, judgeLock_marks, chooseRef_marks]
  rfl

/-! ### What takes effect at the boundary, and what closes there -/

theorem absorbDelay_marks (old new : CalSet) (s : State) : cycleMarks (s.absorbDelay old new).tb = cycleMarks s.tb := by
  unfold State.absorbDelay
  dsimp only
  split
  · rfl
  · split
    · rfl
    · exact setSlew_marks _ s.tb

theorem commitBoundary_marks (s : State) : cycleMarks s.commitBoundary.tb = cycleMarks s.tb := by
  unfold State.commitBoundary State.commitSet
  dsimp only
  split
  · rfl
  · rw [okTo_tb]
    split
    · rw [firstCommit_tb, absorbDelay_marks]
    · rw [absorbDelay_marks]

theorem boundaryEffects_marks (s : State) : cycleMarks s.boundaryEffects.tb = cycleMarks s.tb := by
  unfold State.boundaryEffects
  dsimp only
  split <;> simp [commitBoundary_marks]

theorem close150_marks (short : Bool) (s : State) : cycleMarks (s.close150 short).tb = cycleMarks s.tb := rfl

/-- The timebase under a changed NOMF (R75). -/
def underNomf (new : Bool) (t : Timebase) : Timebase :=
  let free := match t.mode with | .freerun => true | _ => false
  if free then { t.hold (nominalPeriod new) with nomf60 := new } else { t with nomf60 := new }

theorem underNomf_marks (new : Bool) (t : Timebase) : cycleMarks (underNomf new t) = cycleMarks t := by
  unfold underNomf
  dsimp only
  split
  · exact hold_marks (nominalPeriod new) t
  · rfl

/-- A change of NOMF reaches the timebase, and closes the 150/180-cycle interval that runs (R75). -/
theorem applyNomf_tb {s : State} (h : bit (s.asked .tbCfg) 0 ≠ s.tb.nomf60) :
    let s1 : State := { s with tb := underNomf (bit (s.asked .tbCfg) 0) s.tb }.settingTook
    s.applyNomf.tb = (if s1.tb.aggBlocks = 0 then s1 else s1.close150 true).tb := by
  unfold State.applyNomf
  rw [if_neg h]
  rfl

theorem applyNomf_marks (s : State) : cycleMarks s.applyNomf.tb = cycleMarks s.tb := by
  by_cases h : bit (s.asked .tbCfg) 0 = s.tb.nomf60
  · rw [State.applyNomf, if_pos h]
  · rw [applyNomf_tb h, ite_tb]
    split
    · rw [settingTook_tb, underNomf_marks]
    · rw [close150_marks, settingTook_tb, underNomf_marks]

theorem closeBlock_marks (short : Bool) (s : State) : cycleMarks (s.closeBlock short).tb = cycleMarks s.tb := by
  unfold State.closeBlock
  dsimp only
  rw [cut_tb, applyNomf_marks, flushDue_tb, chain_tb _ _ _ (closeBus_tb _ _), chain_tb _ _ _ (closeChannel_tb _ _)]
  dsimp only
  rw [blockDetectors_tb]
  rfl

theorem ite_marks {c : Prop} [Decidable c] {a b s : State} (ha : cycleMarks a.tb = cycleMarks s.tb)
    (hb : cycleMarks b.tb = cycleMarks s.tb) : cycleMarks (if c then a else b).tb = cycleMarks s.tb := by
  split
  · exact ha
  · exact hb

/-- The block and the aggregate that a 10-minute tick finds running have closed, and the aggregates are marked (R141, R142, R275). -/
def tickClosed (s : State) : State :=
  let u := if s.tb.blkCycles = 0 then s else s.closeBlock (decide (s.tb.blkCycles < blockLength s.tb.nomf60))
  (if u.tb.aggBlocks = 0 then u else u.close150 (decide (u.tb.aggBlocks < 15))).countedAggs

theorem tickClosed_marks (s : State) : cycleMarks (tickClosed s).tb = cycleMarks s.tb := by
  unfold tickClosed
  dsimp only
  rw [countedAggs_tb]
  refine (ite_marks rfl (close150_marks _ _)).trans ?_
  exact ite_marks rfl (closeBlock_marks _ s)

/-- A 10-minute tick opens the next 10-minute interval, and where it is due the next 2-hour interval. -/
theorem tenMinuteTick_tb (s : State) : s.tenMinuteTick.tb =
    { (tickClosed s).tb with
      tenMin := (tickClosed s).opening
      twoHours := if s.scheduleDue 7200 s.tb.twoHours then (tickClosed s).opening else (tickClosed s).tb.twoHours } := by
  unfold State.tenMinuteTick
  dsimp only
  rw [checkpoint_tb, refill_tb, ite_tb, ite_self]
  rfl

theorem tenMinuteTick_marks (s : State) : cycleMarks s.tenMinuteTick.tb = cycleMarks s.tb := by
  rw [tenMinuteTick_tb]
  exact tickClosed_marks s

theorem frequencyClose_marks (s : State) : cycleMarks s.frequencyClose.tb = cycleMarks s.tb := rfl

/-- Schedules that a step has passed close there; none of them moves a boundary (R83). -/
theorem closeSteps_marks (moves : List CalMove) (s : State) : cycleMarks (s.closeSteps moves).tb = cycleMarks s.tb := by
  unfold State.closeSteps
  dsimp only
  refine (ite_marks (tenMinuteTick_marks _) rfl).trans ?_
  refine (ite_marks (frequencyClose_marks _) rfl).trans ?_
  rw [chain_tb _ _ _ fun b s => balanceClose_tb b false s]
  refine (ite_marks (congrArg _ (profileClose_tb false _)) rfl).trans ?_
  rw [chain_tb _ _ _ demandClose_tb]

/-! ### The closure (R84) -/

/-- The closing cycle has entered every quantity, and the boundary has its image: what the timebase closes on. -/
def imageTaken (errs : List AccErr) (s : State) : State :=
  let s0 := ((s.noteCommit.dropOldWindows).markSteps).closeQuantities errs
  s0.boundaryImage (s0.anv.blots &&& ~~~s.anv.blots)

theorem imageTaken_tb (errs : List AccErr) (s : State) : (imageTaken errs s).tb = s.tb := by
  rw [imageTaken, boundaryImage_tb, closeQuantities_tb, markSteps_tb, dropOldWindows_tb, noteCommit_tb]

theorem turnCycle_marks (s : State) :
    cycleMarks s.turnCycle.tb = closedMarks (s.calAt (s.tb.start + s.tb.period)) s.tb := by
  rw [State.turnCycle]
  exact (count_marks _ _ _ _).trans (closeTimebase_marks s)

theorem closedCycle_marks (errs : List AccErr) (s : State) :
    ∃ cal, cycleMarks (closedCycle errs s).tb = closedMarks cal s.tb := by
  have hclosed : cycleMarks (closedCycle errs s).tb = cycleMarks (imageTaken errs s).turnCycle.tb :=
    ite_marks rfl (congrArg cycleMarks (flushDue_tb _))
  rw [hclosed, turnCycle_marks, imageTaken_tb]
  exact ⟨_, rfl⟩

theorem afterBoundary_marks (moves : List CalMove) (s : State) : cycleMarks (afterBoundary moves s).tb = cycleMarks s.tb := by
  rw [afterBoundary, closureRecord_tb, refill_tb, closeSteps_marks, cutAsked_tb, openNext_tb, chain_tb _ _ _ spareBoundary_tb]

theorem cycleClose_marks (errs : List AccErr) (s : State) :
    ∃ cal, cycleMarks (s.cycleClose errs).tb = closedMarks cal s.tb := by
  obtain ⟨cal, hclosed⟩ := closedCycle_marks errs s
  refine ⟨cal, ?_⟩
  rw [cycleClose_eq, afterBoundary_marks, boundaryEffects_marks, hclosed]

/-! ### FREERUN_ENTRY and LSYNC (R72, R74) -/

theorem execFreerunEntry_enters {s : State} (hmode : s.tb.mode = .holdover) (hheld : fld (s.live .hold) 15 0 ≤ s.tb.holdRun) :
    exec .freerunEntry s = .next s.enterFreerun := by
  simp only [exec, execFreerunEntry, hmode, if_pos hheld]

/-- Settles O35: the marks of a boundary stand from the closure of the timebase on. -/
theorem timebaseRowsComplete : Obligations.TimebaseRowsComplete := by
  refine ⟨fun errs s hp hm => ?_, fun s hmode hheld => ?_, fun rising tick s hp => ⟨fun hother => ?_, fun hchosen => ?_⟩,
    fun s => rfl⟩
  · obtain ⟨cal, hmarks⟩ := cycleClose_marks errs s
    simp only [cycleMarks, closedMarks, Prod.mk.injEq] at hmarks
    obtain ⟨hcycle, hlast, hprev, hstart, hprevStart, hboundary, hfreq⟩ := hmarks
    exact ⟨_, cycleClose_runs hp hm errs, hcycle, hlast, hprev, hstart, hprevStart, by rw [hboundary], by rw [hboundary], hfreq⟩
  · refine ⟨_, execFreerunEntry_enters hmode hheld, ?_⟩
    rw [enterFreerun_holds]
    exact ⟨rfl, rfl, rfl, rfl, enterFreerun_blotted s⟩
  · simp only [exec, execLsyncEdge, hother, ne_eq, not_true, decide_false, Bool.and_false, Bool.false_eq_true, if_false]
  · simp only [exec, execLsyncEdge, hp, hchosen, ne_eq, not_false_eq_true, decide_true, Bool.and_self, if_true]

end Sys2Proof.Scope
end

section
/-!
SUPPORT. A profile close that reclaims unacknowledged records raises PROFILE_LOST's source 20 beside its own source 19 (R119, R284).
-/
namespace Sys2Proof.Scope

open Sys2Proof.Machine Sys2Proof.Laws

/-! ### What a raised source adds to the pending set (R284, R287, R292) -/

theorem mem_insertAsc {m n : Nat} {l : List Nat} : m ∈ insertAsc n l ↔ m = n ∨ m ∈ l := by
  induction l with
  | nil => simp [insertAsc]
  | cons y l ih =>
    unfold insertAsc
    split
    · exact List.mem_cons
    · split
      · next h => simp [h]
      · rw [List.mem_cons, ih, List.mem_cons, or_left_comm]

theorem mem_latch {m n : Nat} {s : State} :
    m ∈ (s.latch n).intc.pend ↔ m ∈ s.intc.pend ∨ (m = n ∧ n < 192 ∧ intReserved n = false) := by
  unfold State.latch
  split
  · next h =>
    simp only [Bool.and_eq_true, decide_eq_true_eq, Bool.not_eq_true'] at h
    simp [mem_insertAsc, h, or_comm]
  · next h =>
    simp only [Bool.and_eq_true, decide_eq_true_eq, Bool.not_eq_true'] at h
    simp [h]

/-- The end of a stay in Banked raises source 65 at most (R292). -/
theorem mem_wakeFor {m : Nat} (h : m ≠ 65) (l : List Nat) (s : State) :
    m ∈ (s.wakeFor l).intc.pend ↔ m ∈ s.intc.pend := by
  unfold State.wakeFor State.unbank
  split
  · split
    · simp [mem_latch, h]
    · rfl
  · rfl

/-- Routing adds no pending source. -/
theorem routeN_pend_subset (k : Nat) (s : State) : (s.routeN k).intc.pend ⊆ s.intc.pend := by
  induction k generalizing s with
  | zero => exact List.Subset.refl _
  | succ k ih =>
    unfold State.routeN
    split
    · exact List.Subset.refl _
    · exact List.Subset.trans (ih _) ((List.filter_subset_self _))

/-- Every target is disabled (R291). -/
def targetsOff (s : State) : Prop := ∀ t : Fin 6, bit (s.live (.tgtCfg t)) 31 = false

theorem targetsOff_congr {s t : State} (h : t.eff = s.eff) (hs : targetsOff s) : targetsOff t := by
  intro i
  rw [State.live, h]
  exact hs i

/-- With every target disabled, no source is delivered (R287). -/
theorem route_of_targetsOff {s : State} (h : targetsOff s) : s.route = s := by
  have hnone (n : Fin 192) : s.chosenTarget n = none := by simp [State.chosenTarget, State.targetOn, h _]
  have hfirst : s.firstSource = none := by
    simp [State.firstSource, hnone]
  rw [State.route, State.routeN, hfirst]

/-- Raising a source adds that source to the pending set, and source 65 at most. -/
theorem mem_of_mem_pendInt {m n : Nat} {s : State} (h65 : m ≠ 65) (h : m ∈ (s.pendInt n).intc.pend) :
    m ∈ s.intc.pend ∨ m = n :=
  (mem_latch.mp ((mem_wakeFor h65 _ _).mp (routeN_pend_subset _ _ h))).imp_right And.left

theorem mem_pendInt_of_targetsOff {m n : Nat} {s : State} (hoff : targetsOff s) (h65 : m ≠ 65) :
    m ∈ (s.pendInt n).intc.pend ↔ m ∈ s.intc.pend ∨ (m = n ∧ n < 192 ∧ intReserved n = false) := by
  have hoff' : targetsOff ((s.latch n).wakeFor [n]) := targetsOff_congr (by simp) hoff
  rw [State.pendInt, route_of_targetsOff hoff', mem_wakeFor h65, mem_latch]

/-! ### Records lost (R119) -/

/-- PROFILE_LOST goes to the log, and its source is raised (R119, R284). -/
theorem logOnly_profileLost_raises (u : Subject) (d : List Byte) {s : State} (hoff : targetsOff s) :
    20 ∈ (s.logOnly .profileLost u d).intc.pend := by
  obtain ⟨x, hx⟩ : ∃ x, s.logOnly .profileLost u d = (s.toLog x).pendInt 20 := ⟨_, rfl⟩
  rw [hx, mem_pendInt_of_targetsOff (targetsOff_congr (toLog_eff x s) hoff) (by decide)]
  exact .inr ⟨rfl, by decide, by decide⟩

/-- Lost records are counted, and the loss is noted (R119). -/
def lossMarked (lost : List ProfRec) (s : State) : State :=
  let s1 := chain (lost.flatMap ProfRec.points) State.countLost s
  { s1 with prof := { s1.prof with lossNoted := true } }

theorem lossMarked_eff (lost : List ProfRec) (s : State) : (lossMarked lost s).eff = s.eff := chain_eff _ _ _ countLost_eff

theorem loseRecords_first (x : ProfRec) (l : List ProfRec) {s : State} (hnoted : s.prof.lossNoted = false) :
    s.loseRecords (x :: l) =
      (lossMarked (x :: l) s).logOnly .profileLost .device (le 6 x.number ++ le 6 (l.getLast?.getD x).number) := by
  unfold State.loseRecords
  dsimp only
  rw [if_neg (by simp [hnoted]), lossMarked]

/-- The first loss that is to be noted raises the source of PROFILE_LOST. -/
theorem loseRecords_raises (x : ProfRec) (l : List ProfRec) {s : State} (hnoted : s.prof.lossNoted = false)
    (hoff : targetsOff s) : 20 ∈ (s.loseRecords (x :: l)).intc.pend := by
  rw [loseRecords_first x l hnoted]
  exact logOnly_profileLost_raises _ _ (targetsOff_congr (lossMarked_eff _ s) hoff)

/-- A full ring gives up its oldest record, whatever is to be written. -/
theorem reclaimProfile_of_full {n : Nat} (x : ProfRec) (l : List ProfRec) (hn : 0 < n)
    (hfull : profileRing ≤ ((x :: l).map fun r => r.bytes.length).foldl (· + ·) 0) :
    (reclaimProfile n (x :: l)).1 = x :: (reclaimProfile n l).1 := by
  have hover : ¬ ((x :: l).map fun r => r.bytes.length).foldl (· + ·) 0 + n ≤ profileRing := by omega
  simp only [reclaimProfile, if_neg hover]

/-- The points of a group that have a record in the running interval. -/
def groupPoints (g : Nat) (s : State) : List (Fin 128) := (s.prof.map.filterMap (idx? 128)).filter fun p => p.val / 32 = g

/-- The bytes of the record of a group, the chain hash included (R117). -/
def groupBytes (g : Nat) (s : State) : List Byte :=
  s.profileBody g (groupPoints g s) ++ sha256 (s.prof.hash ++ s.profileBody g (groupPoints g s))

theorem groupBytes_pos (g : Nat) (s : State) : 0 < (groupBytes g s).length := by simp [groupBytes, State.profileBody, le]

/-- The records that the record of a group reclaims before any host has acknowledged them (R119). -/
def groupLost (g : Nat) (s : State) : List ProfRec :=
  (reclaimProfile (groupBytes g s).length s.prof.ring).1.filter fun x => !s.prof.acked x.number

/-- The profile with the record of a group written (R117, R119). -/
def recordWritten (g : Nat) (s : State) (p : Profile) : Profile :=
  { p with
    ring := (reclaimProfile (groupBytes g s).length s.prof.ring).2 ++
      [⟨s.prof.next, (groupPoints g s).map Fin.val, groupBytes g s, false⟩]
    next := (s.prof.next + 1) % 2 ^ 48, newest := s.prof.next
    hash := sha256 (s.prof.hash ++ s.profileBody g (groupPoints g s)), gapDue := false
    runs := noteRun s.prof.next s.prof.runs }

theorem writeGroup_eq {g : Nat} {s : State} (hps : groupPoints g s ≠ []) :
    let s1 := s.loseRecords (groupLost g s)
    s.writeGroup g = ({ s1 with prof := recordWritten g s s1.prof } : State).pendInt 19 := by
  unfold State.writeGroup
  dsimp only
  rw [if_neg (by simpa [groupPoints] using hps)]
  rfl

/-- A record that takes the place of one that no host has acknowledged leaves source 20 pending. -/
theorem writeGroup_raisesLoss {g : Nat} {x : ProfRec} {l : List ProfRec} {s : State} (hps : groupPoints g s ≠ [])
    (hring : s.prof.ring = x :: l) (hfull : profileRing ≤ (s.prof.ring.map fun r => r.bytes.length).foldl (· + ·) 0)
    (hack : s.prof.acked x.number = false) (hnoted : s.prof.lossNoted = false) (hoff : targetsOff s) :
    20 ∈ (s.writeGroup g).intc.pend := by
  obtain ⟨l', hlost⟩ : ∃ l', groupLost g s = x :: l' := by
    rw [groupLost, hring, reclaimProfile_of_full x l (groupBytes_pos g s) (hring ▸ hfull)]
    exact ⟨_, List.filter_cons_of_pos (by simp [hack])⟩
  rw [writeGroup_eq hps, hlost]
  refine (mem_pendInt_of_targetsOff ?_ (by decide)).mpr (.inl (loseRecords_raises x l' hnoted hoff))
  exact targetsOff_congr (loseRecords_eff (x :: l') s) hoff

/-! ### A full ring (R117, R119) -/

/-- A record of 1024 bytes of point 0. -/
def oldRecord (n : Nat) : ProfRec := ⟨n, [0], zeros 1024, false⟩

theorem oldRecord_length (n : Nat) : (oldRecord n).bytes.length = 1024 := List.length_replicate

/-- Point 0 is recorded, 1536 records that no host has acknowledged fill the ring, and the interrupt targets are disabled. -/
def fullRing : State :=
  { State.reset with
    eff := (List.finRange 6).map fun t => ((Reg.tgtCfg t).addr, 0)
    prof := { State.reset.prof with
      map := [0], ring := (List.range 1536).map oldRecord, next := 1536, newest := 1535 } }

theorem fullRing_isFull : (fullRing.prof.ring.map fun r => r.bytes.length).foldl (· + ·) 0 = profileRing := by
  have hlen : (fullRing.prof.ring.map fun r => r.bytes.length) = List.replicate 1536 1024 := by
    simp only [fullRing, List.map_map, Function.comp_def, oldRecord_length, List.map_const', List.length_range]
  rw [hlen, ← List.sum_eq_foldl, List.sum_replicate]
  rfl

theorem fullRing_targetsOff : targetsOff fullRing := by
  unfold targetsOff
  decide

theorem fullRing_oldest : fullRing.prof.ring = oldRecord 0 :: (List.range' 1 1535).map oldRecord := by
  rw [fullRing, List.range_eq_range', List.range'_succ, List.map_cons]

theorem fullRing_losesOldest : 20 ∈ (fullRing.writeGroup 0).intc.pend :=
  writeGroup_raisesLoss (by decide) fullRing_oldest fullRing_isFull.ge rfl rfl fullRing_targetsOff

/-- Refutes O36: a profile close whose record takes the place of one that no host has acknowledged raises PROFILE_LOST's source 20 as well
(R119, R284), so that its state is none that source 19 alone leaves. -/
theorem not_intervalRowsComplete : ¬ Obligations.IntervalRowsComplete := by
  intro h
  obtain ⟨-, -, -, -, -, -, -, hgroup, -⟩ := h
  obtain ⟨-, hwrites⟩ := hgroup 0 fullRing
  obtain ⟨-, -, -, -, -, -, -, -, -, -, -, -, -, y, hy, hintc⟩ := hwrites (by decide)
  have hraised : 20 ∈ (y.pendInt 19).intc.pend := hy ▸ fullRing_losesOldest
  have hbefore : 20 ∉ y.intc.pend := by rw [hintc]; decide
  exact hbefore ((mem_of_mem_pendInt (by decide) hraised).resolve_right (by decide))

end Sys2Proof.Scope
end

section
/-!
SUPPORT. Which rows leave the metering points: all but those that close a cycle, a demand or a profile interval, scrub an
accumulator, restore the journal, begin metering or reset the part (R84, R112, R113, R115, R127, R132, R233, R279).
-/
namespace Sys2Proof.Scope

open Sys2Proof.Machine Sys2Proof.Laws

/-- A row outside those that move the points leaves every one of them: accumulators, sums and demand. -/
theorem exec_pts {c : Instr} (s : State) (h : movesPoints c = false) : ∃ t, exec c s = .next t ∧ t.pts = s.pts := by
  cases c with
  | cycleClose | demandClose | profileClose | accScrub | journalRestored | firstMeteredCycle | startupFreerunFallback
  | brownout | por | resetnCold => cases h
  | nop => exact execNop_pts ..
  | sessionOpen => exact execSessionOpen_pts ..
  | sessionClose => exact execSessionClose_pts ..
  | setPriority => exact execSetPriority_pts ..
  | folioRead => exact execFolioRead_pts ..
  | folioLease => exact execFolioLease_pts ..
  | folioRenew => exact execFolioRenew_pts ..
  | folioRelease => exact execFolioRelease_pts ..
  | folioCut => exact execFolioCut_pts ..
  | folioSealGet => exact execFolioSealGet_pts ..
  | paramRead => exact execParamRead_pts ..
  | paramWrite => exact execParamWrite_pts ..
  | scRead => exact execScRead_pts ..
  | eventRead => exact execEventRead_pts ..
  | eventAck => exact execEventAck_pts ..
  | profileRead => exact execProfileRead_pts ..
  | profileAck => exact execProfileAck_pts ..
  | wbRead => exact execWbRead_pts ..
  | capRead => exact execCapRead_pts ..
  | capTrigger => exact execCapTrigger_pts ..
  | capRelease => exact execCapRelease_pts ..
  | logRead => exact execLogRead_pts ..
  | demandReset => exact execDemandReset_pts ..
  | calCommit => exact execCalCommit_pts ..
  | calPendingRead => exact execCalPendingRead_pts ..
  | calPendingResolve => exact execCalPendingResolve_pts ..
  | pulseTest => exact execPulseTest_pts ..
  | blotRead => exact execBlotRead_pts ..
  | blotClear => exact execBlotClear_pts ..
  | bankEnter => exact execBankEnter_pts ..
  | bankExit => exact execBankExit_pts ..
  | softReset => exact execSoftReset_pts ..
  | auxRead => exact execAuxRead_pts ..
  | cfgSave => exact execCfgSave_pts ..
  | inkLock => exact execInkLock_pts ..
  | inkUnlock => exact execInkUnlock_pts ..
  | fwBegin => exact execFwBegin_pts ..
  | fwWrite => exact execFwWrite_pts ..
  | fwVerify => exact execFwVerify_pts ..
  | fwActivate => exact execFwActivate_pts ..
  | cldSet => exact execCldSet_pts ..
  | cldAdjustStep => exact execCldAdjustStep_pts ..
  | cldAdjustSlew => exact execCldAdjustSlew_pts ..
  | cldAlarmAck => exact execCldAlarmAck_pts ..
  | grdClearArm => exact execGrdClearArm_pts ..
  | grdClearConfirm => exact execGrdClearConfirm_pts ..
  | grdTest => exact execGrdTest_pts ..
  | idCertRead => exact execIdCertRead_pts ..
  | pnlTableLoad => exact execPnlTableLoad_pts ..
  | pnlImageWrite => exact execPnlImageWrite_pts ..
  | pnlUpdate => exact execPnlUpdate_pts ..
  | forceSpare => exact execForceSpare_pts ..
  | restore => exact execRestore_pts ..
  | check => exact execCheck_pts ..
  | trimModWrite => exact execTrimModWrite_pts ..
  | trimVrefWrite => exact execTrimVrefWrite_pts ..
  | trimOscWrite => exact execTrimOscWrite_pts ..
  | reload => exact execReload_pts ..
  | rejoin => exact execRejoin_pts ..
  | xreturn => exact execXreturn_pts ..
  | eoi => exact execEoi_pts ..
  | intTargetDisable => exact execIntTargetDisable_pts ..
  | arm => exact execArm_pts ..
  | fdis => exact execFdis_pts ..
  | recover => exact execRecover_pts ..
  | frameReceive => exact execFrameReceive_pts ..
  | read => exact execRead_pts ..
  | status => exact execStatus_pts ..
  | uartReplySent => exact execUartReplySent_pts ..
  | portTimeout => exact execPortTimeout_pts ..
  | spiPortReset => exact execSpiPortReset_pts ..
  | uartFrameStall => exact execUartFrameStall_pts ..
  | brk => exact execBrk_pts ..
  | replyDropped => exact execReplyDropped_pts ..
  | sessionIdleTimeout => exact execSessionIdleTimeout_pts ..
  | leaseExpiry => exact execLeaseExpiry_pts ..
  | inkLockExpiry => exact execInkLockExpiry_pts ..
  | grdChallengeExpiry => exact execGrdChallengeExpiry_pts ..
  | combFrame => exact execCombFrame_pts ..
  | engFenced => exact execEngFenced_pts ..
  | sampleBatch => exact execSampleBatch_pts ..
  | metrologyReplay => exact execMetrologyReplay_pts ..
  | autoFreezeEnd => exact execAutoFreezeEnd_pts ..
  | freerunEntry => exact execFreerunEntry_pts ..
  | lsyncEdge => exact execLsyncEdge_pts ..
  | lsyncTimeout => exact execLsyncTimeout_pts ..
  | blockClose => exact execBlockClose_pts ..
  | aggregateClose => exact execAggregateClose_pts ..
  | tenMinuteTick => exact execTenMinuteTick_pts ..
  | frequencyIntervalClose => exact execFrequencyIntervalClose_pts ..
  | balanceClose => exact execBalanceClose_pts ..
  | modulatorHardFault => exact execModulatorHardFault_pts ..
  | chSubstituted => exact execChSubstituted_pts ..
  | spareMove => exact execSpareMove_pts ..
  | driftCheckPhase => exact execDriftCheckPhase_pts ..
  | chDriftChecked => exact execChDriftChecked_pts ..
  | chRestored => exact execChRestored_pts ..
  | suppressionEnd => exact execSuppressionEnd_pts ..
  | chClip => exact execChClip_pts ..
  | pulseLeadingEdge => exact execPulseLeadingEdge_pts ..
  | pulseTrailingEdge => exact execPulseTrailingEdge_pts ..
  | wbSetEnd => exact execWbSetEnd_pts ..
  | captureFilled => exact execCaptureFilled_pts ..
  | captureKeepExpiry => exact execCaptureKeepExpiry_pts ..
  | eventLogWrite => exact execEventLogWrite_pts ..
  | intTimeout => exact execIntTimeout_pts ..
  | auxScan => exact execAuxScan_pts ..
  | sramScrub => exact execSramScrub_pts ..
  | xtalFail => exact execXtalFail_pts ..
  | xtalRate => exact execXtalRate_pts ..
  | xtalReturn => exact execXtalReturn_pts ..
  | powerFail => exact execPowerFail_pts ..
  | journalEntry => exact execJournalEntry_pts ..
  | tailUpdate => exact execTailUpdate_pts ..
  | journalErase ok => exact execJournalErase_pts ok s
  | pfSustained => exact execPfSustained_pts ..
  | pfRecovered => exact execPfRecovered_pts ..
  | resetnWarm => exact execResetnWarm_pts ..
  | vaonChangeover => exact execVaonChangeover_pts ..
  | supplyLossBoth => exact execSupplyLossBoth_pts ..
  | crystalAccepted => exact execCrystalAccepted_pts ..
  | startupReady => exact execStartupReady_pts ..
  | configRestore => exact execConfigRestore_pts ..
  | cfgRestoreFail => exact execCfgRestoreFail_pts ..
  | anvWdog => exact execAnvWdog_pts ..
  | fwTrialEnd => exact execFwTrialEnd_pts ..
  | calSecondBoundary => exact execCalSecondBoundary_pts ..
  | calStopped => exact execCalStopped_pts ..
  | grdClock => exact execGrdClock_pts ..
  | grdSource => exact execGrdSource_pts ..
  | panelPairBoundary => exact execPanelPairBoundary_pts ..
  | railStep => exact execRailStep_pts ..
  | railRead => exact execRailRead_pts ..
  | panelFault => exact execPanelFault_pts ..
  | folioSealed => exact execFolioSealed_pts ..
  | resetnRelease => exact execResetnRelease_pts ..
  | startUpTest => exact execStartUpTest_pts ..
  | portsReady => exact execPortsReady_pts ..
  | xtalStartTimeout => exact execXtalStartTimeout_pts ..
  | slewEnd => exact execSlewEnd_pts ..
  | cellScanPeriod => exact execCellScanPeriod_pts ..
  | panelFrameBoundary => exact execPanelFrameBoundary_pts ..
  | isolatedParityError => exact execIsolatedParityError_pts ..

/-- Settles O46: each row outside the points' own, every host command among them, is one of the operations that leave them. -/
theorem pointsMoveOnlyByTheirRows : Obligations.PointsMoveOnlyByTheirRows := by
  intro c s t hc h
  obtain ⟨u, hu, hpts⟩ := exec_pts s hc
  cases h.symm.trans hu
  exact hpts

end Sys2Proof.Scope
end

section
/-!
SUPPORT. What a served command on events, profile records, wideband sets, captures and the log does (R118, R119, R157, R158,
R170, R236, R237, R325).
-/
namespace Sys2Proof.Scope

open Sys2Proof.Machine Sys2Proof.Laws

/-! ### A served command (R204, R213, R228) -/

/-- A served host command leaves what its own effect makes of the woken state. -/
theorem exec_served {c : Instr} {op : Nat} {r : Req} {s : State} {body : State → State}
    (hc : exec c s = .next (s.command op r body)) (hs : s.served op r = true) :
    exec c s = .next (body (s.woken op)) :=
  hc.trans (congrArg _ (command_served body hs))

/-- A served fast-path command acts on the state as it stands. -/
theorem exec_served_fast {c : Instr} {op : Nat} {r : Req} {s : State} {body : State → State}
    (hc : exec c s = .next (s.command op r body)) (hs : s.served op r = true) (hf : isSlow op = false) :
    exec c s = .next (body s) :=
  (exec_served hc hs).trans (by rw [woken_fast hf])

/-! ### Reads of what is held (R119, R170, R236, R237, R325) -/

/-- From a number that the ring holds, the events are answered, or ECC_ERROR. -/
theorem eventRead_held (r : Req) {number : Nat} {s : State} (hn : number < s.ev.next)
    (ho : (s.ev.ring.head?.map Event.number).getD s.ev.next ≤ number) :
    s.eventRead r number =
      let out := takeWhole (fun e => e.bytes.length) 4088 (s.ev.ring.filter fun e => number ≤ e.number)
      if out.any fun e => s.ev.bad.contains e.number then s.fail 0x0301 r .eccError
      else s.ok 0x0301 r (le 6 s.ev.newest ++ le 2 (ringUsed out) ++ out.flatMap Event.bytes) := by
  unfold State.eventRead
  dsimp only
  rw [if_neg (Nat.not_le.2 hn), if_neg (Nat.not_lt.2 ho)]

/-- From a record that the ring holds, the run of records is answered, or ECC_ERROR. -/
theorem profileRead_held (r : Req) {number count : Nat} {x : ProfRec} {rest : List ProfRec} {s : State} (h1 : 1 ≤ count)
    (h3 : count ≤ 3) (hn : number < s.prof.next)
    (hl : (consecutive number (s.prof.ring.filter fun x => number ≤ x.number)).take count = x :: rest) :
    s.profileRead r number count =
      let out := takeWhole (fun x => x.bytes.length) 4088 (x :: rest)
      if out.any ProfRec.bad then s.fail 0x0303 r .eccError
      else s.ok 0x0303 r (le 1 out.length ++ zeros 7 ++ out.flatMap ProfRec.bytes) := by
  have hc : ¬ (decide (count = 0) || decide (3 < count)) = true := by
    simp only [Bool.or_eq_true, decide_eq_true_eq]; omega
  unfold State.profileRead
  dsimp only
  rw [hl, if_neg hc, if_neg (Nat.not_le.2 hn), if_neg (by simp)]

/-- From a record that the log holds, records are answered, or ECC_ERROR. -/
theorem logRead_held (r : Req) {number count : Nat} {x : LogRec} {rest : List LogRec} {s : State} (h1 : 1 ≤ count)
    (h127 : count ≤ 127) (hn : number < s.anv.logNext)
    (hl : (s.anv.log.dropWhile fun x => x.number ≠ number) = x :: rest) :
    s.logRead r number count =
      let out := (x :: rest).take count
      if out.any LogRec.bad then s.fail 0x0309 r .eccError
      else s.ok 0x0309 r (le 6 s.anv.logNewest ++ le 2 out.length ++ out.flatMap LogRec.bytes) := by
  have hc : ¬ (decide (count = 0) || decide (127 < count)) = true := by
    simp only [Bool.or_eq_true, decide_eq_true_eq]; omega
  have he : ¬ ((x :: rest).take count).isEmpty = true := by
    simpa [List.isEmpty_iff] using Nat.ne_of_gt h1
  unfold State.logRead
  dsimp only
  rw [hl, if_neg hc, if_neg (Nat.not_le.2 hn), if_neg he]

/-! ### Captures (R157, R158) -/

@[simp] theorem woken_calAt (op x : Nat) (s : State) : (s.woken op).calAt x = s.calAt x := by
  unfold State.calAt State.calNow State.clock
  rw [woken_cld, woken_flt]

/-- Waking moves no instant: the timebase and the calendar stand. -/
@[simp] theorem woken_stampNow (op : Nat) (s : State) : (s.woken op).stampNow = s.stampNow := by
  simp [State.stampNow, State.stampOf, State.clock]

@[simp] theorem captureList_st (t : Stamp × Nat) (c : Capture) : (c.list t).st = c.st := by
  unfold Capture.list; split <;> rfl

@[simp] theorem captureList_number (t : Stamp × Nat) (c : Capture) : (c.list t).number = c.number := by
  unfold Capture.list; split <;> rfl

/-- A trigger that joins a capture leaves its first trigger, from which its sixteen cycles count (R157). -/
theorem captureList_head? (t : Stamp × Nat) {c : Capture} (h : c.triggers ≠ []) :
    (c.list t).triggers.head? = c.triggers.head? := by
  unfold Capture.list
  split
  · exact List.head?_append_of_ne_nil _ h
  · rfl

/-- The buffer holds a running capture whose sixteen cycles hold an instant (R157). -/
def runsAt (t : Stamp) (c : Capture) : Bool :=
  c.st = .filling && (c.triggers.head?.map fun x => decide (t.cycle ≤ x.1.cycle + 11)).getD false

theorem runningAt_eq (q : Pq) (t : Stamp) : q.runningAt t = (List.finRange 2).find? fun i => runsAt t q.caps[i] := rfl

theorem triggers_ne_nil_of_runsAt {t : Stamp} {c : Capture} (h : runsAt t c = true) : c.triggers ≠ [] := by
  intro hn
  simp [runsAt, hn] at h

theorem runsAt_list {t : Stamp} {c : Capture} (x : Stamp × Nat) (h : runsAt t c = true) : runsAt t (c.list x) = true := by
  have hh := captureList_head? x (triggers_ne_nil_of_runsAt h)
  rw [← h, runsAt, runsAt, hh, captureList_st]

/-- The capture that a trigger has joined is still the one that runs. -/
theorem runningAt_list {q : Pq} {t : Stamp} {i : Fin 2} (x : Stamp × Nat) (h : q.runningAt t = some i) :
    ({ q with caps := upd q.caps i (Capture.list x) } : Pq).runningAt t = some i := by
  rw [runningAt_eq] at h ⊢
  rw [← h]
  congr 1
  funext j
  by_cases hj : j = i
  · subst hj
    have hr : runsAt t q.caps[j] = true := by simpa using List.find?_some h
    rw [upd_same, hr, runsAt_list x hr]
  · rw [upd_other _ _ _ _ hj]

/-- Outside a power-fail sequence a trigger joins the capture that runs (R157, R300). -/
theorem trigger_joins {t : Stamp} {i : Fin 2} {s : State} (kind : Nat) (hp : s.pwr.pfail = false)
    (h : s.pq.runningAt t = some i) :
    s.trigger t kind = { s with pq := { s.pq with caps := upd s.pq.caps i (Capture.list (t, kind)) } } := by
  simp [State.trigger, hp, h]

/-- CAP_TRIGGER names the capture that runs after its trigger. -/
theorem execCapTrigger_names {r : Req} {i : Fin 2} {s s1 : State} (hs : s.served 0x0307 r = true)
    (h1 : (s.woken 0x0307).trigger (s.woken 0x0307).stampNow 10 = s1)
    (hrun : s1.pq.runningAt (s.woken 0x0307).stampNow = some i) :
    exec (.capTrigger r) s = .next (s1.ok 0x0307 r (numberBytes s1.pq.caps[i].number)) := by
  subst h1
  rw [exec_served rfl hs]
  simp only [commandTrigger, hrun]

/-- CAP_TRIGGER joins the capture that runs, and names it by the number that it keeps. -/
theorem execCapTrigger_joins {r : Req} {i : Fin 2} {s : State} (hs : s.served 0x0307 r = true)
    (h : s.pq.runningAt s.stampNow = some i) (hp : s.pwr.pfail = false) :
    ∃ t : State, t.pq.caps = upd s.pq.caps i (Capture.list (s.stampNow, 10)) ∧
      exec (.capTrigger r) s = .next (t.ok 0x0307 r (numberBytes s.pq.caps[i].number)) := by
  have hrun : (s.woken 0x0307).pq.runningAt (s.woken 0x0307).stampNow = some i := by
    rw [woken_pq, woken_stampNow, h]
  have hx := execCapTrigger_names hs (trigger_joins 10 (by rw [woken_pwr, hp]) hrun) (runningAt_list _ hrun)
  simp only [woken_pq, woken_stampNow, upd_same, captureList_number] at hx
  exact ⟨_, by rfl, hx⟩

/-- Settles O16: each command is its own effect on the woken state, and that effect passes the checks that its hypotheses
meet. -/
theorem recordCommandsComplete : Obligations.RecordCommandsComplete := by
  refine ⟨?_, ?_, ?_, ?_, ?_, ?_, ?_, ?_, ?_, ?_⟩
  · intro r number s hs hn ho
    exact (exec_served_fast rfl hs rfl).trans (congrArg _ (eventRead_held r hn ho))
  · intro r number s hs hn
    rw [exec_served rfl hs]
    simp only [woken_ev, if_neg (Nat.not_le.2 hn), laterAck]
  · intro r number count x rest s hs h1 h3 hn hl
    exact (exec_served_fast rfl hs rfl).trans (congrArg _ (profileRead_held r h1 h3 hn hl))
  · intro r number s hs hne hle
    have hc : ¬ (decide (s.prof.newest = noNumber) || decide (s.prof.newest < number)) = true := by
      simp only [Bool.or_eq_true, decide_eq_true_eq]; omega
    rw [exec_served rfl hs]
    simp only [woken_prof, if_neg hc, laterAck]
    split <;> rfl
  · intro r number offset length x s hs hlen hfit hn hx
    have hc : ¬ (decide (length = 0) || !rangeFits offset length 4088 11200) = true := by
      simp [hfit, Nat.ne_of_gt hlen]
    rw [exec_served_fast rfl hs rfl]
    simp only [if_neg hc, if_neg (Nat.not_le.2 hn), hx]
  · intro r number offset length i s hs hfit hn hi hst
    have hc : ¬ (!rangeFits offset length 4088 524288) = true := by simp [hfit]
    rw [exec_served_fast rfl hs rfl]
    simp only [if_neg hc, if_neg (Nat.not_le.2 hn), hi, if_neg hst]
  · intro r i s hs s0 s1 hrun
    exact execCapTrigger_names hs rfl hrun
  · intro r i s hs h hp
    exact execCapTrigger_joins hs h hp
  · intro r number i s hs hi hst
    rw [exec_served rfl hs]
    simp only [woken_pq, hi, if_neg hst]
  · intro r number count x rest s hs h1 h127 hn hl
    have hw : (s.woken 0x0309).anv = s.anv := woken_anv _ _
    refine (exec_served rfl hs).trans (congrArg _ ((logRead_held r h1 h127 (hw ▸ hn) (hw ▸ hl)).trans ?_))
    rw [hw]

end Sys2Proof.Scope
end

section
/-!
SUPPORT. What a served command on metering and calibration does (R115, R127, R132, R178, R238).
-/
namespace Sys2Proof.Scope

open Sys2Proof.Machine Sys2Proof.Laws

/-- Settles O17: each command passes the checks that its hypotheses meet; those that wait then join their list. -/
theorem meteringCommandsComplete : Obligations.MeteringCommandsComplete := by
  refine ⟨?_, ?_, ?_, ?_, ?_⟩
  · intro r mask s hs hm hr
    rw [exec_served rfl hs]
    simp only [woken_mcal, if_neg hm, hr, Bool.false_eq_true, if_false]
  · intro r digest s hs hw hd
    rw [exec_served rfl hs]
    simp only [woken_mcal, hw, hd, Bool.false_eq_true, if_false, ne_eq, not_true_eq_false]
  · intro r point select s hs hsel
    rw [exec_served rfl hs]
    simp only [woken_pts, idx?_val, if_neg (Nat.not_lt.2 hsel)]
  · intro r mask action s hs hm ha hr
    have hc : ¬ (decide (1 < action) || decide (mask = 0)) = true := by
      simp only [Bool.or_eq_true, decide_eq_true_eq, hm, or_false]; omega
    rw [exec_served rfl hs]
    simp only [woken_mcal, if_neg hc, hr, Bool.false_eq_true, if_false]
  · intro r mask ten tconst s hs h
    have hc : ¬ (!((List.finRange 8).filter fun n => mask.getLsbD n.val).isEmpty &&
        (decide (tconst.toNat = 0) || decide (1000000 < tconst.toNat))) = true := by
      rcases h with rfl | ⟨hlo, hhi⟩
      · simp
      · simp only [Bool.and_eq_true, Bool.or_eq_true, decide_eq_true_eq]; omega
    rw [exec_served rfl hs]
    simp only [if_neg hc]

end Sys2Proof.Scope
end

section
/-!
SUPPORT. Which rows leave the live calibration set: all but a cycle closure, the first metered cycle and the cold resets. CAL_COMMIT
joins the commits that wait for the boundary, and a staged word is written beside the live set (R126, R127, R134, R279).
-/
namespace Sys2Proof.Scope

open Sys2Proof.Machine Sys2Proof.Laws

/-- A row outside those that move the live calibration set leaves the whole of it. -/
theorem exec_mcal_live {c : Instr} (s : State) (h : movesCalibration c = false) :
    ∃ t, exec c s = .next t ∧ t.mcal.live = s.mcal.live := by
  cases c with
  | cycleClose | firstMeteredCycle | startupFreerunFallback | brownout | por | resetnCold => cases h
  | nop => exact execNop_mcal_live ..
  | sessionOpen => exact execSessionOpen_mcal_live ..
  | sessionClose => exact execSessionClose_mcal_live ..
  | setPriority => exact execSetPriority_mcal_live ..
  | folioRead => exact execFolioRead_mcal_live ..
  | folioLease => exact execFolioLease_mcal_live ..
  | folioRenew => exact execFolioRenew_mcal_live ..
  | folioRelease => exact execFolioRelease_mcal_live ..
  | folioCut => exact execFolioCut_mcal_live ..
  | folioSealGet => exact execFolioSealGet_mcal_live ..
  | paramRead => exact execParamRead_mcal_live ..
  | paramWrite => exact execParamWrite_mcal_live ..
  | scRead => exact execScRead_mcal_live ..
  | eventRead => exact execEventRead_mcal_live ..
  | eventAck => exact execEventAck_mcal_live ..
  | profileRead => exact execProfileRead_mcal_live ..
  | profileAck => exact execProfileAck_mcal_live ..
  | wbRead => exact execWbRead_mcal_live ..
  | capRead => exact execCapRead_mcal_live ..
  | capTrigger => exact execCapTrigger_mcal_live ..
  | capRelease => exact execCapRelease_mcal_live ..
  | logRead => exact execLogRead_mcal_live ..
  | demandReset => exact execDemandReset_mcal_live ..
  | calCommit => exact execCalCommit_mcal_live ..
  | calPendingRead => exact execCalPendingRead_mcal_live ..
  | calPendingResolve => exact execCalPendingResolve_mcal_live ..
  | pulseTest => exact execPulseTest_mcal_live ..
  | blotRead => exact execBlotRead_mcal_live ..
  | blotClear => exact execBlotClear_mcal_live ..
  | bankEnter => exact execBankEnter_mcal_live ..
  | bankExit => exact execBankExit_mcal_live ..
  | softReset => exact execSoftReset_mcal_live ..
  | auxRead => exact execAuxRead_mcal_live ..
  | cfgSave => exact execCfgSave_mcal_live ..
  | inkLock => exact execInkLock_mcal_live ..
  | inkUnlock => exact execInkUnlock_mcal_live ..
  | fwBegin => exact execFwBegin_mcal_live ..
  | fwWrite => exact execFwWrite_mcal_live ..
  | fwVerify => exact execFwVerify_mcal_live ..
  | fwActivate => exact execFwActivate_mcal_live ..
  | cldSet => exact execCldSet_mcal_live ..
  | cldAdjustStep => exact execCldAdjustStep_mcal_live ..
  | cldAdjustSlew => exact execCldAdjustSlew_mcal_live ..
  | cldAlarmAck => exact execCldAlarmAck_mcal_live ..
  | grdClearArm => exact execGrdClearArm_mcal_live ..
  | grdClearConfirm => exact execGrdClearConfirm_mcal_live ..
  | grdTest => exact execGrdTest_mcal_live ..
  | idCertRead => exact execIdCertRead_mcal_live ..
  | pnlTableLoad => exact execPnlTableLoad_mcal_live ..
  | pnlImageWrite => exact execPnlImageWrite_mcal_live ..
  | pnlUpdate => exact execPnlUpdate_mcal_live ..
  | forceSpare => exact execForceSpare_mcal_live ..
  | restore => exact execRestore_mcal_live ..
  | check => exact execCheck_mcal_live ..
  | trimModWrite => exact execTrimModWrite_mcal_live ..
  | trimVrefWrite => exact execTrimVrefWrite_mcal_live ..
  | trimOscWrite => exact execTrimOscWrite_mcal_live ..
  | reload => exact execReload_mcal_live ..
  | rejoin => exact execRejoin_mcal_live ..
  | xreturn => exact execXreturn_mcal_live ..
  | eoi => exact execEoi_mcal_live ..
  | intTargetDisable => exact execIntTargetDisable_mcal_live ..
  | arm => exact execArm_mcal_live ..
  | fdis => exact execFdis_mcal_live ..
  | recover => exact execRecover_mcal_live ..
  | frameReceive => exact execFrameReceive_mcal_live ..
  | read => exact execRead_mcal_live ..
  | status => exact execStatus_mcal_live ..
  | uartReplySent => exact execUartReplySent_mcal_live ..
  | portTimeout => exact execPortTimeout_mcal_live ..
  | spiPortReset => exact execSpiPortReset_mcal_live ..
  | uartFrameStall => exact execUartFrameStall_mcal_live ..
  | brk => exact execBrk_mcal_live ..
  | replyDropped => exact execReplyDropped_mcal_live ..
  | sessionIdleTimeout => exact execSessionIdleTimeout_mcal_live ..
  | leaseExpiry => exact execLeaseExpiry_mcal_live ..
  | inkLockExpiry => exact execInkLockExpiry_mcal_live ..
  | grdChallengeExpiry => exact execGrdChallengeExpiry_mcal_live ..
  | combFrame => exact execCombFrame_mcal_live ..
  | engFenced => exact execEngFenced_mcal_live ..
  | sampleBatch => exact execSampleBatch_mcal_live ..
  | metrologyReplay => exact execMetrologyReplay_mcal_live ..
  | autoFreezeEnd => exact execAutoFreezeEnd_mcal_live ..
  | freerunEntry => exact execFreerunEntry_mcal_live ..
  | lsyncEdge => exact execLsyncEdge_mcal_live ..
  | lsyncTimeout => exact execLsyncTimeout_mcal_live ..
  | blockClose => exact execBlockClose_mcal_live ..
  | aggregateClose => exact execAggregateClose_mcal_live ..
  | tenMinuteTick => exact execTenMinuteTick_mcal_live ..
  | frequencyIntervalClose => exact execFrequencyIntervalClose_mcal_live ..
  | demandClose => exact execDemandClose_mcal_live ..
  | profileClose => exact execProfileClose_mcal_live ..
  | balanceClose => exact execBalanceClose_mcal_live ..
  | modulatorHardFault => exact execModulatorHardFault_mcal_live ..
  | chSubstituted => exact execChSubstituted_mcal_live ..
  | spareMove => exact execSpareMove_mcal_live ..
  | driftCheckPhase => exact execDriftCheckPhase_mcal_live ..
  | chDriftChecked => exact execChDriftChecked_mcal_live ..
  | chRestored => exact execChRestored_mcal_live ..
  | suppressionEnd => exact execSuppressionEnd_mcal_live ..
  | chClip => exact execChClip_mcal_live ..
  | pulseLeadingEdge => exact execPulseLeadingEdge_mcal_live ..
  | pulseTrailingEdge => exact execPulseTrailingEdge_mcal_live ..
  | wbSetEnd => exact execWbSetEnd_mcal_live ..
  | captureFilled => exact execCaptureFilled_mcal_live ..
  | captureKeepExpiry => exact execCaptureKeepExpiry_mcal_live ..
  | eventLogWrite => exact execEventLogWrite_mcal_live ..
  | intTimeout => exact execIntTimeout_mcal_live ..
  | auxScan => exact execAuxScan_mcal_live ..
  | accScrub => exact execAccScrub_mcal_live ..
  | sramScrub => exact execSramScrub_mcal_live ..
  | xtalFail => exact execXtalFail_mcal_live ..
  | xtalRate => exact execXtalRate_mcal_live ..
  | xtalReturn => exact execXtalReturn_mcal_live ..
  | powerFail => exact execPowerFail_mcal_live ..
  | journalEntry => exact execJournalEntry_mcal_live ..
  | tailUpdate => exact execTailUpdate_mcal_live ..
  | journalErase ok => exact execJournalErase_mcal_live ok s
  | pfSustained => exact execPfSustained_mcal_live ..
  | pfRecovered => exact execPfRecovered_mcal_live ..
  | resetnWarm => exact execResetnWarm_mcal_live ..
  | vaonChangeover => exact execVaonChangeover_mcal_live ..
  | supplyLossBoth => exact execSupplyLossBoth_mcal_live ..
  | crystalAccepted => exact execCrystalAccepted_mcal_live ..
  | startupReady => exact execStartupReady_mcal_live ..
  | configRestore => exact execConfigRestore_mcal_live ..
  | cfgRestoreFail => exact execCfgRestoreFail_mcal_live ..
  | anvWdog => exact execAnvWdog_mcal_live ..
  | fwTrialEnd => exact execFwTrialEnd_mcal_live ..
  | calSecondBoundary => exact execCalSecondBoundary_mcal_live ..
  | calStopped => exact execCalStopped_mcal_live ..
  | grdClock => exact execGrdClock_mcal_live ..
  | grdSource => exact execGrdSource_mcal_live ..
  | panelPairBoundary => exact execPanelPairBoundary_mcal_live ..
  | railStep => exact execRailStep_mcal_live ..
  | railRead => exact execRailRead_mcal_live ..
  | panelFault => exact execPanelFault_mcal_live ..
  | folioSealed => exact execFolioSealed_mcal_live ..
  | resetnRelease => exact execResetnRelease_mcal_live ..
  | journalRestored => exact execJournalRestored_mcal_live ..
  | startUpTest => exact execStartUpTest_mcal_live ..
  | portsReady => exact execPortsReady_mcal_live ..
  | xtalStartTimeout => exact execXtalStartTimeout_mcal_live ..
  | slewEnd => exact execSlewEnd_mcal_live ..
  | cellScanPeriod => exact execCellScanPeriod_mcal_live ..
  | panelFrameBoundary => exact execPanelFrameBoundary_mcal_live ..
  | isolatedParityError => exact execIsolatedParityError_mcal_live ..

/-- Settles O48: each row outside the boundaries and the cold resets, CAL_COMMIT and PARAM_WRITE among them, is one of the operations that
leave the live set. -/
theorem liveCalibrationMovesOnlyAtBoundaries : Obligations.LiveCalibrationMovesOnlyAtBoundaries := by
  intro c s t hc h
  obtain ⟨u, hu, hlive⟩ := exec_mcal_live s hc
  cases h.symm.trans hu
  exact hlive

end Sys2Proof.Scope
end

section
/-!
SUPPORT. What a write of TRIM.VREF meets: the points that are not OFF, in force or as accepted for the next boundary (R100, R137, R233).
-/
namespace Sys2Proof.Scope

open Sys2Proof.Machine Sys2Proof.Laws

/-! ### A row whose one word breaks a rule (R225, R233) -/

/-- One word that breaks the rule of its register names its address and the rule's status. -/
theorem tryWrite_broken {r : Req} {q : Reg} {w : Word} {st : Status} {s : State} (env : Sensed) (hq : q ≠ .reserved)
    (hrange : rangeOk q.addr 1 = true) (hrole : s.deniedAt r.role [(q.addr, w)] = none)
    (hrule : s.judgeWord r.port ((s.entry? 0x0202 r).map Entry.order) q (q.judged (s.readLive q) w) = some st) :
    s.tryWrite r env q.addr [w] = .inl (q.addr, st) := by
  have hl : addressed q.addr [w] = [(q.addr, w)] := rfl
  simp [State.tryWrite, State.writeWords, hl, hrange, hrole, hrule, regOf_addr q hq]

/-- A row whose one word is refused completes with the status and the address, and does nothing else. -/
theorem row_refused {c : Instr} {r : Req} {env : Sensed} {q : Reg} {w : Word} {a : Nat} {st : Status} {s : State}
    (hc : exec c s = .next (s.write r env q w)) (hs : s.served 0x0202 r = true)
    (h : (s.woken 0x0202).tryWrite r env q.addr [w] = .inl (a, st)) :
    exec c s = .next ((s.woken 0x0202).complete 0x0202 r st (le 4 a)) := by
  rw [hc, State.write, command_served _ hs, State.paramWrite, h]

/-! ### Points that are not OFF (R100, R137) -/

/-- Some point is not OFF exactly where one is ON, in force or as accepted. -/
theorem anyOn_iff (s : State) : s.anyOn allPts = true ↔ ∃ p : Fin 128, pointOn s.live p = true ∨ pointOn s.asked p = true := by
  simp [State.anyOn, State.notOff, allPts]

/-- Waking changes no parameter word, so that the points which are not OFF stay so. -/
theorem woken_anyOn (op : Nat) (s : State) : (s.woken op).anyOn allPts = s.anyOn allPts := by
  have hlive : (s.woken op).live = s.live := funext fun q => by rw [State.live, woken_eff, State.live]
  have hasked : (s.woken op).asked = s.asked := funext fun q => by rw [State.asked, woken_cfg, State.asked]
  rw [Bool.eq_iff_iff, anyOn_iff, anyOn_iff, hlive, hasked]

theorem judgeWord_trimVref (port : Port) (order : Option Nat) (w : Word) (s : State) :
    s.judgeWord port order .trimVref w = failIf (s.anyOn allPts) .pointActive := rfl

theorem rangeOk_trimVref : rangeOk Reg.trimVref.addr 1 = true := by decide

/-- While a point is not OFF, every value is refused (R137). -/
theorem tryWrite_trimVref_on {r : Req} {w : Word} {s : State} (env : Sensed)
    (hrole : s.deniedAt r.role [(Reg.trimVref.addr, w)] = none) (hon : s.anyOn allPts = true) :
    s.tryWrite r env Reg.trimVref.addr [w] = .inl (Reg.trimVref.addr, .pointActive) := by
  refine tryWrite_broken env nofun rangeOk_trimVref hrole ?_
  rw [judgeWord_trimVref, hon]
  rfl

/-- While every point is OFF, every value is accepted (R137). -/
theorem accepts_trimVref_off {r : Req} {w : Word} {s : State} (hrole : s.deniedAt r.role [(Reg.trimVref.addr, w)] = none)
    (hoff : s.anyOn allPts = false) : s.accepts r .trimVref w = true := by
  rw [State.accepts, rangeOk_trimVref, hrole, judgeWord_trimVref, hoff]
  rfl

/-- Settles O30: the rule of TRIM.VREF is that no point is ON, in force or as accepted. -/
theorem vrefNeedsEveryPointOff : Obligations.VrefNeedsEveryPointOff := by
  intro r w s hs s0 hrole
  refine ⟨fun hon => ?_, fun hoff => ?_⟩
  · have hany : s0.anyOn allPts = true := (woken_anyOn _ s).trans ((anyOn_iff s).2 hon)
    exact row_refused rfl hs (tryWrite_trimVref_on .plain hrole hany)
  · have hany : s0.anyOn allPts = false := by
      rw [woken_anyOn, Bool.eq_false_iff, ne_eq, anyOn_iff]
      rintro ⟨p, hp⟩
      simp [hoff p] at hp
    exact row_done rfl hs nofun (accepts_trimVref_off hrole hany) rfl

end Sys2Proof.Scope
end

section
/-!
SUPPORT. An event that is raised neither reads nor moves the panel driver (R235, R266, R284 to R292).
-/
namespace Sys2Proof.Scope

open Sys2Proof.Machine Sys2Proof.Laws

/-- A state with another panel driver. -/
def withPanel (p : Panel) (s : State) : State := { s with pnl := p }

theorem withPanel_self (s : State) : withPanel s.pnl s = s := rfl

@[simp] theorem withPanel_pnl (p : Panel) (s : State) : (withPanel p s).pnl = p := rfl

theorem withPanel_trim (p : Panel) (s : State) : (withPanel p s).trim = s.trim := rfl

theorem withPanel_ev (p : Panel) (s : State) : (withPanel p s).ev = s.ev := rfl

@[simp] theorem withPanel_withPanel (p q : Panel) (s : State) : withPanel p (withPanel q s) = withPanel p s := rfl

/-- An effect neither reads nor moves the panel driver: it is the same beside another one. -/
def PanelBlind (f : State → State) : Prop := ∀ p s, f (withPanel p s) = withPanel p (f s)

theorem PanelBlind.comp {f g : State → State} (hg : PanelBlind g) (hf : PanelBlind f) : PanelBlind fun s => g (f s) :=
  fun p s => (congrArg g (hf p s)).trans (hg p (f s))

/-- A choice that does not read the panel driver, between effects that do not. -/
theorem PanelBlind.ite {c : State → Prop} [∀ s, Decidable (c s)] {f g : State → State} (hf : PanelBlind f) (hg : PanelBlind g)
    (hc : ∀ p s, c (withPanel p s) ↔ c s) : PanelBlind fun s => if c s then f s else g s := by
  intro p s
  dsimp only
  by_cases h : c s
  · rw [if_pos h, if_pos ((hc p s).2 h), hf]
  · rw [if_neg h, if_neg fun hp => h ((hc p s).1 hp), hg]

theorem panelBlind_id : PanelBlind fun s => s := fun _ _ => rfl

theorem latch_panelBlind (n : Nat) : PanelBlind (State.latch n) :=
  .ite (fun _ _ => rfl) panelBlind_id fun _ _ => Iff.rfl

theorem routeN_panelBlind (k : Nat) : PanelBlind (State.routeN k) := by
  intro p s
  induction k generalizing s with
  | zero => rfl
  | succ k ih =>
    have hfirst : (withPanel p s).firstSource = s.firstSource := rfl
    unfold State.routeN
    rw [hfirst]
    cases s.firstSource with
    | none => rfl
    | some x => exact ih (s.deliver x.1 x.2)

theorem route_panelBlind : PanelBlind State.route := routeN_panelBlind 96

theorem unbank_panelBlind : PanelBlind State.unbank := by
  intro p s
  have hst : (withPanel p s).dev.st = s.dev.st := rfl
  unfold State.unbank
  rw [hst]
  split
  · exact (latch_panelBlind 65).comp (f := fun s => { s with dev := { s.dev with st := .run, coresAsleep := false } })
      (fun _ _ => rfl) p s
  · rfl

theorem wakeFor_panelBlind (l : List Nat) : PanelBlind (State.wakeFor l) :=
  .ite unbank_panelBlind panelBlind_id fun _ _ => Iff.rfl

theorem pendInt_panelBlind (n : Nat) : PanelBlind (State.pendInt n) :=
  route_panelBlind.comp ((wakeFor_panelBlind [n]).comp (latch_panelBlind n))

theorem enter_panelBlind (e : Event) : PanelBlind (State.enter e) := by
  refine .ite ((pendInt_panelBlind 17).comp fun _ _ => rfl) (.ite (fun _ _ => rfl) ?_ fun _ _ => Iff.rfl) fun _ _ => Iff.rfl
  exact (pendInt_panelBlind 18).comp fun _ _ => rfl

theorem raise_panelBlind (e : Ev) (u : Subject) (d : List Byte) : PanelBlind (State.raise e u d) := by
  have hentered : PanelBlind fun s => if s.dev.startup.restored then s.enter (raisedEvent e u d s)
      else { s with ev := { s.ev with held := s.ev.held ++ [raisedEvent e u d s] } } :=
    .ite (fun p s => enter_panelBlind (raisedEvent e u d s) p s) (fun _ _ => rfl) fun _ _ => Iff.rfl
  intro p s
  unfold State.raise State.raiseWith State.raiseAs
  cases e.source u with
  | none => exact hentered p s
  | some n => exact (pendInt_panelBlind n).comp hentered p s

end Sys2Proof.Scope
end

section
/-!
SUPPORT. What the boundary of a frame pair leaves of each region, of the planes and of the events (R367, R369, R373, R376, R377).
-/
namespace Sys2Proof.Scope

open Sys2Proof.Machine Sys2Proof.Laws

/-! ### Effects one after another, each on a part of its own -/

/-- Each part is left as its own effect leaves it, where no effect moves another part. -/
theorem chain_at {α γ : Type} (part new : α → State → γ) {f : α → State → State}
    (hsame : ∀ a s, part a (f a s) = new a s) (hother : ∀ a b s, a ≠ b → part a (f b s) = part a s)
    (hnew : ∀ a b s, a ≠ b → new a (f b s) = new a s) {l : List α} (hl : l.Nodup) {a : α} (ha : a ∈ l) (s : State) : part a (chain l f s) = new a s := by
  induction l generalizing s with
  | nil => cases ha
  | cons b l ih =>
    obtain ⟨hb, hl⟩ := List.nodup_cons.1 hl
    rcases List.mem_cons.1 ha with rfl | ha
    · exact (chain_keeps_mem (part a) l f (fun c hc s => hother a c s fun e => hb (e ▸ hc)) (f a s)).trans (hsame a s)
    · exact (ih hl ha (f b s)).trans (hnew a b s fun e => hb (e ▸ ha))

/-- What is shared goes through a step for each effect, where no effect moves what another one's step looks at. -/
theorem chain_view {α β : Type} (view : State → β) (step : State → α → β → β) {f : α → State → State}
    (hview : ∀ a s, view (f a s) = step s a (view s)) (hstep : ∀ a b s, a ≠ b → step (f b s) a = step s a) {l : List α}
    (hl : l.Nodup) (s : State) : view (chain l f s) = l.foldl (fun v a => step s a v) (view s) := by
  induction l generalizing s with
  | nil => rfl
  | cons b l ih =>
    obtain ⟨hb, hl⟩ := List.nodup_cons.1 hl
    refine (ih hl (f b s)).trans ?_
    rw [List.foldl_cons, hview]
    exact List.foldl_ext _ _ _ fun v a ha => congrFun (hstep a b s fun e => hb (e ▸ ha)) v

theorem allRegions_nodup : allRegions.Nodup := List.nodup_finRange 8

theorem mem_allRegions (g : Fin 8) : g ∈ allRegions := List.mem_finRange g

/-! ### What a region's work looks at beside the panel -/

theorem live_congr {s t : State} (h : t.eff = s.eff) : t.live = s.live := funext fun r => by rw [State.live, h, State.live]

theorem regionPixels_congr {s t : State} (h : t.eff = s.eff) : t.regionPixels = s.regionPixels := by
  funext g p
  rw [State.regionPixels, live_congr h, State.regionPixels]

/-- The band is that of the words in force and of the auxiliary readings (R373). -/
theorem panelBand_congr {s t : State} (heff : t.eff = s.eff) (haux : t.anv.auxRes = s.anv.auxRes) : t.panelBand = s.panelBand := by
  have htemp : t.panelTemp = s.panelTemp := by
    simp only [State.panelTemp, live_congr heff, State.auxRes, haux]
  rw [State.panelBand, live_congr heff, htemp, State.panelBand]

/-! ### PNL_DONE (R247) -/

theorem pnlDone_panelBlind (g : Fin 8) (q : PnlReq) (st : Status) : PanelBlind (State.pnlDone g q st) :=
  .ite panelBlind_id (raise_panelBlind _ _ _) fun _ _ => Iff.rfl

/-- What every PNL_DONE keeps that the event does. -/
theorem pnlDone_keeps {β : Type} (f : State → β) (hf : ∀ d s, f (s.raise .pnlDone .device d) = f s) (g : Fin 8) (q : PnlReq)
    (st : Status) (s : State) : f (s.pnlDone g q st) = f s := by
  unfold State.pnlDone
  split
  · rfl
  · exact hf _ s

/-! ### A running waveform at a pair boundary (R376) -/

/-- A waveform has come to the end of its table. -/
def runFull (run : PnlRun) : Bool := run.started && decide (tableFrames run.table ≤ 2 * (run.pair + 1))

/-- The running request of a region that ends at this boundary: at the end of its table, cut, or in a closeout. -/
def ending (g : Fin 8) (s : State) : Option PnlRun :=
  s.pnl.regions[g].run.filter fun run => runFull run || (run.cut || decide (s.pnl.closeout ≠ 0))

/-- The status with which a request ends. -/
def outcome (run : PnlRun) : Status := if runFull run then .ok else .cut

/-- The host is told of a request that ends. -/
def told (g : Fin 8) (x : Option PnlRun) (s : State) : State :=
  match x with
  | some run => s.pnlDone g run.req (outcome run)
  | none => s

/-- A waveform that has started, one pair on; a request that waits to start, as it is. -/
def onward (run : PnlRun) : PnlRun := if run.started then { run with pair := run.pair + 1 } else run

/-- A region after the boundary: what waits follows what has ended, and a waveform short of its end runs on by one pair. -/
def paired (ended : Option PnlRun) (x : Region) : Region :=
  match ended with
  | some run =>
    { run := x.slot.map PnlReq.run, slot := none, dirty := x.dirty && !(runFull run && run.req.refresh) }
  | none => { x with run := x.run.map onward }

/-- SHOWN after a region's work: WORK is copied where a started waveform has ended. -/
def pairShown (s : State) (g : Fin 8) (shown : List Byte) : List Byte :=
  if (ending g s).any PnlRun.started then
    planePut shown (regionStart s.live g * cols s.live) (s.regionPixels g s.pnl.work)
  else shown

theorem upd_congr {α : Type} {n : Nat} {v : Vector α n} {i : Fin n} {f g : α → α} (h : f v[i] = g v[i]) :
    upd v i f = upd v i g := by rw [upd, h, upd]

theorem upd_idle {α : Type} {n : Nat} {v : Vector α n} {i : Fin n} {f : α → α} (h : f v[i] = v[i]) : upd v i f = v := by
  rw [upd, h]
  exact Vector.set_getElem_self i.isLt

theorem endRun_eq (g : Fin 8) (run : PnlRun) (s : State) : s.endRun g run (outcome run) =
    withPanel { s.pnl with
      shown := if run.started then
          planePut s.pnl.shown (regionStart s.live g * cols s.live) (s.regionPixels g s.pnl.work) else s.pnl.shown
      regions := upd s.pnl.regions g (paired (some run)) }
      (s.pnlDone g run.req (outcome run)) := by
  have hclean : (run.req.refresh && decide (outcome run = .ok)) = (runFull run && run.req.refresh) := by
    unfold outcome
    cases runFull run <;> cases run.req.refresh <;> rfl
  rw [← pnlDone_panelBlind g run.req (outcome run)]
  unfold State.endRun
  dsimp only
  rw [hclean]
  split <;> rfl

/-- At a request that ends, its region runs what waits. -/
theorem pairEnd_ends {g : Fin 8} {run : PnlRun} {s : State} (h : ending g s = some run) :
    s.pairEnd g = s.endRun g run (outcome run) := by
  obtain ⟨hrun, hend⟩ := Option.filter_eq_some_iff.1 h
  unfold State.pairEnd outcome
  rw [hrun]
  cases hf : runFull run
  · have hcut : (run.cut || decide (s.pnl.closeout ≠ 0)) = true := by simpa only [hf, Bool.false_or] using hend
    exact (if_neg (Bool.eq_false_iff.1 hf)).trans (if_pos hcut)
  · exact if_pos hf

/-- A waveform that does not end runs on by one pair, and a request that waits waits on. -/
theorem pairEnd_goesOn {g : Fin 8} {s : State} (h : ending g s = none) : s.pairEnd g = s.onRegion g (paired none) := by
  have hidle : s.pnl.regions[g].run.map onward = s.pnl.regions[g].run → s = s.onRegion g (paired none) := fun hp => by
    have hx : paired none s.pnl.regions[g] = s.pnl.regions[g] := by rw [paired, hp]
    rw [State.onRegion, upd_idle hx]
  unfold State.pairEnd
  cases hrun : s.pnl.regions[g].run with
  | none => exact hidle (by rw [hrun]; rfl)
  | some run =>
    have hend : ¬ (runFull run || (run.cut || decide (s.pnl.closeout ≠ 0))) = true := by
      simpa only [ending, hrun, Option.filter_some, ite_eq_right_iff, reduceCtorEq, imp_false] using h
    rw [Bool.or_eq_true, not_or] at hend
    refine (if_neg hend.1).trans ((if_neg hend.2).trans ?_)
    split
    · next hs =>
      have hx : paired none s.pnl.regions[g] = { s.pnl.regions[g] with run := some { run with pair := run.pair + 1 } } := by
        rw [paired, hrun, Option.map_some, onward, if_pos hs]
      rw [State.onRegion, State.onRegion, upd_congr hx.symm]
    · next hs => exact hidle (by rw [hrun, Option.map_some, onward, if_neg hs])

/-- What a boundary does to a region: its part of the panel moves, and a host hears of what has ended. -/
theorem pairEnd_eq (g : Fin 8) (s : State) : s.pairEnd g =
    withPanel { s.pnl with shown := pairShown s g s.pnl.shown, regions := upd s.pnl.regions g (paired (ending g s)) }
      (told g (ending g s) s) := by
  cases h : ending g s with
  | none =>
    rw [pairEnd_goesOn h, pairShown, h]
    rfl
  | some run =>
    rw [pairEnd_ends h, endRun_eq, pairShown, h]
    rfl

theorem pairEnd_pnl (g : Fin 8) (s : State) : (s.pairEnd g).pnl =
    { s.pnl with shown := pairShown s g s.pnl.shown, regions := upd s.pnl.regions g (paired (ending g s)) } := by
  rw [pairEnd_eq, withPanel_pnl]

theorem told_panelBlind (g : Fin 8) (x : Option PnlRun) : PanelBlind (told g x) :=
  match x with
  | none => panelBlind_id
  | some run => pnlDone_panelBlind g run.req (outcome run)

/-- What every PNL_DONE keeps that the event does. -/
theorem told_keeps {β : Type} (f : State → β) (hf : ∀ d s, f (s.raise .pnlDone .device d) = f s) (g : Fin 8)
    (x : Option PnlRun) (s : State) : f (told g x s) = f s :=
  match x with
  | none => rfl
  | some run => pnlDone_keeps f hf g run.req (outcome run) s

theorem pairEnd_auxRes (g : Fin 8) (s : State) : (s.pairEnd g).anv.auxRes = s.anv.auxRes := by
  rw [pairEnd_eq]
  exact told_keeps (fun s => s.anv.auxRes) (raise_anv_auxRes _ _) g _ s

theorem pairEnd_same (g : Fin 8) (s : State) : (s.pairEnd g).pnl.regions[g] = paired (ending g s) s.pnl.regions[g] := by
  simp only [pairEnd_pnl, upd_same]

theorem pairEnd_other {g i : Fin 8} (s : State) (h : g ≠ i) : (s.pairEnd i).pnl.regions[g] = s.pnl.regions[g] := by
  simp only [pairEnd_pnl, upd_other _ _ _ _ h]

/-- A region's work ends nothing in another one. -/
theorem ending_pairEnd {g i : Fin 8} (s : State) (h : g ≠ i) : ending g (s.pairEnd i) = ending g s := by
  simp only [ending, pairEnd_pnl, upd_other _ _ _ _ h]

/-! ### Every region's work -/

theorem chain_pairEnd_region {l : List (Fin 8)} (hl : l.Nodup) {g : Fin 8} (hg : g ∈ l) (s : State) :
    (chain l State.pairEnd s).pnl.regions[g] = paired (ending g s) s.pnl.regions[g] :=
  chain_at (fun g s => s.pnl.regions[g]) (fun g s => paired (ending g s) s.pnl.regions[g]) pairEnd_same
    (fun _ _ s h => pairEnd_other s h) (fun _ _ s h => by simp only [ending_pairEnd s h, pairEnd_other s h]) hl hg s

/-- Beside its regions and SHOWN, the panel stands. -/
theorem chain_pairEnd_pnl (l : List (Fin 8)) (s : State) :
    ∃ shown regions, (chain l State.pairEnd s).pnl = { s.pnl with shown := shown, regions := regions } := by
  induction l generalizing s with
  | nil => exact ⟨_, _, rfl⟩
  | cons g l ih =>
    obtain ⟨shown, regions, h⟩ := ih (s.pairEnd g)
    exact ⟨shown, regions, h.trans (by rw [pairEnd_pnl])⟩

theorem chain_pairEnd_shown {l : List (Fin 8)} (hl : l.Nodup) (s : State) :
    (chain l State.pairEnd s).pnl.shown = l.foldl (fun p g => pairShown s g p) s.pnl.shown := by
  refine chain_view (fun s => s.pnl.shown) pairShown (fun g s => by rw [pairEnd_pnl]) (fun g i s h => ?_) hl s
  funext p
  have heff := pairEnd_eff i s
  have hwork : (s.pairEnd i).pnl.work = s.pnl.work := by rw [pairEnd_pnl]
  simp only [pairShown, ending_pairEnd s h, live_congr heff, regionPixels_congr heff, hwork]

/-- Beside the panel, a host has heard of each request that has ended. -/
theorem chain_pairEnd_told {l : List (Fin 8)} (hl : l.Nodup) (p : Panel) (s : State) :
    withPanel p (chain l State.pairEnd s) = chain l (fun g => told g (ending g s)) (withPanel p s) := by
  refine chain_view (withPanel p) (fun s g => told g (ending g s)) (fun g s => ?_) (fun g i s h => ?_) hl s
  · rw [pairEnd_eq, withPanel_withPanel, told_panelBlind]
  · rw [ending_pairEnd s h]

theorem chain_pairEnd_eff (l : List (Fin 8)) (s : State) : (chain l State.pairEnd s).eff = s.eff :=
  chain_eff _ _ s pairEnd_eff

theorem chain_pairEnd_panelBand (l : List (Fin 8)) (s : State) : (chain l State.pairEnd s).panelBand = s.panelBand :=
  panelBand_congr (chain_pairEnd_eff l s) (chain_keeps (fun s => s.anv.auxRes) l _ pairEnd_auxRes s)

/-! ### A request that starts at a pair boundary (R369, R373, R376) -/

/-- Waveforms may start: every rail is up and stays so, outside a closeout. -/
def mayStart (p : Panel) : Bool := decide (p.rail = 5) && !p.railDown && decide (p.closeout = 0)

/-- A waiting request for which a band in reach has a table. -/
def startsNow (s : State) (run : PnlRun) : Bool :=
  !run.started && mayStart s.pnl && (s.pnl.bandFor run.req.transition s.panelBand).isSome

/-- The request of a region that starts at this boundary. -/
def starting (g : Fin 8) (s : State) : Option PnlRun := s.pnl.regions[g].run.filter (startsNow s)

/-- A request as it starts: at its first pair, with the table of the band. -/
def started (s : State) (run : PnlRun) : PnlRun :=
  { run with
    started := true, pair := 0
    table := ((s.pnl.bandFor run.req.transition s.panelBand).bind (s.pnl.table? run.req.transition)).getD [] }

/-- A region's running request after its start. -/
def startedIn (s : State) (g : Fin 8) (run : PnlRun) : PnlRun := if (starting g s).isSome then started s run else run

/-- A region after its start. -/
def startRegion (s : State) (g : Fin 8) (x : Region) : Region := { x with run := x.run.map (startedIn s g) }

/-- WORK after a region's start: NEXT is copied. -/
def startWork (s : State) (g : Fin 8) (work : List Byte) : List Byte :=
  if (starting g s).isSome then
    planePut work (regionStart s.live g * cols s.live) (s.regionPixels g s.pnl.next)
  else work

theorem pairStart_idle {g : Fin 8} {s : State} (h : starting g s = none) : s.pairStart g = s := by
  unfold State.pairStart
  cases hrun : s.pnl.regions[g].run with
  | none => rfl
  | some run =>
    dsimp only
    split
    · rfl
    · next hc =>
      simp only [Bool.or_eq_true, decide_eq_true_eq, ne_eq, not_or, not_not, Bool.not_eq_true] at hc
      obtain ⟨⟨⟨hwaits, hrail⟩, hup⟩, hopen⟩ := hc
      have hband : s.pnl.bandFor run.req.transition s.panelBand = none := by
        simpa only [starting, hrun, Option.filter_some, startsNow, mayStart, hwaits, hrail, hup, hopen, Bool.not_false,
          decide_true, Bool.and_self, Bool.true_and, ite_eq_right_iff, reduceCtorEq, imp_false, Option.not_isSome_iff_eq_none]
          using h
      rw [State.startRun, hband]

theorem pairStart_starts {g : Fin 8} {run : PnlRun} {s : State} (h : starting g s = some run) : ∃ band, s.pairStart g =
    withPanel { s.pnl with
      work := planePut s.pnl.work (regionStart s.live g * cols s.live) (s.regionPixels g s.pnl.next), band := band
      regions := upd s.pnl.regions g fun x => { x with run := some (started s run) } } s := by
  obtain ⟨hrun, hnow⟩ := Option.filter_eq_some_iff.1 h
  simp only [startsNow, mayStart, Bool.and_eq_true, Bool.not_eq_true', decide_eq_true_eq] at hnow
  obtain ⟨⟨hwaits, ⟨hrail, hup⟩, hopen⟩, hband⟩ := hnow
  obtain ⟨b, hb⟩ := Option.isSome_iff_exists.1 hband
  refine ⟨b, ?_⟩
  unfold State.pairStart started
  rw [hrun]
  simp only [hwaits, hrail, hup, hopen, State.startRun, hb]
  rfl

/-- What a boundary does to a region whose request may start: its part of the panel moves, and nothing else. -/
theorem pairStart_eq (g : Fin 8) (s : State) : ∃ band, s.pairStart g =
    withPanel { s.pnl with
      work := startWork s g s.pnl.work, band := band
      regions := upd s.pnl.regions g (startRegion s g) } s := by
  cases h : starting g s with
  | none =>
    have hid : startedIn s g = id := funext fun run => by rw [startedIn, h]; rfl
    refine ⟨s.pnl.band, ?_⟩
    rw [pairStart_idle h, startWork, h, upd_idle (by rw [startRegion, hid, Option.map_id]; rfl)]
    rfl
  | some run =>
    obtain ⟨hrun, -⟩ := Option.filter_eq_some_iff.1 h
    obtain ⟨b, hb⟩ := pairStart_starts h
    have hx : upd s.pnl.regions g (fun x : Region => { x with run := some (started s run) }) =
        upd s.pnl.regions g (startRegion s g) := upd_congr (by rw [startRegion, hrun, Option.map_some, startedIn, h]; rfl)
    refine ⟨b, ?_⟩
    rw [hb, startWork, h, ← hx]
    rfl

theorem pairStart_pnl (g : Fin 8) (s : State) : ∃ band, (s.pairStart g).pnl =
    { s.pnl with
      work := startWork s g s.pnl.work, band := band
      regions := upd s.pnl.regions g (startRegion s g) } := by
  obtain ⟨b, h⟩ := pairStart_eq g s
  exact ⟨b, by rw [h, withPanel_pnl]⟩

theorem withPanel_pairStart (p : Panel) (g : Fin 8) (s : State) : withPanel p (s.pairStart g) = withPanel p s := by
  obtain ⟨b, h⟩ := pairStart_eq g s
  rw [h, withPanel_withPanel]

theorem pairStart_panelBand (g : Fin 8) (s : State) : (s.pairStart g).panelBand = s.panelBand := by
  obtain ⟨b, h⟩ := pairStart_eq g s
  rw [h]
  exact panelBand_congr rfl rfl

theorem pairStart_same (g : Fin 8) (s : State) : (s.pairStart g).pnl.regions[g] = startRegion s g s.pnl.regions[g] := by
  obtain ⟨b, h⟩ := pairStart_pnl g s
  simp only [h, upd_same]

theorem pairStart_other {g i : Fin 8} (s : State) (h : g ≠ i) : (s.pairStart i).pnl.regions[g] = s.pnl.regions[g] := by
  obtain ⟨b, hp⟩ := pairStart_pnl i s
  simp only [hp, upd_other _ _ _ _ h]

/-- A start leaves what the others look at: the rails, the tables and the band. -/
theorem startsNow_pairStart (i : Fin 8) (s : State) : startsNow (s.pairStart i) = startsNow s := by
  obtain ⟨b, hp⟩ := pairStart_pnl i s
  funext run
  rw [startsNow, startsNow, pairStart_panelBand, hp]
  rfl

theorem starting_pairStart {g i : Fin 8} (s : State) (h : g ≠ i) : starting g (s.pairStart i) = starting g s := by
  rw [starting, startsNow_pairStart, pairStart_other s h, starting]

theorem startRegion_pairStart {g i : Fin 8} (s : State) (h : g ≠ i) : startRegion (s.pairStart i) g = startRegion s g := by
  obtain ⟨b, hp⟩ := pairStart_pnl i s
  have hrun : startedIn (s.pairStart i) g = startedIn s g := funext fun run => by
    rw [startedIn, starting_pairStart s h, started, pairStart_panelBand, hp]
    rfl
  funext x
  rw [startRegion, hrun, startRegion]

theorem chain_pairStart_region {l : List (Fin 8)} (hl : l.Nodup) {g : Fin 8} (hg : g ∈ l) (s : State) :
    (chain l State.pairStart s).pnl.regions[g] = startRegion s g s.pnl.regions[g] :=
  chain_at (fun g s => s.pnl.regions[g]) (fun g s => startRegion s g s.pnl.regions[g]) pairStart_same
    (fun _ _ s h => pairStart_other s h) (fun _ _ s h => by simp only [pairStart_other s h, startRegion_pairStart s h]) hl hg s

/-- Beside its regions, WORK and the band, the panel stands. -/
theorem chain_pairStart_pnl (l : List (Fin 8)) (s : State) : ∃ work band regions,
    (chain l State.pairStart s).pnl = { s.pnl with work := work, band := band, regions := regions } := by
  induction l generalizing s with
  | nil => exact ⟨_, _, _, rfl⟩
  | cons g l ih =>
    obtain ⟨work, band, regions, h⟩ := ih (s.pairStart g)
    obtain ⟨b, hg⟩ := pairStart_pnl g s
    exact ⟨work, band, regions, h.trans (by rw [hg])⟩

theorem chain_pairStart_work {l : List (Fin 8)} (hl : l.Nodup) (s : State) :
    (chain l State.pairStart s).pnl.work = l.foldl (fun p g => startWork s g p) s.pnl.work := by
  refine chain_view (fun s => s.pnl.work) startWork (fun g s => ?_) (fun g i s h => ?_) hl s
  · obtain ⟨b, h⟩ := pairStart_pnl g s
    rw [h]
  · obtain ⟨b, hp⟩ := pairStart_pnl i s
    have heff := pairStart_eff i s
    funext p
    simp only [startWork, starting_pairStart s h, live_congr heff, regionPixels_congr heff, hp]

theorem withPanel_chain_pairStart (p : Panel) (l : List (Fin 8)) (s : State) :
    withPanel p (chain l State.pairStart s) = withPanel p s :=
  chain_keeps (withPanel p) l _ (withPanel_pairStart p) s

end Sys2Proof.Scope
end

section
/-!
SUPPORT. The boundary of a frame pair as a whole: its regions, its planes, and what a host hears (R138, R247, R367, R369, R376, R377).
-/
namespace Sys2Proof.Scope

open Sys2Proof.Machine Sys2Proof.Laws

/-! ### A region between what ends and what starts -/

/-- The request of a region once what ends has ended. -/
def follows (ended : Option PnlRun) (x : Region) : Option PnlRun := if ended.isSome then x.slot.map PnlReq.run else x.run

/-- A waveform that has started and does not end is one pair on. -/
def goesOn (ended : Option PnlRun) (run : PnlRun) : PnlRun :=
  if ended.isNone && run.started then { run with pair := run.pair + 1 } else run

theorem paired_run (ended : Option PnlRun) (x : Region) : (paired ended x).run = (follows ended x).map (goesOn ended) :=
  match ended with
  | some run => by
    have hid : goesOn (some run) = id := rfl
    rw [hid, Option.map_id]
    rfl
  | none => rfl

theorem paired_slot (ended : Option PnlRun) (x : Region) : (paired ended x).slot = if ended.isSome then none else x.slot :=
  match ended with
  | some _ => rfl
  | none => rfl

theorem paired_dirty (ended : Option PnlRun) (x : Region) :
    (paired ended x).dirty = (x.dirty && !ended.any fun run => runFull run && run.req.refresh) :=
  match ended with
  | some _ => rfl
  | none => (Bool.and_true _).symm

/-- Outside a closeout a request ends at the end of its table, or cut. -/
theorem ending_open {s : State} (h : s.pnl.closeout = 0) (g : Fin 8) :
    ending g s = s.pnl.regions[g].run.filter fun run => runFull run || run.cut := by
  simp only [ending, h, ne_eq, not_true_eq_false, decide_false, Bool.or_false]

/-- In a closeout every request ends. -/
theorem ending_closing {s : State} (h : s.pnl.closeout ≠ 0) (g : Fin 8) : ending g s = s.pnl.regions[g].run := by
  rw [ending, decide_eq_true h]
  cases s.pnl.regions[g].run with
  | none => rfl
  | some run => rw [Option.filter_some, Bool.or_true, Bool.or_true, if_pos rfl]

/-! ### Every region -/

section

variable {l : List (Fin 8)}

/-- The state when the running waveforms of a list of regions have come to their pair boundary. -/
def afterEnds (l : List (Fin 8)) (s : State) : State := chain l State.pairEnd s

theorem afterEnds_region (hl : l.Nodup) {g : Fin 8} (hg : g ∈ l) (s : State) :
    (afterEnds l s).pnl.regions[g] = paired (ending g s) s.pnl.regions[g] := chain_pairEnd_region hl hg s

/-- What starts is decided by what stood before the boundary: the rails, the tables and the band. -/
theorem startsNow_afterEnds (l : List (Fin 8)) (s : State) : startsNow (afterEnds l s) = startsNow s := by
  obtain ⟨shown, regions, h⟩ := chain_pairEnd_pnl l s
  funext run
  rw [startsNow, startsNow, afterEnds, chain_pairEnd_panelBand, h]
  rfl

theorem started_afterEnds (l : List (Fin 8)) (s : State) : started (afterEnds l s) = started s := by
  obtain ⟨shown, regions, h⟩ := chain_pairEnd_pnl l s
  funext run
  rw [started, started, afterEnds, chain_pairEnd_panelBand, h]
  rfl

/-- A waveform that goes on does not start, so that its pair does not matter to what does. -/
theorem starting_afterEnds (hl : l.Nodup) {g : Fin 8} (hg : g ∈ l) (s : State) :
    starting g (afterEnds l s) = (follows (ending g s) s.pnl.regions[g]).filter (startsNow s) := by
  rw [starting, startsNow_afterEnds, afterEnds_region hl hg, paired_run]
  cases follows (ending g s) s.pnl.regions[g] with
  | none => rfl
  | some run =>
    rw [Option.map_some, goesOn]
    split
    · next h =>
      have hs : run.started = true := (Bool.and_eq_true_iff.1 h).2
      simp only [Option.filter_some, startsNow, hs, Bool.not_true, Bool.false_and, Bool.false_eq_true, if_false]
    · rfl

/-- The state after the pair boundary of those regions, outside a closeout. -/
def boundary (l : List (Fin 8)) (s : State) : State := (chain l State.pairStart (afterEnds l s)).steer

theorem boundary_pnl (l : List (Fin 8)) (s : State) : ∃ shown work band regions down, (boundary l s).pnl =
    { s.pnl with shown := shown, work := work, band := band, regions := regions, railDown := down } := by
  obtain ⟨shown, r1, h1⟩ := chain_pairEnd_pnl l s
  obtain ⟨work, band, r2, h2⟩ := chain_pairStart_pnl l (afterEnds l s)
  obtain ⟨down, h3⟩ := steer_pnl (chain l State.pairStart (afterEnds l s))
  exact ⟨shown, work, band, r2, down, by rw [boundary, h3, h2, afterEnds, h1]⟩

theorem boundary_region (hl : l.Nodup) {g : Fin 8} (hg : g ∈ l) (s : State) :
    (boundary l s).pnl.regions[g] = startRegion (afterEnds l s) g (paired (ending g s) s.pnl.regions[g]) := by
  rw [boundary, steer_region, chain_pairStart_region hl hg, afterEnds_region hl hg]

/-- A region's request after a boundary: what follows starts, goes on or waits (R376). -/
theorem boundary_run (hl : l.Nodup) {g : Fin 8} (hg : g ∈ l) (s : State) : (boundary l s).pnl.regions[g].run =
    (follows (ending g s) s.pnl.regions[g]).map fun run =>
      if (starting g (afterEnds l s)).isSome then started s run else goesOn (ending g s) run := by
  have hstart : ∀ run, started s (goesOn (ending g s) run) = started s run := fun run => by
    unfold goesOn
    split <;> rfl
  rw [boundary_region hl hg, startRegion, paired_run, Option.map_map]
  refine congrArg (Option.map · (follows (ending g s) s.pnl.regions[g])) (funext fun run => ?_)
  rw [Function.comp_apply, startedIn, started_afterEnds, hstart]

theorem boundary_shown (hl : l.Nodup) (s : State) : (boundary l s).pnl.shown =
    (l.filter fun g => (ending g s).any PnlRun.started).foldl
      (fun p g => planePut p (regionStart s.live g * cols s.live) (s.regionPixels g s.pnl.work)) s.pnl.shown := by
  obtain ⟨down, hsteer⟩ := steer_pnl (chain l State.pairStart (afterEnds l s))
  obtain ⟨work, band, regions, hstart⟩ := chain_pairStart_pnl l (afterEnds l s)
  rw [boundary, hsteer, hstart, List.foldl_filter]
  exact chain_pairEnd_shown hl s

theorem boundary_work (hl : l.Nodup) (s : State) : (boundary l s).pnl.work =
    (l.filter fun g => (starting g (afterEnds l s)).isSome).foldl
      (fun p g => planePut p (regionStart s.live g * cols s.live) (s.regionPixels g s.pnl.next)) s.pnl.work := by
  obtain ⟨down, hsteer⟩ := steer_pnl (chain l State.pairStart (afterEnds l s))
  obtain ⟨shown, regions, hend⟩ := chain_pairEnd_pnl l s
  have heff : (afterEnds l s).eff = s.eff := chain_pairEnd_eff l s
  have hwork : (afterEnds l s).pnl.work = s.pnl.work ∧ (afterEnds l s).pnl.next = s.pnl.next := by
    rw [afterEnds, hend]
    exact ⟨rfl, rfl⟩
  obtain ⟨hw, hn⟩ := hwork
  rw [boundary, hsteer, List.foldl_filter]
  refine (chain_pairStart_work hl (afterEnds l s)).trans ?_
  simp only [startWork, live_congr heff, regionPixels_congr heff, hw, hn]

/-- Beside the panel, a boundary is what a host hears of the requests that end. -/
theorem withPanel_boundary (hl : l.Nodup) (p : Panel) (s : State) :
    withPanel p (boundary l s) = chain l (fun g => told g (ending g s)) (withPanel p s) :=
  (withPanel_chain_pairStart p l (afterEnds l s)).trans (chain_pairEnd_told hl p s)

/-- A host hears of its own requests alone: a refresh answers nobody (R247). -/
theorem chain_told (l : List (Fin 8)) (e : Fin 8 → Option PnlRun) (s : State) : chain l (fun g => told g (e g)) s =
    chain (l.filterMap fun g => ((e g).filter fun run => !run.req.refresh).map fun run => (g, run))
      (fun x s => s.raise .pnlDone .device
        (le 4 x.2.req.number ++ le 2 (if runFull x.2 then Status.ok else Status.cut).code ++ le 1 x.1.val)) s := by
  rw [chain, chain, List.foldl_filterMap]
  refine List.foldl_ext _ _ _ fun s g _ => ?_
  cases e g with
  | none => rfl
  | some run =>
    rw [told, State.pnlDone, Option.filter_some]
    cases run.req.refresh <;> rfl

end

/-! ### The row (R138, R367, R377) -/

/-- A pair boundary outside a closeout. -/
theorem pairBoundary_open {s : State} (h : s.pnl.closeout = 0) :
    s.pairBoundary = boundary allRegions (withPanel { s.pnl with second := false } s) := by
  obtain ⟨shown, regions, hend⟩ := chain_pairEnd_pnl allRegions (withPanel { s.pnl with second := false } s)
  have hc : (chain allRegions State.pairEnd (withPanel { s.pnl with second := false } s)).pnl.closeout ≠ 1 := by
    rw [hend]
    exact h ▸ Nat.zero_ne_one
  rw [withPanel] at hc
  rw [State.pairBoundary, boundary, afterEnds, withPanel]
  simp only [if_neg hc]

/-- The pair boundary of a closeout's first step: every request ends, and the grounded frame follows. -/
theorem pairBoundary_closing {s : State} (h : s.pnl.closeout = 1) :
    let s1 := afterEnds allRegions (withPanel { s.pnl with second := false } s)
    s.pairBoundary = (withPanel { s1.pnl with closeout := 2 } s1).steer := by
  obtain ⟨shown, regions, hend⟩ := chain_pairEnd_pnl allRegions (withPanel { s.pnl with second := false } s)
  have hc : (chain allRegions State.pairEnd (withPanel { s.pnl with second := false } s)).pnl.closeout = 1 := by
    rw [hend]
    exact h
  rw [withPanel] at hc
  rw [State.pairBoundary, afterEnds, withPanel]
  simp only [if_pos hc, withPanel]

theorem steer_closeout (s : State) : s.steer.pnl.closeout = s.pnl.closeout := by
  obtain ⟨down, h⟩ := steer_pnl s
  rw [h]

theorem pairBoundary_closing_region {s : State} (h : s.pnl.closeout = 1) (g : Fin 8) :
    s.pairBoundary.pnl.regions[g] = paired s.pnl.regions[g].run s.pnl.regions[g] := by
  have hends : ending g (withPanel { s.pnl with second := false } s) = s.pnl.regions[g].run :=
    ending_closing (s := withPanel { s.pnl with second := false } s) (h.trans_ne Nat.one_ne_zero) g
  have hregion := afterEnds_region allRegions_nodup (mem_allRegions g) (withPanel { s.pnl with second := false } s)
  rw [pairBoundary_closing h, steer_region]
  simpa only [withPanel_pnl, hends] using hregion

end Sys2Proof.Scope
end

section
/-!
SUPPORT. The frame grid, the rails and the faults of the panel (R138, R274, R315, R367, R374 to R377).
-/
namespace Sys2Proof.Scope

open Sys2Proof.Machine Sys2Proof.Laws

/-! ### A waiting display trim (R138) -/

/-- A trim that takes effect moves the trims and raises an event, and nothing of what the panel looks at. -/
theorem panelOscNow_keeps {β : Type} (f : State → β) (htrim : ∀ (x : Trims) (s : State), f { s with trim := x } = f s)
    (hnote : ∀ d s, f (s.note .trimChanged .trimChanged .device d) = f s) (s : State) : f s.panelOscNow = f s := by
  unfold State.panelOscNow
  split
  · unfold State.setOsc State.trimNote
    dsimp only
    split
    · exact (htrim _ _).trans (htrim _ _)
    · exact (hnote _ _).trans ((htrim _ _).trans (htrim _ _))
  · rfl

theorem panelOscNow_pnl (s : State) : s.panelOscNow.pnl = s.pnl :=
  panelOscNow_keeps State.pnl (fun _ _ => rfl) (note_pnl _ _ _) s

theorem panelOscNow_auxRes (s : State) : s.panelOscNow.anv.auxRes = s.anv.auxRes :=
  panelOscNow_keeps (fun s => s.anv.auxRes) (fun _ _ => rfl) (note_anv_auxRes _ _ _) s

/-! ### The row of a pair boundary (R138, R367, R376) -/

/-- The state that a pair boundary finds: the first frame of the next pair, with the waiting trim in effect. -/
def atPair (s : State) : State := withPanel { s.pnl with second := false } s.panelOscNow

theorem atPair_pnl (s : State) : (atPair s).pnl = { s.pnl with second := false } := rfl

theorem atPair_live (s : State) : (atPair s).live = s.live := live_congr (t := atPair s) (panelOscNow_eff s)

theorem atPair_regionPixels (s : State) : (atPair s).regionPixels = s.regionPixels :=
  regionPixels_congr (t := atPair s) (panelOscNow_eff s)

theorem atPair_panelBand (s : State) : (atPair s).panelBand = s.panelBand :=
  panelBand_congr (t := atPair s) (panelOscNow_eff s) (panelOscNow_auxRes s)

theorem execPanelPairBoundary_runs {s : State} (hruns : s.panelRuns = true) (hsecond : s.pnl.second = true) :
    exec .panelPairBoundary s = .next s.panelOscNow.pairBoundary := by
  simp only [exec, execPanelPairBoundary, hruns, hsecond, Bool.and_self, if_true]

theorem pairBoundary_atPair {s : State} (hopen : s.pnl.closeout = 0) :
    s.panelOscNow.pairBoundary = boundary allRegions (atPair s) := by
  rw [pairBoundary_open (by rw [panelOscNow_pnl, hopen]), panelOscNow_pnl, atPair]

theorem ending_atPair {s : State} (hopen : s.pnl.closeout = 0) (g : Fin 8) :
    ending g (atPair s) = s.pnl.regions[g].run.filter fun run => runFull run || run.cut :=
  ending_open (s := atPair s) hopen g

theorem starting_atPair {s : State} (hopen : s.pnl.closeout = 0) (g : Fin 8) :
    starting g (afterEnds allRegions (atPair s)) =
      (follows (ending g (atPair s)) s.pnl.regions[g]).filter fun run =>
        !run.started && decide (s.pnl.rail = 5) && !s.pnl.railDown &&
          (s.pnl.bandFor run.req.transition s.panelBand).isSome := by
  have hnow : startsNow (atPair s) = fun run => !run.started && decide (s.pnl.rail = 5) && !s.pnl.railDown &&
      (s.pnl.bandFor run.req.transition s.panelBand).isSome := by
    funext run
    rw [startsNow, atPair_panelBand, atPair_pnl, mayStart]
    simp only [hopen, decide_true, Bool.and_true, Bool.and_assoc]
    rfl
  rw [starting_afterEnds allRegions_nodup (mem_allRegions g), hnow]
  rfl

theorem started_atPair (s : State) : started (atPair s) = fun run => { run with
    started := true, pair := 0
    table := ((s.pnl.bandFor run.req.transition s.panelBand).bind (s.pnl.table? run.req.transition)).getD [] } := by
  funext run
  rw [started, atPair_panelBand, atPair_pnl]
  rfl

/-- Beside the panel, a pair boundary brings the waiting trim, and what a host hears of the requests that end. -/
theorem withPanel_boundary_atPair (s : State) : withPanel s.pnl (boundary allRegions (atPair s)) =
    chain allRegions (fun g => told g (ending g (atPair s))) s.panelOscNow := by
  rw [withPanel_boundary allRegions_nodup, atPair, withPanel_withPanel, ← panelOscNow_pnl, withPanel_self]

theorem boundary_atPair_trim (s : State) : (boundary allRegions (atPair s)).trim = s.panelOscNow.trim := by
  rw [← withPanel_trim s.pnl, withPanel_boundary_atPair]
  exact chain_keeps State.trim allRegions _ (fun g => told_keeps State.trim (raise_trim _ _) g _) s.panelOscNow

theorem boundary_atPair_ev (s : State) : (boundary allRegions (atPair s)).ev =
    (chain (allRegions.filterMap fun g => ((ending g (atPair s)).filter fun run => !run.req.refresh).map fun run => (g, run))
      (fun x s => s.raise .pnlDone .device
        (le 4 x.2.req.number ++ le 2 (if runFull x.2 then Status.ok else Status.cut).code ++ le 1 x.1.val))
      s.panelOscNow).ev := by
  rw [← withPanel_ev s.pnl, withPanel_boundary_atPair, chain_told]

/-! ### Faults (R274, R375) -/

/-- A region after a fault: no request, and DIRTY where it had one. -/
def faulted (x : Region) : Region := { run := none, slot := none, dirty := x.dirty || x.run.isSome || x.slot.isSome }

/-- A host hears of what a region had. -/
def toldFault (g : Fin 8) (x : Region) (s : State) : State :=
  let s1 := match x.run with | some run => s.pnlDone g run.req .panelFault | none => s
  match x.slot with | some q => s1.pnlDone g q .panelFault | none => s1

theorem toldFault_keeps {β : Type} (f : State → β) (hf : ∀ d s, f (s.raise .pnlDone .device d) = f s) (g : Fin 8)
    (x : Region) (s : State) : f (toldFault g x s) = f s := by
  unfold toldFault
  cases x.run <;> cases x.slot <;> simp only [pnlDone_keeps f hf]

/-- A fault of a region moves that region, and a host hears of what it had. -/
theorem faultRegion_eq (g : Fin 8) (s : State) :
    s.faultRegion g = toldFault g s.pnl.regions[g] (s.onRegion g faulted) := by
  unfold State.faultRegion
  dsimp only
  generalize hx : s.pnl.regions[g] = x
  obtain ⟨run, slot, dirty⟩ := x
  split
  · next h =>
    obtain ⟨hrun, hslot⟩ := Bool.and_eq_true_iff.1 h
    obtain rfl := Option.isNone_iff_eq_none.1 hrun
    obtain rfl := Option.isNone_iff_eq_none.1 hslot
    have hidle : faulted s.pnl.regions[g] = s.pnl.regions[g] := by
      simp only [hx, faulted, Option.isSome_none, Bool.or_false]
    rw [State.onRegion, upd_idle hidle]
    rfl
  · next h =>
    have hbusy : upd s.pnl.regions g (fun x : Region => { x with run := none, slot := none, dirty := true }) =
        upd s.pnl.regions g faulted := upd_congr (by
      rw [hx, faulted]
      cases run <;> cases slot <;> simp at h ⊢)
    rw [State.onRegion, State.onRegion, hbusy]
    rfl

theorem faultRegion_pnl (g : Fin 8) (s : State) :
    (s.faultRegion g).pnl = { s.pnl with regions := upd s.pnl.regions g faulted } := by
  rw [faultRegion_eq, toldFault_keeps State.pnl (raise_pnl _ _)]
  rfl

theorem faultRegion_flt (g : Fin 8) (s : State) : (s.faultRegion g).flt = s.flt := by
  rw [faultRegion_eq, toldFault_keeps State.flt (raise_flt _ _)]
  rfl

theorem chain_faultRegion_region {l : List (Fin 8)} (hl : l.Nodup) {g : Fin 8} (hg : g ∈ l) (s : State) :
    (chain l State.faultRegion s).pnl.regions[g] = faulted s.pnl.regions[g] := by
  have hother : ∀ (g i : Fin 8) (s : State), g ≠ i → (s.faultRegion i).pnl.regions[g] = s.pnl.regions[g] :=
    fun g i s h => by simp only [faultRegion_pnl, upd_other _ _ _ _ h]
  exact chain_at (fun g s => s.pnl.regions[g]) (fun g s => faulted s.pnl.regions[g])
    (fun g s => by simp only [faultRegion_pnl, upd_same]) hother (fun g i s h => by simp only [hother g i s h]) hl hg s

theorem chain_faultRegion_pnl (l : List (Fin 8)) (s : State) :
    ∃ regions, (chain l State.faultRegion s).pnl = { s.pnl with regions := regions } := by
  induction l generalizing s with
  | nil => exact ⟨_, rfl⟩
  | cons g l ih =>
    obtain ⟨regions, h⟩ := ih (s.faultRegion g)
    exact ⟨regions, h.trans (by rw [faultRegion_pnl])⟩

/-- The driver is in its fault state, its rails go down at 1 ms steps, and every region is as a fault leaves it. -/
structure Failed (p q : Panel) : Prop where
  fault : q.fault = true
  railFast : q.railFast = decide (p.rail ≠ 0)
  region : ∀ g : Fin 8, q.regions[g] = faulted p.regions[g]

/-- The driver enters its fault state. -/
def inFault (s : State) : State := withPanel { s.pnl with fault := true, railFast := s.pnl.rail ≠ 0 } s

/-- A fault ends what is left of a closeout but the way down of its rails, and the rails follow. -/
def faultEnds (s : State) : State :=
  (withPanel { s.pnl with closeout := if s.pnl.closeout = 0 || s.pnl.rail = 0 then 0 else 3 } s).steer

theorem panelFault_eq (s : State) : s.panelFault = faultEnds (chain allRegions State.faultRegion (inFault s)) := by
  rw [State.panelFault, inFault, withPanel]
  generalize chain allRegions State.faultRegion _ = s1
  rfl

theorem faultEnds_pnl (s : State) : ∃ n down, (faultEnds s).pnl = { s.pnl with closeout := n, railDown := down } := by
  obtain ⟨down, h⟩ := steer_pnl
    (withPanel { s.pnl with closeout := if s.pnl.closeout = 0 || s.pnl.rail = 0 then 0 else 3 } s)
  exact ⟨_, down, h⟩

theorem panelFault_flt (s : State) : s.panelFault.flt = s.flt := by
  have hchain := chain_keeps State.flt allRegions _ faultRegion_flt (inFault s)
  rw [panelFault_eq]
  generalize chain allRegions State.faultRegion (inFault s) = s1 at hchain ⊢
  exact hchain

theorem panelFault_failed (s : State) : Failed s.pnl s.panelFault.pnl := by
  obtain ⟨regions, hpnl⟩ := chain_faultRegion_pnl allRegions (inFault s)
  have hregion := fun g => chain_faultRegion_region allRegions_nodup (mem_allRegions g) (inFault s)
  rw [panelFault_eq]
  generalize chain allRegions State.faultRegion (inFault s) = s1 at hpnl hregion ⊢
  obtain ⟨n, down, hends⟩ := faultEnds_pnl s1
  rw [hends]
  exact ⟨congrArg Panel.fault hpnl, congrArg Panel.railFast hpnl, hregion⟩

theorem next_failed {c : Instr} {s s1 : State} (h : exec c s = .next s1.panelFault) :
    ∃ t, exec c s = .next t ∧ Failed s1.pnl t.pnl ∧ t.flt = s1.flt := ⟨_, h, panelFault_failed s1, panelFault_flt s1⟩

theorem execPanelFault_runs (clock : Bool) {s : State} (hp : s.powered = true) : exec (.panelFault clock) s =
    .next ({ s with flt := { s.flt with panelStop := s.flt.panelStop || clock } }).panelFault := by
  simp only [exec, execPanelFault, hp, if_true]

/-! ### Rails (R315, R374, R377) -/

theorem railTurn_down {p : Panel} (h : p.rail = 0) : p.railTurn = none := by
  simp only [Panel.railTurn, Panel.railsUp, h, Nat.zero_min, if_true]

/-- Outside a closeout that ends, a rail step is the step of the rails alone. -/
theorem execRailStep_plain {s : State} (hp : s.powered = true) (h : s.pnl.closeout = 0 ∨ s.pnl.railStep.closeout ≠ 0) :
    exec .railStep s = .next (withPanel s.pnl.railStep s) := by
  have hc : (decide (s.pnl.closeout ≠ 0) && decide (s.pnl.railStep.closeout = 0) && !s.pwr.pfail) = false := by
    rcases h with h | h <;> simp [h]
  simp only [exec, execRailStep, hp, hc, Bool.not_true, Bool.false_eq_true, if_false, withPanel]

theorem railStep_up {p : Panel} (hdown : p.railDown = false) (hbusy : p.busy = true) (hrail : p.rail < 5) :
    p.railStep = { p with rail := p.rail + 1, railNew := decide (p.rail < 4) } := by
  simp only [Panel.railStep, hdown, hbusy, hrail, decide_true, Bool.and_self, Bool.false_eq_true, if_false, if_true]

theorem railStep_down {p : Panel} (hdown : p.railDown = true) : p.railStep = { p with
    rail := p.rail - 1, railDown := decide (p.rail - 1 ≠ 0), railFast := p.railFast && decide (p.rail - 1 ≠ 0), railNew := false
    closeout := if p.rail - 1 = 0 then 0 else if p.closeout = 2 then 3 else p.closeout } := by
  simp only [Panel.railStep, hdown, if_true]

/-- Outside a closeout the last step down ends none. -/
theorem railStep_down_open {p : Panel} (hdown : p.railDown = true) (h : p.closeout = 0) : p.railStep = { p with
    rail := p.rail - 1, railDown := decide (p.rail - 1 ≠ 0), railFast := p.railFast && decide (p.rail - 1 ≠ 0)
    railNew := false } := by
  have hc : (if p.rail - 1 = 0 then 0 else if p.closeout = 2 then 3 else p.closeout) = p.closeout := by
    rw [h]
    exact ite_self 0
  rw [railStep_down hdown, hc]

/-- The first step down of a closeout ends its grounded frame. -/
theorem railStep_down_grounded {p : Panel} (hdown : p.railDown = true) (h : p.closeout = 2) (hrail : 1 < p.rail) :
    p.railStep = { p with rail := p.rail - 1, railNew := false, closeout := 3 } := by
  have hn : p.rail - 1 ≠ 0 := by omega
  rw [railStep_down hdown]
  simp only [hn, h, ne_eq, not_false_eq_true, decide_true, Bool.and_true, if_true, if_false, hdown]

/-- A rail that is read in its turn: its result, and a fault where it lies outside 10 % of its nominal value. -/
theorem execRailRead_turn {rail : Fin 4} {s : State} (code : BitVec 12) (hp : s.powered = true) (h : s.pnl.railTurn = some rail) :
    let v := auxValue 15 rail.val (code.toNat : Rat)
    let s1 : State := { s with
      pnl := { s.pnl with railSel := rail.val, railNew := false }
      anv := { s.anv with auxRes := upd s.anv.auxRes 15 fun _ => toF32 v } }
    exec (.railRead code) s = .next (if railBad rail v then s1.panelFault else s1) := by
  simp only [exec, execRailRead, hp, h, Bool.not_true, Bool.false_eq_true, if_false]

/-- Settles O26: a pair boundary moves each region in a part of its own, a rail step and a rail that is read in its turn move the rails
alone, and a fault leaves every region as it leaves one. -/
theorem panelEventsComplete : Obligations.PanelEventsComplete := by
  unfold Obligations.PanelEventsComplete
  intro failed full ends after starts
  have hfailed : ∀ {s t : State}, Failed s.pnl t.pnl → failed s t := fun h =>
    ⟨h.fault, h.railFast, fun g => by rw [h.region]; exact ⟨rfl, rfl, rfl⟩⟩
  refine ⟨?_, ?_, ?_, ?_, ?_, ?_, ?_, ?_, ?_, ?_⟩
  · intro s hruns hsecond
    simp only [exec, execPanelFrameBoundary, hruns, hsecond, Bool.not_false, Bool.and_self, if_true]
  · intro s hruns hsecond hopen
    have hends : ∀ g, ends s g = ending g (atPair s) := fun g => (ending_atPair hopen g).symm
    have hafter : ∀ g, after s g = follows (ending g (atPair s)) s.pnl.regions[g] := fun g => by rw [← hends]; rfl
    have hstarts : ∀ g, starts s g = starting g (afterEnds allRegions (atPair s)) := fun g => by
      rw [starting_atPair hopen, ← hafter]
    obtain ⟨shown, work, band, regions, down, hpnl⟩ := boundary_pnl allRegions (atPair s)
    refine ⟨boundary allRegions (atPair s), ?_, ?_, ?_, fun g => ⟨?_, ?_, ?_⟩, ?_, ?_, ?_, ?_⟩
    · rw [execPanelPairBoundary_runs hruns hsecond, pairBoundary_atPair hopen]
    · rw [hpnl, atPair_pnl]
    · exact boundary_atPair_trim s
    · rw [boundary_region allRegions_nodup (mem_allRegions g), startRegion, hends]
      exact paired_slot _ _
    · rw [boundary_region allRegions_nodup (mem_allRegions g), startRegion, hends]
      exact paired_dirty _ _
    · rw [boundary_run allRegions_nodup (mem_allRegions g), hafter, hends, hstarts, started_atPair]
      rfl
    · rw [hpnl, atPair_pnl]
    · simp only [hends, boundary_shown allRegions_nodup, atPair_live, atPair_regionPixels, atPair_pnl]
    · simp only [hstarts, boundary_work allRegions_nodup, atPair_live, atPair_regionPixels, atPair_pnl]
    · simp only [hends]
      exact boundary_atPair_ev s
  · intro s hruns hsecond hclosing
    have hpnl := panelOscNow_pnl s
    have hc : s.panelOscNow.pnl.closeout = 1 := by rw [hpnl, hclosing]
    refine ⟨s.panelOscNow.pairBoundary, execPanelPairBoundary_runs hruns hsecond, ?_, fun g hslot => ?_⟩
    · rw [pairBoundary_closing hc, steer_closeout]
      rfl
    · rw [pairBoundary_closing_region hc, hpnl, paired_run, follows, hslot]
      cases s.pnl.regions[g].run <;> rfl
  · intro s hp hopen hdown hbusy hrail
    rw [execRailStep_plain hp (.inl hopen), railStep_up hdown hbusy hrail, withPanel]
  · intro s hp hopen hdown
    rw [execRailStep_plain hp (.inl hopen), railStep_down_open hdown hopen, withPanel]
  · intro s hp hgrounded hdown hrail
    have hstep := railStep_down_grounded hdown hgrounded hrail
    rw [execRailStep_plain hp (.inr (by rw [hstep]; exact Nat.succ_ne_zero 2)), hstep, withPanel]
  · intro code s hrail
    simp only [exec, execRailRead, railTurn_down hrail, ite_self]
  · intro rail code s hp hturn hgood
    exact (execRailRead_turn code hp hturn).trans (congrArg _ (if_neg (by rw [hgood]; decide)))
  · intro clock s hp
    obtain ⟨t, ht, hf, hflt⟩ := next_failed (execPanelFault_runs clock hp)
    exact ⟨t, ht, hfailed ⟨hf.fault, hf.railFast, hf.region⟩, hflt⟩
  · intro rail code s hp hturn hbad
    obtain ⟨t, ht, hf, hflt⟩ := next_failed ((execRailRead_turn code hp hturn).trans (congrArg _ (if_pos hbad)))
    exact ⟨t, ht, hfailed ⟨hf.fault, hf.railFast, hf.region⟩, hflt⟩

end Sys2Proof.Scope
end

section
/-!
SUPPORT. Survey intervals, capture buffers and the sealing of folios (R157, R158, R164 to R170, R184, R187).
-/
namespace Sys2Proof.Scope

open Sys2Proof.Machine Sys2Proof.Laws

/-! ### The end of a survey interval (R166, R167, R170) -/

theorem publishSet_running {s : State} (h : s.wb.running = true) : s.publishSet = { s with wb := { s.wb with
    ring := ((⟨s.wb.next, s.surveySet, []⟩ : WbSet) :: s.wb.ring).take 8
    next := (s.wb.next + if s.wb.ended then 2 else 1) % 2 ^ 48 } } := by
  simp only [State.publishSet, h, Bool.not_true, Bool.false_eq_true, if_false]

/-- What starts a set is in neither the ring nor the next number. -/
theorem startSet_ring_next (ring : List WbSet) (next : Nat) (s : State) :
    ({ s with wb := { s.wb with ring := ring, next := next } } : State).startSet =
      { s with wb := { s.startSet.wb with ring := ring, next := next } } := rfl

theorem execWbSetEnd_over {s : State} (hp : s.powered = true) (hfull : setFrames ≤ s.wb.frames) :
    exec .wbSetEnd s = .next (if s.wb.running then s.publishSet.startSet.pendInt 21 else s.startSet) := by
  simp only [exec, execWbSetEnd, hp, Nat.not_lt.mpr hfull, Bool.not_true, decide_false, Bool.or_self, Bool.false_eq_true, if_false]

theorem execWbSetEnd_publishes {s : State} (hp : s.powered = true) (hfull : setFrames ≤ s.wb.frames)
    (hrun : s.wb.running = true) : exec .wbSetEnd s = .next (({ s with wb := { s.startSet.wb with
      ring := ((⟨s.wb.next, s.surveySet, []⟩ : WbSet) :: s.wb.ring).take 8
      next := (s.wb.next + if s.wb.ended then 2 else 1) % 2 ^ 48 } } : State).pendInt 21) := by
  rw [execWbSetEnd_over hp hfull, if_pos hrun, publishSet_running hrun, startSet_ring_next]

theorem execWbSetEnd_idle {s : State} (hp : s.powered = true) (hfull : setFrames ≤ s.wb.frames)
    (hidle : s.wb.running = false) : exec .wbSetEnd s = .next s.startSet := by
  rw [execWbSetEnd_over hp hfull, hidle, if_neg Bool.false_ne_true]

/-! ### Capture buffers (R157, R158) -/

theorem execCaptureFilled_full {i : Fin 2} {s : State} (hst : s.pq.caps[i].st = .filling) (hleft : s.pq.caps[i].left = 0) :
    exec (.captureFilled i) s = .next
      (({ s with pq := { s.pq with caps := upd s.pq.caps i fun c => { c with st := .kept } } }).pendInt 22) := by
  simp only [exec, execCaptureFilled, hst, hleft, decide_true, Bool.and_self, if_true]

theorem execCaptureKeepExpiry_kept {i : Fin 2} {s : State} (hst : s.pq.caps[i].st = .kept) :
    exec (.captureKeepExpiry i) s = .next
      { s with pq := { s.pq with caps := upd s.pq.caps i fun c => { c with st := .filled } } } := by
  simp only [exec, execCaptureKeepExpiry, hst, if_true]

/-! ### Folios that are reclaimed (R187) -/

/-- A lease names the folio. -/
def leased (f : Folios) (x : Folio) : Bool := f.leases.any fun l => l.folio = x.number

theorem reclaim_shut_cons {f : Folios} {newest : Folio} {older : List Folio} (h : f.shut = newest :: older) :
    f.reclaim.shut = newest :: older.filter (leased f) := by
  simp only [Folios.reclaim, h]
  rfl

theorem reclaim_frame (f : Folios) : f.reclaim =
    { f with shut := f.reclaim.shut, retired := f.reclaim.retired, retireDue := f.reclaim.retireDue } := by
  unfold Folios.reclaim
  split <;> rfl

/-! ### The sealing of a folio (R184, R187) -/

/-- Sealing takes the filling folio away and reclaims what nothing holds beside it. -/
def sealedFolios (ecc : Bool) (x : Folio) (f : Folios) : Folios :=
  ({ f with
    filling := none
    shut := { x with flags := if ecc then x.flags ||| 8 else x.flags } :: f.shut }).reclaim

theorem seal_filling {x : Folio} {s : State} (ecc : Bool) (h : s.fol.filling = some x) :
    s.seal ecc = ({ s with fol := sealedFolios ecc x s.fol } : State).pendInt 16 := by
  simp only [State.seal, h, sealedFolios]
  cases ecc <;> rfl

theorem sealedFolios_shut (ecc : Bool) (x : Folio) (f : Folios) : (sealedFolios ecc x f).shut =
    { x with flags := if ecc then x.flags ||| 8 else x.flags } :: f.shut.filter (leased f) :=
  reclaim_shut_cons rfl

theorem sealedFolios_frame (ecc : Bool) (x : Folio) (f : Folios) : (sealedFolios ecc x f).filling = none ∧
    (sealedFolios ecc x f).next = f.next ∧ (sealedFolios ecc x f).leases = f.leases := by
  rw [sealedFolios, reclaim_frame]
  exact ⟨rfl, rfl, rfl⟩

theorem execFolioSealed_waits (ecc : Bool) {s : State} (h : (s.metering && s.blockDue) = true) :
    exec (.folioSealed ecc) s = .next s := by
  simp only [exec, execFolioSealed, h, if_true]

theorem execFolioSealed_seals (ecc : Bool) {s : State} (h : (s.metering && s.blockDue) = false) :
    exec (.folioSealed ecc) s = .next (s.seal ecc) := by
  simp only [exec, execFolioSealed, h, Bool.false_eq_true, if_false]

/-- Settles O39: a running set is published before the next interval opens, and sealing puts the filling folio before those sealed ones
that a lease names. -/
theorem surveyAndCaptureRowsComplete : Obligations.SurveyAndCaptureRowsComplete := by
  unfold Obligations.SurveyAndCaptureRowsComplete
  refine ⟨fun s hp hfull => ⟨execWbSetEnd_publishes hp hfull, execWbSetEnd_idle hp hfull⟩,
    fun i s => execCaptureFilled_full, fun i s => execCaptureKeepExpiry_kept,
    fun ecc x s hfill => ⟨execFolioSealed_waits ecc, fun hmade => ?_⟩⟩
  have hshut := sealedFolios_shut ecc x s.fol
  obtain ⟨hfilling, hnext, hleases⟩ := sealedFolios_frame ecc x s.fol
  refine ⟨{ s with fol := sealedFolios ecc x s.fol }, ?_, rfl, hfilling, ?_, hnext, hleases, fun g hg => ?_, fun g hg hlease => ?_⟩
  · rw [execFolioSealed_seals ecc hmade, seal_filling ecc hfill]
  · rw [State.newest?, hshut, List.head?_cons]
  · rw [hshut] at hg
    exact (List.mem_cons.mp hg).imp_right List.mem_of_mem_filter
  · rw [hshut]
    exact List.mem_cons_of_mem _ (List.mem_filter.mpr ⟨hg, hlease⟩)

end Sys2Proof.Scope
end

section
/-!
SUPPORT. The edges of the pulse outputs (R173, R176, R177, R180).
-/
namespace Sys2Proof.Scope

open Sys2Proof.Machine Sys2Proof.Laws

/-! ### A leading edge (R173, R176, R177) -/

/-- The edge emitted is the oldest one owed, which leaves those behind it. -/
theorem lead_owed {p : Pulse} {due : Nat} {rest : List Nat} (h : p.edges = due :: rest) : p.lead due = { p with
    n := p.n + 1, g := p.g - pulseQuantum, edges := rest, lastEdge := some (p.edgeTick due)
    lastFall := some (p.edgeTick due + p.width), high := true
    lateBlock := p.lateBlock || decide (due < p.edgeTick due) } := by
  simp only [Pulse.lead, h, List.drop_succ_cons, List.drop_zero]

theorem execPulseLeadingEdge_emits {n : Fin 8} {due : Nat} {rest : List Nat} {s : State} (hp : s.powered = true)
    (hon : s.pulseOn n = true) (howed : s.pulses[n].edges = due :: rest) (hg : pulseQuantum ≤ s.pulses[n].g) :
    exec (.pulseLeadingEdge n) s = .next (s.onPulse n (Pulse.lead due)) := by
  simp only [exec, execPulseLeadingEdge, howed, hp, hon, hg, decide_true, Bool.and_self, if_true]

/-! ### A trailing edge (R177, R180) -/

theorem trail_frame (p : Pulse) : p.trail = { p with high := false, lastFall := p.trail.lastFall } := rfl

theorem trail_lastFall_low {p : Pulse} (h : p.high = false) : p.trail.lastFall = p.lastFall := by
  simp only [Pulse.trail, h, Bool.false_eq_true, if_false]

/-- With no edge owed, a pulse that is high falls at the tick its width gives. -/
theorem trail_lastFall_last {p : Pulse} {fall : Nat} (hhigh : p.high = true) (hfall : p.lastFall = some fall)
    (h : p.edges = []) : p.trail.lastFall = some fall := by
  simp only [Pulse.trail, hhigh, hfall, h, List.head?_nil, Option.map_none, if_true]

/-- With an edge owed, a pulse that is high falls 10 µs before that edge where its width would carry it beyond. -/
theorem trail_lastFall_next {p : Pulse} {fall due : Nat} {rest : List Nat} (hhigh : p.high = true)
    (hfall : p.lastFall = some fall) (h : p.edges = due :: rest) :
    p.trail.lastFall = some (min fall (p.edgeTick due - 10 * sysHz / 1000000)) := by
  simp only [Pulse.trail, hhigh, hfall, h, List.head?_cons, Option.map_some, if_true]

/-- Settles O38: a leading edge takes the oldest pulse owed, and a trailing edge touches the pin and the fall of its output alone. -/
theorem pulseRowsComplete : Obligations.PulseRowsComplete := by
  unfold Obligations.PulseRowsComplete
  refine ⟨fun n due rest s hp hon howed hg => ?_, fun n s => ⟨s.onPulse n Pulse.trail, rfl, ?_⟩⟩
  · rw [execPulseLeadingEdge_emits hp hon howed hg]
    refine congrArg (fun v => Host.Outcome.next { s with pulses := v }) (upd_congr ?_)
    exact lead_owed howed
  · have hown : (s.onPulse n Pulse.trail).pulses[n] = s.pulses[n].trail := upd_same ..
    rw [hown]
    exact ⟨trail_frame _, trail_lastFall_low, fun fall hhigh hfall =>
      ⟨trail_lastFall_last hhigh hfall, fun due rest => trail_lastFall_next hhigh hfall⟩, fun m => upd_other s.pulses n m _, rfl⟩

end Sys2Proof.Scope
end

section
/-!
SUPPORT. What a reading command leaves, whatever its outcome: a completion ends its own session at most, with the leases of that
session (R190, R200, R223, R231, R232, R237, R239, R244).
-/
namespace Sys2Proof.Scope

open Sys2Proof.Machine Sys2Proof.Laws

/-! ### The end of a session (R187, R189, R212) -/

/-- The folios once a session has ended: its leases are gone, and what nothing holds then is reclaimed. -/
def foliosWithout (id : Fin 1024) (f : Folios) : Folios :=
  ({ f with leases := f.leases.filter fun l => l.session ≠ id, used := f.used.filter fun u => u.1 ≠ id }).reclaim

theorem mem_foliosWithout_leases {id : Fin 1024} {f : Folios} {l : Lease} (hl : l ∈ f.leases) (h : l.session ≠ id) :
    l ∈ (foliosWithout id f).leases := by
  rw [foliosWithout, reclaim_frame]
  exact List.mem_filter.mpr ⟨hl, decide_eq_true h⟩

/-- Reclaiming leaves a folio that a lease names. -/
theorem mem_reclaim_shut {f : Folios} {x : Folio} (hx : x ∈ f.shut) (h : leased f x = true) : x ∈ f.reclaim.shut := by
  cases hshut : f.shut with
  | nil => simp [hshut] at hx
  | cons newest older =>
    rw [reclaim_shut_cons hshut]
    rw [hshut] at hx
    exact (List.mem_cons.mp hx).elim (fun e => e ▸ List.mem_cons_self)
      fun hold => List.mem_cons_of_mem _ (List.mem_filter.mpr ⟨hold, h⟩)

theorem mem_foliosWithout_shut {id : Fin 1024} {f : Folios} {x : Folio} (hx : x ∈ f.shut)
    (h : ∃ l ∈ f.leases, l.session ≠ id ∧ l.folio = x.number) : x ∈ (foliosWithout id f).shut := by
  obtain ⟨l, hl, hid, hnumber⟩ := h
  refine mem_reclaim_shut hx (List.any_eq_true.mpr ⟨l, ?_, decide_eq_true hnumber⟩)
  exact List.mem_filter.mpr ⟨hl, decide_eq_true hid⟩

theorem endSession_fol (id : Fin 1024) (cause : Nat) (s : State) :
    (s.endSession id cause).fol = s.fol ∨ (s.endSession id cause).fol = foliosWithout id s.fol := by
  unfold State.endSession
  split
  · exact .inl rfl
  · exact .inr (by simp [foliosWithout])

theorem session?_eq_find? (s : State) (id : Fin 1024) : s.session? id = s.scr.sessions.find? fun x => decide (x.id = id) := rfl

theorem session?_congr {s t : State} (h : t.scr.sessions = s.scr.sessions) (id : Fin 1024) : t.session? id = s.session? id := by
  rw [session?_eq_find?, session?_eq_find?, h]

theorem endSession_sessions (id : Fin 1024) (cause : Nat) (s : State) :
    (s.endSession id cause).scr.sessions = s.scr.sessions.filter fun x => x.id ≠ id := by
  cases h : s.session? id with
  | none =>
    have hnone := List.find?_eq_none.mp h
    simp only [State.endSession, h]
    exact (List.filter_eq_self.mpr fun x hx => by simpa using hnone x hx).symm
  | some x => simp only [State.endSession, h, raise_scr, keepActivations_scr_sessions]

theorem endSession_session?_other {i id : Fin 1024} (h : i ≠ id) (cause : Nat) (s : State) :
    (s.endSession id cause).session? i = s.session? i := by
  rw [session?_eq_find?, session?_eq_find?, endSession_sessions, List.find?_filter]
  congr 1
  funext x
  by_cases hx : x.id = i <;> simp [hx, h]

theorem onSession_session?_other {i id : Fin 1024} (h : i ≠ id) {f : Session → Session} (hf : ∀ x, (f x).id = x.id) (s : State) :
    (s.onSession id f).session? i = s.session? i := by
  have hkey (x : Session) : (if x.id = id then f x else x).id = x.id := by split <;> simp [hf]
  have hmap : (s.onSession id f).session? i = (s.session? i).map fun x => if x.id = id then f x else x := by
    rw [session?_eq_find?, State.onSession, List.find?_map, session?_eq_find?]
    simp only [Function.comp_def, hkey]
  cases hx : s.session? i with
  | none => rw [hmap, hx, Option.map_none]
  | some x =>
    have hid : x.id = i := by simpa using List.find?_some hx
    rw [hmap, hx, Option.map_some, if_neg (hid ▸ h)]

/-! ### What a completion leaves (R197, R200) -/

/-- A completion leaves the folios and the other sessions, or ends its session, which could not be answered. -/
theorem complete_cases (op : Nat) (r : Req) (st : Status) (bs : List Byte) (s : State) :
    ((s.complete op r st bs).fol = s.fol ∧ ∀ id, id ≠ r.session → (s.complete op r st bs).session? id = s.session? id) ∨
    (s.answerable op r = false ∧ ∃ u : State, u.fol = s.fol ∧ u.scr.sessions = s.scr.sessions ∧
      s.complete op r st bs = u.endSession r.session 3) := by
  unfold State.complete
  dsimp only
  split
  · exact .inl ⟨by simp, fun id _ => session?_congr (by simp) id⟩
  split
  · rw [if_neg (by decide)]
    exact .inl ⟨by simp, fun id _ => session?_congr (by simp) id⟩
  split
  · next hused =>
    refine .inr ⟨?_, _, by simp, by simp, rfl⟩
    simp only [State.answerable, Bool.and_eq_false_iff, decide_eq_false_iff_not]
    exact .inr (not_lt.mpr hused)
  · refine .inl ⟨by simp, fun id hid => ?_⟩
    have hcounted := onSession_session?_other (f := fun x => { x with devSeq := x.devSeq + 1 }) hid (fun _ => rfl) s
    refine (session?_congr ?_ id).trans hcounted
    simp only [pendInt_scr, State.onSession, start_scr_sessions, onPort_scr_sessions]
    rfl

/-! ### Answers alone -/

/-- What no reading command changes: the device beside Scribe, the folios, the events, the interrupts and its own state, and of
Anvil everything but the blot bits. -/
def DeviceKept (s t : State) : Prop :=
  t.cfg = s.cfg ∧ t.eff = s.eff ∧ t.slots = s.slots ∧ t.chans = s.chans ∧ t.spares = s.spares ∧ t.pts = s.pts ∧
  t.buses = s.buses ∧ t.tb = s.tb ∧ t.engine = s.engine ∧ t.mcal = s.mcal ∧ t.prof = s.prof ∧ t.pq = s.pq ∧ t.wb = s.wb ∧
  t.pulses = s.pulses ∧ t.pwr = s.pwr ∧ t.flt = s.flt ∧ t.cld = s.cld ∧ t.grd = s.grd ∧ t.pnl = s.pnl ∧
  t.trim = s.trim ∧ t.draws = s.draws ∧ { t.anv with blots := s.anv.blots } = s.anv

/-- A state that a request leads to by its answer alone: what its session holds may end with that session (R200), and nothing else. -/
structure AnswersOnly (op : Nat) (r : Req) (s t : State) : Prop where
  folios : s.answerable op r = true → t.fol = s.fol
  leases : ∀ l ∈ s.fol.leases, l.session ≠ r.session → l ∈ t.fol.leases
  held : ∀ f ∈ s.fol.shut, (∃ l ∈ s.fol.leases, l.session ≠ r.session ∧ l.folio = f.number) → f ∈ t.fol.shut
  sessions : ∀ id, id ≠ r.session → t.session? id = s.session? id
  device : DeviceKept s t

theorem complete_deviceKept (op : Nat) (r : Req) (st : Status) (bs : List Byte) (s : State) :
    DeviceKept s (s.complete op r st bs) := by
  simp [DeviceKept]

theorem deviceKept_refl (s : State) : DeviceKept s s := by simp [DeviceKept]

/-- A command that is held has changed nothing. -/
theorem answersOnly_refl (op : Nat) (r : Req) (s : State) : AnswersOnly op r s s :=
  ⟨fun _ => rfl, fun _ hl _ => hl, fun _ hf _ => hf, fun _ _ => rfl, deviceKept_refl s⟩

theorem complete_answersOnly (op : Nat) (r : Req) (st : Status) (bs : List Byte) (s : State) :
    AnswersOnly op r s (s.complete op r st bs) := by
  have hdevice := complete_deviceKept op r st bs s
  obtain ⟨hfol, hsessions⟩ | ⟨hunanswered, u, hfol, hsessions, hends⟩ := complete_cases op r st bs s
  · exact ⟨fun _ => hfol, fun l hl _ => hfol ▸ hl, fun f hf _ => hfol ▸ hf, hsessions, hdevice⟩
  · have hother (id : Fin 1024) (hid : id ≠ r.session) : (s.complete op r st bs).session? id = s.session? id := by
      rw [hends, endSession_session?_other hid, session?_congr hsessions]
    have hkept := endSession_fol r.session 3 u
    rw [← hends, hfol] at hkept
    obtain hsame | hended := hkept
    · exact ⟨fun _ => hsame, fun l hl _ => hsame ▸ hl, fun f hf _ => hsame ▸ hf, hother, hdevice⟩
    · refine ⟨fun h => absurd h (by simp [hunanswered]), fun l hl hid => ?_, fun f hf hlease => ?_, hother, hdevice⟩
      · rw [hended]
        exact mem_foliosWithout_leases hl hid
      · rw [hended]
        exact mem_foliosWithout_shut hf hlease

/-- The end of a stay in Banked changes nothing that an answer keeps. -/
theorem AnswersOnly.of_woken {op n : Nat} {r : Req} {s t : State} (h : AnswersOnly op r (s.woken n) t) : AnswersOnly op r s t := by
  obtain ⟨hfol, hleases, hheld, hsessions, hdevice⟩ := h
  simp only [State.answerable, State.entry?, State.session?, woken_scr, woken_fol] at hfol hleases hheld hsessions
  exact ⟨hfol, hleases, hheld, hsessions, by simpa [DeviceKept] using hdevice⟩

theorem command_answersOnly {op : Nat} {r : Req} {body : State → State} (hbody : ∀ s, AnswersOnly op r s (body s)) (s : State) :
    AnswersOnly op r s (s.command op r body) := by
  have hanswer (st : Status) (s : State) : AnswersOnly op r s (s.fail op r st) := complete_answersOnly op r st [] s
  have hwake : (if isSlow op && op ≠ 0x0503 then s.wake else s) = s.woken op := rfl
  unfold State.command
  dsimp only
  rw [hwake]
  split
  · exact answersOnly_refl op r s
  split
  · exact hanswer _ s
  refine AnswersOnly.of_woken (n := op) ?_
  split
  · exact hanswer _ _
  split
  · exact hanswer _ _
  · exact hbody _

theorem onFolio_answersOnly {op : Nat} {r : Req} {sel : Selector} {body : Folio → State} {s : State}
    (hbody : ∀ f, AnswersOnly op r s (body f)) : AnswersOnly op r s (s.onFolio op r sel body) := by
  unfold State.onFolio
  split
  · exact hbody _
  · exact complete_answersOnly ..
  · exact complete_answersOnly ..

/-! ### The reading commands (R191, R195, R230, R232, R234, R236 to R239, R244) -/

/-- Of two answers, one is given. -/
theorem AnswersOnly.ite {op : Nat} {r : Req} {s a b : State} (c : Prop) [Decidable c] (ha : AnswersOnly op r s a)
    (hb : AnswersOnly op r s b) : AnswersOnly op r s (if c then a else b) := by
  split
  · exact ha
  · exact hb

theorem eventRead_answersOnly (r : Req) (number : Nat) (s : State) : AnswersOnly 0x0301 r s (s.eventRead r number) :=
  .ite _ (complete_answersOnly ..) (.ite _ (complete_answersOnly ..) (.ite _ (complete_answersOnly ..) (complete_answersOnly ..)))

theorem profileRead_answersOnly (r : Req) (number count : Nat) (s : State) :
    AnswersOnly 0x0303 r s (s.profileRead r number count) := by
  unfold State.profileRead
  dsimp only
  repeat' split
  all_goals exact complete_answersOnly ..

theorem logRead_answersOnly (r : Req) (number count : Nat) (s : State) : AnswersOnly 0x0309 r s (s.logRead r number count) := by
  unfold State.logRead
  dsimp only
  repeat' split
  all_goals exact complete_answersOnly ..

/-- A reading command answers its request, and does nothing else. -/
theorem exec_answersOnly {c : Instr} (hread : readsOnly c = true) (s : State) :
    ∃ op r t, hostOf c = some (op, r) ∧ exec c s = .next t ∧ AnswersOnly op r s t := by
  cases c with
  | nop r payload => exact ⟨_, r, _, rfl, rfl, command_answersOnly (fun _ => complete_answersOnly ..) s⟩
  | folioRead r sel offset length errs =>
    obtain rfl : errs = [] := List.isEmpty_iff.mp hread
    refine ⟨_, r, _, rfl, rfl, command_answersOnly (fun s => .ite _ (complete_answersOnly ..) (onFolio_answersOnly fun f => ?_)) s⟩
    exact .ite _ (complete_answersOnly ..) (complete_answersOnly ..)
  | folioSealGet r sel =>
    refine ⟨_, r, _, rfl, rfl, command_answersOnly (fun s => onFolio_answersOnly fun f => ?_) s⟩
    exact .ite _ (complete_answersOnly ..) (.ite _ (complete_answersOnly ..) (complete_answersOnly ..))
  | paramRead r addr count =>
    refine ⟨_, r, _, rfl, rfl, command_answersOnly (fun s => .ite _ (complete_answersOnly ..) (.ite _ (complete_answersOnly ..)
      (onFolio_answersOnly fun f => ?_))) s⟩
    exact .ite _ (complete_answersOnly ..) (complete_answersOnly ..)
  | scRead r sel first count =>
    refine ⟨_, r, _, rfl, rfl, command_answersOnly (fun s => .ite _ (complete_answersOnly ..) (onFolio_answersOnly fun f => ?_)) s⟩
    exact .ite _ (complete_answersOnly ..) (complete_answersOnly ..)
  | eventRead r number => exact ⟨_, r, _, rfl, rfl, command_answersOnly (eventRead_answersOnly r number) s⟩
  | profileRead r number count => exact ⟨_, r, _, rfl, rfl, command_answersOnly (profileRead_answersOnly r number count) s⟩
  | wbRead r number offset length =>
    refine ⟨_, r, _, rfl, rfl, command_answersOnly (fun s => .ite _ (complete_answersOnly ..) (.ite _ (complete_answersOnly ..) ?_)) s⟩
    split
    · exact complete_answersOnly ..
    · exact .ite _ (complete_answersOnly ..) (complete_answersOnly ..)
  | capRead r number offset length =>
    refine ⟨_, r, _, rfl, rfl, command_answersOnly (fun s => .ite _ (complete_answersOnly ..) (.ite _ (complete_answersOnly ..) ?_)) s⟩
    split
    · exact complete_answersOnly ..
    · exact .ite _ (complete_answersOnly ..) (.ite _ (complete_answersOnly ..) (complete_answersOnly ..))
  | logRead r number count => exact ⟨_, r, _, rfl, rfl, command_answersOnly (logRead_answersOnly r number count) s⟩
  | calPendingRead r point select =>
    refine ⟨_, r, _, rfl, rfl, command_answersOnly (fun s => ?_) s⟩
    split
    · exact complete_answersOnly ..
    · exact .ite _ (complete_answersOnly ..) (complete_answersOnly ..)
  | blotRead r =>
    refine ⟨_, r, _, rfl, rfl, command_answersOnly (fun s => onFolio_answersOnly fun f => ?_) s⟩
    exact .ite _ (complete_answersOnly ..) (complete_answersOnly ..)
  | auxRead r input code =>
    refine ⟨_, r, _, rfl, rfl, command_answersOnly (fun s => ?_) s⟩
    split
    · exact complete_answersOnly ..
    · exact complete_answersOnly ..
  | idCertRead r offset length =>
    exact ⟨_, r, _, rfl, rfl, command_answersOnly (fun s => .ite _ (complete_answersOnly ..) (complete_answersOnly ..)) s⟩
  | _ => exact absurd hread Bool.false_ne_true

/-- Settles O52: each reading command is an answer to its request, and an answer touches its own session at most. -/
theorem readsOnlyAnswer : Obligations.ReadsOnlyAnswer := by
  unfold Obligations.ReadsOnlyAnswer
  intro c s t hread ht
  obtain ⟨op, r, u, hhost, hu, hanswer⟩ := exec_answersOnly hread s
  obtain rfl : u = t := Host.Outcome.next.inj (hu.symm.trans ht)
  refine ⟨fun op' r' hhost' => ?_, hanswer.device⟩
  obtain ⟨rfl, rfl⟩ := Prod.mk.inj (Option.some.inj (hhost.symm.trans hhost'))
  exact ⟨hanswer.folios, hanswer.leases, hanswer.held, hanswer.sessions⟩

end Sys2Proof.Scope
end

section
/-!
SUPPORT. What a served command answers from a sealed folio, and from the words in force (R191 to R196, R231, R232, R234, R239, R257).
-/
namespace Sys2Proof.Scope

open Sys2Proof.Machine Sys2Proof.Laws

/-! ### FOLIO_READ (R191, R193, R257) -/

/-- The uncorrectable words that a read of a range meets (R257). -/
def metIn (offset length : Nat) (errs : List (Nat × Word)) : List (Nat × Word) :=
  errs.filter fun e => offset ≤ e.1 && e.1 < offset + length

/-- A FOLIO_READ of a folio that its selector names first marks what it meets, and then answers. -/
theorem execFolioRead_named {r : Req} {sel : Selector} {offset length : Nat} {f : Folio} {s : State} (errs : List (Nat × Word))
    (hs : s.served 0x0101 r = true) (hfit : rangeFits offset length 4088 163840 = true) (hf : s.namedFor 0x0101 r sel = .folio f) :
    let met := metIn offset length errs
    let s1 := chain met (fun e => State.readError (.folioSlot f.number e.1, e.2)) s
    exec (.folioRead r sel offset length errs) s = .next
      (if s1.broken f offset length || !met.isEmpty then s1.fail 0x0101 r .eccError
       else s1.ok 0x0101 r (numberBytes f.number ++ (f.bytes.drop offset).take length)) := by
  refine (exec_served_fast rfl hs rfl).trans (congrArg _ ?_)
  rw [hfit]
  exact onFolio_folio _ hf

theorem metIn_outside {offset length : Nat} {errs : List (Nat × Word)}
    (h : ∀ e ∈ errs, e.1 < offset ∨ offset + length ≤ e.1) : metIn offset length errs = [] := by
  refine List.filter_eq_nil_iff.mpr fun e he => ?_
  have := h e he
  simp only [Bool.and_eq_true, decide_eq_true_eq]
  omega

theorem metIn_single {offset length : Nat} {e : Nat × Word} (hlow : offset ≤ e.1) (hhigh : e.1 < offset + length) :
    metIn offset length [e] = [e] := by
  simp [metIn, hlow, hhigh]

/-! ### PARAM_READ (R193, R232) -/

/-- The captured registers of a range (R232, R398). -/
def capturedIn (addr count : Nat) : List Reg := ((List.range count).map fun i => regOf (addr + 4 * i)).filter Reg.captured

theorem mem_capturedIn {addr count : Nat} {x : Reg} :
    x ∈ capturedIn addr count ↔ ∃ i < count, regOf (addr + 4 * i) = x ∧ x.captured = true := by
  simp only [capturedIn, List.mem_filter, List.mem_map, List.mem_range]
  constructor
  · rintro ⟨⟨i, hi, hx⟩, hc⟩
    exact ⟨i, hi, hx, hc⟩
  · rintro ⟨i, hi, hx, hc⟩
    exact ⟨⟨i, hi, hx⟩, hc⟩

theorem execParamRead_inRange {r : Req} {addr count : Nat} {s : State} (hs : s.served 0x0201 r = true)
    (hfit : rangeOk addr count = true) :
    exec (.paramRead r addr count) s = .next
      (if (capturedIn addr count).isEmpty then
        s.ok 0x0201 r (numberBytes noNumber ++ wordBytes (s.readRange none addr count))
      else s.onFolio 0x0201 r .latest fun f =>
        if (capturedIn addr count).any fun x => s.broken f (folioOffset x) 4 then s.fail 0x0201 r .eccError
        else s.ok 0x0201 r (numberBytes f.number ++ wordBytes (s.readRange (some f) addr count))) := by
  refine (exec_served_fast rfl hs rfl).trans (congrArg _ ?_)
  rw [hfit]
  rfl

theorem execParamRead_uncaptured {r : Req} {addr count : Nat} {s : State} (hs : s.served 0x0201 r = true)
    (hfit : rangeOk addr count = true) (hnone : ∀ i < count, (regOf (addr + 4 * i)).captured = false) :
    exec (.paramRead r addr count) s = .next
      (s.ok 0x0201 r (numberBytes noNumber ++ wordBytes (s.readRange none addr count))) := by
  have hempty : capturedIn addr count = [] := by
    refine List.eq_nil_iff_forall_not_mem.mpr fun x hx => ?_
    obtain ⟨i, hi, rfl, hc⟩ := mem_capturedIn.mp hx
    exact absurd hc (by simp [hnone i hi])
  rw [execParamRead_inRange hs hfit, hempty]
  rfl

theorem execParamRead_captured {r : Req} {addr count : Nat} {f : Folio} {s : State} (hs : s.served 0x0201 r = true)
    (hfit : rangeOk addr count = true) (hsome : ∃ i < count, (regOf (addr + 4 * i)).captured = true)
    (hf : s.namedFor 0x0201 r .latest = .folio f)
    (hgood : ∀ i < count, (regOf (addr + 4 * i)).captured = true → s.broken f (folioOffset (regOf (addr + 4 * i))) 4 = false) :
    exec (.paramRead r addr count) s = .next
      (s.ok 0x0201 r (numberBytes f.number ++ wordBytes (s.readRange (some f) addr count))) := by
  obtain ⟨i, hi, hc⟩ := hsome
  have hne : ¬ (capturedIn addr count).isEmpty = true :=
    fun h => absurd (mem_capturedIn.mpr ⟨i, hi, rfl, hc⟩) (by simp [List.isEmpty_iff.mp h])
  have hwhole : ¬ ((capturedIn addr count).any fun x => s.broken f (folioOffset x) 4) = true := by
    intro h
    obtain ⟨x, hx, hbroken⟩ := List.any_eq_true.mp h
    obtain ⟨j, hj, rfl, hcap⟩ := mem_capturedIn.mp hx
    exact absurd hbroken (by simp [hgood j hj hcap])
  rw [execParamRead_inRange hs hfit, if_neg hne, onFolio_folio _ hf, if_neg hwhole]

/-! ### Short counters, blot bits and Seals (R195, R196, R234, R239) -/

theorem execScRead_named {r : Req} {sel : Selector} {first count : Nat} {f : Folio} {s : State} (hs : s.served 0x0203 r = true)
    (hpos : 0 < count) (hmost : count ≤ 92) (hfit : first + count ≤ 128) (hf : s.namedFor 0x0203 r sel = .folio f) :
    exec (.scRead r sel first count) s = .next
      (if s.broken f (0x300 + 256 * first) (256 * count) then s.fail 0x0203 r .eccError
       else s.ok 0x0203 r
        (numberBytes f.number ++ ((span first count).filterMap (idx? 128)).flatMap f.img.shortCounters)) := by
  have hrange : ¬ (decide (count = 0) || decide (92 < count) || decide (128 < first + count)) = true := by
    simp only [Bool.or_eq_true, decide_eq_true_eq]
    omega
  refine (exec_served_fast rfl hs rfl).trans (congrArg _ ?_)
  rw [if_neg hrange]
  exact onFolio_folio _ hf

theorem execBlotRead_named {r : Req} {f : Folio} {s : State} (hs : s.served 0x0501 r = true)
    (hf : s.namedFor 0x0501 r .latest = .folio f) :
    exec (.blotRead r) s = .next
      (if s.broken f 0x24590 16 then s.fail 0x0501 r .eccError
       else s.ok 0x0501 r (numberBytes f.number ++ le 16 f.img.blots.toNat)) :=
  (exec_served_fast rfl hs rfl).trans (congrArg _ (onFolio_folio _ hf))

theorem execFolioSealGet_sound {r : Req} {sel : Selector} {f : Folio} {s : State} (hs : s.served 0x0106 r = true)
    (hf : (s.woken 0x0106).namedFor 0x0106 r sel = .folio f) (hq : s.grd.quenched = false) (hsound : f.flags % 16 < 8) :
    exec (.folioSealGet r sel) s = .next ((s.woken 0x0106).ok 0x0106 r
      (numberBytes f.number ++ sha256 f.billingSection
        ++ be 32 (sealSign (beNat (sha256 f.billingSection))).1
        ++ be 32 (sealSign (beNat (sha256 f.billingSection))).2)) := by
  rw [exec_served rfl hs, onFolio_folio _ hf, woken_grd, hq, if_neg Bool.false_ne_true, if_neg (Nat.not_le.mpr hsound)]

/-- Settles O14: each command passes the checks that its hypotheses meet, and a FOLIO_READ marks what it meets before it answers. -/
theorem folioReadsComplete : Obligations.FolioReadsComplete := by
  unfold Obligations.FolioReadsComplete
  refine ⟨fun r sel offset length errs f s hs hfit hf hout => ?_, fun r sel offset length e f s hs hfit hf hlow hhigh => ?_,
    fun r sel f s hs hf => execFolioSealGet_sound hs hf, fun r addr count s => execParamRead_uncaptured,
    fun r addr count f s => execParamRead_captured, fun r sel first count f s => execScRead_named,
    fun r f s => execBlotRead_named⟩
  · rw [execFolioRead_named errs hs hfit hf, metIn_outside hout]
    simp only [chain, List.foldl_nil, List.isEmpty_nil, Bool.not_true, Bool.or_false]
  · rw [execFolioRead_named [e] hs hfit hf, metIn_single hlow hhigh]
    simp only [List.isEmpty_cons, Bool.not_false, Bool.or_true, if_true]
    rfl

end Sys2Proof.Scope
end

section
/-!
SUPPORT. What a served command on leases, and a demanded cut, does: what its admission settled, or its own effect (R182, R183, R188 to
R190, R231).
-/
namespace Sys2Proof.Scope

open Sys2Proof.Machine Sys2Proof.Laws

/-- A served command that acted at its admission answers what came of it, and does nothing else. -/
theorem exec_acted_settled {c : Instr} {op : Nat} {r : Req} {st : Status} {bs : List Byte} {s : State}
    {act : State → State × Status × List Byte} (hc : exec c s = .next (s.command op r fun s => s.acted op r act))
    (hfast : isSlow op = false) (hs : s.served op r = true) (h : s.settled op r = some (.reply st bs)) :
    exec c s = .next (s.complete op r st bs) :=
  (exec_served_fast hc hs hfast).trans (congrArg _ (acted_settled act h))

/-- A served command whose admission settled nothing acts now, and answers what comes of it. -/
theorem exec_acted_now {c : Instr} {op : Nat} {r : Req} {s : State} {act : State → State × Status × List Byte}
    (hc : exec c s = .next (s.command op r fun s => s.acted op r act)) (hfast : isSlow op = false) (hs : s.served op r = true)
    (h : s.settled op r = none) : exec c s = .next ((act s).1.complete op r (act s).2.1 (act s).2.2) :=
  (exec_served_fast hc hs hfast).trans (congrArg _ (acted_now act h))

/-! ### Leases (R186, R188, R189) -/

/-- A lease within both limits is granted, under an identifier that the session has not had. -/
theorem grant_room {session : Fin 1024} {f : Folio} (d : Nat) {s : State} (hroom : s.fol.leases.length < 1024)
    (hheld : f.number ∈ s.fol.held ∨ s.fol.held.length < s.fol.limit) :
    ∃ l : Lease, l.session = session ∧ l.folio = f.number ∧ l.duration = d ∧ s.grant session f d =
      ({ s with
        draws := s.draws + 1
        fol := { s.fol with leases := s.fol.leases ++ [l], used := (session, l.id) :: s.fol.used } }, .ok, leaseReply l) := by
  have hlimits : ¬ (decide (1024 ≤ s.fol.leases.length)
      || (!s.fol.held.contains f.number && decide (s.fol.limit ≤ s.fol.held.length))) = true := by
    simp only [Bool.or_eq_true, Bool.and_eq_true, Bool.not_eq_true', List.contains_eq_mem, decide_eq_true_eq, decide_eq_false_iff_not]
    rintro (hfull | ⟨hnew, hover⟩)
    · omega
    · exact hheld.elim hnew fun h => by omega
  refine ⟨⟨freshFrom (2 ^ 32) (Config.freeNat s.draws) ((s.fol.used.filter fun u => u.1 = session).map Prod.snd), session,
    f.number, d⟩, rfl, rfl, rfl, ?_⟩
  unfold State.grant
  dsimp only
  rw [if_neg hlimits]
  rfl

theorem lease_granted {session : Fin 1024} {sel : Selector} {duration d : Nat} {f : Folio} {s : State}
    (hsel : ∀ id, sel ≠ .lease id) (hd : s.leaseTime duration = some d) (hf : s.named session sel = .folio f) :
    s.lease session sel duration = s.grant session f d := by
  unfold State.lease
  rw [hd]
  cases sel with
  | lease id => exact absurd rfl (hsel id)
  | latest => simp only [hf]
  | number n => simp only [hf]
  | badKind b => simp only [hf]

theorem renew_held {session : Fin 1024} {lease duration d : Nat} {l : Lease} {s : State} (hd : s.leaseTime duration = some d)
    (hl : s.fol.leases.find? (Lease.isOf session lease) = some l) : s.renew session lease duration =
      ({ s with fol := { s.fol with
        leases := s.fol.leases.map fun (x : Lease) => if Lease.isOf session lease x then { x with duration := d } else x } }, .ok,
        leaseReply { l with duration := d }) := by
  simp only [State.renew, hd, hl]

theorem release_held {session : Fin 1024} {lease : Nat} {s : State} (h : s.fol.leases.any (Lease.isOf session lease) = true) :
    s.release session lease = (s.endLease session lease, .ok, []) := if_pos h

/-- Once the journal is restored, a demanded cut has a number, that after an owed block cut's (R182). -/
theorem demandCut_restored {s : State} (h : s.dev.startup.restored = true) : s.demandCut =
    ({ s with fol := { s.fol with asked := true } }, .ok,
      numberBytes (if s.blockPending && !s.cutHere then (s.fol.next + 1) % 2 ^ 48 else s.fol.next)
        ++ numberBytes (s.tb.cycle + 1)) := by
  unfold State.demandCut
  rw [h]
  rfl

/-- Settles O15: settled at admission, each command answers that; else its own effect passes the checks that its hypotheses meet. -/
theorem leaseCommandsComplete : Obligations.LeaseCommandsComplete := by
  unfold Obligations.LeaseCommandsComplete
  refine ⟨fun r sel duration lease st bs s => ⟨?_, ?_, ?_, ?_⟩, fun r sel duration d f s hs hnew hsel hd hf hroom hheld => ?_,
    fun r lease duration d l s hs hnew hd hl => ?_, fun r lease s hs hnew hany => ?_, fun r s hs hnew hrestored => ?_,
    fun session lease s => rfl⟩
  · exact exec_acted_settled rfl rfl
  · exact exec_acted_settled rfl rfl
  · exact exec_acted_settled rfl rfl
  · exact exec_acted_settled rfl rfl
  · obtain ⟨l, hsession, hfolio, hduration, hgrant⟩ := grant_room (session := r.session) d hroom hheld
    refine ⟨l, hsession, hfolio, hduration, ?_⟩
    rw [exec_acted_now rfl rfl hs hnew, lease_granted hsel hd hf, hgrant]
    rfl
  · rw [exec_acted_now rfl rfl hs hnew, renew_held hd hl]
    rfl
  · rw [exec_acted_now rfl rfl hs hnew, release_held hany]
    rfl
  · rw [exec_acted_now rfl rfl hs hnew, demandCut_restored hrestored]
    rfl

end Sys2Proof.Scope
end

section
/-!
SUPPORT. A session that times out in Banked: its SESSION_END pends source 8, and where that source is watched the part returns to RUN
(R212, R284, R292).
-/
namespace Sys2Proof.Scope

open Sys2Proof.Machine Sys2Proof.Laws

/-! ### Where nothing waits for a reply (R230, R241) -/

/-- With no session closing and no SOFT_RESET due, a settled state keeps the device's own state. -/
theorem settle_dev_of_nothingDue {s : State} (hclosing : ∀ x ∈ s.scr.sessions, x.closing = none) (hsoft : s.dev.softReset = []) :
    s.settle.dev = s.dev := by
  have hclose : s.closeDue = none := by
    rw [State.closeDue, Option.map_eq_none_iff, List.find?_eq_none]
    intro x hx
    simp [hclosing x hx]
  have hdue : s.softDue = [] := by simp [State.softDue, hsoft]
  have hround : s.settleN (s.scr.sessions.length + s.dev.softReset.length + 1) = s := by
    simp only [State.settleN, hclose, hdue]
  rw [State.settle, hround]
  unfold State.settleBaud
  dsimp only
  split <;> rfl

/-! ### A watched end of a session (R292) -/

/-- A session of a reader on port A. -/
def idleSession : Session := ⟨7, .reader, false, .a, 0, 0, 0, 0, none, false, ([], [])⟩

/-- The part is in Banked, with that session open and source 8 in its watch set. -/
def bankedWatching : State :=
  { State.reset with
    dev := { State.reset.dev with st := .banked, coresAsleep := true }
    eff := [((Reg.watch 0).addr, 8)]
    scr := { State.reset.scr with sessions := [idleSession] } }

theorem bankedWatching_wakes : (bankedWatching.endSession 7 1).settle.dev.st = .run := by decide +kernel

/-- Refutes O33: where source 8 is in the watch set, the SESSION_END of a session that times out in Banked returns the part to RUN, so that
the device's own state is not as it was. -/
theorem not_sessionEventsComplete : ¬ Obligations.SessionEventsComplete := by
  intro h
  obtain ⟨-, -, -, -, hidle, -⟩ := h
  obtain ⟨t, ht, hsessions, -, -, -, -, -, -, -, -, -, -, -, hdev⟩ := hidle 7 idleSession bankedWatching rfl
  have hmodel : (bankedWatching.endSession 7 1).settle = t.settle := Host.Outcome.next.inj ht
  have hnone : t.scr.sessions = [] := hsessions
  have hbanked : t.settle.dev = bankedWatching.dev :=
    (settle_dev_of_nothingDue (by simp [hnone]) (by rw [hdev]; rfl)).trans hdev
  have hwoken := bankedWatching_wakes
  rw [hmodel, hbanked] at hwoken
  exact absurd hwoken (by decide)

end Sys2Proof.Scope
end

section
/-!
SUPPORT. What the settlement of an admission leaves of Scribe's side: the queues, the tags, the sessions and the base priorities of the
targets (R183, R190, R192, R245, R247, R286).
-/
namespace Sys2Proof.Scope

open Sys2Proof.Machine Sys2Proof.Laws

/-- Scribe but for the challenge in hand, and the base priorities of the targets. -/
def scribeSide (s : State) : Scribe × (Fin 6 → Nat) := ({ s.scr with challenge := none }, fun t => s.intc.targets[t].base)

theorem kept_of_scribeSide {s t : State} (h : scribeSide t = scribeSide s) : t.scr.queues = s.scr.queues ∧
    t.scr.tags = s.scr.tags ∧ t.scr.sessions = s.scr.sessions ∧ ∀ i : Fin 6, t.intc.targets[i].base = s.intc.targets[i].base := by
  obtain ⟨hscr, hbases⟩ := Prod.ext_iff.mp h
  have hparts := Scribe.mk.inj hscr
  simp only at hparts
  obtain ⟨-, hsessions, hqueues, htags, -⟩ := hparts
  exact ⟨hqueues, htags, hsessions, congrFun hbases⟩

/-! ### Interrupts and events (R284, R288, R292) -/

/-- A delivery raises the running priority of its target, not the base. -/
theorem deliver_scribeSide (n : Fin 192) (t : Fin 6) (s : State) : scribeSide (s.deliver n t) = scribeSide s := by
  refine Prod.ext rfl (funext fun q => ?_)
  by_cases h : q = t
  · subst h
    exact (congrArg Target.base (upd_same s.intc.targets q _)).trans rfl
  · exact congrArg Target.base (upd_other s.intc.targets t q _ h)

theorem routeN_scribeSide (k : Nat) (s : State) : scribeSide (s.routeN k) = scribeSide s := by
  induction k generalizing s with
  | zero => rfl
  | succ k ih =>
    unfold State.routeN
    split
    · rfl
    · exact (ih _).trans (deliver_scribeSide _ _ s)

theorem route_scribeSide (s : State) : scribeSide s.route = scribeSide s := routeN_scribeSide 96 s

theorem latch_scribeSide (n : Nat) (s : State) : scribeSide (s.latch n) = scribeSide s := by
  unfold State.latch
  split <;> rfl

theorem unbank_scribeSide (s : State) : scribeSide s.unbank = scribeSide s := by
  unfold State.unbank
  split
  · exact latch_scribeSide 65 _
  · rfl

theorem wake_scribeSide (s : State) : scribeSide s.wake = scribeSide s := by
  unfold State.wake
  split
  · exact (route_scribeSide _).trans (unbank_scribeSide s)
  · rfl

theorem woken_scribeSide (op : Nat) (s : State) : scribeSide (s.woken op) = scribeSide s := by
  unfold State.woken
  split
  · exact wake_scribeSide s
  · rfl

theorem wakeFor_scribeSide (l : List Nat) (s : State) : scribeSide (s.wakeFor l) = scribeSide s := by
  unfold State.wakeFor
  split
  · exact unbank_scribeSide s
  · rfl

theorem pendInt_scribeSide (n : Nat) (s : State) : scribeSide (s.pendInt n) = scribeSide s :=
  calc
    scribeSide (s.pendInt n) = scribeSide ((s.latch n).wakeFor [n]) := route_scribeSide _
    _ = scribeSide (s.latch n) := wakeFor_scribeSide _ _
    _ = scribeSide s := latch_scribeSide n s

theorem enter_scribeSide (e : Event) (s : State) : scribeSide (s.enter e) = scribeSide s := by
  unfold State.enter
  dsimp only
  repeat' split
  · exact pendInt_scribeSide 17 _
  · rfl
  · exact pendInt_scribeSide 18 _

theorem raise_scribeSide (e : Ev) (u : Subject) (d : List Byte) (s : State) : scribeSide (s.raise e u d) = scribeSide s := by
  unfold State.raise State.raiseWith State.raiseAs
  dsimp only
  have hentered (x : Event) : scribeSide (if s.dev.startup.restored then s.enter x
      else { s with ev := { s.ev with held := s.ev.held ++ [x] } }) = scribeSide s := by
    split
    · exact enter_scribeSide x s
    · rfl
  split
  · rw [if_pos rfl]
    exact (pendInt_scribeSide _ _).trans (hentered _)
  · exact hentered _

/-! ### Display requests in the closeout (R247, R376) -/

theorem pnlDone_scribeSide (g : Fin 8) (q : PnlReq) (st : Status) (s : State) : scribeSide (s.pnlDone g q st) = scribeSide s :=
  pnlDone_keeps scribeSide (fun d s => raise_scribeSide .pnlDone .device d s) g q st s

theorem onRegion_scribeSide (g : Fin 8) (f : Region → Region) (s : State) : scribeSide (s.onRegion g f) = scribeSide s := rfl

theorem steer_scribeSide (s : State) : scribeSide s.steer = scribeSide s := rfl

theorem slotReq_scribeSide (g : Fin 8) (q : PnlReq) (s : State) : scribeSide (s.slotReq g q) = scribeSide s := by
  unfold State.slotReq
  dsimp only
  split
  · exact pnlDone_scribeSide g _ .superseded s
  · rfl

theorem placeReq_scribeSide (g : Fin 8) (q : PnlReq) (s : State) : scribeSide (s.placeReq g q) = scribeSide s := by
  have hslot := slotReq_scribeSide g q s
  unfold State.placeReq
  rw [steer_scribeSide]
  split
  · split
    · exact onRegion_scribeSide g _ s
    · split
      · exact (onRegion_scribeSide g _ _).trans hslot
      · exact hslot
  · exact (onRegion_scribeSide g _ _).trans hslot

theorem supersede_scribeSide (g : Fin 8) (q : PnlReq) (s : State) : scribeSide (s.supersede g q) = scribeSide s :=
  pnlDone_scribeSide g q .superseded _

theorem panelUpdate_scribeSide (region transition : Nat) (urgent : Bool) (s : State) :
    scribeSide (s.panelUpdate region transition urgent).1 = scribeSide s := by
  unfold State.panelUpdate
  split
  · rfl
  · dsimp only
    split
    · exact supersede_scribeSide _ _ _
    · exact placeReq_scribeSide _ _ _

/-! ### Leases and cuts (R183, R188, R189) -/

theorem lease_scribeSide (session : Fin 1024) (sel : Selector) (duration : Nat) (s : State) :
    scribeSide (s.lease session sel duration).1 = scribeSide s := by
  have hgrant (f : Folio) (d : Nat) : scribeSide (s.grant session f d).1 = scribeSide s := by
    unfold State.grant
    dsimp only
    split <;> rfl
  unfold State.lease
  split
  · rfl
  · rfl
  · split
    · exact hgrant _ _
    · rfl
    · rfl

theorem renew_scribeSide (session : Fin 1024) (lease duration : Nat) (s : State) :
    scribeSide (s.renew session lease duration).1 = scribeSide s := by
  unfold State.renew
  split <;> rfl

theorem release_scribeSide (session : Fin 1024) (lease : Nat) (s : State) :
    scribeSide (s.release session lease).1 = scribeSide s := by
  unfold State.release
  split <;> rfl

theorem demandCut_scribeSide (s : State) : scribeSide s.demandCut.1 = scribeSide s := by
  unfold State.demandCut
  split <;> rfl

/-- What a command settles as it is admitted touches neither queues, tags and sessions nor a base priority. -/
theorem judgeAdmitted_scribeSide (c : Instr) (s : State) : scribeSide (s.judgeAdmitted c).1 = scribeSide s := by
  cases c with
  | folioLease r sel duration => exact lease_scribeSide r.session sel duration s
  | folioRenew r lease duration => exact renew_scribeSide r.session lease duration s
  | folioRelease r lease => exact release_scribeSide r.session lease s
  | folioCut r => exact demandCut_scribeSide s
  | grdClearConfirm r mask value =>
    unfold State.judgeAdmitted
    dsimp only
    split <;> rfl
  | pnlUpdate r region transition urgent =>
    unfold State.judgeAdmitted
    dsimp only
    split
    · exact panelUpdate_scribeSide region transition urgent s
    · rfl
  | _ => rfl

end Sys2Proof.Scope
end

section
/-!
SUPPORT. What an admissible frame does, of an open session and of an open: its command joins its queue with its tag, and what it settles
is settled (R183, R190, R192, R197, R199, R200, R206, R213, R214, R216, R286).
-/
namespace Sys2Proof.Scope

open Sys2Proof.Machine Sys2Proof.Laws

/-! ### A state with another front -/

/-- A state with another Scribe and another interrupt controller: what a frame has changed before its command is admitted. -/
def withFront (scr : Scribe) (i : Intc) (s : State) : State := { s with scr := scr, intc := i }

theorem withFront_withFront (scr scr' : Scribe) (i i' : Intc) (s : State) :
    withFront scr i (withFront scr' i' s) = withFront scr i s := rfl

/-- Routing touches the interrupt controller alone (R287). -/
theorem route_eq (s : State) : s.route = withFront s.scr s.route.intc s := by
  have hrounds (k : Nat) (s : State) : s.routeN k = withFront s.scr (s.routeN k).intc s := by
    induction k generalizing s with
    | zero => rfl
    | succ k ih =>
      unfold State.routeN
      split
      · rfl
      · exact ih _
  exact hrounds 96 s

theorem onWire_eq (p : Port) (bytes : List Byte) (s : State) :
    ∃ ports, s.onWire p bytes = withFront { s.scr with ports := ports } s.intc s := by
  cases p with
  | c => exact ⟨s.scr.ports, rfl⟩
  | a | b => exact ⟨_, rfl⟩

theorem onSession_session?_same {id : Fin 1024} {x : Session} {f : Session → Session} {s : State} (hf : ∀ x, (f x).id = x.id)
    (h : s.session? id = some x) : (s.onSession id f).session? id = some (f x) := by
  have hkey (x : Session) : (if x.id = id then f x else x).id = x.id := by split <;> simp [hf]
  have hid : x.id = id := by simpa using List.find?_some h
  rw [session?_eq_find?] at h
  rw [session?_eq_find?, State.onSession, List.find?_map]
  simp only [Function.comp_def, hkey, h, Option.map_some, hid, if_true]

/-! ### The state in which a frame of a session is admitted (R199, R200, R286) -/

/-- A frame of the session has been authenticated (R212). -/
def heard (x : Session) : Session := { x with authFail := 0 }

/-- The session has counted a frame (R200). -/
def sequenced (n : Nat) (x : Session) : Session := { x with hostSeq := n }

/-- A PRIO is the base priority of the port's target (R286). -/
def prioritised (p : Port) (prio : Nat) (i : Intc) : Intc :=
  { i with targets := upd i.targets ⟨2 + (portIdx p).val, by omega⟩ fun g => { g with base := prio } }

/-- Scribe once the session has counted a frame. -/
def sequencedScribe (h : Header) (id : Fin 1024) (s : State) : Scribe :=
  ((s.onSession id heard).onSession id (sequenced h.seq)).scr

/-- The session has counted the frame, and what its PRIO lets through is routed. -/
def counted (p : Port) (h : Header) (id : Fin 1024) (s : State) : State :=
  (withFront (sequencedScribe h id s) (prioritised p h.prio s.intc) s).route

theorem counted_eq (p : Port) (h : Header) (id : Fin 1024) (s : State) : ∃ sessions i,
    counted p h id s = withFront { s.scr with sessions := sessions } i s :=
  ⟨(sequencedScribe h id s).sessions, _, (route_eq _).trans (withFront_withFront ..)⟩

theorem counted_session? {p : Port} {h : Header} {id : Fin 1024} {x : Session} {s : State} (hx : s.session? id = some x) :
    (counted p h id s).session? id = some { x with authFail := 0, hostSeq := h.seq } := by
  have hheard := onSession_session?_same (f := heard) (fun _ => rfl) hx
  have hsequenced := onSession_session?_same (f := sequenced h.seq) (fun _ => rfl) hheard
  exact (session?_congr (congrArg Scribe.sessions (route_scr _)) id).trans hsequenced

theorem counted_base (p : Port) (h : Header) (id : Fin 1024) (s : State) :
    (counted p h id s).intc.targets[2 + (portIdx p).val].base = h.prio := by
  obtain ⟨-, -, -, hbases⟩ :=
    kept_of_scribeSide (route_scribeSide (withFront (sequencedScribe h id s) (prioritised p h.prio s.intc) s))
  exact (hbases ⟨2 + (portIdx p).val, by omega⟩).trans (congrArg Target.base (upd_same s.intc.targets _ _))

/-! ### The judgement of a frame (R213) -/

theorem execFrameReceive_judged {p : Port} {bytes bs : List Byte} {s : State} (hs : s.serving = true)
    (hbs : frameIn p bytes = some bs) : exec (.frameReceive p bytes []) s = .next ((s.onWire p bytes).judgeFrame p bs) := by
  simp only [exec, execFrameReceive, hs, if_true, List.filter_nil, chain, List.foldl_nil, State.frameReceive, Bool.not_true,
    Bool.false_eq_true, if_false]
  cases p with
  | c =>
    have hcobs : cobs bytes = some bs := hbs
    rw [hcobs]
    rfl
  | a | b =>
    obtain rfl : bytes = bs := Option.some.inj hbs
    rfl

theorem judgeFrame_session {p : Port} {bs : List Byte} {x : Session} {s : State}
    (hsound : frameFault (isSpi p) bs (headerOf bs) = none) (hhello : (headerOf bs).isHello = false)
    (hx : s.session? (headerOf bs).sid = some x) (hport : x.port = p) :
    s.judgeFrame p bs = s.judgeSession p (headerOf bs) x bs := by
  unfold State.judgeFrame
  dsimp only
  split
  · next hfault => exact absurd (hsound.symm.trans hfault) (by simp)
  · simp only [hhello, hx, hport, Bool.false_eq_true, if_false, if_true]

theorem judgeFrame_hello {p : Port} {bs : List Byte} {s : State}
    (hsound : frameFault (isSpi p) bs (headerOf bs) = none) (hhello : (headerOf bs).isHello = true)
    (hopen : (headerOf bs).opcode = 2) (hserves : s.queueServes (headerOf bs).qid p = true)
    (hbit : bit (s.live (.queCfg (headerOf bs).qid)) 30 = true) :
    s.judgeFrame p bs = s.judgeOpcode p (headerOf bs) none ((bs.drop 16).take (headerOf bs).length) := by
  unfold State.judgeFrame
  dsimp only
  split
  · next hfault => exact absurd (hsound.symm.trans hfault) (by simp)
  · simp only [hhello, hopen, hserves, hbit, decide_true, Bool.and_self, if_true]

theorem judgeSession_opened {p : Port} {h : Header} {x : Session} {bs payload : List Byte} {s : State} (hsec : h.isSec = x.secured)
    (hwhole : x.corrupt = false) (hopened : x.opened h bs = some payload) :
    s.judgeSession p h x bs = s.judgeSequence p h x payload := by
  simp [State.judgeSession, hsec, hwhole, hopened]

theorem judgeOpcode_admits {p : Port} {h : Header} {role : Option Role} {payload : List Byte} {s : State}
    (hrow : (opRow? h.opcode).isSome = true) (hrole : ∀ x, role = some x → permitted h.opcode x = true)
    (hroom : s.roomFault h = none) : s.judgeOpcode p h role payload = s.admitFrame p h (role.getD .reader) payload := by
  have hpermitted : (role.map fun x => !permitted h.opcode x).getD false = false := by
    cases role with
    | none => rfl
    | some x => simp [hrole x rfl]
  simp only [State.judgeOpcode, Option.isNone_eq_false_iff.mpr hrow, hpermitted, hroom, Bool.false_eq_true, if_false]

/-- A frame whose SEQ is above the session's counter is counted, and judged by its queue and opcode (R200, R222). -/
theorem judgeSequence_counted {p : Port} {h : Header} {x : Session} (payload : List Byte) {s : State} (hseq : x.hostSeq < h.seq) :
    s.judgeSequence p h x payload =
      let u := counted p h x.id s
      if !x.qmask.getLsbD h.queue || !u.queueServes h.qid p || !u.queueAdmits h.qid x.role then
        u.reject p (h.rejection .queueDenied)
      else u.judgeOpcode p h (some x.role) payload :=
  if_neg (not_le.mpr hseq)

theorem judgeSequence_admits {p : Port} {h : Header} {x : Session} {payload : List Byte} {s : State} (hseq : x.hostSeq < h.seq)
    (hmask : x.qmask.getLsbD h.queue = true) (hserves : s.queueServes h.qid p = true) (hadmits : s.queueAdmits h.qid x.role = true)
    (hrow : (opRow? h.opcode).isSome = true) (hpermitted : permitted h.opcode x.role = true) (hroom : s.roomFault h = none) :
    s.judgeSequence p h x payload = (counted p h x.id s).admitFrame p h x.role payload := by
  obtain ⟨sessions, i, hcounted⟩ := counted_eq p h x.id s
  have hqueue : ¬ (!x.qmask.getLsbD h.queue || !(counted p h x.id s).queueServes h.qid p ||
      !(counted p h x.id s).queueAdmits h.qid x.role) = true := by
    have hserves' : (counted p h x.id s).queueServes h.qid p = true := hcounted ▸ hserves
    have hadmits' : (counted p h x.id s).queueAdmits h.qid x.role = true := hcounted ▸ hadmits
    simp [hmask, hserves', hadmits']
  rw [judgeSequence_counted payload hseq]
  exact (if_neg hqueue).trans
    (judgeOpcode_admits hrow (fun y hy => Option.some.inj hy ▸ hpermitted) (hcounted ▸ hroom))

/-! ### The admission (R189, R192, R214, R216) -/

/-- The request of a frame. -/
def requestIn (p : Port) (h : Header) (role : Role) : Req := ⟨p, h.sid, role, h.qid, h.tid, BitVec.ofNat 32 h.seq, h.isSec⟩

/-- What the command of a request settles as it is admitted. -/
def settlement (r : Req) (op : Nat) (payload : List Byte) (s : State) : State × Option Verdict :=
  match requestOf r op payload with
  | some c => s.judgeAdmitted c
  | none => (s, none)

theorem settlement_scribeSide (r : Req) (op : Nat) (payload : List Byte) (s : State) :
    scribeSide (settlement r op payload s).1 = scribeSide s := by
  unfold settlement
  split
  · exact judgeAdmitted_scribeSide _ s
  · rfl

/-- A FOLIO_READ names its folio (R192). -/
theorem settlement_folioRead {r : Req} {op : Nat} {payload : List Byte} {sel : Selector} {offset length : Nat} (s : State)
    (h : requestOf r op payload = some (.folioRead r sel offset length [])) :
    (settlement r op payload s).2 = some (.named (s.named r.session sel)) := by
  rw [settlement, h]
  rfl

/-- The entry of an admitted frame. -/
def entryOf (p : Port) (h : Header) (payload : List Byte) (order : Nat) (v : Option Verdict) : Entry :=
  ⟨h.sid, h.isHello, p, h.tid, h.opcode, payload, order, false, v⟩

/-- An entry stands last in its queue. -/
def queued (e : Entry) (q : Que) : Que := { q with entries := q.entries ++ [e] }

/-- The entry and the tag of a frame stand, at an instant, and its opcode has not woken the part yet. -/
def entered (h : Header) (e : Entry) (now : Nat) (s : State) : State :=
  let s1 := s.onQue h.qid (queued e)
  { s1 with scr :=
    { s1.scr with
      tags := s1.scr.tags ++ [⟨h.sid, h.tid, h.isHello, h.qid, false⟩]
      admitted := s1.scr.admitted + 1
      challenge := if h.opcode = 0x0801 then none else s1.scr.challenge
      inkLock := s1.scr.inkLock.map fun l => if l.1 = h.sid && needsLock h.opcode then (l.1, l.2.1, now) else l } }

theorem admitFrame_eq (p : Port) (h : Header) (role : Role) (payload : List Byte) (s : State) :
    let x := settlement (requestIn p h role) h.opcode payload s
    s.admitFrame p h role payload = (entered h (entryOf p h payload s.scr.admitted x.2) s.now x.1).woken h.opcode :=
  rfl

/-- An admission adds one entry and one tag, and leaves the other queues, the sessions and the base priorities. -/
theorem admitFrame_enters (p : Port) (h : Header) (role : Role) (payload : List Byte) (s : State) :
    let t := s.admitFrame p h role payload
    let v := (settlement (requestIn p h role) h.opcode payload s).2
    t.scr.queues[h.qid].entries = s.scr.queues[h.qid].entries ++ [entryOf p h payload s.scr.admitted v] ∧
    (∀ q : Fin 32, q ≠ h.qid → t.scr.queues[q] = s.scr.queues[q]) ∧
    t.scr.tags = s.scr.tags ++ [⟨h.sid, h.tid, h.isHello, h.qid, false⟩] ∧ t.scr.sessions = s.scr.sessions ∧
    ∀ i : Fin 6, t.intc.targets[i].base = s.intc.targets[i].base := by
  intro t v
  let u := entered h (entryOf p h payload s.scr.admitted v) s.now (settlement (requestIn p h role) h.opcode payload s).1
  obtain ⟨hqueues, htags, hsessions, hbases⟩ := kept_of_scribeSide (settlement_scribeSide (requestIn p h role) h.opcode payload s)
  have hwoken : scribeSide t = scribeSide u :=
    (congrArg scribeSide (admitFrame_eq p h role payload s)).trans (woken_scribeSide h.opcode u)
  obtain ⟨hqueues', htags', hsessions', hbases'⟩ := kept_of_scribeSide hwoken
  have hentered : t.scr.queues = upd s.scr.queues h.qid (queued (entryOf p h payload s.scr.admitted v)) :=
    hqueues'.trans (congrArg (upd · h.qid _) hqueues)
  refine ⟨?_, fun q hq => ?_, ?_, ?_, fun i => ?_⟩
  · rw [hentered, upd_same]
    rfl
  · rw [hentered, upd_other _ _ _ _ hq]
  · exact htags'.trans (congrArg (· ++ _) htags)
  · exact hsessions'.trans hsessions
  · exact (hbases' i).trans (hbases i)

/-- Settles O53: a frame that passes every check reaches its admission with Scribe's queues and tags as they were, and the admission adds
its entry and its tag. -/
theorem framesAreAdmitted : Obligations.FramesAreAdmitted := by
  unfold Obligations.FramesAreAdmitted
  refine ⟨?_, ?_⟩
  · intro p bytes bs payload x s hbs h hserving hsound hhello hx hport hsec hwhole hopened hseq hmask hserves hadmits hrow
      hpermitted hroom r
    obtain ⟨ports, hwire⟩ := onWire_eq p bytes s
    have hwx : (s.onWire p bytes).session? h.sid = some x := hwire ▸ hx
    have hid : x.id = h.sid := by simpa using List.find?_some hx
    have hexec := execFrameReceive_judged hserving hbs
    rw [judgeFrame_session hsound hhello hwx hport, judgeSession_opened hsec hwhole hopened,
      judgeSequence_admits hseq hmask (hwire ▸ hserves) (hwire ▸ hadmits) hrow hpermitted (hwire ▸ hroom), hid] at hexec
    let u := counted p h h.sid (s.onWire p bytes)
    obtain ⟨sessions, i, hcounted⟩ := counted_eq p h h.sid (s.onWire p bytes)
    have hu : u = withFront { s.scr with ports := ports, sessions := sessions } i s :=
      hcounted.trans (by rw [hwire]; rfl)
    have hqueues : u.scr.queues = s.scr.queues := by rw [hu]; rfl
    have htags : u.scr.tags = s.scr.tags := by rw [hu]; rfl
    have horder : u.scr.admitted = s.scr.admitted := by rw [hu]; rfl
    have hnamed (sel : Selector) : u.named h.sid sel = s.named h.sid sel := by rw [hu]; rfl
    obtain ⟨hentry, hothers, htag, hsessions, hbases⟩ := admitFrame_enters p h x.role payload u
    refine ⟨u.admitFrame p h x.role payload, (settlement r h.opcode payload u).2, hexec, ?_, fun q hq => ?_, ?_, ?_, ?_,
      fun sel offset length hreq => ?_⟩
    · rw [hentry, hqueues, entryOf, horder, hhello]
      rfl
    · rw [hothers q hq, hqueues]
    · rw [htag, htags, hhello]
    · exact (session?_congr hsessions h.sid).trans (counted_session? hwx)
    · exact (hbases ⟨2 + (portIdx p).val, by omega⟩).trans (counted_base p h h.sid _)
    · exact (settlement_folioRead u hreq).trans (congrArg _ (congrArg _ (hnamed sel)))
  · intro p bytes bs s hbs h hserving hsound hhello hopen hserves hbit hroom
    obtain ⟨ports, hwire⟩ := onWire_eq p bytes s
    have hexec := execFrameReceive_judged hserving hbs
    rw [judgeFrame_hello hsound hhello hopen (hwire ▸ hserves) (hwire ▸ hbit),
      judgeOpcode_admits (by rw [hopen]; rfl) (fun _ hrole => absurd hrole (by simp)) (hwire ▸ hroom)] at hexec
    obtain ⟨hentry, hothers, htag, hsessions, -⟩ :=
      admitFrame_enters p h .reader ((bs.drop 16).take h.length) (s.onWire p bytes)
    rw [entryOf, hhello, hopen] at hentry
    rw [hhello] at htag
    refine ⟨_, _, hexec, hentry.trans (by rw [hwire]; rfl), fun q hq => (hothers q hq).trans (by rw [hwire]; rfl),
      htag.trans (by rw [hwire]; rfl), hsessions.trans (by rw [hwire]; rfl)⟩

end Sys2Proof.Scope
end

section
/-!
SUPPORT. One step at a time: what every command answers, and which rows move the calendar's time and the parameter words.
-/
namespace Sys2Proof.Scope

open Sys2Proof.Machine Sys2Proof.Laws

/-- Settles O1: a step takes the command at the front of the queue, by its definition. -/
theorem frontCommandRuns : Obligations.FrontCommandRuns := fun _ _ _ => rfl

/-- Settles O3: an empty queue is a crystal edge, and every row of the table answers a state. -/
theorem everyStepAnswers : Obligations.EveryStepAnswers := by
  intro s
  unfold step
  split
  · exact ⟨_, rfl⟩
  · next c rest _ =>
      obtain ⟨t, ht, -⟩ := exec_pending c { s with pending := rest }
      exact ⟨t, ht⟩

/-! ### The calendar's time (R333, R338, R340) -/

/-- A row outside those that move the calendar's time leaves it. -/
theorem exec_cld_time {c : Instr} (s : State) (h : movesCalendar c = false) :
    ∃ t, exec c s = .next t ∧ t.cld.time = s.cld.time := by
  cases c with
  | cldSet | cldAdjustStep | supplyLossBoth | calSecondBoundary => cases h
  | nop => exact execNop_cld_time ..
  | sessionOpen => exact execSessionOpen_cld_time ..
  | sessionClose => exact execSessionClose_cld_time ..
  | setPriority => exact execSetPriority_cld_time ..
  | folioRead => exact execFolioRead_cld_time ..
  | folioLease => exact execFolioLease_cld_time ..
  | folioRenew => exact execFolioRenew_cld_time ..
  | folioRelease => exact execFolioRelease_cld_time ..
  | folioCut => exact execFolioCut_cld_time ..
  | folioSealGet => exact execFolioSealGet_cld_time ..
  | paramRead => exact execParamRead_cld_time ..
  | paramWrite => exact execParamWrite_cld_time ..
  | scRead => exact execScRead_cld_time ..
  | eventRead => exact execEventRead_cld_time ..
  | eventAck => exact execEventAck_cld_time ..
  | profileRead => exact execProfileRead_cld_time ..
  | profileAck => exact execProfileAck_cld_time ..
  | wbRead => exact execWbRead_cld_time ..
  | capRead => exact execCapRead_cld_time ..
  | capTrigger => exact execCapTrigger_cld_time ..
  | capRelease => exact execCapRelease_cld_time ..
  | logRead => exact execLogRead_cld_time ..
  | demandReset => exact execDemandReset_cld_time ..
  | calCommit => exact execCalCommit_cld_time ..
  | calPendingRead => exact execCalPendingRead_cld_time ..
  | calPendingResolve => exact execCalPendingResolve_cld_time ..
  | pulseTest => exact execPulseTest_cld_time ..
  | blotRead => exact execBlotRead_cld_time ..
  | blotClear => exact execBlotClear_cld_time ..
  | bankEnter => exact execBankEnter_cld_time ..
  | bankExit => exact execBankExit_cld_time ..
  | softReset => exact execSoftReset_cld_time ..
  | auxRead => exact execAuxRead_cld_time ..
  | cfgSave => exact execCfgSave_cld_time ..
  | inkLock => exact execInkLock_cld_time ..
  | inkUnlock => exact execInkUnlock_cld_time ..
  | fwBegin => exact execFwBegin_cld_time ..
  | fwWrite => exact execFwWrite_cld_time ..
  | fwVerify => exact execFwVerify_cld_time ..
  | fwActivate => exact execFwActivate_cld_time ..
  | cldAdjustSlew => exact execCldAdjustSlew_cld_time ..
  | cldAlarmAck => exact execCldAlarmAck_cld_time ..
  | grdClearArm => exact execGrdClearArm_cld_time ..
  | grdClearConfirm => exact execGrdClearConfirm_cld_time ..
  | grdTest => exact execGrdTest_cld_time ..
  | idCertRead => exact execIdCertRead_cld_time ..
  | pnlTableLoad => exact execPnlTableLoad_cld_time ..
  | pnlImageWrite => exact execPnlImageWrite_cld_time ..
  | pnlUpdate => exact execPnlUpdate_cld_time ..
  | forceSpare => exact execForceSpare_cld_time ..
  | restore => exact execRestore_cld_time ..
  | check => exact execCheck_cld_time ..
  | trimModWrite => exact execTrimModWrite_cld_time ..
  | trimVrefWrite => exact execTrimVrefWrite_cld_time ..
  | trimOscWrite => exact execTrimOscWrite_cld_time ..
  | reload => exact execReload_cld_time ..
  | rejoin => exact execRejoin_cld_time ..
  | xreturn => exact execXreturn_cld_time ..
  | eoi => exact execEoi_cld_time ..
  | intTargetDisable => exact execIntTargetDisable_cld_time ..
  | arm => exact execArm_cld_time ..
  | fdis => exact execFdis_cld_time ..
  | recover => exact execRecover_cld_time ..
  | frameReceive => exact execFrameReceive_cld_time ..
  | read => exact execRead_cld_time ..
  | status => exact execStatus_cld_time ..
  | uartReplySent => exact execUartReplySent_cld_time ..
  | portTimeout => exact execPortTimeout_cld_time ..
  | spiPortReset => exact execSpiPortReset_cld_time ..
  | uartFrameStall => exact execUartFrameStall_cld_time ..
  | brk => exact execBrk_cld_time ..
  | replyDropped => exact execReplyDropped_cld_time ..
  | sessionIdleTimeout => exact execSessionIdleTimeout_cld_time ..
  | leaseExpiry => exact execLeaseExpiry_cld_time ..
  | inkLockExpiry => exact execInkLockExpiry_cld_time ..
  | grdChallengeExpiry => exact execGrdChallengeExpiry_cld_time ..
  | combFrame => exact execCombFrame_cld_time ..
  | engFenced => exact execEngFenced_cld_time ..
  | sampleBatch => exact execSampleBatch_cld_time ..
  | metrologyReplay => exact execMetrologyReplay_cld_time ..
  | autoFreezeEnd => exact execAutoFreezeEnd_cld_time ..
  | cycleClose => exact execCycleClose_cld_time ..
  | freerunEntry => exact execFreerunEntry_cld_time ..
  | lsyncEdge => exact execLsyncEdge_cld_time ..
  | lsyncTimeout => exact execLsyncTimeout_cld_time ..
  | blockClose => exact execBlockClose_cld_time ..
  | aggregateClose => exact execAggregateClose_cld_time ..
  | tenMinuteTick => exact execTenMinuteTick_cld_time ..
  | frequencyIntervalClose => exact execFrequencyIntervalClose_cld_time ..
  | demandClose => exact execDemandClose_cld_time ..
  | profileClose => exact execProfileClose_cld_time ..
  | balanceClose => exact execBalanceClose_cld_time ..
  | modulatorHardFault => exact execModulatorHardFault_cld_time ..
  | chSubstituted => exact execChSubstituted_cld_time ..
  | spareMove => exact execSpareMove_cld_time ..
  | driftCheckPhase => exact execDriftCheckPhase_cld_time ..
  | chDriftChecked => exact execChDriftChecked_cld_time ..
  | chRestored => exact execChRestored_cld_time ..
  | suppressionEnd => exact execSuppressionEnd_cld_time ..
  | chClip => exact execChClip_cld_time ..
  | pulseLeadingEdge => exact execPulseLeadingEdge_cld_time ..
  | pulseTrailingEdge => exact execPulseTrailingEdge_cld_time ..
  | wbSetEnd => exact execWbSetEnd_cld_time ..
  | captureFilled => exact execCaptureFilled_cld_time ..
  | captureKeepExpiry => exact execCaptureKeepExpiry_cld_time ..
  | eventLogWrite => exact execEventLogWrite_cld_time ..
  | intTimeout => exact execIntTimeout_cld_time ..
  | auxScan => exact execAuxScan_cld_time ..
  | accScrub => exact execAccScrub_cld_time ..
  | sramScrub => exact execSramScrub_cld_time ..
  | xtalFail => exact execXtalFail_cld_time ..
  | xtalRate => exact execXtalRate_cld_time ..
  | xtalReturn => exact execXtalReturn_cld_time ..
  | powerFail => exact execPowerFail_cld_time ..
  | journalEntry => exact execJournalEntry_cld_time ..
  | tailUpdate => exact execTailUpdate_cld_time ..
  | journalErase ok => exact execJournalErase_cld_time ok s
  | pfSustained => exact execPfSustained_cld_time ..
  | pfRecovered => exact execPfRecovered_cld_time ..
  | brownout => exact execBrownout_cld_time ..
  | por => exact execPor_cld_time ..
  | resetnCold => exact execResetnCold_cld_time ..
  | resetnWarm => exact execResetnWarm_cld_time ..
  | vaonChangeover => exact execVaonChangeover_cld_time ..
  | crystalAccepted => exact execCrystalAccepted_cld_time ..
  | startupReady => exact execStartupReady_cld_time ..
  | configRestore => exact execConfigRestore_cld_time ..
  | cfgRestoreFail => exact execCfgRestoreFail_cld_time ..
  | firstMeteredCycle => exact execFirstMeteredCycle_cld_time ..
  | startupFreerunFallback => exact execStartupFreerunFallback_cld_time ..
  | anvWdog => exact execAnvWdog_cld_time ..
  | fwTrialEnd => exact execFwTrialEnd_cld_time ..
  | calStopped => exact execCalStopped_cld_time ..
  | grdClock => exact execGrdClock_cld_time ..
  | grdSource => exact execGrdSource_cld_time ..
  | panelPairBoundary => exact execPanelPairBoundary_cld_time ..
  | railStep => exact execRailStep_cld_time ..
  | railRead => exact execRailRead_cld_time ..
  | panelFault => exact execPanelFault_cld_time ..
  | folioSealed => exact execFolioSealed_cld_time ..
  | resetnRelease => exact execResetnRelease_cld_time ..
  | journalRestored => exact execJournalRestored_cld_time ..
  | startUpTest => exact execStartUpTest_cld_time ..
  | portsReady => exact execPortsReady_cld_time ..
  | xtalStartTimeout => exact execXtalStartTimeout_cld_time ..
  | slewEnd => exact execSlewEnd_cld_time ..
  | cellScanPeriod => exact execCellScanPeriod_cld_time ..
  | panelFrameBoundary => exact execPanelFrameBoundary_cld_time ..
  | isolatedParityError => exact execIsolatedParityError_cld_time ..

/-- Settles O49: each row outside the calendar's own is one of the operations that leave its time. -/
theorem calendarTimeMovesOnlyByItsRows : Obligations.CalendarTimeMovesOnlyByItsRows := by
  intro c s t hc h
  obtain ⟨u, hu, htime⟩ := exec_cld_time s hc
  cases h.symm.trans hu
  exact htime

/-! ### The parameter words (R206, R233, R397, R402) -/

/-- A BREAK that is not long leaves every parameter word (R206). -/
theorem execBrk_short_words (s : State) : ∃ t, execBrk false s = .next t ∧ t.cfg = s.cfg ∧ t.eff = s.eff := by
  refine ⟨_, rfl, ?_⟩
  split
  · exact ⟨rfl, rfl⟩
  · simp

/-- A row outside those that ask for parameter words leaves every word as asked. -/
theorem exec_cfg {c : Instr} (s : State) (h : asksParameters c = false) : ∃ t, exec c s = .next t ∧ t.cfg = s.cfg := by
  cases c with
  | paramWrite | pulseTest | forceSpare | restore | check | trimModWrite | trimVrefWrite | trimOscWrite | reload | rejoin
    | xreturn | eoi | intTargetDisable | arm | fdis | recover | brownout | por | resetnCold | configRestore | cfgRestoreFail
    | journalRestored => cases h
  | brk long =>
    cases long with
    | true => cases h
    | false =>
      obtain ⟨t, ht, hcfg, -⟩ := execBrk_short_words s
      exact ⟨t, ht, hcfg⟩
  | nop => exact execNop_cfg ..
  | sessionOpen => exact execSessionOpen_cfg ..
  | sessionClose => exact execSessionClose_cfg ..
  | setPriority => exact execSetPriority_cfg ..
  | folioRead => exact execFolioRead_cfg ..
  | folioLease => exact execFolioLease_cfg ..
  | folioRenew => exact execFolioRenew_cfg ..
  | folioRelease => exact execFolioRelease_cfg ..
  | folioCut => exact execFolioCut_cfg ..
  | folioSealGet => exact execFolioSealGet_cfg ..
  | paramRead => exact execParamRead_cfg ..
  | scRead => exact execScRead_cfg ..
  | eventRead => exact execEventRead_cfg ..
  | eventAck => exact execEventAck_cfg ..
  | profileRead => exact execProfileRead_cfg ..
  | profileAck => exact execProfileAck_cfg ..
  | wbRead => exact execWbRead_cfg ..
  | capRead => exact execCapRead_cfg ..
  | capTrigger => exact execCapTrigger_cfg ..
  | capRelease => exact execCapRelease_cfg ..
  | logRead => exact execLogRead_cfg ..
  | demandReset => exact execDemandReset_cfg ..
  | calCommit => exact execCalCommit_cfg ..
  | calPendingRead => exact execCalPendingRead_cfg ..
  | calPendingResolve => exact execCalPendingResolve_cfg ..
  | blotRead => exact execBlotRead_cfg ..
  | blotClear => exact execBlotClear_cfg ..
  | bankEnter => exact execBankEnter_cfg ..
  | bankExit => exact execBankExit_cfg ..
  | softReset => exact execSoftReset_cfg ..
  | auxRead => exact execAuxRead_cfg ..
  | cfgSave => exact execCfgSave_cfg ..
  | inkLock => exact execInkLock_cfg ..
  | inkUnlock => exact execInkUnlock_cfg ..
  | fwBegin => exact execFwBegin_cfg ..
  | fwWrite => exact execFwWrite_cfg ..
  | fwVerify => exact execFwVerify_cfg ..
  | fwActivate => exact execFwActivate_cfg ..
  | cldSet => exact execCldSet_cfg ..
  | cldAdjustStep => exact execCldAdjustStep_cfg ..
  | cldAdjustSlew => exact execCldAdjustSlew_cfg ..
  | cldAlarmAck => exact execCldAlarmAck_cfg ..
  | grdClearArm => exact execGrdClearArm_cfg ..
  | grdClearConfirm => exact execGrdClearConfirm_cfg ..
  | grdTest => exact execGrdTest_cfg ..
  | idCertRead => exact execIdCertRead_cfg ..
  | pnlTableLoad => exact execPnlTableLoad_cfg ..
  | pnlImageWrite => exact execPnlImageWrite_cfg ..
  | pnlUpdate => exact execPnlUpdate_cfg ..
  | frameReceive => exact execFrameReceive_cfg ..
  | read => exact execRead_cfg ..
  | status => exact execStatus_cfg ..
  | uartReplySent => exact execUartReplySent_cfg ..
  | portTimeout => exact execPortTimeout_cfg ..
  | spiPortReset => exact execSpiPortReset_cfg ..
  | uartFrameStall => exact execUartFrameStall_cfg ..
  | replyDropped => exact execReplyDropped_cfg ..
  | sessionIdleTimeout => exact execSessionIdleTimeout_cfg ..
  | leaseExpiry => exact execLeaseExpiry_cfg ..
  | inkLockExpiry => exact execInkLockExpiry_cfg ..
  | grdChallengeExpiry => exact execGrdChallengeExpiry_cfg ..
  | combFrame => exact execCombFrame_cfg ..
  | engFenced => exact execEngFenced_cfg ..
  | sampleBatch => exact execSampleBatch_cfg ..
  | metrologyReplay => exact execMetrologyReplay_cfg ..
  | autoFreezeEnd => exact execAutoFreezeEnd_cfg ..
  | cycleClose => exact execCycleClose_cfg ..
  | freerunEntry => exact execFreerunEntry_cfg ..
  | lsyncEdge => exact execLsyncEdge_cfg ..
  | lsyncTimeout => exact execLsyncTimeout_cfg ..
  | blockClose => exact execBlockClose_cfg ..
  | aggregateClose => exact execAggregateClose_cfg ..
  | tenMinuteTick => exact execTenMinuteTick_cfg ..
  | frequencyIntervalClose => exact execFrequencyIntervalClose_cfg ..
  | demandClose => exact execDemandClose_cfg ..
  | profileClose => exact execProfileClose_cfg ..
  | balanceClose => exact execBalanceClose_cfg ..
  | modulatorHardFault => exact execModulatorHardFault_cfg ..
  | chSubstituted => exact execChSubstituted_cfg ..
  | spareMove => exact execSpareMove_cfg ..
  | driftCheckPhase => exact execDriftCheckPhase_cfg ..
  | chDriftChecked => exact execChDriftChecked_cfg ..
  | chRestored => exact execChRestored_cfg ..
  | suppressionEnd => exact execSuppressionEnd_cfg ..
  | chClip => exact execChClip_cfg ..
  | pulseLeadingEdge => exact execPulseLeadingEdge_cfg ..
  | pulseTrailingEdge => exact execPulseTrailingEdge_cfg ..
  | wbSetEnd => exact execWbSetEnd_cfg ..
  | captureFilled => exact execCaptureFilled_cfg ..
  | captureKeepExpiry => exact execCaptureKeepExpiry_cfg ..
  | eventLogWrite => exact execEventLogWrite_cfg ..
  | intTimeout => exact execIntTimeout_cfg ..
  | auxScan => exact execAuxScan_cfg ..
  | accScrub => exact execAccScrub_cfg ..
  | sramScrub => exact execSramScrub_cfg ..
  | xtalFail => exact execXtalFail_cfg ..
  | xtalRate => exact execXtalRate_cfg ..
  | xtalReturn => exact execXtalReturn_cfg ..
  | powerFail => exact execPowerFail_cfg ..
  | journalEntry => exact execJournalEntry_cfg ..
  | tailUpdate => exact execTailUpdate_cfg ..
  | journalErase ok => exact execJournalErase_cfg ok s
  | pfSustained => exact execPfSustained_cfg ..
  | pfRecovered => exact execPfRecovered_cfg ..
  | resetnWarm => exact execResetnWarm_cfg ..
  | vaonChangeover => exact execVaonChangeover_cfg ..
  | supplyLossBoth => exact execSupplyLossBoth_cfg ..
  | crystalAccepted => exact execCrystalAccepted_cfg ..
  | startupReady => exact execStartupReady_cfg ..
  | firstMeteredCycle => exact execFirstMeteredCycle_cfg ..
  | startupFreerunFallback => exact execStartupFreerunFallback_cfg ..
  | anvWdog => exact execAnvWdog_cfg ..
  | fwTrialEnd => exact execFwTrialEnd_cfg ..
  | calSecondBoundary => exact execCalSecondBoundary_cfg ..
  | calStopped => exact execCalStopped_cfg ..
  | grdClock => exact execGrdClock_cfg ..
  | grdSource => exact execGrdSource_cfg ..
  | panelPairBoundary => exact execPanelPairBoundary_cfg ..
  | railStep => exact execRailStep_cfg ..
  | railRead => exact execRailRead_cfg ..
  | panelFault => exact execPanelFault_cfg ..
  | folioSealed => exact execFolioSealed_cfg ..
  | resetnRelease => exact execResetnRelease_cfg ..
  | startUpTest => exact execStartUpTest_cfg ..
  | portsReady => exact execPortsReady_cfg ..
  | xtalStartTimeout => exact execXtalStartTimeout_cfg ..
  | slewEnd => exact execSlewEnd_cfg ..
  | cellScanPeriod => exact execCellScanPeriod_cfg ..
  | panelFrameBoundary => exact execPanelFrameBoundary_cfg ..
  | isolatedParityError => exact execIsolatedParityError_cfg ..

/-- A row outside those that put parameter words in force leaves every word in force. -/
theorem exec_eff {c : Instr} (s : State) (h : enforcesParameters c = false) :
    ∃ t, exec c s = .next t ∧ t.eff = s.eff := by
  cases c with
  | paramWrite | pulseTest | forceSpare | restore | check | trimModWrite | trimVrefWrite | trimOscWrite | reload | rejoin
    | xreturn | eoi | intTargetDisable | arm | fdis | recover | cycleClose | profileClose | brownout | por | resetnCold
    | configRestore | cfgRestoreFail | firstMeteredCycle | startupFreerunFallback | journalRestored => cases h
  | brk long =>
    cases long with
    | true => cases h
    | false =>
      obtain ⟨t, ht, -, heff⟩ := execBrk_short_words s
      exact ⟨t, ht, heff⟩
  | nop => exact execNop_eff ..
  | sessionOpen => exact execSessionOpen_eff ..
  | sessionClose => exact execSessionClose_eff ..
  | setPriority => exact execSetPriority_eff ..
  | folioRead => exact execFolioRead_eff ..
  | folioLease => exact execFolioLease_eff ..
  | folioRenew => exact execFolioRenew_eff ..
  | folioRelease => exact execFolioRelease_eff ..
  | folioCut => exact execFolioCut_eff ..
  | folioSealGet => exact execFolioSealGet_eff ..
  | paramRead => exact execParamRead_eff ..
  | scRead => exact execScRead_eff ..
  | eventRead => exact execEventRead_eff ..
  | eventAck => exact execEventAck_eff ..
  | profileRead => exact execProfileRead_eff ..
  | profileAck => exact execProfileAck_eff ..
  | wbRead => exact execWbRead_eff ..
  | capRead => exact execCapRead_eff ..
  | capTrigger => exact execCapTrigger_eff ..
  | capRelease => exact execCapRelease_eff ..
  | logRead => exact execLogRead_eff ..
  | demandReset => exact execDemandReset_eff ..
  | calCommit => exact execCalCommit_eff ..
  | calPendingRead => exact execCalPendingRead_eff ..
  | calPendingResolve => exact execCalPendingResolve_eff ..
  | blotRead => exact execBlotRead_eff ..
  | blotClear => exact execBlotClear_eff ..
  | bankEnter => exact execBankEnter_eff ..
  | bankExit => exact execBankExit_eff ..
  | softReset => exact execSoftReset_eff ..
  | auxRead => exact execAuxRead_eff ..
  | cfgSave => exact execCfgSave_eff ..
  | inkLock => exact execInkLock_eff ..
  | inkUnlock => exact execInkUnlock_eff ..
  | fwBegin => exact execFwBegin_eff ..
  | fwWrite => exact execFwWrite_eff ..
  | fwVerify => exact execFwVerify_eff ..
  | fwActivate => exact execFwActivate_eff ..
  | cldSet => exact execCldSet_eff ..
  | cldAdjustStep => exact execCldAdjustStep_eff ..
  | cldAdjustSlew => exact execCldAdjustSlew_eff ..
  | cldAlarmAck => exact execCldAlarmAck_eff ..
  | grdClearArm => exact execGrdClearArm_eff ..
  | grdClearConfirm => exact execGrdClearConfirm_eff ..
  | grdTest => exact execGrdTest_eff ..
  | idCertRead => exact execIdCertRead_eff ..
  | pnlTableLoad => exact execPnlTableLoad_eff ..
  | pnlImageWrite => exact execPnlImageWrite_eff ..
  | pnlUpdate => exact execPnlUpdate_eff ..
  | frameReceive => exact execFrameReceive_eff ..
  | read => exact execRead_eff ..
  | status => exact execStatus_eff ..
  | uartReplySent => exact execUartReplySent_eff ..
  | portTimeout => exact execPortTimeout_eff ..
  | spiPortReset => exact execSpiPortReset_eff ..
  | uartFrameStall => exact execUartFrameStall_eff ..
  | replyDropped => exact execReplyDropped_eff ..
  | sessionIdleTimeout => exact execSessionIdleTimeout_eff ..
  | leaseExpiry => exact execLeaseExpiry_eff ..
  | inkLockExpiry => exact execInkLockExpiry_eff ..
  | grdChallengeExpiry => exact execGrdChallengeExpiry_eff ..
  | combFrame => exact execCombFrame_eff ..
  | engFenced => exact execEngFenced_eff ..
  | sampleBatch => exact execSampleBatch_eff ..
  | metrologyReplay => exact execMetrologyReplay_eff ..
  | autoFreezeEnd => exact execAutoFreezeEnd_eff ..
  | freerunEntry => exact execFreerunEntry_eff ..
  | lsyncEdge => exact execLsyncEdge_eff ..
  | lsyncTimeout => exact execLsyncTimeout_eff ..
  | blockClose => exact execBlockClose_eff ..
  | aggregateClose => exact execAggregateClose_eff ..
  | tenMinuteTick => exact execTenMinuteTick_eff ..
  | frequencyIntervalClose => exact execFrequencyIntervalClose_eff ..
  | demandClose => exact execDemandClose_eff ..
  | balanceClose => exact execBalanceClose_eff ..
  | modulatorHardFault => exact execModulatorHardFault_eff ..
  | chSubstituted => exact execChSubstituted_eff ..
  | spareMove => exact execSpareMove_eff ..
  | driftCheckPhase => exact execDriftCheckPhase_eff ..
  | chDriftChecked => exact execChDriftChecked_eff ..
  | chRestored => exact execChRestored_eff ..
  | suppressionEnd => exact execSuppressionEnd_eff ..
  | chClip => exact execChClip_eff ..
  | pulseLeadingEdge => exact execPulseLeadingEdge_eff ..
  | pulseTrailingEdge => exact execPulseTrailingEdge_eff ..
  | wbSetEnd => exact execWbSetEnd_eff ..
  | captureFilled => exact execCaptureFilled_eff ..
  | captureKeepExpiry => exact execCaptureKeepExpiry_eff ..
  | eventLogWrite => exact execEventLogWrite_eff ..
  | intTimeout => exact execIntTimeout_eff ..
  | auxScan => exact execAuxScan_eff ..
  | accScrub => exact execAccScrub_eff ..
  | sramScrub => exact execSramScrub_eff ..
  | xtalFail => exact execXtalFail_eff ..
  | xtalRate => exact execXtalRate_eff ..
  | xtalReturn => exact execXtalReturn_eff ..
  | powerFail => exact execPowerFail_eff ..
  | journalEntry => exact execJournalEntry_eff ..
  | tailUpdate => exact execTailUpdate_eff ..
  | journalErase ok => exact execJournalErase_eff ok s
  | pfSustained => exact execPfSustained_eff ..
  | pfRecovered => exact execPfRecovered_eff ..
  | resetnWarm => exact execResetnWarm_eff ..
  | vaonChangeover => exact execVaonChangeover_eff ..
  | supplyLossBoth => exact execSupplyLossBoth_eff ..
  | crystalAccepted => exact execCrystalAccepted_eff ..
  | startupReady => exact execStartupReady_eff ..
  | anvWdog => exact execAnvWdog_eff ..
  | fwTrialEnd => exact execFwTrialEnd_eff ..
  | calSecondBoundary => exact execCalSecondBoundary_eff ..
  | calStopped => exact execCalStopped_eff ..
  | grdClock => exact execGrdClock_eff ..
  | grdSource => exact execGrdSource_eff ..
  | panelPairBoundary => exact execPanelPairBoundary_eff ..
  | railStep => exact execRailStep_eff ..
  | railRead => exact execRailRead_eff ..
  | panelFault => exact execPanelFault_eff ..
  | folioSealed => exact execFolioSealed_eff ..
  | resetnRelease => exact execResetnRelease_eff ..
  | startUpTest => exact execStartUpTest_eff ..
  | portsReady => exact execPortsReady_eff ..
  | xtalStartTimeout => exact execXtalStartTimeout_eff ..
  | slewEnd => exact execSlewEnd_eff ..
  | cellScanPeriod => exact execCellScanPeriod_eff ..
  | panelFrameBoundary => exact execPanelFrameBoundary_eff ..
  | isolatedParityError => exact execIsolatedParityError_eff ..

/-- Settles O50: each row outside those that ask or enforce is one of the operations that leave the stores. -/
theorem parametersMoveOnlyByTheirRows : Obligations.ParametersMoveOnlyByTheirRows := by
  refine ⟨fun c s t hc h => ?_, fun c s t hc h => ?_⟩
  · obtain ⟨u, hu, hcfg⟩ := exec_cfg s hc
    cases h.symm.trans hu
    exact hcfg
  · obtain ⟨u, hu, heff⟩ := exec_eff s hc
    cases h.symm.trans hu
    exact heff

end Sys2Proof.Scope
end

section
/-!
SUPPORT. The in-service stacks rise through every step (R285, R288).
-/
namespace Sys2Proof.Scope

open Sys2Proof.Machine Sys2Proof.Laws

/-- Every row keeps stacks that rise. -/
theorem exec_rises {s : State} (c : Instr) (h : Rises s.intc) : ∃ t, exec c s = .next t ∧ Rises t.intc := by
  cases c with
  | nop => exact execNop_rises _ _ _ h
  | sessionOpen => exact execSessionOpen_rises _ _ _ h
  | sessionClose => exact execSessionClose_rises _ _ h
  | setPriority => exact execSetPriority_rises _ _ _ h
  | folioRead => exact execFolioRead_rises _ _ _ _ _ _ h
  | folioLease => exact execFolioLease_rises _ _ _ _ h
  | folioRenew => exact execFolioRenew_rises _ _ _ _ h
  | folioRelease => exact execFolioRelease_rises _ _ _ h
  | folioCut => exact execFolioCut_rises _ _ h
  | folioSealGet => exact execFolioSealGet_rises _ _ _ h
  | paramRead => exact execParamRead_rises _ _ _ _ h
  | paramWrite => exact execParamWrite_rises _ _ _ _ h
  | scRead => exact execScRead_rises _ _ _ _ _ h
  | eventRead => exact execEventRead_rises _ _ _ h
  | eventAck => exact execEventAck_rises _ _ _ h
  | profileRead => exact execProfileRead_rises _ _ _ _ h
  | profileAck => exact execProfileAck_rises _ _ _ h
  | wbRead => exact execWbRead_rises _ _ _ _ _ h
  | capRead => exact execCapRead_rises _ _ _ _ _ h
  | capTrigger => exact execCapTrigger_rises _ _ h
  | capRelease => exact execCapRelease_rises _ _ _ h
  | logRead => exact execLogRead_rises _ _ _ _ h
  | demandReset => exact execDemandReset_rises _ _ _ h
  | calCommit => exact execCalCommit_rises _ _ _ h
  | calPendingRead => exact execCalPendingRead_rises _ _ _ _ h
  | calPendingResolve => exact execCalPendingResolve_rises _ _ _ _ h
  | pulseTest => exact execPulseTest_rises _ _ _ _ _ h
  | blotRead => exact execBlotRead_rises _ _ h
  | blotClear => exact execBlotClear_rises _ _ _ h
  | bankEnter => exact execBankEnter_rises _ _ h
  | bankExit => exact execBankExit_rises _ _ h
  | softReset => exact execSoftReset_rises _ _ _ h
  | auxRead => exact execAuxRead_rises _ _ _ _ h
  | cfgSave => exact execCfgSave_rises _ _ h
  | inkLock => exact execInkLock_rises _ _ _ h
  | inkUnlock => exact execInkUnlock_rises _ _ h
  | fwBegin => exact execFwBegin_rises _ _ _ h
  | fwWrite => exact execFwWrite_rises _ _ _ _ h
  | fwVerify => exact execFwVerify_rises _ _ h
  | fwActivate => exact execFwActivate_rises _ _ h
  | cldSet => exact execCldSet_rises _ _ _ h
  | cldAdjustStep => exact execCldAdjustStep_rises _ _ _ _ h
  | cldAdjustSlew => exact execCldAdjustSlew_rises _ _ _ _ h
  | cldAlarmAck => exact execCldAlarmAck_rises _ _ _ h
  | grdClearArm => exact execGrdClearArm_rises _ _ _ h
  | grdClearConfirm => exact execGrdClearConfirm_rises _ _ _ _ h
  | grdTest => exact execGrdTest_rises _ _ _ _ h
  | idCertRead => exact execIdCertRead_rises _ _ _ _ h
  | pnlTableLoad => exact execPnlTableLoad_rises _ _ _ _ _ _ _ h
  | pnlImageWrite => exact execPnlImageWrite_rises _ _ _ _ _ h
  | pnlUpdate => exact execPnlUpdate_rises _ _ _ _ _ h
  | forceSpare => exact execForceSpare_rises _ _ _ h
  | restore => exact execRestore_rises _ _ _ h
  | check => exact execCheck_rises _ _ _ h
  | trimModWrite => exact execTrimModWrite_rises _ _ _ _ h
  | trimVrefWrite => exact execTrimVrefWrite_rises _ _ _ h
  | trimOscWrite => exact execTrimOscWrite_rises _ _ _ h
  | reload => exact execReload_rises _ _ h
  | rejoin => exact execRejoin_rises _ _ _ _ h
  | xreturn => exact execXreturn_rises _ _ h
  | eoi => exact execEoi_rises _ _ _ _ _ h
  | intTargetDisable => exact execIntTargetDisable_rises _ _ _ h
  | arm => exact execArm_rises _ _ h
  | fdis => exact execFdis_rises _ _ _ _ h
  | recover => exact execRecover_rises _ _ _ h
  | frameReceive => exact execFrameReceive_rises _ _ _ _ h
  | read => exact execRead_rises _ _ _ h
  | status => exact execStatus_rises _ _ h
  | uartReplySent => exact execUartReplySent_rises _ h
  | portTimeout => exact execPortTimeout_rises _ _ h
  | spiPortReset => exact execSpiPortReset_rises _ _ h
  | uartFrameStall => exact execUartFrameStall_rises _ h
  | brk => exact execBrk_rises _ _ h
  | replyDropped => exact execReplyDropped_rises _ _ _ h
  | sessionIdleTimeout => exact execSessionIdleTimeout_rises _ _ h
  | leaseExpiry => exact execLeaseExpiry_rises _ _ _ h
  | inkLockExpiry => exact execInkLockExpiry_rises _ h
  | grdChallengeExpiry => exact execGrdChallengeExpiry_rises _ h
  | combFrame => exact execCombFrame_rises _ _ _ _ _ h
  | engFenced => exact execEngFenced_rises _ _ h
  | sampleBatch => exact execSampleBatch_rises _ _ _ h
  | metrologyReplay => exact execMetrologyReplay_rises _ _ _ _ h
  | autoFreezeEnd => exact execAutoFreezeEnd_rises _ _ h
  | cycleClose => exact execCycleClose_rises _ _ h
  | freerunEntry => exact execFreerunEntry_rises _ h
  | lsyncEdge => exact execLsyncEdge_rises _ _ _ h
  | lsyncTimeout => exact execLsyncTimeout_rises _ h
  | blockClose => exact execBlockClose_rises _ h
  | aggregateClose => exact execAggregateClose_rises _ h
  | tenMinuteTick => exact execTenMinuteTick_rises _ h
  | frequencyIntervalClose => exact execFrequencyIntervalClose_rises _ h
  | demandClose => exact execDemandClose_rises _ _ h
  | profileClose => exact execProfileClose_rises _ h
  | balanceClose => exact execBalanceClose_rises _ _ h
  | modulatorHardFault => exact execModulatorHardFault_rises _ _ _ h
  | chSubstituted => exact execChSubstituted_rises _ _ h
  | spareMove => exact execSpareMove_rises _ _ _ h
  | driftCheckPhase => exact execDriftCheckPhase_rises _ _ _ h
  | chDriftChecked => exact execChDriftChecked_rises _ _ h
  | chRestored => exact execChRestored_rises _ _ _ _ h
  | suppressionEnd => exact execSuppressionEnd_rises _ _ h
  | chClip => exact execChClip_rises _ _ h
  | pulseLeadingEdge => exact execPulseLeadingEdge_rises _ _ h
  | pulseTrailingEdge => exact execPulseTrailingEdge_rises _ _ h
  | wbSetEnd => exact execWbSetEnd_rises _ h
  | captureFilled => exact execCaptureFilled_rises _ _ h
  | captureKeepExpiry => exact execCaptureKeepExpiry_rises _ _ h
  | eventLogWrite => exact execEventLogWrite_rises _ _ h
  | intTimeout => exact execIntTimeout_rises _ _ h
  | auxScan => exact execAuxScan_rises _ _ _ h
  | accScrub => exact execAccScrub_rises _ _ h
  | sramScrub => exact execSramScrub_rises _ _ h
  | xtalFail => exact execXtalFail_rises _ h
  | xtalRate => exact execXtalRate_rises _ _ h
  | xtalReturn => exact execXtalReturn_rises _ h
  | powerFail => exact execPowerFail_rises _ _ _ h
  | journalEntry => exact execJournalEntry_rises _ h
  | tailUpdate => exact execTailUpdate_rises _ h
  | journalErase ok => exact execJournalErase_rises ok s h
  | pfSustained => exact execPfSustained_rises _ h
  | pfRecovered => exact execPfRecovered_rises _ h
  | brownout => exact execBrownout_rises _ h
  | por => exact execPor_rises _ _ _ h
  | resetnCold => exact execResetnCold_rises _ h
  | resetnWarm => exact execResetnWarm_rises _ _ _ h
  | vaonChangeover => exact execVaonChangeover_rises _ _ h
  | supplyLossBoth => exact execSupplyLossBoth_rises _ h
  | crystalAccepted => exact execCrystalAccepted_rises _ h
  | startupReady => exact execStartupReady_rises _ h
  | configRestore => exact execConfigRestore_rises _ _ _ h
  | cfgRestoreFail => exact execCfgRestoreFail_rises _ h
  | firstMeteredCycle => exact execFirstMeteredCycle_rises _ h
  | startupFreerunFallback => exact execStartupFreerunFallback_rises _ h
  | anvWdog => exact execAnvWdog_rises _ _ _ h
  | fwTrialEnd => exact execFwTrialEnd_rises _ h
  | calSecondBoundary => exact execCalSecondBoundary_rises _ h
  | calStopped => exact execCalStopped_rises _ h
  | grdClock => exact execGrdClock_rises _ h
  | grdSource => exact execGrdSource_rises _ _ _ h
  | panelPairBoundary => exact execPanelPairBoundary_rises _ h
  | railStep => exact execRailStep_rises _ h
  | railRead => exact execRailRead_rises _ _ h
  | panelFault => exact execPanelFault_rises _ _ h
  | folioSealed => exact execFolioSealed_rises _ _ h
  | resetnRelease => exact execResetnRelease_rises _ _ _ h
  | journalRestored => exact execJournalRestored_rises _ _ h
  | startUpTest => exact execStartUpTest_rises _ _ _ _ h
  | portsReady => exact execPortsReady_rises _ h
  | xtalStartTimeout => exact execXtalStartTimeout_rises _ h
  | slewEnd => exact execSlewEnd_rises _ h
  | cellScanPeriod => exact execCellScanPeriod_rises _ _ _ h
  | panelFrameBoundary => exact execPanelFrameBoundary_rises _ h
  | isolatedParityError => exact execIsolatedParityError_rises _ _ h

/-- Settles O56: a crystal edge and every row of the table keep stacks that rise, and so does each operation on them. -/
theorem routingKeepsStacksRising : Obligations.RoutingKeepsStacksRising := by
  refine ⟨fun s t h hstep => ?_, fun s h => ⟨route_rises s h, fun n => pendInt_rises n s h, fun t src dtag =>
    retire_rises t src dtag s h, fun t => disableTarget_rises t s h, fun t b src dtag => outOfOrder_rises t b src dtag s h,
    fun t => Rises.length_le h t⟩⟩
  unfold step at hstep
  split at hstep
  · cases hstep
    exact crystalEdge_rises s h
  · next c rest _ =>
      obtain ⟨u, hu, hrises⟩ := exec_rises (s := { s with pending := rest }) c h
      cases hstep.symm.trans hu
      exact hrises

end Sys2Proof.Scope
end

section
/-!
SUPPORT. The gate of every host command: what holds it, what ISOLATE closes, and what a refused write leaves (R204, R217, R219, R228,
R233).
-/
namespace Sys2Proof.Scope

open Sys2Proof.Machine Sys2Proof.Laws

/-- Every host command is its own effect behind the gate of its opcode. -/
theorem exec_command {c : Instr} {op : Nat} {r : Req} (s : State) (h : hostOf c = some (op, r)) :
    ∃ body : State → State, exec c s = .next (s.command op r body) := by
  cases c with
  | nop | sessionOpen | sessionClose | setPriority | folioRead | folioLease | folioRenew | folioRelease | folioCut
    | folioSealGet | paramRead | paramWrite | scRead | eventRead | eventAck | profileRead | profileAck | wbRead | capRead
    | capTrigger | capRelease | logRead | demandReset | calCommit | calPendingRead | calPendingResolve | pulseTest | blotRead
    | blotClear | bankEnter | bankExit | softReset | auxRead | cfgSave | inkLock | inkUnlock | fwBegin | fwWrite | fwVerify
    | fwActivate | cldSet | cldAdjustStep | cldAdjustSlew | cldAlarmAck | grdClearArm | grdClearConfirm | grdTest | idCertRead
    | pnlTableLoad | pnlImageWrite | pnlUpdate | forceSpare | restore | check | trimModWrite | trimVrefWrite | trimOscWrite
    | reload | rejoin | xreturn | eoi | intTargetDisable | arm | fdis | recover =>
    cases h
    exact ⟨_, rfl⟩
  | frameReceive | read | status | uartReplySent | portTimeout | spiPortReset | uartFrameStall | brk | replyDropped
    | sessionIdleTimeout | leaseExpiry | inkLockExpiry | grdChallengeExpiry | combFrame | engFenced | sampleBatch
    | metrologyReplay | autoFreezeEnd | cycleClose | freerunEntry | lsyncEdge | lsyncTimeout | blockClose | aggregateClose
    | tenMinuteTick | frequencyIntervalClose | demandClose | profileClose | balanceClose | modulatorHardFault | chSubstituted
    | spareMove | driftCheckPhase | chDriftChecked | chRestored | suppressionEnd | chClip | pulseLeadingEdge
    | pulseTrailingEdge | wbSetEnd | captureFilled | captureKeepExpiry | eventLogWrite | intTimeout | auxScan | accScrub
    | sramScrub | xtalFail | xtalRate | xtalReturn | powerFail | journalEntry | tailUpdate | journalErase | pfSustained
    | pfRecovered | brownout | por | resetnCold | resetnWarm | vaonChangeover | supplyLossBoth | crystalAccepted
    | startupReady | configRestore | cfgRestoreFail | firstMeteredCycle | startupFreerunFallback | anvWdog | fwTrialEnd
    | calSecondBoundary | calStopped | grdClock | grdSource | panelPairBoundary | railStep | railRead | panelFault
    | folioSealed | resetnRelease | journalRestored | startUpTest | portsReady | xtalStartTimeout | slewEnd | cellScanPeriod
    | panelFrameBoundary | isolatedParityError => cases h

/-- Settles O10: the gate holds a command that is not ready. -/
theorem heldCommandsChangeNothing : Obligations.HeldCommandsChangeNothing := by
  intro c op r s hc hheld
  obtain ⟨body, hbody⟩ := exec_command s hc
  rw [hbody, command_held body hheld]

/-- The gate closes what ISOLATE closes, in the state that the command wakes (R19, R228). -/
theorem command_closed {op : Nat} {r : Req} {s : State} (body : State → State) (hready : s.ready op r = true)
    (hrole : permitted op r.role = true) (hclosed : s.closedBy op r.role = true) :
    s.command op r body = (s.woken op).fail op r .isolated := by
  have hw : (if isSlow op && decide (op ≠ 0x0503) then s.wake else s) = s.woken op := rfl
  unfold State.command
  simp only [hready, hrole, hw, woken_closedBy, hclosed, Bool.not_true, Bool.false_eq_true, if_false, if_true]

/-- Settles O12: an act command of an OPERATOR or SERVICE is one that ISOLATE closes. -/
theorem isolateClosesActCommands : Obligations.IsolateClosesActCommands := by
  intro c op r s hc hready hrole hiso hact hwho
  obtain ⟨body, hbody⟩ := exec_command s hc
  have hclosed : s.closedBy op r.role = true := by
    rcases hwho with hr | hr <;> simp [State.closedBy, hiso, hact, hr]
  rw [hbody, command_closed body hready hrole hclosed]

/-- Settles O29: a served write that is refused is its completion. -/
theorem badWriteChangesNothing : Obligations.BadWriteChangesNothing := by
  intro r addr a ws st s hs s0 env hbad
  rw [exec, execParamWrite_served addr ws hs, State.paramWrite, hbad]

/-! ### What a completion adds to its port (R197, R200, R216) -/

/-- Starting the next reply of a port marks at most what goes out on it. -/
theorem start_port (p : Port) (i : Fin 3) (s : State) :
    ∃ x, (s.start p).scr.ports[i] = { s.scr.ports[i] with partly := x } := by
  unfold State.start
  split
  · by_cases hi : i = portIdx .c
    · rw [hi, State.onPort, upd_same]
      exact ⟨_, rfl⟩
    · rw [State.onPort, upd_other _ _ _ _ hi]
      exact ⟨_, rfl⟩
  all_goals exact ⟨_, rfl⟩

/-- Starting the next reply leaves what waits on every port. -/
theorem start_done (p : Port) (i : Fin 3) (s : State) : (s.start p).scr.ports[i].done = s.scr.ports[i].done := by
  obtain ⟨x, hx⟩ := start_port p i s
  rw [hx]

/-- Starting the next reply of a port leaves the others. -/
theorem start_port_other {p : Port} {i : Fin 3} (h : i ≠ portIdx p) (s : State) :
    (s.start p).scr.ports[i] = s.scr.ports[i] := by
  unfold State.start
  split
  · rw [State.onPort, upd_other _ _ _ _ h]
  all_goals rfl

/-- The reply of a session's command (R197). -/
def sessionReply (op : Nat) (r : Req) (st : Status) (payload : List Byte) (s : State) : Reply :=
  ⟨false, r.session.val, r.queue.val, r.tag.val, false, op, st, ((s.session? r.session).map Session.devSeq).getD 0, r.secured,
    payload, ((s.session? r.session).map fun x => x.keys.2).getD []⟩

/-- The completion of a session's command that can be answered (R200): its entry leaves, its reply joins the port, the
session's counter counts up, and the port's source is raised. -/
theorem complete_answered {op : Nat} {r : Req} (st : Status) (payload : List Byte) {s : State}
    (h : s.answerable op r = true) (hello : ((s.entry? op r).map Entry.hello).getD (op = 2) = false) :
    s.complete op r st payload = ((((s.popEntry op r).onPort r.port fun p =>
      { p with done := p.done ++ [sessionReply op r st payload s] }).start r.port).onSession r.session fun x =>
        { x with devSeq := x.devSeq + 1 }).pendInt (portIdx r.port).val := by
  simp only [State.answerable, Bool.and_eq_true, Bool.not_eq_true', decide_eq_true_eq] at h
  obtain ⟨hlive, hseq⟩ := h
  unfold State.complete
  simp only [hlive, hello, Bool.false_eq_true, if_false, if_neg (not_le.mpr hseq), Bool.not_false, Bool.and_true]
  rfl

/-- Settles O9: an answerable completion is its reply on the port, a count of its session, and the port's source raised. -/
theorem completionWaitsOnItsPort : Obligations.CompletionWaitsOnItsPort := by
  intro op r st payload s h hello t
  have ht : t = _ := complete_answered st payload h hello
  refine ⟨⟨sessionReply op r st payload s, ?_, rfl, rfl, rfl, rfl, rfl, rfl, rfl, rfl, rfl⟩, fun p hp => ?_, fun x hx => ?_, ?_⟩
  · rw [ht, pendInt_scr, onSession_scr_ports, start_done, State.onPort, upd_same]
    rfl
  · rw [ht, pendInt_scr, onSession_scr_ports, start_port_other hp, State.onPort, upd_other _ _ _ _ hp]
    rfl
  · refine ⟨{ x with devSeq := x.devSeq + 1 }, ?_, rfl⟩
    have hsame : (((s.popEntry op r).onPort r.port fun p =>
        { p with done := p.done ++ [sessionReply op r st payload s] }).start r.port).session? r.session = some x :=
      (session?_congr (by simp) _).trans hx
    rw [ht, session?_congr (congrArg _ (pendInt_scr _ _))]
    exact onSession_session?_same (fun _ => rfl) hsame
  · simp [ht]

end Sys2Proof.Scope
end

section
/-!
SUPPORT. What the request layouts read of the payloads that spell them: numbers, flags, words, selectors and data (R197, R223, R226,
R230 to R246).
-/
namespace Sys2Proof.Scope

open Sys2Proof.Machine Sys2Proof.Laws

/-! ### Numbers in bytes (R5) -/

@[simp] theorem le_length (k n : Nat) : (le k n).length = k := by
  induction k generalizing n with
  | zero => rfl
  | succ k ih => rw [le, List.length_cons, ih]

@[simp] theorem zeros_length (k : Nat) : (zeros k).length = k := List.length_replicate

/-- The bytes of a number spell what fits them. -/
theorem leNat_le (k n : Nat) : leNat (le k n) = n % 2 ^ (8 * k) := by
  induction k generalizing n with
  | zero => simp [le, leNat, Nat.mod_one]
  | succ k ih =>
    have hpow : 2 ^ (8 * (k + 1)) = 256 * 2 ^ (8 * k) := by rw [Nat.mul_succ, pow_add, mul_comm]; rfl
    rw [le, leNat, ih, BitVec.toNat_ofNat, hpow, Nat.mod_mul]

/-- A number of w bits spells itself in bytes that hold w bits. -/
theorem toNat_fits {w k : Nat} (x : BitVec w) (h : w ≤ 8 * k) : fitsBytes k x.toNat = true :=
  decide_eq_true (x.isLt.trans_le (Nat.pow_le_pow_right (by decide) h))

/-! ### Fields of a layout -/

/-- A field beyond a part of the layout is one of the rest. -/
theorem field_append {a b : List Byte} {off : Nat} (n : Nat) (h : a.length ≤ off) :
    field (a ++ b) off n = field b (off - a.length) n := by
  rw [field, List.drop_append, List.drop_eq_nil_of_le h, List.nil_append, field]

/-- What follows a part of the layout. -/
theorem drop_append {a b : List Byte} {n : Nat} (h : a.length ≤ n) : (a ++ b).drop n = b.drop (n - a.length) := by
  rw [List.drop_append, List.drop_eq_nil_of_le h, List.nil_append]

/-- The field that a number stands in. -/
theorem field_le {k n : Nat} (rest : List Byte) (h : fitsBytes k n = true) : field (le k n ++ rest) 0 k = n := by
  rw [field, List.drop_zero, List.take_left' (le_length k n), leNat_le, Nat.mod_eq_of_lt (of_decide_eq_true h)]

/-- The field that a number stands in at the layout's end. -/
theorem field_le_last {k n : Nat} (h : fitsBytes k n = true) : field (le k n) 0 k = n := by simpa using field_le [] h

/-- The field that a mask stands in. -/
theorem field_toNat {w k : Nat} (x : BitVec w) (rest : List Byte) (h : w ≤ 8 * k) : field (le k x.toNat ++ rest) 0 k = x.toNat :=
  field_le rest (toNat_fits x h)

/-- The field that a mask stands in at the layout's end. -/
theorem field_toNat_last {w k : Nat} (x : BitVec w) (h : w ≤ 8 * k) : field (le k x.toNat) 0 k = x.toNat :=
  field_le_last (toNat_fits x h)

/-- The field that a flag stands in. -/
theorem field_flag (b : Bool) (rest : List Byte) : field (le 1 (flag 0 b) ++ rest) 0 1 = flag 0 b :=
  field_le rest (by cases b <;> decide)

theorem flag_eq_zero (b : Bool) : flag 0 b = 0 ↔ b = false := by cases b <;> decide

theorem flag_odd (b : Bool) : decide (flag 0 b % 2 = 1) = b := by cases b <;> rfl

/-- A signed operand is read back from its bytes (R243). -/
theorem signed_unsigned {x : Int} (h : fitsInt32 x = true) : signed 32 (unsigned 32 x) = x := by
  simp only [fitsInt32, Bool.and_eq_true, decide_eq_true_eq] at h
  unfold signed unsigned
  omega

theorem unsigned_fits (x : Int) : fitsBytes 4 (unsigned 32 x) = true := by
  rw [fitsBytes, decide_eq_true_eq, unsigned]
  omega

/-! ### Words and selectors (R5, R226) -/

/-- The word that stands after a part of a byte string. -/
theorem wordAt_append {a : List Byte} {off : Nat} (w : Word) (rest : List Byte) (h : a.length = off) :
    wordAt (a ++ (le 4 w.toNat ++ rest)) off = w := by
  rw [wordAt, List.drop_left' h, List.take_left' (le_length 4 _), leNat_le, Nat.mod_eq_of_lt w.isLt, word,
    BitVec.ofNat_toNat, BitVec.setWidth_eq]

/-- Words are read back from their bytes. -/
theorem wordsFrom_wordBytes (ws : List Word) {a : List Byte} {off : Nat} (h : a.length = off) :
    wordsFrom (a ++ wordBytes ws) off ws.length = ws := by
  induction ws generalizing a off with
  | nil => rfl
  | cons w ws ih =>
    have hbytes : wordBytes (w :: ws) = le 4 w.toNat ++ wordBytes ws := rfl
    have hrest := ih (a := a ++ le 4 w.toNat) (off := off + 4) (by simp [h])
    rw [wordsFrom, List.length_cons, List.range_succ_eq_map, List.map_cons, List.map_map, hbytes, Nat.mul_zero, Nat.add_zero,
      wordAt_append w _ h]
    refine congrArg _ (Eq.trans (List.map_congr_left fun i _ => ?_) hrest)
    rw [Function.comp_apply, List.append_assoc, Nat.add_assoc, Nat.mul_succ, Nat.add_comm 4]

@[simp] theorem selectorBytes_length (sel : Selector) : (selectorBytes sel).length = 8 := by cases sel <;> rfl

/-- A selector is read back from its eight bytes, whatever follows (R226). -/
theorem selectorOf_selectorBytes {sel : Selector} (rest : List Byte) (h : sel.wf = true) :
    selectorOf (selectorBytes sel ++ rest) = sel := by
  cases sel with
  | latest => rfl
  | number n =>
    exact congrArg Selector.number (field_le rest h)
  | lease id =>
    exact congrArg Selector.lease (field_le (zeros 2 ++ rest) h)
  | badKind k =>
    have hk : 3 ≤ k.toNat := by simpa [Selector.wf] using h
    unfold selectorOf selectorBytes
    split
    case h_4 => rfl
    all_goals simp_all

/-- A selector without operands after it is read back from its bytes. -/
theorem selectorOf_selectorBytes_last {sel : Selector} (h : sel.wf = true) : selectorOf (selectorBytes sel) = sel := by
  simpa using selectorOf_selectorBytes [] h

/-! ### Requests -/

/-- Settles O51: each field of the row's layout is read where its operand was written. -/
theorem payloadSpellsItsRow : Obligations.PayloadSpellsItsRow := by
  intro c op r bs hc hwf hbs
  cases c with
  | nop | sessionOpen | sessionClose | setPriority | folioRead | folioLease | folioRenew | folioRelease | folioCut
    | folioSealGet | paramRead | scRead | eventRead | eventAck | profileRead | profileAck | wbRead | capRead | capTrigger
    | capRelease | logRead | demandReset | calPendingRead | calPendingResolve | blotRead | blotClear | bankEnter | bankExit
    | softReset | auxRead | cfgSave | inkLock | inkUnlock | fwBegin | fwWrite | fwVerify | fwActivate | cldAlarmAck
    | grdClearArm | grdClearConfirm | grdTest | idCertRead | pnlTableLoad | pnlImageWrite | pnlUpdate =>
    cases hc
    cases hbs
    simp only [Instr.wf, Bool.and_eq_true] at hwf
    simp [requestOf, asRequested, field_append, drop_append, field_le, field_le_last, field_toNat, field_toNat_last, field_flag,
      flag_odd, selectorOf_selectorBytes, selectorOf_selectorBytes_last, hwf]
  | paramWrite _ addr words =>
    cases hc
    cases hbs
    simp only [Instr.wf, Bool.and_eq_true, decide_eq_true_eq] at hwf
    obtain ⟨haddr, hcount⟩ := hwf
    have hwords := wordsFrom_wordBytes words (a := le 4 addr ++ le 2 words.length ++ zeros 2) (off := 8) (by simp)
    have hlength : fitsBytes 2 words.length = true := decide_eq_true (by omega)
    simp only [List.append_assoc] at hwords ⊢
    simp [requestOf, asRequested, field_append, field_le, haddr, hlength, hcount, hwords]
  | calCommit _ digest =>
    cases hc
    cases hbs
    have hlength : bs.length = 32 := by simpa [Instr.wf] using hwf
    simp [requestOf, asRequested, List.take_of_length_le hlength.le]
  | pulseTest _ mask ten tconst =>
    cases hc
    cases hbs
    simp [requestOf, asRequested, field_append, field_toNat, field_toNat_last, field_flag, word, flag_eq_zero]
  | cldSet _ x =>
    cases hc
    cases hbs
    have hsub : BitVec.ofNat 16 (field (le 2 x.sub.toNat ++ zeros 2) 0 2) = x.sub := by
      rw [field_toNat x.sub (zeros 2) (by decide), BitVec.ofNat_toNat, BitVec.setWidth_eq]
    exact congrArg (fun sub => some (Instr.cldSet r { x with sub })) hsub
  | cldAdjustStep _ mode amount | cldAdjustSlew _ mode amount =>
    cases hc
    cases hbs
    simp only [Instr.wf, Bool.and_eq_true, decide_eq_true_eq] at hwf
    obtain ⟨hmode, hamount⟩ := hwf
    have hfield : signedField (mode :: zeros 3 ++ le 4 (unsigned 32 amount)) 4 = amount := by
      rw [signedField, field_append 4 (by simp), show 4 - (mode :: zeros 3).length = 0 from rfl, field_le_last (unsigned_fits amount),
        signed_unsigned hamount]
    have hcode : field (mode :: zeros 3 ++ le 4 (unsigned 32 amount)) 0 1 = mode.toNat := rfl
    have hone : (mode.toNat = 1) ↔ mode = 1 := by bv_omega
    simp only [requestOf, hcode, hone, hfield]
    simp only [hmode, if_true, if_false]
    rfl
  | forceSpare | restore | check | trimModWrite | trimVrefWrite | trimOscWrite | reload | rejoin | xreturn | eoi
    | intTargetDisable | arm | fdis | recover => cases hbs
  | frameReceive | read | status | uartReplySent | portTimeout | spiPortReset | uartFrameStall | brk | replyDropped
    | sessionIdleTimeout | leaseExpiry | inkLockExpiry | grdChallengeExpiry | combFrame | engFenced | sampleBatch
    | metrologyReplay | autoFreezeEnd | cycleClose | freerunEntry | lsyncEdge | lsyncTimeout | blockClose | aggregateClose
    | tenMinuteTick | frequencyIntervalClose | demandClose | profileClose | balanceClose | modulatorHardFault | chSubstituted
    | spareMove | driftCheckPhase | chDriftChecked | chRestored | suppressionEnd | chClip | pulseLeadingEdge
    | pulseTrailingEdge | wbSetEnd | captureFilled | captureKeepExpiry | eventLogWrite | intTimeout | auxScan | accScrub
    | sramScrub | xtalFail | xtalRate | xtalReturn | powerFail | journalEntry | tailUpdate | journalErase | pfSustained
    | pfRecovered | brownout | por | resetnCold | resetnWarm | vaonChangeover | supplyLossBoth | crystalAccepted
    | startupReady | configRestore | cfgRestoreFail | firstMeteredCycle | startupFreerunFallback | anvWdog | fwTrialEnd
    | calSecondBoundary | calStopped | grdClock | grdSource | panelPairBoundary | railStep | railRead | panelFault
    | folioSealed | resetnRelease | journalRestored | startUpTest | portsReady | xtalStartTimeout | slewEnd | cellScanPeriod
    | panelFrameBoundary | isolatedParityError => cases hc

end Sys2Proof.Scope
end

section
/-!
SUPPORT. The parameter stores: reset values, a word that is stored, and the addresses of the map (R395, R397, R399, R402).
-/
namespace Sys2Proof.Scope

open Sys2Proof.Machine Sys2Proof.Laws

/-- Settles O6: the stores of the reset state hold no entry. -/
theorem resetStoresCanonical : Obligations.ResetStoresCanonical :=
  ⟨rfl, fun _ => ⟨rfl, rfl⟩⟩

/-- Settles O7: a stored word is one entry put into the store as asked, and into the one in force unless it waits. -/
theorem wordReadsBackAsWritten : Obligations.WordReadsBackAsWritten := by
  intro s r q w
  refine ⟨Regs.at_put .., fun hwaits => ?_, fun hnow => ?_⟩
  · rw [State.live, State.store, hwaits]
    rfl
  · rw [State.live, State.store, hnow]
    exact Regs.at_put ..

/-! ### Addresses (R395, R396) -/

theorem ChWord.offset_word (w : ChWord) : w.offset % 4 = 0 := by cases w <;> rfl
theorem PtWord.offset_word (w : PtWord) : w.offset % 4 = 0 := by cases w <;> rfl
theorem BusWord.offset_word (w : BusWord) : w.offset % 4 = 0 := by cases w <;> rfl
theorem BusWord.offset_lt (w : BusWord) : w.offset < 0x100 := by cases w <;> decide

theorem CalWord.offset_word (x : CalWord) : x.offset % 4 = 0 := by
  cases x with
  | ch k w => cases w <;> simp only [CalWord.offset] <;> omega
  | pt p w => cases w <;> simp only [CalWord.offset] <;> omega

/-- The address of a word is that of a whole word below the end of the map. -/
theorem Reg.addr_word (r : Reg) (h : r ≠ .reserved) : r.addr % 4 = 0 ∧ r.addr < 0xF0000 := by
  cases r with
  | reserved => exact absurd rfl h
  | ch k w =>
    have hw := ChWord.offset_word w
    have hlt := ChWord.offset_lt w
    simp only [Reg.addr]
    omega
  | pt p w =>
    have hw := PtWord.offset_word w
    have hlt := PtWord.offset_lt w
    simp only [Reg.addr]
    omega
  | bus b w =>
    have hw := BusWord.offset_word w
    have hlt := BusWord.offset_lt w
    simp only [Reg.addr]
    omega
  | staged x | live x =>
    have hx := CalWord.offset_word x
    have hlt := CalWord.offset_lt x
    simp only [Reg.addr]
    omega
  | devSerial hi | tbCycle hi | lognum hi | tband hi | tblvalid hi => cases hi <;> simp [Reg.addr]
  | spare g | driftTh g =>
    simp only [Reg.addr]
    split <;> omega
  | alhit a hi => cases hi <;> simp [Reg.addr] <;> omega
  | qdTopo | qdBus | capsel | pulCfg | pulConst | pulTest | pulStatus | queCfg | queStatus | sesKey | sesKeyCtl | intSrc | tgtTop
    | tgtEoi | tgtCfg | tgtStatus | watch | loghead | cokey | auxUin | auxRes | blotBits | almMatch0 | almMatch1 | almCtl
    | almStat | grdResp | pnlReg | digest | jdigest | trimMod =>
    simp only [Reg.addr]
    omega
  | _ => exact ⟨rfl, by simp [Reg.addr]⟩

/-- Settles O8: a word's address names it, and lies on a word boundary within the map. -/
theorem addressMapRoundTrip : Obligations.AddressMapRoundTrip :=
  fun r h => ⟨regOf_addr r h, Reg.addr_word r h⟩

end Sys2Proof.Scope
end

section
/-!
SUPPORT. The calendar's years, months and days (R333, R336).
-/
namespace Sys2Proof.Scope

open Sys2Proof.Machine Sys2Proof.Laws

/-! ### Years -/

/-- The days of a year (R336). -/
def yearDays (y : Nat) : Nat := if isLeap y then 366 else 365

/-- A year begins when the one before it has passed. -/
theorem daysBefore_succ {y : Nat} (h : 2000 ≤ y) : daysBefore (y + 1) = daysBefore y + yearDays y := by
  simp only [daysBefore, yearDays, isLeap, Bool.and_eq_true, decide_eq_true_eq]
  split <;> split <;> split <;> omega

theorem yearOf_succ (k y d : Nat) :
    yearOf (k + 1) y d = if d < yearDays y then (y, d) else yearOf k (y + 1) (d - yearDays y) := rfl

/-- The year found is one of the years searched, its day is one of the year's, and both count to the day asked for. -/
theorem yearOf_found (k y d : Nat) (hy : 2000 ≤ y) (hd : daysBefore y + d < daysBefore (y + k)) :
    y ≤ (yearOf k y d).1 ∧ (yearOf k y d).1 < y + k ∧ (yearOf k y d).2 < yearDays (yearOf k y d).1 ∧
      daysBefore (yearOf k y d).1 + (yearOf k y d).2 = daysBefore y + d := by
  induction k generalizing y d with
  | zero => exact absurd hd (by rw [Nat.add_zero]; omega)
  | succ k ih =>
    rw [yearOf_succ]
    split
    · next hlt => exact ⟨le_rfl, by omega, hlt, rfl⟩
    · next hge =>
      have hnext := daysBefore_succ hy
      obtain ⟨hlo, hhi, hday, hsum⟩ := ih (y + 1) (d - yearDays y) (by omega) (by
        rw [show y + 1 + k = y + (k + 1) by omega]; omega)
      exact ⟨by omega, by omega, hday, by omega⟩

/-! ### Months -/

/-- A month begins when the one before it has passed. -/
theorem daysToMonth_succ (y : Nat) {m : Nat} (h : 1 ≤ m) : daysToMonth y (m + 1) = daysToMonth y m + daysIn y m := by
  obtain ⟨i, rfl⟩ : ∃ i, m = i + 1 := ⟨m - 1, by omega⟩
  simp only [daysToMonth, span, Nat.add_sub_cancel, List.range_succ, List.map_append, List.map_cons, List.map_nil,
    List.foldl_append, List.foldl_cons, List.foldl_nil]
  rw [Nat.add_comm 1 i]

/-- The twelve months are the year. -/
theorem daysToMonth_year (y : Nat) : daysToMonth y 13 = yearDays y := by
  have hmonths : List.range 12 = [0, 1, 2, 3, 4, 5, 6, 7, 8, 9, 10, 11] := rfl
  simp only [daysToMonth, span, hmonths, List.map_cons, List.map_nil, List.foldl_cons, List.foldl_nil, yearDays]
  cases hleap : isLeap y <;> simp [daysIn, hleap]

/-- The month found is one of the months searched, its date is one of the month's, and both count to the day asked for. -/
theorem monthOf_found (y k m d : Nat) (hm : 1 ≤ m) (hd : daysToMonth y m + d < daysToMonth y (m + k)) :
    m ≤ (monthOf y k m d).1 ∧ (monthOf y k m d).1 < m + k ∧ 1 ≤ (monthOf y k m d).2 ∧
      (monthOf y k m d).2 ≤ daysIn y (monthOf y k m d).1 ∧
      daysToMonth y (monthOf y k m d).1 + ((monthOf y k m d).2 - 1) = daysToMonth y m + d := by
  induction k generalizing m d with
  | zero => exact absurd hd (by rw [Nat.add_zero]; omega)
  | succ k ih =>
    rw [monthOf]
    split
    · next hlt => exact ⟨le_rfl, by omega, by omega, hlt, rfl⟩
    · next hge =>
      have hnext := daysToMonth_succ y hm
      obtain ⟨hlo, hhi, hone, hdate, hsum⟩ := ih (m + 1) (d - daysIn y m) (by omega) (by
        rw [show m + 1 + k = m + (k + 1) by omega]; omega)
      exact ⟨by omega, by omega, hone, hdate, by omega⟩

/-! ### Counts -/

/-- The fields of a count, from the year, the month and the date found (R333). -/
theorem calOfCounts_eq (n : Nat) :
    calOfCounts n =
      let year := yearOf 200 2000 (n / 32768 / 86400)
      let month := monthOf year.1 12 1 year.2
      ⟨year.1, month.1, month.2, n / 32768 / 3600 % 24, n / 32768 / 60 % 60, n / 32768 % 60, n % 32768⟩ := rfl

/-- Settles O22: the year, the month and the date of a count are found, and days, hours, minutes and seconds count back to it. -/
theorem calendarCountsRoundTrip : Obligations.CalendarCountsRoundTrip := by
  intro n hn
  have hdays : n / 32768 / 86400 < daysBefore 2200 := by
    unfold calEnd at hn
    generalize daysBefore 2200 = e at hn ⊢
    omega
  have hstart : daysBefore 2000 = 0 := rfl
  have hjanuary (y : Nat) : daysToMonth y 1 = 0 := rfl
  obtain ⟨hy0, hy1, hday, hysum⟩ := yearOf_found 200 2000 (n / 32768 / 86400) le_rfl (by
    rw [hstart, Nat.zero_add]
    exact hdays)
  rw [hstart, Nat.zero_add] at hysum
  rw [calOfCounts_eq]
  generalize yearOf 200 2000 (n / 32768 / 86400) = year at hy0 hy1 hday hysum ⊢
  obtain ⟨hm0, hm1, hd0, hd1, hmsum⟩ := monthOf_found year.1 12 1 year.2 le_rfl (by
    rw [hjanuary, Nat.zero_add]
    exact hday.trans_eq (daysToMonth_year year.1).symm)
  rw [hjanuary, Nat.zero_add] at hmsum
  dsimp only
  generalize monthOf year.1 12 1 year.2 = month at hm0 hm1 hd0 hd1 hmsum ⊢
  constructor
  · simp only [calOk, Bool.and_eq_true, decide_eq_true_eq]
    omega
  · simp only [calCounts, calSeconds, calDays]
    omega

end Sys2Proof.Scope
end

section
/-!
SUPPORT. What routing chooses, and what an out-of-order retirement counts (R285, R287 to R290).
-/
namespace Sys2Proof.Scope

open Sys2Proof.Machine Sys2Proof.Laws

/-! ### The choice of routing (R285, R287) -/

/-- What a search that keeps its best or takes the next one ends with is one of what it saw. -/
theorem foldl_choice_mem {α : Type} {f : Option α → α → Option α} (hf : ∀ b x, f b x = b ∨ f b x = some x) {l : List α}
    {b : Option α} {t : α} (h : l.foldl f b = some t) : b = some t ∨ t ∈ l := by
  induction l generalizing b with
  | nil => exact .inl h
  | cons x l ih =>
    rcases ih h with hx | hmem
    · rcases hf b x with hkept | htaken
      · exact .inl (hkept.symm.trans hx)
      · exact .inr (Option.some.inj (htaken.symm.trans hx) ▸ List.mem_cons_self)
    · exact .inr (List.mem_cons_of_mem _ hmem)

/-- The better of two targets: the one with the lower running priority, the first on a tie (R287). -/
def lowerTarget (s : State) (best : Option (Fin 6)) (t : Fin 6) : Option (Fin 6) :=
  match best with
  | none => some t
  | some b => if s.runPrio t < s.runPrio b then some t else some b

theorem lowerTarget_choice (s : State) (b : Option (Fin 6)) (t : Fin 6) : lowerTarget s b t = b ∨ lowerTarget s b t = some t := by
  cases b with
  | none => exact .inr rfl
  | some b =>
    rw [lowerTarget]
    split
    · exact .inr rfl
    · exact .inl rfl

/-- No target that the search saw runs lower than the one it ends with. -/
theorem lowerTarget_lowest {s : State} {l : List (Fin 6)} {b : Option (Fin 6)} {t : Fin 6}
    (h : l.foldl (lowerTarget s) b = some t) :
    (∀ q, b = some q → s.runPrio t ≤ s.runPrio q) ∧ ∀ q ∈ l, s.runPrio t ≤ s.runPrio q := by
  induction l generalizing b with
  | nil => exact ⟨fun q hq => by rw [Option.some.inj (h.symm.trans hq)], by simp⟩
  | cons x l ih =>
    obtain ⟨hbest, hrest⟩ := ih h
    cases b with
    | none => exact ⟨by simp, List.forall_mem_cons.mpr ⟨hbest x rfl, hrest⟩⟩
    | some b =>
      rw [lowerTarget] at hbest
      split at hbest
      · next hlt =>
        have hx := hbest x rfl
        exact ⟨fun q hq => Option.some.inj hq ▸ by omega, List.forall_mem_cons.mpr ⟨hx, hrest⟩⟩
      · next hge =>
        have hb := hbest b rfl
        exact ⟨fun q hq => Option.some.inj hq ▸ hb, List.forall_mem_cons.mpr ⟨by omega, hrest⟩⟩

/-- The target of a source takes part in routing, is named by the source, runs below it, and none such runs lower. -/
theorem chosenTarget_some {s : State} {n : Fin 192} {t : Fin 6} (h : s.chosenTarget n = some t) :
    s.targetOn t = true ∧ s.sourceTargets n t = true ∧ s.runPrio t < s.sourcePrio n ∧
      ∀ q, s.sourceTargets n q = true → s.targetOn q = true → s.runPrio q < s.sourcePrio n → s.runPrio t ≤ s.runPrio q := by
  have hfold : ((List.finRange 6).filter fun t =>
      s.targetOn t && s.sourceTargets n t && s.runPrio t < s.sourcePrio n).foldl (lowerTarget s) none = some t := h
  obtain hnone | hmem := foldl_choice_mem (lowerTarget_choice s) hfold
  · cases hnone
  simp only [List.mem_filter, Bool.and_eq_true, decide_eq_true_eq] at hmem
  obtain ⟨-, ⟨hon, hnamed⟩, hbelow⟩ := hmem
  refine ⟨hon, hnamed, hbelow, fun q hq hqon hqbelow => (lowerTarget_lowest hfold).2 q ?_⟩
  simp [hq, hqon, hqbelow]

/-- A chosen source is pending, and its target is the one chosen for it. -/
theorem firstSource_some {s : State} {n : Fin 192} {t : Fin 6} (h : s.firstSource = some (n, t)) :
    n.val ∈ s.intc.pend ∧ s.chosenTarget n = some t := by
  obtain hnone | hmem := foldl_choice_mem (fun b x => by
    cases b with
    | none => exact .inr rfl
    | some b =>
      dsimp only
      split
      · exact .inr rfl
      · exact .inl rfl) h
  · cases hnone
  simp only [List.mem_filterMap, Option.bind_eq_some_iff, Option.map_eq_some_iff] at hmem
  obtain ⟨m, hm, i, hi, q, hq, hpair⟩ := hmem
  cases hpair
  unfold idx? at hi
  split at hi
  · cases hi
    exact ⟨hm, hq⟩
  · cases hi

/-- Settles O55: routing chooses a pending source with its chosen target. -/
theorem deliveryIsStrictlyAbove : Obligations.DeliveryIsStrictlyAbove := by
  intro s n t h
  obtain ⟨hpend, hchosen⟩ := firstSource_some h
  obtain ⟨hon, hnamed, hbelow, hlowest⟩ := chosenTarget_some hchosen
  exact ⟨hpend, hnamed, hon, hbelow, by omega, hlowest⟩

/-! ### The counters of the targets (R289, R290) -/

/-- The out-of-order retirements and the timeouts that the targets have counted. -/
def orderCounts (s : State) (t : Fin 6) : Nat × Nat := (s.intc.targets[t].orders, s.intc.targets[t].timeouts)

/-- A change of one target that keeps its counts keeps all of them. -/
theorem upd_orderCounts {s : State} (p : List Nat) (t : Fin 6) {f : Target → Target}
    (hf : ∀ g, (f g).orders = g.orders ∧ (f g).timeouts = g.timeouts) :
    orderCounts { s with intc := { pend := p, targets := upd s.intc.targets t f } } = orderCounts s := by
  funext q
  by_cases hq : q = t
  · subst hq
    obtain ⟨ho, ht⟩ := hf s.intc.targets[q]
    simp only [orderCounts, upd_same, ho, ht]
  · simp only [orderCounts, upd_other _ _ _ _ hq]

theorem routeN_orderCounts (k : Nat) (s : State) : orderCounts (s.routeN k) = orderCounts s := by
  induction k generalizing s with
  | zero => rfl
  | succ k ih =>
    rw [State.routeN]
    split
    · rfl
    · exact (ih _).trans (upd_orderCounts _ _ fun _ => ⟨rfl, rfl⟩)

@[simp] theorem route_orderCounts (s : State) : orderCounts s.route = orderCounts s := routeN_orderCounts 96 s

@[simp] theorem latch_orderCounts (n : Nat) (s : State) : orderCounts (s.latch n) = orderCounts s := by
  unfold State.latch
  split <;> rfl

@[simp] theorem wakeFor_orderCounts (l : List Nat) (s : State) : orderCounts (s.wakeFor l) = orderCounts s := by
  unfold State.wakeFor State.unbank
  split
  · split
    · exact latch_orderCounts _ _
    · rfl
  · rfl

@[simp] theorem pendInt_orderCounts (n : Nat) (s : State) : orderCounts (s.pendInt n) = orderCounts s := by
  simp [State.pendInt]

@[simp] theorem enter_orderCounts (e : Event) (s : State) : orderCounts (s.enter e) = orderCounts s := by
  unfold State.enter
  dsimp only
  split
  · exact pendInt_orderCounts _ _
  · split
    · rfl
    · exact pendInt_orderCounts _ _

/-- Raising an event counts nothing. -/
@[simp] theorem raise_orderCounts (e : Ev) (u : Subject) (d : List Byte) (s : State) :
    orderCounts (s.raise e u d) = orderCounts s := by
  have hentered (x : Event) : orderCounts (if s.dev.startup.restored then s.enter x else
      { s with ev := { s.ev with held := s.ev.held ++ [x] } }) = orderCounts s := by
    split
    · exact enter_orderCounts _ _
    · rfl
  unfold State.raise State.raiseWith State.raiseAs
  dsimp only
  split
  · split
    · exact (pendInt_orderCounts _ _).trans (hentered _)
    · exact hentered _
  · exact hentered _

/-! ### A flushed stack (R289, R290) -/

theorem mem_foldl_insertAsc {x : Nat} {srcs l : List Nat} (h : x ∈ srcs ∨ x ∈ l) :
    x ∈ srcs.foldl (fun l n => insertAsc n l) l := by
  induction srcs generalizing l with
  | nil => exact h.resolve_left List.not_mem_nil
  | cons y srcs ih =>
    refine ih ?_
    rw [mem_insertAsc]
    rcases h with h | h
    · rcases List.mem_cons.mp h with h | h
      · exact .inr (.inl h)
      · exact .inl h
    · exact .inr (.inr h)

/-- Waking the device keeps what is pending and every target. -/
theorem wakeFor_intc (l : List Nat) (s : State) :
    (s.wakeFor l).intc.targets = s.intc.targets ∧ ∀ x ∈ s.intc.pend, x ∈ (s.wakeFor l).intc.pend := by
  unfold State.wakeFor State.unbank
  split
  · split
    · unfold State.latch
      split
      · exact ⟨rfl, fun x hx => mem_insertAsc.mpr (.inr hx)⟩
      · exact ⟨rfl, fun _ hx => hx⟩
    · exact ⟨rfl, fun _ hx => hx⟩
  · exact ⟨rfl, fun _ hx => hx⟩

/-- A flushed target holds nothing, and what it held is pending. -/
theorem flushTarget_flushed (t : Fin 6) (s : State) :
    (s.flushTarget t).intc.targets[t].stack = [] ∧ ∀ x ∈ s.intc.targets[t].stack, x.src ∈ (s.flushTarget t).intc.pend := by
  obtain ⟨htargets, hpend⟩ := wakeFor_intc (s.intc.targets[t].stack.map InSvc.src)
    { s with intc :=
      { pend := (s.intc.targets[t].stack.map InSvc.src).foldl (fun l n => insertAsc n l) s.intc.pend
        targets := upd s.intc.targets t fun g => { g with stack := [] } } }
  refine ⟨?_, fun x hx => hpend _ (mem_foldl_insertAsc (.inl (List.mem_map_of_mem hx)))⟩
  change (State.wakeFor _ _).intc.targets[t].stack = []
  rw [htargets, upd_same]

theorem flushTarget_orderCounts (t : Fin 6) (s : State) : orderCounts (s.flushTarget t) = orderCounts s :=
  (wakeFor_orderCounts _ _).trans (upd_orderCounts _ _ fun _ => ⟨rfl, rfl⟩)

/-- Counting at a target counts there, by its cause, and nowhere else. -/
theorem count_orderCounts (t : Fin 6) (timeout : Bool) (s : State) :
    orderCounts { s with intc := { s.intc with targets := upd s.intc.targets t (Target.count timeout) } } = fun q =>
      if q = t then
        if timeout then ((orderCounts s t).1, min 0xFFFF ((orderCounts s t).2 + 1))
        else (min 0xFFFF ((orderCounts s t).1 + 1), (orderCounts s t).2)
      else orderCounts s q := by
  funext q
  by_cases hq : q = t
  · subst hq
    simp only [orderCounts, upd_same, if_true]
    cases timeout <;> rfl
  · simp only [orderCounts, upd_other _ _ _ _ hq, if_neg hq]

/-- An out-of-order retirement counts at its target, by its cause, and nowhere else. -/
theorem outOfOrder_orderCounts (t : Fin 6) (timeout : Bool) (src dtag : Nat) (s : State) :
    orderCounts (s.outOfOrder t timeout src dtag) = fun q =>
      if q = t then
        if timeout then ((orderCounts s t).1, min 0xFFFF ((orderCounts s t).2 + 1))
        else (min 0xFFFF ((orderCounts s t).1 + 1), (orderCounts s t).2)
      else orderCounts s q := by
  rw [← flushTarget_orderCounts t s, ← count_orderCounts]
  exact (route_orderCounts _).trans (raise_orderCounts ..)

/-- An out-of-order retirement sets INTC_ORDER. -/
theorem outOfOrder_blotted (t : Fin 6) (timeout : Bool) (src dtag : Nat) (s : State) :
    Blotted (blotBit .intcOrder) (s.outOfOrder t timeout src dtag) :=
  blotted_congr (route_anv _) (note_self _ _ _ _ _)

/-- Settles O57: the pair on top, one of the last sixteen, or any other, which is out of order. -/
theorem retirementHasThreeOutcomes : Obligations.RetirementHasThreeOutcomes := by
  intro t src dtag s g
  have hother (htop : ∀ e, g.stack.head? = some e → ¬(e.src = src ∧ e.dtag = dtag)) : s.retire t src dtag =
      if g.retired.contains (src, dtag) then s else s.outOfOrder t false src dtag := by
    rw [State.retire]
    split
    · next e rest hg =>
      have hpair : (decide (e.src = src) && decide (e.dtag = dtag)) = false := by
        simpa using htop e (congrArg List.head? hg)
      simp only [hpair, Bool.false_eq_true, if_false, g]
    · rfl
  refine ⟨fun e rest hg hsrc hdtag => ?_, fun htop hmem => ?_, fun htop hmem => ?_⟩
  · rw [State.retire]
    simp only [show s.intc.targets[t].stack = e :: rest from hg, hsrc, hdtag, decide_true, Bool.and_self, if_true]
  · rw [hother htop, if_pos (by simpa using hmem)]
  · have hout : s.retire t src dtag = s.outOfOrder t false src dtag := by
      rw [hother htop, if_neg (by simpa using hmem)]
    obtain ⟨hstack, hpend⟩ := flushTarget_flushed t s
    have hcounts := congrFun (outOfOrder_orderCounts t false src dtag s)
    have hself := hcounts t
    rw [if_pos rfl] at hself
    obtain ⟨horders, htimeouts⟩ := Prod.mk.inj hself
    rw [hout]
    refine ⟨rfl, hstack, hpend, horders, htimeouts, outOfOrder_blotted .., fun q hq => ?_⟩
    have hq' := hcounts q
    rw [if_neg hq] at hq'
    exact Prod.mk.inj hq'

/-- Settles O41: a timeout is an out-of-order retirement of the pair on top, which counts as a timeout. -/
theorem timeoutIsOutOfOrder : Obligations.TimeoutIsOutOfOrder := by
  intro t e rest s hstack s1 counted s2
  have hexec : exec (.intTimeout t) s = .next (s.outOfOrder t true e.src e.dtag) := by
    rw [exec, execIntTimeout]
    simp only [hstack]
  obtain ⟨hempty, hpend⟩ := flushTarget_flushed t s
  refine ⟨hexec, hempty, fun x hx => hpend x (hstack ▸ hx), fun s' hs' => ?_⟩
  cases hs'.symm.trans hexec
  have hcounts := congrFun (outOfOrder_orderCounts t true e.src e.dtag s)
  have hself := hcounts t
  rw [if_pos rfl] at hself
  obtain ⟨horders, htimeouts⟩ := Prod.mk.inj hself
  refine ⟨htimeouts, horders, outOfOrder_blotted .., fun q hq => ?_⟩
  have hq' := hcounts q
  rw [if_neg hq] at hq'
  obtain ⟨hqorders, hqtimeouts⟩ := Prod.mk.inj hq'
  exact ⟨hqtimeouts, hqorders⟩

end Sys2Proof.Scope
end

section
/-!
SUPPORT. The ports: rejections, transactions, replies and port resets (R201 to R207, R213, R215, R221).
-/
namespace Sys2Proof.Scope

open Sys2Proof.Machine Sys2Proof.Laws

/-! ### One port changed -/

theorem onPort_port (p : Port) (f : PortState → PortState) (s : State) :
    (s.onPort p f).scr.ports[portIdx p] = f s.scr.ports[portIdx p] := upd_same _ _ _

theorem onPort_port_other {p : Port} {i : Fin 3} (f : PortState → PortState) (h : i ≠ portIdx p) (s : State) :
    (s.onPort p f).scr.ports[i] = s.scr.ports[i] := upd_other _ _ _ _ h

theorem transact_port (p : Port) (out : List Byte) (s : State) : (s.transact p out).scr.ports[portIdx p] =
    { s.scr.ports[portIdx p] with timeout := false, stalled := false, out := wordBytes [s.portWord p] ++ out } :=
  onPort_port p _ s

/-! ### Rejections (R213, R215) -/

/-- A rejection takes the immediate register where that is free, and touches no session and no queue. -/
theorem reject_free {p : Port} (x : Reply) {s : State} (h : s.scr.ports[portIdx p].imm = none) :
    (s.reject p x).scr.ports[portIdx p].imm = some x ∧ (s.reject p x).scr.sessions = s.scr.sessions ∧
      (s.reject p x).scr.queues = s.scr.queues := by
  refine ⟨?_, reject_scr_sessions p x s, reject_scr_queues p x s⟩
  unfold State.reject
  rw [h]
  dsimp only
  obtain ⟨y, hy⟩ := start_port p (portIdx p) (s.onPort p fun q => { q with imm := some x })
  rw [pendInt_scr, hy, onPort_port]

/-- A frame that is too short for a header and its CRC is a bad one (R213 step 1). -/
theorem judgeFrame_short (p : Port) {bs : List Byte} (h : bs.length < 20) (s : State) :
    s.judgeFrame p bs = s.reject p ((headerOf bs).rejection .badFrame) := by
  have hfault (spi : Bool) : frameFault spi bs (headerOf bs) = some .badFrame := by
    unfold frameFault
    rw [if_pos (by simp [h])]
  unfold State.judgeFrame
  simp only [hfault]

/-- Bytes on port C that COBS does not decode are a bad frame (R206). -/
theorem execFrameReceive_undecoded {bytes : List Byte} {s : State} (hs : s.serving = true) (h : cobs bytes = none) :
    exec (.frameReceive .c bytes []) s = .next (s.reject .c ((headerOf []).rejection .badFrame)) := by
  simp only [exec, execFrameReceive, hs, if_true, List.filter_nil, chain, List.foldl_nil, State.frameReceive, Bool.not_true,
    Bool.false_eq_true, if_false, h]

/-- What an SPI port receives is the frame, after the port status word has gone out (R201). -/
theorem spi_wire {p : Port} (bytes : List Byte) (s : State) (h : p ≠ .c) :
    frameIn p bytes = some bytes ∧ s.onWire p bytes = s.transact p (zeros bytes.length) := by
  cases p with
  | c => exact absurd rfl h
  | a | b => exact ⟨rfl, rfl⟩

/-- A bad frame is rejected through the immediate register. -/
theorem badFrame_rejected {p : Port} {bytes : List Byte} {s : State} (hs : s.serving = true)
    (hbad : p ≠ .c ∧ bytes.length < 20 ∨ p = .c ∧ cobs bytes = none) (himm : s.scr.ports[portIdx p].imm = none) :
    ∃ (x : Reply) (t : State), exec (.frameReceive p bytes []) s = .next t ∧ x.imm = true ∧ x.status = .badFrame ∧
      t.scr.ports[portIdx p].imm = some x ∧ t.scr.sessions = s.scr.sessions ∧ t.scr.queues = s.scr.queues := by
  rcases hbad with ⟨hp, hshort⟩ | ⟨rfl, hcobs⟩
  · obtain ⟨hframe, hwire⟩ := spi_wire bytes s hp
    have hfree : (s.transact p (zeros bytes.length)).scr.ports[portIdx p].imm = none := by rw [transact_port, himm]
    have hexec := execFrameReceive_judged hs hframe
    rw [judgeFrame_short p hshort, hwire] at hexec
    exact ⟨_, _, hexec, rfl, rfl, reject_free _ hfree⟩
  · exact ⟨_, _, execFrameReceive_undecoded hs hcobs, rfl, rfl, reject_free _ himm⟩

/-! ### Transactions on ports A and B (R201, R202) -/

theorem execRead_serving {p : Port} {s : State} (bytes : Nat) (hs : s.serving = true) (hp : p ≠ .c) :
    exec (.read p bytes) s = .next (s.readPort p bytes) := by
  cases p with
  | c => exact absurd rfl hp
  | a | b => simp only [exec, execRead, hs, if_true]

/-- A READ with nothing to deliver shifts out the empty reply (R202). -/
theorem readPort_empty {p : Port} {s : State} (bytes : Nat) (h : s.scr.ports[portIdx p].current = none) :
    s.readPort p bytes = s.transact p (s.scr.ports[portIdx p].shifted bytes) := by
  unfold State.readPort
  simp only [h]

/-- A READ of the current reply delivers it, or keeps it as the current one (R202). -/
theorem readPort_current {p : Port} {s : State} {imm : Bool} {x : Reply} (bytes : Nat)
    (h : s.scr.ports[portIdx p].current = some (imm, x)) :
    s.readPort p bytes =
      let s1 := s.transact p (s.scr.ports[portIdx p].shifted bytes)
      if x.size ≤ bytes then s1.delivered p imm x
      else if bytes = 0 then s1
      else s1.onPort p fun q => { q with partly := some imm } := by
  unfold State.readPort
  simp only [h]

theorem execStatus_serving {p : Port} {s : State} (hs : s.serving = true) (hp : p ≠ .c) :
    exec (.status p) s = .next (s.transact p []) := by
  cases p with
  | c => exact absurd rfl hp
  | a | b => simp only [exec, execStatus, hs, if_true]

theorem execPortTimeout_serving {p : Port} {s : State} (hs : s.serving = true) (hp : p ≠ .c) :
    exec (.portTimeout p) s = .next
      ((s.onPort p fun q => { q with timeout := true, stalled := true }).raise .portTimeout .device (le 1 (portIdx p).val)) := by
  cases p with
  | c => exact absurd rfl hp
  | a | b => simp only [exec, execPortTimeout, hs, if_true]

/-! ### Resets of one port (R206, R221, R276) -/

theorem execSpiPortReset_serving {p : Port} {s : State} (hs : s.serving = true) (hp : p ≠ .c) :
    exec (.spiPortReset p) s = .next
      (((s.onPort p PortState.clear).resetCause (if p = .a then 0x100 else 0x200)).reloadTrims) := by
  cases p with
  | c => exact absurd rfl hp
  | a | b => simp only [exec, execSpiPortReset, hs, Bool.not_true, Bool.false_eq_true, if_false]

/-- A reload of the trims leaves what neither a trim that waits for a modulator nor a backup trim changes. -/
theorem reloadTrims_keeps {β : Type} (g : State → β) (hchan : ∀ k f s, g (State.onChan k f s) = g s)
    (hspare : ∀ k f s, g (State.onSpare k f s) = g s) (htrim : ∀ (x : Trims) (s : State), g { s with trim := x } = g s)
    (hnote : ∀ a old new s, g (State.trimNote a old new s) = g s) (s : State) : g s.reloadTrims = g s := by
  have hmods (s : State) : g (modsReloaded s) = g s := by
    refine chain_keeps g _ _ (fun n s => ?_) s
    unfold putDue
    split
    · exact hchan _ _ _
    · exact hspare _ _ _
  have hvref (s : State) : g (vrefReloaded s) = g s := htrim _ s
  have hbkup (s : State) : g (bkupReloaded s) = g s := by
    unfold bkupReloaded State.askBkup State.setOsc
    split
    · exact htrim _ s
    · split
      · exact htrim _ s
      · exact (hnote _ _ _ _).trans ((htrim _ _).trans (htrim _ s))
  have hpanel (s : State) : g (panelReloaded s) = g s := by
    unfold panelReloaded
    split <;> exact htrim _ s
  rw [reloadTrims_eq, hpanel, hbkup, hvref, hmods]

@[simp] theorem reloadTrims_scr (s : State) : s.reloadTrims.scr = s.scr :=
  reloadTrims_keeps State.scr (fun _ _ _ => rfl) (fun _ _ _ => rfl) (fun _ _ => rfl) (fun _ _ _ s => by unfold State.trimNote; split <;> simp) s

@[simp] theorem reloadTrims_pwr (s : State) : s.reloadTrims.pwr = s.pwr :=
  reloadTrims_keeps State.pwr (fun _ _ _ => rfl) (fun _ _ _ => rfl) (fun _ _ => rfl) (fun _ _ _ s => by unfold State.trimNote; split <;> simp) s

/-- The rate code of a word without its low four bits is 0. -/
theorem fld_cleared (w : Word) : fld (w &&& 0xFFFFFFF0) 3 0 = 0 := by
  have hmask : (w.toNat &&& 0xFFFFFFF0) &&& (2 ^ 4 - 1) = 0 := by rw [Nat.and_assoc]; exact Nat.and_zero _
  rw [Nat.and_two_pow_sub_one_eq_mod] at hmask
  rw [fld, BitVec.toNat_and]
  exact hmask

/-- The reset of port C that a BREAK makes (R206). -/
def portCReset (s : State) : State := (((s.onPort .c PortState.clear).start .c).resetCause 0x400).reloadTrims

theorem portCReset_imm (s : State) : (portCReset s).scr.ports[portIdx .c].imm = none := by
  obtain ⟨x, hx⟩ := start_port .c (portIdx .c) (s.onPort .c PortState.clear)
  have hscr : (portCReset s).scr = ((s.onPort .c PortState.clear).start .c).scr := reloadTrims_scr _
  rw [hscr, hx, onPort_port]
  rfl

theorem portCReset_cause (s : State) : (portCReset s).pwr.rstCause = (s.pwr.rstCause ||| 0x400) := by
  rw [portCReset, reloadTrims_pwr]
  simp [State.resetCause]

/-- Rate code 0, as asked and at once (R206). -/
def rateRestored (s : State) : State :=
  let s2 := (s.store .scrCfg (s.asked .scrCfg &&& 0xFFFFFFF0)).onPort .c fun p => { p with baud := 0 }
  { s2 with scr := { s2.scr with baudDue := [] } }

theorem rateRestored_port (s : State) : (rateRestored s).scr.ports[portIdx .c] = { s.scr.ports[portIdx .c] with baud := 0 } :=
  onPort_port .c _ (s.store .scrCfg (s.asked .scrCfg &&& 0xFFFFFFF0))

theorem rateRestored_asked (s : State) : (rateRestored s).asked .scrCfg = s.asked .scrCfg &&& 0xFFFFFFF0 :=
  (Regs.at_put ..).trans (if_pos rfl)

theorem execBrk_short {s : State} (hs : s.serving = true) : exec (.brk false) s = .next (portCReset s) := by
  simp only [exec, execBrk, hs, Bool.not_true, Bool.not_false, Bool.false_eq_true, if_false, if_true]
  rfl

theorem execBrk_long {s : State} (hs : s.serving = true) : exec (.brk true) s = .next (rateRestored (portCReset s)) := by
  simp only [exec, execBrk, hs, Bool.not_true, Bool.false_eq_true, if_false]
  rfl

/-- Settles O31: each row on a port while Scribe serves, by the operation that it comes to. -/
theorem portEventsComplete : Obligations.PortEventsComplete := by
  refine ⟨fun p bytes s hs hbad himm => badFrame_rejected hs hbad himm, fun p bytes s hs hp => ⟨?_, fun hnone => ?_,
    fun imm x hx => ⟨fun hwhole => ?_, fun hpart => ?_⟩⟩, fun p s hs hp => execStatus_serving hs hp,
    fun bytes s => ⟨rfl, rfl⟩, fun imm x s hs hx => ?_, fun p s hs hp => execSpiPortReset_serving hs hp,
    fun s hs => ⟨execBrk_short hs, _, execBrk_long hs, ?_, ?_, rfl, ?_, portCReset_cause s⟩⟩
  · rw [transact_port]
    rfl
  · rw [execRead_serving bytes hs hp, readPort_empty bytes hnone]
  · rw [execRead_serving bytes hs hp, readPort_current bytes hx]
    exact congrArg _ (if_pos hwhole)
  · rw [execRead_serving bytes hs hp, readPort_current bytes hx]
    exact congrArg _ (if_neg (not_le.mpr hpart))
  · simp only [exec, execUartReplySent, hs, hx, Bool.not_true, Bool.false_eq_true, if_false]
  · exact congrArg PortState.baud (rateRestored_port (portCReset s))
  · exact (congrArg PortState.imm (rateRestored_port (portCReset s))).trans (portCReset_imm s)
  · rw [rateRestored_asked]
    exact fld_cleared _

/-- Settles O32: a timeout stalls its port and raises the event; the next transaction ends the stall. -/
theorem portTimesOut : Obligations.PortTimesOut := by
  intro p s hs hp
  have hexec := execPortTimeout_serving hs hp
  refine ⟨hexec, _, hexec, ?_, fun q hq => ?_, by simp, by simp, by simp, ?_, ?_⟩
  · rw [raise_scr, onPort_port]
  · rw [raise_scr, onPort_port_other _ hq]
  · rw [transact_port]
  · rw [transact_port]

end Sys2Proof.Scope
end

section
/-!
SUPPORT. The session commands (R209, R210, R230, R286).
-/
namespace Sys2Proof.Scope

open Sys2Proof.Machine Sys2Proof.Laws

/-- A search over more numbers than are used finds one that is not. -/
theorem freshFrom_unused {size start : Nat} {used : List Nat} (h : used.length < size) :
    freshFrom size start used < size ∧ freshFrom size start used ∉ used := by
  let tried := (List.range (used.length + 1)).map fun k => (start + k) % size
  have hpos : 0 < size := by omega
  have hdistinct : tried.Nodup := by
    refine (List.nodup_map_iff_inj_on List.nodup_range).mpr fun i hi j hj hij => ?_
    have hi' := List.mem_range.mp hi
    have hj' := List.mem_range.mp hj
    have hmod : i % size = j % size := Nat.ModEq.add_left_cancel' start hij
    rwa [Nat.mod_eq_of_lt (by omega), Nat.mod_eq_of_lt (by omega)] at hmod
  obtain ⟨x, hx⟩ : ∃ x, tried.find? (fun x => !used.contains x) = some x := by
    by_contra hnone
    have hall : tried ⊆ used := by
      intro x hx
      by_contra hfree
      exact hnone (Option.isSome_iff_exists.mp (List.find?_isSome.mpr ⟨x, hx, by simpa using hfree⟩))
    have hle := (List.subperm_of_subset hdistinct hall).length_le
    simp [tried] at hle
  have hfound : freshFrom size start used = x := by
    rw [freshFrom]
    exact congrArg (fun o => o.getD (start % size)) hx
  obtain ⟨k, -, hk⟩ := List.mem_map.mp (List.mem_of_find?_eq_some hx)
  exact ⟨hfound ▸ hk ▸ Nat.mod_lt _ hpos, hfound ▸ by simpa using List.find?_some hx⟩

/-- A role is that of its code (R208). -/
theorem roleCode_of_roleOf? {n : Nat} {role : Role} (h : roleOf? n = some role) : roleCode role = n := by
  unfold roleOf? at h
  split at h <;> cases h <;> rfl

/-- An open that nothing refuses names a role, and finds an identifier free (R209). -/
theorem openFault_none {r : Req} {bs : List Byte} {s : State} (h : s.openFault r bs = none) :
    (∃ role, roleOf? (field bs 0 1) = some role) ∧ s.scr.sessions.length < 1024 := by
  unfold State.openFault at h
  split at h
  · cases h
  · next role hrole =>
    dsimp only at h
    split at h
    · cases h
    split at h
    · cases h
    split at h
    · cases h
    split at h
    · cases h
    · next hroom => exact ⟨⟨role, hrole⟩, not_le.mp hroom⟩

/-- The session that an open adds (R209, R210). -/
def openedSession (r : Req) (bs : List Byte) (s : State) : Session :=
  let role := (roleOf? (field bs 0 1)).getD .reader
  let secured := field bs 1 1 % 2 = 1
  let id := Fin.ofNat 1024 (freshFrom 1024 (Config.freeNat s.draws) (s.scr.sessions.map fun x => x.id.val))
  { id := id, role := role, secured := secured, port := r.port, qmask := wordAt bs 4, hostSeq := 0, devSeq := 0
    authFail := 0, closing := none, corrupt := false
    keys := if secured then sessionKeys id.val s.draws role bs else ([], []) }

theorem openedSession_id {r : Req} {bs : List Byte} {s : State} (h : s.scr.sessions.length < 1024) :
    ∀ y ∈ s.scr.sessions, y.id ≠ (openedSession r bs s).id := by
  obtain ⟨hlt, hfree⟩ := freshFrom_unused (start := Config.freeNat s.draws) (used := s.scr.sessions.map fun x => x.id.val)
    (by rwa [List.length_map])
  intro y hy heq
  have hval : y.id.val = freshFrom 1024 (Config.freeNat s.draws) (s.scr.sessions.map fun x => x.id.val) :=
    (congrArg Fin.val heq).trans (Nat.mod_eq_of_lt hlt)
  exact hfree (hval ▸ List.mem_map_of_mem hy)

/-- An open that nothing refuses adds its session and answers (R209). -/
theorem sessionOpen_opens {r : Req} {payload : List Byte} {s : State} (h : s.openFault r (fit 152 payload) = none) :
    s.sessionOpen r payload =
      let x := openedSession r (fit 152 payload) s
      let s1 : State := { s with draws := s.draws + 1, scr := { s.scr with sessions := s.scr.sessions ++ [x] } }
      (if x.secured && s.provision x.role r.port (((fit 152 payload).drop 88).take 64) then
          s1.raise .sesProvision .device (le 1 (portIdx r.port).val)
        else s1).ok 0x0002 r (openReply x.id.val s.draws x.secured s.grd.quenched (fit 152 payload)) := by
  unfold State.sessionOpen
  simp only [h]
  rfl

/-- Settles O13: each session command, served, is its own effect; an open takes a fresh identifier. -/
theorem sessionCommandsComplete : Obligations.SessionCommandsComplete := by
  refine ⟨fun r payload s hs => exec_served_fast rfl hs rfl, fun r payload s hs hfault => ?_, fun r s hs =>
    (exec_served (c := .sessionClose r) rfl hs :),
    fun r prio s hs hprio => ?_⟩
  · obtain ⟨⟨role, hrole⟩, hroom⟩ := openFault_none hfault
    have hexec : exec (.sessionOpen r payload) s = .next ((s.woken 0x0002).sessionOpen r payload) := exec_served rfl hs
    rw [sessionOpen_opens hfault] at hexec
    refine ⟨openedSession r (fit 152 payload) (s.woken 0x0002), rfl, ?_, rfl, rfl, rfl, rfl, rfl, ?_, ?_, ?_⟩
    · rw [openedSession, hrole]
      exact roleCode_of_roleOf? hrole
    · simp [openedSession]
    · simpa using openedSession_id (r := r) (bs := fit 152 payload) hroom
    · simpa using hexec
  · refine (exec_served_fast rfl hs rfl).trans ?_
    rw [if_neg (not_lt.mpr hprio)]

end Sys2Proof.Scope
end

section
/-!
SUPPORT. Firmware update: the lock's commands, the switch, the start self-check and the end of a trial (R240, R242, R300, R328 to R331).
-/
namespace Sys2Proof.Scope

open Sys2Proof.Machine Sys2Proof.Laws

/-! ### What a served slow-path command may rely on -/

/-- A slow-path command is served outside a power-fail warning alone (R219, R300). -/
theorem served_noWarning {op : Nat} {r : Req} {s : State} (h : s.served op r = true) (hslow : isSlow op = true) :
    s.pwr.pfail = false := by
  simp only [State.served, State.ready, hslow, Bool.not_true, Bool.false_or, Bool.and_eq_true, State.coresServe,
    Bool.not_eq_true'] at h
  obtain ⟨⟨⟨⟨-, ⟨⟨-, hpfail⟩, -⟩⟩, -⟩, -⟩, -⟩ := h
  exact hpfail

@[simp] theorem woken_holdsLock (op : Nat) (id : Fin 1024) (s : State) : (s.woken op).holdsLock id = s.holdsLock id := by
  simp [State.holdsLock]

/-- A firmware command of the lock's holder is its own effect (R240). -/
theorem exec_fwCommand {c : Instr} {op : Nat} {r : Req} {s : State} {body : State → State}
    (hc : exec c s = .next (s.fwCommand op r body)) (hs : s.served op r = true) (hlock : s.holdsLock r.session = true) :
    exec c s = .next (body (s.woken op)) := by
  rw [hc, State.fwCommand, command_served _ hs, woken_holdsLock, hlock, if_pos rfl]

/-! ### The switch and the start self-check (R329, R330) -/

/-- The cores restarted are up, and else Anvil is as it was. -/
theorem restartCores_anv (s : State) : s.restartCores.anv = { s.anv with up := true } := by
  simp [State.restartCores, State.coresDown, State.flushTarget]

@[simp] theorem restartCores_draws (s : State) : s.restartCores.draws = s.draws := by simp [State.restartCores]

@[simp] theorem restartCores_pwr (s : State) : s.restartCores.pwr = s.pwr := by simp [State.restartCores]

/-- The slot of the other number than 0 is 1. -/
theorem slotIdx_val (i : Fin 2) : slotIdx i.val = i := by
  rw [slotIdx]
  split <;> omega

/-- Booting chooses what runs, and leaves the control record, the firmware state and the slots. -/
theorem boot_keeps (a : Anvil) : a.boot.active = a.active ∧ a.boot.fw = a.fw ∧ a.boot.slots = a.slots := by
  unfold Anvil.boot
  dsimp only
  split
  · exact ⟨rfl, rfl, rfl⟩
  · split <;> exact ⟨rfl, rfl, rfl⟩

theorem noteRecovery_anv (s : State) : s.noteRecovery.anv.active = s.anv.active ∧ s.noteRecovery.anv.fw = s.anv.fw ∧
    s.noteRecovery.anv.slots = s.anv.slots := by
  unfold State.noteRecovery
  split <;> exact ⟨rfl, rfl, rfl⟩

/-- A rejected trial makes the fallback slot active, and spoils the slot on trial (R330). -/
theorem revert_anv (cause : Nat) (s : State) : (s.revert cause).anv.fw = .idle ∧
    (s.revert cause).anv.active = (slotIdx s.anv.fallback).val ∧
    (s.revert cause).anv.slots = upd s.anv.slots (slotIdx s.anv.active) fun y => { y with verified := false } := by
  let s1 := s.onSlot (slotIdx s.anv.active) fun y => { y with verified := false }
  let before : Anvil := { s1.anv with active := (slotIdx s.anv.fallback).val, fw := .idle }
  obtain ⟨hactive, hfw, hslots⟩ := boot_keeps before
  obtain ⟨hactive', hfw', hslots'⟩ := noteRecovery_anv { s1 with anv := before.boot }
  unfold State.revert
  exact ⟨(note_anv_fw ..).trans (hfw'.trans hfw), (note_anv_active ..).trans (hactive'.trans hactive),
    (note_anv_slots ..).trans (hslots'.trans hslots)⟩

/-- A rejected trial says so (R330). -/
theorem revert_blotted (cause : Nat) (s : State) : Blotted (blotBit .fwReverted) (s.revert cause) := note_self _ _ _ _ _

/-- After the switch the image is in trial, its slot active and the old one the fallback (R329). -/
theorem switchSlot_anv (i : Fin 2) (s : State) : (s.switchSlot i).anv.fw = .trial ∧ (s.switchSlot i).anv.active = i.val ∧
    (s.switchSlot i).anv.fallback = s.anv.running ∧ (s.switchSlot i).draws = s.draws ∧
    (s.switchSlot i).pwr = s.pwr := by
  unfold State.switchSlot
  simp [restartCores_anv]

/-- An image that passes its start self-check goes on (R330). -/
theorem selfCheck_passes {s : State} (h : Config.freeNat s.draws % 2 = 0) : s.selfCheck = { s with draws := s.draws + 1 } := by
  simp [State.selfCheck, State.fresh, h]

/-- An image in trial that fails its start self-check is rejected (R330). -/
theorem selfCheck_fails {s : State} (hfw : s.anv.fw = .trial) (hpfail : s.pwr.pfail = false)
    (h : Config.freeNat s.draws % 2 = 1) : s.selfCheck = { s with draws := s.draws + 1 }.revert 1 := by
  simp [State.selfCheck, State.fresh, State.revertOrHold, h, hfw, hpfail]

/-- A verified slot that reads back is switched to (R329). -/
theorem execFwActivate_switches {r : Req} {s : State} (hs : s.served 0x0604 r = true) (hfw : s.anv.fw = .verified)
    (hmay : (s.woken 0x0604).holdsLock r.session = true ∨ (s.woken 0x0604).settled 0x0604 r = some (.judged true)) :
    let s0 := s.woken 0x0604
    let x := s0.anv.slots[s0.anv.spareSlot]
    x.verified = true → sha384 x.bytes = x.hash →
    exec (.fwActivate r) s = .next (((s0.switchSlot s0.anv.spareSlot).selfCheck).ok 0x0604 r (le 4 x.version.toNat)) := by
  intro s0 x hverified hhash
  refine (exec_served (c := .fwActivate r) rfl hs :).trans ?_
  have hlocked : ¬((!s0.holdsLock r.session && decide (s0.settled 0x0604 r ≠ some (.judged true))) = true) := by
    rcases hmay with h | h <;> simp [s0, h]
  have hread : ¬((!x.verified || decide (sha384 x.bytes ≠ x.hash)) = true) := by simp only [hverified, hhash]; simp
  have hfw' : ¬ s0.anv.fw ≠ .verified := by simp [s0, hfw]
  exact congrArg _ ((if_neg hlocked).trans ((if_neg hfw').trans (if_neg hread)))

/-- A slot that does not read back is to be loaded again (R329). -/
theorem execFwActivate_unread {r : Req} {s : State} (hs : s.served 0x0604 r = true) (hfw : s.anv.fw = .verified)
    (hlock : (s.woken 0x0604).holdsLock r.session = true) :
    let s0 := s.woken 0x0604
    let x := s0.anv.slots[s0.anv.spareSlot]
    x.verified = false ∨ sha384 x.bytes ≠ x.hash →
    exec (.fwActivate r) s = .next ((s0.fwState .loading).fail 0x0604 r .sigFail) := by
  intro s0 x hbad
  refine (exec_served (c := .fwActivate r) rfl hs :).trans ?_
  have hlocked : ¬((!s0.holdsLock r.session && decide (s0.settled 0x0604 r ≠ some (.judged true))) = true) := by simp [s0, hlock]
  have hread : (!x.verified || decide (sha384 x.bytes ≠ x.hash)) = true := by
    rcases hbad with h | h
    · rw [h]
      rfl
    · rw [decide_eq_true h, Bool.or_true]
  have hfw' : ¬ s0.anv.fw ≠ .verified := by simp [s0, hfw]
  exact congrArg _ ((if_neg hlocked).trans ((if_neg hfw').trans (if_pos hread)))

/-- Settles O19: each firmware command of the lock's holder past its checks, and both outcomes of the self-check. -/
theorem firmwareCommandsComplete : Obligations.FirmwareCommandsComplete := by
  refine ⟨fun r length s hs hlock hfw hlo hhi => ?_, fun r offset data s hs hlock hfw halign hdata hfits => ?_,
    fun r s hs hlock hfw => ⟨fun hpasses => ?_, fun hfails => ?_⟩, fun r s hs hfw => ?_, fun r s hs hfw hlock hbad =>
    execFwActivate_unread hs hfw hlock hbad,
    fun s hpow hfw hpfail => ?_, fun s hpow hfw hpfail => ?_⟩
  · refine (exec_fwCommand (c := .fwBegin r length) rfl hs hlock :).trans ?_
    dsimp only
    rw [if_neg (by simpa using hfw), if_neg (by simp; omega)]
    rfl
  · refine (exec_fwCommand (c := .fwWrite r offset data) rfl hs hlock :).trans ?_
    have hlength : (s.woken 0x0602).anv.slots[(s.woken 0x0602).anv.spareSlot].length = s.anv.slots[s.anv.spareSlot].length :=
      congrArg (fun a : Anvil => a.slots[a.spareSlot].length) (woken_anv 0x0602 s)
    dsimp only
    rw [if_neg (by simp [hfw]), if_neg (by rw [hlength]; simp only [Bool.or_eq_true, decide_eq_true_eq]; omega)]
    rfl
  · refine (exec_fwCommand (c := .fwVerify r) rfl hs hlock :).trans ?_
    dsimp only
    rw [if_neg (by simp [hfw]), if_neg (by rw [hpasses]; decide)]
    rfl
  · refine (exec_fwCommand (c := .fwVerify r) rfl hs hlock :).trans ?_
    dsimp only
    rw [if_neg (by simp [hfw]), if_pos (by rw [hfails]; rfl)]
  · intro s0 i x hmay hverified hhash s1
    obtain ⟨htrial, hactive, hfallback, hdraws, hpwr⟩ := switchSlot_anv i s0
    have hdraws' : (s0.switchSlot i).draws = s.draws := hdraws.trans (woken_draws _ s)
    have hexec := execFwActivate_switches hs hfw hmay hverified hhash
    refine ⟨fun hfree => ?_, fun hfree => ?_⟩
    · rw [hexec, selfCheck_passes (by rwa [hdraws']), hdraws']
      rfl
    · have hpfail : (s0.switchSlot i).pwr.pfail = false := by
        rw [hpwr, woken_pwr]
        exact served_noWarning hs rfl
      let fails : State := { s0.switchSlot i with draws := s.draws + 1 }
      have hfails : (s0.switchSlot i).selfCheck = fails.revert 1 := by
        rw [selfCheck_fails htrial hpfail (by rwa [hdraws']), hdraws']
      obtain ⟨hidle, hback, hslots⟩ := revert_anv 1 fails
      have htried : slotIdx fails.anv.active = i := (congrArg slotIdx hactive).trans (slotIdx_val i)
      have holder : fails.anv.fallback = s.anv.running := hfallback.trans (congrArg Anvil.running (woken_anv _ s))
      refine ⟨fails.revert 1, hfails ▸ hexec, hidle, hback.trans (by rw [holder]), ?_, revert_blotted 1 fails⟩
      rw [htried] at hslots
      exact (congrArg (fun v : Vector FwSlot 2 => v[i].verified) hslots).trans (congrArg FwSlot.verified (upd_same ..))
  · simp only [exec, execFwTrialEnd, hpow, hfw, hpfail, Bool.not_true, ne_eq, not_true_eq_false, decide_false, Bool.or_self,
      Bool.false_eq_true, if_false, if_true]
  · simp only [exec, execFwTrialEnd, hpow, hfw, hpfail, Bool.not_true, ne_eq, not_true_eq_false, decide_false, Bool.or_self,
      Bool.false_eq_true, if_false]
    rfl

end Sys2Proof.Scope
end

section
/-!
SUPPORT. The calendar's commands and events: loads, the last count, alarms and the second boundary (R243, R275, R333 to R345).
-/
namespace Sys2Proof.Scope

open Sys2Proof.Machine Sys2Proof.Laws

/-! ### The last count (R336) -/

/-- The end of the range touches validity and RANGE alone. -/
theorem atRangeEnd_eq (c : Calendar) : atRangeEnd c = { c with
    valid := c.valid && decide (calCounts c.time + 1 < calEnd), range := c.range || decide (calEnd ≤ calCounts c.time + 1) } := by
  unfold atRangeEnd
  split
  · next h =>
    rw [decide_eq_true h, decide_eq_false (by omega), Bool.and_false, Bool.or_true]
  · next h =>
    rw [decide_eq_false h, decide_eq_true (by omega), Bool.and_true, Bool.or_false]

/-! ### What alarms change (R342, R344) -/

/-- The calendar but for its alarms and WAKE_N. -/
def withoutAlarms (c : Calendar) : Calendar := { c with alarms := Calendar.reset.alarms, wake := false }

/-- What a firing leaves: the calendar but for its alarms, and the faults. -/
def besideAlarms (s : State) : Calendar × Flt := (withoutAlarms s.cld, s.flt)

theorem alarmFire_besideAlarms (a : Fin 2) (t : CalTime) (dow : Nat) (skipped : Bool) (s : State) :
    besideAlarms (s.alarmFire a t dow skipped) = besideAlarms s := by
  unfold State.alarmFire
  dsimp only
  split
  · rfl
  · simp only [besideAlarms, State.alarmEvent, pendInt_cld, pendInt_flt, raiseWith_cld, raiseWith_flt]
    rfl

theorem alarmForward_besideAlarms (old : CalTime) (dow : Nat) (new : CalTime) (a : Fin 2) (s : State) :
    besideAlarms (s.alarmForward old dow new a) = besideAlarms s := by
  unfold State.alarmForward
  dsimp only
  split
  · rfl
  · split
    · exact alarmFire_besideAlarms ..
    · rfl

theorem alarmsAtStep_besideAlarms (old : CalTime) (dow : Nat) (new : CalTime) (s : State) :
    besideAlarms (s.alarmsAtStep old dow new) = besideAlarms s := by
  unfold State.alarmsAtStep
  split
  · exact chain_keeps besideAlarms _ _ (fun a s => alarmForward_besideAlarms old dow new a s) s
  · rfl

/-- The calendar after a step but for its alarms (R340 to R342). -/
theorem calStep_besideAlarms (new : CalTime) (dow : Nat) (s : State) :
    besideAlarms (s.calStep new dow) = (withoutAlarms (atRangeEnd (s.cld.load s.clock new dow)), s.flt) :=
  alarmsAtStep_besideAlarms ..

/-! ### CLD_SET and CLD_ADJUST (R338 to R341) -/

/-- What a step or a set loads: the new time, the day of week, no slew, and the next ADJSEQ. -/
structure Loaded (new : CalTime) (dow : Nat) (old c : Calendar) : Prop where
  time : c.time = new
  dow : c.dow = dow
  ahead : c.ahead = 0
  slew : c.slew = 0
  adjSeq : c.adjSeq = (old.adjSeq + 1) % 2 ^ 32

/-- A step loads its time, and keeps the calendar valid short of the last count. -/
theorem calStep_loaded (new : CalTime) (dow : Nat) (s : State) :
    Loaded new dow s.cld (s.calStep new dow).cld ∧
      (s.calStep new dow).cld.valid = (s.cld.valid && decide (calCounts new + 1 < calEnd)) := by
  have h := congrArg Prod.fst (calStep_besideAlarms new dow s)
  rw [atRangeEnd_eq] at h
  exact ⟨⟨congrArg Calendar.time h, congrArg Calendar.dow h, congrArg Calendar.ahead h, congrArg Calendar.slew h,
    congrArg Calendar.adjSeq h⟩, congrArg Calendar.valid h⟩

/-- A set within range loads its time, and leaves the calendar valid and not LOST, but at the last count (R338). -/
theorem cldSet_loads {r : Req} {f : CldFields} {s : State} (h : cldOk f = true) : ∃ (s1 : State) (c : Calendar),
    s.cldSet r f = s1.ok 0x0701 r (le 4 s1.cld.adjSeq ++ zeros 4) ∧ Loaded (cldTime f) (ofBcd f.dow) s.cld c ∧
      s1.cld = atRangeEnd { c with valid := true, lost := false, range := false } ∧ s1.flt.calStop = false := by
  let s1 : State := if s.cld.valid then s.calStep (cldTime f) (ofBcd f.dow) else s.calFirstSet (cldTime f) (ofBcd f.dow)
  let s2 : State := { s1 with
    cld := atRangeEnd { s1.cld with valid := true, lost := false, range := false }, flt := { s1.flt with calStop := false } }
  have hloaded : Loaded (cldTime f) (ofBcd f.dow) s.cld s1.cld := by
    simp only [s1]
    split
    · exact (calStep_loaded _ _ _).1
    · exact ⟨rfl, rfl, rfl, rfl, rfl⟩
  have hset : s.cldSet r f = (s2.raise .cldSet .device (le 4 s2.cld.adjSeq ++ s.stampNow.bytes)).ok 0x0701 r
      (le 4 s2.cld.adjSeq ++ zeros 4) := by
    unfold State.cldSet
    rw [h]
    rfl
  exact ⟨_, s1.cld, hset.trans (by rw [raise_cld]), hloaded, raise_cld _ _ _ s2,
    congrArg Flt.calStop (raise_flt _ _ _ s2)⟩

/-- An accepted adjustment answers the new ADJSEQ, and leaves the calendar as adjusted. -/
theorem cldAdjusted_ok (r : Req) (mode : Nat) (amount : Int) (s : State) : ∃ s1 : State,
    s.cldAdjusted r mode amount = s1.ok 0x0702 r (le 4 s1.cld.adjSeq ++ zeros 4) ∧ s1.cld = s.cld :=
  ⟨s.raise .cldAdjust .device (le 1 mode ++ zeros 3 ++ le 4 (unsigned 32 amount) ++ le 4 s.cld.adjSeq),
    by rw [State.cldAdjusted, raise_cld], raise_cld _ _ _ s⟩

/-- An accepted step of an amount other than 0 loads the time it leads to (R340). -/
theorem adjustStep_steps {r : Req} {amount : Int} {s : State} (hvalid : s.cld.valid = true) (hne : amount ≠ 0)
    (hsize : amount.natAbs ≤ 2 ^ 31) (hlo : 0 ≤ (s.cld.counts : Int) + amount) (hhi : (s.cld.counts : Int) + amount < calEnd) :
    let t := calOfCounts ((s.cld.counts : Int) + amount).toNat
    s.adjustStep r 0 amount =
      (s.calStep t (dowPlus s.cld.dow ((calDays t : Int) - (calDays s.cld.time : Int)))).cldAdjusted r 0 amount := by
  unfold State.adjustStep
  dsimp only
  rw [if_neg (by simpa using hsize), if_neg (by simp [hvalid]), if_neg hne,
    if_neg (by simp only [Bool.or_eq_true, decide_eq_true_eq]; omega)]

/-- A step of 0 counts, and does nothing else (R340). -/
theorem adjustStep_zero {r : Req} {s : State} (hvalid : s.cld.valid = true) : s.adjustStep r 0 0 =
    ({ s with cld := { s.cld with adjSeq := (s.cld.adjSeq + 1) % 2 ^ 32 } }).cldAdjusted r 0 0 := by
  unfold State.adjustStep
  dsimp only
  rw [if_neg (by decide), if_neg (by simp [hvalid]), if_pos rfl]

/-- A slew within its limit replaces the one that runs (R341). -/
theorem adjustSlew_slews {r : Req} {amount : Int} {s : State} (hvalid : s.cld.valid = true) (hsize : amount.natAbs ≤ 2 ^ 20) :
    s.adjustSlew r 1 amount = ({ s with cld := { s.cld with
      slew := amount, slewing := amount ≠ 0, adjSeq := (s.cld.adjSeq + 1) % 2 ^ 32 } }).cldAdjusted r 1 amount := by
  unfold State.adjustSlew
  dsimp only
  rw [if_neg (by decide), if_neg (by simp [hvalid]), if_neg (not_lt.mpr hsize)]

/-! ### CLD_ALARM_ACK (R343) -/

/-- A chain of changes, one to each of the alarms listed, makes each of them once. -/
theorem chain_onAlarm_alarm (f : Alarm → Alarm) (l : List (Fin 2)) (hl : l.Nodup) (s : State) (a : Fin 2) :
    (chain l (fun a s => s.onAlarm a f) s).cld.alarms[a] = if a ∈ l then f s.cld.alarms[a] else s.cld.alarms[a] := by
  induction l generalizing s with
  | nil => rfl
  | cons b l ih =>
    obtain ⟨hb, hl⟩ := List.nodup_cons.mp hl
    refine (ih hl (s.onAlarm b f)).trans ?_
    by_cases hab : a = b
    · subst hab
      rw [if_neg hb, if_pos List.mem_cons_self]
      exact upd_same ..
    · have hother : (s.onAlarm b f).cld.alarms[a] = s.cld.alarms[a] := upd_other _ _ _ _ hab
      rw [hother]
      simp only [List.mem_cons, hab, false_or]

/-- Settles O20: sets and steps load, a slew and an acknowledgement change their own fields. -/
theorem calendarCommandsComplete : Obligations.CalendarCommandsComplete := by
  refine ⟨fun r f s hs hok => ?_, fun r amount s hs hvalid hne hsize hlo hhi => ?_, fun r s hs hvalid => ?_,
    fun r amount s hs hvalid hsize => ?_, fun r mask s hs => ?_⟩
  · obtain ⟨s1, c, hset, ⟨htime, hdow, hahead, hslew, hseq⟩, hcld, hstop⟩ := cldSet_loads (r := r) (s := s.woken 0x0701) hok
    have hexec : exec (.cldSet r f) s = .next ((s.woken 0x0701).cldSet r f) := exec_served rfl hs
    refine ⟨s1, hexec.trans (congrArg _ hset), ?_⟩
    rw [hcld, atRangeEnd_eq]
    simp only [htime, hdow, hahead, hslew, hseq, hstop, woken_cld, Bool.true_and, Bool.false_or, and_self]
  · have hcld : (s.woken 0x0702).cld = s.cld := woken_cld _ s
    have hexec : exec (.cldAdjustStep r 0 amount) s = .next ((s.woken 0x0702).adjustStep r 0 amount) := exec_served rfl hs
    rw [adjustStep_steps (by rwa [hcld]) hne hsize (by rwa [hcld]) (by rwa [hcld]), hcld] at hexec
    generalize dowPlus _ _ = dow at hexec
    obtain ⟨⟨htime, -, hahead, hslew, hseq⟩, hkept⟩ :=
      calStep_loaded (calOfCounts ((s.cld.counts : Int) + amount).toNat) dow (s.woken 0x0702)
    obtain ⟨s1, hok, hs1⟩ := cldAdjusted_ok r 0 amount
      ((s.woken 0x0702).calStep (calOfCounts ((s.cld.counts : Int) + amount).toNat) dow)
    refine ⟨s1, hexec.trans (congrArg _ hok), ?_⟩
    simp only [hs1, htime, hahead, hslew, hseq, hkept, hcld, hvalid, Bool.true_and, and_self]
  · have hcld : (s.woken 0x0702).cld = s.cld := woken_cld _ s
    have hexec : exec (.cldAdjustStep r 0 0) s = .next ((s.woken 0x0702).adjustStep r 0 0) := exec_served rfl hs
    rw [adjustStep_zero (by rwa [hcld]), hcld] at hexec
    obtain ⟨s1, hok, hs1⟩ := cldAdjusted_ok r 0 0 { s.woken 0x0702 with
      cld := { s.cld with adjSeq := (s.cld.adjSeq + 1) % 2 ^ 32 } }
    exact ⟨s1, hexec.trans (congrArg _ hok), hs1⟩
  · have hcld : (s.woken 0x0702).cld = s.cld := woken_cld _ s
    have hexec : exec (.cldAdjustSlew r 1 amount) s = .next ((s.woken 0x0702).adjustSlew r 1 amount) := exec_served rfl hs
    rw [adjustSlew_slews (by rwa [hcld]) hsize, hcld] at hexec
    obtain ⟨s1, hok, hs1⟩ := cldAdjusted_ok r 1 amount { s.woken 0x0702 with
      cld := { s.cld with slew := amount, slewing := amount ≠ 0, adjSeq := (s.cld.adjSeq + 1) % 2 ^ 32 } }
    exact ⟨s1, hexec.trans (congrArg _ hok), hs1⟩
  · let named := (List.finRange 2).filter fun a => mask.getLsbD a.val
    let acked := chain named (fun a s => s.onAlarm a Alarm.ack) (s.woken 0x0703)
    refine ⟨{ acked with cld := { acked.cld with wake := false } }, (exec_served (c := .cldAlarmAck r mask) rfl hs :), rfl,
      fun a => ?_⟩
    have hacked := chain_onAlarm_alarm Alarm.ack named ((List.nodup_finRange 2).filter _) (s.woken 0x0703) a
    have hmem : a ∈ named ↔ mask.getLsbD a.val = true := by simp [named]
    rw [woken_cld] at hacked
    simp only [hmem] at hacked
    exact hacked

/-! ### The second boundary and a stopped crystal (R275, R333, R335, R345) -/

/-- Short of a carry, or beyond the range, no second boundary passes. -/
theorem secondBoundary_none {s : State} (h : s.cld.range = true ∨ s.cld.ahead = 0) : s.secondBoundary = s := by
  unfold State.secondBoundary
  rw [if_pos (by simpa using h)]

/-- The calendar after a second boundary but for its alarms (R333, R342). -/
theorem secondBoundary_besideAlarms {s : State} (hrange : s.cld.range = false) (hahead : s.cld.ahead ≠ 0) :
    besideAlarms s.secondBoundary = (withoutAlarms s.cld.second, s.flt) := by
  unfold State.secondBoundary
  rw [if_neg (by simp [hrange, hahead])]
  dsimp only
  split
  · rfl
  · refine chain_keeps besideAlarms _ _ (fun a s => ?_) _
    split
    · exact alarmFire_besideAlarms ..
    · rfl

/-- Settles O21: a carry moves the calendar by its second; the last count, a stop and the end of a slew change their own fields. -/
theorem calendarEventsComplete : Obligations.CalendarEventsComplete := by
  refine ⟨fun s hon hrange hahead => ?_, fun s h => ?_, fun c h => ?_, fun s hpow => ?_, fun s => rfl⟩
  · have hexec : exec .calSecondBoundary s = .next s.secondBoundary := by
      simp only [exec, execCalSecondBoundary, hon, if_true]
    have h := congrArg Prod.fst (secondBoundary_besideAlarms hrange hahead)
    have hmidnight : (calSeconds s.cld.time + 1) * 32768 / 32768 = calSeconds s.cld.time + 1 := by omega
    refine ⟨_, hexec, congrArg Calendar.time h, congrArg Calendar.ahead h, (congrArg Calendar.valid h :),
      (congrArg Calendar.dow h).trans ?_⟩
    simp only [withoutAlarms, Calendar.second, hmidnight]
  · simp only [exec, execCalSecondBoundary, secondBoundary_none h, ite_self]
  · have hlast : c.tick = { c.tick with valid := false, range := true } := by
      unfold Calendar.tick at h ⊢
      rw [atRangeEnd_eq] at h ⊢
      simp only [decide_eq_true h, decide_eq_false (not_lt.mpr h), Bool.and_false, Bool.or_true]
    exact ⟨congrArg Calendar.valid hlast, congrArg Calendar.range hlast⟩
  · have hexec : exec .calStopped s = .next (({ s with
        flt := { s.flt with calStop := true }, cld := { s.cld with valid := false } }).note .calStopped .calStopped .device []) := by
      simp only [exec, execCalStopped, hpow, Bool.not_true, Bool.false_eq_true, if_false]
    exact ⟨_, hexec, congrArg Flt.calStop (note_flt ..), note_cld .., note_self ..⟩

end Sys2Proof.Scope
end

section
/-!
SUPPORT. The guard commands: challenges, clears, tests and the certificate (R244, R245, R355, R356, R359, R365).
-/
namespace Sys2Proof.Scope

open Sys2Proof.Machine Sys2Proof.Laws

/-! ### What waking leaves to the guard -/

@[simp] theorem woken_guard (op : Nat) (s : State) : (s.woken op).guard = s.guard := by simp [State.guard]

@[simp] theorem woken_armedAfter (op : Nat) (r : Req) (s : State) : (s.woken op).armedAfter r = s.armedAfter r := by
  unfold State.armedAfter State.entry?
  rw [woken_scr]

@[simp] theorem woken_confirms (op : Nat) (r : Req) (mask : BitVec 16) (value : BitVec 32) (s : State) :
    (s.woken op).confirms r mask value = s.confirms r mask value := by
  simp [State.confirms, State.settled, State.entry?]

/-! ### The clear (R355, R365) -/

/-- A chain of changes, one to each of the sources listed, makes each of them once. -/
theorem chain_onGuard_srcs (f : GrdSrc → GrdSrc) {l : List (Fin 16)} (hl : l.Nodup) (s : State) (i : Fin 16) :
    (chain l (fun i s => s.onGuard i f) s).grd.srcs[i] = if i ∈ l then f s.grd.srcs[i] else s.grd.srcs[i] := by
  induction l generalizing s with
  | nil => rfl
  | cons j l ih =>
    obtain ⟨hj, hl⟩ := List.nodup_cons.mp hl
    refine (ih hl (s.onGuard j f)).trans ?_
    by_cases hij : i = j
    · subst hij
      rw [if_neg hj, if_pos List.mem_cons_self]
      exact upd_same ..
    · have hother : (s.onGuard j f).grd.srcs[i] = s.grd.srcs[i] := upd_other _ _ _ _ hij
      rw [hother]
      simp only [List.mem_cons, hij, false_or]

/-- The sources that a clear of a mask reaches: those that are set and have not declared since. -/
def clearedSources (mask since : BitVec 16) (s : State) : List (Fin 16) :=
  (s.guard.set mask).filter fun i => !since.getLsbD i.val

theorem mem_clearedSources (mask since : BitVec 16) (s : State) (i : Fin 16) :
    i ∈ clearedSources mask since s ↔ (mask.getLsbD i.val && s.guard.srcs[i].fired && !since.getLsbD i.val) = true := by
  simp only [clearedSources, Guard.set, allGuards, List.mem_filter, List.mem_finRange, true_and, Bool.and_eq_true]

/-- Beside the sources that it clears, a clear leaves Scribe and the guard's sources (R355). -/
theorem clearGuards_keeps (mask since : BitVec 16) (s : State) :
    (State.clearGuards mask since s).scr = s.scr ∧ (State.clearGuards mask since s).grd.srcs =
      (chain (clearedSources mask since s) (fun i s => s.onGuard i GrdSrc.clear) s).grd.srcs := by
  have hscr := chain_keeps State.scr (clearedSources mask since s) (fun i s => s.onGuard i GrdSrc.clear) (fun _ _ => rfl) s
  have hnotify (l : List (Fin 16)) (t : State) :
      (chain l State.grdNotify t).scr = t.scr ∧ (chain l State.grdNotify t).grd.srcs = t.grd.srcs :=
    ⟨chain_keeps State.scr l State.grdNotify (fun i s => by simp [State.grdNotify]) t,
      chain_keeps (fun s => s.grd.srcs) l State.grdNotify (fun i s => by simp) t⟩
  unfold State.clearGuards
  dsimp only
  rw [(hnotify _ _).1, (hnotify _ _).2]
  split
  · exact ⟨hscr, rfl⟩
  · exact ⟨(raise_scr ..).trans hscr, congrArg Guard.srcs (raise_grd ..)⟩

theorem clearGuards_srcs (mask since : BitVec 16) (s : State) (i : Fin 16) :
    (State.clearGuards mask since s).grd.srcs[i] =
      if mask.getLsbD i.val && s.guard.srcs[i].fired && !since.getLsbD i.val then s.grd.srcs[i].clear else s.grd.srcs[i] := by
  have hnodup : (clearedSources mask since s).Nodup := ((List.nodup_finRange 16).filter _).filter _
  rw [(clearGuards_keeps mask since s).2, chain_onGuard_srcs _ hnodup]
  simp only [mem_clearedSources]

/-! ### GRD_CLEAR_CONFIRM (R245) -/

/-- The challenge that is in hand, or was as the command was admitted, is the one confirmed. -/
theorem confirms_challenge {r : Req} {mask : BitVec 16} {challenge : BitVec 32} {c : Challenge} {s : State}
    (h : (s.settled 0x0802 r = none ∧ s.scr.challenge = some c ∧ c.session = r.session ∧ c.mask = mask ∧ c.value = challenge) ∨
      s.settled 0x0802 r = some (.confirms c)) : s.confirms r mask challenge = some c := by
  rcases h with ⟨hnow, hc, hsession, hmask, hvalue⟩ | hadmitted
  · simp [State.confirms, hnow, hc, Challenge.isOf, hsession, hmask, hvalue]
  · simp [State.confirms, hadmitted]

/-- A challenge that is confirmed now has been used. -/
theorem usedChallenge {r : Req} {mask : BitVec 16} {challenge : BitVec 32} {c : Challenge} {s : State}
    (hnow : s.settled 0x0802 r = none) (h : s.confirms r mask challenge = some c) :
    s.scr.challenge.filter (fun x => !Challenge.isOf r.session mask challenge x) = none := by
  simp only [State.confirms, hnow, Option.filter_eq_some_iff] at h
  obtain ⟨hc, hof⟩ := h
  simp [hc, hof]

/-- A confirmed clear uses its challenge, clears, and answers what is still set. -/
theorem execGrdClearConfirm_confirmed {r : Req} {mask : BitVec 16} {challenge : BitVec 32} {c : Challenge} {s : State}
    (hs : s.served 0x0802 r = true) (h : s.confirms r mask challenge = some c) :
    let used := s.scr.challenge.filter fun x => !Challenge.isOf r.session mask challenge x
    let s1 := State.clearGuards mask c.since { s.woken 0x0802 with scr := { s.scr with challenge := used } }
    exec (.grdClearConfirm r mask challenge) s = .next (s1.ok 0x0802 r (le 2 (guardMask (s1.guard.set mask)) ++ zeros 2)) := by
  refine (exec_served (c := .grdClearConfirm r mask challenge) rfl hs :).trans ?_
  simp only [woken_confirms, h, woken_scr]

/-- Settles O23: each guard command past its checks is its own effect; a clear reaches the sources of its mask once. -/
theorem guardCommandsComplete : Obligations.GuardCommandsComplete := by
  refine ⟨fun r mask s hs => ?_, fun r mask challenge c s hs hc => ?_, fun r i declares s hs hfitted => ?_,
    fun r offset length s hs hlo hhi => ?_, List.length_take_le _ _, fun s => rfl⟩
  · refine ⟨⟨r.session, mask, BitVec.ofNat 32 (Config.freeNat s.draws), 0⟩, _, rfl, rfl, rfl, rfl, ?_⟩
    refine (exec_served (c := .grdClearArm r mask) rfl hs :).trans ?_
    simp only [State.fresh, woken_draws, woken_scr, woken_armedAfter]
  · have hconfirms := confirms_challenge hc
    refine ⟨_, execGrdClearConfirm_confirmed hs hconfirms, fun hnow => ?_, fun i => ?_⟩
    · exact (congrArg Scribe.challenge (clearGuards_keeps mask c.since _).1).trans (usedChallenge hnow hconfirms)
    · refine (clearGuards_srcs mask c.since _ i).trans ?_
      change (if mask.getLsbD i.val && (s.woken 0x0802).guard.srcs[i].fired && !c.since.getLsbD i.val then
        (s.woken 0x0802).grd.srcs[i].clear else (s.woken 0x0802).grd.srcs[i]) = _
      rw [woken_guard, woken_grd]
      rfl
  · refine (exec_served (c := .grdTest r i.val declares) rfl hs :).trans ?_
    have hfused : ¬ ((s.woken 0x0803).guard.srcs[i.val].fused = true) := by
      rw [woken_guard, hfitted]
      decide
    simp only [idx?_val, woken_grd]
    exact congrArg _ (if_neg hfused)
  · refine (exec_served (c := .idCertRead r offset length) rfl hs :).trans ?_
    rw [if_neg (by simp only [Bool.or_eq_true, decide_eq_true_eq]; omega)]

end Sys2Proof.Scope
end

section
/-!
SUPPORT. The panel commands: tables, images and the placing of requests (R246, R247, R369, R372, R376, R378).
-/
namespace Sys2Proof.Scope

open Sys2Proof.Machine Sys2Proof.Laws

/-! ### What the panel's judgements look at -/

theorem updateFault_congr {s t : State} (heff : t.eff = s.eff) (hpnl : t.pnl = s.pnl) : t.updateFault = s.updateFault := by
  unfold State.updateFault State.panelOn
  rw [live_congr heff, hpnl]

theorem canRefresh_congr {s t : State} (heff : t.eff = s.eff) (hpnl : t.pnl = s.pnl) : t.canRefresh = s.canRefresh := by
  simp only [State.canRefresh, State.panelOn, State.refreshReq, live_congr heff, hpnl]

/-- A request is judged without a fault only while the panel is without one (R375). -/
theorem updateFault_none {g : Fin 8} {transition : Nat} {s : State} (h : s.updateFault g.val transition = none) :
    s.pnl.fault = false := by
  unfold State.updateFault at h
  simp only [idx?_val] at h
  split at h
  · cases h
  · split at h
    · cases h
    · next hfault => simpa using hfault

/-! ### Tables (R372) -/

/-- A first part that is not the last is kept in the staging buffer. -/
theorem tableLoad_staged {t b : Nat} (r : Req) (data : List Byte) (s : State) (ht : t ≤ 7) (hb : b ≤ 7) :
    s.tableLoad r t b false 0 data = ({ s with pnl := { s.pnl with staging := some (t, b, data) } }).ok 0x0901 r [] := by
  unfold State.tableLoad
  rw [if_neg (by simp; omega), if_pos rfl]
  rfl

/-- The panel with a table in place of that of its transition and band. -/
def tableLoaded (t b : Nat) (data : List Byte) (p : Panel) : Panel :=
  { p with staging := none, tables := (p.tables.filter fun e => !tableOf t b e) ++ [(t, b, data)] }

/-- A whole table without a fault replaces the one of its transition and band. -/
theorem tableLoad_whole {t b : Nat} (r : Req) {data : List Byte} (s : State) (ht : t ≤ 7) (hb : b ≤ 7)
    (h : tableFault data = none) :
    s.tableLoad r t b true 0 data = ({ s with pnl := tableLoaded t b data s.pnl }).ok 0x0901 r [] := by
  unfold State.tableLoad
  rw [if_neg (by simp; omega), if_pos rfl]
  simp only [h]
  rfl

theorem tableOf_iff (t b : Nat) (e : Nat × Nat × List Byte) : tableOf t b e = true ↔ (e.1, e.2.1) = (t, b) := by
  simp [tableOf]

theorem tableLoaded_same (t b : Nat) (data : List Byte) (p : Panel) : (tableLoaded t b data p).table? t b = some data := by
  have hgone : (p.tables.filter fun e => !tableOf t b e).find? (tableOf t b) = none := by
    rw [List.find?_eq_none]
    intro e he
    simpa using (List.mem_filter.mp he).2
  have hnew : tableOf t b (t, b, data) = true := (tableOf_iff ..).mpr rfl
  rw [Panel.table?, tableLoaded, List.find?_append, hgone]
  simp [hnew]

theorem tableLoaded_other {t b t' b' : Nat} (data : List Byte) (p : Panel) (h : (t', b') ≠ (t, b)) :
    (tableLoaded t b data p).table? t' b' = p.table? t' b' := by
  have hother (e : Nat × Nat × List Byte) (he : tableOf t' b' e = true) : tableOf t b e = false := by
    rw [Bool.eq_false_iff]
    intro hsame
    exact h (((tableOf_iff ..).mp he).symm.trans ((tableOf_iff ..).mp hsame))
  have hkept : (p.tables.filter fun e => !tableOf t b e).find? (tableOf t' b') = p.tables.find? (tableOf t' b') := by
    rw [List.find?_filter]
    refine congrArg (fun q => p.tables.find? q) (funext fun e => ?_)
    cases he : tableOf t' b' e with
    | false => simp
    | true => simp [hother e he]
  have hnew : tableOf t' b' (t, b, data) = false := by
    rw [Bool.eq_false_iff]
    exact fun hsame => h ((tableOf_iff ..).mp hsame).symm
  rw [Panel.table?, tableLoaded, List.find?_append, hkept, Panel.table?]
  simp [hnew]

/-! ### The rails while a request stands (R374) -/

theorem busy_of_region {p : Panel} {g : Fin 8} (h : (p.regions[g].run.isSome || p.regions[g].slot.isSome) = true) :
    p.busy = true := by
  rw [Panel.busy, List.any_eq_true]
  exact ⟨p.regions[g], by simp, h⟩

/-- Outside a fault and a closeout the rails come up for a region with a request. -/
theorem steer_up {s : State} {g : Fin 8} (hfault : s.pnl.fault = false) (hclose : s.pnl.closeout = 0)
    (h : (s.pnl.regions[g].run.isSome || s.pnl.regions[g].slot.isSome) = true) : s.steer.pnl.railDown = false := by
  unfold State.steer Panel.steer
  dsimp only
  rw [if_neg (by omega), if_neg (by simp [hfault, hclose]), if_pos (busy_of_region h)]

/-! ### The placing of a request (R376, R378) -/

/-- A request in the slot: what it supersedes is told, and its region holds it (R376). -/
theorem slotReq_pnl (g : Fin 8) (q : PnlReq) (s : State) :
    (s.slotReq g q).pnl = (s.onRegion g fun x => { x with slot := some q }).pnl := by
  unfold State.slotReq
  dsimp only
  split
  · next old _ =>
    have hpnl : (s.pnlDone g old .superseded).pnl = s.pnl := pnlDone_keeps State.pnl (fun _ _ => raise_pnl ..) g old _ s
    simp only [State.onRegion, hpnl]
  · rfl

/-- What the placing of a request makes of its region. -/
def placed (s : State) (g : Fin 8) (q : PnlReq) (x : Region) : Region :=
  match s.pnl.regions[g].run with
  | none =>
    if !s.pnl.regions[g].dirty || q.refresh || !s.canRefresh then { x with run := some q.run }
    else if s.metering then { x with slot := some q, run := some s.refreshReq.run }
    else { x with slot := some q }
  | some run => { x with slot := some q, run := some { run with cut := run.cut || (q.urgent && !run.req.refresh) } }

/-- The state in which a placed request stands, before the rails follow. -/
theorem placeReq_eq (g : Fin 8) (q : PnlReq) (s : State) : ∃ u : State, s.placeReq g q = u.steer ∧
    u.pnl.fault = s.pnl.fault ∧ u.pnl.closeout = s.pnl.closeout ∧ u.pnl.regions[g] = placed s g q s.pnl.regions[g] ∧
    ∀ h, h ≠ g → u.pnl.regions[h] = s.pnl.regions[h] := by
  have hother (f : Region → Region) (h : Fin 8) (hh : h ≠ g) : (s.onRegion g f).pnl.regions[h] = s.pnl.regions[h] :=
    onRegion_other f s hh
  have hslot (h : Fin 8) (hh : h ≠ g) : (s.slotReq g q).pnl.regions[h] = s.pnl.regions[h] := by
    rw [slotReq_pnl]
    exact hother _ h hh
  have hboth (f : Region → Region) (h : Fin 8) (hh : h ≠ g) :
      ((s.slotReq g q).onRegion g f).pnl.regions[h] = s.pnl.regions[h] :=
    (onRegion_other f _ hh).trans (hslot h hh)
  have hslotted : (s.slotReq g q).pnl.regions[g] = { s.pnl.regions[g] with slot := some q } := by
    rw [slotReq_pnl]
    exact onRegion_same g _ s
  have hrun (f : Region → Region) : ((s.slotReq g q).onRegion g f).pnl.regions[g] = f { s.pnl.regions[g] with slot := some q } := by
    rw [onRegion_same, hslotted]
  have hfault : (s.slotReq g q).pnl.fault = s.pnl.fault := by rw [slotReq_pnl]; rfl
  have hclose : (s.slotReq g q).pnl.closeout = s.pnl.closeout := by rw [slotReq_pnl]; rfl
  unfold placed State.placeReq
  cases hr : s.pnl.regions[g].run with
  | none =>
    dsimp only
    by_cases hnow : (!s.pnl.regions[g].dirty || q.refresh || !s.canRefresh) = true
    · rw [if_pos hnow, if_pos hnow]
      exact ⟨_, rfl, rfl, rfl, onRegion_same g _ s, hother _⟩
    · rw [if_neg hnow, if_neg hnow]
      by_cases hmeters : s.metering = true
      · rw [if_pos hmeters, if_pos hmeters]
        exact ⟨_, rfl, hfault, hclose, hrun _, hboth _⟩
      · rw [if_neg hmeters, if_neg hmeters]
        exact ⟨_, rfl, hfault, hclose, by rw [hslotted]; simp only [hr], hslot⟩
  | some run => exact ⟨_, rfl, hfault, hclose, hrun _, hboth _⟩

/-- The state in which a PNL_UPDATE that is served places its request. -/
def updateWoken (s : State) : State := { s.woken 0x0903 with draws := s.draws + 1 }

/-- A PNL_UPDATE without a fault, outside a closeout and not judged at its admission, places its request (R376). -/
theorem execPnlUpdate_places {r : Req} {g : Fin 8} {transition : Nat} {urgent : Bool} {s : State} (hs : s.served 0x0903 r = true)
    (hnow : s.settled 0x0903 r = none) (hfault : s.updateFault g.val transition = none) (hclose : s.pnl.closeout = 0) :
    ∃ n, exec (.pnlUpdate r g.val transition urgent) s =
      .next (((updateWoken s).placeReq g ⟨n, transition, urgent, false⟩).ok 0x0903 r (le 4 n)) := by
  let s0 := s.woken 0x0903
  have hsettled : s0.settled 0x0903 r = none := by
    unfold State.settled State.entry? at hnow ⊢
    rw [woken_scr]
    exact hnow
  have hjudged : s0.updateFault g.val transition = none :=
    (congrFun (congrFun (updateFault_congr (woken_eff _ s) (woken_pnl _ s)) _) _).trans hfault
  have hopen : (updateWoken s).closingOut = false := by
    simp [State.closingOut, updateWoken, hclose, served_noWarning hs rfl]
  have hregion : Fin.ofNat 8 g.val = g := Fin.ofNat_val_eq_self g
  refine ⟨freshFrom (2 ^ 32) (Config.freeNat s.draws) s.pnl.numbers, ?_⟩
  refine (exec_served (c := .pnlUpdate r g.val transition urgent) rfl hs :).trans ?_
  have hplaced : s0.panelUpdate g.val transition urgent = ((updateWoken s).placeReq g
      ⟨freshFrom (2 ^ 32) (Config.freeNat s.draws) s.pnl.numbers, transition, urgent, false⟩, .ok,
      le 4 (freshFrom (2 ^ 32) (Config.freeNat s.draws) s.pnl.numbers)) := by
    have hfresh : s0.fresh = (Config.freeNat s.draws, updateWoken s) := by
      simp only [State.fresh, s0, woken_draws, updateWoken]
    unfold State.panelUpdate
    simp only [hjudged, hfresh, hopen, hregion, s0, woken_pnl, Bool.false_eq_true, if_false]
  rw [State.pnlUpdate, acted_now _ hsettled, hplaced, State.ok]

/-- What a placed request makes of its region depends on the panel and the words in force. -/
theorem placed_updateWoken (s : State) (g : Fin 8) (q : PnlReq) (x : Region) : placed (updateWoken s) g q x = placed s g q x := by
  have hpnl : (updateWoken s).pnl = s.pnl := woken_pnl _ s
  have heff : (updateWoken s).eff = s.eff := woken_eff _ s
  have hmetering : (updateWoken s).metering = s.metering := congrArg Startup.metering (woken_dev_startup _ s)
  unfold placed State.refreshReq
  rw [canRefresh_congr heff hpnl, hpnl, hmetering, live_congr heff]

/-- A PNL_UPDATE that places its request, with what its region, the others and the rails then hold. -/
theorem execPnlUpdate_placed {r : Req} {g : Fin 8} {transition : Nat} {urgent : Bool} {s : State} (hs : s.served 0x0903 r = true)
    (hnow : s.settled 0x0903 r = none) (hfault : s.updateFault g.val transition = none) (hclose : s.pnl.closeout = 0) :
    ∃ (n : Nat) (u : State), exec (.pnlUpdate r g.val transition urgent) s = .next (u.steer.ok 0x0903 r (le 4 n)) ∧
      u.pnl.fault = false ∧ u.pnl.closeout = 0 ∧
      u.pnl.regions[g] = placed s g ⟨n, transition, urgent, false⟩ s.pnl.regions[g] ∧
      ∀ h, h ≠ g → u.pnl.regions[h] = s.pnl.regions[h] := by
  obtain ⟨n, hexec⟩ := execPnlUpdate_places (urgent := urgent) hs hnow hfault hclose
  obtain ⟨u, hu, hufault, huclose, hregion, hothers⟩ := placeReq_eq g ⟨n, transition, urgent, false⟩ (updateWoken s)
  have hpnl : (updateWoken s).pnl = s.pnl := woken_pnl _ s
  rw [hpnl] at hufault huclose
  rw [placed_updateWoken] at hregion
  simp only [hpnl] at hregion hothers
  exact ⟨n, u, hu ▸ hexec, hufault.trans (updateFault_none hfault), huclose.trans hclose, hregion, hothers⟩

/-- Settles O25: parts and tables, pixels of a region, and a request that is answered or placed. -/
theorem panelCommandsComplete : Obligations.PanelCommandsComplete := by
  refine ⟨fun r t b data s hs ht hb => ?_, fun r t b data s hs ht hb hsound => ?_, fun r g offset data s hs hfits => ?_,
    fun r g transition urgent st bs s hs hsettled => ?_, fun r g transition urgent s hs hnow hfault hclose hidle => ?_,
    fun r g transition urgent run s hs hnow hfault hclose hrun => ?_⟩
  · exact (exec_served (c := .pnlTableLoad r t b false 0 data) rfl hs :).trans (congrArg _ (tableLoad_staged r data _ ht hb))
  · refine ⟨_, (exec_served (c := .pnlTableLoad r t b true 0 data) rfl hs :).trans
      (congrArg _ (tableLoad_whole r _ ht hb hsound)), rfl, tableLoaded_same .., fun t' b' hne => ?_⟩
    refine (tableLoaded_other data _ hne).trans ?_
    rw [woken_pnl]
  · refine (exec_served (c := .pnlImageWrite r g.val offset data) rfl hs :).trans ?_
    have hlive : (s.woken 0x0902).live = s.live := live_congr (woken_eff _ s)
    simp only [idx?_val, hlive, woken_pnl]
    rw [if_neg (not_lt.mpr hfits)]
  · refine (exec_served (c := .pnlUpdate r g transition urgent) rfl hs :).trans ?_
    have hsettled' : (s.woken 0x0903).settled 0x0903 r = some (.reply st bs) := by
      unfold State.settled State.entry? at hsettled ⊢
      rw [woken_scr]
      exact hsettled
    exact congrArg _ (acted_settled _ hsettled')
  · obtain ⟨n, u, hexec, hufault, huclose, hregion, hothers⟩ := execPnlUpdate_placed (urgent := urgent) hs hnow hfault hclose
    rw [placed, hidle] at hregion
    refine ⟨n, u.steer, hexec, fun hruns => ?_, fun hdirty hcan hmeters => ?_, steer_up hufault huclose (g := g) ?_,
      fun h hh => (steer_region h u).trans (hothers h hh)⟩
    · have hnow' : (!s.pnl.regions[g].dirty || false || !s.canRefresh) = true := by
        rcases hruns with h | h <;> simp only [h] <;> simp
      simp only [hnow', if_true] at hregion
      rw [steer_region, hregion]
      rfl
    · simp only [hdirty, hcan, hmeters, Bool.not_true, Bool.or_self, Bool.false_eq_true, if_false, if_true] at hregion
      rw [steer_region, hregion]
      exact ⟨rfl, rfl⟩
    · rw [hregion]
      dsimp only
      split
      · rfl
      · split <;> simp
  · obtain ⟨n, u, hexec, -, -, hregion, hothers⟩ := execPnlUpdate_placed (urgent := urgent) hs hnow hfault hclose
    rw [placed, hrun] at hregion
    refine ⟨n, u.steer, hexec, ?_, ?_, fun h hh => (steer_region h u).trans (hothers h hh)⟩
    · rw [steer_region, hregion]
    · rw [steer_region, hregion]

end Sys2Proof.Scope
end

section
/-!
SUPPORT. Log writes and the scans of the auxiliary ADC (R298, R315, R317, R319, R325, R326).
-/
namespace Sys2Proof.Scope

open Sys2Proof.Machine Sys2Proof.Laws

/-! ### The log (R325, R326) -/

theorem execEventLogWrite_serving {s : State} (h : s.coresServe = true) : exec (.eventLogWrite none) s = .next s.writeLog := by
  simp only [exec, execEventLogWrite, h, Bool.not_true, Bool.false_eq_true, if_false]

/-- The oldest item that waits goes into the log. -/
theorem writeLog_item {item : LogItem} {rest : List LogItem} {s : State} (h : s.ev.logQ = item :: rest) :
    s.writeLog =
      let s1 : State := { s with ev := { s.ev with logQ := rest }, anv := s.anv.logEvent item.ev }
      if item.ev.code = Ev.code .logGap then s1.blot .logGap else s1 := by
  unfold State.writeLog
  simp only [h]

/-- Once the queue has drained, a gap that is owed goes into the log. -/
theorem writeLog_gap {g : Nat × Nat} {s : State} (hqueue : s.ev.logQ = []) (hgap : s.ev.gap = some g) :
    s.writeLog = ({ s with ev := { s.ev with gap := none }, anv := s.anv.logEvent (s.gapItem g).ev }).blot .logGap := by
  unfold State.writeLog
  simp only [hqueue, hgap]

/-! ### Scans (R317) -/

/-- The results of the scans, and the scans that are due. -/
def scanState (s : State) : Vector Word 16 × List Nat := (s.anv.auxRes, s.anv.auxDue)

theorem tempCheck_scanState (s : State) : scanState s.tempCheck = scanState s := by
  unfold State.tempCheck scanState
  dsimp only
  split
  · split
    · rfl
    · rw [note_anv_auxRes, note_anv_auxDue]
  · split <;> rfl

theorem refCheck_scanState (s : State) : scanState s.refCheck = scanState s := by
  unfold State.refCheck scanState
  dsimp only
  split
  · split
    · rfl
    · rw [note_anv_auxRes, note_anv_auxDue]
  · split <;> rfl

theorem vbatReading_scanState (s : State) : scanState s.vbatReading = scanState s := by
  unfold State.vbatReading scanState
  dsimp only
  split
  · rw [note_anv_auxRes, note_anv_auxDue]
  · rfl

theorem hallReading_scanState (i : Fin 16) (s : State) : scanState (s.hallReading i) = scanState s := by
  unfold State.hallReading
  dsimp only
  split <;> rfl

/-- The mean of the conversions in the unit of the input (R315, R317). -/
def scanned (i : Fin 16) (codes : List (BitVec 12)) (s : State) : Word :=
  toF32 (auxValue i s.pnl.railSel (meanR (codes.map fun c => (c.toNat : Rat))))

/-- The result of a scan is stored, and the next scan is at the head of the queue. -/
def scanStored (i : Fin 16) (codes : List (BitVec 12)) (s : State) : State :=
  { s with anv := { s.anv with auxRes := upd s.anv.auxRes i fun _ => scanned i codes s, auxDue := s.anv.auxDue.tail } }

/-- No check that judges a result changes one (R319). -/
theorem auxScan_scanState (i : Fin 16) (codes : List (BitVec 12)) (s : State) :
    scanState (s.auxScan i codes) = scanState (scanStored i codes s) := by
  unfold State.auxScan
  dsimp only
  split
  iterate 4 exact tempCheck_scanState _
  · exact vbatReading_scanState _
  iterate 3 exact hallReading_scanState _ _
  · exact refCheck_scanState _
  · rfl

/-- A scan at the head of the queue with all its conversions runs (R317). -/
theorem execAuxScan_runs {i : Fin 16} {codes : List (BitVec 12)} {rest : List Nat} {s : State} (hpow : s.powered = true)
    (hdue : s.anv.auxDue = i.val :: rest) (hcodes : codes.length = s.scanCount i) :
    exec (.auxScan i codes) s = .next (s.auxScan i codes) := by
  have hhead : s.anv.auxDue.head? = some i.val := by rw [hdue]; rfl
  simp only [exec, execAuxScan, hpow, hhead, hcodes, decide_true, Bool.and_self, if_true]

/-- Any other scan waits. -/
theorem execAuxScan_waits {i : Fin 16} {codes : List (BitVec 12)} {s : State}
    (h : s.anv.auxDue.head? ≠ some i.val ∨ codes.length ≠ s.scanCount i) : exec (.auxScan i codes) s = .next s := by
  have hnot : ¬((s.powered && (decide (s.anv.auxDue.head? = some i.val) && decide (codes.length = s.scanCount i))) = true) := by
    rcases h with h | h <;> simp [h]
  exact congrArg _ (if_neg hnot)

/-! ### VBAT (R298) -/

/-- A reading of VBAT below 2.2 V is reported, one at or above 2.3 V ends the report. -/
theorem vbatReading_reports (s : State) :
    (s.auxRes 8 < 11 / 5 → s.vbatReading.pwr.vbatLow = true ∧ Blotted (blotBit .vbatLow) s.vbatReading) ∧
      (23 / 10 ≤ s.auxRes 8 → s.vbatReading.pwr.vbatLow = false) := by
  unfold State.vbatReading
  refine ⟨fun hlow => ?_, fun hhigh => ?_⟩
  · dsimp only
    rw [if_pos hlow, note_pwr, decide_eq_true hlow]
    exact ⟨rfl, note_self _ _ _ _ _⟩
  · have hnot : ¬ s.auxRes 8 < 11 / 5 := not_lt.mpr (le_trans (by norm_num) hhigh)
    dsimp only
    rw [if_neg hnot, decide_eq_false hnot, decide_eq_false (not_lt.mpr hhigh), Bool.and_false]
    rfl

/-- Settles O40: the queue to the log and the gap behind it; a scan stores its mean, and VBAT is judged by its thresholds. -/
theorem logAndAuxRowsComplete : Obligations.LogAndAuxRowsComplete := by
  refine ⟨fun item rest s hs hq => ?_, fun g s hs hq hgap => ?_, fun s => ⟨rfl, rfl, rfl⟩, fun i codes s h => execAuxScan_waits h,
    fun i codes rest s hpow hdue hcodes => ?_⟩
  · rw [execEventLogWrite_serving hs, writeLog_item hq]
  · rw [execEventLogWrite_serving hs, writeLog_gap hq hgap]
    exact ⟨_, rfl, rfl, rfl, blot_self _ _⟩
  · have hresults := auxScan_scanState i codes s
    have hres : (s.auxScan i codes).anv.auxRes = upd s.anv.auxRes i fun _ => scanned i codes s := congrArg Prod.fst hresults
    have hqueue : (s.auxScan i codes).anv.auxDue = s.anv.auxDue.tail := congrArg Prod.snd hresults
    refine ⟨_, execAuxScan_runs hpow hdue hcodes, fun j => ?_, hqueue.trans (by rw [hdue]; rfl), fun hi => ?_⟩
    · rw [hres]
      by_cases hj : j = i
      · rw [hj, upd_same, if_pos rfl]
        rfl
      · rw [upd_other _ _ _ _ hj, if_neg hj]
    · subst hi
      have hvalue : f32D (s.auxScan 8 codes).anv.auxRes[(8 : Fin 16)] = (scanStored 8 codes s).auxRes 8 :=
        congrArg (fun v : Vector Word 16 => f32D v[(8 : Fin 16)]) hres
      rw [hvalue]
      exact vbatReading_reports (scanStored 8 codes s)

end Sys2Proof.Scope
end

section
/-!
SUPPORT. The loss and the return of the SYS crystal (R260, R261, R280, R282).
-/
namespace Sys2Proof.Scope

open Sys2Proof.Machine Sys2Proof.Laws

/-! ### A change of reference (R260, R261) -/

/-- The frames of every channel are bridged from the change on. -/
theorem changeRef_gaps (before : Nat) (s : State) (k : Fin 136) : (s.changeRef before).chans[k].gaps =
    ⟨.clock, s.clock - before * (frameTicks * tickParts), none⟩ :: s.chans[k].gaps := by
  simp [State.changeRef, Chan.openGap]

/-! ### A trim of the backup oscillator that waits (R280) -/

theorem trimNote_flt (addr : Nat) (old new : Word) (s : State) : (s.trimNote addr old new).flt = s.flt := by
  unfold State.trimNote
  split <;> simp

theorem trimNote_startup (addr : Nat) (old new : Word) (s : State) :
    (s.trimNote addr old new).dev.startup = s.dev.startup := by
  unfold State.trimNote
  split <;> simp

/-- Off the backup oscillator its trim that waits takes effect, and touches neither the faults, the channels, the timebase nor start-up. -/
theorem bkupDueNow_keeps {s : State} (h : s.flt.onBackup = false) : s.bkupDueNow.flt = s.flt ∧ s.bkupDueNow.chans = s.chans ∧
    s.bkupDueNow.tb = s.tb ∧ s.bkupDueNow.dev.startup = s.dev.startup ∧ s.bkupDueNow.trim.bkupDue = none := by
  unfold State.bkupDueNow
  split
  · unfold State.askBkup
    rw [if_neg (by simp [h])]
    refine ⟨trimNote_flt .., setOsc_chans .., setOsc_tb .., trimNote_startup .., ?_⟩
    rw [setOsc_trim]
  · next hdue => exact ⟨rfl, rfl, rfl, rfl, hdue⟩

/-! ### The rows (R260, R261, R282) -/

/-- A crystal that is lost while SYS runs from it: the backup oscillator takes over, degraded. -/
theorem execXtalFail_lost {s : State} (hpow : s.powered = true) (h : s.flt.onBackup = false) :
    exec .xtalFail s = .next ((({ s with flt := { s.flt with
      xtalOk := false, xtalHeld10 := false, xreturn := false, onBackup := true, degraded := true } }).changeRef
        ((Config.relockFrames s.flt.frames).1 % 3)).note .timebaseDegraded .xtalFail .device []) := by
  simp only [exec, execXtalFail, State.xtalFail, hpow, h, Bool.false_eq_true, if_true, if_false]

/-- A crystal that has come back: SYS returns to it where it may or was asked to, else a host may ask. -/
theorem execXtalReturn_running {s : State} (hpow : s.powered = true) (hpassed : s.dev.startup.xtalPassed = true)
    (h : s.flt.onBackup = true) : exec .xtalReturn s = .next
      (if !bit (s.live .fltCfg) 0 && !s.flt.xreturn then { s with flt := { s.flt with xtalOk := true, xtalHeld10 := true } }
      else ((({ s with flt := { s.flt with
        xtalOk := true, xtalHeld10 := false, onBackup := false, degraded := false, xreturn := false } }).changeRef 0).raise
          .xtalReturn .device []).bkupDueNow) := by
  simp only [exec, execXtalReturn, State.xtalReturn, hpow, hpassed, h, Bool.not_true, Bool.and_self, Bool.false_eq_true, if_true,
    if_false]

/-- Settles O42: each row of the crystal by what it changes of the faults, and the gaps it opens. -/
theorem crystalRowsComplete : Obligations.CrystalRowsComplete := by
  refine ⟨fun s hpow h => ?_, fun ppm s hpow h => ?_, fun s hpow hpassed h => ⟨fun hreturns => ?_, fun hauto hasked => ?_⟩,
    fun s hpow hpassed => ⟨?_, ?_⟩⟩
  · refine ⟨_, execXtalFail_lost hpow h, note_flt .., fun k => ?_, note_self .., note_tb .., note_pts ..⟩
    exact (congrArg (fun v : Vector Chan 136 => v[k].gaps) (note_chans ..)).trans (changeRef_gaps ..)
  · simp only [exec, execXtalRate, hpow, h, Bool.and_self, if_true]
  · have hnot : ¬((!bit (s.live .fltCfg) 0 && !s.flt.xreturn) = true) := by
      rcases hreturns with hr | hr <;> simp [hr]
    have hexec := execXtalReturn_running hpow hpassed h
    rw [if_neg hnot] at hexec
    obtain ⟨hflt, hchans, htb, -, hbkup⟩ := bkupDueNow_keeps (s := ((({ s with flt := { s.flt with
      xtalOk := true, xtalHeld10 := false, onBackup := false, degraded := false, xreturn := false } }).changeRef 0).raise
        .xtalReturn .device [])) (by rw [raise_flt]; rfl)
    refine ⟨_, hexec, hflt.trans (raise_flt ..), fun k => ?_, hbkup, htb.trans (raise_tb ..)⟩
    refine (congrArg (fun v : Vector Chan 136 => v[k].gaps) (hchans.trans (raise_chans ..))).trans ((changeRef_gaps ..).trans ?_)
    rw [Nat.zero_mul, Nat.sub_zero]
    rfl
  · rw [execXtalReturn_running hpow hpassed h, if_pos (by simp [hauto, hasked])]
  · obtain ⟨hflt, -, -, hstartup, -⟩ := bkupDueNow_keeps (s :=
      ({ s with flt := { s.flt with xtalOk := true, onBackup := false } }).phaseEnds fun x => { x with xtalPassed := true }) rfl
    refine ⟨_, ?_, (congrArg Startup.xtalPassed hstartup), hflt⟩
    simp only [exec, execCrystalAccepted, hpow, hpassed, Bool.not_true, Bool.or_self, Bool.false_eq_true, if_false]
  · refine ⟨_, ?_, rfl, rfl, blot_self _ (({ s with flt := { s.flt with degraded := true } }).phaseEnds fun x =>
      { x with xtalPassed := true })⟩
    simp only [exec, execXtalStartTimeout, hpow, hpassed, Bool.not_true, Bool.or_self, Bool.false_eq_true, if_false]

end Sys2Proof.Scope
end

section
/-!
SUPPORT. The power-fail sequence: what the load shedding leaves of the warning, the entries, tails and checkpoints, the withdrawal
(R265, R299 to R308).
-/
namespace Sys2Proof.Scope

open Sys2Proof.Machine Sys2Proof.Laws

/-! ### What the load shedding leaves (R300) -/

/-- The parts of the state that carry a warning: the supplies, the guard and the wideband path. -/
def warned (s : State) : Power × Guard × Wideband := (s.pwr, s.grd, s.wb)

theorem abandonActivation_warned (s : State) : warned s.abandonActivation = warned s :=
  chain_keeps warned _ _ (fun r s => by simp [warned]) s

theorem triggerBy_warned (e : Ev) (t : Stamp) (s : State) : warned (s.triggerBy e t) = warned s := by
  unfold State.triggerBy State.trigger State.startCapture
  dsimp only
  repeat' split
  all_goals simp [warned]

theorem dueTrigger_warned (d : PqDue) (s : State) : warned (s.dueTrigger d) = warned s := by
  unfold State.dueTrigger
  repeat' split
  all_goals simp only [triggerBy_warned]

theorem enterDue_warned (d : PqDue) (s : State) : warned (s.enterDue d) = warned s := by
  rw [State.enterDue, dueTrigger_warned]
  repeat' split
  all_goals simp [warned]

theorem flushDue_warned (s : State) : warned s.flushDue = warned s :=
  chain_keeps warned _ _ enterDue_warned _

theorem freezeCount_warned (b : Fin 2) (half : Bool) (s : State) : warned (s.freezeCount b half) = warned s := by
  unfold State.freezeCount
  dsimp only
  split <;> rfl

theorem powerFailEvents_warned (s : State) : warned s.powerFailEvents = warned s := by
  rw [State.powerFailEvents, flushDue_warned]
  refine chain_keeps warned _ _ (fun b s => chain_keeps warned _ _ (fun k s => ?_) s) s
  split
  · cases k
    · exact freezeCount_warned b true _
    · rfl
    · exact freezeCount_warned b true _
  · rfl

theorem dropPending_warned (g : Fin 8) (s : State) : warned (s.dropPending g) = warned s := by
  unfold State.dropPending State.endRun State.pnlDone
  dsimp only
  repeat' split
  all_goals simp [warned]

/-- A new panel state carries no part of a warning. -/
theorem panel_warned (p : Panel) (s : State) : warned { s with pnl := p } = warned s := rfl

theorem closeout_warned (s : State) : warned s.closeout = warned s := by
  unfold State.closeout State.steer
  dsimp only
  rw [panel_warned, panel_warned, chain_keeps warned _ _ dropPending_warned]
  exact chain_keeps warned _ (fun g s => s.onRegion g fun x => { x with dirty := true }) (fun _ _ => rfl) s

theorem wbDiscard_stops (s : State) : (s.wbDiscard true).wb.running = false := by
  simp [State.wbDiscard]

theorem shed_warned (s : State) :
    warned s.shed = (s.pwr, { s.grd.abandonArm with glitchOn := false }, (s.wbDiscard true).wb) := by
  have h := powerFailEvents_warned (s.wbDiscard true)
  simp only [warned, Prod.mk.injEq, wbDiscard_pwr, wbDiscard_grd] at h
  obtain ⟨hpwr, hgrd, hwb⟩ := h
  rw [State.shed, closeout_warned]
  simp only [warned, hpwr, hgrd, hwb]

/-! ### The warning (R299) -/

/-- A cause in a powered part declares a warning, or joins the one that runs. -/
theorem execPowerFail_caused {vin pfw : Bool} {s : State} (hpow : s.powered = true)
    (hcause : (vin || (pfw && bit (s.live .pfcfg) 15)) = true) : exec (.powerFail vin pfw) s = .next
      (if s.pwr.pfail then s.warnAgain vin (pfw && bit (s.live .pfcfg) 15)
      else s.warn vin (pfw && bit (s.live .pfcfg) 15)) := by
  have hnot : (!vin && !(pfw && bit (s.live .pfcfg) 15)) = false := by rw [← Bool.not_or, hcause]; rfl
  change Host.Outcome.next _ = _
  rw [hpow, hnot]
  rfl

theorem entryOwed_isSome (s : State) : s.entryOwed.isSome = s.closedOne := by
  unfold State.entryOwed
  cases s.closedOne <;> rfl

/-- A new warning's record, of what the supplies said before it. -/
theorem warn_pwr (vin pfw : Bool) (s : State) : (s.warn vin pfw).pwr = { s.pwr with
    pfail := true, causeVin := vin, causePfw := pfw, vinLow := s.pwr.vinLow || vin, pfwLow := s.pwr.pfwLow || pfw
    sustained := false, entryDue := s.entryOwed, entryDone := false, tails := 0, tailDue := 0
    pfCount := sat 0xFF (s.pwr.pfCount + 1)
    warnNo := (s.warn vin pfw).pwr.warnNo } := by
  have h := congrArg Prod.fst (abandonActivation_warned s)
  simp only [warned] at h
  unfold State.warn
  dsimp only
  have hs := fun t : State => congrArg Prod.fst (shed_warned t)
  simp only [warned] at hs
  rw [hs, raise_pwr, h]

theorem warn_shed (vin pfw : Bool) (s : State) :
    (s.warn vin pfw).grd.glitchOn = false ∧ (s.warn vin pfw).wb.running = false := by
  have h := fun t : State => congrArg Prod.snd (shed_warned t)
  simp only [warned, Prod.mk.injEq] at h
  unfold State.warn
  dsimp only
  constructor
  · rw [(h _).1]
  · rw [(h _).2, wbDiscard_stops]

/-! ### Entries and tails (R301 to R303) -/

theorem execTailUpdate_writes {s : State} (hpow : s.powered = true) (hpf : s.pwr.pfail = true) (hdone : s.pwr.entryDone = true)
    (htails : s.pwr.tails < 64) (hdue : s.pwr.tailStride ≤ s.pwr.tailDue) : exec .tailUpdate s = .next s.tailUpdate := by
  change Host.Outcome.next _ = _
  simp [hpow, hpf, hdone, htails, hdue]

/-- A tail joins the records, in front of the one it goes on from. -/
theorem tailUpdate_tail {r : JRec} {rest : List JRec} {s : State} (h : s.pwr.records = r :: rest) :
    s.tailUpdate.pwr.tails = s.pwr.tails + 1 ∧ s.tailUpdate.pwr.tailDue = 0 ∧
      s.tailUpdate.pwr.records.head? = some { s.tailRecord r with seq := s.pwr.seqNo - 1 } := by
  rw [State.tailUpdate, h]
  exact ⟨rfl, rfl, rfl⟩

/-- A tail carries the digest of the record before it, and the accumulators of now (R302). -/
theorem tailRecord_digest (r : JRec) (s : State) : (s.tailRecord r).digest = r.digest := by
  simp only [State.tailRecord]

theorem tailRecord_acc (r : JRec) (s : State) (p : Fin 128) : (s.tailRecord r).pts[p].acc = s.pts[p].acc := by
  simp [State.tailRecord, Point.tail]

/-! ### Checkpoints (R390) -/

/-- A checkpoint that finds an erased sequence (R390). -/
theorem checkpoint_writes {s : State} (hpf : s.pwr.pfail = false) (hrestored : s.dev.startup.restored = true)
    (herased : s.pwr.erased ≠ 0) : s.checkpoint =
    ({ s with pwr := { s.pwr.takeSequence with ckptDue := false } }).writeRecord (s.record s.raisedCeilings) := by
  simp [State.checkpoint, State.writeCheckpoint, hpf, hrestored, herased]

/-- An erasure while fewer than four sequences are erased, and the checkpoint that waits for it (R265, R390). -/
theorem execJournalErase_erases (ok : Bool) {s : State} (hpow : s.powered = true) (h : s.pwr.erased < 4) :
    exec (.journalErase ok) s = .next (if s.pwr.ckptDue then State.checkpoint { s with pwr := s.pwr.erase }
      else { s with pwr := s.pwr.erase }) := by
  change Host.Outcome.next _ = _
  simp only [hpow, Nat.not_le.2 h, Bool.not_true, Bool.false_or, decide_false, Bool.false_eq_true, if_false]

/-! ### The withdrawal (R308) -/

/-- What the withdrawal has settled of the warning, which no write that was held back touches. -/
def withdrawn (s : State) : (Bool × Bool) × Bool × Nat × Bool :=
  ((s.pwr.pfail, s.pwr.vinLow), s.pwr.entryDone, s.pwr.tailDue, s.grd.glitchOn)

theorem fillLog_withdrawn (n : Nat) (s : State) : withdrawn (s.fillLog n) = withdrawn s := by
  induction n generalizing s with
  | zero => rfl
  | succ n ih =>
    unfold State.fillLog
    split
    · rfl
    · exact ih _

theorem revert_withdrawn (cause : Nat) (s : State) : withdrawn (s.revert cause) = withdrawn s := by
  simp [withdrawn, State.revert, State.noteRecovery, apply_ite]

theorem commitTrial_withdrawn (s : State) : withdrawn s.commitTrial = withdrawn s := by
  unfold State.commitTrial State.fwState
  simp [withdrawn]

/-- The end of a trial that a warning has held back (R300, R330). -/
def heldTrial (s : State) : State :=
  let idle := { s with anv := { s.anv with trialOver := none } }
  match s.anv.trialOver with
  | some true => idle.commitTrial
  | some false => idle.revert 0
  | none => idle

theorem heldWrites_eq (s : State) : s.heldWrites = if (heldTrial s).anv.fillDue then
    ({ heldTrial s with anv := { (heldTrial s).anv with fillDue := false } }).fillLog 8 else heldTrial s := rfl

theorem heldTrial_withdrawn (s : State) : withdrawn (heldTrial s) = withdrawn s := by
  unfold heldTrial
  dsimp only
  split
  · exact commitTrial_withdrawn _
  · exact revert_withdrawn 0 _
  · rfl

theorem heldWrites_withdrawn (s : State) : withdrawn s.heldWrites = withdrawn s := by
  rw [heldWrites_eq]
  split
  · exact (fillLog_withdrawn 8 _).trans (heldTrial_withdrawn s)
  · exact heldTrial_withdrawn s

theorem extraCheckpoint_withdrawn (s : State) : withdrawn s.extraCheckpoint = withdrawn s := by
  unfold State.extraCheckpoint State.checkpoint State.writeCheckpoint
  repeat' split
  all_goals rfl

theorem pfRecovered_withdrawn (s : State) : withdrawn s.pfRecovered = ((false, false), false, 0, true) := by
  unfold State.pfRecovered
  dsimp only
  rw [extraCheckpoint_withdrawn, startWaiting_keeps withdrawn (fun _ _ => rfl) (fun _ => rfl),
    refreshDirty_keeps withdrawn (fun _ _ => rfl), heldWrites_withdrawn]
  simp [withdrawn]

/-- Settles O43, row by row: what a warning is recorded as outlives the shedding, and a withdrawal outlives what was held back. -/
theorem powerFailRowsComplete : Obligations.PowerFailRowsComplete := by
  refine ⟨fun vin pfw s hpow hpf hcause => ?_, fun vin pfw s hpow hpf hcause => ?_, fun r s hpow hpf herased hdue => ?_,
    fun r rest s hpow hpf hdone htails hdue hrec => ?_, fun ok s hpow => ⟨fun h => ?_, fun h => ⟨fun hc => ?_, fun hc hpf hr => ?_⟩⟩,
    fun s hpow hpf hs => ?_, fun s hpow hpf herased => ?_⟩
  · obtain ⟨hglitch, hwb⟩ := warn_shed vin (pfw && bit (s.live .pfcfg) 15) s
    refine ⟨_, execPowerFail_caused hpow hcause, ?_⟩
    rw [hpf, if_neg Bool.false_ne_true, warn_pwr]
    exact ⟨rfl, rfl, rfl, rfl, rfl, rfl, entryOwed_isSome s, rfl, hglitch, hwb, warn_pts _ _ s⟩
  · refine ⟨_, execPowerFail_caused hpow hcause, ?_⟩
    rw [hpf]
    exact ⟨rfl, rfl⟩
  · refine ⟨s.writeEntry r, ?_, rfl, rfl, rfl, rfl, rfl, ⟨_, rfl, rfl⟩, rfl⟩
    change Host.Outcome.next _ = _
    simp [hpow, hpf, State.journalEntry, herased, hdue]
  · refine ⟨_, execTailUpdate_writes hpow hpf hdone htails hdue, ?_⟩
    obtain ⟨hn, htail, hhead⟩ := tailUpdate_tail hrec
    refine ⟨hn, htail, _, hhead, ?_⟩
    simp only [tailRecord_digest, tailRecord_acc, implies_true, and_self]
  · change Host.Outcome.next _ = _
    simp [hpow, h]
  · rw [execJournalErase_erases ok hpow h, hc]
    rfl
  · have herased : s.pwr.erase.erased ≠ 0 := Nat.succ_ne_zero _
    have hw := checkpoint_writes (s := { s with pwr := s.pwr.erase }) hpf hr herased
    refine ⟨_, execJournalErase_erases ok hpow h, ?_⟩
    rw [hc, if_pos rfl, hw]
    exact ⟨rfl, rfl, rfl, rfl, _, rfl, rfl, Nat.add_sub_cancel _ 1⟩
  · change Host.Outcome.next _ = _
    simp [hpow, hpf, hs]
  · have h := pfRecovered_withdrawn s
    simp only [withdrawn, Prod.mk.injEq] at h
    obtain ⟨⟨hpfail, hvin⟩, hdone, htail, hglitch⟩ := h
    refine ⟨s.pfRecovered, ?_, hpfail, hvin, hdone, htail, hglitch⟩
    change Host.Outcome.next _ = _
    simp [hpow, hpf, herased]

end Sys2Proof.Scope
end

section
/-!
SUPPORT. An edge of the calendar crystal on an empty queue, and the cores that it finds down after a restart (R275, R312, R334, R354).
-/
namespace Sys2Proof.Scope

open Sys2Proof.Machine Sys2Proof.Laws

/-! ### What the cores' return leaves -/

/-- The state but for what belongs to the cores, the events and the routing. -/
def besideCores (s : State) : State := { s with
  draws := State.reset.draws, dev := State.reset.dev, ev := State.reset.ev, intc := State.reset.intc, anv := State.reset.anv }

theorem noteRecovery_besideCores (s : State) : besideCores s.noteRecovery = besideCores s := by
  unfold State.noteRecovery
  split <;> rfl

theorem note_besideCores (b : Blot) (e : Ev) (u : Subject) (d : List Byte) (s : State) :
    besideCores (s.note b e u d) = besideCores s := by simp [besideCores]

theorem revert_besideCores (cause : Nat) (s : State) : besideCores (s.revert cause) = besideCores s := by
  unfold State.revert
  exact (note_besideCores ..).trans (noteRecovery_besideCores _)

theorem revertOrHold_besideCores (cause : Nat) (s : State) : besideCores (s.revertOrHold cause) = besideCores s := by
  unfold State.revertOrHold
  split
  · rfl
  · exact revert_besideCores cause s

theorem selfCheck_besideCores (s : State) : besideCores s.selfCheck = besideCores s := by
  unfold State.selfCheck State.fresh
  dsimp only
  split
  · exact revertOrHold_besideCores 1 _
  · rfl

theorem route_besideCores (s : State) : besideCores s.route = besideCores s := by simp [besideCores]

/-! ### The supply of the guard and calendar domains (R295) -/

theorem unbank_vaon (s : State) : s.unbank.vaon = s.vaon := by
  unfold State.unbank
  split
  next h => simp [State.vaon, h]
  next => rfl

theorem wakeFor_vaon (l : List Nat) (s : State) : (s.wakeFor l).vaon = s.vaon := by
  unfold State.wakeFor
  split
  · exact unbank_vaon s
  · rfl

theorem vaon_of_dev {s t : State} (h : t.dev = s.dev) : t.vaon = s.vaon := by rw [State.vaon, h, State.vaon]

theorem pendInt_vaon (n : Nat) (s : State) : (s.pendInt n).vaon = s.vaon :=
  (vaon_of_dev (route_dev _)).trans ((wakeFor_vaon [n] _).trans (vaon_of_dev (latch_dev n s)))

theorem enter_vaon (e : Event) (s : State) : (s.enter e).vaon = s.vaon := by
  unfold State.enter
  dsimp only
  repeat' split
  · exact pendInt_vaon 17 _
  · rfl
  · exact pendInt_vaon 18 _

theorem raise_vaon (e : Ev) (u : Subject) (d : List Byte) (s : State) : (s.raise e u d).vaon = s.vaon := by
  have hentered : ∀ x : Event, (if s.dev.startup.restored then s.enter x
      else { s with ev := { s.ev with held := s.ev.held ++ [x] } }).vaon = s.vaon := fun x => by
    split
    · exact enter_vaon x s
    · rfl
  unfold State.raise State.raiseWith State.raiseAs
  dsimp only
  split
  · exact (pendInt_vaon _ _).trans (hentered _)
  · exact hentered _

theorem note_vaon (b : Blot) (e : Ev) (u : Subject) (d : List Byte) (s : State) : (s.note b e u d).vaon = s.vaon :=
  raise_vaon e u d (s.blot b)

theorem revert_vaon (cause : Nat) (s : State) : (s.revert cause).vaon = s.vaon := by
  unfold State.revert State.noteRecovery
  rw [note_vaon]
  split <;> rfl

theorem selfCheck_vaon (s : State) : s.selfCheck.vaon = s.vaon := by
  unfold State.selfCheck State.revertOrHold State.fresh
  dsimp only
  repeat' split
  · rfl
  · exact revert_vaon 1 _
  · rfl

/-! ### The cores up again (R312) -/

theorem boot_up (a : Anvil) : a.boot.up = a.up := by
  unfold Anvil.boot
  dsimp only
  split
  · rfl
  · split <;> rfl

theorem revert_up (cause : Nat) (s : State) : (s.revert cause).anv.up = s.anv.up := by
  have hrec : ∀ s : State, s.noteRecovery.anv.up = s.anv.up := fun s => by unfold State.noteRecovery; split <;> rfl
  unfold State.revert
  exact (note_anv_up ..).trans ((hrec _).trans (boot_up _))

theorem selfCheck_up (s : State) : s.selfCheck.anv.up = s.anv.up := by
  unfold State.selfCheck State.revertOrHold State.fresh
  dsimp only
  repeat' split
  · rfl
  · exact revert_up 1 _
  · rfl

/-- Cores that a restart has left down. -/
def coresWait (s : State) : Prop := (s.powered && s.dev.startup.configDone && !s.anv.up) = true

theorem coresBack_up {s : State} (h : ¬ coresWait s) : s.coresBack = s := if_neg h

/-- Cores that have been down take up work; the image has its start self-check to pass where one is due. -/
theorem coresBack_down {s : State} (h : coresWait s) : s.coresBack =
    (let up := { s with anv := { s.anv with up := true, checkDue := false } }
    if s.anv.checkDue then up.selfCheck else up).route := if_pos h

theorem coresBack_besideCores (s : State) : besideCores s.coresBack = besideCores s := by
  by_cases h : coresWait s
  · rw [coresBack_down h, route_besideCores]
    dsimp only
    split
    · exact selfCheck_besideCores _
    · rfl
  · rw [coresBack_up h]

theorem coresBack_vaon (s : State) : s.coresBack.vaon = s.vaon := by
  by_cases h : coresWait s
  · rw [coresBack_down h, vaon_of_dev (route_dev _)]
    dsimp only
    split
    · exact selfCheck_vaon _
    · rfl
  · rw [coresBack_up h]

theorem coresBack_anv_up {s : State} (hpow : s.powered = true) (hdone : s.dev.startup.configDone = true) :
    s.coresBack.anv.up = true := by
  cases hup : s.anv.up
  · rw [coresBack_down (by simp [coresWait, hpow, hdone, hup]), route_anv]
    dsimp only
    split
    · exact selfCheck_up _
    · rfl
  · rw [coresBack_up (by simp [coresWait, hup]), hup]

/-! ### The edge -/

/-- Settles O2: the cores' return leaves all that the statement names, and the edge itself is the crystal's. -/
theorem idleStepIsOneCrystalEdge : Obligations.IdleStepIsOneCrystalEdge := by
  intro s hidle
  have hstep : step s = .next (crystalEdge s) := by rw [step, hidle]
  have hkeeps := coresBack_besideCores s
  simp only [besideCores, State.mk.injEq, true_and] at hkeeps
  obtain ⟨hpending, hnow, hcfg, heff, hslots, hchans, hspares, hpts, hbuses, htb, hengine, hmcal, hprof, hpq, hwb, hpulses, hfol,
    hscr, hpwr, hflt, hcld, hgrd, hpnl, htrim⟩ := hkeeps
  refine ⟨_, hstep, congrArg (· + 1) hnow, hpending.trans hidle, ?_, ?_, ?_, hcfg, heff, hslots, hchans, hspares, hpts, hbuses, htb,
    hengine, hmcal, hprof, hpq, hwb, hpulses, hfol, hpwr, hflt, hpnl, htrim, fun hup => ?_, fun hpow hdone => ?_⟩
  · simp only [crystalEdge, coresBack_vaon, hcld]
  · simp only [crystalEdge, coresBack_vaon, hflt, hgrd]
  · simp only [crystalEdge, coresBack_vaon, hflt, hscr, hgrd]
  · have hback : s.coresBack = s := coresBack_up (by simp [coresWait, hup])
    rw [crystalEdge, hback]
    exact ⟨rfl, rfl, rfl, rfl, rfl⟩
  · have hup := coresBack_anv_up hpow hdone
    unfold crystalEdge
    dsimp only
    split
    · exact hup
    · exact hup

end Sys2Proof.Scope
end

section
/-!
SUPPORT. What the operations and the rows leave of the configuration images: only a save and the check of the copies touch
them (R323).
-/
namespace Sys2Proof.Scope

open Sys2Proof.Machine Sys2Proof.Laws

/-! ### The parts of Anvil that hold the images -/

theorem logRecord_images (body : List Byte) (a : Anvil) : (a.logRecord body).images = a.images := by
  unfold Anvil.logRecord
  dsimp only
  split <;> rfl

@[simp] theorem logEvent_images (e : Event) (a : Anvil) : (Anvil.logEvent e a).images = a.images := by
  unfold Anvil.logEvent
  induction List.range (entriesOf e.detail.length) generalizing a with
  | nil => rfl
  | cons i l ih => exact (ih _).trans (logRecord_images _ a)

@[simp] theorem boot_images (a : Anvil) : a.boot.images = a.images := by
  unfold Anvil.boot
  dsimp only
  split
  · rfl
  · split <;> rfl

/-! ### The operations and the rows -/

@[simp] theorem ite_anv_images (c : Prop) [Decidable c] (a b : State) :
    (if c then a else b).anv.images = if c then a.anv.images else b.anv.images := by
  split <;> rfl

@[simp] theorem chain_anv_images {α : Type} (l : List α) (f : α → State → State) (s : State)
    (h : ∀ a s, (f a s).anv.images = s.anv.images) :
    (chain l f s).anv.images = s.anv.images := chain_keeps (fun s => s.anv.images) l f h s

@[simp] theorem fresh_anv_images : ∀ s, (State.fresh s).2.anv.images = s.anv.images := by intros; simp [State.fresh]

@[simp] theorem settingTook_anv_images : ∀ s, (State.settingTook s).anv.images = s.anv.images := by
  intros; simp [State.settingTook]

@[simp] theorem phaseEnds_anv_images : ∀ k s, (State.phaseEnds k s).anv.images = s.anv.images := by intros; simp [State.phaseEnds]

@[simp] theorem connectSpare_anv_images : ∀ k m s, (State.connectSpare k m s).anv.images = s.anv.images := by
  intros; simp [State.connectSpare]

@[simp] theorem advanceSpare_anv_images : ∀ k s, (State.advanceSpare k s).anv.images = s.anv.images := by
  intros; unfold State.advanceSpare; split <;> simp

@[simp] theorem startCheck_anv_images : ∀ k m s, (State.startCheck k m s).anv.images = s.anv.images := by
  intros; simp [State.startCheck]

@[simp] theorem nextCheck_anv_images : ∀ k s, (State.nextCheck k s).anv.images = s.anv.images := by
  intros; unfold State.nextCheck; (repeat' split) <;> simp

@[simp] theorem endCheck_anv_images : ∀ k s, (State.endCheck k s).anv.images = s.anv.images := by
  intros; unfold State.endCheck; split <;> simp

@[simp] theorem abortCheck_anv_images : ∀ k s, (State.abortCheck k s).anv.images = s.anv.images := by
  intros; unfold State.abortCheck; split <;> simp

@[simp] theorem queueCheck_anv_images : ∀ k m s, (State.queueCheck k m s).anv.images = s.anv.images := by
  intros; simp [State.queueCheck]

@[simp] theorem failChan_anv_images : ∀ k m s, (State.failChan k m s).anv.images = s.anv.images := by
  intros; simp [State.failChan]

@[simp] theorem substituted_anv_images : ∀ k m n p s, (State.substituted k m n p s).anv.images = s.anv.images := by
  intros; simp [State.substituted]

@[simp] theorem takeSpare_anv_images : ∀ k s, (State.takeSpare k s).anv.images = s.anv.images := by
  intros; unfold State.takeSpare; dsimp only; (repeat' split) <;> simp

@[simp] theorem forceSpare_anv_images : ∀ k s, (State.forceSpare k s).anv.images = s.anv.images := by
  intros; simp [State.forceSpare]

@[simp] theorem startRestore_anv_images : ∀ k s, (State.startRestore k s).anv.images = s.anv.images := by
  intros; simp [State.startRestore]

@[simp] theorem check_anv_images : ∀ k s, (State.check k s).anv.images = s.anv.images := by
  intros; unfold State.check; dsimp only; (repeat' split) <;> simp

@[simp] theorem restoreFailed_anv_images : ∀ k s, (State.restoreFailed k s).anv.images = s.anv.images := by
  intros; simp [State.restoreFailed]

@[simp] theorem workingFault_anv_images : ∀ k m s, (State.workingFault k m s).anv.images = s.anv.images := by
  intros; simp [State.workingFault]

@[simp] theorem spareDown_anv_images : ∀ k s, (State.spareDown k s).anv.images = s.anv.images := by
  intros; unfold State.spareDown; split <;> simp

@[simp] theorem spareFault_anv_images : ∀ k s, (State.spareFault k s).anv.images = s.anv.images := by
  intros; unfold State.spareFault; split <;> simp

@[simp] theorem modFault_anv_images : ∀ k m s, (State.modFault k m s).anv.images = s.anv.images := by
  intros; unfold State.modFault; split <;> simp

theorem execModulatorHardFault_anv_images : ∀ k m s,
    ∃ t, execModulatorHardFault k m s = .next t ∧ t.anv.images = s.anv.images := by
  intros; refine ⟨_, rfl, ?_⟩; simp

@[simp] theorem splice_anv_images : ∀ k s, (State.splice k s).anv.images = s.anv.images := by intros; simp [State.splice]

theorem execChSubstituted_anv_images : ∀ k s, ∃ t, execChSubstituted k s = .next t ∧ t.anv.images = s.anv.images := by
  intros; refine ⟨_, rfl, ?_⟩; simp

@[simp] theorem lateSplice_anv_images : ∀ k s, (State.lateSplice k s).anv.images = s.anv.images := by
  intros; simp [State.lateSplice]

theorem execIsolatedParityError_anv_images : ∀ k s, ∃ t, execIsolatedParityError k s = .next t ∧ t.anv.images = s.anv.images := by
  intros
  refine ⟨_, rfl, ?_⟩
  dsimp only
  split
  · simp
  · split <;> simp

@[simp] theorem trimNote_anv_images : ∀ k m n s, (State.trimNote k m n s).anv.images = s.anv.images := by
  intros; simp [State.trimNote]

@[simp] theorem setModTrim_anv_images : ∀ k m s, (State.setModTrim k m s).anv.images = s.anv.images := by
  intros; simp [State.setModTrim]

@[simp] theorem askModTrim_anv_images : ∀ k m s, (State.askModTrim k m s).anv.images = s.anv.images := by
  intros; unfold State.askModTrim; split <;> simp

@[simp] theorem trimBoundary_anv_images : ∀ k s, (State.trimBoundary k s).anv.images = s.anv.images := by
  intros; unfold State.trimBoundary; split <;> simp

@[simp] theorem spareTrim_anv_images : ∀ k s, (State.spareTrim k s).anv.images = s.anv.images := by
  intros; unfold State.spareTrim; split <;> simp

@[simp] theorem setVref_anv_images : ∀ k s, (State.setVref k s).anv.images = s.anv.images := by intros; simp [State.setVref]

@[simp] theorem setOsc_anv_images : ∀ k s, (State.setOsc k s).anv.images = s.anv.images := by intros; simp [State.setOsc]

@[simp] theorem askBkup_anv_images : ∀ k s, (State.askBkup k s).anv.images = s.anv.images := by intros; simp [State.askBkup]

@[simp] theorem bkupDueNow_anv_images : ∀ s, (State.bkupDueNow s).anv.images = s.anv.images := by
  intros; unfold State.bkupDueNow; split <;> simp

@[simp] theorem askPanelOsc_anv_images : ∀ k s, (State.askPanelOsc k s).anv.images = s.anv.images := by
  intros; simp [State.askPanelOsc]

@[simp] theorem panelOscNow_anv_images : ∀ s, (State.panelOscNow s).anv.images = s.anv.images := by
  intros; unfold State.panelOscNow; split <;> simp

@[simp] theorem dropModTrim_anv_images : ∀ k s, (State.dropModTrim k s).anv.images = s.anv.images := by
  intros; unfold State.dropModTrim; split <;> simp

@[simp] theorem reloadTrims_anv_images : ∀ s, (State.reloadTrims s).anv.images = s.anv.images := by
  intros; simp [State.reloadTrims]

@[simp] theorem chDrift_anv_images : ∀ k m s, (State.chDrift k m s).anv.images = s.anv.images := by intros; simp [State.chDrift]

@[simp] theorem dwellChecked_anv_images : ∀ k s, (State.dwellChecked k s).anv.images = s.anv.images := by
  intros; simp [State.dwellChecked]

@[simp] theorem spareMove_anv_images : ∀ k m s, (State.spareMove k m s).anv.images = s.anv.images := by
  intros; unfold State.spareMove; dsimp only; (repeat' split) <;> simp

theorem execSpareMove_anv_images : ∀ k m s, ∃ t, execSpareMove k m s = .next t ∧ t.anv.images = s.anv.images := by
  intros; refine ⟨_, rfl, ?_⟩; simp

theorem execDriftCheckPhase_anv_images : ∀ k m s, ∃ t, execDriftCheckPhase k m s = .next t ∧ t.anv.images = s.anv.images := by
  intros; refine ⟨_, rfl, ?_⟩; (repeat' split) <;> simp

theorem execChDriftChecked_anv_images : ∀ k s, ∃ t, execChDriftChecked k s = .next t ∧ t.anv.images = s.anv.images := by
  intros; refine ⟨_, rfl, ?_⟩; split <;> simp

@[simp] theorem restoreEnd_anv_images : ∀ k m n s, (State.restoreEnd k m n s).anv.images = s.anv.images := by
  intros; unfold State.restoreEnd; dsimp only; (repeat' split) <;> simp

theorem execChRestored_anv_images : ∀ k m n s, ∃ t, execChRestored k m n s = .next t ∧ t.anv.images = s.anv.images := by
  intros; refine ⟨_, rfl, ?_⟩; simp

theorem execSuppressionEnd_anv_images : ∀ k s, ∃ t, execSuppressionEnd k s = .next t ∧ t.anv.images = s.anv.images := by
  intros; refine ⟨_, rfl, ?_⟩; simp

theorem execChClip_anv_images : ∀ k s, ∃ t, execChClip k s = .next t ∧ t.anv.images = s.anv.images := by
  intros; refine ⟨_, rfl, ?_⟩; simp

@[simp] theorem channelBoundary_anv_images : ∀ k s, (State.channelBoundary k s).anv.images = s.anv.images := by
  intros; simp [State.channelBoundary]

@[simp] theorem spareBoundary_anv_images : ∀ k s, (State.spareBoundary k s).anv.images = s.anv.images := by
  intros; unfold State.spareBoundary; dsimp only; (repeat' split) <;> simp

@[simp] theorem acted_anv_images : ∀ k m s p, (∀ x, (p x).1.anv.images = x.anv.images) →
    (State.acted k m s p).anv.images = s.anv.images := by
  intros; unfold State.acted; dsimp only; (repeat' split) <;> simp [*]

@[simp] theorem abandonActivation_anv_images : ∀ s, (State.abandonActivation s).anv.images = s.anv.images := by
  intros; simp [State.abandonActivation]

@[simp] theorem command_anv_images : ∀ k m s p, (∀ x, (p x).anv.images = x.anv.images) →
    (State.command k m s p).anv.images = s.anv.images := by
  intros; unfold State.command; dsimp only; (repeat' split) <;> simp [*]

@[simp] theorem softScope_anv_images : ∀ k s, (State.softScope k s).anv.images = s.anv.images := by
  intros; unfold State.softScope; split <;> simp

@[simp] theorem settleN_anv_images : ∀ k s, (State.settleN k s).anv.images = s.anv.images := by
  intro k s
  induction k generalizing s with
  | zero => rfl
  | succ k ih =>
    unfold State.settleN
    split
    · simp [*]
    · split <;> simp [*]

@[simp] theorem settleBaud_anv_images : ∀ s, (State.settleBaud s).anv.images = s.anv.images := by
  intros; unfold State.settleBaud; dsimp only; (repeat' split) <;> simp

@[simp] theorem settle_anv_images : ∀ s, (State.settle s).anv.images = s.anv.images := by intros; simp [State.settle]

@[simp] theorem transact_anv_images : ∀ k m s, (State.transact k m s).anv.images = s.anv.images := by
  intros; simp [State.transact]

@[simp] theorem delivered_anv_images : ∀ k m n s, (State.delivered k m n s).anv.images = s.anv.images := by
  intros; simp [State.delivered]

@[simp] theorem readPort_anv_images : ∀ k m s, (State.readPort k m s).anv.images = s.anv.images := by
  intros; unfold State.readPort; dsimp only; (repeat' split) <;> simp

theorem execRead_anv_images : ∀ k m s, ∃ t, execRead k m s = .next t ∧ t.anv.images = s.anv.images := by
  intros; refine ⟨_, rfl, ?_⟩; split <;> simp

theorem execStatus_anv_images : ∀ k s, ∃ t, execStatus k s = .next t ∧ t.anv.images = s.anv.images := by
  intros; refine ⟨_, rfl, ?_⟩; split <;> simp

theorem execUartReplySent_anv_images : ∀ s, ∃ t, execUartReplySent s = .next t ∧ t.anv.images = s.anv.images := by
  intros; refine ⟨_, rfl, ?_⟩; (repeat' split) <;> simp

theorem execPortTimeout_anv_images : ∀ k s, ∃ t, execPortTimeout k s = .next t ∧ t.anv.images = s.anv.images := by
  intros; refine ⟨_, rfl, ?_⟩; split <;> simp

theorem execUartFrameStall_anv_images : ∀ s, ∃ t, execUartFrameStall s = .next t ∧ t.anv.images = s.anv.images := by
  intros; refine ⟨_, rfl, ?_⟩; simp

@[simp] theorem replyDropped_anv_images : ∀ k m s, (State.replyDropped k m s).anv.images = s.anv.images := by
  intros; unfold State.replyDropped; dsimp only; (repeat' split) <;> simp

theorem execReplyDropped_anv_images : ∀ k m s, ∃ t, execReplyDropped k m s = .next t ∧ t.anv.images = s.anv.images := by
  intros; refine ⟨_, rfl, ?_⟩; simp

theorem execSessionIdleTimeout_anv_images : ∀ k s, ∃ t, execSessionIdleTimeout k s = .next t ∧ t.anv.images = s.anv.images := by
  intros; refine ⟨_, rfl, ?_⟩; simp

theorem execNop_anv_images : ∀ k m s, ∃ t, execNop k m s = .next t ∧ t.anv.images = s.anv.images := by
  intros; refine ⟨_, rfl, ?_⟩; simp

theorem execSessionClose_anv_images : ∀ k s, ∃ t, execSessionClose k s = .next t ∧ t.anv.images = s.anv.images := by
  intros; refine ⟨_, rfl, ?_⟩; simp

theorem execSetPriority_anv_images : ∀ k m s, ∃ t, execSetPriority k m s = .next t ∧ t.anv.images = s.anv.images := by
  intros; refine ⟨_, rfl, ?_⟩; simp

@[simp] theorem sessionOpen_anv_images : ∀ k m s, (State.sessionOpen k m s).anv.images = s.anv.images := by
  intros; unfold State.sessionOpen; dsimp only; (repeat' split) <;> simp

theorem execSessionOpen_anv_images : ∀ k m s, ∃ t, execSessionOpen k m s = .next t ∧ t.anv.images = s.anv.images := by
  intros; refine ⟨_, rfl, ?_⟩; simp

@[simp] theorem grdNotify_anv_images : ∀ k s, (State.grdNotify k s).anv.images = s.anv.images := by intros; simp [State.grdNotify]

@[simp] theorem declareGroup_anv_images : ∀ k m s, (State.declareGroup k m s).anv.images = s.anv.images := by
  intros; simp [State.declareGroup]

theorem execGrdSource_anv_images : ∀ k m s, ∃ t, execGrdSource k m s = .next t ∧ t.anv.images = s.anv.images := by
  intros; refine ⟨_, rfl, ?_⟩; simp

theorem execCellScanPeriod_anv_images : ∀ k m s, ∃ t, execCellScanPeriod k m s = .next t ∧ t.anv.images = s.anv.images := by
  intros; refine ⟨_, rfl, ?_⟩; simp

theorem execGrdClock_anv_images : ∀ s, ∃ t, execGrdClock s = .next t ∧ t.anv.images = s.anv.images := by
  intros; refine ⟨_, rfl, ?_⟩; simp

@[simp] theorem cellReplay_anv_images : ∀ s, (State.cellReplay s).anv.images = s.anv.images := by intros; simp [State.cellReplay]

@[simp] theorem arm_anv_images : ∀ s, (State.arm s).anv.images = s.anv.images := by intros; simp [State.arm]

@[simp] theorem fdis_anv_images : ∀ k s, (State.fdis k s).anv.images = s.anv.images := by intros; simp [State.fdis]

theorem execGrdClearArm_anv_images : ∀ k m s, ∃ t, execGrdClearArm k m s = .next t ∧ t.anv.images = s.anv.images := by
  intros; refine ⟨_, rfl, ?_⟩; simp

@[simp] theorem clearGuards_anv_images : ∀ k m s, (State.clearGuards k m s).anv.images = s.anv.images := by
  intros; simp [State.clearGuards]

theorem execGrdClearConfirm_anv_images : ∀ k m n s, ∃ t, execGrdClearConfirm k m n s = .next t ∧ t.anv.images = s.anv.images := by
  intros
  refine ⟨_, rfl, ?_⟩
  refine command_keeps (fun s => s.anv.images) _ _ (by simp) (by simp) ?_
  intro s
  dsimp only
  (repeat' split) <;> simp

theorem execGrdChallengeExpiry_anv_images : ∀ s, ∃ t, execGrdChallengeExpiry s = .next t ∧ t.anv.images = s.anv.images := by
  intros; refine ⟨_, rfl, ?_⟩; simp

theorem execGrdTest_anv_images : ∀ k m n s, ∃ t, execGrdTest k m n s = .next t ∧ t.anv.images = s.anv.images := by
  intros; refine ⟨_, rfl, ?_⟩; split <;> simp

theorem execIdCertRead_anv_images : ∀ k m n s, ∃ t, execIdCertRead k m n s = .next t ∧ t.anv.images = s.anv.images := by
  intros; refine ⟨_, rfl, ?_⟩; simp

@[simp] theorem outOfOrder_anv_images : ∀ k m n p s, (State.outOfOrder k m n p s).anv.images = s.anv.images := by
  intros; simp [State.outOfOrder]

@[simp] theorem retire_anv_images : ∀ k m n s, (State.retire k m n s).anv.images = s.anv.images := by
  intros; unfold State.retire; dsimp only; (repeat' split) <;> simp

@[simp] theorem disableTarget_anv_images : ∀ k s, (State.disableTarget k s).anv.images = s.anv.images := by
  intros; simp [State.disableTarget]

theorem execIntTimeout_anv_images : ∀ k s, ∃ t, execIntTimeout k s = .next t ∧ t.anv.images = s.anv.images := by
  intros; refine ⟨_, rfl, ?_⟩; split <;> simp

@[simp] theorem refCheck_anv_images : ∀ s, (State.refCheck s).anv.images = s.anv.images := by intros; simp [State.refCheck]

@[simp] theorem tempCheck_anv_images : ∀ s, (State.tempCheck s).anv.images = s.anv.images := by intros; simp [State.tempCheck]

@[simp] theorem vbatReading_anv_images : ∀ s, (State.vbatReading s).anv.images = s.anv.images := by
  intros; simp [State.vbatReading]

@[simp] theorem hallReading_anv_images : ∀ k s, (State.hallReading k s).anv.images = s.anv.images := by
  intros; unfold State.hallReading; dsimp only; (repeat' split) <;> simp

@[simp] theorem auxScan_anv_images : ∀ k m s, (State.auxScan k m s).anv.images = s.anv.images := by
  intros; unfold State.auxScan; split <;> simp

theorem execAuxScan_anv_images : ∀ k m s, ∃ t, execAuxScan k m s = .next t ∧ t.anv.images = s.anv.images := by
  intros; refine ⟨_, rfl, ?_⟩; simp

theorem execAuxRead_anv_images : ∀ k m n s, ∃ t, execAuxRead k m n s = .next t ∧ t.anv.images = s.anv.images := by
  intros; refine ⟨_, rfl, ?_⟩; split <;> simp

@[simp] theorem tableLoad_anv_images : ∀ k m n p q r s, (State.tableLoad k m n p q r s).anv.images = s.anv.images := by
  intros; unfold State.tableLoad; dsimp only; (repeat' split) <;> simp

theorem execPnlTableLoad_anv_images : ∀ k m n p q r s,
    ∃ t, execPnlTableLoad k m n p q r s = .next t ∧ t.anv.images = s.anv.images := by
  intros; refine ⟨_, rfl, ?_⟩; simp

theorem execPnlImageWrite_anv_images : ∀ k m n p s, ∃ t, execPnlImageWrite k m n p s = .next t ∧ t.anv.images = s.anv.images := by
  intros; refine ⟨_, rfl, ?_⟩; split <;> simp

@[simp] theorem steer_anv_images : ∀ s, (State.steer s).anv.images = s.anv.images := by intros; simp [State.steer]

@[simp] theorem pnlDone_anv_images : ∀ k m n s, (State.pnlDone k m n s).anv.images = s.anv.images := by
  intros; simp [State.pnlDone]

@[simp] theorem slotReq_anv_images : ∀ k m s, (State.slotReq k m s).anv.images = s.anv.images := by
  intros; unfold State.slotReq; split <;> simp

@[simp] theorem placeReq_anv_images : ∀ k m s, (State.placeReq k m s).anv.images = s.anv.images := by
  intros; unfold State.placeReq; split <;> simp

@[simp] theorem supersede_anv_images : ∀ k m s, (State.supersede k m s).anv.images = s.anv.images := by
  intros; simp [State.supersede]

@[simp] theorem panelUpdate_anv_images : ∀ k m n s, (State.panelUpdate k m n s).1.anv.images = s.anv.images := by
  intros; unfold State.panelUpdate; split <;> simp

@[simp] theorem pnlUpdate_anv_images : ∀ k m n p s, (State.pnlUpdate k m n p s).anv.images = s.anv.images := by
  intros; simp [State.pnlUpdate]

theorem execPnlUpdate_anv_images : ∀ k m n p s, ∃ t, execPnlUpdate k m n p s = .next t ∧ t.anv.images = s.anv.images := by
  intros; refine ⟨_, rfl, ?_⟩; simp

@[simp] theorem refreshDirty_anv_images : ∀ s, (State.refreshDirty s).anv.images = s.anv.images := by
  intros; simp [State.refreshDirty]

@[simp] theorem startWaiting_anv_images : ∀ s, (State.startWaiting s).anv.images = s.anv.images := by
  intros; simp [State.startWaiting]

@[simp] theorem endRun_anv_images : ∀ k m n s, (State.endRun k m n s).anv.images = s.anv.images := by intros; simp [State.endRun]

@[simp] theorem startRun_anv_images : ∀ k m s, (State.startRun k m s).anv.images = s.anv.images := by
  intros; unfold State.startRun; split <;> simp

@[simp] theorem pairEnd_anv_images : ∀ k s, (State.pairEnd k s).anv.images = s.anv.images := by
  intros; unfold State.pairEnd; split <;> simp

@[simp] theorem pairStart_anv_images : ∀ k s, (State.pairStart k s).anv.images = s.anv.images := by
  intros; unfold State.pairStart; split <;> simp

@[simp] theorem dropPending_anv_images : ∀ k s, (State.dropPending k s).anv.images = s.anv.images := by
  intros; unfold State.dropPending; dsimp only; (repeat' split) <;> simp

@[simp] theorem pairBoundary_anv_images : ∀ s, (State.pairBoundary s).anv.images = s.anv.images := by
  intros; simp [State.pairBoundary]

theorem execPanelPairBoundary_anv_images : ∀ s, ∃ t, execPanelPairBoundary s = .next t ∧ t.anv.images = s.anv.images := by
  intros; refine ⟨_, rfl, ?_⟩; simp

theorem execPanelFrameBoundary_anv_images : ∀ s, ∃ t, execPanelFrameBoundary s = .next t ∧ t.anv.images = s.anv.images := by
  intros; refine ⟨_, rfl, ?_⟩; simp

@[simp] theorem faultRegion_anv_images : ∀ k s, (State.faultRegion k s).anv.images = s.anv.images := by
  intros; unfold State.faultRegion; dsimp only; (repeat' split) <;> simp

@[simp] theorem panelFault_anv_images : ∀ s, (State.panelFault s).anv.images = s.anv.images := by intros; simp [State.panelFault]

theorem execPanelFault_anv_images : ∀ k s, ∃ t, execPanelFault k s = .next t ∧ t.anv.images = s.anv.images := by
  intros; refine ⟨_, rfl, ?_⟩; simp

theorem execRailRead_anv_images : ∀ k s, ∃ t, execRailRead k s = .next t ∧ t.anv.images = s.anv.images := by
  intros; refine ⟨_, rfl, ?_⟩; dsimp only; (repeat' split) <;> simp

theorem execRailStep_anv_images : ∀ s, ∃ t, execRailStep s = .next t ∧ t.anv.images = s.anv.images := by
  intros; refine ⟨_, rfl, ?_⟩; simp

@[simp] theorem closeout_anv_images : ∀ s, (State.closeout s).anv.images = s.anv.images := by intros; simp [State.closeout]

@[simp] theorem recover_anv_images : ∀ k s, (State.recover k s).anv.images = s.anv.images := by intros; simp [State.recover]

@[simp] theorem store_anv_images : ∀ k m s, (State.store k m s).anv.images = s.anv.images := by intros; simp [State.store]

@[simp] theorem stage_anv_images : ∀ k m s, (State.stage k m s).anv.images = s.anv.images := by intros; simp [State.stage]

@[simp] theorem noteRejoined_anv_images : ∀ k m s, (State.noteRejoined k m s).anv.images = s.anv.images := by
  intros; simp [State.noteRejoined]

@[simp] theorem rejoinComb_anv_images : ∀ s, (State.rejoinComb s).anv.images = s.anv.images := by
  intros; unfold State.rejoinComb; split <;> simp

@[simp] theorem rejoinMet_anv_images : ∀ s, (State.rejoinMet s).anv.images = s.anv.images := by
  intros; unfold State.rejoinMet; split <;> simp

@[simp] theorem rejoin_anv_images : ∀ k m s, (State.rejoin k m s).anv.images = s.anv.images := by intros; simp [State.rejoin]

@[simp] theorem control_anv_images : ∀ k m s, (State.control k m s).anv.images = s.anv.images := by
  intros; unfold State.control; split <;> simp

@[simp] theorem guardControl_anv_images : ∀ k s, (State.guardControl k s).anv.images = s.anv.images := by
  intros; simp [State.guardControl]

@[simp] theorem askOsc_anv_images : ∀ k s, (State.askOsc k s).anv.images = s.anv.images := by intros; simp [State.askOsc]

@[simp] theorem noteKey_anv_images : ∀ k s, (State.noteKey k s).anv.images = s.anv.images := by intros; simp [State.noteKey]

@[simp] theorem slotCheck_anv_images : ∀ k m s, (State.slotCheck k m s).anv.images = s.anv.images := by
  intros; simp [State.slotCheck]

@[simp] theorem latchSlots_anv_images : ∀ k s, (State.latchSlots k s).anv.images = s.anv.images := by
  intros; simp [State.latchSlots]

@[simp] theorem deliverSlots_anv_images : ∀ s, (State.deliverSlots s).anv.images = s.anv.images := by
  intros; simp [State.deliverSlots]

@[simp] theorem combCompare_anv_images : ∀ k m n s, (State.combCompare k m n s).anv.images = s.anv.images := by
  intros; simp [State.combCompare]

@[simp] theorem frameLines_anv_images : ∀ s, (State.frameLines s).anv.images = s.anv.images := by intros; simp [State.frameLines]

@[simp] theorem acquire_anv_images : ∀ k s, (State.acquire k s).anv.images = s.anv.images := by intros; simp [State.acquire]

@[simp] theorem survey_anv_images : ∀ s, (State.survey s).anv.images = s.anv.images := by intros; simp [State.survey]

@[simp] theorem relockFrame_anv_images : ∀ s, (State.relockFrame s).anv.images = s.anv.images := by
  intros; simp [State.relockFrame]

@[simp] theorem handOffFrame_anv_images : ∀ s, (State.handOffFrame s).anv.images = s.anv.images := by
  intros; simp [State.handOffFrame]

@[simp] theorem takePins_anv_images : ∀ s, (State.takePins s).anv.images = s.anv.images := by intros; simp [State.takePins]

@[simp] theorem combFrame_anv_images : ∀ k m n p s, (State.combFrame k m n p s).anv.images = s.anv.images := by
  intros; simp [State.combFrame]

theorem execCombFrame_anv_images : ∀ k m n p s, ∃ t, execCombFrame k m n p s = .next t ∧ t.anv.images = s.anv.images := by
  intros; refine ⟨_, rfl, ?_⟩; simp

theorem execEngFenced_anv_images : ∀ k s, ∃ t, execEngFenced k s = .next t ∧ t.anv.images = s.anv.images := by
  intros; refine ⟨_, rfl, ?_⟩; simp

@[simp] theorem book_anv_images : ∀ k m n s, (State.book k m n s).anv.images = s.anv.images := by intros; simp [State.book]

@[simp] theorem closePoint_anv_images : ∀ k s, (State.closePoint k s).anv.images = s.anv.images := by
  intros; unfold State.closePoint; split <;> simp

@[simp] theorem closeBalance_anv_images : ∀ k s, (State.closeBalance k s).anv.images = s.anv.images := by
  intros; unfold State.closeBalance; split <;> simp

@[simp] theorem closeDc_anv_images : ∀ k s, (State.closeDc k s).anv.images = s.anv.images := by intros; simp [State.closeDc]

@[simp] theorem startCapture_anv_images : ∀ k m n s, (State.startCapture k m n s).anv.images = s.anv.images := by
  intros; simp [State.startCapture]

@[simp] theorem trigger_anv_images : ∀ k m s, (State.trigger k m s).anv.images = s.anv.images := by
  intros; unfold State.trigger; dsimp only; (repeat' split) <;> simp

@[simp] theorem triggerBy_anv_images : ∀ k m s, (State.triggerBy k m s).anv.images = s.anv.images := by
  intros; unfold State.triggerBy; split <;> simp

@[simp] theorem dueTrigger_anv_images : ∀ k s, (State.dueTrigger k s).anv.images = s.anv.images := by
  intros; unfold State.dueTrigger; split <;> simp

@[simp] theorem enterDue_anv_images : ∀ k s, (State.enterDue k s).anv.images = s.anv.images := by
  intros; unfold State.enterDue; split <;> simp

@[simp] theorem due_anv_images : ∀ k m n p q r u s, (State.due k m n p q r u s).anv.images = s.anv.images := by
  intros; simp [State.due]

@[simp] theorem flushDue_anv_images : ∀ s, (State.flushDue s).anv.images = s.anv.images := by intros; simp [State.flushDue]

theorem execCaptureFilled_anv_images : ∀ k s, ∃ t, execCaptureFilled k s = .next t ∧ t.anv.images = s.anv.images := by
  intros; refine ⟨_, rfl, ?_⟩; simp

theorem execCaptureKeepExpiry_anv_images : ∀ k s, ∃ t, execCaptureKeepExpiry k s = .next t ∧ t.anv.images = s.anv.images := by
  intros; refine ⟨_, rfl, ?_⟩; simp

@[simp] theorem completeEvent_anv_images : ∀ k m n p q r u s,
    (State.completeEvent k m n p q r u s).anv.images = s.anv.images := by
  intros; simp [State.completeEvent]

@[simp] theorem autoFreeze_anv_images : ∀ k s, (State.autoFreeze k s).anv.images = s.anv.images := by
  intros; simp [State.autoFreeze]

@[simp] theorem freezeCount_anv_images : ∀ k m s, (State.freezeCount k m s).anv.images = s.anv.images := by
  intros; simp [State.freezeCount]

theorem execAutoFreezeEnd_anv_images : ∀ k s, ∃ t, execAutoFreezeEnd k s = .next t ∧ t.anv.images = s.anv.images := by
  intros; refine ⟨_, rfl, ?_⟩; simp

@[simp] theorem rvcValue_anv_images : ∀ k m n p s, (State.rvcValue k m n p s).anv.images = s.anv.images := by
  intros; unfold State.rvcValue; split <;> simp

@[simp] theorem startEvent_anv_images : ∀ k m n p q s, (State.startEvent k m n p q s).anv.images = s.anv.images := by
  intros; unfold State.startEvent; split <;> simp

@[simp] theorem eventStep_anv_images : ∀ k m n p s, (State.eventStep k m n p s).anv.images = s.anv.images := by
  intros; unfold State.eventStep; dsimp only; (repeat' split) <;> simp

@[simp] theorem flagBefore_anv_images : ∀ k s, (State.flagBefore k s).anv.images = s.anv.images := by
  intros; simp [State.flagBefore]

@[simp] theorem halfCycle_anv_images : ∀ k m s, (State.halfCycle k m s).anv.images = s.anv.images := by
  intros
  unfold State.halfCycle
  dsimp only
  simp only [onBus_anv, flagBefore_anv_images, ite_anv_images]
  split
  · rw [chain_anv_images _ _ _ (by intro x s; simp)]; simp
  · simp

@[simp] theorem powerFailEvents_anv_images : ∀ s, (State.powerFailEvents s).anv.images = s.anv.images := by
  intros
  unfold State.powerFailEvents
  dsimp only
  simp only [flushDue_anv_images]
  exact chain_anv_images _ _ _ (by intro x s; exact chain_anv_images _ _ _ (by intro x s; (repeat' split) <;> simp))

@[simp] theorem detected_anv_images : ∀ k m n p q r s, (State.detected k m n p q r s).anv.images = s.anv.images := by
  intros; simp [State.detected]

@[simp] theorem neutralLost_anv_images : ∀ k s, (State.neutralLost k s).anv.images = s.anv.images := by
  intros; simp [State.neutralLost]

@[simp] theorem neutralBypass_anv_images : ∀ k s, (State.neutralBypass k s).anv.images = s.anv.images := by
  intros; unfold State.neutralBypass; split <;> simp

@[simp] theorem reverseFlow_anv_images : ∀ k s, (State.reverseFlow k s).anv.images = s.anv.images := by
  intros; simp [State.reverseFlow]

@[simp] theorem cycleDetectors_anv_images : ∀ s, (State.cycleDetectors s).anv.images = s.anv.images := by
  intros; simp [State.cycleDetectors]

@[simp] theorem wrongSequence_anv_images : ∀ k s, (State.wrongSequence k s).anv.images = s.anv.images := by
  intros; simp [State.wrongSequence]

@[simp] theorem dcPresent_anv_images : ∀ k s, (State.dcPresent k s).anv.images = s.anv.images := by intros; simp [State.dcPresent]

@[simp] theorem magnet_anv_images : ∀ s, (State.magnet s).anv.images = s.anv.images := by intros; simp [State.magnet]

@[simp] theorem blockDetectors_anv_images : ∀ s, (State.blockDetectors s).anv.images = s.anv.images := by
  intros; simp [State.blockDetectors]

@[simp] theorem startSet_anv_images : ∀ s, (State.startSet s).anv.images = s.anv.images := by intros; simp [State.startSet]

@[simp] theorem publishSet_anv_images : ∀ s, (State.publishSet s).anv.images = s.anv.images := by intros; simp [State.publishSet]

theorem execWbSetEnd_anv_images : ∀ s, ∃ t, execWbSetEnd s = .next t ∧ t.anv.images = s.anv.images := by
  intros; refine ⟨_, rfl, ?_⟩; simp

@[simp] theorem refill_anv_images : ∀ s, (State.refill s).anv.images = s.anv.images := by
  intros; unfold State.refill; split <;> simp

@[simp] theorem seal_anv_images : ∀ k s, (State.seal k s).anv.images = s.anv.images := by
  intros; unfold State.seal; split <;> simp

@[simp] theorem cut_anv_images : ∀ k m s, (State.cut k m s).anv.images = s.anv.images := by intros; simp [State.cut]

theorem execFolioSealed_anv_images : ∀ k s, ∃ t, execFolioSealed k s = .next t ∧ t.anv.images = s.anv.images := by
  intros; refine ⟨_, rfl, ?_⟩; simp

@[simp] theorem writeRecord_anv_images : ∀ k s, (State.writeRecord k s).anv.images = s.anv.images := by
  intros; simp [State.writeRecord]

@[simp] theorem writeCheckpoint_anv_images : ∀ s, (State.writeCheckpoint s).anv.images = s.anv.images := by
  intros; simp [State.writeCheckpoint]

@[simp] theorem checkpoint_anv_images : ∀ s, (State.checkpoint s).anv.images = s.anv.images := by intros; simp [State.checkpoint]

@[simp] theorem extraCheckpoint_anv_images : ∀ s, (State.extraCheckpoint s).anv.images = s.anv.images := by
  intros; simp [State.extraCheckpoint]

@[simp] theorem reloadCell_anv_images : ∀ k m s, (State.reloadCell k m s).anv.images = s.anv.images := by
  intros; unfold State.reloadCell; split <;> simp

@[simp] theorem lostInterval_anv_images : ∀ s, (State.lostInterval s).anv.images = s.anv.images := by
  intros; simp [State.lostInterval]

@[simp] theorem accLost_anv_images : ∀ k s, (State.accLost k s).anv.images = s.anv.images := by
  intros; unfold State.accLost; dsimp only; (repeat' split) <;> simp

@[simp] theorem fenceBank_anv_images : ∀ k s, (State.fenceBank k s).anv.images = s.anv.images := by intros; simp [State.fenceBank]

@[simp] theorem rewrite_anv_images : ∀ k m s, (State.rewrite k m s).anv.images = s.anv.images := by intros; simp [State.rewrite]

@[simp] theorem accError_anv_images : ∀ k m s, (State.accError k m s).anv.images = s.anv.images := by
  intros; simp [State.accError]

@[simp] theorem accErrors_anv_images : ∀ k s, (State.accErrors k s).anv.images = s.anv.images := by intros; simp [State.accErrors]

theorem execAccScrub_anv_images : ∀ k s, ∃ t, execAccScrub k s = .next t ∧ t.anv.images = s.anv.images := by
  intros; refine ⟨_, rfl, ?_⟩; simp

@[simp] theorem closeChannel_anv_images : ∀ k z n s, (State.closeChannel k z n s).anv.images = s.anv.images := by
  intros; simp [State.closeChannel]

@[simp] theorem closeBus_anv_images : ∀ k z n s, (State.closeBus k z n s).anv.images = s.anv.images := by
  intros; simp [State.closeBus]

@[simp] theorem close150_anv_images : ∀ k s, (State.close150 k s).anv.images = s.anv.images := by intros; simp [State.close150]

theorem execAggregateClose_anv_images : ∀ s, ∃ t, execAggregateClose s = .next t ∧ t.anv.images = s.anv.images := by
  intros; refine ⟨_, rfl, ?_⟩; simp

@[simp] theorem applyNomf_anv_images : ∀ s, (State.applyNomf s).anv.images = s.anv.images := by intros; simp [State.applyNomf]

@[simp] theorem asEnded_anv_images : ∀ s, (State.asEnded s).anv.images = s.anv.images := by intros; simp [State.asEnded]

@[simp] theorem closeBlock_anv_images : ∀ k s, (State.closeBlock k s).anv.images = s.anv.images := by
  intros; simp [State.closeBlock]

theorem execBlockClose_anv_images : ∀ s, ∃ t, execBlockClose s = .next t ∧ t.anv.images = s.anv.images := by
  intros; refine ⟨_, rfl, ?_⟩; simp

@[simp] theorem countedAggs_anv_images : ∀ s, (State.countedAggs s).anv.images = s.anv.images := by
  intros; simp [State.countedAggs]

@[simp] theorem tenMinuteTick_anv_images : ∀ s, (State.tenMinuteTick s).anv.images = s.anv.images := by
  intros; simp [State.tenMinuteTick]

theorem execTenMinuteTick_anv_images : ∀ s, ∃ t, execTenMinuteTick s = .next t ∧ t.anv.images = s.anv.images := by
  intros; refine ⟨_, rfl, ?_⟩; simp

@[simp] theorem frequencyClose_anv_images : ∀ s, (State.frequencyClose s).anv.images = s.anv.images := by
  intros; simp [State.frequencyClose]

theorem execFrequencyIntervalClose_anv_images : ∀ s,
    ∃ t, execFrequencyIntervalClose s = .next t ∧ t.anv.images = s.anv.images := by
  intros; refine ⟨_, rfl, ?_⟩; simp

@[simp] theorem changeUdin_anv_images : ∀ k s, (State.changeUdin k s).anv.images = s.anv.images := by
  intros; simp [State.changeUdin]

@[simp] theorem udinNow_anv_images : ∀ s, (State.udinNow s).anv.images = s.anv.images := by intros; simp [State.udinNow]

@[simp] theorem spoilFolio_anv_images : ∀ k m n s, (State.spoilFolio k m n s).anv.images = s.anv.images := by
  intros; simp [State.spoilFolio]

@[simp] theorem spoilRead_anv_images : ∀ k s, (State.spoilRead k s).anv.images = s.anv.images := by
  intros; unfold State.spoilRead; split <;> simp

@[simp] theorem noteUncorr_anv_images : ∀ k s, (State.noteUncorr k s).anv.images = s.anv.images := by
  intros; simp [State.noteUncorr]

@[simp] theorem readError_anv_images : ∀ k s, (State.readError k s).anv.images = s.anv.images := by intros; simp [State.readError]

@[simp] theorem onFolio_anv_images : ∀ k m n s q, (∀ x, (q x).anv.images = s.anv.images) →
    (State.onFolio k m n s q).anv.images = s.anv.images := by
  intros; unfold State.onFolio; (repeat' split) <;> simp [*]

theorem execFolioRead_anv_images : ∀ k m n p q s, ∃ t, execFolioRead k m n p q s = .next t ∧ t.anv.images = s.anv.images := by
  intros; refine ⟨_, rfl, ?_⟩; refine command_keeps (fun s => s.anv.images) _ _ (by simp) (by simp) ?_; intro s; simp

@[simp] theorem grant_anv_images : ∀ k m n s, (State.grant k m n s).1.anv.images = s.anv.images := by
  intros; unfold State.grant; dsimp only; (repeat' split) <;> simp

@[simp] theorem lease_anv_images : ∀ k m n s, (State.lease k m n s).1.anv.images = s.anv.images := by
  intros; unfold State.lease; (repeat' split) <;> simp

theorem execFolioLease_anv_images : ∀ k m n s, ∃ t, execFolioLease k m n s = .next t ∧ t.anv.images = s.anv.images := by
  intros; refine ⟨_, rfl, ?_⟩; simp

@[simp] theorem endLease_anv_images : ∀ k m s, (State.endLease k m s).anv.images = s.anv.images := by
  intros; simp [State.endLease]

@[simp] theorem renew_anv_images : ∀ k m n s, (State.renew k m n s).1.anv.images = s.anv.images := by
  intros; unfold State.renew; split <;> simp

theorem execFolioRenew_anv_images : ∀ k m n s, ∃ t, execFolioRenew k m n s = .next t ∧ t.anv.images = s.anv.images := by
  intros; refine ⟨_, rfl, ?_⟩; simp

@[simp] theorem release_anv_images : ∀ k m s, (State.release k m s).1.anv.images = s.anv.images := by
  intros; unfold State.release; split <;> simp

theorem execFolioRelease_anv_images : ∀ k m s, ∃ t, execFolioRelease k m s = .next t ∧ t.anv.images = s.anv.images := by
  intros; refine ⟨_, rfl, ?_⟩; simp

theorem execLeaseExpiry_anv_images : ∀ k m s, ∃ t, execLeaseExpiry k m s = .next t ∧ t.anv.images = s.anv.images := by
  intros; refine ⟨_, rfl, ?_⟩; simp

@[simp] theorem demandCut_anv_images : ∀ s, (State.demandCut s).1.anv.images = s.anv.images := by
  intros; unfold State.demandCut; split <;> simp

theorem execFolioCut_anv_images : ∀ k s, ∃ t, execFolioCut k s = .next t ∧ t.anv.images = s.anv.images := by
  intros; refine ⟨_, rfl, ?_⟩; simp

theorem execFolioSealGet_anv_images : ∀ k m s, ∃ t, execFolioSealGet k m s = .next t ∧ t.anv.images = s.anv.images := by
  intros; refine ⟨_, rfl, ?_⟩; simp

theorem execParamRead_anv_images : ∀ k m n s, ∃ t, execParamRead k m n s = .next t ∧ t.anv.images = s.anv.images := by
  intros; refine ⟨_, rfl, ?_⟩; simp

theorem execScRead_anv_images : ∀ k m n p s, ∃ t, execScRead k m n p s = .next t ∧ t.anv.images = s.anv.images := by
  intros; refine ⟨_, rfl, ?_⟩; simp

theorem execBlotRead_anv_images : ∀ k s, ∃ t, execBlotRead k s = .next t ∧ t.anv.images = s.anv.images := by
  intros; refine ⟨_, rfl, ?_⟩; simp

@[simp] theorem judgeAdmitted_anv_images : ∀ k s, (State.judgeAdmitted k s).1.anv.images = s.anv.images := by
  intros; unfold State.judgeAdmitted; dsimp only; (repeat' split) <;> simp

@[simp] theorem admitFrame_anv_images : ∀ k m n p s, (State.admitFrame k m n p s).anv.images = s.anv.images := by
  intros; unfold State.admitFrame; dsimp only; (repeat' split) <;> simp

@[simp] theorem judgeOpcode_anv_images : ∀ k m n p s, (State.judgeOpcode k m n p s).anv.images = s.anv.images := by
  intros; unfold State.judgeOpcode; (repeat' split) <;> simp

@[simp] theorem authFailure_anv_images : ∀ k m n s, (State.authFailure k m n s).anv.images = s.anv.images := by
  intros; simp [State.authFailure]

@[simp] theorem judgeSequence_anv_images : ∀ k m n p s, (State.judgeSequence k m n p s).anv.images = s.anv.images := by
  intros; simp [State.judgeSequence]

@[simp] theorem judgeSession_anv_images : ∀ k m n p s, (State.judgeSession k m n p s).anv.images = s.anv.images := by
  intros; unfold State.judgeSession; (repeat' split) <;> simp

@[simp] theorem judgeFrame_anv_images : ∀ k m s, (State.judgeFrame k m s).anv.images = s.anv.images := by
  intros; unfold State.judgeFrame; dsimp only; (repeat' split) <;> simp

@[simp] theorem frameReceive_anv_images : ∀ k m s, (State.frameReceive k m s).anv.images = s.anv.images := by
  intros; unfold State.frameReceive; (repeat' split) <;> simp

theorem execFrameReceive_anv_images : ∀ k m n s, ∃ t, execFrameReceive k m n s = .next t ∧ t.anv.images = s.anv.images := by
  intros; refine ⟨_, rfl, ?_⟩; simp

@[simp] theorem alarmEvent_anv_images : ∀ k m s, (State.alarmEvent k m s).anv.images = s.anv.images := by
  intros; simp [State.alarmEvent]

@[simp] theorem alarmFire_anv_images : ∀ k m n p s, (State.alarmFire k m n p s).anv.images = s.anv.images := by
  intros; simp [State.alarmFire]

@[simp] theorem alarmForward_anv_images : ∀ k m n p s, (State.alarmForward k m n p s).anv.images = s.anv.images := by
  intros; unfold State.alarmForward; dsimp only; (repeat' split) <;> simp

@[simp] theorem alarmsAtStep_anv_images : ∀ k m n s, (State.alarmsAtStep k m n s).anv.images = s.anv.images := by
  intros; simp [State.alarmsAtStep]

@[simp] theorem badSet_anv_images : ∀ s, (State.badSet s).anv.images = s.anv.images := by intros; simp [State.badSet]

@[simp] theorem calStep_anv_images : ∀ k m s, (State.calStep k m s).anv.images = s.anv.images := by intros; simp [State.calStep]

@[simp] theorem calFirstSet_anv_images : ∀ k m s, (State.calFirstSet k m s).anv.images = s.anv.images := by
  intros; simp [State.calFirstSet]

@[simp] theorem cldSet_anv_images : ∀ k m s, (State.cldSet k m s).anv.images = s.anv.images := by intros; simp [State.cldSet]

theorem execCldSet_anv_images : ∀ k m s, ∃ t, execCldSet k m s = .next t ∧ t.anv.images = s.anv.images := by
  intros; refine ⟨_, rfl, ?_⟩; simp

@[simp] theorem cldAdjusted_anv_images : ∀ k m n s, (State.cldAdjusted k m n s).anv.images = s.anv.images := by
  intros; simp [State.cldAdjusted]

@[simp] theorem adjustStep_anv_images : ∀ k m n s, (State.adjustStep k m n s).anv.images = s.anv.images := by
  intros; simp [State.adjustStep]

theorem execCldAdjustStep_anv_images : ∀ k m n s, ∃ t, execCldAdjustStep k m n s = .next t ∧ t.anv.images = s.anv.images := by
  intros; refine ⟨_, rfl, ?_⟩; simp

@[simp] theorem adjustSlew_anv_images : ∀ k m n s, (State.adjustSlew k m n s).anv.images = s.anv.images := by
  intros; simp [State.adjustSlew]

theorem execCldAdjustSlew_anv_images : ∀ k m n s, ∃ t, execCldAdjustSlew k m n s = .next t ∧ t.anv.images = s.anv.images := by
  intros; refine ⟨_, rfl, ?_⟩; simp

theorem execCldAlarmAck_anv_images : ∀ k m s, ∃ t, execCldAlarmAck k m s = .next t ∧ t.anv.images = s.anv.images := by
  intros; refine ⟨_, rfl, ?_⟩; simp

@[simp] theorem secondBoundary_anv_images : ∀ s, (State.secondBoundary s).anv.images = s.anv.images := by
  intros; simp [State.secondBoundary]

theorem execCalSecondBoundary_anv_images : ∀ s, ∃ t, execCalSecondBoundary s = .next t ∧ t.anv.images = s.anv.images := by
  intros; refine ⟨_, rfl, ?_⟩; simp

theorem execCalStopped_anv_images : ∀ s, ∃ t, execCalStopped s = .next t ∧ t.anv.images = s.anv.images := by
  intros; refine ⟨_, rfl, ?_⟩; simp

theorem execSlewEnd_anv_images : ∀ s, ∃ t, execSlewEnd s = .next t ∧ t.anv.images = s.anv.images := by
  intros; refine ⟨_, rfl, ?_⟩; simp

@[simp] theorem demandClose_anv_images : ∀ k s, (State.demandClose k s).anv.images = s.anv.images := by
  intros; simp [State.demandClose]

theorem execDemandClose_anv_images : ∀ k s, ∃ t, execDemandClose k s = .next t ∧ t.anv.images = s.anv.images := by
  intros; refine ⟨_, rfl, ?_⟩; simp

@[simp] theorem applyProfEn_anv_images : ∀ s, (State.applyProfEn s).anv.images = s.anv.images := by
  intros; simp [State.applyProfEn]

@[simp] theorem openProfile_anv_images : ∀ k s, (State.openProfile k s).anv.images = s.anv.images := by
  intros; simp [State.openProfile]

@[simp] theorem countLost_anv_images : ∀ k s, (State.countLost k s).anv.images = s.anv.images := by
  intros; unfold State.countLost; split <;> simp

@[simp] theorem loseRecords_anv_images : ∀ k s, (State.loseRecords k s).anv.images = s.anv.images := by
  intros; unfold State.loseRecords; split <;> simp

@[simp] theorem writeGroup_anv_images : ∀ k s, (State.writeGroup k s).anv.images = s.anv.images := by
  intros; simp [State.writeGroup]

@[simp] theorem profileClose_anv_images : ∀ k s, (State.profileClose k s).anv.images = s.anv.images := by
  intros; simp [State.profileClose]

@[simp] theorem residual_anv_images : ∀ k m n p q s, (State.residual k m n p q s).anv.images = s.anv.images := by
  intros; simp [State.residual]

@[simp] theorem balanceClose_anv_images : ∀ k m s, (State.balanceClose k m s).anv.images = s.anv.images := by
  intros; simp [State.balanceClose]

theorem execBalanceClose_anv_images : ∀ k s, ∃ t, execBalanceClose k s = .next t ∧ t.anv.images = s.anv.images := by
  intros; refine ⟨_, rfl, ?_⟩; simp

@[simp] theorem switchRef_anv_images : ∀ k m s, (State.switchRef k m s).anv.images = s.anv.images := by
  intros; simp [State.switchRef]

@[simp] theorem enterFreerun_anv_images : ∀ s, (State.enterFreerun s).anv.images = s.anv.images := by
  intros; simp [State.enterFreerun]

@[simp] theorem enterHoldover_anv_images : ∀ k s, (State.enterHoldover k s).anv.images = s.anv.images := by
  intros; simp [State.enterHoldover]

@[simp] theorem chooseRef_anv_images : ∀ k m n s, (State.chooseRef k m n s).anv.images = s.anv.images := by
  intros; unfold State.chooseRef; dsimp only; (repeat' split) <;> simp

@[simp] theorem judgeLock_anv_images : ∀ s, (State.judgeLock s).anv.images = s.anv.images := by
  intros; unfold State.judgeLock; dsimp only; (repeat' split) <;> simp

@[simp] theorem closeTimebase_anv_images : ∀ s, (State.closeTimebase s).anv.images = s.anv.images := by
  intros; simp [State.closeTimebase]

@[simp] theorem absorbDelay_anv_images : ∀ k m s, (State.absorbDelay k m s).anv.images = s.anv.images := by
  intros; unfold State.absorbDelay; split <;> simp

theorem execFreerunEntry_anv_images : ∀ s, ∃ t, execFreerunEntry s = .next t ∧ t.anv.images = s.anv.images := by
  intros; refine ⟨_, rfl, ?_⟩; split <;> simp

theorem execLsyncEdge_anv_images : ∀ k m s, ∃ t, execLsyncEdge k m s = .next t ∧ t.anv.images = s.anv.images := by
  intros; refine ⟨_, rfl, ?_⟩; simp

theorem execLsyncTimeout_anv_images : ∀ s, ∃ t, execLsyncTimeout s = .next t ∧ t.anv.images = s.anv.images := by
  intros; refine ⟨_, rfl, ?_⟩; simp

@[simp] theorem convert_anv_images : ∀ k m s, (State.convert k m s).anv.images = s.anv.images := by intros; simp [State.convert]

@[simp] theorem reconcile_anv_images : ∀ k s, (State.reconcile k s).anv.images = s.anv.images := by intros; simp [State.reconcile]

@[simp] theorem firstCommit_anv_images : ∀ k s, (State.firstCommit k s).anv.images = s.anv.images := by
  intros; simp [State.firstCommit]

@[simp] theorem commitSet_anv_images : ∀ k s, (State.commitSet k s).anv.images = s.anv.images := by intros; simp [State.commitSet]

@[simp] theorem commitBoundary_anv_images : ∀ s, (State.commitBoundary s).anv.images = s.anv.images := by
  intros; unfold State.commitBoundary; split <;> simp

@[simp] theorem reloadCal_anv_images : ∀ s, (State.reloadCal s).anv.images = s.anv.images := by intros; simp [State.reloadCal]

@[simp] theorem calParity_anv_images : ∀ k s, (State.calParity k s).anv.images = s.anv.images := by intros; simp [State.calParity]

@[simp] theorem resolvePoint_anv_images : ∀ k m s, (State.resolvePoint k m s).anv.images = s.anv.images := by
  intros; simp [State.resolvePoint]

@[simp] theorem resolveOne_anv_images : ∀ k s, (State.resolveOne k s).anv.images = s.anv.images := by
  intros; simp [State.resolveOne]

@[simp] theorem resolveBoundary_anv_images : ∀ s, (State.resolveBoundary s).anv.images = s.anv.images := by
  intros; simp [State.resolveBoundary]

@[simp] theorem resetDemand_anv_images : ∀ k s, (State.resetDemand k s).anv.images = s.anv.images := by
  intros; simp [State.resetDemand]

@[simp] theorem resetReply_anv_images : ∀ k s, (State.resetReply k s).anv.images = s.anv.images := by
  intros; simp [State.resetReply]

@[simp] theorem resetBoundary_anv_images : ∀ s, (State.resetBoundary s).anv.images = s.anv.images := by
  intros; simp [State.resetBoundary]

@[simp] theorem dropOldWindows_anv_images : ∀ s, (State.dropOldWindows s).anv.images = s.anv.images := by
  intros; simp [State.dropOldWindows]

theorem execDemandReset_anv_images : ∀ k m s, ∃ t, execDemandReset k m s = .next t ∧ t.anv.images = s.anv.images := by
  intros; refine ⟨_, rfl, ?_⟩; simp

theorem execCalCommit_anv_images : ∀ k m s, ∃ t, execCalCommit k m s = .next t ∧ t.anv.images = s.anv.images := by
  intros; refine ⟨_, rfl, ?_⟩; simp

theorem execCalPendingRead_anv_images : ∀ k m n s, ∃ t, execCalPendingRead k m n s = .next t ∧ t.anv.images = s.anv.images := by
  intros; refine ⟨_, rfl, ?_⟩; split <;> simp

theorem execCalPendingResolve_anv_images : ∀ k m n s,
    ∃ t, execCalPendingResolve k m n s = .next t ∧ t.anv.images = s.anv.images := by
  intros; refine ⟨_, rfl, ?_⟩; simp

@[simp] theorem pulseSample_anv_images : ∀ k m s, (State.pulseSample k m s).anv.images = s.anv.images := by
  intros; simp [State.pulseSample]

@[simp] theorem pulseClose_anv_images : ∀ k s, (State.pulseClose k s).anv.images = s.anv.images := by
  intros; simp [State.pulseClose]

@[simp] theorem rebase_anv_images : ∀ k s, (State.rebase k s).anv.images = s.anv.images := by intros; simp [State.rebase]

theorem execPulseLeadingEdge_anv_images : ∀ k s, ∃ t, execPulseLeadingEdge k s = .next t ∧ t.anv.images = s.anv.images := by
  intros; refine ⟨_, rfl, ?_⟩; split <;> simp

theorem execPulseTrailingEdge_anv_images : ∀ k s, ∃ t, execPulseTrailingEdge k s = .next t ∧ t.anv.images = s.anv.images := by
  intros; refine ⟨_, rfl, ?_⟩; simp

@[simp] theorem halfEnd_anv_images : ∀ k s, (State.halfEnd k s).anv.images = s.anv.images := by intros; simp [State.halfEnd]

@[simp] theorem keepBatch_anv_images : ∀ k m s, (State.keepBatch k m s).anv.images = s.anv.images := by
  intros; simp [State.keepBatch]

@[simp] theorem takeBatch_anv_images : ∀ k s, (State.takeBatch k s).anv.images = s.anv.images := by intros; simp [State.takeBatch]

@[simp] theorem sampleBatch_anv_images : ∀ k m s, (State.sampleBatch k m s).anv.images = s.anv.images := by
  intros; simp [State.sampleBatch]

theorem execSampleBatch_anv_images : ∀ k m s, ∃ t, execSampleBatch k m s = .next t ∧ t.anv.images = s.anv.images := by
  intros; refine ⟨_, rfl, ?_⟩; simp

@[simp] theorem replayBatch_anv_images : ∀ k s, (State.replayBatch k s).anv.images = s.anv.images := by
  intros; simp [State.replayBatch]

@[simp] theorem replayFrom_anv_images : ∀ k s, (State.replayFrom k s).anv.images = s.anv.images := by
  intros; unfold State.replayFrom; split <;> simp

@[simp] theorem metrologyReplay_anv_images : ∀ k m n s, (State.metrologyReplay k m n s).anv.images = s.anv.images := by
  intros; simp [State.metrologyReplay]

theorem execMetrologyReplay_anv_images : ∀ k m n s, ∃ t, execMetrologyReplay k m n s = .next t ∧ t.anv.images = s.anv.images := by
  intros; refine ⟨_, rfl, ?_⟩; simp

@[simp] theorem noteCommit_anv_images : ∀ s, (State.noteCommit s).anv.images = s.anv.images := by intros; simp [State.noteCommit]

@[simp] theorem markSteps_anv_images : ∀ s, (State.markSteps s).anv.images = s.anv.images := by intros; simp [State.markSteps]

@[simp] theorem channelsToBlock_anv_images : ∀ s, (State.channelsToBlock s).anv.images = s.anv.images := by
  intros; simp [State.channelsToBlock]

@[simp] theorem closeQuantities_anv_images : ∀ k s, (State.closeQuantities k s).anv.images = s.anv.images := by
  intros; simp [State.closeQuantities]

@[simp] theorem boundaryImage_anv_images : ∀ k s, (State.boundaryImage k s).anv.images = s.anv.images := by
  intros; simp [State.boundaryImage]

@[simp] theorem turnCycle_anv_images : ∀ s, (State.turnCycle s).anv.images = s.anv.images := by intros; simp [State.turnCycle]

@[simp] theorem enforce_anv_images : ∀ k s, (State.enforce k s).anv.images = s.anv.images := by intros; simp [State.enforce]

@[simp] theorem changeDemand_anv_images : ∀ k s, (State.changeDemand k s).anv.images = s.anv.images := by
  intros; simp [State.changeDemand]

@[simp] theorem closeChanged_anv_images : ∀ k s, (State.closeChanged k s).anv.images = s.anv.images := by
  intros
  unfold State.closeChanged
  exact chain_anv_images _ _ _ (by intro x s; dsimp only; split <;> simp)

@[simp] theorem afterSettings_anv_images : ∀ k m n s, (State.afterSettings k m n s).anv.images = s.anv.images := by
  intros
  unfold State.afterSettings
  dsimp only
  rw [chain_anv_images _ _ _ (by intro x s; simp), chain_anv_images _ _ _ (by intro x s; split <;> simp)]

@[simp] theorem applySettings_anv_images : ∀ s, (State.applySettings s).anv.images = s.anv.images := by
  intros; simp [State.applySettings]

@[simp] theorem trimsBoundary_anv_images : ∀ s, (State.trimsBoundary s).anv.images = s.anv.images := by
  intros; unfold State.trimsBoundary; dsimp only; split <;> simp

@[simp] theorem bankBoundary_anv_images : ∀ s, (State.bankBoundary s).anv.images = s.anv.images := by
  intros; simp [State.bankBoundary]

@[simp] theorem closeSteps_anv_images : ∀ k s, (State.closeSteps k s).anv.images = s.anv.images := by
  intros; simp [State.closeSteps]

@[simp] theorem cutAsked_anv_images : ∀ s, (State.cutAsked s).anv.images = s.anv.images := by intros; simp [State.cutAsked]

@[simp] theorem closureRecord_anv_images : ∀ s, (State.closureRecord s).anv.images = s.anv.images := by
  intros; simp [State.closureRecord]

@[simp] theorem openNext_anv_images : ∀ s, (State.openNext s).anv.images = s.anv.images := by intros; simp [State.openNext]

theorem execBlotClear_anv_images : ∀ k m s, ∃ t, execBlotClear k m s = .next t ∧ t.anv.images = s.anv.images := by
  intros; refine ⟨_, rfl, ?_⟩; simp

theorem execBankEnter_anv_images : ∀ k s, ∃ t, execBankEnter k s = .next t ∧ t.anv.images = s.anv.images := by
  intros
  refine ⟨_, rfl, ?_⟩
  refine command_keeps (fun s => s.anv.images) _ _ (by simp) (by simp) ?_
  intro s
  dsimp only
  (repeat' split) <;> simp

theorem execBankExit_anv_images : ∀ k s, ∃ t, execBankExit k s = .next t ∧ t.anv.images = s.anv.images := by
  intros; refine ⟨_, rfl, ?_⟩; simp

theorem execSoftReset_anv_images : ∀ k m s, ∃ t, execSoftReset k m s = .next t ∧ t.anv.images = s.anv.images := by
  intros; refine ⟨_, rfl, ?_⟩; simp

theorem execCfgSave_anv_images : ∀ k s, ∃ t, execCfgSave k s = .next t ∧ t.anv.images = s.anv.images := by
  intros; refine ⟨_, rfl, ?_⟩; simp

theorem execInkLock_anv_images : ∀ k m s, ∃ t, execInkLock k m s = .next t ∧ t.anv.images = s.anv.images := by
  intros; refine ⟨_, rfl, ?_⟩; simp

@[simp] theorem endLock_anv_images : ∀ s, (State.endLock s).anv.images = s.anv.images := by
  intros; unfold State.endLock; split <;> simp

theorem execInkUnlock_anv_images : ∀ k s, ∃ t, execInkUnlock k s = .next t ∧ t.anv.images = s.anv.images := by
  intros; refine ⟨_, rfl, ?_⟩; simp

theorem execInkLockExpiry_anv_images : ∀ s, ∃ t, execInkLockExpiry s = .next t ∧ t.anv.images = s.anv.images := by
  intros; refine ⟨_, rfl, ?_⟩; simp

@[simp] theorem eventRead_anv_images : ∀ k m s, (State.eventRead k m s).anv.images = s.anv.images := by
  intros; simp [State.eventRead]

theorem execEventRead_anv_images : ∀ k m s, ∃ t, execEventRead k m s = .next t ∧ t.anv.images = s.anv.images := by
  intros; refine ⟨_, rfl, ?_⟩; simp

theorem execEventAck_anv_images : ∀ k m s, ∃ t, execEventAck k m s = .next t ∧ t.anv.images = s.anv.images := by
  intros; refine ⟨_, rfl, ?_⟩; simp

@[simp] theorem profileRead_anv_images : ∀ k m n s, (State.profileRead k m n s).anv.images = s.anv.images := by
  intros; simp [State.profileRead]

theorem execProfileRead_anv_images : ∀ k m n s, ∃ t, execProfileRead k m n s = .next t ∧ t.anv.images = s.anv.images := by
  intros; refine ⟨_, rfl, ?_⟩; simp

theorem execProfileAck_anv_images : ∀ k m s, ∃ t, execProfileAck k m s = .next t ∧ t.anv.images = s.anv.images := by
  intros; refine ⟨_, rfl, ?_⟩; simp

theorem execWbRead_anv_images : ∀ k m n p s, ∃ t, execWbRead k m n p s = .next t ∧ t.anv.images = s.anv.images := by
  intros
  refine ⟨_, rfl, ?_⟩
  refine command_keeps (fun s => s.anv.images) _ _ (by simp) (by simp) ?_
  intro s
  (repeat' split) <;> simp

theorem execCapRead_anv_images : ∀ k m n p s, ∃ t, execCapRead k m n p s = .next t ∧ t.anv.images = s.anv.images := by
  intros
  refine ⟨_, rfl, ?_⟩
  refine command_keeps (fun s => s.anv.images) _ _ (by simp) (by simp) ?_
  intro s
  dsimp only
  (repeat' split) <;> simp

theorem execCapTrigger_anv_images : ∀ k s, ∃ t, execCapTrigger k s = .next t ∧ t.anv.images = s.anv.images := by
  intros
  refine ⟨_, rfl, ?_⟩
  refine command_keeps (fun s => s.anv.images) _ _ (by simp) (by simp) ?_
  intro s
  dsimp only
  (repeat' split) <;> simp

theorem execCapRelease_anv_images : ∀ k m s, ∃ t, execCapRelease k m s = .next t ∧ t.anv.images = s.anv.images := by
  intros
  refine ⟨_, rfl, ?_⟩
  refine command_keeps (fun s => s.anv.images) _ _ (by simp) (by simp) ?_
  intro s
  dsimp only
  (repeat' split) <;> simp

@[simp] theorem logRead_anv_images : ∀ k m n s, (State.logRead k m n s).anv.images = s.anv.images := by
  intros; simp [State.logRead]

theorem execLogRead_anv_images : ∀ k m n s, ∃ t, execLogRead k m n s = .next t ∧ t.anv.images = s.anv.images := by
  intros; refine ⟨_, rfl, ?_⟩; simp

@[simp] theorem writeLog_anv_images : ∀ s, (State.writeLog s).anv.images = s.anv.images := by
  intros; unfold State.writeLog; dsimp only; (repeat' split) <;> simp

@[simp] theorem fillLog_anv_images : ∀ k s, (State.fillLog k s).anv.images = s.anv.images := by
  intro k s
  induction k generalizing s with
  | zero => rfl
  | succ k ih => unfold State.fillLog; split <;> simp [*]

@[simp] theorem logEcc_anv_images : ∀ k s, (State.logEcc k s).anv.images = s.anv.images := by intros; simp [State.logEcc]

theorem execEventLogWrite_anv_images : ∀ k s, ∃ t, execEventLogWrite k s = .next t ∧ t.anv.images = s.anv.images := by
  intros; refine ⟨_, rfl, ?_⟩; (repeat' split) <;> simp

@[simp] theorem fwCommand_anv_images : ∀ k m s p, (∀ x, (p x).anv.images = x.anv.images) →
    (State.fwCommand k m s p).anv.images = s.anv.images := by
  intros; unfold State.fwCommand; (repeat' split) <;> simp [*]

@[simp] theorem fwState_anv_images : ∀ k s, (State.fwState k s).anv.images = s.anv.images := by intros; simp [State.fwState]

theorem execFwBegin_anv_images : ∀ k m s, ∃ t, execFwBegin k m s = .next t ∧ t.anv.images = s.anv.images := by
  intros; refine ⟨_, rfl, ?_⟩; simp

theorem execFwWrite_anv_images : ∀ k m n s, ∃ t, execFwWrite k m n s = .next t ∧ t.anv.images = s.anv.images := by
  intros; refine ⟨_, rfl, ?_⟩; simp

theorem execFwVerify_anv_images : ∀ k s, ∃ t, execFwVerify k s = .next t ∧ t.anv.images = s.anv.images := by
  intros; refine ⟨_, rfl, ?_⟩; simp

@[simp] theorem restartCores_anv_images : ∀ s, (State.restartCores s).anv.images = s.anv.images := by
  intros; simp [State.restartCores]

@[simp] theorem noteRecovery_anv_images : ∀ s, (State.noteRecovery s).anv.images = s.anv.images := by
  intros; simp [State.noteRecovery]

@[simp] theorem revert_anv_images : ∀ k s, (State.revert k s).anv.images = s.anv.images := by intros; simp [State.revert]

@[simp] theorem revertOrHold_anv_images : ∀ k s, (State.revertOrHold k s).anv.images = s.anv.images := by
  intros; simp [State.revertOrHold]

@[simp] theorem bootSlot_anv_images : ∀ s, (State.bootSlot s).anv.images = s.anv.images := by intros; simp [State.bootSlot]

@[simp] theorem spoilSlot_anv_images : ∀ k s, (State.spoilSlot k s).anv.images = s.anv.images := by intros; simp [State.spoilSlot]

@[simp] theorem loadCores_anv_images : ∀ k m s, (State.loadCores k m s).anv.images = s.anv.images := by
  intros; simp [State.loadCores]

@[simp] theorem restartAnvil_anv_images : ∀ k s, (State.restartAnvil k s).anv.images = s.anv.images := by
  intros; simp [State.restartAnvil]

@[simp] theorem selfCheck_anv_images : ∀ s, (State.selfCheck s).anv.images = s.anv.images := by intros; simp [State.selfCheck]

@[simp] theorem switchSlot_anv_images : ∀ k s, (State.switchSlot k s).anv.images = s.anv.images := by
  intros; simp [State.switchSlot]

theorem execFwActivate_anv_images : ∀ k s, ∃ t, execFwActivate k s = .next t ∧ t.anv.images = s.anv.images := by
  intros; refine ⟨_, rfl, ?_⟩; simp

@[simp] theorem commitTrial_anv_images : ∀ s, (State.commitTrial s).anv.images = s.anv.images := by
  intros; simp [State.commitTrial]

theorem execFwTrialEnd_anv_images : ∀ s, ∃ t, execFwTrialEnd s = .next t ∧ t.anv.images = s.anv.images := by
  intros; refine ⟨_, rfl, ?_⟩; simp

@[simp] theorem heldWrites_anv_images : ∀ s, (State.heldWrites s).anv.images = s.anv.images := by
  intros; unfold State.heldWrites; split <;> simp

@[simp] theorem sramError_anv_images : ∀ k s, (State.sramError k s).anv.images = s.anv.images := by
  intros; unfold State.sramError; split <;> simp

theorem execSramScrub_anv_images : ∀ k s, ∃ t, execSramScrub k s = .next t ∧ t.anv.images = s.anv.images := by
  intros; refine ⟨_, rfl, ?_⟩; simp

@[simp] theorem changeRef_anv_images : ∀ k s, (State.changeRef k s).anv.images = s.anv.images := by intros; simp [State.changeRef]

@[simp] theorem xtalFail_anv_images : ∀ s, (State.xtalFail s).anv.images = s.anv.images := by intros; simp [State.xtalFail]

theorem execXtalFail_anv_images : ∀ s, ∃ t, execXtalFail s = .next t ∧ t.anv.images = s.anv.images := by
  intros; refine ⟨_, rfl, ?_⟩; simp

theorem execXtalRate_anv_images : ∀ k s, ∃ t, execXtalRate k s = .next t ∧ t.anv.images = s.anv.images := by
  intros; refine ⟨_, rfl, ?_⟩; simp

@[simp] theorem xtalReturn_anv_images : ∀ s, (State.xtalReturn s).anv.images = s.anv.images := by intros; simp [State.xtalReturn]

theorem execXtalReturn_anv_images : ∀ s, ∃ t, execXtalReturn s = .next t ∧ t.anv.images = s.anv.images := by
  intros; refine ⟨_, rfl, ?_⟩; simp

theorem execCrystalAccepted_anv_images : ∀ s, ∃ t, execCrystalAccepted s = .next t ∧ t.anv.images = s.anv.images := by
  intros; refine ⟨_, rfl, ?_⟩; simp

theorem execXtalStartTimeout_anv_images : ∀ s, ∃ t, execXtalStartTimeout s = .next t ∧ t.anv.images = s.anv.images := by
  intros; refine ⟨_, rfl, ?_⟩; simp

@[simp] theorem addCause_anv_images : ∀ k s, (State.addCause k s).anv.images = s.anv.images := by intros; simp [State.addCause]

@[simp] theorem shed_anv_images : ∀ s, (State.shed s).anv.images = s.anv.images := by intros; simp [State.shed]

@[simp] theorem warn_anv_images : ∀ k m s, (State.warn k m s).anv.images = s.anv.images := by intros; simp [State.warn]

@[simp] theorem warnAgain_anv_images : ∀ k m s, (State.warnAgain k m s).anv.images = s.anv.images := by
  intros; simp [State.warnAgain]

theorem execPowerFail_anv_images : ∀ k m s, ∃ t, execPowerFail k m s = .next t ∧ t.anv.images = s.anv.images := by
  intros; refine ⟨_, rfl, ?_⟩; simp

@[simp] theorem writeEntry_anv_images : ∀ k s, (State.writeEntry k s).anv.images = s.anv.images := by
  intros; simp [State.writeEntry]

@[simp] theorem presentEntry_anv_images : ∀ s, (State.presentEntry s).anv.images = s.anv.images := by
  intros; simp [State.presentEntry]

@[simp] theorem journalEntry_anv_images : ∀ s, (State.journalEntry s).anv.images = s.anv.images := by
  intros; unfold State.journalEntry; (repeat' split) <;> simp

theorem execJournalEntry_anv_images : ∀ s, ∃ t, execJournalEntry s = .next t ∧ t.anv.images = s.anv.images := by
  intros; refine ⟨_, rfl, ?_⟩; simp

@[simp] theorem tailUpdate_anv_images : ∀ s, (State.tailUpdate s).anv.images = s.anv.images := by
  intros; unfold State.tailUpdate; split <;> simp

theorem execTailUpdate_anv_images : ∀ s, ∃ t, execTailUpdate s = .next t ∧ t.anv.images = s.anv.images := by
  intros; refine ⟨_, rfl, ?_⟩; simp

theorem execJournalErase_anv_images : ∀ k s, ∃ t, execJournalErase k s = .next t ∧ t.anv.images = s.anv.images := by
  intros; refine ⟨_, rfl, ?_⟩; simp

theorem execPfSustained_anv_images : ∀ s, ∃ t, execPfSustained s = .next t ∧ t.anv.images = s.anv.images := by
  intros; refine ⟨_, rfl, ?_⟩; simp

@[simp] theorem pfRecovered_anv_images : ∀ s, (State.pfRecovered s).anv.images = s.anv.images := by
  intros; simp [State.pfRecovered]

theorem execPfRecovered_anv_images : ∀ s, ∃ t, execPfRecovered s = .next t ∧ t.anv.images = s.anv.images := by
  intros; refine ⟨_, rfl, ?_⟩; simp

@[simp] theorem coldReset_anv_images : ∀ k m s, (State.coldReset k m s).anv.images = s.anv.images := fun _ _ _ => rfl

@[simp] theorem coldTrims_anv_images : ∀ k s, (State.coldTrims k s).anv.images = s.anv.images := by intros; simp [State.coldTrims]

@[simp] theorem begin_anv_images : ∀ k m s, (State.begin_ k m s).anv.images = s.anv.images := by intros; simp [State.begin_]

@[simp] theorem resetEntry_anv_images : ∀ s, (State.resetEntry s).anv.images = s.anv.images := by intros; simp [State.resetEntry]

theorem execResetnRelease_anv_images : ∀ k m s, ∃ t, execResetnRelease k m s = .next t ∧ t.anv.images = s.anv.images := by
  intros; refine ⟨_, rfl, ?_⟩; simp

@[simp] theorem flushAll_anv_images : ∀ s, (State.flushAll s).anv.images = s.anv.images := by intros; simp [State.flushAll]

@[simp] theorem loseWaiting_anv_images : ∀ s, (State.loseWaiting s).anv.images = s.anv.images := by
  intros; simp [State.loseWaiting]

@[simp] theorem warmReset_anv_images : ∀ s, (State.warmReset s).anv.images = s.anv.images := by intros; simp [State.warmReset]

@[simp] theorem restartStartup_anv_images : ∀ s, (State.restartStartup s).anv.images = s.anv.images := by
  intros; simp [State.restartStartup]

theorem execResetnWarm_anv_images : ∀ k m s, ∃ t, execResetnWarm k m s = .next t ∧ t.anv.images = s.anv.images := by
  intros; refine ⟨_, rfl, ?_⟩; simp

@[simp] theorem anvWdog_anv_images : ∀ k m s, (State.anvWdog k m s).anv.images = s.anv.images := by intros; simp [State.anvWdog]

theorem execAnvWdog_anv_images : ∀ k m s, ∃ t, execAnvWdog k m s = .next t ∧ t.anv.images = s.anv.images := by
  intros; refine ⟨_, rfl, ?_⟩; simp

theorem execSpiPortReset_anv_images : ∀ k s, ∃ t, execSpiPortReset k s = .next t ∧ t.anv.images = s.anv.images := by
  intros; refine ⟨_, rfl, ?_⟩; split <;> simp

theorem execBrk_anv_images : ∀ k s, ∃ t, execBrk k s = .next t ∧ t.anv.images = s.anv.images := by
  intros; refine ⟨_, rfl, ?_⟩; simp

theorem execVaonChangeover_anv_images : ∀ k s, ∃ t, execVaonChangeover k s = .next t ∧ t.anv.images = s.anv.images := by
  intros; refine ⟨_, rfl, ?_⟩; simp

theorem execSupplyLossBoth_anv_images : ∀ s, ∃ t, execSupplyLossBoth s = .next t ∧ t.anv.images = s.anv.images := by
  intros; refine ⟨_, rfl, ?_⟩; simp

@[simp] theorem resume_anv_images : ∀ k s, (State.resume k s).anv.images = s.anv.images := by intros; simp [State.resume]

@[simp] theorem restoreRecord_anv_images : ∀ k s, (State.restoreRecord k s).anv.images = s.anv.images := by
  intros; simp [State.restoreRecord]

@[simp] theorem fallBack_anv_images : ∀ k s, (State.fallBack k s).anv.images = s.anv.images := by intros; simp [State.fallBack]

@[simp] theorem enterHeld_anv_images : ∀ s, (State.enterHeld s).anv.images = s.anv.images := by intros; simp [State.enterHeld]

@[simp] theorem testSpare_anv_images : ∀ k m s, (State.testSpare k m s).anv.images = s.anv.images := by
  intros; simp [State.testSpare]

@[simp] theorem testChan_anv_images : ∀ k m s, (State.testChan k m s).anv.images = s.anv.images := by
  intros; simp [State.testChan]

@[simp] theorem testEngines_anv_images : ∀ k m s, (State.testEngines k m s).anv.images = s.anv.images := by
  intros; unfold State.testEngines; dsimp only; (repeat' split) <;> simp

theorem execStartUpTest_anv_images : ∀ k m n s, ∃ t, execStartUpTest k m n s = .next t ∧ t.anv.images = s.anv.images := by
  intros; refine ⟨_, rfl, ?_⟩; simp

theorem execPortsReady_anv_images : ∀ s, ∃ t, execPortsReady s = .next t ∧ t.anv.images = s.anv.images := by
  intros; refine ⟨_, rfl, ?_⟩; simp

@[simp] theorem applyImage_anv_images : ∀ k m s, (State.applyImage k m s).anv.images = s.anv.images := by
  intros; simp [State.applyImage]

@[simp] theorem configured_anv_images : ∀ k s, (State.configured k s).anv.images = s.anv.images := by
  intros; simp [State.configured]

theorem execStartupReady_anv_images : ∀ s, ∃ t, execStartupReady s = .next t ∧ t.anv.images = s.anv.images := by
  intros; refine ⟨_, rfl, ?_⟩; simp

@[simp] theorem raiseUnmetered_anv_images : ∀ s, (State.raiseUnmetered s).anv.images = s.anv.images := by
  intros; simp [State.raiseUnmetered]

@[simp] theorem cellAlarm_anv_images : ∀ k s, (State.cellAlarm k s).anv.images = s.anv.images := by intros; simp [State.cellAlarm]

end Sys2Proof.Scope
end

section
/-!
SUPPORT. The canonical form of the parameter stores and of the configuration images (R323, R397, R399; log 3): which rows
write words, and that each of them writes through `Regs.put` or starts afresh.
-/
namespace Sys2Proof.Scope

open Sys2Proof.Machine Sys2Proof.Laws

/-! ### The canonical form -/

/-- The stores of a state and the words of its images are in canonical form. -/
structure Canonical (s : State) : Prop where
  cfg : s.cfg.wf = true
  eff : s.eff.wf = true
  images : ∀ i ∈ s.anv.images, i.words.wf = true

theorem storesWf_iff (s : State) : s.storesWf = true ↔ Canonical s := by
  simp only [State.storesWf, Bool.and_eq_true, List.all_eq_true]
  exact ⟨fun ⟨⟨hcfg, heff⟩, himg⟩ => ⟨hcfg, heff, himg⟩, fun h => ⟨⟨h.cfg, h.eff⟩, h.images⟩⟩

/-- A state with the same words and images is as canonical. -/
theorem Canonical.kept {s t : State} (h : Canonical s) (hcfg : t.cfg = s.cfg) (heff : t.eff = s.eff)
    (himg : t.anv.images = s.anv.images) : Canonical t := ⟨hcfg ▸ h.cfg, heff ▸ h.eff, himg ▸ h.images⟩

theorem chain_canonical {α : Type} {l : List α} {f : α → State → State} (hf : ∀ a s, Canonical s → Canonical (f a s))
    {s : State} (h : Canonical s) : Canonical (chain l f s) := by
  unfold chain
  induction l generalizing s with
  | nil => exact h
  | cons a l ih => exact ih (hf a s h)

theorem ite_canonical {c : Prop} [Decidable c] {s t : State} (hs : c → Canonical s) (ht : ¬ c → Canonical t) :
    Canonical (if c then s else t) := by
  split
  next hc => exact hs hc
  next hc => exact ht hc

theorem Regs.filter_wf {m : Regs} (p : Nat × Word → Bool) (h : m.wf = true) : Regs.wf (m.filter p) = true := by
  rw [Machine.Regs.wf_iff] at *
  exact ⟨h.1.sublist List.filter_sublist, fun x hx => h.2 x (List.mem_filter.mp hx).1⟩

/-- Words written one after another keep the form. -/
theorem foldl_wf {α : Type} {l : List α} {f : Regs → α → Regs} (hf : ∀ m a, m.wf = true → (f m a).wf = true) {m : Regs}
    (h : m.wf = true) : (l.foldl f m).wf = true := by
  induction l generalizing m with
  | nil => exact h
  | cons a l ih => exact ih (hf m a h)

/-! ### PARAM_WRITE and PULSE_TEST (R233, R238) -/

theorem store_canonical (r : Reg) (w : Word) {s : State} (h : Canonical s) : Canonical (s.store r w) := by
  refine ⟨Regs.put_wf _ _ _ h.cfg, ?_, h.images⟩
  unfold State.store
  dsimp only
  split
  · exact h.eff
  · exact Regs.put_wf _ _ _ h.eff

/-- A word of an ordinary register is stored, or ignored where nothing of it can be written. -/
theorem storeIfWritable_canonical (r : Reg) (v : Word) {s : State} (h : Canonical s) :
    Canonical (if r.rwMask = 0 then s else s.store r v) := ite_canonical (fun _ => h) fun _ => store_canonical r v h

theorem applyWord_canonical (req : Req) (env : Sensed) (r : Reg) (v w : Word) {s : State} (h : Canonical s) :
    Canonical (s.applyWord req env r v w) := by
  have hstore : ∀ q : Reg, Canonical (s.store q v) := fun q => store_canonical q v h
  cases r with
  | ch k x =>
    cases x with
    | state => exact h.kept rfl rfl rfl
    | ctl => exact h.kept (control_cfg ..) (control_eff ..) (control_anv_images ..)
    | _ =>
      unfold State.applyWord
      exact storeIfWritable_canonical _ v h
  | fltCtl =>
    unfold State.applyWord
    exact h.kept (by simp) (by simp) (by simp)
  | scrCfg => exact ite_canonical (fun _ => hstore _) fun _ => (hstore .scrCfg).kept rfl rfl rfl
  | sesKey e i => exact ite_canonical (fun _ => h) fun _ => hstore _
  | sesKeyCtl e =>
    exact ite_canonical (fun _ => h) fun _ => (hstore _).kept (noteKey_cfg ..) (noteKey_eff ..) (noteKey_anv_images ..)
  | intSrc n => exact ite_canonical (fun _ => h) fun _ => (hstore _).kept (route_cfg _) (route_eff _) (congrArg _ (route_anv _))
  | tgtEoi t => exact h.kept (retire_cfg ..) (retire_eff ..) (retire_anv_images ..)
  | tgtCfg t =>
    exact ite_canonical (fun _ => (hstore _).kept (disableTarget_cfg ..) (disableTarget_eff ..) (disableTarget_anv_images ..))
      fun _ => (hstore _).kept (route_cfg _) (route_eff _) (congrArg _ (route_anv _))
  | wbCfg =>
    exact ite_canonical (fun _ => hstore _) fun _ =>
      (hstore _).kept (wbDiscard_cfg ..) (wbDiscard_eff ..) (congrArg _ (wbDiscard_anv ..))
  | pnlCfg =>
    exact ite_canonical (fun _ => (hstore _).kept (startWaiting_cfg _) (startWaiting_eff _) (startWaiting_anv_images _))
      fun _ => (hstore .pnlCfg).kept rfl rfl rfl
  | pulStatus | rstcause | cldTrim | almMatch0 | almMatch1 | almCtl | grdCfg | grdMagth | mcalStatus => exact h.kept rfl rfl rfl
  | grdCtl => exact h.kept (guardControl_cfg ..) (guardControl_eff ..) (guardControl_anv_images ..)
  | grdResp i => exact ite_canonical (fun _ => h) fun _ => h.kept rfl rfl rfl
  | pnlCtl => exact ite_canonical (fun _ => h.kept (recover_cfg ..) (recover_eff ..) (recover_anv_images ..)) fun _ => h
  | staged c => exact h.kept (stage_cfg ..) (stage_eff ..) (stage_anv_images ..)
  | trimMod n => exact h.kept (askModTrim_cfg ..) (askModTrim_eff ..) (askModTrim_anv_images ..)
  | trimVref => exact h.kept (setVref_cfg ..) (setVref_eff ..) (setVref_anv_images ..)
  | trimOsc => exact h.kept (askOsc_cfg ..) (askOsc_eff ..) (askOsc_anv_images ..)
  | trimCtl => exact ite_canonical (fun _ => h.kept (reloadTrims_cfg _) (reloadTrims_eff _) (reloadTrims_anv_images _)) fun _ => h
  | _ =>
    unfold State.applyWord
    exact storeIfWritable_canonical _ v h

theorem writeWords_canonical {req : Req} {env : Sensed} {order : Option Nat} {l : List (Nat × Word)} {s t : State}
    (h : Canonical s) (hw : s.writeWords req env order l = .inr t) : Canonical t := by
  induction l generalizing s with
  | nil =>
    cases hw
    exact h
  | cons x l ih =>
    obtain ⟨a, w⟩ := x
    unfold State.writeWords at hw
    dsimp only at hw
    split at hw
    · cases hw
    · exact ih (applyWord_canonical _ _ _ _ _ h) hw

theorem paramWrite_canonical (req : Req) (env : Sensed) (addr : Nat) (ws : List Word) {s : State} (h : Canonical s) :
    Canonical (s.paramWrite req env addr ws) := by
  unfold State.paramWrite
  split
  · exact h.kept (by simp) (by simp) (by simp)
  · next hw => exact (writeWords_canonical h (writeWords_of_tryWrite hw)).kept (by simp) (by simp) (by simp)

/-- The gate of a host command keeps what the command's own effect keeps. -/
theorem command_canonical (op : Nat) (r : Req) {s : State} {body : State → State} (hb : ∀ s, Canonical s → Canonical (body s))
    (h : Canonical s) : Canonical (s.command op r body) := by
  have hwoken : Canonical (if isSlow op && op ≠ 0x0503 then s.wake else s) := h.kept (by simp) (by simp) (by simp)
  unfold State.command
  refine ite_canonical (fun _ => h) fun _ => ite_canonical (fun _ => h.kept (by simp) (by simp) (by simp)) fun _ => ?_
  refine ite_canonical (fun _ => hwoken.kept (by simp) (by simp) (by simp)) fun _ => ?_
  exact ite_canonical (fun _ => hwoken.kept (by simp) (by simp) (by simp)) fun _ => hb _ hwoken

theorem write_canonical (req : Req) (env : Sensed) (r : Reg) (w : Word) {s : State} (h : Canonical s) :
    Canonical (s.write req env r w) := command_canonical _ _ (fun _ => paramWrite_canonical req env r.addr [w]) h

theorem execParamWrite_canonical (r : Req) (addr : Nat) (ws : List Word) {s : State} (h : Canonical s) :
    ∃ t, execParamWrite r addr ws s = .next t ∧ Canonical t :=
  ⟨_, rfl, command_canonical _ _ (fun _ h => paramWrite_canonical _ _ _ _ (h.kept rfl rfl rfl)) h⟩

theorem execPulseTest_canonical (r : Req) (mask : BitVec 8) (ten : Bool) (tconst : Word) {s : State} (h : Canonical s) :
    ∃ t, execPulseTest r mask ten tconst s = .next t ∧ Canonical t := by
  refine ⟨_, rfl, command_canonical _ _ (fun s h => ?_) h⟩
  refine ite_canonical (fun _ => h.kept (by simp) (by simp) (by simp)) fun _ => ?_
  have hstores := chain_canonical (l := (List.finRange 8).filter fun n => mask.getLsbD n.val)
    (f := fun n s => s.store (.pulTest n) (word (flag 31 ten + put 19 0 tconst.toNat))) (fun n _ => store_canonical _ _) h
  exact hstores.kept (ok_cfg ..) (ok_eff ..) (ok_anv_images ..)

/-! ### The profile (R116) -/

theorem applyProfEn_canonical {s : State} (h : Canonical s) : Canonical s.applyProfEn := by
  have hen : Canonical { s with eff := allPts.foldl (fun m p =>
      m.put (Reg.pt p .recd).addr ((s.live (.pt p .recd) &&& 0xFFFFFFFE) ||| (s.asked (.pt p .recd) &&& 1))) s.eff } :=
    ⟨h.cfg, foldl_wf (fun _ _ => Regs.put_wf _ _ _) h.eff, h.images⟩
  exact ite_canonical (fun _ => hen) fun _ => hen.kept (by simp) (by simp) (by simp)

theorem openProfile_canonical (part : Bool) {s : State} (h : Canonical s) : Canonical (s.openProfile part) :=
  (applyProfEn_canonical h).kept rfl rfl rfl

theorem profileClose_canonical (part : Bool) {s : State} (h : Canonical s) : Canonical (s.profileClose part) := by
  unfold State.profileClose
  refine openProfile_canonical part ?_
  exact h.kept (by simp) (by simp) (by simp)

theorem execProfileClose_canonical {s : State} (h : Canonical s) : ∃ t, execProfileClose s = .next t ∧ Canonical t :=
  ⟨_, rfl, ite_canonical (fun _ => (profileClose_canonical false h).kept (by simp) (by simp) (by simp)) fun _ => h⟩

/-! ### The cycle boundary (R402) -/

theorem channelBoundary_canonical (k : Fin 136) {s : State} (h : Canonical s) : Canonical (s.channelBoundary k) := by
  refine ⟨(channelBoundary_cfg k s).symm ▸ h.cfg, ?_, (channelBoundary_anv_images k s).symm ▸ h.images⟩
  have heff : (s.channelBoundary k).eff =
      (s.eff.put (Reg.ch k .afe).addr (s.asked (.ch k .afe))).put (Reg.ch k .filt).addr (s.asked (.ch k .filt)) := by
    simp [State.channelBoundary]
  rw [heff]
  exact Regs.put_wf _ _ _ (Regs.put_wf _ _ _ h.eff)

theorem enforce_canonical (a : Nat) {s : State} (h : Canonical s) : Canonical (s.enforce a) :=
  ⟨h.cfg, Regs.put_wf _ _ _ h.eff, h.images⟩

theorem changeDemand_canonical (p : Fin 128) {s : State} (h : Canonical s) : Canonical (s.changeDemand p) :=
  h.kept (by simp) (by simp) (by simp)

theorem closeChanged_canonical (due : List Nat) {s : State} (h : Canonical s) : Canonical (s.closeChanged due) := by
  refine chain_canonical (fun a s h => ?_) h
  dsimp only
  split
  · exact changeDemand_canonical _ h
  · exact h.kept (by simp) (by simp) (by simp)
  · exact profileClose_canonical true (h.kept rfl rfl rfl)
  · exact h

theorem afterSettings_canonical (old : Reg → Word) (due : List Nat) (rebases : List (Fin 8)) {s : State} (h : Canonical s) :
    Canonical (s.afterSettings old due rebases) := by
  refine chain_canonical (fun n s h => h.kept (by simp) (by simp) (by simp)) (chain_canonical (fun a s h => ?_) h)
  split
  · exact h.kept rfl rfl rfl
  · exact openProfile_canonical true h
  · exact ite_canonical (fun _ => h.kept rfl rfl rfl) fun _ => h
  · exact h

theorem applySettings_canonical {s : State} (h : Canonical s) : Canonical s.applySettings := by
  have hafter := afterSettings_canonical s.live s.settingsDue (allPulses.filter s.pulseChanges)
    (chain_canonical (fun a _ => enforce_canonical a) (l := s.settingsDue)
      (chain_canonical (fun k _ => channelBoundary_canonical k) (l := allChans) (closeChanged_canonical s.settingsDue h)))
  exact ite_canonical (fun _ => hafter.kept (by simp) (by simp) (by simp)) fun _ => hafter

/-- A snapshot is a part of the words in force (R323). -/
theorem saveBoundary_canonical {s : State} (h : Canonical s) : Canonical s.saveBoundary := by
  have himg : ∀ i ∈ s.saveBoundary.anv.images, i.words = s.imageWords ∨ i ∈ s.anv.images := by
    intro i hi
    unfold State.saveBoundary at hi
    split at hi
    · exact .inr hi
    · simp only [okTo_anv_images, raise_anv_images] at hi
      rcases List.mem_cons.mp (List.mem_of_mem_take hi) with rfl | hi
      · exact .inl rfl
      · exact .inr hi
  have hwords : s.saveBoundary.eff = s.eff := by
    unfold State.saveBoundary
    split <;> simp
  refine ⟨(saveBoundary_cfg s).symm ▸ h.cfg, hwords.symm ▸ h.eff, fun i hi => ?_⟩
  rcases himg i hi with hsnap | hold
  · exact hsnap ▸ Regs.filter_wf _ h.eff
  · exact h.images i hold

theorem boundaryEffects_canonical {s : State} (h : Canonical s) : Canonical s.boundaryEffects := by
  unfold State.boundaryEffects
  have hset : Canonical s.applySettings.trimsBoundary.reloadCal :=
    (applySettings_canonical h).kept (by simp) (by simp) (by simp)
  refine ite_canonical (fun _ => hset.kept (by simp) (by simp) (by simp)) fun _ => ?_
  have hcmd : Canonical s.applySettings.trimsBoundary.reloadCal.commitBoundary.resolveBoundary.resetBoundary :=
    hset.kept (by simp) (by simp) (by simp)
  exact (saveBoundary_canonical hcmd).kept (by simp) (by simp) (by simp)

theorem closeSteps_canonical (moves : List CalMove) {s : State} (h : Canonical s) : Canonical (s.closeSteps moves) := by
  unfold State.closeSteps
  extract_lets due pts s1 s2 buses s3 s4
  have hdemand : Canonical s1 := h.kept (by simp [s1]) (by simp [s1]) (by simp [s1])
  have hprofile : Canonical s2 := ite_canonical (fun _ => profileClose_canonical false hdemand) fun _ => hdemand
  have hbalance : Canonical s3 := hprofile.kept (by simp [s3]) (by simp [s3]) (by simp [s3])
  have hfrequency : Canonical s4 := ite_canonical (fun _ => hbalance.kept (by simp) (by simp) (by simp)) fun _ => hbalance
  exact ite_canonical (fun _ => hfrequency.kept (by simp) (by simp) (by simp)) fun _ => hfrequency

theorem cycleClose_canonical (errs : List AccErr) {s : State} (h : Canonical s) : Canonical (s.cycleClose errs) := by
  unfold State.cycleClose
  extract_lets s0 s1 s2 s3 s4
  have hclosed : Canonical s3 := h.kept (by simp [s0, s1, s2, s3]) (by simp [s0, s1, s2, s3]) (by simp [s0, s1, s2, s3])
  have hopened : Canonical s4 :=
    (boundaryEffects_canonical hclosed).kept (by simp [s4]) (by simp [s4]) (by simp [s4])
  have hsteps : Canonical (s4.cutAsked.closeSteps (s.cld.moves.filter s.tb.covers)) :=
    closeSteps_canonical _ (hopened.kept (by simp) (by simp) (by simp))
  exact hsteps.kept (by simp) (by simp) (by simp)

theorem execCycleClose_canonical (errs : List AccErr) {s : State} (h : Canonical s) :
    ∃ t, execCycleClose errs s = .next t ∧ Canonical t := ⟨_, rfl, ite_canonical (fun _ => cycleClose_canonical errs h) fun _ => h⟩

/-! ### The first metered cycle (R402) -/

theorem firstCommands_canonical {s : State} (h : Canonical s) : Canonical s.firstCommands := by
  refine ite_canonical (fun _ => h) fun _ => saveBoundary_canonical ?_
  exact h.kept (by simp) (by simp) (by simp)

theorem firstSettings_canonical {s : State} (h : Canonical s) : Canonical s.firstSettings := by
  unfold State.firstSettings
  extract_lets s1 tb s2 s3
  have hset : Canonical s1 := chain_canonical (fun a _ => enforce_canonical a)
    (chain_canonical (fun k _ => channelBoundary_canonical k) h)
  have htrim : Canonical s2.trimsBoundary := hset.kept (by simp [s2]) (by simp [s2]) (by simp [s2])
  exact (firstCommands_canonical htrim).kept (by simp [s3]) (by simp [s3]) (by simp [s3])

theorem openAll_canonical {s : State} (h : Canonical s) : Canonical s.openAll := by
  unfold State.openAll
  extract_lets b x tb fol s1
  exact openProfile_canonical true (h.kept (by simp [s1]) (by simp [s1]) (by simp [s1]))

theorem startMetering_canonical (line : Bool) (start : Nat) {s : State} (h : Canonical s) :
    Canonical (s.startMetering line start) := by
  unfold State.startMetering
  extract_lets b x startup tb0 tb dev s1 fol1 s2 fol2 s3
  have hopen : Canonical s2 := openAll_canonical (firstSettings_canonical (h.kept rfl rfl rfl))
  exact hopen.kept (by simp [s3]) (by simp [s3]) (by simp [s3])

theorem execFirstMeteredCycle_canonical {s : State} (h : Canonical s) : ∃ t, execFirstMeteredCycle s = .next t ∧ Canonical t := by
  refine ⟨_, rfl, ite_canonical (fun _ => h) fun _ => ?_⟩
  split
  · exact h
  · exact startMetering_canonical _ _ (h.kept rfl rfl rfl)

theorem execStartupFreerunFallback_canonical {s : State} (h : Canonical s) :
    ∃ t, execStartupFreerunFallback s = .next t ∧ Canonical t := by
  refine ⟨_, rfl, ite_canonical (fun _ => ?_) fun _ => h⟩
  refine (startMetering_canonical false s.clock (s := { s with tb := s.tb.hold (nominalPeriod s.tb.nomf60) }) ?_).kept
    (by simp) (by simp) (by simp)
  exact h.kept rfl rfl rfl

/-! ### BREAK, resets and restores (R109, R206, R279, R314, R323) -/

theorem execBrk_canonical (long : Bool) {s : State} (h : Canonical s) : ∃ t, execBrk long s = .next t ∧ Canonical t := by
  refine ⟨_, rfl, ite_canonical (fun _ => h) fun _ => ?_⟩
  have hreset : Canonical ((((s.onPort .c PortState.clear).start .c).resetCause 0x400).reloadTrims) :=
    h.kept (by simp) (by simp) (by simp)
  exact ite_canonical (fun _ => hreset) fun _ => (store_canonical .scrCfg _ hreset).kept rfl rfl rfl

/-- A cold reset empties the stores and keeps the images. -/
theorem coldReset_canonical (bits : BitVec 11) (why : Nat) {s : State} (h : Canonical s) : Canonical (s.coldReset bits why) :=
  ⟨rfl, rfl, h.images⟩

theorem execBrownout_canonical {s : State} (h : Canonical s) : ∃ t, execBrownout s = .next t ∧ Canonical t :=
  ⟨_, rfl, ite_canonical (fun _ => h) fun _ =>
    (coldReset_canonical 2 (if s.pwr.pfail then 0 else 1) h).kept rfl rfl rfl⟩

theorem execPor_canonical (bad : List (Fin 2 × Word)) (pass : Bool) {s : State} (h : Canonical s) :
    ∃ t, execPor bad pass s = .next t ∧ Canonical t := by
  have hcold : Canonical ((s.coldReset 1 (if s.pwr.pfail then 0 else 1)).coldTrims s.trim) :=
    (coldReset_canonical 1 (if s.pwr.pfail then 0 else 1) h).kept (by simp) (by simp) (by simp)
  exact ⟨_, rfl, ite_canonical (fun _ => hcold) fun _ => hcold.kept (by simp) (by simp) (by simp)⟩

theorem execResetnCold_canonical {s : State} (h : Canonical s) : ∃ t, execResetnCold s = .next t ∧ Canonical t := by
  have hentry : Canonical s.resetEntry := h.kept (by simp) (by simp) (by simp)
  have hcold : Canonical ((s.resetEntry.coldReset 4 2).coldTrims s.trim) :=
    (coldReset_canonical 4 2 hentry).kept (by simp) (by simp) (by simp)
  refine ⟨_, rfl, ite_canonical (fun _ => h) fun _ => ?_⟩
  exact (ite_canonical (fun _ => hcold) fun _ => h).kept rfl rfl rfl

/-- The words of a record's billing blocks are put into the stores (R109). -/
theorem billingWords_wf (r : JRec) {m : Regs} (h : m.wf = true) : (r.billingWords m).wf = true :=
  foldl_wf (fun _ _ hm => Regs.put_wf _ _ _ (Regs.put_wf _ _ _ hm)) h

theorem restoreRecord_canonical (r : JRec) {s : State} (h : Canonical s) : Canonical (s.restoreRecord r) := by
  have hcfg : (s.restoreRecord r).cfg = r.billingWords s.cfg := by simp only [State.restoreRecord, State.resume]
  have heff : (s.restoreRecord r).eff = r.billingWords s.eff := by simp only [State.restoreRecord, State.resume]
  exact ⟨hcfg.symm ▸ billingWords_wf r h.cfg, heff.symm ▸ billingWords_wf r h.eff,
    (restoreRecord_anv_images r s).symm ▸ h.images⟩

theorem execJournalRestored_canonical (bad : List Word) {s : State} (h : Canonical s) :
    ∃ t, execJournalRestored bad s = .next t ∧ Canonical t := by
  refine ⟨_, rfl, ite_canonical (fun _ => ?_) fun _ => h⟩
  have hback : Canonical (s.fallBack bad) := h.kept (by simp) (by simp) (by simp)
  unfold State.journalRestored
  dsimp only
  split
  next r _ _ =>
    have hrec := restoreRecord_canonical r hback
    exact hrec.kept (by simp) (by simp) (by simp)
  next => exact hback.kept (by simp) (by simp) (by simp)

/-- A check of the copies leaves the words of each. -/
theorem checkImage_canonical (i : Nat) (bad : Option Word) {s : State} (h : Canonical s) : Canonical (s.checkImage i bad) := by
  refine ⟨(checkImage_cfg i bad s).symm ▸ h.cfg, (checkImage_eff i bad s).symm ▸ h.eff, fun x hx => ?_⟩
  unfold State.checkImage at hx
  split at hx
  · exact h.images x hx
  · simp only [raise_anv_images, List.mem_map, Prod.exists] at hx
    obtain ⟨n, y, hy, rfl⟩ := hx
    have hwf := h.images y (List.of_mem_zip hy).2
    split <;> exact hwf

theorem holdOff_wf (p : Fin 128) {m : Regs} (h : m.wf = true) : (holdOff m p).wf = true := by
  unfold holdOff
  dsimp only
  split
  · exact Regs.put_wf _ _ _ h
  · exact h

theorem holdBalance_wf (b : Fin 2) {m : Regs} (h : m.wf = true) : (holdBalance m b).wf = true := by
  unfold holdBalance
  dsimp only
  split
  · split
    · exact h
    · exact Regs.put_wf _ _ _ h
  · exact h

theorem consistent_wf {m : Regs} (h : m.wf = true) : (consistent m).wf = true :=
  foldl_wf (fun _ b => holdBalance_wf b) (foldl_wf (fun _ p => holdOff_wf p) h)

theorem applyImage_canonical {words : Regs} (tables : List (Nat × Nat × List Byte)) {s : State} (hw : words.wf = true)
    (h : Canonical s) : Canonical (s.applyImage words tables) := by
  have happlied : Canonical { s with cfg := consistent words, eff := consistent words } :=
    ⟨consistent_wf hw, consistent_wf hw, h.images⟩
  exact happlied.kept (by simp [State.applyImage]) (by simp [State.applyImage]) (by simp)

theorem execConfigRestore_canonical (bad0 bad1 : Option Word) {s : State} (h : Canonical s) :
    ∃ t, execConfigRestore bad0 bad1 s = .next t ∧ Canonical t := by
  refine ⟨_, rfl, ite_canonical (fun _ => ?_) fun _ => h⟩
  have hcheck := checkImage_canonical 1 bad1 (checkImage_canonical 0 bad0 h)
  unfold State.configRestore
  dsimp only
  split
  · next i hi =>
    have happlied := applyImage_canonical i.tables (hcheck.images i (List.mem_of_find?_eq_some hi)) hcheck
    exact happlied.kept (by simp) (by simp) (by simp)
  · refine Canonical.kept (s := { (s.checkImage 0 bad0).checkImage 1 bad1 with cfg := [], eff := [] })
      ⟨rfl, rfl, hcheck.images⟩ ?_ ?_ ?_ <;> simp

theorem execCfgRestoreFail_canonical {s : State} (h : Canonical s) : ∃ t, execCfgRestoreFail s = .next t ∧ Canonical t := by
  refine ⟨_, rfl, ite_canonical (fun _ => ?_) fun _ => h⟩
  exact Canonical.kept (s := { s with cfg := [], eff := [] }) ⟨rfl, rfl, h.images⟩ (by simp) (by simp) (by simp)

/-! ### Every row -/

/-- A row that puts no parameter word in force leaves the images. -/
theorem exec_anv_images {c : Instr} (s : State) (h : enforcesParameters c = false) :
    ∃ t, exec c s = .next t ∧ t.anv.images = s.anv.images := by
  cases c with
  | paramWrite | pulseTest | forceSpare | restore | check | trimModWrite | trimVrefWrite | trimOscWrite | reload | rejoin
    | xreturn | eoi | intTargetDisable | arm | fdis | recover | cycleClose | profileClose | brownout | por | resetnCold
    | configRestore | cfgRestoreFail | firstMeteredCycle | startupFreerunFallback | journalRestored => cases h
  | brk long => exact execBrk_anv_images ..
  | nop => exact execNop_anv_images ..
  | sessionOpen => exact execSessionOpen_anv_images ..
  | sessionClose => exact execSessionClose_anv_images ..
  | setPriority => exact execSetPriority_anv_images ..
  | folioRead => exact execFolioRead_anv_images ..
  | folioLease => exact execFolioLease_anv_images ..
  | folioRenew => exact execFolioRenew_anv_images ..
  | folioRelease => exact execFolioRelease_anv_images ..
  | folioCut => exact execFolioCut_anv_images ..
  | folioSealGet => exact execFolioSealGet_anv_images ..
  | paramRead => exact execParamRead_anv_images ..
  | scRead => exact execScRead_anv_images ..
  | eventRead => exact execEventRead_anv_images ..
  | eventAck => exact execEventAck_anv_images ..
  | profileRead => exact execProfileRead_anv_images ..
  | profileAck => exact execProfileAck_anv_images ..
  | wbRead => exact execWbRead_anv_images ..
  | capRead => exact execCapRead_anv_images ..
  | capTrigger => exact execCapTrigger_anv_images ..
  | capRelease => exact execCapRelease_anv_images ..
  | logRead => exact execLogRead_anv_images ..
  | demandReset => exact execDemandReset_anv_images ..
  | calCommit => exact execCalCommit_anv_images ..
  | calPendingRead => exact execCalPendingRead_anv_images ..
  | calPendingResolve => exact execCalPendingResolve_anv_images ..
  | blotRead => exact execBlotRead_anv_images ..
  | blotClear => exact execBlotClear_anv_images ..
  | bankEnter => exact execBankEnter_anv_images ..
  | bankExit => exact execBankExit_anv_images ..
  | softReset => exact execSoftReset_anv_images ..
  | auxRead => exact execAuxRead_anv_images ..
  | cfgSave => exact execCfgSave_anv_images ..
  | inkLock => exact execInkLock_anv_images ..
  | inkUnlock => exact execInkUnlock_anv_images ..
  | fwBegin => exact execFwBegin_anv_images ..
  | fwWrite => exact execFwWrite_anv_images ..
  | fwVerify => exact execFwVerify_anv_images ..
  | fwActivate => exact execFwActivate_anv_images ..
  | cldSet => exact execCldSet_anv_images ..
  | cldAdjustStep => exact execCldAdjustStep_anv_images ..
  | cldAdjustSlew => exact execCldAdjustSlew_anv_images ..
  | cldAlarmAck => exact execCldAlarmAck_anv_images ..
  | grdClearArm => exact execGrdClearArm_anv_images ..
  | grdClearConfirm => exact execGrdClearConfirm_anv_images ..
  | grdTest => exact execGrdTest_anv_images ..
  | idCertRead => exact execIdCertRead_anv_images ..
  | pnlTableLoad => exact execPnlTableLoad_anv_images ..
  | pnlImageWrite => exact execPnlImageWrite_anv_images ..
  | pnlUpdate => exact execPnlUpdate_anv_images ..
  | frameReceive => exact execFrameReceive_anv_images ..
  | read => exact execRead_anv_images ..
  | status => exact execStatus_anv_images ..
  | uartReplySent => exact execUartReplySent_anv_images ..
  | portTimeout => exact execPortTimeout_anv_images ..
  | spiPortReset => exact execSpiPortReset_anv_images ..
  | uartFrameStall => exact execUartFrameStall_anv_images ..
  | replyDropped => exact execReplyDropped_anv_images ..
  | sessionIdleTimeout => exact execSessionIdleTimeout_anv_images ..
  | leaseExpiry => exact execLeaseExpiry_anv_images ..
  | inkLockExpiry => exact execInkLockExpiry_anv_images ..
  | grdChallengeExpiry => exact execGrdChallengeExpiry_anv_images ..
  | combFrame => exact execCombFrame_anv_images ..
  | engFenced => exact execEngFenced_anv_images ..
  | sampleBatch => exact execSampleBatch_anv_images ..
  | metrologyReplay => exact execMetrologyReplay_anv_images ..
  | autoFreezeEnd => exact execAutoFreezeEnd_anv_images ..
  | freerunEntry => exact execFreerunEntry_anv_images ..
  | lsyncEdge => exact execLsyncEdge_anv_images ..
  | lsyncTimeout => exact execLsyncTimeout_anv_images ..
  | blockClose => exact execBlockClose_anv_images ..
  | aggregateClose => exact execAggregateClose_anv_images ..
  | tenMinuteTick => exact execTenMinuteTick_anv_images ..
  | frequencyIntervalClose => exact execFrequencyIntervalClose_anv_images ..
  | demandClose => exact execDemandClose_anv_images ..
  | balanceClose => exact execBalanceClose_anv_images ..
  | modulatorHardFault => exact execModulatorHardFault_anv_images ..
  | chSubstituted => exact execChSubstituted_anv_images ..
  | spareMove => exact execSpareMove_anv_images ..
  | driftCheckPhase => exact execDriftCheckPhase_anv_images ..
  | chDriftChecked => exact execChDriftChecked_anv_images ..
  | chRestored => exact execChRestored_anv_images ..
  | suppressionEnd => exact execSuppressionEnd_anv_images ..
  | chClip => exact execChClip_anv_images ..
  | pulseLeadingEdge => exact execPulseLeadingEdge_anv_images ..
  | pulseTrailingEdge => exact execPulseTrailingEdge_anv_images ..
  | wbSetEnd => exact execWbSetEnd_anv_images ..
  | captureFilled => exact execCaptureFilled_anv_images ..
  | captureKeepExpiry => exact execCaptureKeepExpiry_anv_images ..
  | eventLogWrite => exact execEventLogWrite_anv_images ..
  | intTimeout => exact execIntTimeout_anv_images ..
  | auxScan => exact execAuxScan_anv_images ..
  | accScrub => exact execAccScrub_anv_images ..
  | sramScrub => exact execSramScrub_anv_images ..
  | xtalFail => exact execXtalFail_anv_images ..
  | xtalRate => exact execXtalRate_anv_images ..
  | xtalReturn => exact execXtalReturn_anv_images ..
  | powerFail => exact execPowerFail_anv_images ..
  | journalEntry => exact execJournalEntry_anv_images ..
  | tailUpdate => exact execTailUpdate_anv_images ..
  | journalErase ok => exact execJournalErase_anv_images ok s
  | pfSustained => exact execPfSustained_anv_images ..
  | pfRecovered => exact execPfRecovered_anv_images ..
  | resetnWarm => exact execResetnWarm_anv_images ..
  | vaonChangeover => exact execVaonChangeover_anv_images ..
  | supplyLossBoth => exact execSupplyLossBoth_anv_images ..
  | crystalAccepted => exact execCrystalAccepted_anv_images ..
  | startupReady => exact execStartupReady_anv_images ..
  | anvWdog => exact execAnvWdog_anv_images ..
  | fwTrialEnd => exact execFwTrialEnd_anv_images ..
  | calSecondBoundary => exact execCalSecondBoundary_anv_images ..
  | calStopped => exact execCalStopped_anv_images ..
  | grdClock => exact execGrdClock_anv_images ..
  | grdSource => exact execGrdSource_anv_images ..
  | panelPairBoundary => exact execPanelPairBoundary_anv_images ..
  | railStep => exact execRailStep_anv_images ..
  | railRead => exact execRailRead_anv_images ..
  | panelFault => exact execPanelFault_anv_images ..
  | folioSealed => exact execFolioSealed_anv_images ..
  | resetnRelease => exact execResetnRelease_anv_images ..
  | startUpTest => exact execStartUpTest_anv_images ..
  | portsReady => exact execPortsReady_anv_images ..
  | xtalStartTimeout => exact execXtalStartTimeout_anv_images ..
  | slewEnd => exact execSlewEnd_anv_images ..
  | cellScanPeriod => exact execCellScanPeriod_anv_images ..
  | panelFrameBoundary => exact execPanelFrameBoundary_anv_images ..
  | isolatedParityError => exact execIsolatedParityError_anv_images ..

/-- A row that leaves the words as asked and in force leaves the stores as they were. -/
theorem exec_canonical_of_kept {c : Instr} {s : State} (hc : enforcesParameters c = false) (h : Canonical s) :
    ∃ t, exec c s = .next t ∧ Canonical t := by
  have hasks : asksParameters c = false := (Bool.or_eq_false_iff.mp hc).1
  obtain ⟨t, ht, hcfg⟩ := exec_cfg s hasks
  obtain ⟨u, hu, heff⟩ := exec_eff s hc
  obtain ⟨v, hv, himg⟩ := exec_anv_images s hc
  cases hu.symm.trans ht
  cases hv.symm.trans ht
  exact ⟨t, ht, h.kept hcfg heff himg⟩

theorem exec_canonical (c : Instr) {s : State} (h : Canonical s) : ∃ t, exec c s = .next t ∧ Canonical t := by
  cases hc : enforcesParameters c with
  | false => exact exec_canonical_of_kept hc h
  | true =>
    cases c with
    | paramWrite => exact execParamWrite_canonical _ _ _ h
    | forceSpare | restore | check | trimModWrite | trimVrefWrite | trimOscWrite | reload | rejoin | xreturn | eoi
      | intTargetDisable | arm | fdis | recover => exact ⟨_, rfl, write_canonical _ _ _ _ h⟩
    | pulseTest => exact execPulseTest_canonical _ _ _ _ h
    | cycleClose => exact execCycleClose_canonical _ h
    | profileClose => exact execProfileClose_canonical h
    | firstMeteredCycle => exact execFirstMeteredCycle_canonical h
    | startupFreerunFallback => exact execStartupFreerunFallback_canonical h
    | brk => exact execBrk_canonical _ h
    | brownout => exact execBrownout_canonical h
    | por => exact execPor_canonical _ _ h
    | resetnCold => exact execResetnCold_canonical h
    | journalRestored => exact execJournalRestored_canonical _ h
    | configRestore => exact execConfigRestore_canonical _ _ h
    | cfgRestoreFail => exact execCfgRestoreFail_canonical h
    | _ => cases hc

/-- An edge of the crystal, and the cores' return with it, touch no word (R312). -/
theorem crystalEdge_canonical {s : State} (h : Canonical s) : Canonical (crystalEdge s) := by
  have hback : Canonical s.coresBack := by
    refine ite_canonical (fun _ => ?_) fun _ => h
    exact h.kept (by simp) (by simp) (by simp)
  exact hback.kept rfl rfl (by simp [crystalEdge, apply_ite])

/-- Settles O5: each row that writes words writes them through `Regs.put`, copies canonical ones, or empties the store; the
others leave the stores and the images. -/
theorem storesStayCanonical : Obligations.StoresStayCanonical := by
  intro s t h hstep
  have hcanon := (storesWf_iff s).mp h
  rw [storesWf_iff]
  unfold step at hstep
  split at hstep
  · cases hstep
    exact crystalEdge_canonical hcanon
  · next c rest _ =>
      obtain ⟨u, hu, hnext⟩ := exec_canonical c (s := { s with pending := rest }) (hcanon.kept rfl rfl rfl)
      cases hstep.symm.trans hu
      exact hnext

end Sys2Proof.Scope
end

section
/-!
SUPPORT. Device management (R19, R239 to R241, R318, R321, R331), and the state of a power-on reset (R279).
-/
namespace Sys2Proof.Scope

open Sys2Proof.Machine Sys2Proof.Laws

/-! ### Checks that a management command passes (R239, R240, R321) -/

theorem execBankEnter_run {r : Req} {s : State} (hs : s.served 0x0503 r = true) (hrun : s.dev.st = .run)
    (hidle : s.commitRuns = false) : exec (.bankEnter r) s =
      .next (({ s with dev := { s.dev with bankAt := true } }).ok 0x0503 r (numberBytes s.nextBoundary)) := by
  refine (exec_served (c := .bankEnter r) rfl hs :).trans ?_
  simp only [woken_bank, hrun, hidle, Bool.false_eq_true, if_false]

/-- In Banked the answer is the boundary of the present stay (R19). -/
theorem execBankEnter_banked {r : Req} {s : State} (hs : s.served 0x0503 r = true) (hbanked : s.dev.st = .banked) :
    exec (.bankEnter r) s = .next (s.ok 0x0503 r (numberBytes s.dev.bankedFrom)) := by
  refine (exec_served (c := .bankEnter r) rfl hs :).trans ?_
  simp only [woken_bank, hbanked]

/-- The lock that a session holds ends with the activations that it lets run kept (R240, R331). -/
theorem endLock_held {id : Fin 1024} {s : State} (h : s.holdsLock id = true) :
    s.endLock = { s.keepActivations id with scr := { (s.keepActivations id).scr with inkLock := none } } := by
  unfold State.endLock
  unfold State.holdsLock at h
  split
  · next held d hlock =>
    have hid : held = id := by simpa [hlock] using h
    rw [hid]
  · next hlock => simp [hlock] at h

/-- Settles O18: each management command, past the checks that its hypotheses meet, is its own effect. -/
theorem managementCommandsComplete : Obligations.ManagementCommandsComplete := by
  refine ⟨fun r mask s hs hrole => ?_, fun r s hs hrun hidle => execBankEnter_run hs hrun hidle,
    fun r s hs hbanked => execBankEnter_banked hs hbanked, fun r s hs => (exec_served (c := .bankExit r) rfl hs :),
    fun r scope s hs hscope => ?_, fun r input code s hs => ?_, fun r s hs hlock hdue => ?_,
    fun r duration s hs hlo hhi hlock => ?_, fun r s hs hlock => ?_⟩
  · refine (exec_served (c := .blotClear r mask) rfl hs :).trans ?_
    simp only [hrole, Bool.not_true, Bool.false_eq_true, if_false]
  · refine (exec_served (c := .softReset r scope) rfl hs :).trans ?_
    rw [if_neg (not_lt.mpr hscope)]
  · refine (exec_served (c := .auxRead r input.val code) rfl hs :).trans ?_
    rw [idx?_val]
  · refine (exec_served (c := .cfgSave r) rfl hs :).trans ?_
    simp [hlock, hdue]
  · refine (exec_served (c := .inkLock r duration) rfl hs :).trans ?_
    have hvalue : ¬(decide (duration = 0) || decide (60 < duration)) = true := by simp; omega
    have hfree : ¬((s.woken 0x0508).scr.inkLock.isSome && !(s.woken 0x0508).holdsLock r.session) = true := by
      rcases hlock with h | h <;> simp [h]
    rw [if_neg hvalue, if_neg hfree]
  · refine (exec_served (c := .inkUnlock r) rfl hs :).trans ?_
    have hheld : (s.woken 0x0509).holdsLock r.session = true := (woken_holdsLock ..).trans hlock
    rw [if_pos hheld, endLock_held hheld]

/-! ### The reset state (R279) -/

/-- Nothing is in service after a reset (R286). -/
theorem reset_stack (t : Fin 6) : State.reset.intc.targets[t].stack = [] :=
  congrArg Target.stack (Vector.getElem_replicate ..)

/-- Empty stacks rise. -/
theorem stacksRise_of_empty {s : State} (h : ∀ t : Fin 6, s.intc.targets[t].stack = []) : s.stacksRise := by
  intro t
  rw [h t]
  exact ⟨List.Pairwise.nil, fun _ he => absurd he List.not_mem_nil⟩

/-- Settles O60: every part of the reset state is its replicated or empty value. -/
theorem resetIsStartUp : Obligations.ResetIsStartUp := by
  refine ⟨rfl, rfl, rfl, rfl, fun k => congrArg Chan.st (Vector.getElem_replicate ..),
    fun g => congrArg Spare.st (Vector.getElem_replicate ..), fun p i => ?_, rfl, rfl,
    fun q => congrArg Que.entries (Vector.getElem_replicate ..), fun p => ?_, rfl, rfl, rfl, rfl, rfl, rfl,
    stacksRise_of_empty reset_stack, reset_stack⟩
  · have hpoint : State.reset.pts[p] = Point.reset := Vector.getElem_replicate ..
    rw [hpoint]
    exact Vector.getElem_replicate ..
  · have hport : State.reset.scr.ports[p] = PortState.reset := Vector.getElem_replicate ..
    rw [hport]
    exact ⟨rfl, rfl⟩

end Sys2Proof.Scope
end

section
/-!
SUPPORT. The steps of R213: what each finds, in what order, and the rejection that it ends in (R199, R200, R206, R212 to R215, R222).
-/
namespace Sys2Proof.Scope

open Sys2Proof.Machine Sys2Proof.Laws

/-! ### What a rejection leaves of its port (R215) -/

theorem reject_done (p : Port) (x : Reply) (s : State) :
    (s.reject p x).scr.ports[portIdx p].done = s.scr.ports[portIdx p].done := by
  unfold State.reject
  split
  · rw [onPort_port]
  · rw [pendInt_scr, start_done, onPort_port]

/-- A register that is taken keeps its reply, and the rejection is counted. -/
theorem reject_taken {p : Port} (x : Reply) {y : Reply} {s : State} (h : s.scr.ports[portIdx p].imm = some y) :
    (s.reject p x).scr.ports[portIdx p].imm = some y ∧
      (s.reject p x).scr.ports[portIdx p].immLost = sat 0xFF (s.scr.ports[portIdx p].immLost + 1) := by
  unfold State.reject
  rw [h]
  dsimp only
  rw [onPort_port]
  exact ⟨h, rfl⟩

/-! ### The bytes of a frame (R213 steps 1 to 4) -/

theorem frameFault_eq (spi : Bool) (bs : List Byte) (h : Header) : frameFault spi bs h =
    if bs.length < 20 ∨ 4132 < bs.length ∨ h.magic ≠ 0xC5 ∨ (spi = true ∧ bs.length ≠ h.size) then some .badFrame
    else if crc32c (bs.take (bs.length - 4)) ≠ BitVec.ofNat 32 (field bs (bs.length - 4) 4) then some .crcError
    else if h.version ≠ 1 then some .badVersion
    else if h.top = true ∨ h.tagTop = true ∨ h.flags / 2 % 4 ≠ 0 ∨ 4096 < h.length ∨ bs.length ≠ h.size then some .badFrame
    else none := by
  simp only [frameFault, Bool.or_eq_true, Bool.and_eq_true, decide_eq_true_eq, or_assoc]

/-! ### Room for a frame of a session (R213 steps 11 to 14) -/

theorem roomFault_session {h : Header} (s : State) (hsession : h.isHello = false) : s.roomFault h =
    let cfg := s.live (.queCfg h.qid)
    let mine := s.scr.tags.filter fun t => !t.hello && t.session = h.sid && !t.dead
    let entries := s.scr.queues[h.qid].entries
    if ∃ t ∈ mine, t.tag = h.tid then some .tagInUse
    else if fld cfg 21 16 ≤ (entries.filter fun e => !e.hello && e.session = h.sid && !e.dead).length then some .noCredit
    else if fld cfg 6 0 ≤ entries.length then some .queueFull
    else if 128 ≤ s.scr.tags.length ∨ fld (s.live .sesCfg) 15 8 ≤ mine.length then some .noTag
    else none := by
  simp only [State.roomFault, hsession, Bool.false_eq_true, if_false, List.any_eq_true, Bool.or_eq_true, decide_eq_true_eq]

/-! ### Opcode, role and room (R213 steps 9 to 14) -/

section
variable {p : Port} {h : Header} {role : Role} (payload : List Byte) {s : State}

theorem judgeOpcode_unknown (hrow : (opRow? h.opcode).isNone = true) :
    s.judgeOpcode p h (some role) payload = s.reject p (h.rejection .badOpcode) := if_pos hrow

theorem judgeOpcode_denied (hrow : (opRow? h.opcode).isSome = true) (hrole : permitted h.opcode role = false) :
    s.judgeOpcode p h (some role) payload = s.reject p (h.rejection .denied) := by
  simp [State.judgeOpcode, Option.isNone_eq_false_iff.mpr hrow, hrole]

/-- A tag in use is no matter of room, so that REJECT does not count it. -/
theorem judgeOpcode_tagInUse (hrow : (opRow? h.opcode).isSome = true) (hrole : permitted h.opcode role = true)
    (hroom : s.roomFault h = some .tagInUse) :
    s.judgeOpcode p h (some role) payload = s.reject p (h.rejection .tagInUse) := by
  simp [State.judgeOpcode, Option.isNone_eq_false_iff.mpr hrow, hrole, hroom]

theorem judgeOpcode_noRoom {st : Status} (hrow : (opRow? h.opcode).isSome = true) (hrole : permitted h.opcode role = true)
    (hroom : s.roomFault h = some st) (htag : st ≠ .tagInUse) : s.judgeOpcode p h (some role) payload =
      (s.onQue h.qid fun q => { q with reject := sat 0xFFFF (q.reject + 1) }).reject p (h.rejection st) := by
  simp [State.judgeOpcode, Option.isNone_eq_false_iff.mpr hrow, hrole, hroom]

end

/-! ### The session and its counters (R213 steps 5 to 7, R199, R200, R212) -/

theorem judgeFrame_fault {p : Port} {bs : List Byte} {st : Status} (s : State)
    (hfault : frameFault (isSpi p) bs (headerOf bs) = some st) :
    s.judgeFrame p bs = s.reject p ((headerOf bs).rejection st) := by
  unfold State.judgeFrame
  dsimp only
  split
  · next h => rw [Option.some.inj (hfault.symm.trans h)]
  · next h => exact absurd (hfault.symm.trans h) (by simp)

/-- A HELLO that is no open, or whose queue is not open on the port, is denied (R222). -/
theorem judgeFrame_helloDenied {p : Port} {bs : List Byte} {s : State} (hsound : frameFault (isSpi p) bs (headerOf bs) = none)
    (hhello : (headerOf bs).isHello = true)
    (hdenied : ((headerOf bs).opcode = 2 && s.queueServes (headerOf bs).qid p && bit (s.live (.queCfg (headerOf bs).qid)) 30) = false) :
    s.judgeFrame p bs = s.reject p ((headerOf bs).rejection .queueDenied) := by
  unfold State.judgeFrame
  dsimp only
  split
  · next h => exact absurd (hsound.symm.trans h) (by simp)
  · simp only [hhello, hdenied, Bool.false_eq_true, if_true, if_false]

theorem judgeFrame_noSession {p : Port} {bs : List Byte} {s : State} (hsound : frameFault (isSpi p) bs (headerOf bs) = none)
    (hhello : (headerOf bs).isHello = false) (hnone : ∀ x, s.session? (headerOf bs).sid = some x → x.port ≠ p) :
    s.judgeFrame p bs = s.reject p ((headerOf bs).rejection .noSession) := by
  unfold State.judgeFrame
  dsimp only
  split
  · next h => exact absurd (hsound.symm.trans h) (by simp)
  · rw [if_neg (by simp [hhello])]
    split
    · next x hx => rw [if_neg (hnone x hx)]
    · rfl

theorem judgeSession_unauthentic {p : Port} {h : Header} {x : Session} {bs : List Byte} (s : State)
    (hbad : h.isSec ≠ x.secured ∨ x.corrupt = true ∨ x.opened h bs = none) :
    s.judgeSession p h x bs = s.authFailure p h x := by
  unfold State.judgeSession
  rcases hbad with hsec | hcorrupt | hclosed
  · rw [if_pos (by simp [hsec])]
  · rw [if_pos (by simp [hcorrupt])]
  · rw [hclosed]
    exact ite_self _

/-- A SEQ at or below the counter is an error, and the end of a session whose counter is used up (R200). -/
theorem judgeSequence_repeated {p : Port} {h : Header} {x : Session} (payload : List Byte) {s : State} (hseq : h.seq ≤ x.hostSeq) :
    s.judgeSequence p h x payload =
      let s1 := (s.onSession x.id heard).reject p (h.rejection .seqError)
      if x.hostSeq = 2 ^ 32 - 1 then (s1.endSession x.id 3).settle else s1 :=
  if_pos hseq

/-! ### The order of the steps -/

/-- Bytes that hold no frame are a bad one (R206). -/
theorem execFrameReceive_noFrame {p : Port} {bytes : List Byte} {s : State} (hs : s.serving = true) (hnone : frameIn p bytes = none) :
    exec (.frameReceive p bytes []) s = .next ((s.onWire p bytes).reject p ((headerOf []).rejection .badFrame)) := by
  cases p with
  | c => exact execFrameReceive_undecoded hs hnone
  | a | b => cases hnone

theorem onWire_session? (p : Port) (bytes : List Byte) (s : State) (id : Fin 1024) :
    (s.onWire p bytes).session? id = s.session? id := by
  obtain ⟨ports, hwire⟩ := onWire_eq p bytes s
  rw [hwire]
  rfl

/-- A session that has counted a frame has moved the ports, the sessions and the interrupt controller alone. -/
theorem counted_onWire (p : Port) (bytes : List Byte) (h : Header) (id : Fin 1024) (s : State) : ∃ ports sessions i,
    counted p h id (s.onWire p bytes) = withFront { s.scr with ports := ports, sessions := sessions } i s := by
  obtain ⟨ports, hwire⟩ := onWire_eq p bytes s
  obtain ⟨sessions, i, hcounted⟩ := counted_eq p h id (s.onWire p bytes)
  exact ⟨ports, sessions, i, hcounted.trans (by rw [hwire]; rfl)⟩

theorem counted_scr (p : Port) (h : Header) (id : Fin 1024) (s : State) :
    (counted p h id s).scr = ((s.onSession id heard).onSession id (sequenced h.seq)).scr := route_scr _

/-- Settles O11: each step of R213 in its order, and what a rejection leaves. -/
theorem rejectionsComeInOrder : Obligations.RejectionsComeInOrder := by
  unfold Obligations.RejectionsComeInOrder
  refine ⟨fun p x s => ⟨reject_scr_sessions .., reject_scr_queues .., reject_scr_tags .., reject_scr_admitted .., reject_fol ..,
      reject_cfg .., reject_eff .., reject_ev .., reject_done .., fun hfree => (reject_free x hfree).1, fun y hy => reject_taken x hy⟩,
    fun h st => ⟨rfl, rfl, rfl, rfl, rfl, rfl, rfl, rfl⟩, fun spi bs h => ?_, fun h s hsession => ?_, fun p bytes s hs => ?_⟩
  · dsimp only
    rw [frameFault_eq]
    refine ⟨fun hsize => if_pos hsize, fun hsize hcrc => ?_, fun hsize hcrc hversion => ?_, fun hsize hcrc hversion hform => ?_,
      fun hsize hcrc hversion hform => ?_⟩
    · rw [if_neg hsize, if_pos hcrc]
    · rw [if_neg hsize, if_neg hcrc, if_pos hversion]
    · rw [if_neg hsize, if_neg hcrc, if_neg (not_not.mpr hversion), if_pos hform]
    · rw [if_neg hsize, if_neg hcrc, if_neg (not_not.mpr hversion), if_neg hform]
  · dsimp only
    rw [roomFault_session s hsession]
    dsimp only
    refine ⟨fun htaken => if_pos htaken, fun htaken hfull => ?_, fun htaken hfull hdepth => ?_, fun htaken hfull hdepth hpool => ?_,
      fun htaken hfull hdepth hpool => ?_⟩
    · rw [if_neg htaken, if_pos hfull]
    · rw [if_neg htaken, if_neg hfull, if_pos hdepth]
    · rw [if_neg htaken, if_neg hfull, if_neg (not_le.mpr hdepth), if_pos hpool]
    · rw [if_neg htaken, if_neg hfull, if_neg (not_le.mpr hdepth), if_neg hpool]
  · intro s1
    refine ⟨fun hnone => execFrameReceive_noFrame hs hnone, fun bs hbs => ?_⟩
    intro h ends
    have hjudged := execFrameReceive_judged hs hbs
    obtain ⟨ports, hwire⟩ := onWire_eq p bytes s
    refine ⟨fun st hfault => hjudged.trans (congrArg _ (judgeFrame_fault s1 hfault)), fun hsound => ⟨fun hhello hdenied => ?_,
      fun hhello hnone => ?_, fun x hhello hx hport => ?_⟩⟩
    · exact hjudged.trans (congrArg _ (judgeFrame_helloDenied hsound hhello (by rw [hwire]; exact hdenied)))
    · exact hjudged.trans (congrArg _ (judgeFrame_noSession hsound hhello fun x hx => hnone x ((onWire_session? ..).symm.trans hx)))
    · rw [judgeFrame_session hsound hhello ((onWire_session? ..).trans hx) hport] at hjudged
      refine ⟨fun hbad => hjudged.trans (congrArg _ (judgeSession_unauthentic s1 hbad)), fun hsec hwhole hopened => ?_⟩
      obtain ⟨payload, hpayload⟩ := Option.isSome_iff_exists.mp hopened
      rw [judgeSession_opened hsec hwhole hpayload] at hjudged
      refine ⟨fun hseq => hjudged.trans (congrArg _ (judgeSequence_repeated payload hseq)), fun hseq => ?_⟩
      rw [judgeSequence_counted payload hseq] at hjudged
      dsimp only at hjudged
      obtain ⟨ports', sessions, i, hcounted⟩ := counted_onWire p bytes h x.id s
      have hserves : (counted p h x.id s1).queueServes h.qid p = s.queueServes h.qid p := by rw [hcounted]; rfl
      have hadmits : (counted p h x.id s1).queueAdmits h.qid x.role = s.queueAdmits h.qid x.role := by rw [hcounted]; rfl
      have hroomSame : (counted p h x.id s1).roomFault h = s.roomFault h := by rw [hcounted]; rfl
      rw [hserves, hadmits, ← Bool.not_and, ← Bool.not_and] at hjudged
      refine ⟨counted p h x.id s1, counted_scr .., counted_base .., by rw [hcounted]; rfl, by rw [hcounted]; rfl,
        by rw [hcounted]; rfl, by rw [hcounted]; rfl, fun hdenied => ?_, fun hqueue => ?_⟩
      · rw [hdenied] at hjudged
        exact hjudged
      · rw [hqueue] at hjudged
        refine ⟨fun hrow => hjudged.trans (congrArg _ (judgeOpcode_unknown payload hrow)),
          fun hrow hrole => hjudged.trans (congrArg _ (judgeOpcode_denied payload hrow hrole)),
          fun hrow hrole => ⟨fun hroom => ?_, fun st hroom htag => ?_⟩⟩
        · exact hjudged.trans (congrArg _ (judgeOpcode_tagInUse payload hrow hrole (hroomSame.trans hroom)))
        · exact hjudged.trans (congrArg _ (judgeOpcode_noRoom payload hrow hrole (hroomSame.trans hroom) htag))

end Sys2Proof.Scope
end

section
/-!
SUPPORT. What events leave of a device that is not in Banked, and what a chain of effects, a reload of the trims and a boot of the cores
preserve (R19, R135, R259, R280, R292, R311, R330, R332).
-/
namespace Sys2Proof.Scope

open Sys2Proof.Machine Sys2Proof.Laws

/-! ### A device that is not in Banked (R19, R292) -/

theorem unbank_awake {s : State} (h : s.dev.st ≠ .banked) : s.unbank = s := by
  unfold State.unbank
  split
  · next hbanked => exact absurd hbanked h
  · rfl

theorem wakeFor_awake (l : List Nat) {s : State} (h : s.dev.st ≠ .banked) : s.wakeFor l = s := by
  rw [State.wakeFor, unbank_awake h, ite_self]

theorem pendInt_dev_awake (n : Nat) {s : State} (h : s.dev.st ≠ .banked) : (s.pendInt n).dev = s.dev := by
  rw [State.pendInt, wakeFor_awake [n] (by rwa [latch_dev]), route_dev, latch_dev]

theorem enter_dev_awake (e : Event) {s : State} (h : s.dev.st ≠ .banked) : (s.enter e).dev = s.dev := by
  unfold State.enter
  dsimp only
  repeat' split
  · exact pendInt_dev_awake 17 h
  · rfl
  · exact pendInt_dev_awake 18 h

theorem raise_dev_awake (e : Ev) (u : Subject) (d : List Byte) {s : State} (h : s.dev.st ≠ .banked) :
    (s.raise e u d).dev = s.dev := by
  have hentered (x : Event) : (if s.dev.startup.restored then s.enter x
      else { s with ev := { s.ev with held := s.ev.held ++ [x] } }).dev = s.dev := by
    split
    · exact enter_dev_awake x h
    · rfl
  unfold State.raise State.raiseWith State.raiseAs
  dsimp only
  split
  · exact (pendInt_dev_awake _ (by rw [hentered]; exact h)).trans (hentered _)
  · exact hentered _

theorem note_dev_awake (b : Blot) (e : Ev) (u : Subject) (d : List Byte) {s : State} (h : s.dev.st ≠ .banked) :
    (s.note b e u d).dev = s.dev := raise_dev_awake (s := s.blot b) e u d h

theorem endSession_dev_awake (id : Fin 1024) (cause : Nat) {s : State} (h : s.dev.st ≠ .banked) :
    (s.endSession id cause).dev = s.dev := by
  unfold State.endSession
  split
  · rfl
  · exact (raise_dev_awake _ _ _ (by simpa using h)).trans (by simp)

theorem flushTarget_dev_awake (t : Fin 6) {s : State} (h : s.dev.st ≠ .banked) : (s.flushTarget t).dev = s.dev := by
  unfold State.flushTarget
  dsimp only
  rw [wakeFor_awake]
  exact h

theorem coresDown_dev_awake {s : State} (h : s.dev.st ≠ .banked) : s.coresDown.dev = s.dev := by
  have h0 := flushTarget_dev_awake 0 h
  have h1 : ((s.flushTarget 0).flushTarget 1).dev = s.dev := (flushTarget_dev_awake 1 (by rwa [h0])).trans h0
  exact (route_dev _).trans h1

/-! ### What a chain, a reload of the trims and a boot preserve -/

theorem chain_preserves {α : Type} {P : State → Prop} (l : List α) {f : α → State → State} (hf : ∀ a s, P s → P (f a s))
    {s : State} (h : P s) : P (chain l f s) := by
  induction l generalizing s with
  | nil => exact h
  | cons a l ih => exact ih (hf a s h)

/-- A trim that takes effect is a note at most (R135). -/
theorem trimNote_preserves {P : State → Prop} (hnote : ∀ b e u d s, P s → P (State.note b e u d s)) (addr : Nat) (old new : Word)
    {s : State} (h : P s) : P (s.trimNote addr old new) := by
  unfold State.trimNote
  split
  · exact h
  · exact hnote _ _ _ _ _ h

theorem coldTrims_preserves {P : State → Prop} (hnote : ∀ b e u d s, P s → P (State.note b e u d s)) (old : Trims)
    {s : State} (h : P s) : P (s.coldTrims old) :=
  trimNote_preserves hnote _ _ _ (trimNote_preserves hnote _ _ _
    (chain_preserves _ (fun _ _ hs => trimNote_preserves hnote _ _ _ hs) h))

/-- A reload marks the channels, the spares and the trims, and a backup trim that it applies is noted (R135, R280). -/
theorem reloadTrims_preserves {P : State → Prop} (hchan : ∀ k f s, P s → P (State.onChan k f s))
    (hspare : ∀ k f s, P s → P (State.onSpare k f s)) (htrim : ∀ (x : Trims) s, P s → P { s with trim := x })
    (hnote : ∀ b e u d s, P s → P (State.note b e u d s)) {s : State} (h : P s) : P s.reloadTrims := by
  have hmods : P (modsReloaded s) := by
    refine chain_preserves _ (fun n s hs => ?_) h
    unfold putDue
    split
    · exact hchan _ _ _ hs
    · exact hspare _ _ _ hs
  have hvref : P (vrefReloaded (modsReloaded s)) := htrim _ _ hmods
  have hbkup : P (bkupReloaded (vrefReloaded (modsReloaded s))) := by
    unfold bkupReloaded State.askBkup State.setOsc
    repeat' split
    · exact htrim _ _ hvref
    · exact htrim _ _ hvref
    · exact trimNote_preserves hnote _ _ _ (htrim _ _ (htrim _ _ hvref))
  rw [reloadTrims_eq]
  unfold panelReloaded
  split <;> exact htrim _ _ hbkup

section
variable {P : State → Prop} (hanv : ∀ (a : Anvil) (s : State), a.up = s.anv.up → P s → P { s with anv := a })
  (hnote : ∀ b e u d s, P s → P (State.note b e u d s))
include hanv

theorem noteRecovery_preserves {s : State} (h : P s) : P s.noteRecovery := by
  unfold State.noteRecovery
  split
  · exact hanv { s.anv with blots := s.anv.blots ||| blotBit .fwRecovery } s rfl h
  · exact h

include hnote

theorem revert_preserves (cause : Nat) {s : State} (h : P s) : P (s.revert cause) := by
  unfold State.revert
  exact hnote _ _ _ _ _ (noteRecovery_preserves hanv (hanv _ _ (boot_up _) (hanv _ s rfl h)))

/-- Loading the cores moves Anvil, not whether it is up, and what it notes (R259, R311, R330). -/
theorem loadCores_preserves (bad : List (Fin 2 × Word)) (passes : Bool) {s : State} (h : P s) : P (s.loadCores bad passes) := by
  have hspoilt : P (chain bad State.spoilSlot s) := by
    refine chain_preserves bad (fun x s hs => ?_) h
    exact hnote _ _ _ _ (s.onSlot x.1 fun y => { y with verified := false }) (hanv _ s rfl hs)
  have hbooted : P (chain bad State.spoilSlot s).bootSlot := by
    unfold State.bootSlot
    split
    · exact revert_preserves hanv hnote 2 hspoilt
    · exact noteRecovery_preserves hanv (hanv _ _ (boot_up _) hspoilt)
  unfold State.loadCores
  dsimp only
  split
  · exact h
  · split
    · exact revert_preserves hanv hnote 1 hbooted
    · exact hbooted

end

/-- Booting chooses what runs, and nothing else (R311, R332). -/
theorem boot_eq (a : Anvil) : ∃ slot version, a.boot = { a with slot := slot, version := version } := by
  unfold Anvil.boot
  dsimp only
  split
  · exact ⟨_, _, rfl⟩
  · split <;> exact ⟨_, _, rfl⟩

/-- A boot into the recovery image sets its blot bit, and nothing else (R332). -/
theorem noteRecovery_eq (s : State) : ∃ blots, s.noteRecovery = { s with anv := { s.anv with blots := blots } } ∧
    ∀ m, Blotted m s → blots &&& m = m := by
  unfold State.noteRecovery
  split
  · exact ⟨_, rfl, fun m hm => blot_keeps .fwRecovery hm⟩
  · exact ⟨s.anv.blots, rfl, fun m hm => hm⟩

/-- Cores that load without a trial to judge, or under a warning, change what runs, and set blot bits at most (R311, R332). -/
theorem loadCores_noTrial (passes : Bool) {s : State} (h : s.anv.fw = .trial → s.pwr.pfail = true) : ∃ slot version blots,
    s.loadCores [] passes = { s with anv := { s.anv with slot := slot, version := version, blots := blots } } ∧
    ∀ m, Blotted m s → blots &&& m = m := by
  by_cases hpf : s.pwr.pfail = true
  · exact ⟨s.anv.slot, s.anv.version, s.anv.blots, if_pos hpf, fun m hm => hm⟩
  · have hfw : s.anv.fw ≠ .trial := fun ht => hpf (h ht)
    obtain ⟨slot, version, hboot⟩ := boot_eq s.anv
    obtain ⟨blots, hrecovery, hkeep⟩ := noteRecovery_eq { s with anv := s.anv.boot }
    have hslot : s.bootSlot = { s with anv := { s.anv with slot := slot, version := version, blots := blots } } := by
      unfold State.bootSlot
      rw [if_neg (by simp [hfw]), hrecovery, hboot]
    have hload : s.loadCores [] passes = s.bootSlot := by
      unfold State.loadCores
      rw [if_neg hpf]
      exact if_neg (by simp [chain, hslot, hfw])
    exact ⟨slot, version, blots, hload.trans hslot, fun m hm => hkeep m (by rw [hboot]; exact hm)⟩

end Sys2Proof.Scope
end

section
/-!
SUPPORT. Resets and the supplies, row by row (R19, R276 to R281, R295, R310, R312, R330, R334, R355, R361).
-/
namespace Sys2Proof.Scope

open Sys2Proof.Machine Sys2Proof.Laws

/-! ### Cold resets (R276, R278, R279) -/

theorem powered_eq (s : State) : s.powered = (s.supplied && !s.dev.startup.inReset) := rfl

/-- What a cold reset has left, as far as the reset rows tell of it. -/
def coldView (s : State) : Dev × Scribe × Power × Vector Point 128 × Calendar × Guard × FwState × Vector FwSlot 2 :=
  (s.dev, s.scr, s.pwr, s.pts, s.cld, s.grd, s.anv.fw, s.anv.slots)

/-- The trims that the fuses bring back are noted, and move nothing of it. -/
theorem coldTrims_coldView (old : Trims) {s : State} (h : s.dev.st ≠ .banked) : coldView (s.coldTrims old) = coldView s := by
  refine coldTrims_preserves (P := fun t => coldView t = coldView s) (fun b e u d t ht => ?_) old rfl
  have hdev : t.dev = s.dev := congrArg Prod.fst ht
  have hnote := note_dev_awake b e u d (s := t) (by rwa [hdev])
  refine Eq.trans ?_ ht
  simp [coldView, hnote]

/-- After a cold reset the part is in START (R19). -/
theorem coldReset_awake (bits : BitVec 11) (why : Nat) (s : State) : (s.coldReset bits why).dev.st ≠ .banked := by
  simp [State.coldReset, State.coldDev, Dev.reset]

/-- Start-up that begins without a trial finds or misses its key, and boots (R332, R361). -/
theorem begin_noTrial (selfCheck : Bool) {s : State} (h : s.anv.fw ≠ .trial) : ∃ a,
    s.begin_ [] selfCheck = { s with grd := s.grd.startUp, anv := a } ∧ a.slots = s.anv.slots := by
  obtain ⟨slot, version, blots, hload, -⟩ := loadCores_noTrial selfCheck
    (s := { s with grd := s.grd.startUp, anv := { s.anv with trialLeft := s.now } }) fun ht => absurd ht h
  exact ⟨_, hload, rfl⟩

theorem startUp_quenched (g : Guard) :
    g.startUp.quenched = (g.quenched || if g.armed then g.kek.isNone else !g.transport) := by
  have hkey : (if g.armed then g.kek.isNone else !g.transport) = !(if g.armed then g.kek.isSome else g.transport) := by
    split
    · exact (Option.not_isSome _).symm
    · rfl
  rw [hkey, Guard.startUp]
  generalize (if g.armed then g.kek.isSome else g.transport) = valid
  cases hq : g.quenched <;> cases valid <;> simp [hq]

theorem abandonArm_idle {g : Guard} (h : g.arming = false) : g.abandonArm = g := by
  simp [Guard.abandonArm, h]

/-- The entry that a long RESET_N writes after a closed cycle is of the present points (R278, R301). -/
theorem resetEntry_closed {s : State} (hpf : s.pwr.pfail = false) (hclosed : s.closedOne = true) (herased : s.pwr.erased ≠ 0) :
    s.resetEntry = s.writeEntry (s.record s.pwr.ceil) := by
  simp [State.resetEntry, hpf, hclosed, herased]

theorem resetEntry_none {s : State} (hpf : s.pwr.pfail = false) (hclosed : s.closedOne = false) : s.resetEntry = s := by
  simp [State.resetEntry, hpf, hclosed]

theorem execResetnCold_powered {s : State} (hpow : s.powered = true) : exec .resetnCold s =
    .next (((s.resetEntry.coldReset 4 2).coldTrims s.trim).phase fun x => { x with inReset := true }) := by
  rw [powered_eq, Bool.and_eq_true, Bool.not_eq_true'] at hpow
  obtain ⟨hsupplied, hrunning⟩ := hpow
  simp only [exec, execResetnCold, hsupplied, hrunning, Bool.false_eq_true, if_true, if_false]

/-- POR: start-up begins, or waits for the release of RESET_N (R278, R282). -/
theorem execPor_noTrial (selfCheck : Bool) {s : State} (h : s.anv.fw ≠ .trial) : ∃ (why : Nat) (t : State),
    exec (.por [] selfCheck) s = .next t ∧ t.dev = s.coldDev why ∧ t.scr.sessions = [] ∧ t.pwr = s.pwr.cold 1 ∧
    t.pts = State.reset.pts ∧ t.cld = { s.cld with moves := [] } ∧ t.anv.slots = s.anv.slots ∧
    (s.dev.startup.inReset = false →
      t.grd = { s.grd.abandonArm with srcs := s.grd.srcs.map GrdSrc.flush }.startUp) := by
  let why := if s.pwr.pfail then 0 else 1
  let c := (s.coldReset 1 why).coldTrims s.trim
  have hview : coldView c = coldView (s.coldReset 1 why) := coldTrims_coldView s.trim (coldReset_awake 1 why s)
  simp only [coldView, Prod.mk.injEq] at hview
  obtain ⟨hdev, hscr, hpwr, hpts, hcld, hgrd, hfw, hslots⟩ := hview
  have hexec : exec (.por [] selfCheck) s = .next (if c.dev.startup.inReset then c else c.begin_ [] selfCheck) := rfl
  have hreset : c.dev.startup.inReset = s.dev.startup.inReset := congrArg (fun d => d.startup.inReset) hdev
  have hidle : c.anv.fw ≠ .trial := by
    rw [hfw]
    simp [State.coldReset, Anvil.cold, h]
  obtain ⟨a, hbegun, ha⟩ := begin_noTrial selfCheck hidle
  refine ⟨why, _, hexec, ?_⟩
  rw [hreset, hbegun]
  cases s.dev.startup.inReset
  · exact ⟨hdev, congrArg Scribe.sessions hscr, hpwr, hpts, hcld, ha.trans hslots, fun _ => congrArg Guard.startUp hgrd⟩
  · exact ⟨hdev, congrArg Scribe.sessions hscr, hpwr, hpts, hcld, hslots, fun hlow => absurd hlow.symm Bool.false_ne_true⟩

/-- Brownout: what a cold reset leaves, on cell (R19, R294). -/
theorem execBrownout_supplied {s : State} (h : s.supplied = true) : ∃ why : Nat, exec .brownout s = .next
    { s.coldReset 2 why with
      dev := { (s.coldReset 2 why).dev with st := .cell }, grd := { (s.coldReset 2 why).grd with glitchOn := false }
      trim := { s.trim with vrefDue := none, bkupDue := none, panelDue := none } } := by
  refine ⟨if s.pwr.pfail then 0 else 1, ?_⟩
  simp only [exec, execBrownout, h, Bool.not_true, Bool.false_eq_true, if_false]

theorem flush_srcs (v : Vector GrdSrc 16) (i : Fin 16) :
    (v.map GrdSrc.flush)[i] = { v[i] with next := none, again := none } := Vector.getElem_map ..

/-! ### A warm reset (R276, R279, R281) -/

/-- What the reset rows tell of after a warm reset, but for whether the part is in Banked. -/
def warmView (s : State) : Scribe × Power × MeterCal × Startup × Bool × Vector Point 128 × Regs × Regs :=
  (s.scr, s.pwr, s.mcal, s.dev.startup, s.anv.up, s.pts, s.cfg, s.eff)

theorem note_warmView (b : Blot) (e : Ev) (u : Subject) (d : List Byte) (s : State) :
    warmView (s.note b e u d) = warmView s := by simp [warmView]

theorem reloadTrims_warmView (s : State) : warmView s.reloadTrims = warmView s :=
  reloadTrims_preserves (P := fun t => warmView t = warmView s) (fun _ _ _ h => h) (fun _ _ _ h => h) (fun _ _ h => h)
    (fun _ _ _ _ _ h => (note_warmView ..).trans h) rfl

theorem loadCores_warmView (bad : List (Fin 2 × Word)) (passes : Bool) (s : State) :
    warmView (s.loadCores bad passes) = warmView s := by
  refine loadCores_preserves (P := fun t => warmView t = warmView s) (fun a t hup h => Eq.trans ?_ h)
    (fun _ _ _ _ _ h => (note_warmView ..).trans h) bad passes rfl
  simp only [warmView, hup]

theorem reloadTrims_dev_awake {s : State} (h : s.dev.st ≠ .banked) : s.reloadTrims.dev = s.dev :=
  reloadTrims_preserves (P := fun t => t.dev = s.dev) (fun _ _ _ h => h) (fun _ _ _ h => h) (fun _ _ h => h)
    (fun _ _ _ _ _ ht => (note_dev_awake _ _ _ _ (by rwa [ht])).trans ht) rfl

theorem loadCores_dev_awake (bad : List (Fin 2 × Word)) (passes : Bool) {s : State} (h : s.dev.st ≠ .banked) :
    (s.loadCores bad passes).dev = s.dev :=
  loadCores_preserves (P := fun t => t.dev = s.dev) (fun _ _ _ h => h)
    (fun _ _ _ _ _ ht => (note_dev_awake _ _ _ _ (by rwa [ht])).trans ht) bad passes rfl

theorem flushAll_dev_awake {s : State} (h : s.dev.st ≠ .banked) : s.flushAll.dev = s.dev :=
  chain_preserves (P := fun t => t.dev = s.dev) (List.finRange 6) (fun t _ hs => (flushTarget_dev_awake t (by rwa [hs])).trans hs) rfl

/-- The warm reset of Scribe, of what waits for a boundary and of the interrupt controller, before the cores go down (R279). -/
def warmFlushed (s : State) : State :=
  State.flushAll { (s.endSessions 4).loseWaiting with scr := (s.endSessions 4).loseWaiting.scr.warm }

theorem warmReset_eq (s : State) : s.warmReset = (((warmFlushed s).resetCause 8).coresDown).reloadTrims := rfl

theorem flushAll_warmView (s : State) : warmView s.flushAll = warmView s :=
  chain_keeps warmView _ _ (fun t s => by simp [warmView]) s

theorem coresDown_up (s : State) : s.coresDown.anv.up = false := by simp [State.coresDown]

theorem warmReset_warmView (s : State) : warmView s.warmReset =
    ((s.endSessions 4).scr.warm, { s.pwr with rstCause := s.pwr.rstCause ||| 8 },
      { s.mcal with waiting := [], resolves := [], resets := [] }, s.dev.startup, false, s.pts, s.cfg, s.eff) := by
  have hflushed := flushAll_warmView { (s.endSessions 4).loseWaiting with scr := (s.endSessions 4).loseWaiting.scr.warm }
  simp only [warmView, Prod.mk.injEq] at hflushed
  obtain ⟨hscr, hpwr, hmcal, hstartup, -, hpts, hcfg, heff⟩ := hflushed
  rw [warmReset_eq, reloadTrims_warmView]
  simp only [warmView, coresDown_up, coresDown_scr, coresDown_pwr, coresDown_mcal, coresDown_dev_startup, coresDown_pts, coresDown_cfg,
    coresDown_eff, State.resetCause, warmFlushed, hscr, hpwr, hmcal, hstartup, hpts, hcfg, heff]
  simp [State.loseWaiting]

theorem warmReset_startup (s : State) : s.warmReset.dev.startup = s.dev.startup := by
  have hwarm := warmReset_warmView s
  simp only [warmView, Prod.mk.injEq] at hwarm
  obtain ⟨-, -, -, hstartup, -⟩ := hwarm
  exact hstartup

theorem warmReset_awake {s : State} (h : s.dev.st ≠ .banked) : s.warmReset.dev.st = s.dev.st := by
  have hended : (s.endSessions 4).dev = s.dev := chain_preserves (P := fun t => t.dev = s.dev) _
    (fun _ _ ht => (endSession_dev_awake _ _ (by rwa [ht])).trans ht) rfl
  have hlost : (s.endSessions 4).loseWaiting.dev.st = s.dev.st := (congrArg Dev.st hended :)
  have hflushed : (warmFlushed s).dev.st = s.dev.st := (congrArg Dev.st (flushAll_dev_awake (by
    change (s.endSessions 4).loseWaiting.dev.st ≠ .banked
    rwa [hlost]))).trans hlost
  have hdown : ((warmFlushed s).resetCause 8).coresDown.dev = (warmFlushed s).dev :=
    coresDown_dev_awake (s := (warmFlushed s).resetCause 8) (by rwa [resetCause_dev, hflushed])
  rw [warmReset_eq, reloadTrims_dev_awake (by rwa [hdown, hflushed]), hdown, hflushed]

/-- The state in which the cores load their image after a warm reset: before metering the phases of start-up run anew, the guard looks
for its key, and the 600 s of a trial begin (R281, R330, R361). -/
def warmBegun (s : State) : State :=
  if s.metering then s.warmReset
  else
    let anew := s.warmReset.restartStartup
    { anew with grd := anew.grd.startUp, anv := { anew.anv with trialLeft := anew.now } }

theorem execResetnWarm_powered (bad : List (Fin 2 × Word)) (selfCheck : Bool) {s : State} (h : s.powered = true) :
    exec (.resetnWarm bad selfCheck) s = .next ((warmBegun s).loadCores bad selfCheck) := by
  simp only [exec, execResetnWarm, h, Bool.not_true, Bool.false_eq_true, if_false, warmBegun]
  split <;> rfl

/-- Start-up that begins anew moves its own phases alone (R281; log 90). -/
theorem warmBegun_keeps (s : State) : (warmBegun s).scr = s.warmReset.scr ∧ (warmBegun s).pwr = s.warmReset.pwr ∧
    (warmBegun s).mcal = s.warmReset.mcal ∧ (warmBegun s).anv.up = s.warmReset.anv.up ∧ (warmBegun s).pts = s.warmReset.pts ∧
    (warmBegun s).cfg = s.warmReset.cfg ∧ (warmBegun s).eff = s.warmReset.eff ∧ (warmBegun s).dev.st = s.warmReset.dev.st := by
  unfold warmBegun
  split <;> exact ⟨rfl, rfl, rfl, rfl, rfl, rfl, rfl, rfl⟩

theorem warmBegun_startup_metering {s : State} (h : s.metering = true) : (warmBegun s).dev.startup = s.warmReset.dev.startup := by
  rw [warmBegun, if_pos h]

theorem warmBegun_startup_before {s : State} (h : s.metering = false) : (warmBegun s).dev.startup =
    (s.warmReset.restartStartup).dev.startup := by
  unfold warmBegun
  rw [if_neg (by simp [h])]

/-- A warm reset, whatever slots are found unreadable, by what it leaves (R276, R279, R281). -/
theorem execResetnWarm_leaves (bad : List (Fin 2 × Word)) (selfCheck : Bool) {s : State} (h : s.powered = true) : ∃ t : State,
    exec (.resetnWarm bad selfCheck) s = .next t ∧ t.scr = (s.endSessions 4).scr.warm ∧
    t.pwr = { s.pwr with rstCause := s.pwr.rstCause ||| 8 } ∧
    t.mcal = { s.mcal with waiting := [], resolves := [], resets := [] } ∧ t.dev.startup = (warmBegun s).dev.startup ∧
    t.anv.up = false ∧ t.pts = s.pts ∧ t.cfg = s.cfg ∧ t.eff = s.eff ∧ (s.dev.st ≠ .banked → t.dev.st = s.dev.st) := by
  have hwarm := warmReset_warmView s
  have hloaded := loadCores_warmView bad selfCheck (warmBegun s)
  simp only [warmView, Prod.mk.injEq] at hwarm hloaded
  obtain ⟨hscr, hpwr, hmcal, -, hup, hpts, hcfg, heff⟩ := hwarm
  obtain ⟨hscr', hpwr', hmcal', hstartup', hup', hpts', hcfg', heff'⟩ := hloaded
  obtain ⟨hscr'', hpwr'', hmcal'', hup'', hpts'', hcfg'', heff'', hst⟩ := warmBegun_keeps s
  refine ⟨_, execResetnWarm_powered bad selfCheck h, hscr'.trans (hscr''.trans hscr), hpwr'.trans (hpwr''.trans hpwr),
    hmcal'.trans (hmcal''.trans hmcal), hstartup', hup'.trans (hup''.trans hup), hpts'.trans (hpts''.trans hpts),
    hcfg'.trans (hcfg''.trans hcfg), heff'.trans (heff''.trans heff), fun hawake => ?_⟩
  have hbegun : (warmBegun s).dev.st = s.dev.st := hst.trans (warmReset_awake hawake)
  exact (congrArg Dev.st (loadCores_dev_awake bad selfCheck (by rwa [hbegun]))).trans hbegun

/-! ### The watchdog of Anvil (R312, R330) -/

/-- What a restart of Anvil keeps but for what the cores run. -/
def trialView (s : State) : Power × FwState × Nat × Vector FwSlot 2 :=
  (s.pwr, s.anv.fw, s.anv.active, s.anv.slots)

theorem endSession_blotted {m : BitVec 128} (id : Fin 1024) (cause : Nat) {s : State} (h : Blotted m s) :
    Blotted m (s.endSession id cause) := by
  unfold State.endSession
  split
  · exact h
  · exact raise_blotted _ _ _ (by simpa [Blotted] using h)

theorem complete_blotted {m : BitVec 128} (op : Nat) (r : Req) (st : Status) (bs : List Byte) {s : State} (h : Blotted m s) :
    Blotted m (s.complete op r st bs) := by
  have hsent (f : PortState → PortState) {t : State} (ht : Blotted m t) : Blotted m ((t.onPort r.port f).start r.port) := by
    simpa [Blotted] using ht
  unfold State.complete
  dsimp only
  repeat' split
  · exact h
  · exact endSession_blotted _ _ h
  · exact pendInt_blotted _ (hsent _ h)
  · exact endSession_blotted _ _ h
  · exact pendInt_blotted _ (hsent _ h)

theorem coresDown_blotted {m : BitVec 128} {s : State} (h : Blotted m s) : Blotted m s.coresDown := by
  simpa [Blotted, State.coresDown] using h

/-- Anvil restarts with no trial to judge, or under a warning: the cores are down, and what has been judged of a trial stands. -/
theorem restartAnvil_noTrial {s : State} (h : s.anv.fw = .trial → s.pwr.pfail = true) :
    trialView (s.restartAnvil []) = trialView s ∧ (s.restartAnvil []).anv.up = false ∧
    ∀ m, Blotted m s → Blotted m (s.restartAnvil []) := by
  let u := s.abandonActivation.coresDown
  have habandoned : trialView s.abandonActivation = trialView s :=
    chain_keeps trialView _ _ (fun r s => by simp [trialView]) s
  have hdown : trialView u = trialView s := by
    refine Eq.trans ?_ habandoned
    simp [u, trialView]
  have hparts := hdown
  simp only [trialView, Prod.mk.injEq] at hparts
  obtain ⟨hpwr, hfw, -, -⟩ := hparts
  obtain ⟨slot, version, blots, hload, hkeep⟩ := loadCores_noTrial true (s := u) (by rw [hpwr, hfw]; exact h)
  have hrestart : s.restartAnvil [] = (u.loadCores [] true).reloadTrims := rfl
  have hnote (b : Blot) (e : Ev) (x : Subject) (d : List Byte) (t : State) : trialView (t.note b e x d) = trialView t := by
    simp [trialView]
  have hview : trialView (s.restartAnvil []) = trialView (u.loadCores [] true) := by
    rw [hrestart]
    exact reloadTrims_preserves (P := fun t => trialView t = trialView (u.loadCores [] true)) (fun _ _ _ h => h) (fun _ _ _ h => h)
      (fun _ _ h => h) (fun _ _ _ _ _ ht => (hnote ..).trans ht) rfl
  refine ⟨hview.trans ((congrArg trialView hload).trans hdown), ?_, fun m hm => ?_⟩
  · have hup := reloadTrims_warmView (u.loadCores [] true)
    simp only [warmView, Prod.mk.injEq] at hup
    obtain ⟨-, -, -, -, hup, -⟩ := hup
    rw [hrestart, hup, hload]
    exact coresDown_up _
  · have hu : Blotted m u := coresDown_blotted (chain_blotted _ (fun r t ht => complete_blotted _ _ _ _ ht) hm)
    rw [hrestart]
    refine reloadTrims_preserves (P := Blotted m) (fun _ _ _ h => h) (fun _ _ _ h => h) (fun _ _ h => h)
      (fun _ _ _ _ _ ht => note_blotted _ _ _ _ ht) ?_
    rw [hload]
    exact hkeep m hu

/-- The watchdog's expiry, noted with whether a trial runs (R312). -/
def wdogNoted (core : Fin 2) (s : State) : State :=
  s.note .anvWdog .anvWdog .device (le 1 core.val ++ le 1 (flag 0 (decide (s.anv.fw = .trial))))

/-- The expiry, judged against a trial that runs (R330). -/
def wdogJudged (core : Fin 2) (s : State) : State :=
  if s.anv.fw = .trial then (wdogNoted core s).revertOrHold 0 else wdogNoted core s

theorem anvWdog_eq (core : Fin 2) (bad : List (Fin 2 × Word)) (s : State) :
    s.anvWdog core bad = ((wdogJudged core s).resetCause 16).restartAnvil bad := by
  simp [State.anvWdog, wdogJudged, wdogNoted]

theorem execAnvWdog_armed (core : Fin 2) (bad : List (Fin 2 × Word)) {s : State} (hpow : s.powered = true)
    (hdone : s.dev.startup.configDone = true) (hawake : s.dev.coresAsleep = false) :
    exec (.anvWdog core bad) s = .next (s.anvWdog core bad) := by
  simp only [exec, execAnvWdog, hpow, hdone, hawake, Bool.not_false, Bool.and_self, if_true]

theorem revert_pwr (cause : Nat) (s : State) : (s.revert cause).pwr = s.pwr :=
  revert_preserves (P := fun t => t.pwr = s.pwr) (fun _ _ _ h => h) (fun _ _ _ _ _ h => (note_pwr ..).trans h) cause rfl

theorem wdogJudged_pwr (core : Fin 2) (s : State) : (wdogJudged core s).pwr = s.pwr := by
  have hnoted : (wdogNoted core s).pwr = s.pwr := note_pwr ..
  unfold wdogJudged State.revertOrHold
  repeat' split
  · exact hnoted
  · exact (revert_pwr ..).trans hnoted
  · exact hnoted

theorem boot_blots (a : Anvil) : a.boot.blots = a.blots := by
  obtain ⟨slot, version, hboot⟩ := boot_eq a
  rw [hboot]

theorem noteRecovery_blotted {m : BitVec 128} {s : State} (h : Blotted m s) : Blotted m s.noteRecovery := by
  obtain ⟨blots, hrecovery, hkeep⟩ := noteRecovery_eq s
  rw [hrecovery]
  exact hkeep m h

theorem revert_keepsBlots {m : BitVec 128} (cause : Nat) {s : State} (h : Blotted m s) : Blotted m (s.revert cause) := by
  unfold State.revert
  exact note_blotted _ _ _ _ (noteRecovery_blotted ((congrArg (· &&& m) (boot_blots _)).trans h))

theorem wdogJudged_blotted (core : Fin 2) (s : State) : Blotted (blotBit .anvWdog) (wdogJudged core s) := by
  have hnoted : Blotted (blotBit .anvWdog) (wdogNoted core s) := note_self _ _ _ _ _
  unfold wdogJudged State.revertOrHold
  repeat' split
  · exact hnoted
  · exact revert_keepsBlots 0 hnoted
  · exact hnoted

/-- Outside a warning a trial that the watchdog ends is rejected at once (R330). -/
theorem wdogJudged_trial (core : Fin 2) {s : State} (htrial : s.anv.fw = .trial) (hpf : s.pwr.pfail = false) :
    (wdogJudged core s).anv.fw = .idle ∧ (wdogJudged core s).anv.active = (slotIdx s.anv.fallback).val ∧
    (wdogJudged core s).anv.slots = upd s.anv.slots (slotIdx s.anv.active) (fun y => { y with verified := false }) ∧
    Blotted (blotBit .fwReverted) (wdogJudged core s) := by
  have hpwr : (wdogNoted core s).pwr = s.pwr := note_pwr ..
  have hjudged : wdogJudged core s = (wdogNoted core s).revert 0 := by
    rw [wdogJudged, if_pos htrial, State.revertOrHold, hpwr, if_neg (by simp [hpf])]
  obtain ⟨hfw, hactive, hslots⟩ := revert_anv 0 (wdogNoted core s)
  rw [hjudged]
  refine ⟨hfw, hactive.trans ?_, hslots.trans ?_, revert_blotted 0 _⟩
  · simp [wdogNoted]
  · simp [wdogNoted]

/-- What the watchdog has judged leaves no trial outside a warning. -/
theorem wdogJudged_noTrial (core : Fin 2) {s : State} (h : (wdogJudged core s).anv.fw = .trial) :
    (wdogJudged core s).pwr.pfail = true := by
  rw [wdogJudged_pwr]
  by_contra hpf
  rw [Bool.not_eq_true] at hpf
  by_cases htrial : s.anv.fw = .trial
  · obtain ⟨hidle, -⟩ := wdogJudged_trial core htrial hpf
    exact absurd (hidle.symm.trans h) (by decide)
  · rw [wdogJudged, if_neg htrial, wdogNoted, note_anv_fw] at h
    exact htrial h

/-! ### The supplies of the guard and calendar domains (R295, R334, R355) -/

/-- A source after the loss of both supplies: a blown fuse stays blown, all else is as reset (R355, R357). -/
theorem lost_src (g : GrdSrc) (i : Nat) : (g.lost i).fused = g.fused ∧ (g.lost i).fired = false ∧ (g.lost i).iso = false ∧
    (g.lost i).count = 0 ∧ (g.lost i).mask = if g.fused then 0 else grdDefault i := by
  unfold GrdSrc.lost
  cases g.fused <;> exact ⟨rfl, rfl, rfl, rfl, rfl⟩

theorem lost_srcs (g : Guard) (i : Fin 16) : g.lost.srcs[i] = g.srcs[i].lost i.val := Vector.getElem_ofFn ..

theorem execSupplyLossBoth_unsupplied {s : State} (h : s.supplied = false) : exec .supplyLossBoth s = .next { s with
    dev := { s.dev with st := .off }, pwr := { s.pwr with vbatOn := false }, flt := { s.flt with calStop := false }
    grd := s.grd.lost, cld := .reset } := by
  simp only [exec, execSupplyLossBoth, h, Bool.false_eq_true, if_false]

/-- Settles O44: each reset and each supply row by what it keeps. -/
theorem resetRowsComplete : Obligations.ResetRowsComplete := by
  refine ⟨fun s hs => ?_, fun selfCheck s hfw => ?_, fun s hlow hs => ?_, fun s hpow hpf hclosed => ?_,
    fun s hpow hpf hclosed herased => ?_, fun selfCheck s hlow => ⟨fun hs => ?_, fun hs hfw => ?_⟩, fun bad selfCheck s hpow => ?_,
    fun core s hpow hdone hawake => ?_, fun s hoff => ?_, fun s hon => ?_, fun s hs => ?_⟩
  · obtain ⟨why, hexec⟩ := execBrownout_supplied hs
    exact ⟨_, hexec, rfl, rfl, rfl, rfl, rfl, rfl, rfl, fun harming => (congrArg Guard.kek (abandonArm_idle harming) :),
      flush_srcs s.grd.srcs, rfl, rfl⟩
  · obtain ⟨why, t, hexec, hdev, hsessions, hpwr, hpts, hcld, hslots, hgrd⟩ := execPor_noTrial selfCheck hfw
    refine ⟨t, hexec, by rw [hdev]; rfl, by rw [hdev]; rfl, hsessions, by rw [hpwr]; rfl, by rw [hpwr]; rfl, hpts, hcld, hslots,
      fun hlow harming => ?_⟩
    rw [hgrd hlow, startUp_quenched, abandonArm_idle harming]
  · simp only [exec, execResetnCold, hlow, hs, Bool.false_eq_true, if_false]
  · have hview := coldTrims_coldView s.trim (coldReset_awake 4 2 s)
    simp only [coldView, Prod.mk.injEq] at hview
    obtain ⟨hdev, -, hpwr, hpts, -⟩ := hview
    have hexec := execResetnCold_powered hpow
    rw [resetEntry_none hpf hclosed] at hexec
    exact ⟨_, hexec, congrArg Dev.st hdev, rfl, (congrArg Power.rstCause hpwr :), (congrArg Power.records hpwr :), hpts⟩
  · have hview := coldTrims_coldView s.trim (coldReset_awake 4 2 (s.writeEntry (s.record s.pwr.ceil)))
    simp only [coldView, Prod.mk.injEq] at hview
    obtain ⟨-, -, hpwr, -⟩ := hview
    have hexec := execResetnCold_powered hpow
    rw [resetEntry_closed hpf hclosed herased] at hexec
    exact ⟨_, _, hexec, rfl, (congrArg Power.erased hpwr :), (congrArg Power.records hpwr :), rfl⟩
  · simp only [exec, execResetnRelease, hlow, hs, Bool.not_true, Bool.false_eq_true, if_false]
  · obtain ⟨a, hbegun, -⟩ := begin_noTrial selfCheck (s := s.phase fun x => { x with inReset := false }) hfw
    have hexec : exec (.resetnRelease [] selfCheck) s = .next ((s.phase fun x => { x with inReset := false }).begin_ [] selfCheck) := by
      simp only [exec, execResetnRelease, hlow, hs, Bool.not_true, Bool.false_eq_true, if_false, if_true]
    rw [hbegun] at hexec
    exact ⟨_, hexec, rfl, rfl, rfl⟩
  · obtain ⟨t, hexec, hscr, hpwr, hmcal, hstartup, hup, hpts, hcfg, heff, hst⟩ := execResetnWarm_leaves bad selfCheck hpow
    refine ⟨t, hexec, by rw [hscr]; rfl, hpts, hcfg, heff, by rw [hmcal], by rw [hmcal], by rw [hmcal], hst, hup, by rw [hpwr], ?_,
      fun hbefore => ?_⟩
    · cases hm : s.metering
      · rw [hstartup, warmBegun_startup_before hm]
        exact hm.symm
      · rw [hstartup, warmBegun_startup_metering hm, warmReset_startup]
    · rw [hstartup, warmBegun_startup_before hbefore]
      exact ⟨rfl, rfl, rfl⟩
  · have hexec := execAnvWdog_armed core [] hpow hdone hawake
    rw [anvWdog_eq] at hexec
    obtain ⟨hview, hup, hblots⟩ := restartAnvil_noTrial (s := (wdogJudged core s).resetCause 16) (wdogJudged_noTrial core)
    simp only [trialView, Prod.mk.injEq] at hview
    obtain ⟨hpwr, hfw, hactive, hslots⟩ := hview
    refine ⟨_, hexec, hup, ?_, ?_, hblots _ (wdogJudged_blotted core s), fun htrial hpf => ?_⟩
    · rw [← anvWdog_eq, anvWdog_pts]
    · rw [hpwr]
      exact congrArg (fun p : Power => p.rstCause ||| 16) (wdogJudged_pwr core s)
    · obtain ⟨hidle, hfallback, hspoilt, hreverted⟩ := wdogJudged_trial core htrial hpf
      refine ⟨hfw.trans hidle, hactive.trans hfallback, ?_, hblots _ hreverted⟩
      have hspoilt' : (((wdogJudged core s).resetCause 16).restartAnvil []).anv.slots =
        upd s.anv.slots (slotIdx s.anv.active) (fun y => { y with verified := false }) := hslots.trans hspoilt
      rw [hspoilt', upd_same]
  · simp [exec, execVaonChangeover, hoff]
  · simp [exec, execVaonChangeover, hon]
  · refine ⟨_, execSupplyLossBoth_unsupplied hs, rfl, rfl, rfl, rfl, rfl, rfl, fun i => ?_, rfl, rfl⟩
    have hsrc := lost_srcs s.grd i
    obtain ⟨hfused, hfired, hiso, hcount, hmask⟩ := lost_src s.grd.srcs[i] i.val
    dsimp only
    rw [hsrc]
    exact ⟨hfused, hfired, hiso, hcount, hmask⟩

end Sys2Proof.Scope
end
